-- ==== Sys2Proof/Word.lean ====
section
/-! DEFINITION. The word types of the device (R8, R9): bytes, 32-bit registers, 64-bit accumulator words. -/

namespace Sys2Proof

/-- One byte of memory. -/
abbrev Byte := BitVec 8

/-- One register (R9: every register is 32 bits wide). -/
abbrev Word := BitVec 32

/-- One 64-bit word: an accumulator word (R58), half an array instruction (R76). -/
abbrev DWord := BitVec 64

/-- One image or Program digest (SHA-512). -/
abbrev Digest := BitVec 512

end Sys2Proof
end

