-- ==== Sys2Proof/Syntax.lean ====
section
/-! DEFINITION. The commands of the block: one constructor of `Instr` per row of the operation table, with the
operands that say which instance it acts on, who asks, and what the outside world brings (levels, packets, measured
values, signature verdicts). -/

namespace Sys2Proof

/-- Who makes a request (Table 05-3 gives the requester index of each). -/
inductive Requester where
  /-- The sequencer of cluster c (unit 0). -/
  | sequencer (c : Nat)
  /-- Array a of cluster c for context x. -/
  | array (c a x : Nat)
  /-- Vector engine e of cluster c for context x. -/
  | engine (c e x : Nat)
  /-- Mover channel n of cluster c for context x (unit 1). -/
  | mover (c n x : Nat)
  /-- The attention sequencer of cluster c for context x (unit 2). -/
  | attention (c x : Nat)
  /-- The tiler of cluster c reading or writing for context x (unit 0). -/
  | tiler (c x : Nat)
  /-- The swap unit of cluster c (R294). -/
  | swapUnit (c : Nat)
  | steward
  | urn
  | caddy
  /-- The host behind the PCI Express endpoint. -/
  | pcie
  /-- Core h of the service complex (partition S). -/
  | hart (h : Nat)
  /-- Inbound traffic of Spout port s. -/
  | spout (s : Nat)
  /-- Camera ingest pipe i. -/
  | pipe (i : Nat)
  /-- Ethernet parser or MAC e. -/
  | parser (e : Nat)
  /-- Detection Post-Processor d. -/
  | dpp (d : Nat)
  /-- The Rinse of pool slice n. -/
  | sliceRinse (n : Nat)
  /-- The test access port (R133). -/
  | jtag
  deriving DecidableEq, Repr

/-- The right an access needs (R122). -/
inductive Right where
  | read
  | write
  | atomic
  deriving DecidableEq, Repr

/-- The atomic operations (R128) and the counter fetch (R129). -/
inductive AtomicOp where
  | add
  | swap
  | cas
  | fadd
  | fetch
  deriving DecidableEq, Repr

/-- What an access does. -/
inductive AccessKind where
  | read (len : Nat)
  | write (bytes : List Byte)
  | atomic (op : AtomicOp) (operand expected : Nat)
  /-- SIGNAL adds to a synchronisation object, SET writes it (R306). -/
  | signal (inc : Nat)
  | set (value : Nat)
  deriving DecidableEq, Repr

/-- One request (R19): who asks, the 48-bit global address, whether it is tagged (R116), what it does, and whether a tagged read keeps
the tag (Table 05-2). -/
structure Access where
  req : Requester
  addr : Nat
  tagged : Bool
  kind : AccessKind
  keep : Bool := false
  deriving DecidableEq, Repr

/-- What a Zicbom instruction of a core does to the L2 lines of an address range (R405, R407). -/
inductive CacheOp where
  | inval
  | clean
  | flush
  deriving DecidableEq, Repr

/-- A byte of a unit's golden result that a hardware fault changed (R438, R439): an input of the model. Units 0–7 are arrays, 8 and 9 vector
engines, 10 the Mover with the attention sequencer.
LOG 161 (DESIGN CHOICE). -/
structure UnitError where
  cluster : Nat
  unit : Nat
  pos : Nat
  xor : Byte
  deriving DecidableEq, Repr

/-- The fault sources (Table 21-1, Table 22-12, Table 23-13); software source n is `software n`. -/
inductive Src where
  | addrUnmapped | chipIdInvalid | siReject
  | accSat | accBound | arrInstrInvalid | accWriteBusy | accAnchorMismatch | vecKernelInvalid | descInvalid | tilerArena
  | spCe | accCe | poolCe | spUe | accUe | poolUe | bbViolation | rinseLocked
  | movDescInvalid | movPageFault | movXlateTimed | tuPteInvalid | tuXlateTimed | tuLockFull | tuScrubFull | tuXlateAbort
  | attPageFault | attXlateTimed | attOverrun | seqFull | seqSetReject | syncInvalid | ctxSaveFail | dppMismatch
  | slotConflict | lateData | deadlineMiss | frameSqueeze | frameSkip | selftestOverdue | ageLate | ageStale
  | ingCsiErr | ingFrameDrop | ingOverrun | ingUnsynced | ethParseDrop | strainerStuck
  | tbJump | tbJumpRefused | tbRateClamp | tbTsOvf | tbStall
  | spLinkDown | spDegraded | spPeerMismatch | spNoRoute | spTtlDrop | spInboundReject | spTimedRemote | spRespTimeout
  | spBarrierTimeout
  | peNotMaster | peAerUncor | peLinkDown | ringErr
  | mcCe | mcRetry | mcUe | mcAtomicInvalid | mcDrift | mcDramHot | mcTrainFail
  | lockstepMismatch | lsInjectFail | tasterMismatch | tasterMissed | selftestFail | repairExhausted | safeIn
  | hangContext | hangSequencer | hangTask | stewardHb | partOos | fwSwitchFail | crashPartial | resetOverrun
  | pmThrottle | pmThermCrit | pmThermShutdown | pmSensorFail | pmAvsFail | ckPllUnlock
  | cadOtpCe | cadRecovery | cadSigFail | cadRollback | cadEnrolReject | cadTrngFail
  | software (n : Nat)
  deriving DecidableEq, Repr

/-- What a raise carries into its record (Table 21-4); the cluster and the task instance the record names for an
ACTION (R460) ride beside the record's own fields.
LOG 127 (DESIGN CHOICE). -/
structure FaultInfo where
  ctx : Nat := 0xFF
  req : Nat := 0x3FF
  unit : Nat := 0
  info0 : Nat := 0
  info1 : Nat := 0
  cluster : Option Nat := none
  task : Option Nat := none
  deriving DecidableEq, Repr

/-- What the ROM finds as it reads OTP (R482), an input of the model: no error, single-bit errors that it corrects, or a double-bit error in a
field other than a revocation bit.
LOG 176 (DESIGN CHOICE). -/
inductive OtpRead where
  | clean
  | corrected
  | lost
  deriving DecidableEq, Repr

/-- The verdict of the two signature engines on a blob (R30, R479), an input of the model: Ed25519 and ML-DSA-65.
LOG 136 (DESIGN CHOICE). -/
structure SigVerdict where
  ed : Bool
  ml : Bool
  deriving DecidableEq, Repr

/-- A Spout packet (Table 17-3). -/
structure SpoutPacket where
  kind : Nat
  cls : Nat
  vc : Nat
  ttl : Nat
  dest : Nat
  src : Nat
  req : Nat
  len : Nat
  atomicOp : Nat
  tagged : Bool
  addr : Nat
  tag : Nat
  payload : List Byte
  deriving DecidableEq, Repr

/-- A received link block (R366): its sequence number, the symbol errors its code found, whether its CRC holds after
correction, and the packets it carries. -/
structure LinkBlock where
  seq : Nat
  symbolErrors : Nat
  crcOk : Bool
  packets : List SpoutPacket
  deriving DecidableEq, Repr

/-- A CSI-2 packet at a camera port (R334): data type, virtual channel, whether header ECC and payload CRC allow it,
and the payload of one line. -/
structure CsiPacket where
  dt : Nat
  vc : Nat
  headerOk : Bool
  crcOk : Bool
  payload : List Byte
  deriving DecidableEq, Repr

/-- How a frame arrived at a MAC (R341): good CRC, and its receive instant in raw nanoseconds before the command. -/
structure EthInfo where
  crcOk : Bool
  ageNs : Nat
  deriving DecidableEq, Repr

/-- One context window of a task (Table 05-4), its four words. -/
structure WindowWords where
  w0 : Nat
  w1 : Nat
  w2 : Nat
  w3 : Nat
  deriving DecidableEq, Repr

/-- The schedule of one unit of a timed task (R269): on a cluster, of array `unit` (0–7) or of the local pieces of Mover channel
`unit` − 8, the tick after the task's start of each instruction or piece, in order.
LOG 41 (DESIGN CHOICE). -/
structure UnitSched where
  cluster : Nat
  unit : Nat
  ticks : List Nat
  deriving DecidableEq, Repr

/-- A task record of a Program, as the Steward reads it at PROG_LOAD: the launch record of R293 or the timed task
record of R269. -/
structure TaskRec where
  index : Nat
  timed : Bool
  clusters : List Nat
  listAddr : Nat
  count : Nat
  statusAddr : Nat
  arenaFirst : Nat
  arenaCount : Nat
  prio : Nat
  starts : List (Nat × Nat)
  lengthCt : Nat
  step : Bool
  root : Nat
  asid : Nat
  syncBase : Nat
  syncCount : Nat
  windows : List WindowWords
  tileMask : Nat
  sched : List UnitSched
  deriving DecidableEq, Repr

/-- A Program (R2, R97, R319, R320, R324, R403): what its image declares. The binary form is Ezrix Plan's.
LOG 152 (DESIGN CHOICE). -/
structure Program where
  timedWidth : Nat
  seed : Nat
  ci : Bool
  valueOptin : Bool
  poolBanks : Nat
  ctrGroups : Nat
  kernels : List Nat
  tasks : List TaskRec
  graph : List Nat
  seqTimed : Bool
  workListAddr : Nat
  dppTimed : Nat
  locks : List (Nat × Nat)
  brewTaskLengths : List (Nat × Nat)
  /-- The pool word (a local address) of the page-fault handler that the Program names, if it names one (R255). -/
  pfHandler : Option Nat := none
  deriving DecidableEq, Repr

/-- The commands: one constructor per row of the operation table. -/
inductive Instr where
  /-- REGISTER_WRITE (R11). A write to a register that has no row of its own stores, sets, clears or ignores its fields by access code, after the width and alignment checks of R9. -/
  | registerWrite (r : Requester) (addr width value : Nat)
  /-- COUNTER_LOW_READ (R10). A read of the low word of a 64-bit counter latches the high word for the next high-word read. -/
  | counterLowRead (r : Requester) (addr : Nat)
  /-- SI_SUBMIT (R37). The Steward copies a submitted Structure Image into its control memory and runs the ordered acceptance checks. -/
  | siSubmit (ring idx : Nat) (edOk mlOk : Bool)
  /-- IMAGE_ACCEPTANCE (R38). Completion of the journal record makes the new image current, the old one previous, and raises ST_SI_MAX_VERSION and the floor. -/
  | imageAcceptance
  /-- HOT_SWITCH (R40). At the first eligible major-cycle boundary tick, a partition's hot sections switch to the new content in one tick. -/
  | hotSwitch (p : Nat)
  /-- SI_REVERT (R45). A revert command makes the previous image current and marks the former current image revoked, or is refused with NO_PREVIOUS or BUSY. -/
  | siRevert (ring idx : Nat)
  /-- PANEL (R75). A PANEL instruction issues and loads a panel slot with B and its scales at 256 B per ct. -/
  | panel (c a x : Nat)
  /-- ANCHOR (R79). An ANCHOR instruction issues and fixes the anchors and initial words of a tile from the bounds slot or a partial-sum image. -/
  | anchor (c a x : Nat)
  /-- PASS (R86). A PASS instruction issues once its operands, panel and tile are ready and runs its K-steps into the tile. -/
  | pass (c a x : Nat)
  /-- PASS_COMMIT (R88). A pass commit writes the last tile row, reports saturation, empties consumed slots and increments ARR_PASS_COUNT. -/
  | passCommit (c a : Nat)
  /-- DRAIN (R103). A DRAIN instruction issues and converts a tile, optionally through a post-operation chain, into destination slots. -/
  | drain (c a x : Nat)
  /-- DRAIN_COMPLETE (R103). When the last drained row is written, the destination slots are marked full. -/
  | drainComplete (c a : Nat)
  /-- SAVE (R82). A SAVE instruction writes a tile image of 41 slots. -/
  | save (c a x : Nat)
  /-- RESTORE (R82). A RESTORE instruction loads a tile and its anchors from a tile image. -/
  | restore (c a x : Nat)
  /-- MERGE (R82). A MERGE instruction checks image anchors against the tile and adds the image's words into the tile. -/
  | merge (c a x : Nat)
  /-- MERGE_COMPLETE (R82). At the end of a MERGE the tile's saturation bit and R60 reporting are set if any element or the image saturated. -/
  | mergeComplete (c a : Nat)
  /-- PASS_ABORT (R92). An aborted pass stops its K-steps, discards cell values, ramps down and flushes its context's queue. -/
  | passAbort (c a x cause : Nat)
  /-- ACC_WRITE (R81). A window write to accumulator memory changes the word if the array is idle. -/
  | accWrite (r : Requester) (c a t e value be : Nat)
  /-- ARR_CTRL_STOP (R90). Writing ARR_CTRL.STOP holds elastic contexts of the array at the next pass boundary. -/
  | arrCtrlStop (r : Requester) (c a value : Nat)
  /-- ARR_TILE_OWNER_WRITE (R77). A write to ARR_TILE_OWNER changes tile owners except for tiles with queued or running instructions. -/
  | arrTileOwnerWrite (r : Requester) (c a value : Nat)
  /-- VEC_STEP (R101). A vector engine runs one kernel, drain or WINDOW step of at most 64 ct. -/
  | vecStep (c e : Nat)
  /-- VEC_CHAIN_WRITE (R106). A write to a chain table entry is stored unless a queued or running DRAIN names the entry. -/
  | vecChainWrite (r : Requester) (c e off value : Nat)
  /-- CORRECTION_WRITE_BACK (R113). A corrected scratchpad word is rewritten in the first tick its bank's write port is otherwise unused. -/
  | correctionWriteBack (c bank : Nat)
  /-- REMOTE_ACCESS (R126). A request from another cluster reaches a cluster's scratchpad, accumulator memory, counters or registers through its router port. -/
  | remoteAccess (a : Access)
  /-- POOL_ATOMIC (R128). A shared-pool bank performs a fetch-and-add, swap, compare-and-swap or FP32 add in one NoC tick. -/
  | poolAtomic (r : Requester) (op : AtomicOp) (addr operand expected : Nat)
  /-- WORK_COUNTER_FETCH (R130). A work counter serves a fetch-and-add, with same-tick operations served in ascending requester index. -/
  | workCounterFetch (r : Requester) (addr inc : Nat)
  /-- SET_FULL (R117). A CL_SLOT_TAG_CMD write with OP 0b01 marks a slot full after the tick's hardware changes. -/
  | setFull (r : Requester) (c slot : Nat)
  /-- SET_EMPTY (R117). A CL_SLOT_TAG_CMD write with OP 0b10 marks a slot empty after the tick's hardware changes. -/
  | setEmpty (r : Requester) (c slot : Nat)
  /-- RINSE_SCRUB (R131). Once the context's outstanding accesses reach zero, the Rinse zero-fills locked windows and owned tiles. -/
  | rinseScrub (c x : Nat)
  /-- RINSE_REGION_DONE (R133). When a locked region's scrub completes, the region unlocks and WIN_LOCKED clears its bit. -/
  | rinseRegionDone (c x w : Nat)
  /-- MOV_DESC_WRITE (R138). A write to a Mover descriptor entry is stored while the entry is free and ignored while it is queued. -/
  | movDescWrite (r : Requester) (c e word value : Nat)
  /-- MOV_PUSH (R142). A write to MOV_CHn_PUSH checks the entry's descriptor and queues it on the channel or refuses it. -/
  | movPush (r : Requester) (c n e : Nat)
  /-- MOV_ABORT (R155). Writing MOV_CHn_CTRL.ABORT stops issue, discards returning pieces and frees the channel's entries. -/
  | movAbort (r : Requester) (c n : Nat)
  /-- MOV_RESUME (R152). Writing MOV_CHn_CTRL.RESUME restarts a fault-suspended descriptor at PROGRESS. -/
  | movResume (r : Requester) (c n : Nat)
  /-- MOV_CTX_BIND (R137). A write to MOV_CHn_CTRL.CTX binds the channel to a context unless its queue is not empty. -/
  | movCtxBind (r : Requester) (c n x : Nat)
  /-- MOVER_PIECE_ISSUE (R144). A Mover channel translates, window-checks and issues the next piece of its descriptor. -/
  | moverPieceIssue (c n : Nat)
  /-- PIECE_DELIVERY (R144). A returned piece is written at its destination in issue order and PROGRESS advances. -/
  | pieceDelivery (c n : Nat)
  /-- TIMED_PIECE_RELEASE (R149). At t + RELEASE a timed piece is delivered from staging, or is late. -/
  | timedPieceRelease (c n : Nat) (staged : Bool)
  /-- DESCRIPTOR_RETIRE (R151). A finished descriptor marks slots full, increments MOV_CHn_RETIRED, signals SYNC_ID and frees its entry. -/
  | descriptorRetire (c n : Nat)
  /-- TOKEN_REFILL (R148). Every 256 ct each regulated elastic channel gains RATE tokens up to BURST. -/
  | tokenRefill (c : Nat)
  /-- MATMUL (R173). The tiler reads and checks a MATMUL descriptor, plans blocks and emits its Mover, array and engine work. -/
  | matmul (c x : Nat)
  /-- CONV2D (R195). The tiler maps a CONV2D operator to a dense matrix product with an implicit A operand. -/
  | conv2d (c x : Nat)
  /-- DWCONV2D (R196). The tiler runs a depth-wise convolution in the diagonal mapping. -/
  | dwconv2d (c x : Nat)
  /-- GROUPCONV2D (R195). The tiler runs a grouped convolution in the dense or diagonal mapping by Cg_out. -/
  | groupconv2d (c x : Nat)
  /-- POOL_MAX (R200). Kernel 0x08 takes the maximum over each window's taps. -/
  | poolMax (c x : Nat)
  /-- POOL_AVG (R200). Kernel 0x09 averages each window's taps under COUNT_MODE. -/
  | poolAvg (c x : Nat)
  /-- RESIZE (R201). Kernel 0x0A resizes by nearest or bilinear mapping of output pixels. -/
  | resize (c x : Nat)
  /-- ATTN_STEP (R229). The attention sequencer runs the append and attend items of a Sequence Table step. -/
  | attnStep (c x : Nat)
  /-- ACCEPT (R236). Kernel 0x10 verifies candidates, writes ACCEPTED and the next token of each run. -/
  | accept (c x : Nat)
  /-- DETECT (R206). The tiler stages detection inputs, hands the job to a DPP and copies out the kept records. -/
  | detect (c x : Nat)
  /-- ELEMWISE (R172). Kernel 0x02 applies CHAIN to every element. -/
  | elemwise (c x : Nat)
  /-- LAYERNORM (R102). Kernel 0x03 normalises each row in the fixed order. -/
  | layernorm (c x : Nat)
  /-- RMSNORM (R102). Kernel 0x04 applies RMS normalisation to each row. -/
  | rmsnorm (c x : Nat)
  /-- SOFTMAX (R172). Kernel 0x05 evaluates a softmax of each row. -/
  | softmax (c x : Nat)
  /-- REDUCE (R71). Kernel 0x06 sums or takes the maximum or minimum of each row. -/
  | reduce (c x : Nat)
  /-- CAST (R66). Kernel 0x07 converts elements between formats. -/
  | cast (c x : Nat)
  /-- BOUNDS (R172). Kernel 0x01 reduces scales or census to bounds slots with resolved headroom. -/
  | bounds (c x : Nat)
  /-- COPY (R170). The tiler submits the descriptor's embedded Mover descriptor. -/
  | copy (c x : Nat)
  /-- CENSUS (R156). A CENSUS operator reads a tensor and writes its census bytes only. -/
  | census (c x : Nat)
  /-- COMPLETION_WORD (R164). When a cluster finishes or aborts its share, the tiler writes the completion word and signals SYNC_ID. -/
  | completionWord (c x : Nat)
  /-- WINDOW (R199). Kernel 0x0B builds an implicit A chunk from staged input runs once they are present. -/
  | window (c x : Nat)
  /-- ARR_FLUSH (R183). A write to CL_ARR_FLUSH discards a context's queued, unissued instructions on the named arrays. -/
  | arrFlush (r : Requester) (c x arrays : Nat)
  /-- SPLIT_K_FALLBACK (R183). After ACC_BOUND and the context's commits, the tiler restarts the work item in fallback order or aborts. -/
  | splitKFallback (c x : Nat)
  /-- PHASE_2_ITEM (R181). Once a block's count word reaches SPLIT, its phase-2 item restores, merges and drains the partial sums. -/
  | phase2Item (c x : Nat)
  /-- COUNT_WORD_READ (R309). At its scheduled tick and each later tick, a timed tiler reads a count or APPENDED word once as a plain read. -/
  | countWordRead (c : Nat)
  /-- DPP_JOB_START (R205). A DPP takes the next queued job and decodes, sorts, suppresses and writes records. -/
  | dppJobStart (d : Nat)
  /-- DPP_JOB_END (R216). A DPP job ends and an elastic job signals completion to its tiler. -/
  | dppJobEnd (d : Nat)
  /-- DPP_T_BOUND (R216). A timed DPP job signals completion exactly T_bound ct after it started. -/
  | dppTBound (d : Nat)
  /-- SEQ_SET (R223). A SEQ_SET mailbox command is taken and held until its apply moment. -/
  | seqSet (ring idx : Nat)
  /-- STEP_BUILD (R224). The Steward increments ST_SEQ_STEP and builds the step's work list from the Sequence Table. -/
  | stepBuild (p : Nat)
  /-- STEP_COMMIT (R226). When a step task completes, each run's entry is committed in one update. -/
  | stepCommit (p : Nat)
  /-- APPEND_ITEM (R231). An append item writes a run's new keys, values and census and adds 1 to APPENDED. -/
  | appendItem (c x : Nat)
  /-- ATTEND_ITEM (R231). Once APPENDED suffices, an attend item walks the key/value blocks of up to 32 rows through an online softmax. -/
  | attendItem (c x : Nat)
  /-- ATT_RESUME (R239). Writing ATT_CTRL.RESUME restarts a suspended attention item at the faulting point. -/
  | attResume (r : Requester) (c : Nat)
  /-- ATT_OVERRUN (R240). At MAX_CT a timed ATTN_STEP signals completion, or raises ATT_OVERRUN and aborts if unfinished. -/
  | attOverrun (c : Nat)
  /-- PAGE_WALK (R248). The walker reads page-table entries level by level and installs or reports the result. -/
  | pageWalk (r : Requester) (c x va : Nat) (right : Right)
  /-- FENCE_ISSUE (R257). A write to TU_FENCE_CMD_HI issues a fence that drops matching unlocked translations. -/
  | fenceIssue (r : Requester) (hi : Nat)
  /-- FENCE_RETIRE (R258). A fence retires in issue order once its entries, walks and accesses are done. -/
  | fenceRetire
  /-- BB_WINDOW_WRITE (R259). Making an LPDDR6 SCRUB window valid reserves a scrub-lock entry, or leaves V clear and raises TU_SCRUB_FULL. -/
  | bbWindowWrite (r : Requester) (c x w word value : Nat)
  /-- LPDDR6_ZERO_FILL (R259). After teardown quiesces, the Translation Unit zero-fills Z pages inside locked LPDDR6 windows. -/
  | lpddr6ZeroFill (c x : Nat)
  /-- MINOR_FRAME_START (R262). A partition's dispatcher starts a minor frame at its start tick. -/
  | minorFrameStart (p : Nat)
  /-- BREW_LAUNCH (R269). A LAUNCH entry writes a timed task's launch registers on its clusters, or is refused on a busy context. -/
  | brewLaunch (p : Nat)
  /-- TIMED_TASK_START (R269). A timed task starts on its clusters 24 ct after its LAUNCH entry. -/
  | timedTaskStart (p task : Nat)
  /-- DEADLINE_MISS (R270). At T + 24 + END an unfinished timed task raises DEADLINE_MISS and is aborted. -/
  | deadlineMiss (p task : Nat)
  /-- INGRESS (R277). An INGRESS entry releases buffered indices and stamps and the staged direct writes of its sources. -/
  | ingress (p : Nat)
  /-- STAGING_ENQUEUE (R278). A write from outside the compute region enters its source's staging queue, or holds off its source when full. -/
  | stagingEnqueue (src : Nat) (p : Nat) (a : Access)
  /-- INJECTION_STOP (R278). At T + WINDOW − 40 injection stops and uninjected writes carry to the next release. -/
  | injectionStop (p src : Nat)
  /-- SWAP (R26). A SWAP entry exchanges the versions of a handoff buffer for the timed consumer. -/
  | swap (p : Nat)
  /-- CLAIM (R271). A CLAIM entry holds elastic contexts on the named arrays and engines of a task's clusters. -/
  | claim (p : Nat)
  /-- CLAIM_RELEASE (R271). At T + LENGTH a claim is released. -/
  | claimRelease (p : Nat)
  /-- TASTER (R282). A TASTER entry reserves every array, engine and Mover of the partition for 448 ct. -/
  | taster (p : Nat)
  /-- GOLDEN_TEST (R438). At T + 320 every unit runs the frame's golden set into its signature compressor. -/
  | goldenTest (p : Nat) (errors : List UnitError)
  /-- TASTER_COMPARE (R440). At T + 448 each signature is compared and a difference raises TASTER_MISMATCH. -/
  | tasterCompare (p c : Nat)
  /-- SELFTEST (R283). A SELFTEST entry claims a unit for LENGTH ct. -/
  | selftest (p : Nat)
  /-- SELFTEST_SLICE (R283). After the claim lead, the unit's next self-test slice starts. -/
  | selftestSlice (p : Nat)
  /-- SLICE_END (R284). A self-test slice finishes and counts in BT_ST_DONE. -/
  | sliceEnd (p : Nat) (failAt : Option Nat)
  /-- SLICE_ABANDON (R284). At T + LENGTH an unfinished slice is abandoned and its unit restored. -/
  | sliceAbandon (p : Nat)
  /-- SELFTEST_OVERDUE (R285). A unit whose test is older than its interval raises SELFTEST_OVERDUE once. -/
  | selftestOverdue (p kind unit index : Nat)
  /-- PUBLISH (R287). A PUBLISH entry writes SEQ and AGE_US of a stream, or withholds it. -/
  | publish (p : Nat)
  /-- URN_AGE_PUB (R287). A write of a stream number to URN_AGE_PUBp publishes a software stream. -/
  | urnAgePub (r : Requester) (p stream : Nat)
  /-- AGE_CHECK (R445). Every 50 µs the Age Monitor checks every stream against STALE_MAX_NS and raises AGE_STALE. -/
  | ageCheck
  /-- NOC_PACKET (R273). A router forwards a timed or elastic packet under its slot table. -/
  | nocPacket (router p : Nat) (r : Requester) (ga : Nat) (back timed : Bool) (rival : Option (Requester × Bool))
  /-- LAUNCH (R293). A mailbox LAUNCH queues an elastic task for slot allocation. -/
  | launch (ring idx : Nat)
  /-- TASK_GRAPH_LAUNCH (R293). An entry of the elastic task graph launches an elastic task. -/
  | taskGraphLaunch (p entry : Nat)
  /-- SLOT_ALLOCATE (R293). When every named cluster has a free slot, the Steward allocates slots for a queued launch. -/
  | slotAllocate
  /-- CONTEXT_SWAP (R298). A cluster chooses a resident context to evict for a ready swapped-out slot. -/
  | contextSwap (c : Nat)
  /-- STATE_IMAGE_SAVE (R299). Once the context is quiescent, the swap unit saves tiles and state to the save area. -/
  | stateImageSave (c x : Nat)
  /-- LOAD (R299). A CL_CTX_CMD LOAD streams a slot's image into a context and restores its tiles. -/
  | load (r : Requester) (c x slot : Nat)
  /-- LOAD_COMPLETE (R299). A loaded slot's descriptors are pushed again and the context becomes ready. -/
  | loadComplete (c x : Nat)
  /-- PREEMPT (R302). A CL_CTX_CMD PREEMPT evicts an elastic context, keeping its slot allocated. -/
  | preempt (r : Requester) (c x : Nat)
  /-- TEARDOWN (R313). A CL_CTX_CMD TEARDOWN aborts a context's work, rinses it and frees its slot. -/
  | teardown (r : Requester) (c x : Nat) (swapped : Bool) (slot : Nat)
  /-- WATCH (R308). A pool slice records a watch and returns the word's value. -/
  | watch (c x : Nat)
  /-- UNWATCH (R310). A pool slice removes a watch of an evicted context. -/
  | unwatch (c x : Nat)
  /-- WAKE (R308). A WAKE reaches a watcher, which re-reads the word and unblocks or watches again. -/
  | wake (c x addr : Nat)
  /-- SYNC_SIGNAL (R306). A SIGNAL adds to a synchronisation object once prior writes are visible and wakes its watchers. -/
  | syncSignal (r : Requester) (addr inc : Nat)
  /-- SYNC_SET (R306). A Steward SET writes an object's value and wakes its watchers. -/
  | syncSet (addr value : Nat)
  /-- SYNC_POLL (R308). Every 256 ct a wait on a non-pool word or with a full watch table is polled. -/
  | syncPoll (c x : Nat)
  /-- TILER_CONTEXT_CHANGE (R297). After 2,048 ct of emitting, the sequencer moves to another ready context of equal or higher priority. -/
  | tilerContextChange (c : Nat)
  /-- SEED (R324). A SEED command sets ST_SEEDp at the next or named step build. -/
  | seed (ring idx : Nat)
  /-- ND_CLEAR (R328). An ND_CLEAR command clears the partition's ND counters. -/
  | ndClear (ring idx : Nat)
  /-- CLR_TIMING (R328). Writing ST_DET_CTRL.CLR_TIMING clears ND_TIMING before that tick's increments. -/
  | clrTiming (r : Requester) (p : Nat)
  /-- CLR_VALUE (R328). Writing ST_DET_CTRL.CLR_VALUE clears ND_VALUE and ST_ND_VALUE_FIRST. -/
  | clrValue (r : Requester) (p : Nat)
  /-- CSI_PACKET (R334). A camera port receives a CSI-2 packet and passes image data through the pipe stages. -/
  | csiPacket (i : Nat) (pkt : CsiPacket)
  /-- FRAME_START (R338). A frame-start packet stamps the frame and chooses a buffer, cutting short any open frame. -/
  | frameStart (i vc : Nat)
  /-- FRAME_COMPLETE (R338). After its last byte is written a good frame's buffer is marked complete. -/
  | frameComplete (i : Nat)
  /-- ING_STAMP_OFS (R337). A write to ING_STAMP_OFS applies to frames that start after it. -/
  | ingStampOfs (r : Requester) (i value : Nat)
  /-- ETH_FRAME (R341). A MAC receives a frame and hands it to a matching parser or to partition S. -/
  | ethFrame (e : Nat) (frame : List Byte) (ethInfo : EthInfo)
  /-- BUFFER_CLOSE (R342). At t_first + CLOSE_US a parser buffer completes. -/
  | bufferClose (e : Nat)
  /-- STRAINER_ACCEPT (R343). A pin level held for MIN_W units is accepted and reported, coalesced or counted. -/
  | strainerAccept (n : Nat) (level : Bool)
  /-- MIN_IV_END (R343). At the end of a level-mode minimum interval the current level is reported. -/
  | minIvEnd (n : Nat)
  /-- STRAINER_STUCK (R343). An input active for MAX_ACT units is stuck and raises STRAINER_STUCK. -/
  | strainerStuck (n : Nat)
  /-- RESET_N (R529). Assertion of RESET_N ends any state and starts a device reset. -/
  | resetN (asserted : Bool)
  /-- INTERNAL_RESET_RELEASE (R524). At the latest of RESET_N, PWR_GOOD + 2 ms and rail monitors, internal reset releases and straps are sampled. -/
  | internalResetRelease (straps : Nat) (otp : OtpRead)
  /-- PERST_N (R394). PERST_N, hot reset, link-down or D3hot exit resets only the PCI Express endpoint. -/
  | perstN (event : Nat)
  /-- PWR_GOOD_FALL (R527). A fall of PWR_GOOD while RESET_N is high drives ERR_OUT low and starts a device reset. -/
  | pwrGoodFall
  /-- SAFE_IN (R446). An active SAFE_IN puts the partitions of SAFEIN_PARTS in their safe state. -/
  | safeIn (active : Bool)
  /-- TEMP_ALERT_N (R515). An active TEMP_ALERT_N counts as a junction temperature of 130 °C. -/
  | tempAlertN (active : Bool)
  /-- PPS_IN (R358). A reported PPS_IN edge pushes synthesised and raw times into the capture FIFO. -/
  | ppsIn
  /-- JUMP (R352). A submitted jump adds its amount to OFFSET if accepted, or is refused and raises TB_JUMP_REFUSED. -/
  | jump (r : Requester) (hi : Nat)
  /-- SLEW (R352). A submitted slew adds its amount to rem, worked off at SLEW_RATE. -/
  | slew (r : Requester) (hi : Nat)
  /-- TB_RATE (R353). A write to TB_RATE replaces RATE from the next raw nanosecond, clamped to ±LIM. -/
  | tbRate (r : Requester) (value : Nat)
  /-- TB_INCR (R355). In increment mode a write to TB_INCR sets RATE from the given increment. -/
  | tbIncr (r : Requester) (value : Nat)
  /-- TB_TIME_READ (R361). A read of TB_TIME_LO latches the same nanosecond's raw count into TB_SNAP_RAW. -/
  | tbTimeRead (r : Requester)
  /-- TB_PPSIN_RAW_HI_READ (R358). A read of TB_PPSIN_RAW_HI pops the PPS capture FIFO. -/
  | tbPpsinRawHiRead (r : Requester)
  /-- TB_TS_ID_READ (R359). A read of TB_TSe_ING_ID or TB_TSe_EG_ID pops that timestamp FIFO. -/
  | tbTsIdRead (r : Requester) (e : Nat) (egress : Bool)
  /-- TRIGGER_FIRE (R356). A trigger generator fires when synthesised time reaches next and advances next by whole periods. -/
  | triggerFire (g : Nat)
  /-- PULSE_END (R356). WIDTH raw ns after a fire, the generator's output returns inactive. -/
  | pulseEnd (g : Nat)
  /-- GEN_ENABLE (R356). A write of EN = 1 to a disabled generator sets next = FIRST, or sets CFG_ERR for an invalid WIDTH. -/
  | genEnable (r : Requester) (g value : Nat)
  /-- GEN_CFG_WRITE (R356). A write to FIRST, PERIOD or WIDTH of an enabled generator takes effect at its next fire or enable. -/
  | genCfgWrite (r : Requester) (g off value : Nat)
  /-- CLOCK_CHECK (R360). Over each 1 ms of Urn time the Urn counts the timebase clock against its oscillator. -/
  | clockCheck (measured : Nat)
  /-- LINK_TRAINING (R364). An enabled Spout port trains through adaptation, block lock, identity exchange and calibration. -/
  | linkTraining (n lanes : Nat) (calib : Nat)
  /-- TRAINING_RETRY (R364). A port whose training did not end in 50 ms retries after 10 ms, or stays down after three attempts. -/
  | trainingRetry (n : Nat)
  /-- IDENT (R364). An IDENT packet records the peer identity or raises SP_PEER_MISMATCH. -/
  | ident (n peer port sys : Nat)
  /-- LINK_BLOCK (R366). A received link block is corrected, CRC-checked and its packets delivered or a replay requested. -/
  | linkBlock (n : Nat) (blk : LinkBlock)
  /-- REPLAY_REQUEST (R366). A sender replays from the failed block out of its replay buffer. -/
  | replayRequest (n seq : Nat)
  /-- SPOUT_WRITE (R373). An arriving WRITE packet is routed on or staged into the destination partition's direct-ingress queue. -/
  | spoutWrite (n : Nat) (pkt : SpoutPacket)
  /-- SPOUT_READ (R373). An arriving READ packet is served on arrival as a remote request and answered with DATA. -/
  | spoutRead (n : Nat) (pkt : SpoutPacket)
  /-- SPOUT_ATOMIC (R373). An arriving ATOMIC packet is staged and answered with the old value once performed. -/
  | spoutAtomic (n : Nat) (pkt : SpoutPacket)
  /-- SPOUT_SIGNAL (R373). An arriving SIGNAL or SET packet is staged and acknowledged once performed. -/
  | spoutSignal (n : Nat) (pkt : SpoutPacket)
  /-- ACK (R376). An ACK completes the matching outstanding request. -/
  | ack (n : Nat) (pkt : SpoutPacket)
  /-- DATA (R372). A DATA response completes the matching read. -/
  | data (n : Nat) (pkt : SpoutPacket)
  /-- ERROR (R372). An ERROR response completes the matching request with an error response. -/
  | error (n : Nat) (pkt : SpoutPacket)
  /-- CALIB_EXCHANGE (R377). Every 1 ms an up port sends a CALIB packet to its peer. -/
  | calibExchange (n : Nat)
  /-- CALIB (R377). A received CALIB packet updates SP_LINK_LAT. -/
  | calib (n : Nat) (pkt : SpoutPacket)
  /-- ARM (R378). Writing SP_BAR_CTRL.ARM arms the start barrier for a multi-chip task. -/
  | arm (r : Requester)
  /-- ARRIVE (R378). An ARRIVE from a child is recorded and forwarded, or at the root triggers GO. -/
  | arrive (n : Nat) (pkt : SpoutPacket)
  /-- GO (R378). A received GO fixes the start tick and is forwarded to children with reduced REM. -/
  | go (n : Nat) (pkt : SpoutPacket)
  /-- BARRIER_START (R378). At its start tick the chip starts the armed task, records SP_BAR_TIME and clears ARM. -/
  | barrierStart
  /-- BARRIER_TIMEOUT (R380). BAR_TIMEOUT after ARM without GO clears ARM and raises SP_BARRIER_TIMEOUT. -/
  | barrierTimeout
  /-- RESP_TIMEOUT (R381). A request without a response after RESP_TIMEOUT completes with an error and raises SP_RESP_TIMEOUT. -/
  | respTimeout (tag : Nat)
  /-- LINK_DOWN (R382). A port with no block lock for 10 µs or eight replays goes down and discards its queues. -/
  | linkDown (n : Nat)
  /-- RETRAIN (R367). Writing SP_PORT_CTRL.RETRAIN retrains a port. -/
  | retrain (r : Requester) (n : Nat)
  /-- BAR2_WRITE (R392). A BAR2 write lands in LPDDR6 on arrival, or has no effect from a non-master. -/
  | bar2Write (offset : Nat) (bytes : List Byte)
  /-- BAR2_READ (R391). A BAR2 read returns LPDDR6 data or completes with Unsupported Request or Completer Abort. -/
  | bar2Read (offset len : Nat)
  /-- HOST_SERVICE_TICK (R398). Every ST_HS_PERIOD the Steward reads PROD of each enabled ring and takes up to 8 entries. -/
  | hostServiceTick
  /-- PROG_LOAD (R403). A PROG_LOAD checks and loads a Program, or replaces it through a partition reset. -/
  | progLoad (ring idx : Nat) (prog : Program)
  /-- SUSPEND (R302). A SUSPEND command pre-empts every slot of a task. -/
  | suspend (ring idx : Nat)
  /-- CONTINUE (R400). A CONTINUE command makes every slot of a task resident or ready again. -/
  | cont (ring idx : Nat)
  /-- KILL (R313). A KILL command tears down a task and rinses its contexts. -/
  | kill (ring idx : Nat)
  /-- FENCE (R257). A FENCE command is issued by the Steward at its next host-service tick. -/
  | fence (ring idx : Nat)
  /-- SIGNAL (R306). A SIGNAL command adds an increment to an object's word. -/
  | signal (ring idx : Nat)
  /-- SET (R306). A SET command writes an object's word and wakes its watchers. -/
  | set (ring idx : Nat)
  /-- PART_RESET (R466). A PART_RESET command starts a partition reset and clears its reset count. -/
  | partReset (ring idx : Nat)
  /-- FW_STAGE (R474). An FW_STAGE command verifies a firmware image and stages it in the standby bank. -/
  | fwStage (ring idx : Nat) (verdict : SigVerdict)
  /-- TRIG_SET (R356). A TRIG_SET command disables, rewrites and restarts a camera trigger generator. -/
  | trigSet (ring idx : Nat)
  /-- NOP (R400). A NOP command completes at once. -/
  | nop (ring idx : Nat)
  /-- RING_CFG_WRITE (R401). A write to ST_RINGn_CFG by the ring's owner is stored while ENABLE is 0. -/
  | ringCfgWrite (r : Requester) (n value : Nat)
  /-- RING_RESET (R404). Writing ST_RINGn_CFG.RESET clears ENABLE and ERR and zeroes CONS and CPL_PROD at the next tick. -/
  | ringReset (r : Requester) (n : Nat)
  /-- HARTS (R405). Writing ST_SC_CTRL.HARTS releases service-complex cores 1–7. -/
  | harts (r : Requester) (value : Nat)
  /-- SC_ACCESS (R406). A service-complex core access is checked against the S windows and served or staged. -/
  | scAccess (h : Nat) (a : Access) (cache : Option CacheOp)
  /-- MAC_TRANSMIT (R409). A MAC sends a frame from a device-owned transmit descriptor. -/
  | macTransmit (e : Nat)
  /-- LPDDR6_REQUEST (R420). A channel controller serves a read, write or atomic request in its timed or elastic queue. -/
  | lpddr6Request (a : Access) (badSymbols : Nat)
  /-- MC_WRITE_BACK (R423). A corrected burst is written back at elastic priority in the next idle bank slot. -/
  | mcWriteBack (ch : Nat)
  /-- REFRESH (R425). The controller issues a per-bank refresh at the temperature-scaled rate. -/
  | refresh (ch bank : Nat)
  /-- TEMPERATURE_REPORT_READ (R425). Every 16 ms the controller reads the parts' temperature report and may raise MC_DRAM_HOT. -/
  | temperatureReportRead (ch report : Nat)
  /-- DQS_OSCILLATOR_READ (R425). Every 64 ms the controller reads each rank's DQS oscillator and may raise MC_DRIFT. -/
  | dqsOscillatorRead (ch rank count : Nat)
  /-- PATROL (R426). The patrol scrub reads each channel over 24 hours and corrects or records errors. -/
  | patrol (ch : Nat) (badSymbols : Nat)
  /-- CHANNEL_TRAINING_END (R427). A channel ends full training, returning to service with held accesses served, or fails with MC_TRAIN_FAIL. -/
  | channelTrainingEnd (ch : Nat) (ok agree : Bool)
  /-- LOCKSTEP_MISMATCH (R434). A comparator mismatch raises LOCKSTEP_MISMATCH and aborts the pair's passes and tasks. -/
  | lockstepMismatch (pair group : Nat)
  /-- REPORT_PATH_FAULT (R435). Equal levels on the two report wires for over 1 ct raise LOCKSTEP_MISMATCH with group 0b11. -/
  | reportPathFault (pair : Nat)
  /-- TASTER_MISSED (R441). No golden test within 2·MINOR_NS + 1 ms raises TASTER_MISSED. -/
  | tasterMissed (p : Nat)
  /-- SAFE_STATE (R446). A perception partition stops its dispatcher, aborts tasks, marks streams and stops Spout requests. -/
  | safeState (p cause : Nat)
  /-- DEVICE_SAFE_STATE (R447). The device puts every perception partition in its safe state and stops S's MAC transmit. -/
  | deviceSafeState (cause : Nat)
  /-- URN_SAFE_CMD_PARTS (R446). Writing URN_SAFE_CMD.PARTS puts the named partitions in their safe state. -/
  | urnSafeCmdParts (r : Requester) (parts : Nat)
  /-- URN_SAFE_CMD_DEVICE (R447). Writing URN_SAFE_CMD.DEVICE enters the device safe state. -/
  | urnSafeCmdDevice (r : Requester)
  /-- ST_SAFE_CMD (R453). A master write to ST_SAFE_CMD is forwarded to URN_SAFE_CMD within 1 µs. -/
  | stSafeCmd (r : Requester) (value : Nat)
  /-- ERR_OUT_RETURN (R449). At the next 500 µs boundary after a fault condition ends, ERR_OUT returns to the healthy pattern. -/
  | errOutReturn
  /-- FAULT_RAISE (R459). The Fault Collector looks up a raised source's severity, records, notifies and acts. -/
  | faultRaise (src : Src) (scope : Nat) (info : FaultInfo)
  /-- WINDOW_EXPIRY (R459). An unacknowledged Deferred or Urgent window ends and the record escalates or performs its ACTION. -/
  | windowExpiry (seq : Nat)
  /-- URN_SECOND (R459). At each Urn second boundary the Correctable counts of every source restart. -/
  | urnSecond
  /-- FC_ACK (R461). A write of a SEQ to FC_ACK closes the record and stops its escalation. -/
  | fcAck (r : Requester) (seq : Nat)
  /-- FC_SW_RAISE (R455). A write to FC_SW_RAISE raises software source 0x200 + n in the named scope. -/
  | fcSwRaise (r : Requester) (value : Nat)
  /-- HANG_CONTEXT (R465). A ready context without progress for CL_HANG_LIMIT ct raises HANG_CONTEXT. -/
  | hangContext (c x : Nat)
  /-- HANG_SEQUENCER (R465). No write to CL_SEQ_WDOG for 2²⁰ ct raises HANG_SEQUENCER. -/
  | hangSequencer (c : Nat)
  /-- CL_SEQ_WDOG (R465). A write to CL_SEQ_WDOG restarts the sequencer watchdog. -/
  | clSeqWdog (r : Requester) (c : Nat)
  /-- HANG_TASK (R465). An elastic task blocked longer than ST_TASK_TIMEOUT raises HANG_TASK. -/
  | hangTask (c slot : Nat)
  /-- STEWARD_HB (R472). An unchanged URN_HB_STEWARD for 500 µs or a Steward mismatch raises STEWARD_HB and restarts the Steward. -/
  | stewardHb (mismatch : Bool)
  /-- URN_HB_CHECK (R465). Every 1 ms the Steward reads URN_HB_URN and requests a takeover if it has not changed. -/
  | urnHbCheck
  /-- STEWARD_RESTART (R472). The Recovery Controller holds the Steward pair in reset and restarts it from the active bank. -/
  | stewardRestart
  /-- PARTITION_RESET (R467). A partition reset runs safe state, capture, scrubs, training, tests and reload until a minor frame starts. -/
  | partitionReset (p : Nat)
  /-- RESET_OVERRUN (R467). A partition reset exceeding 2.5 s raises RESET_OVERRUN and continues. -/
  | resetOverrun (p : Nat)
  /-- CRASH_CAPTURE (R469). The Urn captures a 64 KiB crash record of a stopped scope into a crash slot. -/
  | crashCapture (scope : Nat)
  /-- CRASH_PARTIAL (R469). A capture not ended 5 ms after its start is closed PARTIAL and raises CRASH_PARTIAL. -/
  | crashPartial
  /-- CLUSTER_RESET (R466). A cluster or pair is reset, scrubbed and reloaded, aborting every task with a context there. -/
  | clusterReset (c : Nat)
  /-- DEVICE_RESET (R466). The whole device is reset, keeping only the Urn log, crash memory, PM_LRS_STATUS and the configuration store. -/
  | deviceReset
  /-- LAST_RESORT_TAKEOVER (R473). The last-resort sequencer drives the fault pattern, stops dispatchers, aborts tasks and holds the Urn in reset. -/
  | lastResortTakeover (cause : Nat)
  /-- PM_LRS_REQ (R473). A Steward write of 0x0000_5A5A to PM_LRS_REQ requests a takeover. -/
  | pmLrsReq (r : Requester) (value : Nat)
  /-- AUTO_RESET (R473). 10 ms after a takeover with AUTO_RESET set the sequencer performs a device reset. -/
  | autoReset
  /-- FW_SWITCHOVER (R474). At the fallback's eligible boundary tick the Urn swaps control-memory banks and restarts the Steward. -/
  | fwSwitchover
  /-- CONFIRM (R474). Writing URN_FW_STATUS.CONFIRM during the 10 ms check accepts the new firmware. -/
  | confirm (r : Requester)
  /-- FW_SWITCH_FAIL (R474). Without confirmation in 10 ms the Urn swaps back, restarts the old firmware and raises FW_SWITCH_FAIL. -/
  | fwSwitchFail
  /-- FLASH_REWRITE_END (R487). After the boot flash rewrite is read back and compared, the Caddy raises the FW_SVN floor if committing. -/
  | flashRewriteEnd (matchOk : Bool)
  /-- RECOVERY_POLL (R486). Every 1 ms the recovery ROM polls BAR2 offset 0 for a recovery record and verifies the image. -/
  | recoveryPoll (verdict : SigVerdict)
  /-- ATTEST (R496). ATTEST writes a signed attestation report with the measurement copy and nonce. -/
  | attest (ring idx : Nat)
  /-- CERT_READ (R497). CERT_READ writes a chosen identity or alias certificate. -/
  | certRead (ring idx : Nat)
  /-- OWNER_ENROL (R491). OWNER_ENROL verifies a record and writes an owner slot into OTP. -/
  | ownerEnrol (ring idx : Nat) (verdict : SigVerdict)
  /-- OWNER_REVOKE (R491). OWNER_REVOKE verifies a record and marks an owner slot revoked. -/
  | ownerRevoke (ring idx : Nat) (verdict : SigVerdict)
  /-- SI_MIN_RAISE (R489). SI_MIN_RAISE programs the next unused SI_MIN slot, or is refused. -/
  | siMinRaise (ring idx : Nat)
  /-- CAD_EXT_CMD (R493). A write to CAD_EXT_CMD queues an extension of a measurement register, or is denied or dropped. -/
  | cadExtCmd (r : Requester) (value : Nat)
  /-- CAD_TRNG_FAIL (R499). A failed random-number health test raises CAD_TRNG_FAIL and refuses signing commands. -/
  | cadTrngFail
  /-- PM_STATE_RUN (R502). A PM_STATE_CMD of Run starts the exit from Trim or Watch. -/
  | pmStateRun (r : Requester)
  /-- PM_STATE_TRIM (R502). A PM_STATE_CMD of Trim parks perception partitions and powers down clusters. -/
  | pmStateTrim (r : Requester)
  /-- PM_STATE_WATCH (R502). A PM_STATE_CMD of Watch keeps only the Watch partition running. -/
  | pmStateWatch (r : Requester)
  /-- PM_STATE_RETAIN (R502). A PM_STATE_CMD of Retain saves to the Cosy and puts LPDDR6 in self-refresh. -/
  | pmStateRetain (r : Requester)
  /-- PM_STATE_OFF (R502). A PM_STATE_CMD of Off disables VDD_CORE and drives RAIL_EN low. -/
  | pmStateOff (r : Requester)
  /-- STATE_ENTRY_COMPLETE (R507). A power-state entry completes and a wake that arrived during it starts the exit. -/
  | stateEntryComplete
  /-- WAKE_SOURCE (R506). An enabled wake source in Trim, Watch or Retain sets PM_WAKE_SRC and starts the exit to Run. -/
  | wakeSource (w : Nat)
  /-- PM_WAKE_REQ (R506). A write to PM_WAKE_REQ by the Watch partition is wake source 2. -/
  | pmWakeReq (r : Requester)
  /-- ALARM (R506). PM_RTC reaching PM_ALARM is wake source 1. -/
  | alarm
  /-- AVS (R514). Every 1 ms the Steward computes and writes the VDD_CORE target and checks the readback. -/
  | avs (readback : Option Nat)
  /-- THERMAL_SAMPLE (R516). Every 100 µs the junction sensors are sampled and thermal levels applied. -/
  | thermalSample (temps : List Nat)
  /-- CK_PLL_UNLOCK (R513). A PLL that loses lock raises CK_PLL_UNLOCK. -/
  | ckPllUnlock (n : Nat)
  /-- RAIL_OUT_OF_RANGE (R527). A switched rail leaving its range clears its PM_RAIL_STATUS bit and raises CK_PLL_UNLOCK. -/
  | railOutOfRange (rail : Nat)
  /-- RAIL_TIMEOUT (R528). Switched rails not in range 50 ms after RAIL_EN rises set TIMEOUT and drive ERR_OUT low. -/
  | railTimeout
  /-- PM_GPIO_OUT (R544). A write to PM_GPIO_OUT changes the output bits of pins the writer may drive. -/
  | pmGpioOut (r : Requester) (value : Nat)
  /-- POWER_UP (R531). When VDDA_18 comes into range at power-up, the Cosy counts CLK_IN edges for four 32.768 kHz cycles and selects CLK_IN or the crystal as reference, and the always-on counters start from 0. -/
  | powerUp (edges : Nat)
  /-- SWITCHED_RAILS_IN_RANGE (R528). On exit from Retain, once the monitors report every switched rail in range after RAIL_EN rises, the exit continues under R503. -/
  | switchedRailsInRange
  /-- PCIE_LINK_TRAINING (R525). 20 ms after the later of PERST_N release and internal reset release, the PCI Express endpoint starts link training. -/
  | pcieLinkTraining (width speed : Nat)
  /-- TRNG_OK_RETURN (R499). When the random number generator's health tests pass again, TRNG_OK returns to 1 and signing commands are no longer refused. -/
  | trngOkReturn
  /-- UART_RECEIVE (R408). A character arriving on UART0_RX or UART1_RX of an enabled UART raises service-complex interrupt source 22 or 23. -/
  | uartReceive (u ch : Nat)
  deriving DecidableEq, Repr

end Sys2Proof
end

