-- ==== Sys2Proof/Decode.lean ====
section
/-! DEFINITION. The command a word spells by the table's bits: the operation table gives no row any bits. -/

namespace Sys2Proof

/-- The command of a word: none, since no row of the operation table has an encoding. -/
def decodeTableWord (_nbits _w : Nat) : Option Instr := none

end Sys2Proof
end

