-- ==== Sys2Proof/Config.lean ====
section
/-! DEFINITION. The free values of the model: constants with no body, so that no proof can see a value the
manual leaves open, and the hash function whose definition lies in a standard the manual only cites. -/

namespace Sys2Proof.Config

/-- A byte of LPDDR6 whose content full training did not keep (R427), by training epoch and local address.
LOG 6 (DESIGN CHOICE). -/
opaque lostByte : Nat → Nat → Byte

/-- SHA-512 of a byte string (R30, R480, R492); the standard is cited, not restated.
LOG 177 (DESIGN CHOICE). -/
opaque sha512 : List Byte → Digest

/-- The bytes of the random number generator (R490), by draw number.
LOG 177 (DESIGN CHOICE). -/
opaque randomByte : Nat → Byte

/-- The bytes of a signature block the Caddy makes (R481: not repeatable), by draw number.
LOG 118 (DESIGN CHOICE). -/
opaque signatureByte : Nat → Byte

/-- The bytes of a certificate (R494, R497): certificate number, key generation, byte index.
LOG 118 (DESIGN CHOICE). -/
opaque certByte : Nat → Nat → Nat → Byte

/-- The length in bytes of a certificate (R497): certificate number, key generation.
LOG 118 (DESIGN CHOICE). -/
opaque certLength : Nat → Nat → Nat

/-- SHA-512 of the alias public keys (R494, R496), a function of MR0 and MR1 (the device secret is hidden).
LOG 118 (DESIGN CHOICE). -/
opaque aliasKeyHash : Digest → Digest → Digest

/-- A 32-bit value the manual leaves open, by draw number.
LOG 10, 61, 98 (DESIGN CHOICE). -/
opaque freeWord : Nat → Word

/-- The kernel result word of a value the manual does not state, by draw number.
LOG 10, 20, 93 (DESIGN CHOICE). -/
opaque freeByte : Nat → Byte

/-- The OTP calibration's VDD_CORE target in mV as a function of the 64 monitor readings (R514).
LOG 123 (DESIGN CHOICE). -/
opaque avsTarget : List Nat → Nat

/-- The bytes of a crash record whose layout Table 21-8 does not give (R469), by capture number.
LOG 102 (DESIGN CHOICE). -/
opaque crashByte : Nat → Nat → Byte

/-- The grid term of a product that does not fit the accumulator word on its anchor (R60 states none: with bounds
that belong to the operands every term fits): significand, exponent, anchor.
LOG 18 (DESIGN CHOICE). -/
opaque gridOverflow : Int → Int → Int → Int

/-- The record of a scope (7 = device) inside a section whose record layout the manual does not give (R31: the NoC slot tables 0x10 and
the sensor ports 0x06): section type, section bytes, scope.
LOG 105, 110 (DESIGN CHOICE). -/
opaque sectionRecord : Nat → List Byte → Nat → List Byte

/-- The value the Steward loads into a register from a partition's sensor-port record (R344, R357: the record's layout is not given):
record, register address.
LOG 105 (DESIGN CHOICE). -/
opaque sensorWord : List Byte → Nat → Word

/-- The entry of a router's slot in a partition's NoC slot table record (R272: the record's layout is not given): record, router, slot.
LOG 66 (DESIGN CHOICE). -/
opaque slotWord : List Byte → Nat → Nat → Word

/-- CK_CFG for a device clock record (R512, Table 23-9: the layout is not given).
LOG 105 (DESIGN CHOICE). -/
opaque clockWord : List Byte → Word

/-- What the ROM extends MR0 with (R492: how the fields are laid out is not given): the OTP values in the order of Table 22-5.
LOG 106 (DESIGN CHOICE). -/
opaque romDigest : List Nat → Digest

/-- DENSITY and RANKS2 that the LPDDR6 parts' mode registers report (R414, Table 19-7): bits 3–0 the density code, bit 4 two ranks.
LOG 178 (DESIGN CHOICE). -/
opaque dramParts : BitVec 5

/-- The greatest RATE code that the LPDDR6 parts report (R417).
LOG 178 (DESIGN CHOICE). -/
opaque dramRate : BitVec 2

/-- FREE VALUE (R425, JESD209-6). Whether a temperature report of the LPDDR6 parts stands above their rated range: the coding of the
report is the part's.
LOG 178 (DESIGN CHOICE). -/
opaque dramHot : Nat → Bool

/-- What the header of a firmware image says (R484 gives its fields but not where they lie): 0 whether its layout is right (not 0), 1 VERSION,
2 SVN, 3 COMMIT_SVN (not 0), 4 PART, 5 the vendor root index, 6 the key hash of its public keys, 7 whether every component matches its
digest (not 0).
LOG 104 (DESIGN CHOICE). -/
opaque fwField : List Byte → Nat → Nat

/-- SHA-512 of the signed header of a firmware image (R485, R492).
LOG 104 (DESIGN CHOICE). -/
opaque fwHeaderHash : List Byte → Digest

/-- The bytes that a kernel takes in the kernel store, by firmware image and kernel ID; 0 where the image's library lacks it (R100).
LOG 144 (DESIGN CHOICE). -/
opaque kernelBytes : List Byte → Nat → Nat

/-- The version of the kernel library of a firmware image (Table 04-19).
LOG 144 (DESIGN CHOICE). -/
opaque libVersion : List Byte → Nat

/-- The version of the tiler firmware of a firmware image (CL_TILER_FW).
LOG 144 (DESIGN CHOICE). -/
opaque tilerFw : List Byte → Nat

/-- The operands of a golden set in the Taster ROM, whose layout R438 does not give: 0 A, 1 the scales of A, 2 B, 3 the scales of B,
4 the bounds slot, 5 the C vector.
LOG 161 (DESIGN CHOICE). -/
opaque goldenOperand : Nat → Nat → List Byte

/-- Result bytes of a golden set whose program the manual does not give (R439): 0 the golden kernel's output, 1 the 4 KiB of the golden
descriptor, 2 the piece addresses it generates, 3 the addresses of the golden walk.
LOG 161 (DESIGN CHOICE). -/
opaque goldenResult : Nat → Nat → List Byte

/-- How many pool banks partition S takes at its boot, by Structure Image (R127 lets it hold banks; it has no Program to declare them).
LOG 164 (DESIGN CHOICE). -/
opaque sPoolBanks : List Byte → Nat

/-- Whether the X of a BOUNDS operator with an FP8 IN_FMT holds block scales and no census (R172 names both and no field that tells).
LOG 44 (DESIGN CHOICE). -/
opaque boundsScaled : Nat → Bool

end Sys2Proof.Config
end

