-- ==== Sys2Proof/Machine/Sparse.lean ====
section
/-! DEFINITION. Plain-data building blocks: bit fields of numbers, byte lists, and the sparse map in one canonical
form (keys strictly rising, no entry equal to what an unlisted key reads as) that holds memory and registers. -/

namespace Sys2Proof.Machine

/-! ## Bit fields (R8: a range [hi:lo] includes both ends) -/

/-- The field [hi:lo] of a number. -/
def bits (v hi lo : Nat) : Nat := v / 2 ^ lo % 2 ^ (hi + 1 - lo)

/-- Bit n of a number. -/
def bit (v n : Nat) : Bool := v / 2 ^ n % 2 == 1

/-- `v` with its field [hi:lo] replaced by the low bits of `x`. -/
def setBits (v hi lo x : Nat) : Nat :=
  v / 2 ^ (hi + 1) * 2 ^ (hi + 1) + x % 2 ^ (hi + 1 - lo) * 2 ^ lo + v % 2 ^ lo

/-- `v` with bit n set (`b`) or cleared. -/
def setBit (v n : Nat) (b : Bool) : Nat := setBits v n n (if b then 1 else 0)

/-- 1 for true, 0 for false. -/
def b2n (b : Bool) : Nat := if b then 1 else 0

/-- The low `w` bits of a number read in two's complement. -/
def toSigned (w v : Nat) : Int :=
  if v % 2 ^ w < 2 ^ (w - 1) then (v % 2 ^ w : Nat) else ((v % 2 ^ w : Nat) : Int) - (2 ^ w : Nat)

/-- An integer wrapped to `w` bits of two's complement. -/
def ofSigned (w : Nat) (i : Int) : Nat := (i % (2 ^ w : Nat)).toNat

/-- The quotient rounded up. -/
def ceilDiv (a b : Nat) : Nat := (a + b - 1) / b

/-- The numbers below `n` whose bit is set in `m`, rising. -/
def bitList (m n : Nat) : List Nat := (List.range n).filter (bit m)

/-- Nanoseconds to ticks, rounded up (R13). -/
def nsToCt (ns : Nat) : Nat := ceilDiv (3 * ns) 4

/-- Ticks to nanoseconds, rounded up. -/
def ctToNs (ct : Nat) : Nat := ceilDiv (4 * ct) 3

/-! ## Byte lists (R8: little-endian) -/

/-- A little-endian byte list as a number. -/
def leNat : List Byte → Nat
  | [] => 0
  | b :: bs => b.toNat + 256 * leNat bs

/-- The `n` low bytes of a number, little-endian. -/
def leBytes : Nat → Nat → List Byte
  | 0, _ => []
  | n + 1, v => BitVec.ofNat 8 v :: leBytes n (v / 256)

/-- Little-endian fields one after the other, each of a width in bytes. -/
def leFields (l : List (Nat × Nat)) : List Byte := l.flatMap fun f => leBytes f.1 f.2

/-- `n` bytes of a list from offset `o`, zeros beyond its end. -/
def sliceBytes (l : List Byte) (o n : Nat) : List Byte :=
  (List.range n).map fun i => l.getD (o + i) 0

/-- The `n`-byte little-endian field at offset `o` of a byte list. -/
def fieldAt (l : List Byte) (o n : Nat) : Nat := leNat (sliceBytes l o n)

/-- `l` in pieces of `n` bytes. -/
def chunkBytes (n : Nat) (l : List Byte) : List (List Byte) :=
  (List.range (ceilDiv l.length n)).map fun i => (l.drop (i * n)).take n

/-! ## Sparse maps -/

/-- What key `k` holds; `d` is what an unlisted key reads as. -/
def sparseGet {α : Type} (d : α) : List (Nat × α) → Nat → α
  | [], _ => d
  | (k', v) :: r, k => if k' = k then v else sparseGet d r k

/-- Key `k` set to `v`; `d` is what `k` reads as when unlisted. -/
def sparsePut {α : Type} [DecidableEq α] (d : α) : List (Nat × α) → Nat → α → List (Nat × α)
  | [], k, v => if v = d then [] else [(k, v)]
  | (k', v') :: r, k, v =>
    if k < k' then (if v = d then (k', v') :: r else (k, v) :: (k', v') :: r)
    else if k = k' then (if v = d then r else (k, v) :: r)
    else (k', v') :: sparsePut d r k v

/-- The canonical form: keys strictly rising, no entry at its default. -/
def sparseWf {α : Type} [DecidableEq α] (d : Nat → α) : List (Nat × α) → Bool
  | [] => true
  | (k, v) :: r => decide (v ≠ d k) && r.all (fun e => decide (k < e.1)) && sparseWf d r

/-- Every entry with a key in `lo ≤ k < hi` dropped: the range reads as unlisted. -/
def sparseDrop {α : Type} (m : List (Nat × α)) (lo hi : Nat) : List (Nat × α) :=
  m.filter fun e => !(decide (lo ≤ e.1) && decide (e.1 < hi))

/-- The first entry of a list for key `k`. -/
def assoc {α : Type} : List (Nat × α) → Nat → Option α
  | [], _ => none
  | (k', v) :: r, k => if k' = k then some v else assoc r k

/-- Element `n` of a list replaced (unchanged where there is none). -/
def setAt {α : Type} : List α → Nat → α → List α
  | [], _, _ => []
  | _ :: r, 0, v => v :: r
  | x :: r, n + 1, v => x :: setAt r n v

/-- Element `n` of a list rewritten by `f`. -/
def modAt {α : Type} (f : α → α) : List α → Nat → List α
  | [], _ => []
  | x :: r, 0 => f x :: r
  | x :: r, n + 1 => x :: modAt f r n

/-- The first element that satisfies `p` rewritten by `f`. -/
def modFirst {α : Type} (p : α → Bool) (f : α → α) : List α → List α
  | [] => []
  | x :: r => if p x then f x :: r else x :: modFirst p f r

/-- A list sorted by insertion (stable). -/
def insertBy {α : Type} (le : α → α → Bool) (x : α) : List α → List α
  | [] => [x]
  | y :: r => if le x y && !(le y x) then x :: y :: r else y :: insertBy le x r

/-- A stable insertion sort. -/
def sortBy {α : Type} (le : α → α → Bool) (l : List α) : List α := l.foldl (fun acc x => insertBy le x acc) []

end Sys2Proof.Machine
end

