-- ==== Sys2Proof/Machine/Fp.lean ====
section
/-! DEFINITION. Number formats (R48–R50), exact dyadic values and their one rounding, the vector-engine primitives
(R66–R71): every binary32 operation is the exact value rounded once, ties to even. -/

namespace Sys2Proof.Machine

/-- An exact value: NaN, an infinity with its sign, or (−1)^neg · sig · 2^exp (a zero keeps its sign). -/
inductive Val where
  | nan
  | inf (neg : Bool)
  | fin (neg : Bool) (sig : Nat) (exp : Int)
  deriving DecidableEq, Repr

/-- A floating-point layout s|e|m (Table 03-1): field widths, bias, the largest finite magnitude code and whether
codes above it are IEEE specials (infinity and NaN), a single NaN, or absent. -/
structure FloatFmt where
  ebits : Nat
  mbits : Nat
  bias : Nat
  maxFinite : Nat
  hasInf : Bool
  hasNan : Bool
  canonNan : Nat
  deriving DecidableEq, Repr

/-- FP8 E4M3: no infinity, NaN = S.1111.111, largest 448 (R48). -/
def fmtE4M3 : FloatFmt := ⟨4, 3, 7, 0x7E, false, true, 0x7F⟩
/-- FP8 E5M2. -/
def fmtE5M2 : FloatFmt := ⟨5, 2, 15, 0x7B, true, true, 0x7E⟩
/-- FP4 E2M1: no infinity, no NaN. -/
def fmtE2M1 : FloatFmt := ⟨2, 1, 1, 0x7, false, false, 0⟩
/-- BF16. -/
def fmtBF16 : FloatFmt := ⟨8, 7, 127, 0x7F7F, true, true, 0x7FC0⟩
/-- FP16. -/
def fmtFP16 : FloatFmt := ⟨5, 10, 15, 0x7BFF, true, true, 0x7E00⟩
/-- FP32. -/
def fmtFP32 : FloatFmt := ⟨8, 23, 127, 0x7F7FFFFF, true, true, 0x7FC00000⟩

/-- The float layout of a format code of Table 03-1. -/
def floatFmt (code : Nat) : Option FloatFmt :=
  match code with
  | 0x3 => some fmtE4M3
  | 0x4 => some fmtE5M2
  | 0x5 => some fmtE2M1
  | 0x6 => some fmtBF16
  | 0x7 => some fmtFP16
  | 0x8 => some fmtFP32
  | _ => none

/-- The width in bits of a format code (Table 03-1); 8 for a reserved code. -/
def fmtBits (code : Nat) : Nat :=
  match code with
  | 0x2 | 0x5 => 4
  | 0x6 | 0x7 => 16
  | 0x8 | 0x9 => 32
  | 0xA => 64
  | _ => 8

/-- The value of a float code (R48, R50: subnormals exact). -/
def decodeFloat (f : FloatFmt) (v : Nat) : Val :=
  let mag := v % 2 ^ (f.ebits + f.mbits)
  let neg := bit v (f.ebits + f.mbits)
  let e := mag / 2 ^ f.mbits
  let m := mag % 2 ^ f.mbits
  if mag > f.maxFinite then
    if f.hasInf && mag == f.maxFinite + 1 then .inf neg else .nan
  else if e = 0 then .fin neg m (1 - (f.bias : Int) - f.mbits)
  else .fin neg (2 ^ f.mbits + m) ((e : Int) - f.bias - f.mbits)

/-- The value of a two's-complement integer of `w` bits. -/
def decodeInt (w v : Nat) : Val :=
  let i := toSigned w v
  .fin (decide (i < 0)) i.natAbs 0

/-- The value of an element of a format code (Table 03-1). -/
def decodeElem (code v : Nat) : Val :=
  match code with
  | 0x0 => decodeInt 8 v
  | 0x1 => .fin false (v % 256) 0
  | 0x2 => decodeInt 4 v
  | 0x9 => decodeInt 32 v
  | _ => match floatFmt code with
    | some f => decodeFloat f v
    | none => .nan

/-- `sig · 2^-shift` rounded to an integer, to nearest with ties to even; a negative shift multiplies. -/
def roundShift (sig : Nat) (shift : Int) : Nat :=
  if shift ≤ 0 then sig * 2 ^ (-shift).toNat
  else
    let k := shift.toNat
    let q := sig / 2 ^ k
    let r := sig % 2 ^ k
    let half := 2 ^ (k - 1)
    if r > half || (r == half && q % 2 == 1) then q + 1 else q

/-- What a conversion gives: the code and the flags OUT_OVF and OUT_NAN (R64). -/
structure Conv where
  code : Nat
  ovf : Bool
  nan : Bool
  deriving DecidableEq, Repr

/-- The sign bit of a layout. -/
def FloatFmt.sign (f : FloatFmt) (neg : Bool) : Nat := if neg then 2 ^ (f.ebits + f.mbits) else 0

/-- The code of a value beyond the range or of an infinity (Table 03-5): clamped under `sat`, else the infinity,
or the NaN of a layout that has no infinity. -/
def overflowCode (f : FloatFmt) (sat neg : Bool) : Nat :=
  if sat then f.sign neg + f.maxFinite
  else if f.hasInf then f.sign neg + f.maxFinite + 1
  else if f.hasNan then f.canonNan else f.sign neg + f.maxFinite

/-- A finite magnitude `sig · 2^exp` rounded once to a layout: the magnitude code, which may lie above the largest
finite one. -/
def roundMag (f : FloatFmt) (sig : Nat) (exp : Int) : Nat :=
  if sig = 0 then 0
  else
    let e : Int := (Nat.log2 sig : Nat) + exp
    let emin : Int := 1 - (f.bias : Int)
    let e' := max e emin
    ((e' + f.bias - 1).toNat) * 2 ^ f.mbits + roundShift sig (e' - f.mbits - exp)

/-- One rounding to a float layout, ties to even, subnormals kept, NaN canonical (R64, R65). -/
def roundFloat (f : FloatFmt) (sat : Bool) (v : Val) : Conv :=
  match v with
  | .nan => ⟨f.canonNan, false, true⟩
  | .inf neg => ⟨overflowCode f sat neg, true, !sat && !f.hasInf && f.hasNan⟩
  | .fin neg sig exp =>
    let m := roundMag f sig exp
    if m > f.maxFinite then ⟨overflowCode f sat neg, true, !sat && !f.hasInf && f.hasNan⟩
    else ⟨f.sign neg + m, false, false⟩

/-- A value rounded to an integer, ties to even, and clamped to [lo, hi]; NaN gives 0 (R64, R66). -/
def roundInt (lo hi : Int) (v : Val) : Int × Bool :=
  match v with
  | .nan => (0, false)
  | .inf neg => (if neg then lo else hi, true)
  | .fin neg sig exp =>
    let q : Int := roundShift sig (-exp)
    let i := if neg then -q else q
    if i > hi then (hi, true) else if i < lo then (lo, true) else (i, false)

/-! ## Binary32 (R66); an FP32 value is its 32-bit code -/

/-- The value of an FP32 code. -/
def f32 (x : Nat) : Val := decodeFloat fmtFP32 x

/-- One rounding to FP32. -/
def toF32 (v : Val) : Nat := (roundFloat fmtFP32 false v).code

/-- The canonical NaN. -/
def nan32 : Nat := 0x7FC00000
/-- +1.0 -/
def one32 : Nat := 0x3F800000

/-- The exact product of two values. -/
def Val.mul (a b : Val) : Val :=
  match a, b with
  | .nan, _ => .nan
  | _, .nan => .nan
  | .inf s, .inf t => .inf (s != t)
  | .inf s, .fin t sig _ => if sig = 0 then .nan else .inf (s != t)
  | .fin s sig _, .inf t => if sig = 0 then .nan else .inf (s != t)
  | .fin s sa ea, .fin t sb eb => .fin (s != t) (sa * sb) (ea + eb)

/-- The exact sum of two values; an exact zero from nonzero terms is +0, as IEEE 754-2019 gives to nearest. -/
def Val.add (a b : Val) : Val :=
  match a, b with
  | .nan, _ => .nan
  | _, .nan => .nan
  | .inf s, .inf t => if s = t then .inf s else .nan
  | .inf s, .fin _ _ _ => .inf s
  | .fin _ _ _, .inf t => .inf t
  | .fin s sa ea, .fin t sb eb =>
    let e := min ea eb
    let x : Int := (sa * 2 ^ (ea - e).toNat : Nat)
    let y : Int := (sb * 2 ^ (eb - e).toNat : Nat)
    let z := (if s then -x else x) + (if t then -y else y)
    if z = 0 then .fin (s && t) 0 0 else .fin (decide (z < 0)) z.natAbs e

/-- The value negated. -/
def Val.neg : Val → Val
  | .nan => .nan
  | .inf s => .inf (!s)
  | .fin s m e => .fin (!s) m e

/-- Multiplication by a power of two. -/
def Val.scale (v : Val) (k : Int) : Val :=
  match v with
  | .fin s m e => .fin s m (e + k)
  | w => w

/-- x + y. -/
def fadd (x y : Nat) : Nat := toF32 ((f32 x).add (f32 y))
/-- The code with its sign flipped. -/
def fneg (x : Nat) : Nat := if bit x 31 then x - 2 ^ 31 else x + 2 ^ 31
/-- x − y. -/
def fsub (x y : Nat) : Nat := toF32 ((f32 x).add (f32 y).neg)
/-- x · y. -/
def fmul (x y : Nat) : Nat := toF32 ((f32 x).mul (f32 y))
/-- x · y + z, rounded once. -/
def ffma (x y z : Nat) : Nat := toF32 (((f32 x).mul (f32 y)).add (f32 z))

/-- Strict order of two values that are no NaN; +0 above −0 (R66). -/
def Val.lt (a b : Val) : Bool :=
  match a, b with
  | .nan, _ => false
  | _, .nan => false
  | .inf s, .inf t => s && !t
  | .inf s, .fin _ _ _ => s
  | .fin _ _ _, .inf t => !t
  | .fin s sa ea, .fin t sb eb =>
    if sa = 0 && sb = 0 then s && !t
    else
      let e := min ea eb
      let x : Int := (sa * 2 ^ (ea - e).toNat : Nat)
      let y : Int := (sb * 2 ^ (eb - e).toNat : Nat)
      decide ((if s then -x else x) < (if t then -y else y))

/-- Whether an FP32 code is a NaN. -/
def isNan32 (x : Nat) : Bool := f32 x == .nan
/-- Numeric x < y (false with a NaN; −0 = +0). -/
def flt (x y : Nat) : Bool :=
  (f32 x).lt (f32 y) && !(x % 2 ^ 31 == 0 && y % 2 ^ 31 == 0)
/-- max(x, y): NaN if either is, +0 above −0 (R66). -/
def fmax (x y : Nat) : Nat :=
  if isNan32 x || isNan32 y then nan32 else if (f32 x).lt (f32 y) then y else x
/-- min(x, y). -/
def fmin (x y : Nat) : Nat :=
  if isNan32 x || isNan32 y then nan32 else if (f32 x).lt (f32 y) then x else y

/-- An FP32 code from an integer, exact below 2^24 and else rounded once. -/
def fOfInt (i : Int) : Nat := toF32 (.fin (decide (i < 0)) i.natAbs 0)

/-- The FP32 value rounded to an integral value, ties to even, as an integer (finite inputs). -/
def fRoundEven (x : Nat) : Int :=
  match f32 x with
  | .fin neg sig exp => let q : Int := roundShift sig (-exp); if neg then -q else q
  | _ => 0

/-- The constants c1 … c7 of R67: the FP32 values nearest to (ln 2)^k / k!. -/
def exp2Coeff (k : Nat) : Nat :=
  match k with
  | 1 => 0x3F317218
  | 2 => 0x3E75FDF0
  | 3 => 0x3D635847
  | 4 => 0x3C1D955B
  | 5 => 0x3AAEC3FF
  | 6 => 0x39218489
  | _ => 0x377FE5FE

/-- The exp2 primitive (R67). -/
def fexp2 (x : Nat) : Nat :=
  if isNan32 x then nan32
  else if !(flt x 0x43000000) then 0x7F800000
  else if flt x 0xC3160000 then 0
  else
    let n := fRoundEven x
    let f := fsub x (fOfInt n)
    let p := [6, 5, 4, 3, 2, 1].foldl (fun p k => ffma p f (exp2Coeff k)) (exp2Coeff 7)
    let p := ffma p f one32
    toF32 ((f32 p).scale n)

/-- The exp primitive: exp2(x·L), L = 0x3FB8AA3B (R67). -/
def fexp (x : Nat) : Nat := fexp2 (fmul x 0x3FB8AA3B)

/-- `a / b` rounded to nearest, ties to even. -/
def divRound (a b : Nat) : Nat :=
  let q := a / b
  let r := a % b
  if 2 * r > b || (2 * r == b && q % 2 == 1) then q + 1 else q

/-- ⌊√n⌋ by bisection over `fuel` bits. -/
def isqrtAux (n : Nat) : Nat → Nat → Nat
  | 0, r => r
  | k + 1, r => let c := r + 2 ^ k; isqrtAux n k (if c * c ≤ n then c else r)

/-- ⌊√n⌋ for n below 2^80. -/
def isqrt (n : Nat) : Nat := isqrtAux n 40 0

/-- The FP32 code of `q · 2^-24` for q in [2^23, 2^24]. -/
def unitCode (q : Nat) : Nat := toF32 (.fin false q (-24))

/-- The reciprocal seed for index i (R68): the FP32 value nearest to 1/(1 + (i + 0.5)/128). -/
def recipSeed (i : Nat) : Nat := unitCode (divRound (256 * 2 ^ 24) (257 + 2 * i))

/-- A nonzero finite magnitude as m · 2^e with 1 ≤ m < 2: m's FP32 code and e. -/
def splitUnit (sig : Nat) (exp : Int) : Nat × Int :=
  let l := Nat.log2 sig
  (toF32 (.fin false sig (-(l : Int))), (l : Int) + exp)

/-- The reciprocal primitive (R68). -/
def frecip (d : Nat) : Nat :=
  match f32 d with
  | .nan => nan32
  | .inf neg => fmtFP32.sign neg
  | .fin neg sig exp =>
    if sig = 0 then fmtFP32.sign neg + 0x7F800000
    else
      let (m, e) := splitUnit sig exp
      let y := recipSeed (bits m 22 16)
      let step := fun y => ffma y (ffma (fneg m) y one32) y
      let y := step (step y)
      toF32 (if neg then ((f32 y).scale (-e)).neg else (f32 y).scale (-e))

/-- The reciprocal-square-root seed (R69): interval i (0–63) of [1, 2) or, with `hi`, of [2, 4). -/
def rsqrtSeed (hi : Bool) (i : Nat) : Nat :=
  let x := 2 ^ 48 * (if hi then 64 else 128) * 4 / (129 + 2 * i)
  unitCode ((isqrt x + 1) / 2)

/-- The reciprocal square root primitive (R69). -/
def frsqrt (x : Nat) : Nat :=
  match f32 x with
  | .nan => nan32
  | .inf neg => if neg then nan32 else 0
  | .fin neg sig exp =>
    if sig = 0 then fmtFP32.sign neg + 0x7F800000
    else if neg then nan32
    else
      let l := Nat.log2 sig
      let e0 : Int := (l : Int) + exp
      let hi : Bool := e0 % 2 != 0
      let e := if hi then e0 - 1 else e0
      let m1 := toF32 (.fin false sig (-(l : Int)))
      let m := toF32 (.fin false sig (exp - e))
      let y := rsqrtSeed hi (bits m1 22 17)
      let step := fun y => let h := fmul y y; let u := ffma (fneg m) h one32; ffma (fmul 0x3F000000 y) u y
      let y := step (step y)
      toF32 ((f32 y).scale (-(e / 2)))

/-- Division: a times the reciprocal of b, rounded once more (R70). The evaluation binds every input: the subnormal b whose reciprocal is
finite under R68 has a finite quotient.
LOG 145 (DEDUCED). -/
def fdiv (a b : Nat) : Nat := fmul a (frecip b)

/-- Square root (R70). -/
def fsqrt (x : Nat) : Nat :=
  if x = 0 ∨ x = 2 ^ 31 then x
  else if x = 0x7F800000 then x
  else if isNan32 x || bit x 31 then nan32
  else fmul x (frsqrt x)

/-- The lanes of R71 after every element has entered lane k mod 32. -/
def laneFold (f : Nat → Nat → Nat) (init : Nat) (l : List Nat) : List Nat :=
  (List.range 32).map fun lane =>
    ((List.range (ceilDiv l.length 32)).filterMap fun r => l[r * 32 + lane]?).foldl f init

/-- One level of the fixed tree: lane l combined with lane l + w. -/
def laneLevel (f : Nat → Nat → Nat) (lanes : List Nat) (w : Nat) : List Nat :=
  (List.range w).map fun l => f (lanes.getD l 0) (lanes.getD (l + w) 0)

/-- A reduction in the fixed order of R71. -/
def laneReduce (f : Nat → Nat → Nat) (init : Nat) (l : List Nat) : Nat :=
  ([16, 8, 4, 2, 1].foldl (laneLevel f) (laneFold f init l)).getD 0 0

/-- The sum of R71. -/
def vsum (l : List Nat) : Nat := laneReduce fadd 0 l
/-- The maximum reduction of R71: lanes start at −infinity. -/
def vmax (l : List Nat) : Nat := laneReduce fmax 0xFF800000 l
/-- The minimum reduction of R71: lanes start at +infinity. -/
def vmin (l : List Nat) : Nat := laneReduce fmin 0x7F800000 l

/-- The dot product of R71: fma in place of add within a lane, add in the tree. -/
def vdot (a b : List Nat) : Nat :=
  let lanes := (List.range 32).map fun lane =>
    ((List.range (ceilDiv a.length 32)).filterMap fun r =>
      match a[r * 32 + lane]?, b[r * 32 + lane]? with
      | some x, some y => some (x, y)
      | _, _ => none).foldl (fun acc p => ffma p.1 p.2 acc) 0
  ([16, 8, 4, 2, 1].foldl (laneLevel fadd) lanes).getD 0 0

/-- Sigmoid: reciprocal(1 + exp(−x)) (Table 04-11). -/
def fsigmoid (x : Nat) : Nat := frecip (fadd one32 (fexp (fneg x)))

/-- An element of a format code converted to FP32, exactly for the 8-bit and 16-bit formats and rounded once for
INT32 (R66). -/
def elemToF32 (code v : Nat) : Nat := toF32 (decodeElem code v)

/-- An FP32 value converted to a format code, rounded once (R66; Table 03-5 with OUT_SAT = `sat`). -/
def f32ToElem (code : Nat) (sat : Bool) (x : Nat) : Conv :=
  match code with
  | 0x0 => let r := roundInt (-128) 127 (f32 x); ⟨ofSigned 8 r.1, r.2, isNan32 x⟩
  | 0x1 => let r := roundInt 0 255 (f32 x); ⟨ofSigned 8 r.1, r.2, isNan32 x⟩
  | 0x2 => let r := roundInt (-8) 7 (f32 x); ⟨ofSigned 4 r.1, r.2, isNan32 x⟩
  | 0x9 => let r := roundInt (-(2 ^ 31)) (2 ^ 31 - 1) (f32 x); ⟨ofSigned 32 r.1, r.2, isNan32 x⟩
  | _ => match floatFmt code with
    | some f => roundFloat f sat (f32 x)
    | none => ⟨0, false, false⟩

/-! ## Packed lanes (R99) -/

/-- What the packed modes apply to. -/
inductive PackedOp where
  | add
  | mul
  | fma
  | min
  | max
  | cmp
  | select
  deriving DecidableEq, Repr

/-- A BF16 sublane: the exact result rounded once; a comparison answers 1 or 0 and selection takes x where z is not 0.
LOG 146 (DESIGN CHOICE). -/
def packedBf16 (op : PackedOp) (x y z : Nat) : Nat :=
  let v := decodeFloat fmtBF16
  let r := fun (q : Val) => (roundFloat fmtBF16 false q).code
  let nan := v x == .nan || v y == .nan
  match op with
  | .add => r ((v x).add (v y))
  | .mul => r ((v x).mul (v y))
  | .fma => r (((v x).mul (v y)).add (v z))
  | .min => if nan then r .nan else if (v x).lt (v y) then x else y
  | .max => if nan then r .nan else if (v x).lt (v y) then y else x
  | .cmp => b2n ((v x).lt (v y) && !(x % 2 ^ 15 == 0 && y % 2 ^ 15 == 0))
  | .select => if z = 0 then y else x

/-- An INT8 sublane: the exact result saturated once.
LOG 146 (DESIGN CHOICE). -/
def packedInt8 (op : PackedOp) (x y z : Nat) : Nat :=
  let v := toSigned 8
  let r := fun (q : Int) => ofSigned 8 (max (-128) (min 127 q))
  match op with
  | .add => r (v x + v y)
  | .mul => r (v x * v y)
  | .fma => r (v x * v y + v z)
  | .min => r (min (v x) (v y))
  | .max => r (max (v x) (v y))
  | .cmp => b2n (decide (v x < v y))
  | .select => if z = 0 then y else x

/-- Sublane i of a lane, of w bits. -/
def sublane (w x i : Nat) : Nat := x / 2 ^ (w * i) % 2 ^ w

/-- n sublanes of w bits side by side, each the operation on its own sublane of the operands. -/
def onSublanes (w n : Nat) (f : Nat → Nat → Nat → Nat) (x y z : Nat) : Nat :=
  ((List.range n).map fun i => f (sublane w x i) (sublane w y i) (sublane w z i) * 2 ^ (w * i)).sum

/-- A lane in a packed mode: two BF16 or four INT8 sublanes of its 32 bits (R99). -/
def packedLane (int8 : Bool) (op : PackedOp) (x y z : Nat) : Nat :=
  if int8 then onSublanes 8 4 (packedInt8 op) x y z else onSublanes 16 2 (packedBf16 op) x y z

end Sys2Proof.Machine
end

