-- ==== Sys2Proof/Machine/Operands.lean ====
section
/-! DEFINITION. The anchored arithmetic of the arrays (R51–R65): the arithmetic word, operand pairs, census and bounds,
anchors, grid terms, the accumulator word and its sum, output conversion. -/

namespace Sys2Proof.Machine

/-! ## The arithmetic word (R54) -/

/-- The fields of an arithmetic word (Table 03-3). -/
structure ArithWord where
  aFmt : Nat
  aBs : Bool
  bFmt : Nat
  bBs : Bool
  outFmt : Nat
  outSat : Bool
  cin : Nat
  headroom : Nat
  deriving DecidableEq, Repr

/-- The fields of a 64-bit arithmetic word. -/
def parseArith (w : Nat) : ArithWord :=
  { aFmt := bits w 3 0, aBs := bit w 4, bFmt := bits w 11 8, bBs := bit w 12, outFmt := bits w 19 16,
    outSat := bit w 20, cin := bits w 25 24, headroom := bits w 31 26 }

/-- Reserved bits are 0, HEADROOM and OUT_FMT lie in their ranges (R54, Table 03-3). -/
def arithFieldsOk (w : Nat) : Bool :=
  bits w 7 5 == 0 && bits w 15 13 == 0 && bits w 23 21 == 0 && bits w 63 32 == 0 && decide (bits w 31 26 ≤ 40) &&
  [0x3, 0x4, 0x6, 0x7, 0x8, 0x9, 0xA].contains (bits w 19 16)

/-- The rate of an operand pair in K-steps' quarters and whether its anchors are Fixed (Table 03-2): 4 is one k per
K-step, 8 two, 1 one quarter; none for a pair the table does not list (R52, R53). -/
def pairRate (w : ArithWord) : Option (Nat × Bool) :=
  let int8 := fun f s => (f == 0x0 || f == 0x1) && !s
  let int4 := fun f s => f == 0x2 && !s
  let narrow := fun f s => f == 0x5 || (f == 0x2 && s)
  let mid := fun f s => f == 0x3 || f == 0x4 || (f == 0x0 && s) || narrow f s
  let wide := fun f s => (f == 0x6 || f == 0x7) && !s
  let a := w.aFmt; let b := w.bFmt
  if int8 a w.aBs && int8 b w.bBs then some (4, true)
  else if int4 a w.aBs && int4 b w.bBs then some (8, true)
  else if (int4 a w.aBs && int8 b w.bBs) || (int8 a w.aBs && int4 b w.bBs) then some (4, true)
  else if narrow a w.aBs && narrow b w.bBs then some (8, false)
  else if mid a w.aBs && mid b w.bBs then some (4, false)
  else if wide a w.aBs && wide b w.bBs then some (1, false)
  else none

/-- Whether anchors are Fixed at 0 (integer pairs, Table 03-2). -/
def fixedAnchors (w : ArithWord) : Bool :=
  match pairRate w with
  | some (_, f) => f
  | none => false

/-- The number of k values that `steps` K-steps cover (Table 04-1). -/
def kOfSteps (w : ArithWord) (steps : Nat) : Nat :=
  match pairRate w with
  | some (r, _) => steps * r / 4
  | none => steps

/-! ## Elements, census and bounds (R49–R57) -/

/-- Element `i` of a packed run of elements of `w` bits, 4-bit elements low nibble first (R49). -/
def elemAt (l : List Byte) (w i : Nat) : Nat :=
  if w = 4 then (l.getD (i / 2) 0).toNat / (if i % 2 = 0 then 1 else 16) % 16
  else fieldAt l (i * (w / 8)) (w / 8)

/-- Elements packed to bytes, 4-bit elements low nibble first, an odd last one padded with 0 (R49). -/
def packElems (w : Nat) (l : List Nat) : List Byte :=
  if w = 4 then
    (List.range (ceilDiv l.length 2)).map fun i => BitVec.ofNat 8 (l.getD (2 * i) 0 % 16 + 16 * (l.getD (2 * i + 1) 0 % 16))
  else l.flatMap fun v => leBytes (w / 8) v

/-- The value of an element times its block's E8M0 scale byte (R51); 0xFF is NaN. -/
def scaledElem (code v : Nat) (scale : Option Nat) : Val :=
  match scale with
  | none => decodeElem code v
  | some 0xFF => .nan
  | some s => (decodeElem code v).scale ((s : Int) - 127)

/-- The census rebias of a float format (Table 03-4). -/
def censusRebias (code : Nat) : Nat :=
  match code with
  | 0x3 => 120
  | 0x4 => 112
  | 0x5 => 126
  | 0x7 => 112
  | _ => 0

/-- The element bound exponent b of a block-scaled format (Table 03-4). -/
def scaleBound (code : Nat) : Nat :=
  match code with
  | 0x0 => 8
  | 0x2 => 4
  | 0x3 => 9
  | 0x4 => 16
  | _ => 3

/-- The census contribution of one element: 0 for zero, 0xFF for NaN or infinity (R55). -/
def censusElem (code v : Nat) : Nat :=
  match floatFmt code with
  | none => 0
  | some f =>
    match decodeFloat f v with
    | .fin _ sig _ =>
      if sig = 0 then 0 else max (v % 2 ^ (f.ebits + f.mbits) / 2 ^ f.mbits) 1 + censusRebias code
    | _ => 0xFF

/-- The exponent census of a block of elements (R55). -/
def censusBlock (code : Nat) (l : List Nat) : Nat := (l.map (censusElem code)).foldl max 0

/-- The bound of one operand row or column from its block bytes (R56): census bytes of an unscaled operand, scale
bytes of a block-scaled one with element bound `b`; 0xFF blocks left out. -/
def operandBound (scaled : Option Nat) (blocks : List Nat) : Int :=
  let vals := (blocks.filter (· != 0xFF)).map fun c =>
    match scaled with
    | some b => (c : Int) - 127 + b
    | none => ((max c 1 : Nat) : Int) - 126
  match vals with
  | [] => 1 - 126
  | v :: r => r.foldl max v

/-- H: HEADROOM, or the smallest H with 2^H ≥ N (R56). -/
def resolveHeadroom (headroom n : Nat) : Nat :=
  if headroom ≠ 0 then headroom else if n ≤ 1 then 0 else Nat.log2 (n - 1) + 1

/-- The C bound t of an FP32 C value, none for NaN or infinity (R56). -/
def cBound (c : Nat) : Option Int :=
  let e := censusElem 0x8 c
  if e = 0xFF then none else some (((max e 1 : Nat) : Int) - 126)

/-- The anchor A(i,j) (R56). -/
def anchorOf (r s : Int) (h : Nat) (t : Option Int) : Int :=
  let p := match t with
    | some t => max (r + s) t
    | none => r + s
  max (-512) (min 511 (p + h - 62))

/-! ## The accumulator word (R58–R60) -/

/-- The largest finite word M = 2^63 − 4. -/
def accMax : Int := 2 ^ 63 - 4

/-- What an accumulator word holds: NaN, an infinity or an integer. -/
inductive AccVal where
  | nan
  | inf (neg : Bool)
  | fin (i : Int)
  deriving DecidableEq, Repr

/-- The content of a 64-bit word; a word the device never writes reads as NaN (R58). -/
def accDecode (w : Nat) : AccVal :=
  let i := toSigned 64 w
  if w % 2 ^ 64 = 0x8000000000000001 then .inf false
  else if w % 2 ^ 64 = 0x8000000000000002 then .inf true
  else if i > accMax || i < -accMax then .nan
  else .fin i

/-- The word of a content (R58). -/
def accEncode (v : AccVal) : Nat :=
  match v with
  | .nan => 0x8000000000000000
  | .inf false => 0x8000000000000001
  | .inf true => 0x8000000000000002
  | .fin i => ofSigned 64 i

/-- A term rounded alone to the anchor grid, ties to even (R59). A finite term that does not fit the word, which no
bounds of the operands allow (R60), is the free value `Config.gridOverflow`.
LOG 18 (DESIGN CHOICE). -/
def gridTerm (v : Val) (a : Int) : AccVal :=
  match v with
  | .nan => .nan
  | .inf neg => .inf neg
  | .fin neg sig exp =>
    let q : Int := roundShift sig (a - exp)
    let i := if neg then -q else q
    if i > accMax || i < -accMax then .fin (max (-accMax) (min accMax (Config.gridOverflow (if neg then -(sig : Int) else sig) exp a)))
    else .fin i

/-- The sum of two contents and whether it saturated (R59, R60). -/
def accAdd (x y : AccVal) : AccVal × Bool :=
  match x, y with
  | .nan, _ => (.nan, false)
  | _, .nan => (.nan, false)
  | .inf s, .inf t => (if s = t then .inf s else .nan, false)
  | .inf s, .fin _ => (.inf s, false)
  | .fin _, .inf t => (.inf t, false)
  | .fin i, .fin j =>
    if i + j > accMax then (.fin accMax, true)
    else if i + j < -accMax then (.fin (-accMax), true)
    else (.fin (i + j), false)

/-! ## Output conversion (R64, R65) -/

/-- The bits of a format's code of the largest finite magnitude, with a sign. -/
def largestFinite (code : Nat) (neg : Bool) : Nat :=
  match floatFmt code with
  | some f => f.sign neg + f.maxFinite
  | none => if neg then 2 ^ 31 else 2 ^ 31 - 1

/-- An accumulator word on anchor `a` converted once to format `code` (R64, Table 03-5); S64 is the word itself, NaN for one the
device never writes. -/
def convertWord (code : Nat) (sat : Bool) (a : Int) (w : Nat) : Conv :=
  if code = 0xA then ⟨accEncode (accDecode w), false, false⟩
  else
    match accDecode w with
    | .fin i =>
      if i = accMax || i = -accMax then ⟨largestFinite code (decide (i < 0)), false, false⟩
      else
        let v : Val := .fin (decide (i < 0)) i.natAbs a
        match floatFmt code with
        | some f => roundFloat f sat v
        | none => let r := roundInt (-(2 ^ 31)) (2 ^ 31 - 1) v; ⟨ofSigned 32 r.1, r.2, false⟩
    | .inf neg =>
      match floatFmt code with
      | some f => roundFloat f sat (.inf neg)
      | none => ⟨largestFinite code neg, true, false⟩
    | .nan =>
      match floatFmt code with
      | some f => ⟨f.canonNan, false, true⟩
      | none => ⟨0, false, true⟩

/-- An anchor from its 10-bit field, and back (R80). -/
def anchorDecode (v : Nat) : Int := toSigned 10 v
/-- The 10-bit field of an anchor. -/
def anchorEncode (a : Int) : Nat := ofSigned 10 a

/-! ## Post-operation chains (R103, R104) -/

/-- Table 04-11: operands a chain step's OP allows in SRC. -/
def chainSrcOk (op src : Nat) : Bool :=
  match op with
  | 1 | 2 | 3 | 4 => decide (1 ≤ src) && decide (src ≤ 3)
  | 5 | 6 | 7 | 8 => src == 0
  | 9 | 10 => src == 1 || src == 2
  | _ => false

/-- The ticks per row of a chain step (Table 04-11). -/
def chainStepCt (op : Nat) : Nat :=
  match op with
  | 1 | 2 | 3 | 4 | 5 => 1
  | 6 => 16
  | 7 => 17
  | 8 => 20
  | 9 | 10 => 2
  | _ => 0

/-- The steps of a chain up to the first END. -/
def chainSteps (steps : List Nat) : List (Nat × Nat) :=
  ((steps.zipIdx.map fun p => (p.2, p.1)).takeWhile fun p => bits p.2 5 0 != 0)

/-- GELU_TANH (Table 04-11). -/
def fgelu (x : Nat) : Nat :=
  fmul x (fsigmoid (fmul 0x3FCC422A (ffma 0x3D372713 (fmul (fmul x x) x) x)))

/-- REQUANT: clamp(round_ties_even(x·v) + ZP, lo, hi); a NaN product rounds to 0, an infinity gives the limit. -/
def requant (lo hi : Int) (x v : Nat) (zp : Int) : Int :=
  let p := fmul x v
  match f32 p with
  | .inf neg => if neg then lo else hi
  | .nan => max lo (min hi zp)
  | .fin _ _ _ => max lo (min hi (fRoundEven p + zp))

/-- One chain step on the running FP32 value (Table 04-11); a REQUANT step answers its stored integer. -/
def chainStep (op x v zp : Nat) : Nat × Option Nat :=
  match op with
  | 1 => (fadd x v, none)
  | 2 => (fmul x v, none)
  | 3 => (fmax x v, none)
  | 4 => (fmin x v, none)
  | 5 => (fmax x 0, none)
  | 6 => (fsigmoid x, none)
  | 7 => (fmul x (fsigmoid x), none)
  | 8 => (fgelu x, none)
  | 9 => (x, some (ofSigned 8 (requant (-128) 127 x v (toSigned 8 zp))))
  | 10 => (x, some (ofSigned 8 (requant 0 255 x v (zp % 256 : Nat))))
  | _ => (x, none)

/-- A chain's rules of R104 for an output format: SRC allowed, ZP 0 off REQUANT, REQUANT last and only to FP32 output,
no chain to S64, reserved bits 0. -/
def chainOk (outFmt : Nat) (steps : List Nat) : Bool :=
  let ss := (chainSteps steps).map Prod.snd
  let isRq := fun w => bits w 5 0 == 9 || bits w 5 0 == 10
  ss.all (fun w => chainSrcOk (bits w 5 0) (bits w 7 6) && (bits w 28 21 == 0 || isRq w) && bits w 31 29 == 0) &&
  (ss.dropLast.all fun w => !isRq w) &&
  (match ss.getLast? with
    | some w => !isRq w || outFmt == 0x8
    | none => true) &&
  (ss.isEmpty || outFmt != 0xA)

end Sys2Proof.Machine
end

