-- ==== Sys2Proof/Machine/RegMap.lean ====
section
/-! DEFINITION. The register maps of every chapter as data: block, offset, repetition, fields with access code (R11) and
reset value, who may write, and whether the register is the low word of a pair under R10. -/

namespace Sys2Proof.Machine

/-- The access codes (Table 00-4); RSV is the absence of a field. -/
inductive Acc where
  | ro | rw | w1c | w1s | wo | rwl
  deriving DecidableEq, Repr

/-- A field of a register. -/
structure RegField where
  hi : Nat
  lo : Nat
  acc : Acc
  reset : Nat
  deriving DecidableEq, Repr

/-- Who may write a register. -/
inductive Who where
  | anyone
  | steward
  /-- The Steward and the cluster's sequencer. -/
  | stewardSeq
  /-- The controlling master. -/
  | master
  /-- The controlling master and the Steward. -/
  | masterSteward
  /-- Partition S. -/
  | partS
  /-- Partition S and the Steward. -/
  | partSSteward
  deriving DecidableEq, Repr

/-- A register, or `count` of them `stride` bytes apart, at an offset of its block. -/
structure RegRow where
  name : String
  off : Nat
  count : Nat
  stride : Nat
  who : Who
  /-- The low word of a pair under R10: its high word lies 4 bytes above. -/
  pair : Bool
  fields : List RegField
  deriving DecidableEq, Repr

/-- A read-only field. -/
def fRO (hi lo : Nat) (reset : Nat := 0) : RegField := ⟨hi, lo, .ro, reset⟩
/-- A read-write field. -/
def fRW (hi lo : Nat) (reset : Nat := 0) : RegField := ⟨hi, lo, .rw, reset⟩
/-- A write-1-to-clear bit. -/
def f1C (n : Nat) : RegField := ⟨n, n, .w1c, 0⟩
/-- A write-1-to-set field. -/
def f1S (hi lo : Nat) : RegField := ⟨hi, lo, .w1s, 0⟩
/-- A write-only field. -/
def fWO (hi lo : Nat) : RegField := ⟨hi, lo, .wo, 0⟩
/-- A lockable field. -/
def fRL (hi lo : Nat) (reset : Nat := 0) : RegField := ⟨hi, lo, .rwl, reset⟩

/-- A read-only register. -/
def rRO (name : String) (off : Nat) (reset : Nat := 0) (count : Nat := 1) (stride : Nat := 4) : RegRow :=
  ⟨name, off, count, stride, .anyone, false, [fRO 31 0 reset]⟩
/-- The two read-only words of a pair under R10. -/
def rPair (name : String) (off : Nat) (count : Nat := 1) (stride : Nat := 8) : List RegRow :=
  [⟨name, off, count, stride, .anyone, true, [fRO 31 0]⟩, ⟨name, off + 4, count, stride, .anyone, false, [fRO 31 0]⟩]
/-- The two read-write words of a pair under R10. -/
def rPairRW (name : String) (off : Nat) (who : Who) (lo hi : List RegField) (count : Nat := 1) (stride : Nat := 8) :
    List RegRow :=
  [⟨name, off, count, stride, who, true, lo⟩, ⟨name, off + 4, count, stride, who, false, hi⟩]
/-- A register of given fields. -/
def rF (name : String) (off : Nat) (who : Who) (fields : List RegField) (count : Nat := 1) (stride : Nat := 4) : RegRow :=
  ⟨name, off, count, stride, who, false, fields⟩

/-- CL_ registers of a cluster (chapters 03–07, 08, 11, 13, 20, 21). -/
def rowsCL : List RegRow :=
  [ rF "CL_ARR_WIDTH" 0x0100 .anyone [fRO 23 16, fRO 15 8, fRO 5 0 32],
    rF "CL_ARITH_STATUS" 0x0200 .anyone [fRO 31 16, fWO 15 15, f1C 3, f1C 2, f1C 1, f1C 0],
    rRO "CL_ARITH_SAT_LO" 0x0204, rRO "CL_ARITH_SAT_HI" 0x0208,
    rF "CL_SP_ECC_STATUS" 0x0300 .anyone [f1C 31, f1C 30, fRO 29 24, fRO 23 14, fRO 13 9],
    rRO "CL_SP_CE_COUNT" 0x0304, rRO "CL_MEM_CONFLICTS" 0x0310,
    rF "CL_SLOT_TAG_CMD" 0x0314 .stewardSeq [fWO 31 30, fWO 12 0],
    rF "CL_RINSE_STATUS" 0x0318 .anyone [fRO 31 31, fRO 26 24 7, fRO 23 16, fRO 15 0] ] ++
  rPairRW "CL_WORK_CTR" 0x0400 .anyone [fRW 31 0] [fRW 31 0] 16 8 ++
  rPairRW "CL_BB BASE" 0x0500 .stewardSeq [fRW 31 8, fRW 7 3] [fRW 15 0] 40 0x10 ++
  rPairRW "CL_BB LIMIT" 0x0508 .stewardSeq [fRW 31 8] [fRW 15 0] 40 0x10 ++
  [ rF "CL_TILER_STATE" 0x0800 .anyone [fRO 11 9 7, fRO 3 0],
    rRO "CL_TILER_FW" 0x0804,
    rF "CL_TASK_TABLE" 0x0808 .anyone [fRO 22 16, fRO 6 0],
    rF "CL_TILER_PWIDTH" 0x080C .stewardSeq [fRW 5 0 0x20],
    rRO "CL_TILER_FALLBACKS" 0x0810,
    rF "CL_ARR_FLUSH" 0x0814 .stewardSeq [fWO 10 8, fWO 7 0] ] ++
  rPairRW "CL_TILER_LIST" 0x0820 .steward [fRW 31 7] [fRW 31 16, fRW 14 0] 5 0x20 ++
  rPairRW "CL_TILER_STATUS" 0x0828 .steward [fRW 31 3] [fRW 14 0] 5 0x20 ++
  [ rF "CL_TILER_ARENA" 0x0830 .steward [fRW 28 16, fRW 12 0] 5 0x20,
    rF "CL_TILER_POS" 0x0834 .anyone [fRO 31 16, fRO 15 0] 5 0x20,
    rRO "CL_TILER_ITEM" 0x0838 0xFFFFFFFF 5 0x20 ] ++
  rPair "CL_WINDOW_BYTES" 0x08C0 ++
  rPairRW "CL_XLATE_ROOT" 0x0900 .steward [fRW 31 14, fRW 11 0] [fRW 8 0] 5 0x10 ++
  [ rF "CL_CTX_CMD" 0x0A00 .steward [fWO 31 28, fWO 26 24, fWO 4 4, fWO 3 0],
    rF "CL_CTX_SLOTS" 0x0A04 .anyone [fRO 31 16, fRO 15 0],
    rRO "CL_CTX_SWAPS" 0x0A08, rRO "CL_SYNC_POLLS" 0x0A0C ] ++
  rPairRW "CL_CTX_SAVE_BASE" 0x0A10 .steward [fRL 31 14] [fRL 8 0] ++
  [ rF "CL_CTX_SAVE_STRIDE" 0x0A18 .steward [fRL 31 14], rF "CL_CTX_SWAPBUF" 0x0A1C .steward [fRL 12 0],
    rF "CL_CTX_STATUS" 0x0A40 .anyone [f1C 31, fRO 23 16, fRO 15 14, fRO 11 8, fRO 7 4, fRO 2 0] 5 0x20,
    rF "CL_CTX_SYNC" 0x0A44 .steward [fRW 27 25, fRW 24 0] 5 0x20 ] ++
  rPair "CL_CTX_WAIT_ADDR" 0x0A50 5 0x20 ++ rPair "CL_CTX_WAIT_EXP" 0x0A58 5 0x20 ++
  [ rF "CL_LS_STATUS" 0x0B00 .anyone [f1C 31, fRO 30 30, fRO 29 28, fRO 27 27, fRO 10 0],
    rRO "CL_LS_MISMATCHES" 0x0B04,
    rF "CL_TASTER_STATUS" 0x0B08 .anyone [f1C 31, fRO 30 28, fRO 13 12, fRO 11 11, fRO 7 0],
    rRO "CL_TASTER_COUNT" 0x0B0C,
    rF "CL_REPAIR" 0x0B10 .anyone [f1C 31, fRO 30 30, fRO 15 8, fRO 7 0],
    rF "CL_HANG_LIMIT" 0x0B20 .steward [fRW 31 0 0x01000000],
    rF "CL_SEQ_WDOG" 0x0B24 .anyone [fWO 31 0],
    rRO "CL_SLOT_TAGS" 0x0C00 0 256 4 ]

/-- ARR_ registers of an array (Table 04-12). -/
def rowsARR : List RegRow :=
  [ rF "ARR_STATUS" 0x000 .anyone [fRO 31 28, f1C 27, fRO 26 24 7, fRO 23 21, fRO 20 20, fRO 19 14, fRO 2 0],
    rF "ARR_CTRL" 0x004 .anyone [fRW 0 0],
    rF "ARR_TILE_OWNER" 0x008 .anyone [fRW 31 0 0xFFFFFFFF],
    rF "ARR_COLMAP" 0x00C .anyone [fRO 14 14, fRO 13 8, fRO 6 6, fRO 5 0] ] ++
  rPair "ARR_PASS_COUNT" 0x010 ++ [rRO "ARR_RAMP_COUNT" 0x018, rRO "ARR_ABORT_COUNT" 0x01C]

/-- VEC_ registers of an engine (Table 04-17). -/
def rowsVEC : List RegRow :=
  [ rF "VEC_STATUS" 0x000 .anyone [f1C 24, fRO 23 16, fRO 5 3 7, fRO 2 0],
    rF "VEC_LIB_ID" 0x004 .anyone [fRO 31 16, fRO 15 0] ] ++
  rPair "VEC_STEP_COUNT" 0x008 ++ [rF "VEC_CHAIN" 0x100 .stewardSeq [fRW 31 0] 128 4]

/-- MOV_ registers (Table 06-4). -/
def rowsMOV : List RegRow :=
  [ rF "MOV_STATUS" 0x000 .anyone [fRO 31 16, fRO 13 8 0x20, fRO 6 0],
    rF "MOV_FAULT" 0x004 .anyone [f1C 31, f1C 30, fRO 29 26, fRO 25 21, fRO 20 17, fRO 16 16] ] ++
  rPair "MOV_FAULT_ADDR" 0x008 ++ rPair "MOV_BYTES" 0x010 ++
  [ rRO "MOV_NAN_BLOCKS" 0x018,
    rF "MOV_CH_CTRL" 0x100 .stewardSeq [fWO 7 7, fWO 6 6, fRW 2 0 7] 16 0x20,
    rF "MOV_CH_PUSH" 0x104 .stewardSeq [fWO 4 0] 16 0x20,
    rF "MOV_CH_STATUS" 0x108 .anyone [fRO 31 29, fRO 28 24, fRO 23 18, fRO 17 14, fRO 13 9, f1C 8] 16 0x20,
    rF "MOV_CH_RATE" 0x10C .stewardSeq [fRW 27 16, fRW 11 0] 16 0x20,
    rRO "MOV_CH_RETIRED" 0x110 0 16 0x20,
    rF "MOV_DESC" 0x800 .stewardSeq [fRW 31 0] 512 4 ]

/-- ACC_ registers (Table 05-5). -/
def rowsACC : List RegRow :=
  [ rF "ACC_ECC_STATUS" 0x000 .anyone [f1C 31, f1C 30, fRO 29 24, fRO 23 14, fRO 13 9], rRO "ACC_CE_COUNT" 0x004 ]

/-- ATT_ registers (Table 10-5). -/
def rowsATT : List RegRow :=
  [ rF "ATT_STATUS" 0x000 .anyone [fRO 31 28, f1C 27, fRO 26 24 7, fRO 2 0],
    rF "ATT_CTRL" 0x004 .stewardSeq [fWO 0 0],
    rRO "ATT_POS" 0x008, rRO "ATT_ITEM" 0x00C 0xFFFFFFFF ] ++
  rPair "ATT_FAULT_ADDR" 0x010 ++ rPair "ATT_BLOCKS" 0x018 ++ [rRO "ATT_RESCALES" 0x020]

/-- ST_ registers (chapters 02, 10, 12, 14, 18, 21). -/
def rowsST : List RegRow :=
  [ rF "ST_SI_STATUS" 0x1000 .anyone [fRO 23 16, fRO 14 14, fRO 13 13, fRO 12 8, fRO 7 4, fRO 3 0],
    rRO "ST_SI_CUR_VERSION" 0x1004, rRO "ST_SI_PREV_VERSION" 0x1008, rRO "ST_SI_MAX_VERSION" 0x100C,
    rRO "ST_SI_FLOOR" 0x1010 ] ++
  rPair "ST_SI_SWITCH_TIME" 0x1014 ++
  [ rRO "ST_SI_CUR_HASH" 0x1040 0 16 4,
    rF "ST_SEQ_STATUS" 0x2000 .anyone [fRO 31 20, fRO 19 9, fRO 8 4, fRO 3 0] 4 0x40,
    rF "ST_SEQ_CTRL" 0x2004 .steward [fRW 0 0] 4 0x40 ] ++
  rPair "ST_SEQ_STEP" 0x2008 4 0x40 ++
  [ rF "ST_SEQ_RR" 0x2010 .anyone [fRO 25 16, fRO 9 0] 4 0x40 ] ++
  rPair "ST_SEQ_WL" 0x2014 4 0x40 ++
  [ rRO "ST_SEQ_FULL_COUNT" 0x201C 0 4 0x40,
    rF "ST_DET_STATUS" 0x3000 .anyone [fRO 3 3, fRO 2 2, fRO 1 1, fRO 0 0] 4 0x40,
    rF "ST_DET_CTRL" 0x3004 .anyone [fWO 1 1, fWO 0 0] 4 0x40 ] ++
  rPair "ST_ND_TIMING" 0x3008 4 0x40 ++ rPair "ST_ND_VALUE" 0x3010 4 0x40 ++ rPair "ST_SEED" 0x3018 4 0x40 ++
  [ rF "ST_ND_VALUE_FIRST" 0x3020 .anyone [fRO 31 31, fRO 27 24, fRO 9 0] 4 0x40,
    rF "ST_HS_PERIOD" 0x5000 .master [fRW 9 0 100] ] ++
  rPairRW "ST_RING_BASE" 0x5020 .anyone [fRW 31 6] [fRW 8 0] 8 0x10 ++
  ((List.range 8).map fun n => rF "ST_RING_CFG" (0x5028 + 0x10 * n) .anyone
    [fRW 31 31, fWO 30 30, fRW 20 16, fRW 13 8 (1 + n), fRW 3 0]) ++
  [ rF "ST_RING_STATUS" 0x502C .anyone [f1C 31, fRO 15 0] 8 0x10 ] ++
  rPair "ST_SC_ENTRY" 0x5100 ++
  [ rF "ST_SC_CTRL" 0x5108 .partS [f1S 7 1] ] ++
  rPairRW "ST_SWIN BASE" 0x5200 .steward [fRW 31 8, fRW 7 3] [fRW 15 0] 16 0x10 ++
  rPairRW "ST_SWIN LIMIT" 0x5208 .steward [fRW 31 8] [fRW 15 0] 16 0x10 ++
  [ rF "ST_FC_ACK" 0x6000 .master [fWO 31 0], rF "ST_FC_SW_RAISE" 0x6004 .master [fWO 26 24, fWO 23 8, fWO 7 0],
    rF "ST_TASK_TIMEOUT" 0x6008 .master [fRW 15 0], rF "ST_SAFE_CMD" 0x600C .master [fWO 31 31, fWO 3 0],
    rRO "ST_SLOT_TABLE" 0x40000 0 0x6000 4, rRO "ST_SEQ_TABLE" 0x80000 0 0x8000 4 ]

/-- BT_ registers of a partition (Table 12-11). -/
def rowsBT : List RegRow :=
  [ rF "BT_STATUS" 0x000 .anyone [fRO 27 27, f1C 26, f1C 25, f1C 24, fRO 23 16, fRO 3 0],
    rF "BT_MINOR" 0x004 .anyone [fRO 31 16, fRO 15 15, fRO 5 0] ] ++
  rPair "BT_FRAME_START" 0x008 ++
  [ rRO "BT_LATE" 0x010, rRO "BT_CONFLICTS" 0x014, rRO "BT_SQUEEZES" 0x018, rRO "BT_SKIPS" 0x01C, rRO "BT_WITHHELD" 0x020,
    rRO "BT_STAGE_CARRY" 0x024, rRO "BT_ST_DONE" 0x028, rRO "BT_ST_ABANDONED" 0x02C,
    rF "BT_ST_OVERDUE" 0x030 .anyone [f1C 31, fRO 20 17, fRO 16 12, fRO 6 0],
    rF "BT_ST_INTERVAL1" 0x044 .steward [fRL 31 0 3600], rF "BT_ST_INTERVAL2" 0x048 .steward [fRL 31 0 3600],
    rF "BT_ST_INTERVAL3" 0x04C .steward [fRL 31 0 600], rF "BT_ST_INTERVAL4" 0x050 .steward [fRL 31 0 600],
    rF "BT_ST_INTERVAL5" 0x054 .steward [fRL 31 0 600],
    rF "BT_HANDOFF" 0x100 .anyone [fRO 0 0] 64 4,
    rF "BT_REL_IDX" 0x400 .anyone [fRO 31 31, fRO 30 30, fRO 7 0] 26 0x10 ] ++
  rPair "BT_REL_STAMP" 0x404 26 0x10

/-- TB_ registers of the generators, the PPS input and the MAC stamps. -/
def rowsTBUnits : List RegRow :=
  rPairRW "TB_GEN_FIRST" 0x100 .anyone [fRW 31 0] [fRW 31 0] 25 0x20 ++
  [ rF "TB_GEN_PERIOD" 0x108 .anyone [fRW 31 0] 25 0x20, rF "TB_GEN_WIDTH" 0x10C .anyone [fRW 31 0] 25 0x20,
    rF "TB_GEN_CTRL" 0x110 .anyone [fRW 31 31, f1C 30, fRO 29 29, fRW 28 28, fRW 7 0] 25 0x20 ] ++
  rPair "TB_GEN_LAST" 0x114 25 0x20 ++
  [ rRO "TB_GEN_MISSED" 0x11C 0 25 0x20, rF "TB_PPSIN_STATUS" 0x500 .anyone [fRO 2 0] ] ++
  rPair "TB_PPSIN_TIME" 0x504 ++ rPair "TB_PPSIN_RAW" 0x50C ++
  [ rRO "TB_PPSIN_LOST" 0x514, rF "TB_TS_STATUS" 0x600 .anyone [f1C 31, f1C 30, fRO 12 8, fRO 4 0] 4 0x40 ] ++
  rPair "TB_TS_ING_TIME" 0x604 4 0x40 ++ rPair "TB_TS_ING_RAW" 0x60C 4 0x40 ++
  [ rF "TB_TS_ING_ID" 0x614 .anyone [fRO 31 16, fRO 15 8, fRO 3 0] 4 0x40 ] ++
  rPair "TB_TS_EG_TIME" 0x618 4 0x40 ++ rPair "TB_TS_EG_RAW" 0x620 4 0x40 ++
  [ rF "TB_TS_EG_ID" 0x628 .anyone [fRO 31 16, fRO 15 8, fRO 3 0] 4 0x40 ]

/-- TB_ registers (Table 16-1). -/
def rowsTB : List RegRow :=
  [ rF "TB_STATUS" 0x000 .anyone [fRO 31 31, f1C 30, fRO 29 29, fRO 28 28],
    rF "TB_CTRL" 0x004 .steward [fRW 0 0] ] ++
  rPair "TB_RAW" 0x008 ++ rPair "TB_TIME" 0x010 ++ rPair "TB_SNAP_RAW" 0x018 ++ rPair "TB_OFFSET" 0x020 ++
  [ rF "TB_RATE" 0x028 .anyone [fRW 31 0], rF "TB_INCR" 0x02C .anyone [fRW 31 0 0x28000000],
    rF "TB_ADJ_LO" 0x030 .anyone [fWO 31 0], rF "TB_ADJ_HI" 0x034 .anyone [fWO 31 0],
    rF "TB_ADJ_CTRL" 0x038 .anyone [fRW 2 2, fRW 1 0], rF "TB_SLEW_RATE" 0x03C .anyone [fRW 29 0] ] ++
  rPair "TB_SLEW_REM" 0x040 ++ [ rF "TB_JUMP_LIMIT" 0x048 .anyone [fRW 31 0 1000000] ] ++ rPair "TB_REFUSED" 0x04C ++
  [ rRO "TB_JUMPS" 0x054, rRO "TB_REFUSALS" 0x058,
    rF "TB_GEN16_PERIOD" 0x308 .anyone [fRW 31 0 1000000000], rF "TB_GEN16_WIDTH" 0x30C .anyone [fRW 31 0 100000000] ] ++ rowsTBUnits

/-- TU_ registers (Table 11-4). -/
def rowsTU : List RegRow :=
  [ rF "TU_STATUS" 0x000 .anyone [f1C 9, f1C 8, fRO 4 0], rF "TU_LOCKED" 0x004 .anyone [fRO 13 0], rRO "TU_PF_LOST" 0x008,
    rF "TU_FENCE_CMD_LO" 0x010 .steward [fWO 31 0], rF "TU_FENCE_CMD_HI" 0x014 .steward [fWO 31 0],
    rRO "TU_FENCE_ISSUED" 0x018, rRO "TU_FENCE_RETIRED" 0x01C ] ++
  rPair "TU_WALKS" 0x020 ++
  rPairRW "TU_PF_RING" 0x100 .steward [fRW 31 13] [fRW 8 0] 4 0x10 ++
  [ rF "TU_PF_HEAD" 0x108 .anyone [fRO 7 0] 4 0x10, rF "TU_PF_TAIL" 0x10C .anyone [fRW 7 0] 4 0x10 ]

/-- DPP_ registers of a DPP (Table 09-5). -/
def rowsDPP : List RegRow :=
  [ rF "DPP_STATUS" 0x000 .anyone [f1C 11, f1C 10, fRO 9 7, fRO 2 0],
    rF "DPP_CFG" 0x004 .steward [fRO 7 5 7, fRW 4 4],
    rRO "DPP_JOBS" 0x008, rRO "DPP_DROPPED" 0x00C, rRO "DPP_IN_OVF" 0x010, rF "DPP_LAST_KEPT" 0x014 .anyone [fRO 10 0],
    rRO "DPP_LAST_CT" 0x018 ]

/-- ING_ registers of a pipe (Table 15-6). -/
def rowsING : List RegRow :=
  [ rF "ING_STATUS" 0x000 .anyone [f1C 31, f1C 30, f1C 29, fRO 1 0],
    rF "ING_CFG" 0x004 .steward [fRL 31 31, fRL 30 30, fRL 29 27, fRL 26 23, fRL 22 17, fRL 16 16, fRL 15 12, fRL 11 9],
    rF "ING_IN_SIZE" 0x008 .steward [fRL 29 16, fRL 13 0], rF "ING_CROP_ORG" 0x00C .steward [fRL 29 16, fRL 13 0],
    rF "ING_CROP_SIZE" 0x010 .steward [fRL 29 16, fRL 13 0], rF "ING_OUT_SIZE" 0x014 .steward [fRL 28 16, fRL 12 0],
    rF "ING_OUT_FMT" 0x018 .steward [fRL 29 24, fRL 23 16, fRL 15 12, fRL 8 8, fRL 7 6, fRL 5 4, fRL 3 0],
    rF "ING_DIRECT" 0x01C .steward [fRL 12 0], rF "ING_BLACK" 0x020 .steward [fRL 31 16, fRL 15 0] 2 4,
    rF "ING_GAIN" 0x028 .steward [fRL 31 16, fRL 15 0] 2 4, rF "ING_CCM" 0x030 .steward [fRL 31 16, fRL 15 0] 6 4,
    rF "ING_STAMP_OFS" 0x050 .anyone [fRW 31 0], rF "ING_LAT_NS" 0x054 .steward [fRL 31 0], rF "ING_MAX_FS" 0x058 .steward [fRL 31 0],
    rF "ING_DCOUNT" 0x05C .steward [fRL 21 0] ] ++
  rPairRW "ING_RING" 0x060 .steward [fRL 31 12] [fRL 8 0] ++
  [ rF "ING_RING_STRIDE" 0x068 .steward [fRL 31 0], rF "ING_RING_STATE" 0x06C .steward [fRL 20 16, fRO 15 8, fRO 7 0],
    rRO "ING_FRAMES" 0x070, rRO "ING_DROPS" 0x074, rRO "ING_OTHER_PKTS" 0x078, rRO "ING_UNSYNC_COUNT" 0x07C ] ++
  rPair "ING_LAST_STAMP" 0x080

/-- ETH_ registers of a parser and MAC (R345, R411). -/
def rowsETH : List RegRow :=
  [ rF "ETH_STATUS" 0x000 .anyone [f1C 31, fRO 0 0], rF "ETH_TPL" 0x010 .steward [fRL 31 0] 8 4 ] ++
  rPairRW "ETH_RING" 0x030 .steward [fRL 31 12] [fRL 8 0] ++
  [ rF "ETH_RING_STRIDE" 0x038 .steward [fRL 31 0], rF "ETH_RING_STATE" 0x03C .steward [fRL 20 16, fRO 15 8, fRO 7 0],
    rF "ETH_LAT_NS" 0x040 .steward [fRL 31 0], rRO "ETH_PKTS" 0x044, rRO "ETH_DROPS" 0x048, rRO "ETH_POINT_OVF" 0x04C,
    rF "ETH_MAC_CFG" 0x100 .partSSteward [fRW 3 3, fRW 2 1, fRW 0 0],
    rF "ETH_RX_SIZE" 0x110 .partSSteward [fRW 31 0] ] ++
  rPairRW "ETH_RX_RING" 0x108 .partSSteward [fRW 31 0] [fRW 31 0] ++
  rPairRW "ETH_TX_RING" 0x118 .partSSteward [fRW 31 0] [fRW 31 0] ++
  [ rF "ETH_TX_SIZE" 0x120 .partSSteward [fRW 31 0],
    rF "ETH_TS_ING_LAT" 0x128 .partSSteward [fRW 31 0], rF "ETH_TS_EG_LAT" 0x12C .partSSteward [fRW 31 0] ]

/-- SP_ registers of a port (Table 17-5). -/
def rowsSPport : List RegRow :=
  [ rF "SP_PORT_STATUS" 0x00 .anyone [fRO 4 4, fRO 3 3, fRO 2 0], rF "SP_PORT_CFG" 0x04 .anyone [fRO 3 0],
    rF "SP_PORT_CTRL" 0x08 .steward [fWO 0 0], rF "SP_LINK_LAT" 0x0C .anyone [fRO 23 0],
    rF "SP_PEER" 0x10 .anyone [fRO 31 31, fRO 9 8, fRO 6 0],
    rRO "SP_CORRECTED" 0x14, rRO "SP_RETRIES" 0x18, rRO "SP_DROPS" 0x1C ] ++
  rPair "SP_TX_BYTES" 0x20 ++ rPair "SP_RX_BYTES" 0x28

/-- SP_ global registers and the live routing table (Table 17-5, R383), at block offset 0xE_0000. -/
def rowsSPglob : List RegRow :=
  [ rF "SP_ID" 0x00 .anyone [fRO 31 31, fRO 22 16, fRO 6 0 0x7F], rF "SP_BAR_STATUS" 0x04 .anyone [f1C 3, f1C 2, f1C 1, fRO 0 0],
    rF "SP_BAR_CTRL" 0x08 .steward [f1S 0 0] ] ++
  rPair "SP_BAR_TIME" 0x0C ++ [rRO "SP_ROUTE" 0x10000 0 24 4]

/-- PE_ registers (Table 18-9). -/
def rowsPE : List RegRow :=
  [ rF "PE_STATUS" 0x000 .anyone [fRO 31 31, f1C 30, fRO 7 4, fRO 3 1, fRO 0 0], rF "PE_ID" 0x004 .anyone [fRO 31 16, fRO 15 0] ] ++
  rPairRW "PE_BAR2_BASE" 0x008 .master [fRW 31 30] [fRW 4 0] ++
  [ rF "PE_VEC_CFG" 0x010 .master [fRW 29 24 7, fRW 21 16 6, fRW 13 8 5, fRW 5 0], rF "PE_VEC_CFG PF3" 0x014 .master [fRW 5 0 8],
    rRO "PE_AER_COR" 0x018, rRO "PE_AER_UNCOR" 0x01C ]

/-- MC_ registers of a channel (Table 19-5). -/
def rowsMC : List RegRow :=
  [ rF "MC_STATUS" 0x000 .anyone [fRO 31 28 0xF, fRO 5 5, fRO 4 4, fRO 3 0],
    rF "MC_CFG" 0x004 .anyone [fRO 31 28, fRO 27 24, fRO 23 23, fRO 19 18, fRO 12 8, fRO 3 0],
    rF "MC_ECC_STATUS" 0x008 .anyone [f1C 31, f1C 30, f1C 29, fRO 28 28, fRO 27 27, fRO 26 24] ] ++
  rPair "MC_ECC_ADDR" 0x00C ++
  [ rRO "MC_CE_COUNT" 0x014, rRO "MC_UE_COUNT" 0x018, rRO "MC_RETRIES" 0x01C, rRO "MC_PATROL" 0x020,
    rF "MC_DRIFT_COUNT" 0x024 .anyone [fRO 15 0] ] ++
  rPair "MC_RD_BYTES" 0x030 ++ rPair "MC_WR_BYTES" 0x038

/-- PM_ registers (Table 23-9, R346, R477, Table 24-6, Table 24-9). -/
def rowsPM : List RegRow :=
  [ rF "PM_STATUS" 0x000 .anyone [f1C 31, f1C 30, fRO 7 4, fRO 3 3, fRO 2 0],
    rF "PM_STATE_CMD" 0x004 .anyone [fWO 2 0],
    rF "PM_WAKE_SRC" 0x008 .anyone [f1C 31, fRO 5 4, f1C 3, f1C 2, f1C 1, f1C 0],
    rF "PM_WAKE_REQ" 0x00C .anyone [fWO 31 0] ] ++
  rPair "PM_RTC" 0x010 ++ rPairRW "PM_ALARM" 0x018 .anyone [fRW 31 0] [fRW 31 0] ++
  [ rF "PM_THERM_STATUS" 0x020 .anyone [fRO 31 31, fRO 30 28, fRO 15 0],
    rF "PM_TSENS" 0x040 .anyone [fRO 31 31, fRO 15 0] 16 4,
    rF "PM_AVS_STATUS" 0x080 .anyone [f1C 31, fRO 15 0], rRO "PM_THROTTLE_COUNT" 0x084,
    rF "PM_SHUTDOWN" 0x088 .anyone [f1C 31, fRO 15 0],
    rF "PM_RAIL_STATUS" 0x0C0 .anyone [f1C 31, fRO 8 0], rF "PM_GPIO_OUT" 0x0C4 .anyone [fRW 23 0],
    rF "PM_STR_CFG" 0x80000 .steward [fRL 1 1, fRL 0 0] 28 0x20, rRO "PM_STR28_CFG" 0x80380 2, rRO "PM_STR29_CFG" 0x803A0 3 2 0x20,
    rF "PM_STR_TIME" 0x80004 .steward [fRL 31 28, fRL 27 20 1, fRL 19 10, fRL 9 0] 28 0x20,
    rRO "PM_STR28_TIME" 0x80384 0x01900000 3 0x20,
    rF "PM_STR_STATUS" 0x80008 .anyone [f1C 31, fRO 30 30, fRO 29 29] 31 0x20,
    rRO "PM_STR_GLITCH" 0x8000C 0 31 0x20, rRO "PM_STR_OVERRUN" 0x80010 0 31 0x20,
    rF "PM_LRS_STATUS" 0x90000 .anyone [f1C 31, fRO 3 0], rF "PM_LRS_CFG" 0x90004 .steward [fRL 0 0 1],
    rF "PM_LRS_REQ" 0x90008 .steward [fWO 31 0] ]

/-- CK_ registers (Table 23-9). -/
def rowsCK : List RegRow :=
  [ rF "CK_STATUS" 0x000 .anyone [f1C 31, fRO 30 30, fRO 15 0], rRO "CK_CFG" 0x004 ]

/-- Registers of the Urn window: FC_ at 0x8000, URN_REC_ at 0xA000, the safety registers at 0xC000, URN_AGE_PUB at
0x4_0000 (Table 21-11, Table 20-10, R287). -/
def rowsURN : List RegRow :=
  [ rF "FC_STATUS" 0x8000 .anyone [f1C 31, f1C 30, fRO 6 0], rF "FC_ACK" 0x8004 .anyone [fWO 31 0],
    rF "FC_SW_RAISE" 0x8008 .anyone [fWO 26 24, fWO 23 8, fWO 7 0], rRO "FC_LOG_HEAD" 0x800C,
    rF "FC_LOG_SEL" 0x8010 .anyone [fRW 31 0], rRO "FC_LOG_DATA" 0x8020 0 8 4,
    rF "FC_FIRST" 0x8040 .anyone [f1C 31, f1C 30, fRO 29 27, fRO 9 0] 6 4, rRO "FC_FIRST_SEQ" 0x8060 0 6 4,
    rRO "FC_COUNT" 0x9000 0 1024 4,
    rF "URN_REC_STATUS" 0xA000 .anyone [fRO 31 31, fRO 19 0 0x66666],
    rF "URN_REC_CFG" 0xA004 .steward [fRL 8 8 1, fRL 4 0], rF "URN_REC_COUNTS" 0xA008 .anyone [fRO 9 0],
    rF "URN_HB_STEWARD" 0xA00C .anyone [fRW 31 0], rRO "URN_HB_URN" 0xA010, rRO "URN_STEWARD_RESTARTS" 0xA014,
    rF "URN_FW_STATUS" 0xA018 .steward [fRO 31 28, fWO 27 27, fRO 15 0], rF "URN_CRASH_INFO" 0xA01C .anyone [fRO 5 4, fRO 3 0] ] ++
  rPairRW "URN_CRASH_DEST" 0xA020 .steward [fRL 31 16] [fRL 8 0] ++
  [ rF "URN_SAFE_STATUS" 0xC000 .anyone [fRO 31 31, fRO 20 16, fRO 3 0],
    rF "URN_SAFE_CMD" 0xC004 .steward [fWO 31 31, fWO 3 0],
    rF "URN_ERR_CFG" 0xC008 .steward [fRL 14 8 0x60, fRL 3 0 0xF], rF "URN_ERR_STATUS" 0xC00C .anyone [fRO 1 1, fRO 0 0],
    rF "URN_SAFE_CFG" 0xC010 .steward [fRL 3 0 0xF], rF "URN_TASTER_MISSED" 0xC014 .anyone [f1C 3, f1C 2, f1C 1, f1C 0],
    rF "URN_AGE_PUB_STAMP_LO" 0x40000 .anyone [fWO 31 0] 5 0x10, rF "URN_AGE_PUB_STAMP_HI" 0x40004 .anyone [fWO 31 0] 5 0x10,
    rF "URN_AGE_PUB" 0x40008 .anyone [fWO 31 0] 5 0x10 ]

/-- CAD_ registers (Table 22-9). -/
def rowsCAD : List RegRow :=
  [ rF "CAD_DEVICE_ID" 0x0000 .anyone [fRO 31 16 0x6400, fRO 15 12 2, fRO 11 8 1, fRO 7 4 2],
    rF "CAD_STATUS" 0x0004 .anyone [f1C 31, f1C 30, fRO 4 2, fRO 1 1, fRO 0 0],
    rF "CAD_BOOT" 0x0008 .anyone [fRO 31 28, fRO 27 26, fRO 25 24],
    rF "CAD_OTP_STATE" 0x000C .anyone [fRO 31 24, fRO 23 16, fRO 11 8, fRO 7 0],
    rRO "CAD_SI_MIN" 0x0010 0 8 4, rRO "CAD_SERIAL" 0x0030 0 4 4, rRO "CAD_CHALLENGE" 0x0040 0 16 4,
    rRO "CAD_MR" 0x0100 0 128 4, rF "CAD_EXT_CMD" 0x0300 .anyone [fWO 2 0], rF "CAD_EXT_DATA" 0x0340 .anyone [fWO 31 0] 16 4 ]

/-- The row of a block that covers an inner offset. -/
def findRow (rows : List RegRow) (o : Nat) : Option RegRow :=
  rows.find? fun r => decide (r.off ≤ o) && decide (o < r.off + r.count * r.stride) && (o - r.off) % r.stride == 0

end Sys2Proof.Machine
end

