-- ==== Sys2Proof/Machine/Addr.lean ====
section
/-! DEFINITION. The address map (R18–R22): bases, regions, register blocks, aliases and mirrors. -/

namespace Sys2Proof.Machine

/-- Base of the cluster windows (Table 01-4). -/
def clusterBase : Nat := 0x10000000000
/-- Base of the shared pool. -/
def poolBase : Nat := 0x11000000000
/-- Size of the shared pool. -/
def poolSize : Nat := 0x2000000
/-- Base of the chip-level work counters. -/
def chipCtrBase : Nat := 0x11010000000
/-- Base of the device register region. -/
def devBase : Nat := 0x12000000000
/-- Base of the Urn window. -/
def urnBase : Nat := 0x13000000000
/-- Base of the Caddy window. -/
def cadBase : Nat := 0x13001000000
/-- The first address past LPDDR6 (128 GiB). -/
def lpddrTop : Nat := 0x2000000000

/-- Cluster window of cluster n. -/
def clWin (n : Nat) : Nat := clusterBase + n * 0x1000000
/-- A scratchpad byte of cluster n. -/
def spAddr (n o : Nat) : Nat := clWin n + o
/-- Element e (32i + j) of tile t of array a (R81). -/
def accAddr (n a t e : Nat) : Nat := clWin n + 0x800000 + a * 0x10000 + t * 0x2000 + e * 8
/-- A CL_ register. -/
def clReg (n o : Nat) : Nat := clWin n + 0xF00000 + o
/-- An ARR_ register of array a. -/
def arrReg (n a o : Nat) : Nat := clWin n + 0xF01000 + a * 0x200 + o
/-- A VEC_ register of engine e. -/
def vecReg (n e o : Nat) : Nat := clWin n + 0xF02000 + e * 0x800 + o
/-- A MOV_ register. -/
def movReg (n o : Nat) : Nat := clWin n + 0xF03000 + o
/-- An ACC_ register. -/
def accReg (n o : Nat) : Nat := clWin n + 0xF04000 + o
/-- An ATT_ register. -/
def attReg (n o : Nat) : Nat := clWin n + 0xF05000 + o
/-- An ST_ register. -/
def stReg (o : Nat) : Nat := devBase + o
/-- A BT_ register of partition p. -/
def btReg (p o : Nat) : Nat := devBase + 0x100000 + p * 0x10000 + o
/-- A TB_ register. -/
def tbReg (o : Nat) : Nat := devBase + 0x200000 + o
/-- A TU_ register. -/
def tuReg (o : Nat) : Nat := devBase + 0x300000 + o
/-- A DPP_ register. -/
def dppReg (d o : Nat) : Nat := devBase + 0x400000 + d * 0x10000 + o
/-- An ING_ register. -/
def ingReg (i o : Nat) : Nat := devBase + 0x500000 + i * 0x10000 + o
/-- An ETH_ register. -/
def ethReg (e o : Nat) : Nat := devBase + 0x600000 + e * 0x10000 + o
/-- An SP_ port register. -/
def spReg (s o : Nat) : Nat := devBase + 0x700000 + s * 0x10000 + o
/-- An SP_ global register. -/
def spGlob (o : Nat) : Nat := devBase + 0x7E0000 + o
/-- A PE_ register. -/
def peReg (o : Nat) : Nat := devBase + 0x800000 + o
/-- An MC_ register. -/
def mcReg (c o : Nat) : Nat := devBase + 0x900000 + c * 0x10000 + o
/-- A PM_ register. -/
def pmReg (o : Nat) : Nat := devBase + 0xA00000 + o
/-- A CK_ register. -/
def ckReg (o : Nat) : Nat := devBase + 0xB00000 + o
/-- A register of the Urn window. -/
def urnReg (o : Nat) : Nat := urnBase + o
/-- A register of the Caddy window. -/
def cadReg (o : Nat) : Nat := cadBase + o

/-- The register an alias or mirror leads to (R21), and whether it is reached through a read-only mirror.
LOG 4 (DESIGN CHOICE). -/
def canonReg (a : Nat) : Nat × Bool :=
  let o := a - devBase
  if a < devBase then (a, false)
  else if 0x2000000 ≤ o ∧ o < 0x2400000 then (clReg ((o - 0x2000000) / 0x10000) (o % 0x10000), false)
  else if 0x3000000 ≤ o ∧ o < 0x3010000 then (urnBase + (o - 0x3000000), true)
  else if 0x3010000 ≤ o ∧ o < 0x3020000 then (cadBase + (o - 0x3010000), true)
  else (a, false)

/-- The register rows of a canonical address's block and the offset in it (Table 01-5, Table 01-6). -/
def blockOf (a : Nat) : Option (List RegRow × Nat) :=
  if clusterBase ≤ a ∧ a < clusterBase + 0x40000000 then
    let o := (a - clusterBase) % 0x1000000
    if o < 0xF00000 then none
    else
      match (o - 0xF00000) / 0x1000 with
      | 0 => some (rowsCL, o % 0x1000)
      | 1 => some (rowsARR, o % 0x200)
      | 2 => some (rowsVEC, o % 0x800)
      | 3 => some (rowsMOV, o % 0x1000)
      | 4 => some (rowsACC, o % 0x1000)
      | 5 => some (rowsATT, o % 0x1000)
      | _ => none
  else if devBase ≤ a ∧ a < devBase + 0xC00000 then
    let o := a - devBase
    let u := o % 0x100000 / 0x10000
    match o / 0x100000 with
    | 0 => some (rowsST, o % 0x100000)
    | 1 => if u < 4 then some (rowsBT, o % 0x10000) else none
    | 2 => some (rowsTB, o % 0x100000)
    | 3 => some (rowsTU, o % 0x100000)
    | 4 => if u < 4 then some (rowsDPP, o % 0x10000) else none
    | 5 => some (rowsING, o % 0x10000)
    | 6 => if u < 4 then some (rowsETH, o % 0x10000) else none
    | 7 => if u < 4 then some (rowsSPport, o % 0x10000)
      else if 0xE0000 ≤ o % 0x100000 then some (rowsSPglob, o % 0x100000 - 0xE0000) else none
    | 8 => some (rowsPE, o % 0x100000)
    | 9 => some (rowsMC, o % 0x10000)
    | 10 => some (rowsPM, o % 0x100000)
    | 11 => some (rowsCK, o % 0x100000)
    | _ => none
  else if urnBase ≤ a ∧ a < urnBase + 0x1000000 then some (rowsURN, a - urnBase)
  else if cadBase ≤ a ∧ a < cadBase + 0x1000000 then some (rowsCAD, a - cadBase)
  else none

/-- The row of a canonical register address. -/
def regRow (a : Nat) : Option RegRow :=
  match blockOf a with
  | some (rows, o) => findRow rows o
  | none => none

/-- The reset value of a register (0 where no row exists).
LOG 5, 7, 9 (DESIGN CHOICE). -/
def regReset (a : Nat) : Word :=
  match regRow a with
  | some r => BitVec.ofNat 32 ((r.fields.map fun f => f.reset * 2 ^ f.lo).foldl (· + ·) 0)
  | none => 0

/-- Where a local physical address lies (Table 01-4, Table 01-5). -/
inductive Region where
  | lpddr
  | scratch (c o : Nat)
  | accum (c o : Nat)
  | pool (o : Nat)
  | chipCtr (w : Nat)
  | reg (a : Nat) (mirror : Bool)
  | none
  deriving DecidableEq, Repr

/-- The region of a local physical address. -/
def regionOf (a : Nat) : Region :=
  if a < lpddrTop then .lpddr
  else if clusterBase ≤ a ∧ a < clusterBase + 0x40000000 then
    let c := (a - clusterBase) / 0x1000000
    let o := (a - clusterBase) % 0x1000000
    if o < 0x200000 then .scratch c o
    else if 0x800000 ≤ o ∧ o < 0x880000 then .accum c (o - 0x800000)
    else match regRow a with
      | some _ => .reg a false
      | none => .none
  else if poolBase ≤ a ∧ a < poolBase + poolSize then .pool (a - poolBase)
  else if chipCtrBase ≤ a ∧ a < chipCtrBase + 0x800 then .chipCtr ((a - chipCtrBase) / 8)
  else
    let r := canonReg (a / 4 * 4)
    match regRow r.1 with
    | some _ => .reg r.1 r.2
    | none => .none

end Sys2Proof.Machine

namespace Sys2Proof

/-- The requester index (Table 05-3); 0x3FF = none. Array and engine requests carry their cluster's sequencer.
LOG 24 (DESIGN CHOICE). -/
def Requester.index : Requester → Nat
  | .sequencer c => 8 * c
  | .array c _ _ => 8 * c
  | .engine c _ _ => 8 * c
  | .tiler c _ => 8 * c
  | .swapUnit c => 8 * c
  | .mover c _ _ => 8 * c + 1
  | .attention c _ => 8 * c + 2
  | .steward => 0x200
  | .hart _ => 0x201
  | .pcie => 0x202
  | .urn => 0x203
  | .caddy => 0x204
  | .spout s => 0x208 + s
  | .pipe i => 0x210 + i
  | .parser e => 0x220 + e
  | .dpp d => 0x224 + d
  | .sliceRinse n => 0x228 + n
  | .jtag => 0x3FF

/-- A number of its own for each unit of Table 05-1 that asks: the index with the unit in it and the context. -/
def Requester.key : Requester → Nat
  | .array c a x => 0x10000 + ((c * 8 + a) * 8 + x)
  | .engine c e x => 0x20000 + ((c * 2 + e) * 8 + x)
  | .mover c n x => 0x30000 + ((c * 16 + n) * 8 + x)
  | .attention c x => 0x40000 + (c * 8 + x)
  | .tiler c x => 0x50000 + (c * 8 + x)
  | .hart h => 0x60000 + h
  | r => r.index

/-- The cluster a requester belongs to. -/
def Requester.cluster : Requester → Option Nat
  | .sequencer c => some c
  | .array c _ _ => some c
  | .engine c _ _ => some c
  | .tiler c _ => some c
  | .swapUnit c => some c
  | .mover c _ _ => some c
  | .attention c _ => some c
  | _ => none

/-- The context a requester acts for (R122). -/
def Requester.ctx : Requester → Option Nat
  | .array _ _ x => some x
  | .engine _ _ x => some x
  | .tiler _ x => some x
  | .mover _ _ x => some x
  | .attention _ x => some x
  | _ => none

end Sys2Proof
end

