-- ==== Sys2Proof/Machine/State.lean ====
section
/-! DEFINITION. The state of the block as plain data: the queue of waiting commands, every register (one sparse file
keyed by local physical address), memory, and the queues, engines and tables the manual gives each unit. -/

namespace Sys2Proof.Machine

/-- The reasons a run can stop with a fault. The manual gives every command of the table an effect, and an access to an
address that does not exist reads 0 and is reported (R19), so no meaning ends in a fault.
LOG 2 (DESIGN CHOICE). -/
inductive Fault where
  /-- Raised by no command. Safe. -/
  | none
  deriving DecidableEq, Repr

/-- The reasons a command has no meaning.
LOG 2 (DESIGN CHOICE). -/
inductive Refusal where
  /-- Raised by an arm of `exec` that has no meaning yet, with the row's mnemonic. Safe: the run stops. -/
  | notModelled (mnemonic : String)
  deriving DecidableEq, Repr

/-! ## Time (R13, R360, R443) -/

/-- The clocks of the device: nanoseconds of the compute region since device reset, of the Urn since its power-up, and
of the always-on domain. -/
structure Clock where
  /-- Raw nanoseconds since the compute region left reset; its tick is ⌊3·ns/4⌋ (R13). -/
  ns : Nat
  /-- Urn nanoseconds since the Urn domain's power-up (R459). -/
  urn : Nat
  /-- Always-on nanoseconds since VDDA_18 came into range (R531). -/
  aon : Nat
  deriving DecidableEq, Repr

/-! ## Memory (R18, R107, R427) -/

/-- A range of LPDDR6 whose content full training did not keep (R427). -/
structure LostRange where
  lo : Nat
  hi : Nat
  epoch : Nat
  deriving DecidableEq, Repr

/-- All byte memory: LPDDR6, scratchpads, accumulator words, shared pool, keyed by local physical address; the words
that carry an error (key: address ÷ 8; true: uncorrectable); the anchors of accumulator elements (R80), keyed by
address ÷ 8. -/
structure Memory where
  cells : List Host.Cell
  lost : List LostRange
  bad : List (Nat × Bool)
  anchors : List (Nat × Nat)
  deriving DecidableEq, Repr

/-- A change of slot tags (R116, R117): slots [first, first + n) of a cluster become full or empty; slot first + i as seen from tick
`at_` on, or, where `pace` slots are done in a tick, from `at_` + i/pace on; whether a command of CL_SLOT_TAG_CMD made it. -/
structure TagChange where
  at_ : Nat
  cluster : Nat
  first : Nat
  n : Nat
  pace : Nat
  full : Bool
  cmd : Bool
  deriving DecidableEq, Repr

/-- A use of a bank port in a tick (R111): the bank, whether it is the write port, whether the request is elastic, its rank and requester
index, who asks, the bytes. -/
structure PortUse where
  bank : Nat
  wr : Bool
  elastic : Bool
  rank : Nat
  idx : Nat
  req : Nat
  lo : Nat
  hi : Nat
  deriving DecidableEq, Repr

/-- What is kept of one tick: the scratchpad bytes from before its writes (R108), the uses of bank ports (R111), the Mover pieces issued
(cluster, channel, whether it crosses the network) and the channels that have lost (R146, R147), and the events that the ND counters
counted (R328): partition, and 0 for ND_TIMING, for ND_VALUE what ST_ND_VALUE_FIRST shows of the event. -/
structure TickRec where
  at_ : Nat
  olds : List (Nat × Byte)
  uses : List PortUse
  pieces : List (Nat × Nat × Bool)
  lost : List (Nat × Nat)
  nd : List (Nat × Nat)
  deriving DecidableEq, Repr

/-- A tick in which nothing has happened yet. -/
def TickRec.begin (t : Nat) : TickRec := { at_ := t, olds := [], uses := [], pieces := [], lost := [], nd := [] }

/-! ## Arrays and vector engines (R73–R106) -/

/-- An array instruction in a queue (R76): its two words, the scheduled tick of a timed one (R85), the operator index
whose completion word collects its flags (R164). -/
structure QInstr where
  w0 : Nat
  w1 : Nat
  sched : Option Nat
  opIdx : Nat
  /-- ACC_BOUND has been raised for it: it holds back its queue (R77). -/
  stuck : Bool
  /-- LATE_DATA or SLOT_CONFLICT has been noted for it. -/
  late : Bool
  /-- Its number among the instructions pushed to the array (R83). -/
  seq : Nat
  deriving DecidableEq, Repr

/-- A pass from issue to commit (R86, R87): its K-steps, its final cell values and whether a cell saturated. -/
structure Pass where
  instr : QInstr
  issue : Nat
  n : Nat
  chained : Bool
  cells : List Nat
  sat : Bool
  deriving DecidableEq, Repr

/-- A DRAIN or MERGE from issue to completion (R82, R103). -/
structure ArrOp where
  instr : QInstr
  until_ : Nat
  sat : Bool
  slots : Nat
  steps : Nat
  deriving DecidableEq, Repr

/-- A panel slot of a resident panel buffer (R75): 8 KiB of B, 512 bytes of scales, busy with a PANEL until a tick. -/
structure Panel where
  data : List Byte
  scales : List Byte
  busy : Nat
  deriving DecidableEq, Repr

/-- One matrix array: a queue per context, the passes that have not committed (oldest first), the DRAIN or MERGE in
progress, the tick until which a single-step instruction occupies it, four panel slots, the tiles set by ANCHOR or
RESTORE, the timed claim of R91, the tick of each context's last issue (R296), and the instructions pushed so far. -/
structure Arr where
  queues : List (List QInstr)
  passes : List Pass
  op : Option ArrOp
  busy : Nat
  busyTile : Nat
  panels : List Panel
  set : Nat
  claim : Bool
  lastIssue : List Nat
  idleFrom : Nat
  pushed : Nat
  deriving DecidableEq, Repr

/-- One step queued on a vector engine (R101): context, kernel ID (0 for a fused drain), length in ct, and the array
of a fused drain. -/
structure VStep where
  ctx : Nat
  kernel : Nat
  ct : Nat
  array : Option Nat
  deriving DecidableEq, Repr

/-- One vector engine: queued steps, the step running until a tick, the timed claim, the tick of each context's last
step. -/
structure Vec where
  queue : List VStep
  running : Option VStep
  until_ : Nat
  claim : Bool
  lastIssue : List Nat
  deriving DecidableEq, Repr

/-! ## Movers (R137–R162) -/

/-- Part of a piece's destination: a global address, its bytes, and what a packet to another chip does with the slot's tag (0 checks
and marks, 1 checks, 2 marks, 3 neither). -/
structure PieceSide where
  addr : Nat
  len : Nat
  op : Nat
  deriving DecidableEq, Repr

/-- A piece from issue to delivery (R144): its descriptor entry, its position and the one after it, the bytes read from the source,
where its output goes, the slots it fills and the source slots it empties, its issue tick, uncompressed byte count, the cause
its data ends the task for, whether it crosses the network, the Spout tags whose response it waits for, whether its
destination bytes have been sent to another chip, whether it has been found late, the virtual pages it was translated through. -/
structure Piece where
  entry : Nat
  pos : List Nat
  next : List Nat
  raw : List Byte
  dst : List PieceSide
  fills : List Nat
  empties : List Nat
  issue : Nat
  len : Nat
  bad : Option Nat
  net : Bool
  waits : List Nat
  sent : Bool
  late : Bool
  pages : List Nat
  deriving DecidableEq, Repr

/-- One Mover channel: queued entries, pieces issued and undelivered (issue order), the position of the next piece to
issue, tokens, the census block in progress, whether a fault, a pre-emption or an abort stops it, the cause of its last fault,
the destination slots admitted, the bytes read of each admitted source slot (a mask, by source address ÷ 256), one more
than the tick of the last refill, and the delivered bytes of an element that the next piece completes (R156). -/
structure MovChan where
  queue : List Nat
  inflight : List Piece
  pos : Option (List Nat)
  tokens : Nat
  cenMax : Nat
  state : Nat
  cause : Nat
  admitted : List Nat
  srcMask : List (Nat × Nat)
  refillAt : Nat
  carry : List Byte
  deriving DecidableEq, Repr

/-! ## Contexts, tasks and the tiler (R163–R186, R292–R315) -/

/-- A part of an operand whose block bytes BOUNDS reads (R56, R172): of B or A, elements lo to lo + n − 1 of batch element b, which are
columns or rows `off` on of the tile; K positions k0 to k0 + kn − 1 and groups g0 to g0 + ng − 1; `census` is the slot of a census
read, none where the block bytes are stored. -/
structure BoundsPart where
  isB : Bool
  b : Nat
  lo : Nat
  n : Nat
  off : Nat
  k0 : Nat
  kn : Nat
  g0 : Nat
  ng : Nat
  census : Option Nat
  deriving DecidableEq, Repr

/-- The steps a tiler emits for a work item, in order. -/
inductive Work where
  /-- An array instruction (words 0 and 1) for array `a`; its TILE is a logical tile. -/
  | arr (a w0 w1 : Nat)
  /-- A Mover descriptor, as its 64 bytes in a number. -/
  | mov (desc : Nat)
  /-- n bounds slots from `slot` opened for a BOUNDS job (R172). -/
  | boundsOpen (slot n : Nat)
  /-- A part of a BOUNDS job: the block bytes of a part of an operand taken into n bounds slots from `slot`. -/
  | boundsPart (slot n : Nat) (part : BoundsPart)
  /-- n bounds slots from `slot` closed: H written, the engine's step queued. -/
  | bounds (slot n : Nat)
  /-- WINDOW (R199): A chunk c of row tile t of the held item, from its staged runs into the slots from `slot`. -/
  | window (slot t c : Nat)
  /-- The panel source of chunk c of the held item in the diagonal mapping (R196), into the slots from `slot`; part 1 holds the elements
  of a second scale block. -/
  | diagB (slot c part : Nat)
  /-- A chunk c of tile t, or with `isB` B chunk c of array t, of 4-bit elements that do not fill whole bytes, into the slots from `slot`. -/
  | nibbles (isB : Bool) (slot t c : Nat)
  /-- Chunk c of the held item is emitted next (Table 07-12). -/
  | chunk (c : Nat)
  /-- The chain entry of the operator written to both engines (R104). -/
  | chain
  /-- Wait for the commit of every pass that reads [first, first + n), then empty those slots (R175). -/
  | free (first n : Nat)
  /-- Wait until the Mover has delivered, then tag [first, first + n) full. -/
  | ready (first n : Nat)
  /-- Tag [first, first + n) empty. -/
  | empty (first n : Nat)
  /-- The job of a DETECT operator handed to its DPP (R204). -/
  | detect
  /-- Wait until the context's Mover channels, arrays and engine steps have ended. -/
  | sync
  /-- Fetch-and-add 1 to the count word at a virtual address (R181). -/
  | count (va : Nat)
  /-- Wait until the word at a virtual address holds at least a value (R181). -/
  | waitCount (va need : Nat)
  /-- An engine step of a kernel (R101). -/
  | step (kernel ct : Nat)
  deriving DecidableEq, Repr

/-- The running state of one row of an attend item (R233): m, l and o. -/
structure AttRow where
  m : Nat
  l : Nat
  o : List Nat
  deriving DecidableEq, Repr

/-- How far an ATTN_STEP operator is: 0 its work list not read, 1 items, 2 no more items; its start tick; of the held item its
run, and of an attend item the next block, the pass under MAXFIRST and whether its rows have been staged in the arena. -/
structure AttWork where
  phase : Nat
  startAt : Nat
  run : Nat
  block : Nat
  pass : Nat
  staged : Bool
  deriving DecidableEq, Repr

/-- What the tiler of one context is doing: the operator in hand, its descriptor and its flags (Table 07-1). -/
structure TilerCtx where
  active : Bool
  /-- 0 between operators, 1 descriptor read and running, 2 share finished or aborted and its word not yet written. -/
  phase : Nat
  desc : List Byte
  sat : Bool
  ovf : Bool
  nan : Bool
  special : Bool
  fallback : Bool
  aborted : Bool
  cause : Nat
  items : Nat
  /-- Next item of a distributed timed or an undistributed operator; total items; whether the last item has been taken. -/
  next : Nat
  total : Nat
  allTaken : Bool
  work : List Work
  /-- The phase-2 or APPENDED word waited for: virtual address and value needed. -/
  waitWord : Option (Nat × Nat)
  emitted : Nat
  /-- The tile positions of the plan after a fallback, 0 before it (R183). -/
  own : Nat
  bound : Bool
  /-- The positions of each array that its logical tiles name, in order (R300). -/
  map : List (List Nat)
  /-- The block column whose B lies in the arena (R174). -/
  resident : Option Nat
  att : AttWork
  deriving DecidableEq, Repr

/-- One hardware context of a cluster beside its registers: the task instance resident in it, ticks of its last
changes, whether a pre-emption holds it, and the watch it holds. -/
structure Ctx where
  task : Option Nat
  tiler : TilerCtx
  blockedAt : Nat
  readyAt : Nat
  progressAt : Nat
  held : Bool
  tearing : Bool
  watching : Bool
  /-- The word waited for (R308): global address and expected value. -/
  wait : Option (Nat × Nat)
  /-- What a context being saved or loaded still has to do: the slot and the tick at which it ends. -/
  move : Option (Nat × Nat)
  /-- The load in progress takes the place of an evicted slot. -/
  swapIn : Bool
  rinse : Bool
  /-- The instructions and local pieces of a timed task placed so far, by unit (R269). -/
  placed : List (Nat × Nat)
  deriving DecidableEq, Repr

/-- A Mover channel record of a saved slot (Table 13-1). -/
structure SavedChan where
  n : Nat
  rate : Nat
  state : Nat
  cause : Nat
  cenMax : Nat
  carry : List Byte
  admitted : List Nat
  entries : List (List Nat)
  deriving DecidableEq, Repr

/-- One elastic slot of a cluster (R292): the task instance in it, the context it is resident in, and for a swapped-out
slot what the model keeps beside its image in memory: tick it became ready, its tiler, its channels. -/
structure Slot where
  task : Option Nat
  ctx : Option Nat
  prio : Nat
  readyAt : Nat
  started : Bool
  tiler : TilerCtx
  chans : List SavedChan
  faulted : Bool
  /-- The attention sequencer was suspended by a fault for it. -/
  attHeld : Bool
  resumePend : Bool
  waiting : Option (Nat × Nat)
  /-- Start conditions not yet satisfied (R293). -/
  conds : List (Nat × Nat)
  tiles : Nat
  windows : List Nat
  deriving DecidableEq, Repr

/-- A task instance (R269, R293): its partition and record, its class, where it runs, how it ends. -/
structure Task where
  part : Nat
  rcd : TaskRec
  timed : Bool
  /-- The mailbox command that completes with it. -/
  cmd : Option (Nat × Nat)
  /-- Elastic: clusters whose slot has not finished; timed: clusters still running. -/
  left : List Nat
  aborted : Bool
  ended : Bool
  suspended : Bool
  /-- Timed: the tick of the LAUNCH entry and END. -/
  launchAt : Nat
  endCt : Nat
  started : Bool
  slipped : Bool
  lateRaised : Bool
  blockedSince : Nat
  hangRaised : Bool
  deriving DecidableEq, Repr

/-- A launch that waits in the Steward's 64-entry queue (R293). -/
structure QLaunch where
  part : Nat
  rcd : TaskRec
  cmd : Option (Nat × Nat)
  deriving DecidableEq, Repr

/-- A Rinse job of a torn-down context (R131): the windows still locked and all it scrubs, in window order (index, low and last
address), the tiles, and whether its scrub has begun. -/
structure Rinse where
  cluster : Nat
  ctx : Nat
  windows : List (Nat × Nat × Nat)
  todo : List (Nat × Nat × Nat)
  tiles : List (Nat × Nat)
  started : Bool
  startAt : Nat
  swapped : Bool
  /-- The rows that timed requests have displaced (R132). -/
  displaced : Nat
  deriving DecidableEq, Repr

/-- A watch of a pool slice (R308): word, cluster and context; the Steward's watch of a swapped-out slot names the
slot (R310); a watch of another chip is known by its packet. -/
structure Watch where
  addr : Nat
  cluster : Nat
  ctx : Nat
  slot : Option Nat
  remote : Option SpoutPacket
  deriving DecidableEq, Repr

/-! ## The timed class (R262–R291) -/

/-- A Brew Table entry (Table 12-2). -/
structure BrewEntry where
  offset : Nat
  minor : Nat
  action : Nat
  arg0 : Nat
  arg1 : Nat
  deriving DecidableEq, Repr

/-- A stream record (Table 12-10). -/
structure StreamRec where
  stream : Nat
  source : Nat
  task : Nat
  ageMax : Nat
  staleMax : Nat
  header : Nat
  deriving DecidableEq, Repr

/-- A Brew Table as the dispatcher holds it (R265). -/
structure BrewTable where
  minors : Nat
  minorNs : Nat
  epoch : Nat
  busyCt : Nat
  entries : List BrewEntry
  streams : List StreamRec
  deriving DecidableEq, Repr

/-- A claim in force (R271, R282, R283): cluster, arrays and engines it holds, and the tick it ends. -/
structure ClaimRec where
  clusters : List Nat
  arrays : Nat
  engines : Nat
  until_ : Nat
  deriving DecidableEq, Repr

/-- A self-test slice (R283): kind, unit and index, the tick it starts, the tick its window ends. -/
structure SliceRec where
  kind : Nat
  unit : Nat
  index : Nat
  startAt : Nat
  endAt : Nat
  running : Bool
  deriving DecidableEq, Repr

/-- A unit's self-test record (R285): next slice, synthesised time of its last completion, overdue already raised. -/
structure UnitTest where
  next : Nat
  doneAt : Nat
  raised : Bool
  deriving DecidableEq, Repr

/-- A write in a staging queue (R278): when it entered and what it does. -/
structure Staged where
  at_ : Nat
  acc : Access
  /-- The sender's answer: a Spout port and tag, or none. -/
  reply : Option (Nat × SpoutPacket)
  released : Bool
  deriving DecidableEq, Repr

/-- The dispatcher of a partition (R267): both table banks, the frame it is in, the entries left, claims, slices,
the Taster reservation, tasks that ended since their stream's last PUBLISH. -/
structure Brew where
  table : Option BrewTable
  shadow : Option BrewTable
  /-- Start tick of the current minor frame; index since EPOCH of the next one; whether a skipped minor frame 0 owes its boundary
  (R264). -/
  frameTick : Nat
  frameNo : Nat
  inFrame : Bool
  nextEntry : Nat
  framesRun : Nat
  claims : List ClaimRec
  slices : List SliceRec
  taster : Option Nat
  tasterRun : Bool
  lastTaster : Nat
  /-- Sources that inject: source, tick of the release, tick at which injection stops. -/
  injecting : List (Nat × Nat × Nat)
  /-- Streams whose producing task has ended without abort since the last PUBLISH. -/
  fresh : List Nat
  squeezed : Bool
  boundary : Bool
  /-- The tick up to which the previous frame's windows reach: its start and its FRAME_BUSY_CT (R264). -/
  busyTill : Nat
  /-- The signature registers (R438, R439): cluster, unit, signature. -/
  signatures : List (Nat × Nat × Nat)
  /-- The clusters whose signatures of the current golden test have been compared. -/
  compared : List Nat
  boot : Nat
  deriving DecidableEq, Repr

/-- A stream as the Age Monitor holds it (R288). -/
structure Stream where
  part : Nat
  stamp : Nat
  published : Bool
  since : Nat
  stale : Bool
  deriving DecidableEq, Repr

/-! ## Faults and recovery (R455–R478) -/

/-- A fault record (Table 21-4), its fields apart; scope 0–3, 4 S, 7 device. -/
structure FaultRec where
  seq : Nat
  source : Nat
  scope : Nat
  sevRaise : Nat
  sev : Nat
  acked : Bool
  first : Bool
  info : FaultInfo
  utime : Nat
  time : Nat
  action : Nat
  deriving DecidableEq, Repr

/-- A pending record (R459): its record and the Urn time at which its window ends; none once it stays latched. -/
structure PendRec where
  rcd : FaultRec
  expiry : Option Nat
  deriving DecidableEq, Repr

/-- A severity table in effect for a scope (Table 21-2): an entry byte per source that differs from none. -/
structure SevTable where
  notify : Nat
  ceLimit : Nat
  winDef : Nat
  winUrg : Nat
  devCfg : Nat
  entries : List Byte
  deriving DecidableEq, Repr

/-- A crash record (R469): what heads it, and whether its capture was cut short. -/
structure CrashRec where
  scope : Nat
  source : Nat
  seq : Nat
  time : Nat
  utime : Nat
  count : Nat
  fwVersion : Nat
  siVersion : Nat
  partial_ : Bool
  number : Nat
  deriving DecidableEq, Repr

/-- A reset of a scope in progress (R467): its start in Urn time, the step of Table 21-7 it has reached, whether it is
counted (R470), the commands that asked for it, whether RESET_OVERRUN was raised. -/
structure ResetRec where
  scope : Nat
  counted : Bool
  since : Nat
  step : Nat
  cmds : List (Nat × Nat)
  overrun : Bool
  source : Nat
  seq : Nat
  deriving DecidableEq, Repr

/-- The Urn: the log and the pending table, the severity tables, the counters of the current Urn second, resets,
crash slots, the last-resort sequencer's timer. -/
structure Urn where
  nextSeq : Nat
  log : List FaultRec
  pending : List PendRec
  sev : List (Nat × SevTable)
  /-- Correctable raises of a scope and source in this Urn second: key scope·1024 + source. -/
  second : List (Nat × Nat)
  secondNo : Nat
  /-- Urn times of counted resets, by scope; Urn times of Steward restarts. -/
  resets : List (Nat × List Nat)
  restarts : List Nat
  active : List ResetRec
  capture : Option (Nat × Nat)
  captureQueue : List Nat
  crash : List (Nat × CrashRec)
  crashCount : Nat
  hbStewardSeen : Nat
  hbStewardAt : Nat
  hbUrnSeen : Nat
  hbUrnAt : Nat
  stewardUpAt : Option Nat
  takeoverAt : Option Nat
  urnHeld : Bool
  /-- ERR_OUT: the fault pattern is driven. -/
  errFault : Bool
  fwStagedAt : Nat
  fwStaged : Option (Nat × List Byte)
  fwSwitchAt : Nat
  fwOld : Nat
  fwVersion : Nat
  fwSvn : Nat
  fwCommit : Bool
  fwCmd : Option (Nat × Nat)
  /-- Pairs whose array owes a boot diagnosis (R444): cluster·8 + array. -/
  diagnose : List Nat
  reload : List (Nat × Nat × Nat × Digest)
  heldParts : List Nat
  /-- Clusters whose reset ACTION 2 has asked for (R460), and the tick of each cluster's last write of CL_SEQ_WDOG (R465). -/
  clusterQ : List Nat
  /-- The new firmware has written URN_HB_STEWARD in its 10 ms check (R474). -/
  fwHb : Bool
  seqWdog : List (Nat × Nat)
  deriving DecidableEq, Repr

/-! ## Structure Image (R28–R47) -/

/-- The resources of a partition in effect (Table 02-4). -/
structure PartRec where
  active : Bool
  pairs : Nat
  channels : Nat
  cameras : Nat
  dpps : Nat
  spouts : Nat
  eth : Nat
  deriving DecidableEq, Repr

/-- A submission between the submit command and its journal record (R36–R38). -/
structure Submission where
  image : List Byte
  ring : Nat
  idx : Nat
  deriving DecidableEq, Repr

/-- The Steward's image store: images (signed portion and signature block), the pending submission, the acceptance
time of the current image and the partitions whose hot sections wait for their boundary, the partition map and pair
modes in effect, and the hot and cold records in effect (key: section type·8 + scope, 7 = device). -/
structure Si where
  current : List Byte
  previous : List Byte
  submission : Option Submission
  acceptAt : Nat
  hotPend : List Nat
  hotDev : Bool
  parts : List PartRec
  lockstep : List Nat
  records : List (Nat × List Byte)
  deriving DecidableEq, Repr

/-! ## Timebase (R348–R362) -/

/-- A trigger generator beside its registers: its next fire time, the raw count at which its pulse ends, its fire times (newest
first). -/
structure Gen where
  next : Nat
  pulseEnd : Option Nat
  fired : List Nat
  deriving DecidableEq, Repr

/-- A captured event time stamp (R359). -/
structure TsEntry where
  time : Nat
  raw : Nat
  id : Nat
  deriving DecidableEq, Repr

/-- The timebase: raw count, steering (R349), generators, the PPS capture FIFO, timestamp FIFOs (MAC·2 + direction),
and what the Urn's clock check saw last (R360). -/
structure Tb where
  raw : Nat
  offset : Int
  acc : Int
  sacc : Int
  rem : Int
  /-- What accepted jumps add to OFFSET at the next raw nanosecond (R352, R354). -/
  jump : Int
  adjLo : Nat
  gens : List (Nat × Gen)
  pps : List (Nat × Nat)
  ts : List (Nat × List TsEntry)
  checkAt : Nat
  checkTime : Nat
  deriving DecidableEq, Repr

/-- `Gen` with nothing in it: what reset leaves. -/
def Gen.idle : Gen := { next := 0, pulseEnd := none, fired := [] }
/-- The timebase at its power-up (R348, R349).
LOG 5 (DESIGN CHOICE). -/
def Tb.powerUp : Tb :=
  { raw := 0, offset := 0, acc := 0, sacc := 0, rem := 0, jump := 0, adjLo := 0, gens := [], pps := [], ts := [], checkAt := 0,
    checkTime := 0 }

/-! ## Mailbox rings and commands (R396–R404) -/

/-- A ring as the Steward keeps it: its indices, PROD as last read, CPL_PROD at the last message, a reset that waits for
the next tick. -/
structure Ring where
  cons : Nat
  prod : Nat
  cplProd : Nat
  lastMsg : Nat
  resetPend : Bool
  deriving DecidableEq, Repr

/-- A command taken from a ring (R398): its entry, whether it has started, whether its completion is discarded
(R404). -/
structure Cmd where
  ring : Nat
  idx : Nat
  entry : List Byte
  started : Bool
  drop : Bool
  deriving DecidableEq, Repr

/-- A SEQ_SET or SEED held until its apply moment (R223, R324). -/
structure Held where
  ring : Nat
  idx : Nat
  part : Nat
  apply : Nat
  /-- Its apply moment has come, and it waits for the commit of a step that its sequence appears in. -/
  due : Bool
  seed : Option Nat
  seq : Nat
  entry : List Byte
  deriving DecidableEq, Repr

/-- The Steward's own state: rings, commands in progress, held commands, the time of its last host-service tick, the
MSI-X pending and mask bits of the endpoint (R395). -/
structure Steward where
  rings : List (Nat × Ring)
  cmds : List Cmd
  held : List Held
  lastTick : Nat
  msixPend : Nat
  msixMask : Nat
  /-- The network tick of each vector's last message. -/
  msixAt : List (Nat × Nat)
  deriving DecidableEq, Repr

/-- `Ring` with nothing in it: what reset leaves. -/
def Ring.idle : Ring := { cons := 0, prod := 0, cplProd := 0, lastMsg := 0, resetPend := false }
/-- The Steward at its start.
LOG 5 (DESIGN CHOICE). -/
def Steward.boot : Steward := { rings := [], cmds := [], held := [], lastTick := 0, msixPend := 0, msixMask := 0, msixAt := [] }

/-! ## Detection Post-Processors (R203–R219) -/

/-- A job of a DPP: the cluster and context that issued it, its class, its descriptor, the tick it was handed over. -/
structure DppJob where
  cluster : Nat
  ctx : Nat
  timed : Bool
  desc : List Byte
  at_ : Nat
  deriving DecidableEq, Repr

/-- The running job: its start tick, its T_bound, the ticks after its start by which decoding, sorting and suppression end, the blocks taken
from its rings and their bytes by stream, the records kept, invalid candidates and lost entries. -/
structure DppRun where
  job : DppJob
  start : Nat
  bound : Nat
  ends : Nat × Nat × Nat
  taken : Nat
  scores : List Byte
  boxes : List Byte
  priors : List Byte
  read : Bool
  records : List (List Byte)
  dropped : Nat
  lost : Nat
  ended : Bool
  deriving DecidableEq, Repr

/-- One DPP: at most four queued jobs and the running one. -/
structure Dpp where
  queue : List DppJob
  running : Option DppRun
  deriving DecidableEq, Repr

/-! ## Attention (R220–R245) -/

/-- The attention sequencer of a cluster: the context it is suspended for by a fault. -/
structure Att where
  ctx : Option Nat
  deriving DecidableEq, Repr

/-- A run of a step as the Steward built it (Table 10-3). -/
structure StepRunRec where
  seq : Nat
  count : Nat
  pos : Nat
  row : Nat
  kind : Nat
  cand : Nat
  gen : Nat
  region : Nat
  user : Nat
  root : Nat
  deriving DecidableEq, Repr

/-- The step of a partition: the Steward's copy of the build and the task that runs it; none between steps. -/
structure SeqStep where
  runs : List StepRunRec
  task : Option Nat
  builtAt : Nat
  deriving DecidableEq, Repr

/-! ## Ingest (R332–R347) -/

/-- The buffer ring of an ingest source (R338): its buffers in the order of their last completion, the complete ones with their
stamps and the ticks of their completion (the latest last), the last released buffer and the one before it, the tick of the last release. -/
structure BufRing where
  hist : List Nat
  done : List (Nat × Nat × Nat)
  last : Option Nat
  prev : Option Nat
  relAt : Nat
  deriving DecidableEq, Repr

/-- A frame from its frame-start packet on: its buffer, stamp, paired fire time (0: none), whether it was unsynced, whether a packet
failed, whether its frame-end packet has come, the lines and embedded data received, the strips packed. -/
structure PipeFrame where
  buf : Nat
  stamp : Nat
  fire : Nat
  unsynced : Bool
  bad : Bool
  ended : Bool
  lines : List (List Byte)
  emb : List Byte
  strips : Nat
  deriving DecidableEq, Repr

/-- A camera ingest pipe: its ring, the open frame, the frame counter, the fire times used (R337), the strip sequence number
(R339). -/
structure Pipe where
  ring : BufRing
  frame : Option PipeFrame
  count : Nat
  used : List Nat
  strip : Nat
  deriving DecidableEq, Repr

/-- An Ethernet sensor parser: its ring, the open buffer, t_first, the first azimuth of the previous packet, the records, the buffer
counter. -/
structure Parser where
  ring : BufRing
  buf : Option Nat
  first : Nat
  lastAz : Option Nat
  points : List Byte
  seq : Nat
  deriving DecidableEq, Repr

/-- A Strainer instance beside its registers (R343), in samples of its clock: the accepted level, the last reported event, the first
sample of the active level, the changes since the last report of a level-mode input. -/
structure Strain where
  level : Bool
  lastAt : Option Nat
  activeAt : Option Nat
  changes : Nat
  /-- The first samples of reported edges that the timebase has not yet captured (R358). -/
  edges : List Nat
  deriving DecidableEq, Repr

/-- `BufRing` with nothing in it: what reset leaves. -/
def BufRing.empty : BufRing := { hist := [], done := [], last := none, prev := none, relAt := 0 }
/-- `Pipe` with nothing in it: what reset leaves. -/
def Pipe.idle : Pipe := { ring := BufRing.empty, frame := none, count := 0, used := [], strip := 0 }
/-- `Parser` with nothing in it: what reset leaves. -/
def Parser.idle : Parser := { ring := BufRing.empty, buf := none, first := 0, lastAz := none, points := [], seq := 0 }
/-- `Strain` with nothing in it: what reset leaves. -/
def Strain.idle : Strain := { level := false, lastAt := none, activeAt := none, changes := 0, edges := [] }

/-! ## Translation (R246–R261) -/

/-- A cached translation: ASID, virtual page base, size in address bits (14 or 25), global page base, rights, the sequence
and GEN of an entry installed through a ROOT snapshot, whether it is locked, and the partition it serves. -/
structure Xl where
  asid : Nat
  va : Nat
  size : Nat
  ga : Nat
  r : Bool
  w : Bool
  a : Bool
  snap : Option (Nat × Nat)
  locked : Bool
  part : Nat
  /-- Its way in its set of the store. -/
  way : Nat
  deriving DecidableEq, Repr

/-- A fence outstanding: its command word, its issue tick, the mailbox command it completes, the pieces in flight that used an entry it
dropped (cluster, channel, issue tick). -/
structure Fence where
  cmd : Nat
  issue : Nat
  mb : Option (Nat × Nat)
  users : List (Nat × Nat × Nat)
  deriving DecidableEq, Repr

/-- An entry of the scrub-lock table (R259), of a context or, with `ctx` 8 + n, of swapped-out slot n; the L1 table of its context once that
is known to be final. -/
structure ScrubLock where
  cluster : Nat
  ctx : Nat
  win : Nat
  lo : Nat
  hi : Nat
  locked : Bool
  root : Nat
  deriving DecidableEq, Repr

/-- The Translation Unit: the store, the pseudo-LRU bits of its sets (0 where not listed), the micro-tables by cluster, the fences in issue order, page-fault records that wait
for room (partition and record), the scrub-lock table. -/
structure Tu where
  store : List Xl
  plru : List (Nat × Nat)
  micro : List (Nat × List Xl)
  fences : List Fence
  wait : List (Nat × List Byte)
  scrub : List ScrubLock
  deriving DecidableEq, Repr

/-- `Dpp` with nothing in it: what reset leaves. -/
def Dpp.idle : Dpp := { queue := [], running := none }
/-- `Att` with nothing in it: what reset leaves. -/
def Att.idle : Att := { ctx := none }
/-- `SeqStep` with nothing in it: what reset leaves. -/
def SeqStep.idle : SeqStep := { runs := [], task := none, builtAt := 0 }
/-- `Tu` with nothing in it: what reset leaves. -/
def Tu.empty : Tu := { store := [], plru := [], micro := [], fences := [], wait := [], scrub := [] }

/-! ## Spout (R363–R384) -/

/-- A request sent to another chip that has had no response (R381): its tag, requester, packet kind, destination chip, port and local
address there, Urn time of sending, and the mailbox command it completes. -/
structure SpReq where
  tag : Nat
  req : Requester
  kind : Nat
  dest : Nat
  port : Nat
  addr : Nat
  at_ : Nat
  cmd : Option (Nat × Nat)
  deriving DecidableEq, Repr

/-- A Spout port beside its registers (R364–R367, R377): next sequence number expected and to be sent, whether a replay is awaited
and how many came in a row for one block, the replay buffer (sequence number and packet), training attempts that failed, the
CALIB round trips measured (1/16 ct), the tick of the CALIB packet on its way. -/
structure SpPort where
  rxNext : Nat
  replaying : Bool
  replays : Nat
  txNext : Nat
  buf : List (Nat × SpoutPacket)
  attempts : Nat
  trips : List Nat
  calibAt : Option Nat
  deriving DecidableEq, Repr

/-- The start barrier of this chip (R378): Urn time of ARM, the ARRIVEs received (port and DEPTH, 1/16 ct), whether its own ARRIVE
has gone up, the tick it starts at once GO is known. -/
structure Barrier where
  armedAt : Nat
  arrived : List (Nat × Nat)
  sent : Bool
  startAt : Option Nat
  late : Bool
  deriving DecidableEq, Repr

/-- The Spout block: ports, outstanding requests, the next tag, the barrier. -/
structure Spout where
  ports : List (Nat × SpPort)
  reqs : List SpReq
  nextTag : Nat
  bar : Barrier
  deriving DecidableEq, Repr

/-- `SpPort` with nothing in it: what reset leaves. -/
def SpPort.idle : SpPort :=
  { rxNext := 0, replaying := false, replays := 0, txNext := 0, buf := [], attempts := 0, trips := [], calibAt := none }
/-- `Barrier` with nothing in it: what reset leaves. -/
def Barrier.idle : Barrier := { armedAt := 0, arrived := [], sent := false, startAt := none, late := false }
/-- `Spout` with nothing in it: what reset leaves. -/
def Spout.idle : Spout := { ports := [], reqs := [], nextTag := 0, bar := Barrier.idle }

/-! ## Boot, security and power (R405, R409, R423–R427, R474, R482–R495, R500–R529) -/

/-- The Caddy, the boot flash and the owner part of the configuration store, beside the CAD_ registers (which hold OTP's LIFECYCLE,
OWNER_STATE, VENDOR_REVOKED, FW_SVN, SI_MIN and SERIAL): the key hashes OWNER1–4 and VENDOR_ROOT0–3 of OTP, the owners' public keys by
slot, the extensions that wait, how often the alias keys have been derived, the image in boot flash with the verdict on its signatures, the image of the active bank and the
one before the last switchover, and the verdicts of the signature engines so far (key, signed bytes with their signatures, verdict):
the same bytes under the same key always verify alike (R30). -/
structure Caddy where
  owners : List Digest
  roots : List Digest
  ownerKeys : List (Nat × List Byte)
  ext : List (Nat × Digest)
  keyGen : Nat
  flash : List Byte
  flashSig : SigVerdict
  image : List Byte
  oldImage : List Byte
  verdicts : List (List Byte × List Byte × SigVerdict)
  deriving DecidableEq, Repr

/-- Reset and power beside the PM_ registers: the accepted levels of RESET_N and PWR_GOOD, whether
internal reset is released, BOOT_SEL as sampled, whether the recovery ROM polls and when it last did, the parked partitions, the always-on
time of the state command or the last park, the Cosy save, whether a wake waits, whether the device is on its way out of a state,
RAIL_EN and the always-on time it rose, whether a thermal shutdown or Off holds the device off, the always-on time of the first wake, the
samples at thermal level 1 or above since the last whole millisecond of them, whether both ERR_OUT pins are driven low. -/
structure Power where
  resetN : Bool
  pwrGood : Bool
  released : Bool
  bootSel : Nat
  recovery : Bool
  pollAt : Nat
  parked : List Nat
  since : Nat
  cosy : List (Nat × Word)
  wake : Bool
  exiting : Bool
  railEn : Bool
  railAt : Nat
  shut : Bool
  wakeAt : Nat
  hotSamples : Nat
  errLow : Bool
  deriving DecidableEq, Repr

/-- The rings of a MAC (R409): the next receive and transmit descriptors. -/
structure Mac where
  rx : Nat
  tx : Nat
  deriving DecidableEq, Repr

/-- The Caddy of a part whose OTP, boot flash and store are blank.
LOG 5 (DESIGN CHOICE). -/
def Caddy.blank : Caddy :=
  { owners := [0, 0, 0, 0], roots := [0, 0, 0, 0], ownerKeys := [], ext := [], keyGen := 0, flash := [], flashSig := ⟨false, false⟩,
    image := [], oldImage := [], verdicts := [] }
/-- The power controller at power-up.
LOG 5, 7 (DESIGN CHOICE). -/
def Power.up : Power :=
  { resetN := true, pwrGood := true, released := false, bootSel := 0, recovery := false, pollAt := 0, parked := [],
    since := 0, cosy := [], wake := false, exiting := false, railEn := true, railAt := 0, shut := false, wakeAt := 0, hotSamples := 0,
    errLow := false }
/-- `Mac` with nothing in it: what reset leaves. -/
def Mac.idle : Mac := { rx := 0, tx := 0 }

/-! ## What leaves the block -/

/-- The status of a request's completion (R19, R115, R391). -/
inductive RespStatus where
  | ok
  | error
  | unsupported
  | abort
  deriving DecidableEq, Repr

/-- The last completion: to whom, status, data. -/
structure Resp where
  req : Requester
  status : RespStatus
  data : List Byte
  deriving DecidableEq, Repr

/-- What the block sends out: an MSI-X vector, an interrupt of the service complex, a notification of the Steward, a
Spout packet at a port, an Ethernet frame of a MAC. -/
inductive Out where
  | msix (vector : Nat)
  | scIrq (source : Nat)
  | steward (seq : Nat)
  | packet (port : Nat) (pkt : SpoutPacket)
  /-- A replay request of a receiver (R366): the block it starts from. -/
  | replay (port seq : Nat)
  | frame (mac : Nat) (bytes : List Byte)
  deriving DecidableEq, Repr

/-- A line of the service complex's L2 (R405, R407): its local address, its bytes, whether a core has written it since it was filled. -/
structure L2Line where
  addr : Nat
  bytes : List Byte
  dirty : Bool
  deriving DecidableEq, Repr

/-- The state of the block: the queue of waiting commands and everything the manual gives it. -/
structure State where
  /-- The commands that wait, first in first out. -/
  pending : List Instr
  clock : Clock
  /-- Every register that is not at its reset value, by local physical address (R9, R18). -/
  regs : List (Nat × Word)
  /-- High words latched by a read of their low word (R10), by the high word's address. -/
  hiLatch : List (Nat × Word)
  mem : Memory
  /-- By cluster·8 + array. -/
  arrs : List (Nat × Arr)
  /-- By cluster·2 + engine. -/
  vecs : List (Nat × Vec)
  /-- The kernel IDs in each cluster's kernel store (R100). -/
  kstore : List (Nat × List Nat)
  /-- By cluster·16 + channel. -/
  movs : List (Nat × MovChan)
  /-- By cluster·8 + context. -/
  ctxs : List (Nat × Ctx)
  /-- By cluster·16 + slot. -/
  slots : List (Nat × Slot)
  /-- Task instances by number, and the next number. -/
  tasks : List (Nat × Task)
  nextTask : Nat
  launchQ : List QLaunch
  /-- The loaded Program of each partition. -/
  programs : List (Nat × Program)
  rinses : List Rinse
  watches : List Watch
  brew : List (Nat × Brew)
  /-- Staging queues by partition·32 + source (R278). -/
  staging : List (Nat × List Staged)
  streams : List (Nat × Stream)
  /-- Self-test records by kind·2^16 + unit·32 + index. -/
  tests : List (Nat × UnitTest)
  urn : Urn
  si : Si
  tb : Tb
  st : Steward
  dpps : List (Nat × Dpp)
  atts : List (Nat × Att)
  /-- The step of each partition's Sequence Table. -/
  steps : List (Nat × SeqStep)
  tu : Tu
  /-- The transmit queues of partition S's MACs are stopped (R447). -/
  macHalt : Bool
  /-- The partition each allocated pool bank, and each group of 16 chip-level counters, belongs to (R127, R129). -/
  poolBanks : List (Nat × Nat)
  ctrGroups : List (Nat × Nat)
  sp : Spout
  pipes : List (Nat × Pipe)
  parsers : List (Nat × Parser)
  strs : List (Nat × Strain)
  /-- The in-service repair list of the configuration store (R443): cluster, unit (array 0–7, 8 + scratchpad bank), failing column or
  row. -/
  repairs : List (Nat × Nat × Nat)
  /-- Wakes on their way to the waiters they name (R308). -/
  wakes : List Watch
  caddy : Caddy
  power : Power
  macs : List (Nat × Mac)
  /-- Corrected LPDDR6 bursts that wait for their write-back (R423): channel and local address. -/
  writeBack : List (Nat × Nat)
  /-- The DQS oscillator count of each rank at training (R425), by channel·2 + rank. -/
  dqs : List (Nat × Nat)
  /-- The cold records of the image that each scope last booted with (R43), keyed as `si.records`. -/
  booted : List (Nat × List Byte)
  /-- The accepted Program that a partition's reset puts in the place of the running one (R403). -/
  nextProg : List (Nat × Program)
  /-- The completion of the last request. -/
  resp : Option Resp
  /-- What has been sent, oldest first. -/
  out : List Out
  /-- The bits that hardware set in a register in the current tick (R12): tick, register, mask. -/
  hwSet : List (Nat × Nat × Nat)
  /-- What a register written by a Brew Table entry still reads as in the entry's tick (R267): tick, register, value. -/
  lateRegs : List (Nat × Nat × Nat)
  /-- Tag changes that the tag registers do not hold yet. -/
  tags : List TagChange
  ports : TickRec
  /-- Corrected on-chip words (address ÷ 8) that wait for their write-back (R113). -/
  spBack : List Nat
  /-- Sources that the Steward's own accesses to locked or uncorrectable memory owe, raised at its next ring command. -/
  owed : List (Src × Nat × FaultInfo)
  /-- The column maps of OTP (R94), by cluster·8 + array. -/
  colMaps : List (Nat × Nat)
  /-- The lines of the service complex's L2 (R407). -/
  l2 : List L2Line
  /-- Shares of lockstep pairs that end once their comparators have nothing in flight (R434): cluster, context, task, tick. -/
  ending : List (Nat × Nat × Nat × Nat)
  /-- The number of the next draw of a free value (the model's own field). -/
  fresh : Nat
  deriving DecidableEq, Repr

/-! ## What an unlisted unit is: its state after a reset -/

/-- `AttWork` with nothing in it: what reset leaves. -/
def AttWork.idle : AttWork := { phase := 0, startAt := 0, run := 0, block := 0, pass := 0, staged := false }
/-- `TilerCtx` with nothing in it: what reset leaves. -/
def TilerCtx.idle : TilerCtx :=
  { active := false, phase := 0, desc := [], sat := false, ovf := false, nan := false, special := false, fallback := false,
    aborted := false, cause := 0, items := 0, next := 0, total := 0, allTaken := false, work := [], waitWord := none, emitted := 0, own := 0,
    bound := false, map := [], resident := none, att := AttWork.idle }
/-- `Panel` with nothing in it: what reset leaves. -/
def Panel.empty : Panel := { data := [], scales := [], busy := 0 }
/-- `Arr` with nothing in it: what reset leaves. -/
def Arr.idle : Arr :=
  { queues := [[], [], [], [], []], passes := [], op := none, busy := 0, busyTile := 8,
    panels := [Panel.empty, Panel.empty, Panel.empty, Panel.empty], set := 0, claim := false, lastIssue := [0, 0, 0, 0, 0],
    idleFrom := 0, pushed := 0 }
/-- `Vec` with nothing in it: what reset leaves. -/
def Vec.idle : Vec :=
  { queue := [], running := none, until_ := 0, claim := false, lastIssue := [0, 0, 0, 0, 0] }
/-- `MovChan` with nothing in it: what reset leaves. -/
def MovChan.idle : MovChan :=
  { queue := [], inflight := [], pos := none, tokens := 0, cenMax := 0, state := 0, cause := 0, admitted := [],
    srcMask := [], refillAt := 0, carry := [] }
/-- `Ctx` with nothing in it: what reset leaves. -/
def Ctx.empty : Ctx :=
  { task := none, tiler := TilerCtx.idle, blockedAt := 0, readyAt := 0, progressAt := 0, held := false, tearing := false,
    watching := false, wait := none, move := none, swapIn := false, rinse := false, placed := [] }
/-- `Slot` with nothing in it: what reset leaves. -/
def Slot.free : Slot :=
  { task := none, ctx := none, prio := 0, readyAt := 0, started := false, tiler := TilerCtx.idle, chans := [],
    faulted := false, attHeld := false, resumePend := false, waiting := none, conds := [], tiles := 0, windows := [] }
/-- `Brew` with nothing in it: what reset leaves. -/
def Brew.stopped : Brew :=
  { table := none, shadow := none, frameTick := 0, frameNo := 0, inFrame := false, nextEntry := 0, framesRun := 0,
    claims := [], slices := [], taster := none, tasterRun := false, lastTaster := 0, injecting := [], fresh := [],
    squeezed := false, boundary := false, busyTill := 0, signatures := [], compared := [], boot := 0 }
/-- `UnitTest` with nothing in it: what reset leaves. -/
def UnitTest.fresh : UnitTest := { next := 0, doneAt := 0, raised := false }
/-- `PartRec` with nothing in it: what reset leaves. -/
def PartRec.absent : PartRec :=
  { active := false, pairs := 0, channels := 0, cameras := 0, dpps := 0, spouts := 0, eth := 0 }
/-- `Memory` with nothing in it: what reset leaves. -/
def Memory.empty : Memory := { cells := [], lost := [], bad := [], anchors := [] }
/-- The Urn, the Fault Collector and the Recovery Controller at power-up.
LOG 5 (DESIGN CHOICE). -/
def Urn.boot : Urn :=
  { nextSeq := 0, log := [], pending := [], sev := [], second := [], secondNo := 0, resets := [], restarts := [],
    active := [], capture := none, captureQueue := [], crash := [], crashCount := 0, hbStewardSeen := 0, hbStewardAt := 0,
    hbUrnSeen := 0, hbUrnAt := 0, stewardUpAt := none, takeoverAt := none, urnHeld := false, errFault := false,
    fwStagedAt := 0, fwStaged := none, fwSwitchAt := 0, fwOld := 0, fwVersion := 0, fwSvn := 0, fwCommit := false,
    fwCmd := none, diagnose := [], reload := [], heldParts := [], clusterQ := [], fwHb := false, seqWdog := [] }
/-- `Si` with nothing in it: what reset leaves. -/
def Si.none : Si :=
  { current := [], previous := [], submission := Option.none, acceptAt := 0, hotPend := [], hotDev := false,
    parts := [PartRec.absent, PartRec.absent, PartRec.absent, PartRec.absent, PartRec.absent], lockstep := [0, 0, 0, 0],
    records := [] }

/-- The block right after power-up reset.
LOG 5, 7 (DESIGN CHOICE). -/
def State.reset : State :=
  { pending := [], clock := { ns := 0, urn := 0, aon := 0 }, regs := [], hiLatch := [], mem := Memory.empty, arrs := [],
    vecs := [], kstore := [], movs := [], ctxs := [], slots := [], tasks := [], nextTask := 0, launchQ := [],
    programs := [], rinses := [], watches := [], brew := [], staging := [], streams := [], tests := [], urn := Urn.boot,
    si := Si.none,
    tb := Tb.powerUp, st := Steward.boot, dpps := [], atts := [], steps := [], tu := Tu.empty, macHalt := false,
    poolBanks := [], ctrGroups := [],
    sp := Spout.idle, pipes := [], parsers := [], strs := [], repairs := [], wakes := [],
    caddy := Caddy.blank, power := Power.up, macs := [], writeBack := [], dqs := [], booted := [], nextProg := [],
    resp := none, out := [], hwSet := [], lateRegs := [], tags := [], ports := TickRec.begin 0, spBack := [], owed := [], colMaps := [], l2 := [], ending := [],
    fresh := 0 }

end Sys2Proof.Machine
end

