-- ==== Sys2Proof/Machine/Ops.lean ====
section
/-! DEFINITION. The named operations over registers, memory bytes and units that every meaning is written with. -/

namespace Sys2Proof.Machine

/-! ## Registers -/

/-- The stored value of a canonical register address.
LOG 4 (DESIGN CHOICE). -/
def State.rd (s : State) (a : Nat) : Nat := (sparseGet (regReset a) s.regs a).toNat

/-- A canonical register set to a value (hardware's own change: no access code applies). -/
def State.wr (s : State) (a v : Nat) : State :=
  { s with regs := sparsePut (regReset a) s.regs a (BitVec.ofNat 32 v) }

/-- A field of a register. -/
def State.fld (s : State) (a hi lo : Nat) : Nat := bits (s.rd a) hi lo

/-- A field of a register set. -/
def State.setFld (s : State) (a hi lo v : Nat) : State := s.wr a (setBits (s.rd a) hi lo v)


/-- A register back at its reset value. -/
def State.resetReg (s : State) (a : Nat) : State := s.wr a (regReset a).toNat

/-- Every register in [lo, hi) back at its reset value. -/
def State.resetRegs (s : State) (lo hi : Nat) : State := { s with regs := sparseDrop s.regs lo hi }

/-- A 32-bit counter that holds at 0xFFFF_FFFF. -/
def State.countUp (s : State) (a n : Nat) : State := s.wr a (min 0xFFFFFFFF (s.rd a + n))

/-- A 32-bit counter that wraps. -/
def State.countWrap (s : State) (a n : Nat) : State := s.wr a ((s.rd a + n) % 2 ^ 32)

/-- The 64-bit value of a register pair, low word first. -/
def State.rd64 (s : State) (a : Nat) : Nat := s.rd a + 2 ^ 32 * s.rd (a + 4)

/-- A register pair set. -/
def State.wr64 (s : State) (a v : Nat) : State := (s.wr a (v % 2 ^ 32)).wr (a + 4) (v / 2 ^ 32 % 2 ^ 32)

/-- A 64-bit counter in a register pair advanced. -/
def State.count64 (s : State) (a n : Nat) : State := s.wr64 a ((s.rd64 a + n) % 2 ^ 64)

/-- A 64-bit counter in a register pair that holds at its greatest value. -/
def State.count64Hold (s : State) (a n : Nat) : State := s.wr64 a (min (2 ^ 64 - 1) (s.rd64 a + n))

/-! ## Time -/

/-- The compute tick.
LOG 1, 3 (DESIGN CHOICE). -/
def State.ct (s : State) : Nat := 3 * s.clock.ns / 4

/-- Bits of a register set by a hardware event: in the same tick a write of 1 no longer clears them (R12). -/
def State.orReg (s : State) (a m : Nat) : State :=
  { s.wr a (s.rd a ||| m) with hwSet := (s.ct, a, m) :: s.hwSet.filter fun e => e.1 == s.ct }

/-- A register written by what a Brew Table entry does at tick t: it reads as before up to that tick (R267). -/
def State.wrLate (s : State) (t a v : Nat) : State :=
  { s.wr a v with lateRegs := if s.lateRegs.any fun e => e.1 == t && e.2.1 == a then s.lateRegs else (t, a, s.rd a) :: s.lateRegs.filter fun e => decide (s.ct ≤ e.1) }

/-- What a register shows in this tick. -/
def State.shown (s : State) (a : Nat) : Nat :=
  match s.lateRegs.find? fun e => decide (s.ct ≤ e.1) && e.2.1 == a with
  | some e => e.2.2
  | none => s.rd a

/-- The bits of a register that hardware set in this tick. -/
def State.setNow (s : State) (a : Nat) : Nat :=
  (s.hwSet.filter fun e => e.1 == s.ct && e.2.1 == a).foldl (fun m e => m ||| e.2.2) 0

/-- Synthesised time in ns, modulo 2^64 (R349). -/
def State.time (s : State) : Nat := ofSigned 64 (s.tb.offset + s.tb.raw + s.tb.acc / 2 ^ 40)

/-- Whether time `a` has been reached at time `b` (R350). -/
def reached (b a : Nat) : Bool := decide (0 ≤ toSigned 64 (b + 2 ^ 64 - a % 2 ^ 64))

/-- Urn time in µs, modulo 2^32. -/
def State.utime (s : State) : Nat := s.clock.urn / 1000 % 2 ^ 32

/-! ## Memory bytes -/

/-- What a byte that nothing has written reads as: a byte of a range that full training did not keep is a free value;
scrubbed memory, and LPDDR6 after power-up, reads 0.
LOG 6 (DESIGN CHOICE). -/
def Memory.unlisted (m : Memory) (a : Nat) : Byte :=
  match m.lost.find? fun r => decide (r.lo ≤ a) && decide (a < r.hi) with
  | some r => Config.lostByte r.epoch a
  | none => 0

/-- A byte of memory. -/
def Memory.get (m : Memory) (a : Nat) : Byte := sparseGet (m.unlisted a) m.cells a

/-- A byte of memory written. -/
def Memory.put (m : Memory) (a : Nat) (v : Byte) : Memory := { m with cells := sparsePut (m.unlisted a) m.cells a v }

/-- `n` bytes from an address. -/
def Memory.read (m : Memory) (a n : Nat) : List Byte := (List.range n).map fun i => m.get (a + i)

/-- Bytes written from an address. -/
def Memory.write (m : Memory) (a : Nat) : List Byte → Memory
  | [] => m
  | b :: r => (m.put a b).write (a + 1) r

/-- A range zero-filled: the cells of the range dropped, and the bytes of lost ranges written as 0. -/
def Memory.zero (m : Memory) (lo n : Nat) : Memory :=
  let cut := fun (r : LostRange) =>
    [{ r with hi := min r.hi lo }, { r with lo := max r.lo (lo + n) }].filter fun q => decide (q.lo < q.hi)
  { m with cells := sparseDrop m.cells lo (lo + n), lost := m.lost.flatMap cut,
           bad := sparseDrop m.bad (lo / 8) ((lo + n) / 8) }

/-- The canonical form of memory: addresses strictly rising, no cell at what an unlisted address reads as. -/
def Memory.wf (m : Memory) : Bool := sparseWf m.unlisted m.cells

/-- The canonical form of the register store: addresses strictly rising, no register listed at its reset value. -/
def State.regsWf (s : State) : Bool := sparseWf regReset s.regs

/-- A little-endian number read from memory. -/
def State.ldn (s : State) (a n : Nat) : Nat := leNat (s.mem.read a n)

/-- A little-endian number written to memory. -/
def State.stn (s : State) (a n v : Nat) : State := { s with mem := s.mem.write a (leBytes n v) }

/-- Bytes written to memory. -/
def State.stb (s : State) (a : Nat) (l : List Byte) : State := { s with mem := s.mem.write a l }

/-- The error of a 64-bit word: some true uncorrectable, some false correctable. -/
def Memory.err (m : Memory) (a : Nat) : Option Bool := assoc m.bad (a / 8)

/-- The words of [a, a + n) that carry an error.
LOG 67 (DESIGN CHOICE). -/
def Memory.errs (m : Memory) (a n : Nat) : List (Nat × Bool) :=
  m.bad.filter fun e => decide (a / 8 ≤ e.1) && decide (e.1 * 8 < a + n)

/-- A word's error gone (rewritten whole, R112, or written back, R113). -/
def Memory.heal (m : Memory) (w : Nat) : Memory := { m with bad := m.bad.filter fun e => e.1 != w }

/-- The errors of the whole 64-bit words inside [a, a + n) gone (R112). -/
def Memory.healWhole (m : Memory) (a n : Nat) : Memory :=
  { m with bad := m.bad.filter fun e => !(decide (a ≤ e.1 * 8) && decide (e.1 * 8 + 8 ≤ a + n)) }

/-- The anchor field of an accumulator element (R80). -/
def State.anchor (s : State) (a : Nat) : Nat := sparseGet 0 s.mem.anchors (a / 8)

/-- The anchor field of an accumulator element set. -/
def State.setAnchor (s : State) (a v : Nat) : State :=
  { s with mem := { s.mem with anchors := sparsePut 0 s.mem.anchors (a / 8) (v % 1024) } }

/-! ## Units -/

/-- Array a of cluster c. -/
def State.arr (s : State) (c a : Nat) : Arr := sparseGet Arr.idle s.arrs (c * 8 + a)
/-- Array a of cluster c set. -/
def State.setArr (s : State) (c a : Nat) (v : Arr) : State := { s with arrs := sparsePut Arr.idle s.arrs (c * 8 + a) v }
/-- Engine e of cluster c. -/
def State.vec (s : State) (c e : Nat) : Vec := sparseGet Vec.idle s.vecs (c * 2 + e)
/-- Engine e of cluster c set. -/
def State.setVec (s : State) (c e : Nat) (v : Vec) : State := { s with vecs := sparsePut Vec.idle s.vecs (c * 2 + e) v }
/-- Mover channel n of cluster c. -/
def State.chan (s : State) (c n : Nat) : MovChan := sparseGet MovChan.idle s.movs (c * 16 + n)
/-- Mover channel n of cluster c set. -/
def State.setChan (s : State) (c n : Nat) (v : MovChan) : State :=
  { s with movs := sparsePut MovChan.idle s.movs (c * 16 + n) v }
/-- Context x of cluster c. -/
def State.ctx (s : State) (c x : Nat) : Ctx := sparseGet Ctx.empty s.ctxs (c * 8 + x)
/-- Context x of cluster c set. -/
def State.setCtx (s : State) (c x : Nat) (v : Ctx) : State := { s with ctxs := sparsePut Ctx.empty s.ctxs (c * 8 + x) v }
/-- Slot n of cluster c. -/
def State.slot (s : State) (c n : Nat) : Slot := sparseGet Slot.free s.slots (c * 16 + n)
/-- Slot n of cluster c set. -/
def State.setSlot (s : State) (c n : Nat) (v : Slot) : State :=
  { s with slots := sparsePut Slot.free s.slots (c * 16 + n) v }
/-- A task instance. -/
def State.task (s : State) (t : Nat) : Option Task := assoc s.tasks t
/-- A task instance rewritten. -/
def State.modTask (s : State) (t : Nat) (f : Task → Task) : State :=
  { s with tasks := s.tasks.map fun e => if e.1 = t then (e.1, f e.2) else e }
/-- The dispatcher of partition p. -/
def State.dsp (s : State) (p : Nat) : Brew := sparseGet Brew.stopped s.brew p
/-- The dispatcher of partition p set. -/
def State.setDsp (s : State) (p : Nat) (v : Brew) : State := { s with brew := sparsePut Brew.stopped s.brew p v }
/-- A staging queue (R278). -/
def State.stage (s : State) (p src : Nat) : List Staged := sparseGet [] s.staging (p * 32 + src)
/-- A staging queue set. -/
def State.setStage (s : State) (p src : Nat) (v : List Staged) : State :=
  { s with staging := sparsePut [] s.staging (p * 32 + src) v }
/-- The Program of partition p. -/
def State.prog (s : State) (p : Nat) : Option Program := assoc s.programs p

/-- Something sent out.
LOG 11 (DESIGN CHOICE). -/
def State.send (s : State) (o : Out) : State := { s with out := s.out ++ [o] }

/-- A completion to a requester.
LOG 11 (DESIGN CHOICE). -/
def State.answer (s : State) (r : Requester) (st : RespStatus) (d : List Byte) : State :=
  { s with resp := some ⟨r, st, d⟩ }

/-- The state after a draw of a free value; the draw's number is `s.fresh`.
LOG 10 (DESIGN CHOICE). -/
def State.draw (s : State) : State := { s with fresh := s.fresh + 1 }

/-- The verdict of the signature engines on bytes under a key (R30, R481): that of their first check, else the one given. A key is named by its bytes; [0] is the vendor's key of firmware, the empty list the vendor's other key.
LOG 136 (DESIGN CHOICE). -/
def State.judge (s : State) (key data : List Byte) (v : SigVerdict) : SigVerdict × State :=
  match s.caddy.verdicts.find? fun e => e.1 == key && e.2.1 == data with
  | some e => (e.2.2, s)
  | none => (v, { s with caddy := { s.caddy with verdicts := s.caddy.verdicts ++ [(key, data, v)] } })

/-- Whether the Steward runs: no restart of its pair is under way (R472).
LOG 8 (DESIGN CHOICE). -/
def State.stewardUp (s : State) : Bool := s.urn.stewardUpAt.isNone

/-! ## Configuration in effect (R1, R15, R32–R35) -/

/-- The part number. -/
def State.part (s : State) : Nat := s.fld (cadReg 0) 31 16

/-- Resources of the grade (Table 00-1): clusters, channels, camera ports, Spout ports, DPPs, partitions.
LOG 9 (DESIGN CHOICE). -/
def State.grade (s : State) : Nat × Nat × Nat × Nat × Nat × Nat :=
  if s.part = 0x6400 then (64, 16, 16, 4, 4, 4)
  else if s.part = 0x3200 then (32, 8, 12, 4, 4, 4)
  else if s.part = 0x1600 then (16, 4, 8, 2, 2, 4)
  else (8, 2, 4, 0, 1, 2)

/-- The number of clusters of the grade. -/
def State.nClusters (s : State) : Nat := s.grade.1
/-- The number of LPDDR6 channels of the grade. -/
def State.nChannels (s : State) : Nat := s.grade.2.1
/-- The number of camera ports of the grade. -/
def State.nCameras (s : State) : Nat := s.grade.2.2.1
/-- The number of Spout ports of the grade. -/
def State.nSpouts (s : State) : Nat := s.grade.2.2.2.1
/-- The number of DPPs of the grade. -/
def State.nDpps (s : State) : Nat := s.grade.2.2.2.2.1
/-- The greatest number of perception partitions of the grade. -/
def State.nParts (s : State) : Nat := s.grade.2.2.2.2.2

/-- The record of partition p (4 = S) in effect. -/
def State.prec (s : State) (p : Nat) : PartRec := s.si.parts.getD p PartRec.absent

/-- The first partition below `n` whose record satisfies a test. -/
def State.ownerBy (s : State) (n : Nat) (f : PartRec → Bool) : Option Nat :=
  (List.range n).find? fun p => (s.prec p).active && f (s.prec p)

/-- The partition that owns cluster c. -/
def State.ownerOf (s : State) (c : Nat) : Option Nat := s.ownerBy 4 fun r => bit r.pairs (c / 2)
/-- The partition that owns LPDDR6 channel c. -/
def State.chanOwner (s : State) (c : Nat) : Option Nat := s.ownerBy 5 fun r => bit r.channels c
/-- The partition that owns camera port i. -/
def State.camOwner (s : State) (i : Nat) : Option Nat := s.ownerBy 4 fun r => bit r.cameras i
/-- The partition that owns DPP d. -/
def State.dppOwner (s : State) (d : Nat) : Option Nat := s.ownerBy 4 fun r => bit r.dpps d
/-- The partition that owns Spout port n. -/
def State.spOwner (s : State) (n : Nat) : Option Nat := s.ownerBy 4 fun r => bit r.spouts n
/-- The partition that owns Ethernet parser e. -/
def State.ethOwner (s : State) (e : Nat) : Option Nat := s.ownerBy 4 fun r => bit r.eth e

/-- Whether pair k runs in lockstep (R34). -/
def State.isLockstep (s : State) (k : Nat) : Bool := (List.range 4).any fun p => bit (s.si.lockstep.getD p 0) k

/-- The clusters of partition p that execute: both of a split pair, the even one of a lockstep pair (R35). -/
def State.clustersOf (s : State) (p : Nat) : List Nat :=
  (List.range s.nClusters).filter fun c => s.ownerOf c == some p && !(s.isLockstep (c / 2) && c % 2 == 1)

/-- The partition a requester belongs to: 0–3, 4 for S, none for the device's own units (R456). -/
def State.partOf (s : State) (r : Requester) : Option Nat :=
  match r with
  | .hart _ => some 4
  | .spout n => s.spOwner n
  | .pipe i => s.camOwner i
  | .parser e => s.ethOwner e
  | .dpp d => s.dppOwner d
  | r => match r.cluster with
    | some c => s.ownerOf c
    | none => none

/-- Whether the register of a canonical address belongs to a resource that no partition owns: a cluster, a channel once an image applies
(R539), a camera port, a DPP, a Spout port but the master's, a parser. It is held in reset: writes to it have no effect and it reads its
reset value (R33, R44).
LOG 133 (DEDUCED). -/
def State.unowned (s : State) (a : Nat) : Bool :=
  if a < devBase then (s.ownerOf ((a - clusterBase) / 0x1000000)).isNone
  else
    let u := (a - devBase) % 0x100000 / 0x10000
    match (a - devBase) / 0x100000 with
    | 4 => (s.dppOwner u).isNone
    | 5 => (s.camOwner u).isNone
    | 6 => decide (0x10 ≤ a % 0x10000) && decide (a % 0x10000 < 0x100) && (s.ethOwner u).isNone
    | 7 => decide (u < 4) && (s.spOwner u).isNone && !(u == 0 && bit (s.rd (peReg 0)) 31)
    | 9 => !s.si.current.isEmpty && (List.range 5).all fun p => !bit (s.prec p).channels u
    | _ => false

/-- The scope of a partition or of the device (R456). -/
def scopeOf (p : Option Nat) : Nat := p.getD 7

/-- The record in effect of a section type for a scope (7 = device). -/
def State.record (s : State) (type scope : Nat) : List Byte := (assoc s.si.records (type * 8 + scope)).getD []

end Sys2Proof.Machine
end

