-- ==== Sys2Proof/Machine/Flags.lean ====
section
/-! DEFINITION. Status computations: full/empty tags (R116–R120), arithmetic status (R60, R64, R72), ECC status
(Table 05-6), tile ownership, context status, and the bits of a register write by access code (R11). -/

namespace Sys2Proof.Machine

/-! ## Tags -/

/-- The tick from which a change shows in a slot. -/
def TagChange.due (t : TagChange) (slot : Nat) : Nat := if t.pace = 0 then t.at_ else t.at_ + (slot - t.first) / t.pace

/-- Whether a change shows in a slot at tick `now`. -/
def TagChange.shows (t : TagChange) (c slot now : Nat) : Bool :=
  t.cluster == c && decide (t.first ≤ slot) && decide (slot < t.first + t.n) && decide (t.due slot ≤ now)

/-- The change that decides a slot: the one due last, of two of a tick the command's (R117), else the one made last. -/
def TagChange.later (slot : Nat) (x : Option TagChange) (y : TagChange) : Option TagChange :=
  match x with
  | none => some y
  | some x => if x.due slot < y.due slot ∨ (x.due slot = y.due slot ∧ (y.cmd || !x.cmd)) then some y else some x

/-- Whether a slot is tagged full, as it stood at the start of the tick (R117, R120). -/
def State.full (s : State) (c slot : Nat) : Bool :=
  match (s.tags.filter fun t => t.shows c slot s.ct).foldl (TagChange.later slot) none with
  | some t => t.full
  | none => bit (s.rd (clReg c (0xC00 + 4 * (slot / 32)))) (slot % 32)

/-- A slot's tag in its register. -/
def State.keepTag (s : State) (c slot : Nat) (b : Bool) : State :=
  let r := clReg c (0xC00 + 4 * (slot / 32))
  s.wr r (setBit (s.rd r) (slot % 32) b)

/-- The registers take the changes once all of them show. -/
def State.settleTags (s : State) : State :=
  if s.tags.all fun t => decide (t.due (t.first + t.n - 1) ≤ s.ct) then
    { s.tags.foldl (fun q t => (List.range t.n).foldl (fun q i => q.keepTag t.cluster (t.first + i) (s.full t.cluster (t.first + i))) q) s with tags := [] }
  else s

/-- A change of tags of slots of the scratchpad. -/
def State.changeTags (s : State) (t : TagChange) : State :=
  let s := s.settleTags
  let n := min t.n (8192 - t.first)
  if n = 0 then s else { s with tags := s.tags ++ [{ t with n := n }] }

/-- A slot's tag set by hardware: it shows from the next tick (R117). -/
def State.setTag (s : State) (c slot : Nat) (b : Bool) : State := s.changeTags ⟨s.ct + 1, c, slot, 1, 0, b, false⟩

/-- `n` slots' tags set from `first`. -/
def State.setTags (s : State) (c first n : Nat) (b : Bool) : State := s.changeTags ⟨s.ct + 1, c, first, n, 0, b, false⟩

/-- Whether `n` slots from `first` are full. -/
def State.allFull (s : State) (c first n : Nat) : Bool := (List.range n).all fun i => s.full c (first + i)
/-- Whether `n` slots from `first` are empty. -/
def State.allEmpty (s : State) (c first n : Nat) : Bool := (List.range n).all fun i => !s.full c (first + i)

/-! ## Arithmetic status -/

/-- The register and bit of a tile's saturation (Table 03-7). -/
def satBit (c a t : Nat) : Nat × Nat := (clReg c (if a < 4 then 0x204 else 0x208), 8 * (a % 4) + t)

/-- Whether a tile holds a saturated element. -/
def State.tileSat (s : State) (c a t : Nat) : Bool := bit (s.rd (satBit c a t).1) (satBit c a t).2

/-- A tile's saturation bit set or cleared. -/
def State.setTileSat (s : State) (c a t : Nat) (b : Bool) : State :=
  let r := satBit c a t
  s.wr r.1 (setBit (s.rd r.1) r.2 b)

/-- CL_ARITH_STATUS takes a tile completion with a saturated element: SAT, and SAT_COUNT holding at 0xFFFF (R60). -/
def State.arithSat (s : State) (c : Nat) : State :=
  let r := clReg c 0x200
  (s.setFld r 31 16 (min 0xFFFF (s.fld r 31 16 + 1))).orReg r 1

/-- CL_ARITH_STATUS.OUT_OVF and OUT_NAN set where a conversion set them (R64). -/
def State.arithOut (s : State) (c : Nat) (ovf nan : Bool) : State :=
  s.orReg (clReg c 0x200) (2 * b2n ovf + 4 * b2n nan)

/-- CL_ARITH_STATUS.IN_SPECIAL set where an operand block had census or scale 0xFF. -/
def State.arithSpecial (s : State) (c : Nat) (b : Bool) : State := s.orReg (clReg c 0x200) (8 * b2n b)

/-! ## ECC status (Table 05-6) -/

/-- An ECC status register takes an error of a place: the first uncorrectable one since UE was clear, else the first
corrected one since CE was clear. -/
def State.eccNote (s : State) (r : Nat) (ue : Bool) (unit row word : Nat) : State :=
  let v := s.rd r
  let record := if ue then !bit v 31 else !bit v 31 && !bit v 30
  (if record then s.wr r (setBits (setBits (setBits v 29 24 unit) 23 14 row) 13 9 word) else s).orReg r (2 ^ if ue then 31 else 30)

/-! ## Tile ownership (R77) -/

/-- The owner of tile t: 0–3 elastic context, 4 timed, 0xF none. -/
def State.tileOwner (s : State) (c a t : Nat) : Nat := s.fld (arrReg c a 0x008) (4 * t + 3) (4 * t)
/-- The owner of tile t set. -/
def State.setTileOwner (s : State) (c a t v : Nat) : State := s.setFld (arrReg c a 0x008) (4 * t + 3) (4 * t) v

/-! ## Context status (Table 13-8) -/

/-- CL_CTXc_STATUS of context x. -/
def ctxStatus (c x : Nat) : Nat := clReg c (0xA40 + x * 0x20)
/-- The state of context x: 0 empty, 1 ready, 2 blocked, 3 suspended, 4 saving, 5 loading, 6 tearing down, 7 timed. -/
def State.ctxState (s : State) (c x : Nat) : Nat := s.fld (ctxStatus c x) 2 0

/-- Context x takes a state and a block cause; the ticks of its last changes follow (R295, R298). -/
def State.setCtxState (s : State) (c x st cause : Nat) : State :=
  let old := s.ctxState c x
  let was := old == 2 || old == 3
  let k := s.ctx c x
  let k := if (st == 2 || st == 3) && !was then { k with blockedAt := s.ct } else k
  let k := if st == 1 && old != 1 then { k with readyAt := s.ct, progressAt := s.ct } else k
  ((s.setCtx c x k).setFld (ctxStatus c x) 2 0 st).setFld (ctxStatus c x) 7 4 (if st == 2 then cause else 0)

/-- A context that made progress (Table 21-5). -/
def State.progress (s : State) (c x : Nat) : State := s.setCtx c x { s.ctx c x with progressAt := s.ct }

/-- BLOCK_CAUSE of context x. -/
def State.blockCause (s : State) (c x : Nat) : Nat := s.fld (ctxStatus c x) 7 4

/-- Something of context x starts: it progresses, and no tag or DPP queue blocks it any more (R295). -/
def State.started (s : State) (c x : Nat) : State :=
  let s := s.progress c x
  if s.ctxState c x = 2 ∧ 2 ≤ s.blockCause c x ∧ s.blockCause c x ≤ 4 then s.setCtxState c x 1 0 else s

/-! ## Register writes by access code (R11) -/

/-- One field of a write: `v` the register, `w` the value written; a locked RWL field keeps its value, an RW1C bit that
hardware set in the same tick (`now`) remains set (R12). -/
def writeField (locked : Bool) (now w : Nat) (v : Nat) (f : RegField) : Nat :=
  match f.acc with
  | .ro => v
  | .wo => v
  | .rw => setBits v f.hi f.lo (bits w f.hi f.lo)
  | .w1c => setBits v f.hi f.lo (bits v f.hi f.lo - (bits v f.hi f.lo &&& bits w f.hi f.lo) ||| (bits v f.hi f.lo &&& bits now f.hi f.lo))
  | .w1s => setBits v f.hi f.lo (bits v f.hi f.lo ||| bits w f.hi f.lo)
  | .rwl => if locked then v else setBits v f.hi f.lo (bits w f.hi f.lo)

/-- A register's value after a write by access code; bits of no field keep reading 0 (RSV). -/
def writeByCode (fields : List RegField) (locked : Bool) (now v w : Nat) : Nat := fields.foldl (writeField locked now w) v

/-- Whether the controlling master is the requester (R387): the PCI Express host, or Spout port 0 where MASTER_SEL was
sampled as 1. -/
def State.isMaster (s : State) (r : Requester) : Bool :=
  match r with
  | .pcie => !bit (s.rd (peReg 0)) 31
  | .spout n => n == 0 && bit (s.rd (peReg 0)) 31
  | _ => false

/-- Whether a requester may write a register of an owner class; those of a cluster that no partition owns take no write (R33).
LOG 15, 133 (DEDUCED, DESIGN CHOICE). -/
def State.mayWrite (s : State) (who : Who) (r : Requester) (c : Nat) : Bool :=
  match who with
  | .anyone => true
  | .steward => r == .steward
  | .stewardSeq => (r == .steward || r == .sequencer c) && (s.ownerOf c).isSome
  | .master => s.isMaster r
  | .masterSteward => s.isMaster r || r == .steward
  | .partS => match r with
    | .hart _ => true
    | _ => false
  | .partSSteward => match r with
    | .hart _ => true
    | r => r == .steward

end Sys2Proof.Machine
end

