-- ==== Sys2Proof/Machine/MemMap.lean ====
section
/-! DEFINITION. What memory is there (R18–R22, R416–R419, R539): LPDDR6 sets and channels, what is populated; the Rinse lock (R133), words
in error, the Steward's own writes. -/

namespace Sys2Proof.Machine

/-! ## LPDDR6 sets (R416–R419, R539) -/

/-- An interleave set: base, channels in ascending number, granule in bytes. -/
structure LpSet where
  base : Nat
  chans : List Nat
  gran : Nat
  deriving DecidableEq, Repr

/-- C_ch, the density of a channel in bytes (Table 19-7, R414). -/
def State.chanBytes (s : State) : Nat := 2 ^ (30 + s.fld (mcReg 0 4) 27 24)

/-- The granule of a GRAN code (Table 19-3). -/
def granBytes (g : Nat) : Nat := if g = 0 then 2048 else if g = 1 then 4096 else 16384

/-- The interleave set of partition p (4 = S). -/
def State.lpSet (s : State) (p : Nat) : Option LpSet :=
  let ch := bitList (s.prec p).channels 16
  let r := s.record 3 p
  if ch.isEmpty then none else some { base := fieldAt r 4 4 * 2 ^ 20, chans := ch, gran := granBytes (fieldAt r 1 1) }

/-- The sets in effect with their partitions: those of the current image, else the boot set (R539), in partition 7; in
recovery boot channel 0 alone (R486). -/
def State.lpSets (s : State) : List (Nat × LpSet) :=
  if s.si.current.isEmpty then
    [(7, { base := 0, chans := if s.power.recovery then [0] else List.range s.nChannels, gran := 4096 })]
  else (List.range 5).filterMap fun p => (s.lpSet p).map fun q => (p, q)

/-- Whether a set covers a local address. -/
def State.setHas (s : State) (q : LpSet) (a : Nat) : Bool :=
  decide (q.base ≤ a) && decide (a < q.base + q.chans.length * s.chanBytes)

/-- The partition and set that cover a local LPDDR6 address. -/
def State.lpFind (s : State) (a : Nat) : Option (Nat × LpSet) := s.lpSets.find? fun e => s.setHas e.2 a

/-- The channel and channel address of an address in a set (R418). -/
def LpSet.place (q : LpSet) (a : Nat) : Nat × Nat :=
  let o := a - q.base
  let g := o / q.gran
  let n := q.chans.length
  (q.chans.getD (g % n) 0, g / n * q.gran + o % q.gran)

/-- The channel of a local LPDDR6 address. -/
def State.lpChan (s : State) (a : Nat) : Option (Nat × Nat) := (s.lpFind a).map fun e => e.2.place a

/-- Whether an access of n bytes reaches only channels in service: an access that reaches an offline channel waits at its
edge router (R427).
LOG 28 (DESIGN CHOICE). -/
def State.lpReady (s : State) (a n : Nat) : Bool :=
  if a < lpddrTop then
    [a, a + n - 1].all fun b => match s.lpChan b with
      | some (c, _) => s.fld (mcReg c 0) 3 0 == 2
      | none => true
  else true

/-- The byte counter of a range's channels, granule by granule. -/
def State.mcBytes (s : State) (a n : Nat) (wr : Bool) : State :=
  match s.lpFind a with
  | none => s
  | some (_, q) =>
    let lo := a / q.gran
    let hi := (a + n - 1) / q.gran
    (List.range (hi + 1 - lo)).foldl (fun s i =>
      let x := max a ((lo + i) * q.gran)
      let y := min (a + n) ((lo + i + 1) * q.gran)
      s.count64 (mcReg (q.place x).1 (if wr then 0x38 else 0x30)) (y - x)) s

/-! ## What is populated (R1, R19, R35) -/

/-- Whether the grade has instance u of the device units in group k of the register map. -/
def State.hasUnit (s : State) (k u : Nat) : Bool :=
  match k with
  | 4 => decide (u < s.nDpps)
  | 5 => decide (u < s.nCameras)
  | 7 => decide (u < s.nSpouts) || decide (14 ≤ u)
  | 9 => decide (u < s.nChannels)
  | _ => true

/-- Whether the register block of a canonical address belongs to a unit of the grade. -/
def State.unitPresent (s : State) (a : Nat) : Bool :=
  if a < devBase then decide ((a - clusterBase) / 0x1000000 < s.nClusters)
  else if a < urnBase then s.hasUnit ((a - devBase) / 0x100000) ((a - devBase) % 0x100000 / 0x10000)
  else true

/-- Whether every byte of [a, a + n) is populated memory, or a register accessed as R9 allows.
LOG 12, 168 (DESIGN CHOICE). -/
def State.mapped (s : State) (a n : Nat) : Bool :=
  match regionOf a with
  | .lpddr => decide (a + n ≤ lpddrTop) && (s.lpFind a).isSome && (s.lpFind (a + n - 1)).isSome
  | .scratch c o => decide (o + n ≤ 0x200000) && decide (c < s.nClusters) && !(s.isLockstep (c / 2) && c % 2 == 1)
  | .accum c o => decide (o + n ≤ 0x80000) && decide (c < s.nClusters) && !(s.isLockstep (c / 2) && c % 2 == 1)
  | .pool o => decide (o + n ≤ poolSize)
  | .chipCtr w => decide (a + n ≤ chipCtrBase + 8 * (w + 1))
  | .reg r _ => s.unitPresent r && a % 4 == 0 && (n == 4 || (n == 8 && a % 8 == 0 && (match regionOf (a + 4) with
      | .reg _ _ => true
      | _ => false)))
  | .none => false

/-! ## Rinse lock (R133) -/

/-- Whether a byte of [a, a + n) lies in a region that waits for its scrub. -/
def State.rinseLocked (s : State) (a n : Nat) : Bool :=
  (s.rinses.any fun r => r.windows.any fun w => decide (a ≤ w.2.2) && decide (w.2.1 < a + n)) ||
  s.tu.scrub.any fun e => e.locked && decide (a ≤ e.hi) && decide (e.lo < a + n)

/-! ## Words in error (R112, R421) -/

/-- The unit of error correction around a range: 32-byte bursts in LPDDR6 (R422), 64-bit words elsewhere. -/
def eccUnit (a : Nat) : Nat := if a < lpddrTop then 32 else 8

/-- The words in error that [a, a + n) touches. -/
def State.errWords (s : State) (a n : Nat) : List (Nat × Bool) :=
  let u := eccUnit a
  s.mem.errs (a / u * u) (ceilDiv (a + n) u * u - a / u * u)

/-- The words in error whose word or burst a write of n bytes covers only in part: the read of a read-modify-write meets them (R112). -/
def State.partWords (s : State) (a n : Nat) : List (Nat × Bool) :=
  let u := eccUnit a
  (s.errWords a n).filter fun e => !(decide (a ≤ e.1 * 8 / u * u) && decide (e.1 * 8 / u * u + u ≤ a + n))

/-- Whether a byte lies in one of the words or bursts of a list that is uncorrectable. -/
def inUe (l : List (Nat × Bool)) (a : Nat) : Bool := l.any fun e => e.2 && e.1 * 8 / eccUnit a == a / eccUnit a

/-- Bytes that the Steward writes for itself: where no memory is (R19) and in a locked region (R133) they are dropped, a word or burst that is uncorrectable and not
covered whole keeps its bytes (R112); the source is owed until the Steward's next ring command.
LOG 173 (DESIGN CHOICE). -/
def State.stewardPut (s : State) (a : Nat) (l : List Byte) : State :=
  let info : FaultInfo := { req := Requester.index .steward, info0 := a % 2 ^ 32, info1 := a / 2 ^ 32 }
  let part := s.partWords a l.length
  if !s.mapped a l.length then { s with owed := s.owed ++ [(.addrUnmapped, 7, info)] }
  else if s.rinseLocked a l.length then { s with owed := s.owed ++ [(.rinseLocked, 7, info)] }
  else if part.any Prod.snd then { s with owed := s.owed ++ [(if a < lpddrTop then .mcUe else .poolUe, 7, info)] }
  else { s with mem := { s.mem with bad := s.mem.bad.filter fun e => !(decide (a / eccUnit a * eccUnit a ≤ e.1 * 8) && decide (e.1 * 8 < a + l.length)) }.write a l }

end Sys2Proof.Machine
end

