-- ==== Sys2Proof/Machine/Rings.lean ====
section
/-! DEFINITION. What the Steward does to a ring when a command ends (R397, R399), and MSI-X messages (R395). -/

namespace Sys2Proof.Machine

/-- Ring n as the Steward keeps it. -/
def State.ring (s : State) (n : Nat) : Ring := sparseGet Ring.idle s.st.rings n

/-- Ring n set. -/
def State.setRing (s : State) (n : Nat) (v : Ring) : State :=
  { s with st := { s.st with rings := sparsePut Ring.idle s.st.rings n v } }

/-- The base address of ring n (R396). -/
def State.ringBase (s : State) (n : Nat) : Nat :=
  s.rd (stReg (0x5020 + n * 0x10)) / 64 * 64 + 2 ^ 32 * s.fld (stReg (0x5024 + n * 0x10)) 8 0

/-- The size N of ring n (Table 18-12). -/
def State.ringSize (s : State) (n : Nat) : Nat := 2 ^ (s.fld (stReg (0x5028 + n * 0x10)) 3 0 + 4)

/-- The command (ring, index) in progress. -/
def State.cmd (s : State) (ring idx : Nat) : Option Cmd := s.st.cmds.find? fun k => k.ring == ring && k.idx == idx

/-- A field of a command's entry (Table 18-4). -/
def Cmd.arg (k : Cmd) (o n : Nat) : Nat := fieldAt k.entry o n
/-- OPCODE. -/
def Cmd.opcode (k : Cmd) : Nat := k.arg 0 1
/-- PART. -/
def Cmd.part (k : Cmd) : Nat := k.arg 2 1
/-- TAG. -/
def Cmd.tag (k : Cmd) : Nat := k.arg 4 4

/-- ST_RINGn_STATUS[15:0] shows the commands in progress. -/
def State.ringCount (s : State) (ring : Nat) : State :=
  s.setFld (stReg (0x502C + ring * 0x10)) 15 0 (s.st.cmds.filter fun k => k.ring == ring).length

/-- A command ends: its completion is written at CPL_PROD, which advances by one (R399); a dropped one is discarded
(R404). -/
def State.complete (s : State) (ring idx status code result : Nat) : State :=
  match s.cmd ring idx with
  | none => s
  | some k =>
    let s := { s with st := { s.st with cmds := s.st.cmds.filter fun q => !(q.ring == ring && q.idx == idx) } }
    let s := s.ringCount ring
    if k.drop then s
    else
      let r := s.ring ring
      let n := s.ringSize ring
      let a := s.ringBase ring + 64 + 64 * n + 64 * (r.cplProd % n)
      let bytes := leBytes 4 k.tag ++ leBytes 1 k.opcode ++ leBytes 1 status ++ leBytes 2 code ++ leBytes 8 result ++
        leBytes 8 s.time ++ leBytes 40 0
      let p := (r.cplProd + 1) % 2 ^ 32
      ((s.stewardPut a bytes).stewardPut (s.ringBase ring + 0x0C) (leBytes 4 p)).setRing ring { r with cplProd := p }

/-- The statuses of Table 18-6. -/
def stOk : Nat := 0
def stInvalid : Nat := 1
def stDenied : Nat := 2
def stRefused : Nat := 3
def stAborted : Nat := 4

/-- A vector's event: one message unless it is masked, already pending, or had one in this network tick; none where the master is on
Spout (R386, R395).
LOG 87 (DESIGN CHOICE). -/
def State.msix (s : State) (v : Nat) : State :=
  if bit (s.rd (peReg 0)) 31 then s
  else if bit s.st.msixMask v then { s with st := { s.st with msixPend := setBit s.st.msixPend v true } }
  else if assoc s.st.msixAt v = some (s.clock.ns * 3 / 2) then s
  else State.send { s with st := { s.st with msixAt := s.st.msixAt.filter (fun e => e.1 != v) ++ [(v, s.clock.ns * 3 / 2)] } } (.msix v)

/-- Whether an entry is ORDERED. -/
def Cmd.ordered (k : Cmd) : Bool := bit (k.arg 1 1) 0

/-- The commands taken before a command. -/
def State.cmdsBefore (s : State) (k : Cmd) : List Cmd :=
  s.st.cmds.takeWhile fun q => !(q.ring == k.ring && q.idx == k.idx)

/-- Whether a taken command may start (R399): every command taken before it has started, but for those of another ring
that an ORDERED entry holds back; an ORDERED entry waits for every earlier entry of its ring. -/
def State.mayStart (s : State) (k : Cmd) : Bool :=
  let before := s.cmdsBefore k
  let stuck := fun (q : Cmd) => s.st.cmds.any fun o => o.ring == q.ring && o.ordered && !o.started
  (before.all fun q => q.started || (q.ring != k.ring && stuck q)) &&
  (!k.ordered || before.all fun q => q.ring != k.ring)

/-- The taken command (ring, index) that has not started and may start with this opcode. -/
def State.mbCmd (s : State) (ring idx opcode : Nat) : Option Cmd :=
  match s.cmd ring idx with
  | some k => if s.stewardUp && !k.started && k.opcode == opcode && s.mayStart k then some k else none
  | none => none

/-- A command has started. -/
def State.begin_ (s : State) (ring idx : Nat) : State :=
  { s with st := { s.st with cmds := s.st.cmds.map fun k => if k.ring == ring && k.idx == idx then { k with started := true } else k } }

/-- A mailbox command's effect, given its entry, where it may start now (R399). -/
def State.mbox (s : State) (ring idx opcode : Nat) (f : Cmd → State → State) : State :=
  match s.mbCmd ring idx opcode with
  | some k => f k (s.begin_ ring idx)
  | none => s

end Sys2Proof.Machine
end

