-- ==== Sys2Proof/Machine/Stop.lean ====
section
/-! DEFINITION. What stops: passes (R92), Mover channels (R155), attention items, DPP jobs (R217), the tiler (R164), task
instances and contexts (R313), and the safe states of a partition and of the device (R446, R447). Nothing here raises a
source: the raising rule does. -/

namespace Sys2Proof.Machine

/-! ## Unit accessors -/

/-- DPP d. -/
def State.dpp (s : State) (d : Nat) : Dpp := sparseGet Dpp.idle s.dpps d
/-- DPP d set. -/
def State.setDpp (s : State) (d : Nat) (v : Dpp) : State := { s with dpps := sparsePut Dpp.idle s.dpps d v }
/-- The attention sequencer of cluster c. -/
def State.att (s : State) (c : Nat) : Att := sparseGet Att.idle s.atts c
/-- The attention sequencer of cluster c set. -/
def State.setAtt (s : State) (c : Nat) (v : Att) : State := { s with atts := sparsePut Att.idle s.atts c v }
/-- The step of partition p. -/
def State.step_ (s : State) (p : Nat) : SeqStep := sparseGet SeqStep.idle s.steps p
/-- The step of partition p set. -/
def State.setStep (s : State) (p : Nat) (v : SeqStep) : State := { s with steps := sparsePut SeqStep.idle s.steps p v }

/-! ## Array, engine, channel, attention sequencer, DPP -/

/-- Array a stops for context x (R92): its passes whose commit has not begun are discarded, and the array then ramps down over 32 ct; its
queue is flushed; a DRAIN or MERGE of the context in progress ends there. A pass of another context that was chained behind a
discarded one pays the ramp. -/
def State.abortArr (s : State) (c a x cause : Nat) : State :=
  let v := s.arr c a
  let mine := fun (i : QInstr) => bits i.w0 63 61 == x
  let keep := v.passes.filter fun p => !mine p.instr || decide (p.issue + p.n + 32 ≤ s.ct)
  let lost := v.passes.length - keep.length
  let op := match v.op with
    | some o => if mine o.instr then none else some o
    | none => none
  let flushed := !(v.queues.getD x []).isEmpty
  let s := s.setArr c a { v with passes := keep, queues := setAt v.queues x [], op := op, idleFrom := if lost > 0 then max v.idleFrom (s.ct + 32) else v.idleFrom }
  let s := if lost > 0 || flushed || op != v.op then s.setFld (arrReg c a 0) 31 28 cause else s
  if lost > 0 then (s.orReg (arrReg c a 0) (2 ^ 27)).countUp (arrReg c a 0x01C) lost else s

/-- Every array of cluster c stops for context x. -/
def State.abortArrs (s : State) (c x cause : Nat) : State :=
  (List.range 8).foldl (fun s a => s.abortArr c a x cause) s

/-- The engines of cluster c drop the steps context x has queued; a running step ends by itself (R101). -/
def State.abortVecs (s : State) (c x : Nat) : State :=
  (List.range 2).foldl (fun s e => s.setVec c e { s.vec c e with queue := (s.vec c e).queue.filter fun q => q.ctx != x }) s

/-- Channel n stops (R155): its returned pieces will be discarded, and its entries are free once the last has returned. -/
def State.abortChan (s : State) (c n : Nat) : State :=
  let v := s.chan c n
  if v.inflight.isEmpty then s.setChan c n { MovChan.idle with tokens := v.tokens, cause := v.cause, refillAt := v.refillAt }
  else s.setChan c n { v with state := 7, pos := none, admitted := [], srcMask := [] }

/-- The channels bound to context x (R137). -/
def State.chansOf (s : State) (c x : Nat) : List Nat :=
  (List.range 16).filter fun n => s.fld (movReg c (0x100 + 0x20 * n)) 2 0 == x

/-- Every channel of context x stops. -/
def State.abortChans (s : State) (c x : Nat) : State := (s.chansOf c x).foldl (fun s n => s.abortChan c n) s

/-- The attention sequencer drops an item of context x. -/
def State.abortAtt (s : State) (c x : Nat) : State :=
  if (s.att c).ctx = some x then
    let s := s.setAtt c Att.idle
    (((s.setFld (attReg c 0) 2 0 0).setFld (attReg c 0) 26 24 7).wr (attReg c 0x00C) 0xFFFFFFFF).wr (attReg c 0x008) 0
  else s

/-- The DPPs discard the jobs of context x (R217). -/
def State.abortDpps (s : State) (c x : Nat) : State :=
  (List.range 4).foldl (fun s d =>
    let v := s.dpp d
    let own := fun (j : DppJob) => j.cluster == c && j.ctx == x
    s.setDpp d { queue := v.queue.filter (!own ·), running := v.running.filter (!own ·.job) }) s

/-- CL_TILER_STATE once the tiler has nothing more to do for context x: STATE 0, and CUR_CTX none where it named x (Table 07-8). -/
def State.untile (s : State) (c x : Nat) : State :=
  let r := clReg c 0x800
  if s.fld r 11 9 = x then (s.setFld r 3 0 0).setFld r 11 9 7 else if x = 4 then s.setFld r 3 0 0 else s

/-- The tiler of context x ends its operator as aborted: the completion word waits to be written (R164). -/
def State.abortTiler (s : State) (c x cause : Nat) : State :=
  let k := s.ctx c x
  let t := k.tiler
  if t.active && t.phase != 0 && !t.aborted then
    (s.setCtx c x { k with tiler := { t with phase := 2, aborted := true, cause := cause, work := [], waitWord := none } }).untile c x
  else s

/-- Every unit of a cluster stops for context x. -/
def State.abortUnits (s : State) (c x arrCause cause : Nat) : State :=
  (((((s.abortArrs c x arrCause).abortVecs c x).abortChans c x).abortAtt c x).abortDpps c x).abortTiler c x cause

/-! ## Slots and contexts -/

/-- Slot n of cluster c is free (R313). -/
def State.freeSlot (s : State) (c n : Nat) : State :=
  let r := clReg c 0xA04
  (s.setSlot c n Slot.free).wr r (setBit (setBit (s.rd r) n false) (16 + n) false)

/-- The local physical address of a global address whose chip field names this device (R22). -/
def State.localOf (s : State) (ga : Nat) : Option Nat :=
  let chip := bits ga 47 41
  if chip = 127 ∨ chip = s.fld (spGlob 0) 6 0 then some (ga % 2 ^ 41) else none

/-- Window w of context x: valid, rights R, W, A, SCRUB, first and last address (Table 05-4). -/
structure WindowVal where
  v : Bool
  r : Bool
  w : Bool
  a : Bool
  scrub : Bool
  lo : Nat
  hi : Nat
  deriving DecidableEq, Repr

/-- A window from its four words. -/
def windowVal (w0 w1 w2 w3 : Nat) : WindowVal :=
  { v := bit w0 7, r := bit w0 6, w := bit w0 5, a := bit w0 4, scrub := bit w0 3,
    lo := bits w1 15 0 * 2 ^ 32 + w0 / 256 * 256 % 2 ^ 32, hi := bits w3 15 0 * 2 ^ 32 + w2 / 256 * 256 % 2 ^ 32 + 255 }

/-- Register of word k of window w of context x. -/
def bbReg (c x w k : Nat) : Nat := clReg c (0x500 + 0x80 * x + 0x10 * w + 4 * k)

/-- Window w of context x of cluster c. -/
def State.window (s : State) (c x w : Nat) : WindowVal :=
  windowVal (s.rd (bbReg c x w 0)) (s.rd (bbReg c x w 1)) (s.rd (bbReg c x w 2)) (s.rd (bbReg c x w 3))

/-- The local region a SCRUB window locks: in the cluster's own window or in the shared pool (R131). -/
def State.scrubRegion (s : State) (c : Nat) (v : WindowVal) : Option (Nat × Nat) :=
  if v.v && v.scrub then
    match s.localOf v.lo, s.localOf v.hi with
    | some lo, some hi =>
      if (clWin c ≤ lo ∧ hi < clWin c + 0x1000000) ∨ (poolBase ≤ lo ∧ hi < poolBase + poolSize) then some (lo, hi) else none
    | _, _ => none
  else none

/-- The accumulator tiles context x owns. -/
def State.tilesOf (s : State) (c x : Nat) : List (Nat × Nat) :=
  (List.range 8).flatMap fun a => ((List.range 8).filter fun t => s.tileOwner c a t == x).map fun t => (a, t)

/-- The regions to lock of a list of windows, with their numbers. -/
def State.scrubList (s : State) (c : Nat) (l : List (Nat × WindowVal)) : List (Nat × Nat × Nat) :=
  l.filterMap fun e => (s.scrubRegion c e.2).map fun r => (e.1, r.1, r.2)

/-- The L1 base of context x. -/
def State.rootOf (s : State) (c x : Nat) : Nat :=
  s.rd (clReg c (0x900 + 0x10 * x)) / 2 ^ 14 * 2 ^ 14 + s.fld (clReg c (0x904 + 0x10 * x)) 8 0 * 2 ^ 32

/-- The scrub-lock entries of context x as its windows then stand, for context or slot `dest`, with its tables. -/
def State.scrubMove (s : State) (c x dest : Nat) (locked : Bool) : State :=
  let root := s.rootOf c x
  let move := fun (e : ScrubLock) =>
    let v := s.window c x e.win
    { e with ctx := dest, locked := locked, lo := (s.localOf v.lo).getD e.lo, hi := (s.localOf v.hi).getD e.hi, root := root }
  { s with tu := { s.tu with scrub := s.tu.scrub.map fun e => if e.cluster == c && e.ctx == x && !e.locked then move e else e } }

/-- The LPDDR6 windows of a context become locked regions (R259). -/
def State.lockScrub (s : State) (c x : Nat) : State := s.scrubMove c x x true

/-- The LPDDR6 windows of swapped-out slot n become locked regions (R259). -/
def State.lockSlotScrub (s : State) (c n : Nat) : State :=
  { s with tu := { s.tu with scrub := s.tu.scrub.map fun e => if e.cluster == c && e.ctx == 8 + n then { e with locked := true } else e } }

/-- Teardown of resident context x (R313): its work stops, its watch is withdrawn, its windows lock and its Rinse is due;
the slot is freed when the Rinse ends. -/
def State.tearDown (s : State) (c x arrCause cause : Nat) : State :=
  if s.ctxState c x = 0 ∨ s.ctxState c x = 6 then s
  else
    let s := s.abortUnits c x arrCause cause
    let k := s.ctx c x
    let s := s.setCtx c x { k with tearing := true, watching := false, move := none, held := true, rinse := true }
    let s := { s with watches := s.watches.filter fun (w : Watch) => !(w.cluster == c && w.ctx == x && w.slot == none) }
    let wins := s.scrubList c ((List.range 8).map fun w => (w, s.window c x w))
    let s := { s with rinses := s.rinses ++ [({ cluster := c, ctx := x, windows := wins, todo := wins, tiles := s.tilesOf c x, started := false, startAt := s.ct, swapped := false, displaced := 0 } : Rinse)] }
    (s.lockScrub c x).setCtxState c x 6 0

/-- Teardown of a swapped-out slot (R313): its LPDDR6 windows lock, its other saved windows pass to the cluster's Rinse, and the slot is
free. -/
def State.tearSlot (s : State) (c n : Nat) : State :=
  let s := s.lockSlotScrub c n
  let v := s.slot c n
  let g := fun i => v.windows.getD i 0
  let wins := s.scrubList c ((List.range 8).map fun w => (w, windowVal (g (4 * w)) (g (4 * w + 1)) (g (4 * w + 2)) (g (4 * w + 3))))
  let s := { s with watches := s.watches.filter fun (w : Watch) => !(w.cluster == c && w.slot == some n) }
  let s := if wins.isEmpty then s
    else { s with rinses := s.rinses ++ [({ cluster := c, ctx := 7, windows := wins, todo := wins, tiles := [], started := false, startAt := s.ct, swapped := true, displaced := 0 } : Rinse)] }
  s.freeSlot c n

/-- The timed context of a cluster is left: its work stopped, its state empty.
LOG 53 (DEDUCED). -/
def State.endTimedCtx (s : State) (c : Nat) : State :=
  let s := s.abortUnits c 4 4 6
  let k := s.ctx c 4
  (s.setCtx c 4 { k with task := none }).setCtxState c 4 0 0

/-- The least index of the operators that the resident contexts of an instance are at. -/
def State.firstAborted (s : State) (t : Nat) (k : Task) : Nat :=
  let ops := k.rcd.clusters.flatMap fun c => ((List.range 5).filter fun x => (s.ctx c x).task == some t).map fun x => s.fld (clReg c (0x834 + 0x20 * x)) 15 0
  match ops with
  | [] => 0
  | o :: r => r.foldl min o

/-- Task t stops (R92, R155, R313): each context of an elastic instance is torn down, each swapped-out slot freed; the
timed context of each cluster of a timed one is left. The command that launched it completes ABORTED, and a step it ran
commits nothing (R226).
LOG 53 (DEDUCED). -/
def State.teardownTask (s0 : State) (t : Nat) : State :=
  let s := s0
  match s.task t with
  | none => s
  | some k =>
    if k.ended then s
    else
      let s := s.modTask t fun k => { k with aborted := true, ended := true, left := [] }
      let s := k.rcd.clusters.foldl (fun s c =>
        if k.timed then (if (s.ctx c 4).task = some t then s.endTimedCtx c else s)
        else (List.range 16).foldl (fun s n =>
          if (s.slot c n).task = some t then
            match (s.slot c n).ctx with
            | some x => s.tearDown c x 4 6
            | none => s.tearSlot c n
          else s) s) s
      let st := s.step_ k.part
      let s := if st.task = some t then (s.setStep k.part SeqStep.idle).setFld (stReg (0x2000 + 0x40 * k.part)) 3 0 0 else s
      match k.cmd with
      | some (r, i) => s.complete r i stAborted 0 (s0.firstAborted t k)
      | none => s

/-- The task of context x is aborted, its completion word in this cluster carrying CAUSE (R164). -/
def State.abortCtx (s : State) (c x cause : Nat) : State :=
  let s := s.abortTiler c x cause
  match (s.ctx c x).task with
  | some t => s.teardownTask t
  | none => s.abortUnits c x 4 cause

/-- A mismatch of a DPP's two datapaths: recorded, its job's task aborted (R217). -/
def State.dppMismatch (s : State) (d : Nat) : State :=
  let s := s.orReg (dppReg d 0) (2 ^ 11)
  match (s.dpp d).running with
  | some r => s.abortCtx r.job.cluster r.job.ctx 6
  | none => s

/-! ## Commands that wait for slots (R400) -/

/-- The slots that hold an instance of task `idx` of partition p. -/
def State.slotsOfTask (s : State) (p idx : Nat) : List (Nat × Nat) :=
  (List.range s.nClusters).flatMap fun c => ((List.range 16).filter fun n =>
    match (s.slot c n).task.bind s.task with
    | some t => t.part == p && t.rcd.index == idx
    | none => false).map fun n => (c, n)

/-- Whether a SUSPEND, CONTINUE or KILL that has started is done. -/
def State.slotCmdDone (s : State) (k : Cmd) : Bool :=
  let l := s.slotsOfTask k.part (k.arg 8 2)
  match k.opcode with
  | 5 => l.all fun e => (s.slot e.1 e.2).ctx == none
  | 6 => l.all fun e => (s.slot e.1 e.2).ctx.isSome || bit (s.rd (clReg e.1 0xA04)) (16 + e.2) || (s.slot e.1 e.2).waiting.isSome
  | 7 => l.isEmpty
  | _ => false

/-- Every such command that is done completes. -/
def State.settle (s : State) : State :=
  (s.st.cmds.filter fun k => k.started && s.slotCmdDone k).foldl (fun s k => s.complete k.ring k.idx stOk 0 0) s

/-! ## Safe states -/

/-- Every task instance of partition p stops; its waiting launches complete ABORTED. -/
def State.abortPart (s : State) (p : Nat) : State :=
  let s := (s.tasks.filter fun e => e.2.part == p).foldl (fun s e => s.teardownTask e.1) s
  let gone := s.launchQ.filter fun q => q.part == p
  let s := { s with launchQ := s.launchQ.filter fun q => q.part != p }
  gone.foldl (fun s q => match q.cmd with
    | some (r, i) => s.complete r i stAborted 0 0
    | none => s) s

/-- The dispatcher of partition p stops: no entry fires, its claims, slices and golden tests end. -/
def State.stopDispatcher (s : State) (p : Nat) : State :=
  let d := s.dsp p
  let s := s.setDsp p { d with inFrame := false, claims := [], slices := [], taster := none, tasterRun := false, injecting := [] }
  let s := (s.clustersOf p).foldl (fun s c =>
    let s := (List.range 8).foldl (fun s a => s.setArr c a { s.arr c a with claim := false }) s
    (List.range 2).foldl (fun s e => s.setVec c e { s.vec c e with claim := false }) s) s
  s.setFld (btReg p 0) 3 0 0

/-- The headers of the partition's streams get AGE_US = 0xFFFF_FFFF (R446). -/
def State.staleStreams (s : State) (p : Nat) : State :=
  match (s.dsp p).table with
  | none => s
  | some t => t.streams.foldl (fun s r => s.stewardPut (r.header + 0xC) (leBytes 4 0xFFFFFFFF)) s

/-- URN_REC_STATUS.STATE of a scope. -/
def recField (scope : Nat) : Nat × Nat := (4 * scope + 3, 4 * scope)

/-- Partition p enters its safe state (R446) unless it is in it already, in reset or out of service (R448). -/
def State.safeState (s : State) (p cause : Nat) : State :=
  if s.fld (urnReg 0xA000) (recField p).1 (recField p).2 ≠ 0 then s
  else
    let s := if p < 4 then s.stopDispatcher p else s
    let s := s.abortPart p
    let s := if p < 4 then s.staleStreams p else s
    let s := s.setFld (urnReg 0xA000) (recField p).1 (recField p).2 1
    let s := s.setFld (urnReg 0xC000) 20 16 cause
    if p < 4 then s.orReg (urnReg 0xC000) (2 ^ p) else s

/-- The device enters its safe state (R447); a partition reset under way ends (R471). -/
def State.deviceSafe (s : State) (cause : Nat) : State :=
  if bit (s.rd (urnReg 0xC000)) 31 then s
  else
    let gone := s.urn.active.filter fun r => decide (r.scope < 5)
    let s := { s with urn := { s.urn with active := s.urn.active.filter fun r => decide (5 ≤ r.scope), captureQueue := s.urn.captureQueue.filter fun p => decide (5 ≤ p) } }
    let s := gone.foldl (fun s r => r.cmds.foldl (fun s k => s.complete k.1 k.2 stAborted 0 0) (s.setFld (urnReg 0xA000) (recField r.scope).1 (recField r.scope).2 1)) s
    let s := (List.range 4).foldl (fun s p => s.safeState p cause) s
    let s := (s.setFld (urnReg 0xC000) 20 16 cause).orReg (urnReg 0xC000) (2 ^ 31)
    { s with macHalt := true }

end Sys2Proof.Machine
end

