-- ==== Sys2Proof/Machine/Faults.lean ====
section
/-! DEFINITION. The Fault Collector (R455–R464, R471): the one operation that raises a source, with its record, latch,
notification, window and immediate action. -/

namespace Sys2Proof.Machine

/-- The ID of a source (Table 21-1): consecutive IDs in each range, in the order listed. -/
def srcId : Src → Nat
  | .addrUnmapped => 0x001 | .chipIdInvalid => 0x002 | .siReject => 0x003
  | .accSat => 0x020 | .accBound => 0x021 | .arrInstrInvalid => 0x022 | .accWriteBusy => 0x023
  | .accAnchorMismatch => 0x024 | .vecKernelInvalid => 0x025 | .descInvalid => 0x026 | .tilerArena => 0x027
  | .spCe => 0x060 | .accCe => 0x061 | .poolCe => 0x062 | .spUe => 0x063 | .accUe => 0x064 | .poolUe => 0x065
  | .bbViolation => 0x066 | .rinseLocked => 0x067
  | .movDescInvalid => 0x080 | .movPageFault => 0x081 | .movXlateTimed => 0x082 | .tuPteInvalid => 0x083
  | .tuXlateTimed => 0x084 | .tuLockFull => 0x085 | .tuScrubFull => 0x086 | .tuXlateAbort => 0x087
  | .attPageFault => 0x0A0 | .attXlateTimed => 0x0A1 | .attOverrun => 0x0A2 | .seqFull => 0x0A3 | .seqSetReject => 0x0A4
  | .syncInvalid => 0x0A5 | .ctxSaveFail => 0x0A6 | .dppMismatch => 0x0A7
  | .slotConflict => 0x0C0 | .lateData => 0x0C1 | .deadlineMiss => 0x0C2 | .frameSqueeze => 0x0C3 | .frameSkip => 0x0C4
  | .selftestOverdue => 0x0C5 | .ageLate => 0x0C6 | .ageStale => 0x0C7
  | .ingCsiErr => 0x0E0 | .ingFrameDrop => 0x0E1 | .ingOverrun => 0x0E2 | .ingUnsynced => 0x0E3 | .ethParseDrop => 0x0E4
  | .strainerStuck => 0x0E5
  | .tbJump => 0x100 | .tbJumpRefused => 0x101 | .tbRateClamp => 0x102 | .tbTsOvf => 0x103 | .tbStall => 0x104
  | .spLinkDown => 0x120 | .spDegraded => 0x121 | .spPeerMismatch => 0x122 | .spNoRoute => 0x123 | .spTtlDrop => 0x124
  | .spInboundReject => 0x125 | .spTimedRemote => 0x126 | .spRespTimeout => 0x127 | .spBarrierTimeout => 0x128
  | .peNotMaster => 0x140 | .peAerUncor => 0x141 | .peLinkDown => 0x142 | .ringErr => 0x143
  | .mcCe => 0x160 | .mcRetry => 0x161 | .mcUe => 0x162 | .mcAtomicInvalid => 0x163 | .mcDrift => 0x164
  | .mcDramHot => 0x165 | .mcTrainFail => 0x166
  | .lockstepMismatch => 0x180 | .lsInjectFail => 0x181 | .tasterMismatch => 0x182 | .tasterMissed => 0x183
  | .selftestFail => 0x184 | .repairExhausted => 0x185 | .safeIn => 0x186
  | .hangContext => 0x1A0 | .hangSequencer => 0x1A1 | .hangTask => 0x1A2 | .stewardHb => 0x1A3 | .partOos => 0x1A4
  | .fwSwitchFail => 0x1A5 | .crashPartial => 0x1A6 | .resetOverrun => 0x1A7
  | .pmThrottle => 0x1C0 | .pmThermCrit => 0x1C1 | .pmThermShutdown => 0x1C2 | .pmSensorFail => 0x1C3
  | .pmAvsFail => 0x1C4 | .ckPllUnlock => 0x1C5
  | .cadOtpCe => 0x1E0 | .cadRecovery => 0x1E1 | .cadSigFail => 0x1E2 | .cadRollback => 0x1E3 | .cadEnrolReject => 0x1E4
  | .cadTrngFail => 0x1E5
  | .software n => 0x200 + n % 256

/-- The default severity of a source (the chapters' fault-source tables, R458). -/
def defaultSev : Src → Nat
  | .spCe | .accCe | .poolCe | .mcCe => 2
  | .lateData | .selftestOverdue | .ingOverrun | .strainerStuck | .tbJumpRefused | .spDegraded | .peAerUncor | .mcDrift
  | .fwSwitchFail | .pmSensorFail | .cadRecovery => 3
  | .arrInstrInvalid | .accAnchorMismatch | .vecKernelInvalid | .descInvalid | .tilerArena | .spUe | .accUe | .poolUe
  | .bbViolation | .movDescInvalid | .movXlateTimed | .tuPteInvalid | .tuXlateTimed | .tuXlateAbort | .attXlateTimed
  | .attOverrun | .syncInvalid | .ctxSaveFail | .slotConflict | .deadlineMiss | .frameSkip | .ageLate | .ageStale
  | .spLinkDown | .spNoRoute | .spTtlDrop | .spInboundReject | .spTimedRemote | .spRespTimeout | .spBarrierTimeout | .mcUe
  | .mcAtomicInvalid | .mcDramHot | .tasterMissed | .hangContext | .hangSequencer | .stewardHb | .partOos | .resetOverrun
  | .pmThermCrit | .pmAvsFail | .cadTrngFail => 4
  | .dppMismatch | .mcTrainFail | .lockstepMismatch | .lsInjectFail | .tasterMismatch | .selftestFail | .repairExhausted
  | .safeIn => 5
  | .tbStall | .pmThermShutdown | .ckPllUnlock => 6
  | _ => 1

/-- The default ACTION of a source (R458, Table 21-17). -/
def defaultAction : Src → Nat
  | .hangContext => 1
  | .hangSequencer => 2
  | .hangTask | .stewardHb | .partOos | .fwSwitchFail | .crashPartial | .resetOverrun => 3
  | _ => 0

/-- The severity table in effect for a scope. -/
def State.sevTable (s : State) (scope : Nat) : Option SevTable := assoc s.urn.sev scope

/-- Severity and ACTION of a source in a scope (R457, R458); a device-scope severity 5 acts as 6 (R460). -/
def State.sevOf (s : State) (src : Src) (scope : Nat) : Nat × Nat :=
  let r := match s.sevTable scope with
    | some t => let e := (t.entries.getD (srcId src) 0).toNat; (bits e 2 0, bits e 4 3)
    | none => (defaultSev src, defaultAction src)
  if scope = 7 ∧ r.1 = 5 then (6, r.2) else r

/-- NOTIFY of a scope. -/
def State.notifyMask (s : State) (scope : Nat) : Nat := match s.sevTable scope with
  | some t => t.notify
  | none => 0b111
/-- The window of a severity in a scope, ns: WIN_DEF at Deferred, WIN_URG at Urgent (Table 21-2, Table 21-3). -/
def State.windowNs (s : State) (scope sev : Nat) : Nat :=
  match s.sevTable scope with
  | some t => 1000 * (if sev = 3 then t.winDef else t.winUrg)
  | none => 1000 * (if sev = 3 then 10000 else 50)
/-- CE_LIMIT of a scope; 0 = no limit. -/
def State.ceLimit (s : State) (scope : Nat) : Nat := match s.sevTable scope with
  | some t => t.ceLimit
  | none => 0

/-- The FC_FIRST index of a scope: P0–P3, S, device. -/
def firstIdx (scope : Nat) : Nat := if scope < 5 then scope else 5

/-- URN_REC_STATUS.STATE of a scope (Table 21-14). -/
def State.recState (s : State) (scope : Nat) : Nat := s.fld (urnReg 0xA000) (4 * scope + 3) (4 * scope)
/-- URN_REC_STATUS.STATE of a scope set. -/
def State.setRecState (s : State) (scope v : Nat) : State := s.setFld (urnReg 0xA000) (4 * scope + 3) (4 * scope) v

/-- Whether a scope is in its safe state, in reset or out of service: its sources are only recorded (R448, R471). -/
def State.scopeStopped (s : State) (scope : Nat) : Bool :=
  decide (scope ≤ 4) && [1, 2, 3, 4, 5].contains (s.recState scope)

/-- The notification of a record (NOTIFY of Table 21-2). -/
def State.notify (s : State) (scope seq : Nat) : State :=
  let m := s.notifyMask scope
  let s := if bit m 0 then s.msix (s.fld (peReg 0x10) 5 0) else s
  let s := if bit m 1 then s.send (.scIrq 21) else s
  if bit m 2 then s.send (.steward seq) else s

/-- A record enters the log, a ring of 512 (R463). -/
def State.logRecord (s : State) (r : FaultRec) : State :=
  let full := decide (512 ≤ s.urn.log.length)
  let s := { s with urn := { s.urn with log := (if full then s.urn.log.drop 1 else s.urn.log) ++ [r], nextSeq := (s.urn.nextSeq + 1) % 2 ^ 32 } }
  let s := s.wr (urnReg 0x800C) s.urn.nextSeq
  if full then s.orReg (urnReg 0x8000) (2 ^ 31) else s

/-- The first-source latch of a scope takes a record of Deferred or higher (R464). -/
def State.latchFirst (s : State) (scope : Nat) (r : FaultRec) : State :=
  let a := urnReg (0x8040 + 4 * firstIdx scope)
  if bit (s.rd a) 31 then s.orReg a (2 ^ 30)
  else (s.wr a (2 ^ 31 + r.sev * 2 ^ 27 + r.source)).wr (urnReg (0x8060 + 4 * firstIdx scope)) r.seq

/-- FC_STATUS.PENDING follows the pending table. -/
def State.showPending (s : State) : State := s.setFld (urnReg 0x8000) 6 0 (min 64 s.urn.pending.length)

/-- A record's fields rewritten in the log and in the pending table (R463: both copies in place). -/
def State.modRecord (s : State) (seq : Nat) (f : FaultRec → FaultRec) : State :=
  { s with urn := { s.urn with
      log := s.urn.log.map fun r => if r.seq = seq then f r else r,
      pending := s.urn.pending.map fun p => if p.rcd.seq = seq then { p with rcd := f p.rcd } else p } }

/-- A reset of a scope is asked for: recovery takes it up unless the scope is already in it (R471). A device's begins with the
capture of its crash record (Table 21-3).
LOG 129 (DESIGN CHOICE). -/
def State.askReset (s : State) (scope source seq : Nat) : State :=
  if s.urn.active.any fun r => r.scope == scope then s
  else
    let r : ResetRec := { scope := scope, counted := true, since := s.clock.urn, step := if scope = 7 then 2 else 1, cmds := [], overrun := false, source := source, seq := seq }
    { s with urn := { s.urn with active := s.urn.active ++ [r], captureQueue := if scope = 7 then s.urn.captureQueue ++ [7] else s.urn.captureQueue } }

/-- What a severity of 5 or 6 does at once (Table 21-3): the safe state of the scope and its reset, or the device safe
state and a device crash record, which a device reset follows where AUTO_DEV is 1. -/
def State.actAtOnce (s : State) (scope sev source seq : Nat) : State :=
  if sev = 5 ∧ scope ≤ 4 then (s.safeState scope 1).askReset scope source seq
  else if sev = 6 then (s.deviceSafe (if source = srcId .tbStall then 4 else 1)).askReset 7 source seq
  else s

/-- ERR_OUT's condition (R449): device safe, a partition of PARTS stopped, a source latched at a severity of SEV or
higher, or the Urn out of service. -/
def State.errCondition (s : State) : Bool :=
  let cfg := s.rd (urnReg 0xC008)
  let lowest := (List.range 7).find? fun v => bit cfg (8 + v)
  bit (s.rd (urnReg 0xC000)) 31 || s.urn.urnHeld ||
  ((List.range 4).any fun p => bit cfg p && s.scopeStopped p) ||
  (match lowest with
    | some v => s.urn.pending.any fun q => decide (v ≤ q.rcd.sev)
    | none => false)

/-- ERR_OUT leaves the healthy pattern as soon as a condition holds (R449). -/
def State.errUpdate (s : State) : State :=
  if s.errCondition then State.setFld { s with urn := { s.urn with errFault := true } } (urnReg 0xC00C) 1 1 1 else s

/-- A raise at a severity of Log or higher: record, log, latch, notification, pending window, immediate action. In a scope that is
stopped the source is only recorded, unless it is Device-fatal (R471).
LOG 99 (DESIGN CHOICE). -/
def State.raiseAt (s : State) (source scope sev action : Nat) (i : FaultInfo) : State :=
  let only := decide (sev < 3) || (s.scopeStopped scope && decide (sev < 6))
  let first := !only && !bit (s.rd (urnReg (0x8040 + 4 * firstIdx scope))) 31
  let r : FaultRec :=
    { seq := s.urn.nextSeq, source := source, scope := scope, sevRaise := sev, sev := sev, acked := false, first := first, info := i, utime := s.utime,
      time := s.time, action := action }
  let s := s.logRecord r
  if only then s
  else
    let s := (s.latchFirst scope r).notify scope r.seq
    let full := decide (64 ≤ s.urn.pending.length)
    let expiry := if sev ≤ 4 then some (s.clock.urn + (if full then 0 else s.windowNs scope sev)) else none
    let s := State.showPending { s with urn := { s.urn with pending := s.urn.pending ++ [{ rcd := r, expiry := expiry }] } }
    (s.actAtOnce scope sev source r.seq).errUpdate

/-- A source raised in a scope (R459): FC_COUNT always; the severity of its table decides the rest. Correctable: one
record for the first raise of an Urn second, one raise at Deferred where CE_LIMIT is first exceeded.
LOG 127 (DESIGN CHOICE). -/
def State.raise (s : State) (src : Src) (scope : Nat) (i : FaultInfo) : State :=
  let id := srcId src
  let s := s.countUp (urnReg (0x9000 + 4 * id)) 1
  let sa := s.sevOf src scope
  match sa.1 with
  | 0 => s
  | 2 =>
    let key := scope * 1024 + id
    let n := sparseGet 0 s.urn.second key + 1
    let s := { s with urn := { s.urn with second := sparsePut 0 s.urn.second key n } }
    let s := if n = 1 then s.raiseAt id scope 2 sa.2 i else s
    if s.ceLimit scope ≠ 0 ∧ n = s.ceLimit scope + 1 then s.raiseAt id scope 3 sa.2 i else s
  | v => s.raiseAt id scope v sa.2 i

/-- A source raised by a unit of cluster c for context x (R456: the scope of the cluster's partition). -/
def State.raiseCl (s : State) (src : Src) (c : Nat) (x : Option Nat) (req unit i0 i1 : Nat) : State :=
  s.raise src (scopeOf (s.ownerOf c))
    { ctx := x.getD 0xFF, req := req, unit := unit, info0 := i0, info1 := i1, cluster := some c,
      task := match x with
        | some x => (s.ctx c x).task
        | none => none }

/-- A source raised for a requester, with the address it reached (R540). -/
def State.raiseReq (s : State) (src : Src) (r : Requester) (addr : Nat) : State :=
  s.raise src (scopeOf (s.partOf r))
    { ctx := r.ctx.getD 0xFF, req := r.index, info0 := addr % 2 ^ 32, info1 := addr / 2 ^ 32 % 2 ^ 16,
      cluster := r.cluster,
      task := match r.cluster, r.ctx with
        | some c, some x => (s.ctx c x).task
        | _, _ => none }

end Sys2Proof.Machine
end

