-- ==== Sys2Proof/Machine/Timebase.lean ====
section
/-! DEFINITION. The timebase (R348–R362): the advance of one raw nanosecond, steering, triggers, captures, and the
commands on them. -/

namespace Sys2Proof.Machine

/-! ## Steering (R349) -/

/-- LIM, 500 ppm in units of 2^-40. -/
def tbLim : Int := 549755813

/-- An integer clamped to [−LIM, LIM]. -/
def clampLim (v : Int) : Int := max (-tbLim) (min tbLim v)

/-- RATE. -/
def State.tbRate (s : State) : Int := toSigned 32 (s.rd (tbReg 0x28))

/-- RATE + sgn(rem)·SLEW_RATE before the clamp. -/
def State.tbDrive (s : State) : Int := s.tbRate + (if s.tb.rem = 0 then 0 else if s.tb.rem > 0 then 1 else -1) * (s.fld (tbReg 0x3C) 29 0 : Nat)

/-- Whether the clamp of R349 bites. -/
def State.tbClamped (s : State) : Bool := decide (clampLim s.tbDrive ≠ s.tbDrive)

/-- One raw nanosecond of R349: `rate` is RATE and `drive` the effective rate before the clamp. -/
def Tb.tick (t : Tb) (rate drive : Int) : Tb :=
  let e := clampLim drive
  let q := t.sacc + (e - rate)
  let up := decide (q ≥ 2 ^ 40)
  let q1 := if up then q - 2 ^ 40 else q
  let r1 := if up then t.rem - 1 else t.rem
  let dn := decide (q1 ≤ -(2 ^ 40))
  let q2 := if dn then q1 + 2 ^ 40 else q1
  let r2 := if dn then r1 + 1 else r1
  { t with offset := toSigned 64 (ofSigned 64 (t.offset + t.jump)), jump := 0, raw := t.raw + 1, acc := t.acc + e, sacc := if r2 = 0 then 0 else q2, rem := r2 }

/-- A timebase at power-up keeps nothing but what the Urn's check last saw (R348, R349). -/
def Tb.restart (t : Tb) : Tb := { Tb.powerUp with checkAt := t.checkAt, checkTime := t.checkTime }

/-- The power state (PM_STATUS.STATE): 0 Run, 1 Trim, 2 Watch, 3 Retain, 4 Off. -/
def State.pmState (s : State) : Nat := s.fld (pmReg 0) 2 0

/-- One nanosecond passes (R348, R360): the always-on clock always, the Urn's and the timebase's while their domains
are powered (Table 23-1).
LOG 1 (DESIGN CHOICE). -/
def State.tick (s : State) : State :=
  let k := s.clock
  if 3 ≤ s.pmState then { s with clock := { k with aon := k.aon + 1 } }
  else { s with clock := { ns := k.ns + 1, urn := k.urn + 1, aon := k.aon + 1 }, tb := s.tb.tick s.tbRate s.tbDrive }

/-- Whether a requester may steer the timebase (R353): the Steward and partition S. -/
def tbMaySteer (r : Requester) : Bool :=
  match r with
  | .steward => true
  | .hart _ => true
  | _ => false

/-- The amount of a submitted request: TB_ADJ_HI over TB_ADJ_LO, an s64. -/
def State.adjAmount (s : State) (hi : Nat) : Int := toSigned 64 (hi % 2 ^ 32 * 2 ^ 32 + s.tb.adjLo)

/-- Whether a jump is accepted (R352). -/
def State.jumpOk (s : State) (a : Int) : Bool :=
  !bit (s.rd (tbReg 0)) 31 || decide (a.natAbs ≤ s.rd (tbReg 0x48)) ||
  (bit (s.rd (tbReg 0x38)) 2 && (List.range 4).all fun p => s.fld (btReg p 0) 3 0 == 0)

/-- The index of the first minor frame whose start time is not before time t (R262). -/
def BrewTable.frameFrom (b : BrewTable) (t : Nat) : Nat :=
  let d := toSigned 64 (t + 2 ^ 64 - b.epoch % 2 ^ 64)
  if d ≤ 0 then 0 else ceilDiv d.toNat b.minorNs

/-- The synthesised time once the accepted jumps have been applied. -/
def State.timeJumped (s : State) : Nat := ofSigned 64 ((s.time : Int) + s.tb.jump)

/-- A dispatcher that waits takes the first frame from now on (R354: the first accepted jump gives it its time). -/
def State.alignFirst (s : State) (p : Nat) : State :=
  match (s.dsp p).table with
  | some b => if s.fld (btReg p 0) 3 0 = 1 then s.setDsp p { s.dsp p with frameNo := b.frameFrom s.timeJumped } else s
  | none => s

/-- A jump accepted: OFFSET moves at the next raw nanosecond, rem and acc stay (R352, R354).
LOG 75 (DESIGN CHOICE). -/
def State.jumpApply (s : State) (a : Int) : State :=
  let first := !bit (s.rd (tbReg 0)) 31
  let s := { s with tb := { s.tb with jump := s.tb.jump + a } }
  let s := if first then (List.range 4).foldl State.alignFirst s else s
  let s := (s.orReg (tbReg 0) (2 ^ 31)).countUp (tbReg 0x54) 1
  s.raise .tbJump 7 {}

/-- A jump refused: the time stays. -/
def State.jumpRefuse (s : State) (a : Int) : State :=
  let s := (s.orReg (tbReg 0) (2 ^ 30)).wr64 (tbReg 0x4C) (ofSigned 64 a)
  (s.countUp (tbReg 0x58) 1).raise .tbJumpRefused 7 {}

/-- JUMP (R352): a write of TB_ADJ_HI under KIND 0. -/
def execJump (r : Requester) (hi : Nat) (s : State) : Host.Outcome State Fault Refusal :=
  .next <|
    if tbMaySteer r && s.fld (tbReg 0x38) 1 0 == 0 then
      let a := s.adjAmount hi
      if s.jumpOk a then s.jumpApply a else s.jumpRefuse a
    else s

/-- SLEW (R352): a write of TB_ADJ_HI under KIND 1 adds the amount to rem.
LOG 75 (DESIGN CHOICE). -/
def execSlew (r : Requester) (hi : Nat) (s : State) : Host.Outcome State Fault Refusal :=
  .next <|
    if tbMaySteer r && s.fld (tbReg 0x38) 1 0 == 1 then
      { s with tb := { s.tb with rem := toSigned 64 (ofSigned 64 (s.tb.rem + s.adjAmount hi)) } }
    else s

/-- RATE set, clamped to ±LIM with TB_RATE_CLAMP (R353). -/
def State.setRate (s : State) (v : Int) : State :=
  let s1 := s.wr (tbReg 0x28) (ofSigned 32 (clampLim v))
  if clampLim v ≠ v then s1.raise .tbRateClamp 7 {} else s1

/-- TB_RATE (R353). -/
def execTbRate (r : Requester) (value : Nat) (s : State) : Host.Outcome State Fault Refusal :=
  .next (if tbMaySteer r then s.setRate (toSigned 32 value) else s)

/-- round_ties_even(INCR·2^16/40) − 2^40 (R355). -/
def incrRate (v : Nat) : Int := (divRound (v % 2 ^ 32 * 2 ^ 16) 40 : Nat) - 2 ^ 40

/-- TB_INCR (R355): ignored in mode 0. -/
def execTbIncr (r : Requester) (value : Nat) (s : State) : Host.Outcome State Fault Refusal :=
  .next (if tbMaySteer r && bit (s.rd (tbReg 4)) 0 then (s.wr (tbReg 0x2C) value).setRate (incrRate value) else s)

/-! ## Reads with effects (R10, R358, R359, R361) -/

/-- The high word of a pair latched by a read of the low word (R10).
LOG 13 (DESIGN CHOICE). -/
def State.latchHi (s : State) (hiAddr v : Nat) : State :=
  { s with hiLatch := (hiAddr, BitVec.ofNat 32 v) :: s.hiLatch.filter fun e => e.1 != hiAddr }

/-- What a read of TB_TIME_LO does: TB_TIME_HI and TB_SNAP_RAW are latched (R361). -/
def State.tbTimeRead (s : State) : State :=
  (s.latchHi (tbReg 0x14) (s.time / 2 ^ 32)).wr64 (tbReg 0x18) s.tb.raw

/-- TB_TIME_READ: the read of TB_TIME_LO. -/
def execTbTimeRead (r : Requester) (s : State) : Host.Outcome State Fault Refusal :=
  .next (s.tbTimeRead.answer r .ok (leBytes 4 s.time))

/-- The value a read of a high word gives: the latched one, which the read takes, or the live one (R10).
LOG 13 (DESIGN CHOICE). -/
def State.takeHi (s : State) (hiAddr live : Nat) : Nat × State :=
  match assoc s.hiLatch hiAddr with
  | some w => (w.toNat, { s with hiLatch := s.hiLatch.filter fun e => e.1 != hiAddr })
  | none => (live, s)

/-- What a read of TB_PPSIN_RAW_HI gives and does: the head capture is popped (R358). -/
def State.ppsRawHiRead (s : State) : Nat × State :=
  let v := s.takeHi (tbReg 0x510) ((s.tb.pps.headD (0, 0)).2 / 2 ^ 32)
  (v.1, { v.2 with tb := { v.2.tb with pps := v.2.tb.pps.drop 1 } })

/-- TB_PPSIN_RAW_HI_READ. -/
def execTbPpsinRawHiRead (r : Requester) (s : State) : Host.Outcome State Fault Refusal :=
  .next (s.ppsRawHiRead.2.answer r .ok (leBytes 4 s.ppsRawHiRead.1))

/-- The timestamp FIFO of a MAC's direction. -/
def State.tsFifo (s : State) (e : Nat) (eg : Bool) : List TsEntry := sparseGet [] s.tb.ts (2 * e + b2n eg)
/-- The timestamp FIFO set. -/
def State.setTsFifo (s : State) (e : Nat) (eg : Bool) (l : List TsEntry) : State :=
  { s with tb := { s.tb with ts := sparsePut [] s.tb.ts (2 * e + b2n eg) l } }

/-- What a read of a timestamp ID register gives and does: the head entry is popped (R359). -/
def State.tsIdRead (s : State) (e : Nat) (eg : Bool) : Nat × State :=
  match s.tsFifo e eg with
  | [] => (0, s)
  | h :: t => (h.id, s.setTsFifo e eg t)

/-- TB_TS_ID_READ. -/
def execTbTsIdRead (r : Requester) (e : Nat) (egress : Bool) (s : State) : Host.Outcome State Fault Refusal :=
  .next ((s.tsIdRead e egress).2.answer r .ok (leBytes 4 (s.tsIdRead e egress).1))

/-- A PTP event frame's timestamp enters a FIFO of 16 (R359); the FIFO's interrupt reaches partition S (Table 18-8). -/
def State.tsPush (s : State) (e : Nat) (eg : Bool) (t : TsEntry) : State :=
  if 16 ≤ (s.tsFifo e eg).length then
    (s.orReg (tbReg (0x600 + 0x40 * e)) (if eg then 2 ^ 30 else 2 ^ 31)).raise .tbTsOvf 7 { unit := e }
  else (s.setTsFifo e eg (s.tsFifo e eg ++ [t])).send (.scIrq (24 + e))

/-- The synthesised time that passed `age` nanoseconds ago, RATE and slew being as they are now.
LOG 75 (DESIGN CHOICE). -/
def State.timeAgo (s : State) (age : Nat) : Nat :=
  ofSigned 64 (s.tb.offset + ((s.tb.raw : Int) - age) + (s.tb.acc - age * clampLim s.tbDrive) / 2 ^ 40)

/-- Strainer instance 24 beside its registers. -/
def State.ppsStrain (s : State) : Strain := sparseGet Strain.idle s.strs 24

/-- A capture of PPS_IN's first sample `age` nanoseconds ago: in the FIFO of four, or lost (R358). -/
def State.ppsPush (s : State) (age : Nat) : State :=
  if 4 ≤ s.tb.pps.length then s.countUp (tbReg 0x514) 1
  else { s with tb := { s.tb with pps := s.tb.pps ++ [(s.timeAgo age, (ofSigned 64 ((s.tb.raw : Int) - age)))] } }

/-- PPS_IN (R358): the oldest edge that Strainer instance 24 has reported is captured. -/
def execPpsIn (s : State) : Host.Outcome State Fault Refusal :=
  .next <| match s.ppsStrain.edges with
    | t :: rest => State.ppsPush { s with strs := sparsePut Strain.idle s.strs 24 { s.ppsStrain with edges := rest } } (s.clock.ns - t)
    | [] => s

/-! ## Triggers (R356) -/

/-- A register of generator g. -/
def genReg (g o : Nat) : Nat := tbReg (0x100 + 0x20 * g + o)
/-- Generator g. -/
def State.gen (s : State) (g : Nat) : Gen := sparseGet Gen.idle s.tb.gens g
/-- Generator g set. -/
def State.setGen (s : State) (g : Nat) (v : Gen) : State :=
  { s with tb := { s.tb with gens := sparsePut Gen.idle s.tb.gens g v } }

/-- Whether generator g's WIDTH is valid. -/
def State.genOk (s : State) (g : Nat) : Bool :=
  let w := s.rd (genReg g 0xC)
  let p := s.rd (genReg g 8)
  w != 0 && (p == 0 || decide (w < p))

/-- The interrupt of generators 17–24 (Table 16-4, Table 18-8). -/
def State.genIrq (s : State) (g : Nat) : State :=
  if g < 17 then s
  else
    let d := s.fld (genReg g 0x10) 7 0
    if d = 0 then s.send (.steward g)
    else if d = 1 then s.send (.scIrq (13 + (g - 17)))
    else if 0x40 ≤ d ∧ d < 0x80 then s.msix (d - 0x40)
    else s

/-- Whether generator g fires now. -/
def State.genDue (s : State) (g : Nat) : Bool :=
  decide (g < 25) && bit (s.rd (genReg g 0x10)) 31 && reached s.time (s.gen g).next

/-- A fire: output active for WIDTH, LAST, FIRED, and the next fire time or the end of a one-shot. -/
def State.genFire (s : State) (g : Nat) : State :=
  let v := s.gen g
  let p := s.rd (genReg g 8)
  let v' := { v with pulseEnd := some (s.tb.raw + s.rd (genReg g 0xC)), fired := s.time :: v.fired }
  let s1 := (s.wr64 (genReg g 0x14) s.time).genIrq g
  if p = 0 then (s1.setGen g v').setFld (genReg g 0x10) 31 31 0
  else
    let k := (s.time + 2 ^ 64 - v.next) % 2 ^ 64 / p
    (s1.setGen g { v' with next := (v.next + (k + 1) * p) % 2 ^ 64 }).countUp (genReg g 0x1C) k

/-- TRIGGER_FIRE. -/
def execTriggerFire (g : Nat) (s : State) : Host.Outcome State Fault Refusal :=
  .next (if s.genDue g then s.genFire g else s)

/-- PULSE_END: the output returns to inactive WIDTH raw nanoseconds after the fire. -/
def execPulseEnd (g : Nat) (s : State) : Host.Outcome State Fault Refusal :=
  .next <| match (s.gen g).pulseEnd with
    | some e => if e ≤ s.tb.raw then s.setGen g { s.gen g with pulseEnd := none } else s
    | none => s

/-- A write of TB_GENg_CTRL (R356): an enable sets next = FIRST, or CFG_ERR where WIDTH is invalid. -/
def State.genCtrl (s : State) (g value : Nat) : State :=
  let a := genReg g 0x10
  let was := bit (s.rd a) 31
  let v := setBits (setBits (s.rd a) 7 0 value) 28 28 (value / 2 ^ 28)
  let v := if bit value 30 && !bit (s.setNow a) 30 then setBit v 30 false else v
  if !bit value 31 then s.wr a (setBit v 31 false)
  else if was then s.wr a v
  else if s.genOk g then
    let first := s.rd64 (genReg g 0)
    let s := s.wr a (setBit (setBit v 31 true) 29 false)
    (if reached s.time first then s.orReg a (2 ^ 30) else s).setGen g { s.gen g with next := first }
  else s.wr a (setBit v 29 true)

/-- GEN_ENABLE. -/
def execGenEnable (_r : Requester) (g value : Nat) (s : State) : Host.Outcome State Fault Refusal :=
  .next (if g < 25 then s.genCtrl g value else s)

/-- A write of FIRST, PERIOD or WIDTH (R356): one that makes WIDTH invalid disables the generator. -/
def State.genCfg (s : State) (g off value : Nat) : State :=
  let s := s.wr (genReg g off) value
  if (off = 8 ∨ off = 0xC) ∧ bit (s.rd (genReg g 0x10)) 31 = true ∧ s.genOk g = false then
    (s.setFld (genReg g 0x10) 31 31 0).setFld (genReg g 0x10) 29 29 1
  else s

/-- GEN_CFG_WRITE. -/
def execGenCfgWrite (_r : Requester) (g off value : Nat) (s : State) : Host.Outcome State Fault Refusal :=
  .next (if g < 25 && [0, 4, 8, 0xC].contains off then s.genCfg g off value else s)

/-- TRIG_SET's restart of a generator (R356, R400): EN cleared, FIRST, PERIOD and WIDTH written, then CTRL. -/
def State.genRestart (s : State) (g first period width ctrl : Nat) : State :=
  let s := s.setFld (genReg g 0x10) 31 31 0
  (((s.wr64 (genReg g 0) first).wr (genReg g 8) period).wr (genReg g 0xC) width).genCtrl g ctrl

/-! ## The Urn's check (R360) -/

/-- CLOCK_CHECK: over 1 ms of Urn time, `measured` timebase nanoseconds were counted.
LOG 75 (DESIGN CHOICE). -/
def execClockCheck (measured : Nat) (s : State) : Host.Outcome State Fault Refusal :=
  .next <|
    if s.tb.checkAt + 1000000 ≤ s.clock.urn then
      let bad := decide (measured > 1002000) || decide (measured < 998000) || s.time == s.tb.checkTime
      let s := { s with tb := { s.tb with checkAt := s.clock.urn, checkTime := s.time } }
      if bad then s.raise .tbStall 7 { info0 := measured } else s
    else s

end Sys2Proof.Machine
end

