-- ==== Sys2Proof/Machine/RegRead.lean ====
section
/-! DEFINITION. What a read of a register gives: the stored value with the read-only fields that show the state of a unit,
and the effects some reads have (R10, R358, R359, R361). -/

namespace Sys2Proof.Machine

/-- Whether throttling holds the elastic class: at level 1 in every second window of 4,096 ct, at level 2 and above
continuously (R516). -/
def State.throttled (s : State) : Bool :=
  let l := s.fld (pmReg 0x20) 30 28
  decide (2 ≤ l) || (l == 1 && s.ct / 4096 % 2 == 1)

/-- Whether a hold of R90 or R91 applies to context x on array a: pre-emption, throttling, STOP or a timed claim. -/
def State.heldOn (s : State) (c a x : Nat) : Bool :=
  (s.ctx c x).held || (x != 4 && (s.throttled || bit (s.rd (arrReg c a 4)) 0 || (s.arr c a).claim))

/-- The pass in its K-steps at tick t, if any. -/
def Arr.kPass (v : Arr) (t : Nat) : Option Pass :=
  v.passes.find? fun p => decide (p.issue + 32 ≤ t) && decide (t < p.issue + 32 + p.n)

/-- The running pass: the one in its K-steps, else the oldest that has not committed. -/
def Arr.running (v : Arr) (t : Nat) : Option Pass := (v.kPass t).orElse fun _ => v.passes.head?

/-- ARR_STATUS.STATE (Table 04-13). -/
def Arr.stateCode (v : Arr) (t : Nat) : Nat :=
  if (v.kPass t).isSome then 2
  else if v.passes.any fun p => decide (t < p.issue + 32) then 1
  else if !v.passes.isEmpty then 3
  else if v.op.isSome || decide (t < v.busy) || v.panels.any fun p => decide (t < p.busy) then 4 else 0

/-- ARR_STATUS with the fields that show the array. -/
def State.arrStatus (s : State) (c a v : Nat) : Nat :=
  let r := s.arr c a
  let v := match r.running s.ct with
    | some p => setBits (setBits v 26 24 (bits p.instr.w0 63 61)) 23 21 (bits p.instr.w0 6 4)
    | none => setBits (setBits v 26 24 7) 23 21 0
  let hold := (List.range 4).any (s.heldOn c a)
  setBits (setBits (setBit v 20 hold) 19 14 ((r.queues.map List.length).foldl (· + ·) 0)) 2 0 (r.stateCode s.ct)

/-- VEC_STATUS with the fields that show the engine. -/
def State.vecStatus (s : State) (c e v : Nat) : Nat :=
  match (s.vec c e).running with
  | some r => setBits (setBits (setBits v 23 16 r.kernel) 5 3 r.ctx) 2 0 (if r.array.isSome then 2 else 1)
  | none => setBits (setBits (setBits v 23 16 0) 5 3 7) 2 0 0

/-- The queued descriptors of cluster c. -/
def State.movQueued (s : State) (c : Nat) : Nat :=
  ((List.range 16).map fun n => (s.chan c n).queue.length).foldl (· + ·) 0
/-- The pieces of cluster c in flight. -/
def State.movInflight (s : State) (c : Nat) : Nat :=
  ((List.range 16).map fun n => (s.chan c n).inflight.length).foldl (· + ·) 0

/-- MOV_STATUS. -/
def State.movStatus (s : State) (c : Nat) : Nat :=
  let busy := ((List.range 16).map fun n => if (s.chan c n).queue.isEmpty then 0 else 2 ^ n).foldl (· + ·) 0
  busy * 2 ^ 16 + (32 - s.movQueued c) * 2 ^ 8 + s.movInflight c

/-- MOV_CHn_STATUS. -/
def State.chanStatus (s : State) (c n v : Nat) : Nat :=
  let k := s.chan c n
  k.state * 2 ^ 29 + k.queue.headD 0 * 2 ^ 24 + k.queue.length * 2 ^ 18 + k.cause * 2 ^ 14 + k.inflight.length * 2 ^ 9 + bits v 8 8 * 2 ^ 8

/-- The rows of a locked region of the cluster window. -/
def regionRows (w : Nat × Nat × Nat) : Nat := ceilDiv (w.2.2 + 1 - w.2.1) 64

/-- The rows left of the scratchpad region that the Rinse is in, t ticks after its scrub began, `d` rows having been displaced: 8 rows a
ct, region after region (R132). -/
def rowsLeft : List (Nat × Nat × Nat) → Nat → Nat → Nat
  | [], _, _ => 0
  | w :: l, t, d =>
    let rows := regionRows w
    if 8 * t < rows + d then min rows (rows + d - 8 * t) else rowsLeft l (t - ceilDiv (rows + d) 8) 0

/-- CL_RINSE_STATUS (Table 05-8) of the scrub at the front of the cluster's Rinse. -/
def State.rinseStatus (s : State) (c : Nat) : Nat :=
  match s.rinses.find? fun r => r.cluster == c with
  | none => 7 * 2 ^ 24
  | some r =>
    let locked := (r.windows.map fun w => 2 ^ w.1).foldl (· + ·) 0
    let remain := if r.started then rowsLeft (r.todo.filter fun w => decide (w.2.1 < poolBase)) (s.ct - r.startAt) r.displaced else 0
    b2n r.started * 2 ^ 31 + r.ctx * 2 ^ 24 + locked * 2 ^ 16 + min 0xFFFF remain

/-- The fault record of a SEQ as its eight words (Table 21-4); zeros where the log no longer holds it. -/
def FaultRec.words (r : FaultRec) : List Nat :=
  [r.seq, r.source + r.scope * 2 ^ 10 + (r.sevRaise + r.sev * 8 + b2n r.acked * 64 + b2n r.first * 128) * 2 ^ 16 + r.info.ctx % 256 * 2 ^ 24,
   r.info.req % 2 ^ 16 + r.info.unit % 2 ^ 16 * 2 ^ 16, r.info.info0 % 2 ^ 32, r.info.info1 % 2 ^ 32, r.utime,
   r.time % 2 ^ 32, r.time / 2 ^ 32 % 2 ^ 32]

/-- FC_LOG_DATAk of the selected record. -/
def State.logWord (s : State) (k : Nat) : Nat :=
  match s.urn.log.find? fun r => r.seq == s.rd (urnReg 0x8010) with
  | some r => r.words.getD k 0
  | none => 0

/-- Whether the window of 600 s still holds an Urn time (R470). -/
def State.in600 (s : State) (t : Nat) : Bool := decide (s.clock.urn < t + 600000000000)

/-- Counted resets of a scope in the last 600 s. -/
def State.resetCount (s : State) (scope : Nat) : Nat :=
  (((assoc s.urn.resets scope).getD []).filter s.in600).length

/-- The timed tasks of partition p that run. -/
def State.timedRunning (s : State) (p : Nat) : List Task :=
  (s.tasks.map Prod.snd).filter fun k => k.timed && k.part == p && k.started && !k.ended

/-- CL_TILER_STATE: while the tiler has an operator of the timed context in hand, that context is the one being tiled (Table 07-8). -/
def State.tilerStatus (s : State) (c v : Nat) : Nat :=
  let t := (s.ctx c 4).tiler
  if t.active && t.phase == 1 then setBits v 11 9 4 else v

/-- DPP_STATUS.STATE: decoding until its input is read, then by the ticks since the job started; holding once it has ended.
LOG 159 (DESIGN CHOICE). -/
def State.dppState (s : State) (d : Nat) : Nat :=
  match (s.dpp d).running with
  | none => 0
  | some r =>
    let t := s.ct - r.start
    if r.ended then 5
    else if !r.read || decide (t < r.ends.1) then 1
    else if t < r.ends.2.1 then 2
    else if t < r.ends.2.2 then 3
    else 4

/-- The fields of a CL_ register that show the cluster. -/
def State.clValue (s : State) (c o v : Nat) : Nat :=
  if o = 0x318 then s.rinseStatus c
  else if o = 0x800 then s.tilerStatus c v
  else if 0xC00 ≤ o ∧ o < 0x1000 then ((List.range 32).map fun j => if s.full c (8 * (o - 0xC00) + j) then 2 ^ j else 0).foldl (· + ·) 0
  else v

/-- The fields of a TB_ register that show the timebase (Table 16-1). -/
def State.tbValue (s : State) (o v : Nat) : Nat :=
  match o with
  | 0x000 => setBit (setBit v 29 s.tbClamped) 28 (decide (s.tb.rem ≠ 0))
  | 0x008 => s.tb.raw % 2 ^ 32
  | 0x00C => s.tb.raw / 2 ^ 32 % 2 ^ 32
  | 0x010 => s.time % 2 ^ 32
  | 0x014 => s.time / 2 ^ 32
  | 0x020 => ofSigned 64 s.tb.offset % 2 ^ 32
  | 0x024 => ofSigned 64 s.tb.offset / 2 ^ 32
  | 0x040 => ofSigned 64 s.tb.rem % 2 ^ 32
  | 0x044 => ofSigned 64 s.tb.rem / 2 ^ 32
  | 0x500 => s.tb.pps.length
  | 0x504 => (s.tb.pps.headD (0, 0)).1 % 2 ^ 32
  | 0x508 => (s.tb.pps.headD (0, 0)).1 / 2 ^ 32
  | 0x50C => (s.tb.pps.headD (0, 0)).2 % 2 ^ 32
  | 0x510 => (s.tb.pps.headD (0, 0)).2 / 2 ^ 32
  | _ =>
    if 0x600 ≤ o ∧ o < 0x700 then
      let e := (o - 0x600) / 0x40
      let q := o % 0x40
      let eg := decide (0x18 ≤ q)
      let h := (s.tsFifo e eg).headD { time := 0, raw := 0, id := 0 }
      match (if eg then q - 0x14 else q) with
      | 0x00 => setBits (setBits v 12 8 (s.tsFifo e true).length) 4 0 (s.tsFifo e false).length
      | 0x04 => h.time % 2 ^ 32
      | 0x08 => h.time / 2 ^ 32
      | 0x0C => h.raw % 2 ^ 32
      | 0x10 => h.raw / 2 ^ 32
      | 0x14 => h.id
      | _ => v
    else v

/-- OWNER of a DPP, or of a channel, as a field value. -/
def ownerField (none_ : Nat) (p : Option Nat) : Nat := p.getD none_

/-- The fields of an FC_, URN_ or safety register that show the Urn. -/
def State.urnValue (s : State) (o v : Nat) : Nat :=
  if 0x8020 ≤ o ∧ o < 0x8040 then s.logWord ((o - 0x8020) / 4)
  else if o = 0xA008 then ((List.range 5).map fun k => min 3 (s.resetCount k) * 4 ^ k).foldl (· + ·) 0
  else if o = 0xA01C then
    ((List.range 4).map fun k => if s.urn.crash.any fun e => e.1 == k then 2 ^ k else 0).foldl (· + ·) 0 + (if s.urn.crashCount < 2 then 0 else (s.urn.crashCount - 2) % 3 + 1) * 16
  else if o = 0xA010 then (if s.urn.urnHeld then v else s.clock.urn / 10000 % 2 ^ 32)
  else if o = 0xC00C then setBit v 0 (!s.urn.errFault && s.clock.urn / 500000 % 2 == 0)
  else v

/-- The fields of a device-region register that show a unit. -/
def State.devValue (s : State) (o v : Nat) : Nat :=
  match o / 0x100000 with
  | 0 => if 0x2000 ≤ o ∧ o < 0x2100 ∧ o % 0x40 = 0 then
      let p := (o - 0x2000) / 0x40
      setBits v 8 4 (min 31 (s.tu.fences.filter fun f => bits f.cmd 1 0 == 2 && bits f.cmd 3 2 == p).length)
    else if 0x3000 ≤ o ∧ o < 0x3100 ∧ o % 0x40 = 0 then
      setBit (setBit v 1 (s.rd64 (devBase + o + 0x10) != 0)) 0 (s.rd64 (devBase + o + 0x08) != 0)
    else v
  | 1 => if o % 0x10000 = 0 then
      let p := o % 0x100000 / 0x10000
      setBit (setBits v 23 16 (s.timedRunning p).length) 27 ((s.timedRunning p).any (·.slipped))
    else v
  | 2 => s.tbValue (o % 0x100000) v
  | 3 => if o % 0x100000 = 0 then setBits v 4 0 s.tu.fences.length
    else if o % 0x100000 = 4 then (s.tu.store.filter (·.locked)).length else v
  | 4 =>
    let d := o % 0x100000 / 0x10000
    match o % 0x10000 with
    | 0 => setBits (setBits v 9 7 (s.dpp d).queue.length) 2 0 (s.dppState d)
    | 4 => setBits v 7 5 (ownerField 7 (s.dppOwner d))
    | _ => v
  | 9 => if o % 0x10000 = 0 then setBits v 31 28 (ownerField 15 (s.chanOwner (o % 0x100000 / 0x10000))) else v
  | 10 => if o % 0x100000 = 0x10 then s.clock.aon * 32768 / 1000000000 % 2 ^ 32
    else if o % 0x100000 = 0x14 then s.clock.aon * 32768 / 1000000000 / 2 ^ 32 % 2 ^ 32 else v
  | _ => v

/-- A register value with its write-only fields reading 0 (R11). -/
def maskWo (a v : Nat) : Nat :=
  match regRow a with
  | some r => r.fields.foldl (fun v f => if f.acc = .wo then setBits v f.hi f.lo 0 else v) v
  | none => v

/-- What a read of a canonical register address gives.
LOG 4 (DESIGN CHOICE). -/
def State.regValue (s : State) (a : Nat) : Nat :=
  let v := maskWo a (s.shown a)
  if s.unowned a then (regReset a).toNat
  else if a < devBase then
    let c := (a - clusterBase) / 0x1000000
    let o := (a - clusterBase) % 0x1000000 - 0xF00000
    match o / 0x1000 with
    | 0 => s.clValue c o v
    | 1 => if o % 0x200 = 0 then s.arrStatus c (o % 0x1000 / 0x200) v else v
    | 2 => if o % 0x800 = 0 then s.vecStatus c (o % 0x1000 / 0x800) v else v
    | 3 => if o % 0x1000 = 0 then s.movStatus c
      else if 0x100 ≤ o % 0x1000 ∧ o % 0x1000 < 0x300 ∧ o % 0x20 = 8 then s.chanStatus c ((o % 0x1000 - 0x100) / 0x20) v else v
    | _ => v
  else if a < urnBase then s.devValue (a - devBase) v
  else if a < cadBase then s.urnValue (a - urnBase) v
  else v

/-- Whether a register row is the low word of a pair under R10.
LOG 13 (DESIGN CHOICE). -/
def isPairLow (a : Nat) : Bool :=
  match regRow a with
  | some r => r.pair
  | none => false

/-- A read of a canonical register address: the value and the effects of reading (R10, R358, R359, R361). -/
def State.readReg (s : State) (a : Nat) : Nat × State :=
  if a = tbReg 0x10 then (s.time % 2 ^ 32, s.tbTimeRead)
  else if a = tbReg 0x510 then s.ppsRawHiRead
  else if (List.range 4).any (fun e => a == tbReg (0x614 + 0x40 * e)) then s.tsIdRead ((a - tbReg 0x614) / 0x40) false
  else if (List.range 4).any (fun e => a == tbReg (0x628 + 0x40 * e)) then s.tsIdRead ((a - tbReg 0x628) / 0x40) true
  else if isPairLow a then (s.regValue a, s.latchHi (a + 4) (s.regValue (a + 4)))
  else if isPairLow (a - 4) then s.takeHi a (s.regValue a)
  else (s.regValue a, s)

end Sys2Proof.Machine
end

