-- ==== Sys2Proof/Machine/Access.lean ====
section
/-! DEFINITION. Access to memory (R18–R22, R112–R115, R122–R125, R128, R129, R133, R416–R423): what is populated, the
windows, the Rinse lock, error correction, plain reads and writes, atomic operations. -/

namespace Sys2Proof.Machine

/-! ## Windows (R121–R125) -/

/-- The partition a local memory address is kept for: a cluster's window, a pool bank, a chip-level counter, an LPDDR6
set; none for what belongs to no partition.
LOG 26 (DEDUCED). -/
def State.memOwner (s : State) (a : Nat) : Option Nat :=
  match regionOf a with
  | .scratch c _ => s.ownerOf c
  | .accum c _ => s.ownerOf c
  | .pool o => assoc s.poolBanks (o / 0x80000)
  | .chipCtr w => assoc s.ctrGroups (w / 16)
  | .lpddr => (s.lpFind a).map Prod.fst
  | .reg r _ => if r < devBase then s.ownerOf ((r - clusterBase) / 0x1000000) else none
  | .none => none

/-- Whether the address lies in memory that R125 keeps to one partition.
LOG 26 (DEDUCED). -/
def State.foreign (s : State) (c a : Nat) : Bool :=
  let mine := s.ownerOf c
  match regionOf a with
  | .scratch _ _ | .accum _ _ | .pool _ | .chipCtr _ | .lpddr => s.memOwner a != mine
  | .reg r _ => decide (r < devBase) && s.memOwner a != mine
  | .none => false

/-- Whether a window grants a right. -/
def WindowVal.grants (v : WindowVal) : Right → Bool
  | .read => v.r
  | .write => v.w
  | .atomic => v.a

/-- A global address with this device's own chip ID replaced by 127 (R22, R122). -/
def State.normGa (s : State) (ga : Nat) : Nat :=
  match s.localOf ga with
  | some l => 127 * 2 ^ 41 + l
  | none => ga

/-- Whether context x of cluster c may make an access of n bytes (R122, R125). -/
def State.windowOk (s : State) (c x ga n : Nat) (right : Right) : Bool :=
  let g := s.normGa ga
  ((List.range 8).any fun w =>
    let v := s.window c x w
    v.v && decide (v.lo ≤ g) && decide (g + n ≤ v.hi + 1) && v.grants right) &&
  (match s.localOf g with
    | some l => !s.foreign c l
    | none => true)

/-- Whether context x may reference n slots from a slot of its cluster: each is checked as its address, 256 bytes (R122). -/
def State.slotsOk (s : State) (c x slot n : Nat) (right : Right) : Bool :=
  (List.range n).all fun k => s.windowOk c x (127 * 2 ^ 41 + spAddr c ((slot + k) * 256)) 256 right

/-- Whether one of the S windows lets a core make an access of n bytes (R406). -/
def State.swinOk (s : State) (ga n : Nat) (right : Right) : Bool :=
  let g := s.normGa ga
  (List.range 16).any fun w =>
    let a := stReg (0x5200 + 0x10 * w)
    let v := windowVal (s.rd a) (s.rd (a + 4)) (s.rd (a + 8)) (s.rd (a + 12))
    v.v && decide (v.lo ≤ g) && decide (g + n ≤ v.hi + 1) && v.grants right

/-! ## Bank ports (R108–R111, R127) -/

/-- What on-chip memory keeps of the present tick. -/
def State.now (s : State) : TickRec := if s.ports.at_ = s.ct then s.ports else TickRec.begin s.ct

/-- The bank of an on-chip address: 32 to a scratchpad, then the pool's 64. -/
def bankOf (a : Nat) : Option Nat :=
  match regionOf a with
  | .scratch c o => some (c * 32 + o / 64 % 32)
  | .pool o => some (2048 + o / 0x80000)
  | _ => none

/-- The banks that one tick of an access reaches: a PANEL's four rows at most. -/
def banksOf (a n : Nat) : List Nat := ((List.range (min 4 (ceilDiv (a % 64 + n) 64))).filterMap fun k => bankOf (a / 64 * 64 + 64 * k)).eraseDups

/-- The rank of a requester on the general read port or the write port of cluster c (Table 05-1), and its index there (R111): local
users by unit number, every other one by Table 05-3. DRAIN rows that an engine writes have the rank of DRAIN.
LOG 25 (DESIGN CHOICE). -/
def portRank (c : Nat) (wr : Bool) (r : Requester) : Nat × Nat :=
  if r.cluster = some c then
    match r with
    | .array _ a _ => (1, a)
    | .engine _ e _ => (if wr then 1 else 3, e)
    | .attention _ _ => (4, 0)
    | .mover _ n _ => (if wr then 2 else 5, n)
    | _ => (if wr then 4 else 7, 0)
  else (if wr then 3 else 6, r.index)

/-- Whether x is served before y on the port that both want in tick t of the bank's clock (R111): timed first, then by rank, then by
index; between elastic requests the lower index on even ticks, the higher on odd ones. -/
def PortUse.wins (x y : PortUse) (t : Nat) : Bool :=
  if x.elastic != y.elastic then y.elastic
  else if x.rank ≠ y.rank then decide (x.rank < y.rank)
  else if x.elastic && t % 2 == 1 then decide (y.idx < x.idx) else decide (x.idx < y.idx)

/-- The tick whose parity a bank's arbitration uses: ct, in the pool NoC ticks (R127). -/
def State.bankTick (s : State) (bank : Nat) : Nat := if bank < 2048 then s.ct else s.clock.ns * 3 / 2

/-- An event of an ND counter noted for the present tick: a clear of the same tick comes before it (R328). -/
def State.ndNote (s : State) (p w : Nat) : State := { s with ports := { s.now with nd := s.now.nd ++ [(p, w)] } }

/-- ND_TIMING of a partition counts one event (R326). -/
def State.ndTiming (s : State) (p : Option Nat) : State :=
  match p with
  | some p => if p < 4 then (s.count64Hold (stReg (0x3008 + 0x40 * p)) 1).ndNote p 0 else s
  | none => s

/-- Elastic losses on a port of a bank: CL_MEM_CONFLICTS of the cluster, ND_TIMING of the partition (R111).
LOG 172 (DESIGN CHOICE). -/
def State.portLoss (s : State) (bank n : Nat) : State :=
  if bank < 2048 then (List.range n).foldl (fun s _ => s.ndTiming (s.ownerOf (bank / 32))) (s.countUp (clReg (bank / 32) 0x310) n)
  else (List.range n).foldl (fun s _ => s.ndTiming (assoc s.poolBanks (bank - 2048))) s

/-- The Rinse of a cluster loses a row to a timed write of a bank it writes (R132): 8 rows a ct, in 8 consecutive banks. -/
def State.displace (s : State) (bank : Nat) : State :=
  let c := bank / 32
  { s with rinses := s.rinses.map fun r =>
      match (r.todo.filter fun w => decide (w.2.1 < poolBase)).head? with
      | some w =>
        let row := w.2.1 / 64 + 8 * (s.ct - r.startAt) - r.displaced
        if bank < 2048 ∧ r.cluster = c ∧ r.started = true ∧ row * 64 ≤ w.2.2 ∧ (bank % 32 + 32 - row % 32) % 32 < 8 then { r with displaced := r.displaced + 1 } else r
      | none => r }

/-- One bank's port wanted by a request: the losses to or of requests of the same tick are counted, and it is noted (R111).
LOG 25 (DESIGN CHOICE). -/
def State.usePort (s : State) (u : PortUse) : State :=
  let t := s.bankTick u.bank
  let others := s.now.uses.filter fun v => v.bank == u.bank && v.wr == u.wr && v.req != u.req
  let lost := (others.filter fun v => v.elastic && u.wins v t).length + b2n (u.elastic && others.any fun v => v.wins u t)
  let s := if lost = 0 then s else s.portLoss u.bank lost
  let s := if u.wr && !u.elastic then s.displace u.bank else s
  { s with ports := { s.now with uses := s.now.uses ++ [u] } }

/-- The ports of the banks that an access reaches, wanted with a rank and index. -/
def State.usePorts (s : State) (r : Requester) (a n : Nat) (wr : Bool) (rank : Nat × Nat) : State :=
  (banksOf a n).foldl (fun s b => s.usePort ⟨b, wr, r.ctx != some 4, rank.1, rank.2, r.key, a, a + n⟩) s

/-- The ports that a request wants by its requester's rank. -/
def State.wantPorts (s : State) (r : Requester) (a n : Nat) (wr : Bool) : State :=
  s.usePorts r a n wr (portRank ((a - clusterBase) / 0x1000000) wr r)

/-- The bytes of a range as they stood before the writes of this tick (R108).
LOG 25, 174 (DESIGN CHOICE). -/
def State.rowBytes (s : State) (a n : Nat) : List Byte :=
  let old := s.now.olds
  if old.isEmpty then s.mem.read a n else (List.range n).map fun i => (assoc old (a + i)).getD (s.mem.get (a + i))

/-- Scratchpad bytes that are about to be written, kept for this tick's reads (R108). -/
def State.keepRow (s : State) (a n : Nat) : State :=
  match regionOf a with
  | .scratch _ _ =>
    let old := s.now.olds
    { s with ports := { s.now with olds := old ++ ((List.range n).filter fun i => (assoc old (a + i)).isNone).map fun i => (a + i, s.mem.get (a + i)) } }
  | _ => s

/-! ## Reads -/

/-- Why an access was not performed. -/
inductive AccErr where
  | unmapped
  | chipId
  | locked
  | ue
  | atomicInvalid
  deriving DecidableEq, Repr

/-- What a read gives: its bytes, zeros where it was not performed, and why. -/
structure RdRes where
  bytes : List Byte
  err : Option AccErr
  deriving DecidableEq, Repr

/-- An LPDDR6 error is recorded in MC_ECC_STATUS and MC_ECC_ADDR of channel c (R423, Table 19-8): kind 0 uncorrectable, 1 corrected,
2 a successful retry; a more serious first error takes the place of a lesser one.
LOG 94 (DESIGN CHOICE). -/
def State.mcNote (s : State) (c cha kind : Nat) (patrol : Bool) (symbol : Nat) : State :=
  let v := s.rd (mcReg c 8)
  let record := (List.range (kind + 1)).all fun k => !bit v (31 - k)
  let s := if record then
      ((s.wr (mcReg c 8) (setBits (setBit (setBit v 28 (bit cha 5)) 27 patrol) 26 24 symbol)).wr (mcReg c 0xC) (cha % 2 ^ 32)).wr (mcReg c 0x10) (cha / 2 ^ 32 % 4)
    else s
  s.orReg (mcReg c 8) (2 ^ (31 - kind))

/-- A corrected on-chip word waits for its write-back (R113). -/
def State.owesBack (s : State) (w : Nat) : State := if s.spBack.contains w then s else { s with spBack := s.spBack ++ [w] }

/-- One word in error met by a read: recorded, counted and raised (R113, R114, R127, R423).
LOG 67 (DESIGN CHOICE). -/
def State.eccHit (s : State) (r : Requester) (e : Nat × Bool) : State :=
  let a := e.1 * 8
  match regionOf a with
  | .scratch c o =>
    let s := s.eccNote (clReg c 0x300) e.2 (o / 64 % 32) (o / 2048) (o / 8 % 8)
    let s := if e.2 then s else (s.countUp (clReg c 0x304) 1).owesBack e.1
    s.raise (if e.2 then .spUe else .spCe) (scopeOf (s.ownerOf c)) { req := r.index, ctx := r.ctx.getD 0xFF, unit := o / 64 % 32, info0 := a % 2 ^ 32, info1 := a / 2 ^ 32, cluster := r.cluster, task := (r.cluster.bind fun c => r.ctx.bind fun x => (s.ctx c x).task) }
  | .accum c o =>
    let s := s.eccNote (accReg c 0) e.2 (o / 0x10000) (o % 0x10000 / 256) (o / 8 % 32)
    let s := if e.2 then s else s.countUp (accReg c 4) 1
    s.raise (if e.2 then .accUe else .accCe) (scopeOf (s.ownerOf c)) { req := r.index, ctx := r.ctx.getD 0xFF, unit := o / 0x10000, info0 := a % 2 ^ 32, info1 := a / 2 ^ 32, cluster := r.cluster, task := (r.cluster.bind fun c => r.ctx.bind fun x => (s.ctx c x).task) }
  | .pool o =>
    let s := if e.2 then s else s.owesBack e.1
    s.raise (if e.2 then .poolUe else .poolCe) (scopeOf (assoc s.poolBanks (o / 0x80000))) { req := r.index, ctx := r.ctx.getD 0xFF, unit := o / 0x80000, info0 := a % 2 ^ 32, info1 := a / 2 ^ 32, cluster := r.cluster, task := (r.cluster.bind fun c => r.ctx.bind fun x => (s.ctx c x).task) }
  | .lpddr =>
    if e.2 then
      let c := ((s.lpChan a).getD (0, 0)).1
      let s := s.mcNote c ((s.lpChan a).getD (0, 0)).2 0 false 7
      (s.countUp (mcReg c 0x18) 1).raise .mcUe (scopeOf (s.chanOwner c)) { req := r.index, ctx := r.ctx.getD 0xFF, unit := c, info0 := a % 2 ^ 32, info1 := a / 2 ^ 32, cluster := r.cluster, task := (r.cluster.bind fun c => r.ctx.bind fun x => (s.ctx c x).task) }
    else s
  | _ => s

/-- A read of n bytes of populated local memory: corrected errors are noted, an uncorrectable one withholds the data. -/
def State.memFetch (s : State) (r : Requester) (a n : Nat) : RdRes × State :=
  if !s.mapped a n then (⟨List.replicate n 0, some .unmapped⟩, s.raiseReq .addrUnmapped r a)
  else if s.rinseLocked a n then (⟨List.replicate n 0, some .locked⟩, s.raiseReq .rinseLocked r a)
  else
    let bad := s.errWords a n
    let s1 := bad.foldl (fun s e => s.eccHit r e) (if a < lpddrTop then s.mcBytes a n false else s)
    if bad.any Prod.snd then (⟨List.replicate n 0, some .ue⟩, s1) else (⟨s.rowBytes a n, none⟩, s1)

/-- A read by a requester that wants the general read port of the banks it reaches (R108).
LOG 174 (DESIGN CHOICE). -/
def State.memRead (s : State) (r : Requester) (a n : Nat) : RdRes × State :=
  (if s.mapped a n && !s.rinseLocked a n then s.wantPorts r a n false else s).memFetch r a n

/-- The sources that the Steward's own writes owe are raised (R133).
LOG 173 (DESIGN CHOICE). -/
def State.payOwed (s : State) : State := s.owed.foldl (fun s e => s.raise e.1 e.2.1 e.2.2) { s with owed := [] }

/-! ## Writes (R112, R421) -/

/-- Whether a write of this tick that the port serves later holds a byte (R111, R118).
LOG 25 (DESIGN CHOICE). -/
def State.servedLater (s : State) (r : Requester) (a : Nat) : Bool :=
  let k := portRank ((a - clusterBase) / 0x1000000) true r
  s.now.uses.any fun v => v.wr && v.req != r.key && decide (v.lo ≤ a) && decide (a < v.hi) &&
    (match bankOf a with
      | some b => PortUse.wins ⟨b, true, r.ctx != some 4, k.1, k.2, r.key, 0, 0⟩ v (s.bankTick b)
      | none => false)

/-- Bytes written where a test lets them. -/
def Memory.writeIf (m : Memory) (f : Nat → Bool) (a : Nat) (l : List Byte) : Memory :=
  l.zipIdx.foldl (fun m e => if f (a + e.2) then m.put (a + e.2) e.1 else m) m

/-- Bytes written to populated local memory. Each word or burst covered in part is read first: a corrected error is noted, and an
uncorrectable one stays as it is with its bytes; every other word written is correctable again (R112).
LOG 27 (DESIGN CHOICE). -/
def State.memWrite (s : State) (r : Requester) (a : Nat) (l : List Byte) : Option AccErr × State :=
  let n := l.length
  if !s.mapped a n then (some .unmapped, s.raiseReq .addrUnmapped r a)
  else if s.rinseLocked a n then (some .locked, s.raiseReq .rinseLocked r a)
  else
    let part := s.partWords a n
    let err := if part.any Prod.snd then some AccErr.ue else none
    let s := part.foldl (fun s e => s.eccHit r e) s
    let ok := fun b => !inUe part b && !s.servedLater r b
    let m := { s.mem with bad := s.mem.bad.filter fun e => !(decide (a / eccUnit a * eccUnit a ≤ e.1 * 8) && decide (e.1 * 8 < a + n)) || inUe part (e.1 * 8) }
    let m := if (List.range n).all fun i => ok (a + i) then m.write a l else m.writeIf ok a l
    let s := if a < lpddrTop then s.mcBytes a n true else (s.keepRow a n).wantPorts r a n true
    (err, { s with mem := m })

/-! ## Atomic operations (R128, R129, R421) -/

/-- The new value of a word under an atomic operation.
LOG 29 (DESIGN CHOICE). -/
def atomicNew (op : AtomicOp) (old operand expected : Nat) : Nat :=
  match op with
  | .add => (old + operand) % 2 ^ 64
  | .swap => operand % 2 ^ 64
  | .cas => if old = expected % 2 ^ 64 then operand % 2 ^ 64 else old
  | .fadd => fadd old (operand % 2 ^ 32)
  | .fetch => (old + operand % 2 ^ 32) % 2 ^ 64

/-- The bytes an atomic operation works on: 4 for FP32 add, 8 otherwise. -/
def atomicLen (op : AtomicOp) : Nat := match op with
  | .fadd => 4
  | _ => 8

/-- Whether a place performs an atomic operation (R19). -/
def placeAtomic (op : AtomicOp) (g : Region) : Bool :=
  match g with
  | .pool _ => true
  | .lpddr => true
  | .chipCtr _ => op == .fetch
  | _ => false

/-- ND_VALUE of a partition counts an event, and latches the first one with its source and requester (R326, R327).
LOG 30 (DESIGN CHOICE). -/
def State.ndValue (s : State) (p : Option Nat) (src : Nat) (r : Requester) : State :=
  match p with
  | some p =>
    if p < 4 then
      let f := stReg (0x3020 + 0x40 * p)
      let w := 2 ^ 31 + src * 2 ^ 24 + r.index % 1024
      let s := if bit (s.rd f) 31 then s else s.wr f w
      (s.count64Hold (stReg (0x3010 + 0x40 * p)) 1).ndNote p w
    else s
  | none => s

/-- An atomic operation on a local address: the value before it. -/
def State.memAtomic (s : State) (r : Requester) (op : AtomicOp) (a operand expected : Nat) : (Nat × Option AccErr) × State :=
  let n := atomicLen op
  if op = .fadd ∧ a < lpddrTop ∧ s.mapped a n = true then ((0, some .atomicInvalid), s.raiseReq .mcAtomicInvalid r a)
  else if !s.mapped a n || a % n != 0 || !placeAtomic op (regionOf a) then ((0, some .unmapped), s.raiseReq .addrUnmapped r a)
  else if s.rinseLocked a n then ((0, some .locked), s.raiseReq .rinseLocked r a)
  else
    let rd := s.memRead r a n
    match rd.1.err with
    | some e => ((0, some e), rd.2)
    | none =>
      let old := leNat rd.1.bytes
      let s := if op = .fadd then rd.2.ndValue (s.memOwner a) 1 r else rd.2
      ((old, none), (s.memWrite r a (leBytes n (atomicNew op old operand expected))).2)

/-- What an access error is to the task of a cluster unit: the CAUSE of its completion word (Table 07-1). -/
def AccErr.cause : AccErr → Nat
  | .ue => 5
  | _ => 6

/-- What follows a read: `err` where it failed, `ok` with its bytes where it did not. -/
def afterRead {α : Type} (r : RdRes × State) (err : AccErr → State → α × State) (ok : List Byte → State → α × State) : α × State :=
  match r.1.err with
  | some e => err e r.2
  | none => ok r.1.bytes r.2

/-- What follows a write: `err` where it failed, `ok` where it did not. -/
def afterWrite {α : Type} (w : Option AccErr × State) (err : AccErr → State → α × State) (ok : State → α × State) : α × State :=
  match w.1 with
  | some e => err e w.2
  | none => ok w.2

end Sys2Proof.Machine
end

