-- ==== Sys2Proof/Machine/Links.lean ====
section
/-! DEFINITION. Requests to other chips (R22, R370, R372, R375, R381): routes, packets, outstanding requests. -/

namespace Sys2Proof.Machine

/-- Spout port n beside its registers. -/
def State.port (s : State) (n : Nat) : SpPort := sparseGet SpPort.idle s.sp.ports n
/-- Spout port n set. -/
def State.setPort (s : State) (n : Nat) (v : SpPort) : State :=
  { s with sp := { s.sp with ports := sparsePut SpPort.idle s.sp.ports n v } }

/-- This chip's ID in effect. -/
def State.selfId (s : State) : Nat := s.fld (spGlob 0) 6 0

/-- The live routing entry of a chip: VALID, LOCAL and the port (Table 17-2). -/
def State.routeOf (s : State) (d : Nat) : Option Nat :=
  let b := bits (s.rd (spGlob (0x10000 + d / 4 * 4))) (8 * (d % 4) + 7) (8 * (d % 4))
  if bit b 7 && !bit b 2 then some (bits b 1 0) else none

/-- Whether port n is up. -/
def State.portUp (s : State) (n : Nat) : Bool := s.fld (spReg n 0) 2 0 == 3

/-- The PORTCFG byte of port n in effect. -/
def State.portCfg (s : State) (n : Nat) : Nat := s.rd (spReg n 4)

/-- Whether a requester may send (R375): the Steward, or one of the partition that owns the enabled ports.
LOG 76 (DESIGN CHOICE). -/
def State.maySend (s : State) (r : Requester) : Bool :=
  r == .steward || (List.range s.nSpouts).any fun n => bit (s.portCfg n) 0 && s.spOwner n == s.partOf r && (s.partOf r).isSome

/-- The packet codes of Table 17-4. -/
def kWrite : Nat := 0x01
def kRead : Nat := 0x02
def kAtomic : Nat := 0x03
def kSignal : Nat := 0x04
def kWatch : Nat := 0x05
def kWake : Nat := 0x06
def kAck : Nat := 0x10
def kData : Nat := 0x11
def kError : Nat := 0x12
def kIdent : Nat := 0x20
def kCalib : Nat := 0x21
def kArrive : Nat := 0x22
def kGo : Nat := 0x23

/-- The code of an atomic operation in a header.
LOG 29 (DESIGN CHOICE). -/
def atomicCode : AtomicOp → Nat
  | .add => 0
  | .swap => 1
  | .cas => 2
  | .fadd => 3
  | .fetch => 4

/-- The atomic operation of a header code.
LOG 78 (DESIGN CHOICE). -/
def atomicOf (c : Nat) : Option AtomicOp :=
  match c with
  | 0 => some .add
  | 1 => some .swap
  | 2 => some .cas
  | 3 => some .fadd
  | 4 => some .fetch
  | _ => none

/-- A packet leaves through a port (R365, R370): its TTL falls by one, DATELINE moves it to virtual channel 1, the block that
carries it enters the replay buffer.
LOG 76 (DESIGN CHOICE). -/
def State.transmit (s : State) (n : Nat) (pkt : SpoutPacket) : State :=
  let pkt := { pkt with ttl := pkt.ttl - 1, vc := if bit (s.portCfg n) 2 then 1 else pkt.vc }
  let p := s.port n
  let s := s.setPort n { p with txNext := (p.txNext + 1) % 2 ^ 16, buf := (if 128 ≤ p.buf.length then p.buf.drop 1 else p.buf) ++ [(p.txNext, pkt)] }
  (s.count64Hold (spReg n 0x20) (16 + pkt.payload.length)).send (.packet n pkt)

/-- A packet that this chip originates, by its route.
LOG 84 (DESIGN CHOICE). -/
def State.originate (s : State) (pkt : SpoutPacket) : State :=
  match s.routeOf pkt.dest with
  | some n => if s.portUp n then s.transmit n { pkt with ttl := 15, vc := 0 } else s
  | none => s

/-- A request to send to another chip. -/
structure SpSend where
  kind : Nat
  dest : Nat
  len : Nat
  op : Nat
  tagged : Bool
  addr : Nat
  payload : List Byte
  cmd : Option (Nat × Nat)
  deriving DecidableEq, Repr

/-- A request sent: its tag, or none where it completes at once with an error response (R22, R370, R375, R382). -/
def State.spSend (s : State) (r : Requester) (timed : Bool) (q : SpSend) : Option Nat × State :=
  let ga := q.dest * 2 ^ 41 + q.addr
  if 96 ≤ q.dest then (none, s.raiseReq .chipIdInvalid r ga)
  else if !s.maySend r then (none, s.raiseReq .spNoRoute r ga)
  else if timed && q.kind != kWrite && !(q.kind == kSignal && q.op == 0) then
    let s := s.raiseReq .spTimedRemote r ga
    (none, match r.cluster, r.ctx with
      | some c, some x => s.abortCtx c x 6
      | _, _ => s)
  else match s.routeOf q.dest with
    | none => (none, s.raiseReq .spNoRoute r ga)
    | some n =>
      if !s.portUp n || (match s.spOwner n with
          | some p => s.scopeStopped p
          | none => false) then (none, s)
      else
        let t := s.sp.nextTag
        let pkt : SpoutPacket :=
          { kind := q.kind, cls := if timed then 0 else 3, vc := 0, ttl := 15, dest := q.dest, src := s.selfId, req := r.index, len := q.len,
            atomicOp := q.op, tagged := q.tagged, addr := q.addr, tag := t, payload := q.payload }
        let s := s.transmit n pkt
        let rec_ : SpReq := { tag := t, req := r, kind := q.kind, dest := q.dest, port := n, addr := q.addr, at_ := s.clock.urn, cmd := q.cmd }
        (some t, { s with sp := { s.sp with nextTag := (t + 1) % 2 ^ 16, reqs := if q.kind = kWake then s.sp.reqs else s.sp.reqs ++ [rec_] } })

end Sys2Proof.Machine
end

