-- ==== Sys2Proof/Machine/Determinism.lean ====
section
/-! DEFINITION. Determinism (R322–R331): the Steep generator, the counters and their clears, the SEED command. -/

namespace Sys2Proof.Machine

/-! ## Steep (R322) -/

/-- A rotation of a 32-bit word to the left. -/
def rotl32 (v r : Nat) : Nat := (v * 2 ^ r + v % 2 ^ 32 / 2 ^ (32 - r)) % 2 ^ 32

/-- The six words a round of Steep works on: the keys k0 and k1, and a, b, c, d. -/
structure SteepSt where
  k0 : Nat
  k1 : Nat
  a : Nat
  b : Nat
  c : Nat
  d : Nat
  deriving DecidableEq, Repr

/-- One round of Steep. -/
def steepRound (x : SteepSt) : SteepSt :=
  let a1 := (x.a + x.k0) % 2 ^ 32
  let c1 := (x.c ^^^ x.k1) % 2 ^ 32
  let a2 := (a1 + x.b) % 2 ^ 32
  let d2 := rotl32 (x.d ^^^ a2) 13
  let c3 := (c1 + d2) % 2 ^ 32
  let b3 := rotl32 (x.b ^^^ c3) 9
  let a4 := (a2 + b3) % 2 ^ 32
  let d4 := rotl32 (d2 ^^^ a4) 11
  let c5 := (c3 + d4) % 2 ^ 32
  let b5 := rotl32 (b3 ^^^ c5) 5
  { k0 := (x.k0 + 0x6A3DC2B1) % 2 ^ 32, k1 := (x.k1 + 0xD1B54A33) % 2 ^ 32, a := a4, b := b5, c := c5, d := d4 }

/-- The Steep word of a seed and a counter. -/
def steep (seed step lane stream : Nat) : Nat :=
  let x0 : SteepSt := { k0 := seed % 2 ^ 32, k1 := seed / 2 ^ 32 % 2 ^ 32, a := step % 2 ^ 32, b := step / 2 ^ 32 % 2 ^ 32, c := lane % 2 ^ 32, d := stream % 2 ^ 32 }
  let x := (List.range 8).foldl (fun x _ => steepRound x) x0
  x.a ^^^ x.b ^^^ x.c ^^^ x.d

/-- The FP32 value in [0, 1) of a Steep word: its top 24 bits times 2^-24, exactly. -/
def steepUnit (w : Nat) : Nat := toF32 (.fin false (w / 256) (-24))

/-! ## Counters -/

/-- A register of partition p's determinism block. -/
def detReg (p o : Nat) : Nat := stReg (0x3000 + 0x40 * p + o)

/-- ND_TIMING cleared before the events of the same tick (R328). -/
def State.clearTiming (s : State) (p : Nat) : State := s.wr64 (detReg p 0x08) (s.now.nd.filter fun e => e.1 == p && e.2 == 0).length
/-- ND_VALUE and ST_ND_VALUE_FIRST cleared before the events of the same tick (R328). -/
def State.clearValue (s : State) (p : Nat) : State :=
  let l := s.now.nd.filter fun e => e.1 == p && e.2 != 0
  (s.wr64 (detReg p 0x10) l.length).wr (detReg p 0x20) ((l.head?.map Prod.snd).getD 0)

/-- CLR_TIMING: a write of ST_DET_CTRL bit 0; other requesters than the Steward are ignored. -/
def execClrTiming (r : Requester) (p : Nat) (s : State) : Host.Outcome State Fault Refusal :=
  .next (if r == .steward && decide (p < 4) then s.clearTiming p else s)

/-- CLR_VALUE. -/
def execClrValue (r : Requester) (p : Nat) (s : State) : Host.Outcome State Fault Refusal :=
  .next (if r == .steward && decide (p < 4) then s.clearValue p else s)

/-- ND_CLEAR (R328): bit 0 of the argument clears ND_TIMING, bit 1 ND_VALUE. -/
def State.ndClear (s : State) (ring idx : Nat) (k : Cmd) : State :=
  let m := k.arg 8 8
  if 4 ≤ k.part ∨ 4 ≤ m then s.complete ring idx stInvalid 0 0
  else
    let s := if bit m 0 then s.clearTiming k.part else s
    let s := if bit m 1 then s.clearValue k.part else s
    s.complete ring idx stOk 0 0

/-- ND_CLEAR. -/
def execNdClear (ring idx : Nat) (s : State) : Host.Outcome State Fault Refusal :=
  .next (s.mbox ring idx 0x0B fun k s => s.ndClear ring idx k)

/-- A SEED or SEQ_SET held until its apply moment. -/
def State.hold (s : State) (h : Held) : State := { s with st := { s.st with held := s.st.held ++ [h] } }

/-- SEED (R324, R330): held until the build it names, or the next one; refused where that step has been built. -/
def State.seedCmd (s : State) (ring idx : Nat) (k : Cmd) : State :=
  if 4 ≤ k.part then s.complete ring idx stInvalid 0 0
  else
    let ap := k.arg 0x10 8
    if ap ≠ 0 ∧ ap ≤ s.rd64 (stReg (0x2008 + 0x40 * k.part)) then s.complete ring idx stRefused 0 0
    else s.hold { ring := ring, idx := idx, part := k.part, apply := ap, due := false, seed := some (k.arg 0x18 8), seq := 0, entry := [] }

/-- SEED. -/
def execSeed (ring idx : Nat) (s : State) : Host.Outcome State Fault Refusal :=
  .next (s.mbox ring idx 0x09 fun k s => s.seedCmd ring idx k)

end Sys2Proof.Machine
end

