-- ==== Sys2Proof/Machine/Translation.lean ====
section
/-! DEFINITION. Address translation (R246–R261): page-table walks, the translation store and micro-tables, locked entries,
page-fault records, fences, the LPDDR6 zero-fill. -/

namespace Sys2Proof.Machine

/-! ## Walks (R246–R249) -/

/-- The answer of a translation: the global address; a not-present or rights result with its page-fault cause (Table 11-3)
and level; a malformed table; uncorrectable table data; a timed miss. -/
inductive XRes where
  | ok (ga : Nat)
  | fault (cause level : Nat)
  | invalid
  | ue
  | timedMiss
  deriving DecidableEq, Repr

/-- A leaf found by a walk: its entry and the address bits of its page. -/
structure Leaf where
  pte : Nat
  size : Nat
  deriving DecidableEq, Repr

/-- Whether an entry is malformed at its level (R247): reserved bits, a forbidden LEAF, rights in a pointer, a pointer
that is not local, a large page that is not aligned. -/
def pteBad (level pte : Nat) : Bool :=
  let leaf := bit pte 1
  bits pte 13 6 != 0 || bits pte 55 48 != 0 || (level == 1 && leaf) || (level == 3 && !leaf) ||
  (!leaf && (bits pte 5 2 != 0 || bits pte 47 41 != 127)) || (leaf && level == 2 && bits pte 24 14 != 0)

/-- The table index of an address at a level (R246). -/
def tableIndex (level va : Nat) : Nat := va / 2 ^ (14 + 11 * (3 - level)) % 2048

/-- The page-fault cause of a missing right (Table 11-3). -/
def rightCause : Right → Nat
  | .read => 2
  | .write => 3
  | .atomic => 4

/-- A walk from the table at `base` of `level`; `fuel` levels at most. -/
def State.walkFrom (s : State) (r : Requester) (va : Nat) : Nat → Nat → Nat → (Leaf ⊕ XRes) × State
  | 0, _, _ => (.inr .invalid, s)
  | fuel + 1, level, base =>
    let rd := s.memRead r (base + 8 * tableIndex level va) 8
    match rd.1.err with
    | some .ue => (.inr .ue, rd.2)
    | some _ => (.inr .invalid, rd.2)
    | none =>
      let pte := leNat rd.1.bytes
      if !bit pte 0 then (.inr (.fault 1 level), rd.2)
      else if pteBad level pte then (.inr .invalid, rd.2)
      else if bit pte 1 then (.inl ⟨pte, if level = 3 then 14 else 25⟩, rd.2)
      else State.walkFrom rd.2 r va fuel (level + 1) (bits pte 40 14 * 2 ^ 14)

/-- Whether a leaf grants a right. -/
def leafGrants (pte : Nat) : Right → Bool
  | .read => bit pte 2
  | .write => bit pte 3
  | .atomic => bit pte 4

/-- The ASID of context x (Table 11-6). -/
def State.asidOf (s : State) (c x : Nat) : Nat := s.fld (clReg c (0x900 + 0x10 * x)) 11 0

/-- A ROOT snapshot: the level-2 table, the sequence and its GEN (R227). -/
structure Snap where
  root : Nat
  seq : Nat
  gen : Nat
  deriving DecidableEq, Repr

/-! ## Caches (R250–R252) -/

/-- The two set indices of a lookup (R251).
LOG 51 (DESIGN CHOICE). -/
def setIndex (size va asid : Nat) : Nat := (va / 2 ^ size ^^^ (asid * 0x0B5)) % 0x1000

/-- Whether a cached entry answers a lookup. -/
def Xl.hits (e : Xl) (part asid va : Nat) (snap : Option Snap) : Bool :=
  e.part == part && e.asid == asid && e.va == va / 2 ^ e.size * 2 ^ e.size &&
  (match snap with
    | none => e.snap == none
    | some q => e.snap == some (q.seq, q.gen))

/-- Whether a cached entry grants a right. -/
def Xl.grants (e : Xl) : Right → Bool
  | .read => e.r
  | .write => e.w
  | .atomic => e.a

/-- The global address a cached entry gives. -/
def Xl.apply (e : Xl) (va : Nat) : Nat := e.ga + va % 2 ^ e.size

/-- A cached entry's answer. -/
def Xl.answer (e : Xl) (va : Nat) (right : Right) : XRes :=
  if e.grants right then .ok (e.apply va) else .fault (rightCause right) (if e.size = 14 then 3 else 2)

/-- The micro-table of cluster c. -/
def State.micro (s : State) (c : Nat) : List Xl := sparseGet [] s.tu.micro c

/-- An entry enters the micro-table of 64 entries, round-robin; it is not lockable there (Table 11-2).
LOG 51 (DESIGN CHOICE). -/
def State.putMicro (s : State) (c : Nat) (e : Xl) : State :=
  let l := s.micro c
  { s with tu := { s.tu with micro := sparsePut [] s.tu.micro c ((if 64 ≤ l.length then l.drop 1 else l) ++ [{ e with locked := false }]) } }

/-- The first element that satisfies a test removed. -/
def dropFirst {α : Type} (f : α → Bool) : List α → List α
  | [] => []
  | x :: r => if f x then r else x :: dropFirst f r

/-- The set of the store that an entry lies in: both page sizes share the 4,096 sets (R251). -/
def Xl.set (e : Xl) : Nat := setIndex e.size e.va e.asid

/-- Whether two entries answer the same lookups. -/
def Xl.same (e q : Xl) : Bool := e.part == q.part && e.asid == q.asid && e.va == q.va && e.size == q.size && e.snap == q.snap

/-- The seven bits of a set's tree after a use of way w: every node on its path points away from it. -/
def plruTouch (b w : Nat) : Nat :=
  ([2, 1, 0].foldl (fun (acc : Nat × Nat) i => (setBit acc.1 (acc.2 - 1) (!bit w i), 2 * acc.2 + b2n (bit w i))) (b, 1)).1

/-- The way that a set's tree names among those that are not locked.
LOG 51 (DESIGN CHOICE). -/
def plruVictim (b : Nat) (locked : Nat → Bool) : Nat :=
  ([2, 1, 0].foldl (fun (acc : Nat × Nat) i =>
    let full := fun (d : Nat) => (List.range (2 ^ i)).all fun k => locked (acc.2 + d * 2 ^ i + k)
    let want := b2n (bit b (acc.1 - 1))
    let d := if full want then 1 - want else want
    (2 * acc.1 + d, acc.2 + d * 2 ^ i)) (1, 0)).2

/-- A use of an entry of the store. -/
def Tu.touch (u : Tu) (e : Xl) : Tu := { u with plru := sparsePut 0 u.plru e.set (plruTouch (sparseGet 0 u.plru e.set) e.way) }

/-- An entry enters the store: in the place of one that answers the same lookups, else in a free way of its set, else in the place of the one
that pseudo-LRU names among the unlocked ones (Table 11-2). An unlocked entry replaces no locked one.
LOG 51 (DESIGN CHOICE). -/
def putStore (u : Tu) (e : Xl) : Tu :=
  let mine := u.store.filter fun q => q.set == e.set
  if mine.any fun q => q.same e && q.locked && !e.locked then u
  else
    let way := match mine.find? (·.same e), (List.range 8).find? fun w => !mine.any (·.way == w) with
      | some q, _ => q.way
      | none, some w => w
      | none, none => plruVictim (sparseGet 0 u.plru e.set) fun w => mine.any fun q => q.way == w && q.locked
    let e := { e with way := way }
    ({ u with store := u.store.filter (fun q => !(q.set == e.set && q.way == way)) ++ [e] } : Tu).touch e

/-- The cached form of a leaf. -/
def leafXl (lf : Leaf) (part asid va : Nat) (snap : Option Snap) (locked : Bool) : Xl :=
  { asid := asid, va := va / 2 ^ lf.size * 2 ^ lf.size, size := lf.size, ga := bits lf.pte 47 14 * 2 ^ 14,
    r := bit lf.pte 2, w := bit lf.pte 3, a := bit lf.pte 4, snap := snap.map fun q => (q.seq, q.gen), locked := locked, part := part, way := 0 }

/-- TU_PTE_INVALID of a walk. -/
def State.pteInvalid (s : State) (r : Requester) (c x va : Nat) : State :=
  s.raiseCl .tuPteInvalid c (some x) r.index 0 (va % 2 ^ 32) (va / 2 ^ 32)

/-- TU_WALKS counts a walk. -/
def State.walked (s : State) : State := s.count64 (tuReg 0x20) 1

/-- Whether a fence command drops an entry (Table 11-5). -/
def fenceHits (cmd : Nat) (e : Xl) : Bool :=
  e.part == bits cmd 3 2 && !e.locked &&
  (match bits cmd 1 0 with
    | 0 => e.asid == bits cmd 15 4
    | 1 => e.asid == bits cmd 15 4 && e.va / 2 ^ 25 == bits cmd 63 42
    | 2 => (match e.snap with
      | some (q, g) => q == bits cmd 25 16 && g != bits cmd 41 26
      | none => false)
    | _ => true)

/-- Whether an outstanding SEQ fence keeps an entry from being cached: from its issue on it drops every entry of its sequence with another GEN,
also those that a step still running on an old snapshot walks anew (R257, R258). The other kinds drop what was cached before them. -/
def State.fenced (s : State) (e : Xl) : Bool := s.tu.fences.any fun f => bits f.cmd 1 0 == 2 && fenceHits f.cmd e

/-- A walked entry answers, and enters the store and the micro-table when it grants the right.
LOG 175 (DESIGN CHOICE). -/
def State.install (s : State) (c : Nat) (e : Xl) (va : Nat) (right : Right) : XRes × State :=
  match e.answer va right with
  | .ok ga => (.ok ga, if s.fenced e then s else ({ s with tu := putStore s.tu e } : State).putMicro c e)
  | q => (q, s)

/-- A walk for context x, its result installed in the store and in the cluster's micro-table (R248, R250). -/
def State.walk (s : State) (r : Requester) (c x va : Nat) (right : Right) (snap : Option Snap) : XRes × State :=
  let start := (snap.map fun q => (2, q.root)).getD (1, s.rootOf c x)
  let w := s.walkFrom r va 3 start.1 start.2
  let t := w.2.walked
  match w.1 with
  | .inl lf => t.install c (leafXl lf ((s.ownerOf c).getD 7) (s.asidOf c x) va snap false) va right
  | .inr q => (q, if q == .invalid then t.pteInvalid r c x va else t)

/-- A translation for context x (R250, R252): the timed context is served by locked entries alone; an elastic one looks in
its micro-table, then in the store, then walks. -/
def State.xlate (s : State) (r : Requester) (c x va : Nat) (right : Right) (snap : Option Snap) : XRes × State :=
  let part := (s.ownerOf c).getD 7
  let asid := s.asidOf c x
  if x = 4 then
    match s.tu.store.find? fun e => e.locked && e.hits part asid va none with
    | some e => if e.grants right then (.ok (e.apply va), s) else (.timedMiss, s)
    | none => (.timedMiss, s)
  else
    match (s.micro c).find? fun e => e.hits part asid va snap with
    | some e => (e.answer va right, s)
    | none =>
      match s.tu.store.find? fun e => e.hits part asid va snap || (e.locked && e.hits part asid va none) with
      | some e => (e.answer va right, ({ s with tu := s.tu.touch e } : State).putMicro c e)
      | none => s.walk r c x va right snap

/-! ## Failures of units that cannot suspend (R254, R255) -/

/-- What a translation that failed does to a unit that cannot suspend (R254, R255): the source raised and the task
aborted.
LOG 52 (DESIGN CHOICE). -/
def State.xlAbort (s : State) (r : Requester) (c x va : Nat) (q : XRes) : State :=
  match q with
  | .ok _ => s
  | .fault _ _ => (s.raiseCl .tuXlateAbort c (some x) r.index 0 (va % 2 ^ 32) (va / 2 ^ 32)).abortCtx c x 6
  | .timedMiss => (s.raiseCl .tuXlateTimed c (some x) r.index 0 (va % 2 ^ 32) (va / 2 ^ 32)).abortCtx c x 6
  | .invalid => s.abortCtx c x 6
  | .ue => s.abortCtx c x 5

/-! ## Memory for a context: translation, window check, access -/

/-- What an access for a context gives: its bytes, or none where it failed and the failure has been dealt with. -/
def State.bbViolation (s : State) (r : Requester) (c x ga : Nat) : State :=
  (s.raiseCl .bbViolation c (some x) r.index 0 (ga % 2 ^ 32) (ga / 2 ^ 32 % 2 ^ 16)).abortCtx c x 4

/-- The pieces of a virtual range that lie in one 16 KiB page each. -/
def vaPieces (va n : Nat) : List (Nat × Nat) :=
  if n = 0 then []
  else (List.range ((va + n - 1) / 0x4000 + 1 - va / 0x4000)).map fun i =>
    let lo := max va ((va / 0x4000 + i) * 0x4000)
    let hi := min (va + n) ((va / 0x4000 + i + 1) * 0x4000)
    (lo, hi - lo)

/-- A read that a whole step makes of another chip's memory: no response can come within the step.
LOG 68 (DESIGN CHOICE). -/
def State.farRead (s : State) (r : Requester) (ga : Nat) : State :=
  if 96 ≤ ga / 2 ^ 41 then s.raiseReq .chipIdInvalid r ga else s.raiseReq .spNoRoute r ga

/-- A write to another chip's memory: one WRITE packet for each 256 bytes.
LOG 68 (DESIGN CHOICE). -/
def State.farWrite (s : State) (r : Requester) (c x ga : Nat) (l : List Byte) : Bool × State :=
  let q := (List.range (ceilDiv l.length 256)).foldl (fun (acc : Bool × State) k =>
    if acc.1 then
      let d := (l.drop (256 * k)).take 256
      let p := acc.2.spSend r (x == 4) { kind := kWrite, dest := ga / 2 ^ 41, len := d.length, op := 0, tagged := false, addr := ga % 2 ^ 41 + 256 * k, payload := d, cmd := none }
      (p.1.isSome, p.2)
    else acc) (true, s)
  if q.1 then q else (false, q.2.abortCtx c x 6)

/-- A read through context x that cannot suspend (R538, R255): some bytes, or none after an abort. -/
def State.ctxRead1 (s : State) (r : Requester) (c x va n : Nat) (snap : Option Snap) : Option (List Byte) × State :=
  if 2 ^ 47 ≤ va then (none, s.abortCtx c x 6)
  else
    let q := s.xlate r c x va .read snap
    match q.1 with
    | .ok ga =>
      if !q.2.windowOk c x ga n .read then (none, q.2.bbViolation r c x ga)
      else match q.2.localOf ga with
        | some l =>
          let rd := q.2.memRead r l n
          match rd.1.err with
          | none => (some rd.1.bytes, rd.2)
          | some e => (none, rd.2.abortCtx c x e.cause)
        | none => (none, (q.2.farRead r ga).abortCtx c x 6)
    | e => (none, q.2.xlAbort r c x va e)

/-- A read of n bytes through context x. -/
def State.ctxRead (s : State) (r : Requester) (c x va n : Nat) : Option (List Byte) × State :=
  (vaPieces va n).foldl (fun acc p => match acc.1 with
    | some l =>
      let q := acc.2.ctxRead1 r c x p.1 p.2 none
      (q.1.map (l ++ ·), q.2)
    | none => acc) (some [], s)

/-- A write through context x that cannot suspend: whether it was performed. -/
def State.ctxWrite1 (s : State) (r : Requester) (c x va : Nat) (l : List Byte) : Bool × State :=
  if 2 ^ 47 ≤ va then (false, s.abortCtx c x 6)
  else
    let q := s.xlate r c x va .write none
    match q.1 with
    | .ok ga =>
      if !q.2.windowOk c x ga l.length .write then (false, q.2.bbViolation r c x ga)
      else match q.2.localOf ga with
        | some a =>
          let w := q.2.memWrite r a l
          match w.1 with
          | none => (true, w.2)
          | some e => (false, w.2.abortCtx c x e.cause)
        | none => q.2.farWrite r c x ga l
    | e => (false, q.2.xlAbort r c x va e)

/-- A write through context x, page by page. -/
def State.ctxWrite (s : State) (r : Requester) (c x va : Nat) (l : List Byte) : Bool × State :=
  (vaPieces va l.length).foldl (fun acc p =>
    if acc.1 then acc.2.ctxWrite1 r c x p.1 ((l.drop (p.1 - va)).take p.2) else acc) (true, s)

/-! ## Fences (R257, R258) -/

/-- The pieces in flight in a fence's partition that were translated through an entry it drops (cluster, channel, issue tick). -/
def State.fenceUsers (s : State) (cmd : Nat) : List (Nat × Nat × Nat) :=
  (s.clustersOf (bits cmd 3 2)).flatMap fun c =>
    let gone := (s.tu.store ++ s.micro c).filter (fenceHits cmd)
    (List.range 16).flatMap fun n => ((s.chan c n).inflight.filter fun q => q.pages.any fun v => gone.any fun e =>
      e.asid == s.asidOf c (s.fld (movReg c (0x100 + 0x20 * n)) 2 0) && e.snap.isNone && e.va == v * 2 ^ 14 / 2 ^ e.size * 2 ^ e.size).map fun q => (c, n, q.issue)

/-- A fence issued: every matching unlocked entry goes from the store and the micro-tables; with 16 outstanding it is
ignored and FENCE_BUSY set. -/
def State.fenceIssue (s : State) (cmd : Nat) (mb : Option (Nat × Nat)) : State :=
  if 16 ≤ s.tu.fences.length then s.orReg (tuReg 0) (2 ^ 9)
  else
    let keep := fun (e : Xl) => !fenceHits cmd e
    let micro := s.tu.micro.map fun (e : Nat × List Xl) => (e.1, e.2.filter keep)
    let f : Fence := { cmd := cmd, issue := s.ct, mb := mb, users := s.fenceUsers cmd }
    let s := { s with tu := { s.tu with store := s.tu.store.filter keep, micro := micro.filter fun e => !e.2.isEmpty, fences := s.tu.fences ++ [f] } }
    s.countWrap (tuReg 0x18) 1

/-- FENCE_ISSUE: the write of TU_FENCE_CMD_HI; only the Steward's issues a fence. -/
def execFenceIssue (r : Requester) (hi : Nat) (s : State) : Host.Outcome State Fault Refusal :=
  .next (if r == .steward then s.fenceIssue (hi % 2 ^ 32 * 2 ^ 32 + s.rd (tuReg 0x10)) none else s)

/-- Whether a fence may retire (R258): the accesses that used an entry it dropped have ended, and for a SEQ fence no running step holds a
snapshot of the sequence with another GEN and no cached entry carries such a tag (R228).
LOG 175 (DESIGN CHOICE). -/
def State.fenceDone (s : State) (f : Fence) : Bool :=
  (f.users.all fun u => (s.chan u.1 u.2.1).inflight.all fun q => q.issue != u.2.2) &&
  (bits f.cmd 1 0 != 2 ||
    ((s.step_ (bits f.cmd 3 2)).runs.all fun r => r.seq != bits f.cmd 25 16 || r.gen == bits f.cmd 41 26) &&
    ((s.tu.store ++ s.tu.micro.flatMap Prod.snd).all fun e => !fenceHits f.cmd e))

/-- The oldest fence retires. -/
def State.fenceRetire (s : State) (f : Fence) : State :=
  let s := ({ s with tu := { s.tu with fences := s.tu.fences.drop 1 } } : State).countWrap (tuReg 0x1C) 1
  match f.mb with
  | some (r, i) => s.complete r i stOk 0 0
  | none => s

/-- FENCE_RETIRE: fences retire in issue order. -/
def execFenceRetire (s : State) : Host.Outcome State Fault Refusal :=
  .next <| match s.tu.fences with
    | f :: _ => if s.fenceDone f then s.fenceRetire f else s
    | [] => s

/-- FENCE, the mailbox command (R257): the Steward issues the fence it carries, once there is room for it. -/
def execFence (ring idx : Nat) (s : State) : Host.Outcome State Fault Refusal :=
  .next <|
    if 16 ≤ s.tu.fences.length then s
    else s.mbox ring idx 0x0A fun k s =>
      let cmd := k.arg 8 8
      if k.part = bits cmd 3 2 then s.fenceIssue cmd (some (ring, idx)) else s.complete ring idx stInvalid 0 0

/-! ## Locks at Program load (R253) -/

/-- The valid leaves below a table with their virtual addresses, as a walker of requester r reads them, and whether every entry met was
readable and well formed; what lies behind one that is not stays out. -/
def State.leaves (s : State) (r : Requester) : Nat → Nat → Nat → Nat → (List (Nat × Leaf) × Bool) × State
  | 0, _, _, _ => (([], true), s)
  | fuel + 1, level, base, va =>
    (List.range 2048).foldl (fun acc i =>
      let rd := acc.2.memRead r (base + 8 * i) 8
      let pte := leNat rd.1.bytes
      let v := va + i * 2 ^ (14 + 11 * (3 - level))
      if rd.1.err.isSome then ((acc.1.1, false), rd.2)
      else if !bit pte 0 then (acc.1, rd.2)
      else if pteBad level pte then ((acc.1.1, false), rd.2)
      else if bit pte 1 then ((acc.1.1 ++ [(v, ⟨pte, if level = 3 then 14 else 25⟩)], acc.1.2), rd.2)
      else
        let q := State.leaves rd.2 r fuel (level + 1) (bits pte 40 14 * 2 ^ 14) v
        ((acc.1.1 ++ q.1.1, acc.1.2 && q.1.2), q.2)) (([], true), s)

/-- What locking a Program's timed leaves gives: the store with them, none where 8,192 locked entries or 2 locked ways in a set would be
exceeded (R253). -/
def lockLeaves (u : Tu) (p asid : Nat) (l : List (Nat × Leaf)) : Option Tu :=
  l.foldl (fun acc e => acc.bind fun u =>
    let x := leafXl e.2 p asid e.1 none true
    let locked := u.store.filter (·.locked)
    if locked.any (·.same x) then some u
    else if 8192 ≤ locked.length || 2 ≤ (locked.filter fun q => q.set == x.set).length then none
    else some (putStore u x)) (some u)

/-- The leaves of a timed task locked (R253): the state with them, or the source to raise beside the state.
LOG 151 (DESIGN CHOICE). -/
def State.lockTask (s : State) (p : Nat) (t : TaskRec) : Option Src × State :=
  let q := s.leaves .steward 3 1 t.root 0
  if !q.1.2 then (some .tuPteInvalid, q.2)
  else match lockLeaves q.2.tu p t.asid q.1.1 with
    | some u => (none, { q.2 with tu := u })
    | none => (some .tuLockFull, q.2)

/-- The leaves of every timed task of a Program locked (R253). -/
def State.lockProgram (s : State) (p : Nat) (g : Program) : Option Src × State :=
  (g.tasks.filter (·.timed)).foldl (fun acc t => if acc.1.isSome then acc else acc.2.lockTask p t) (none, s)

/-- The locks of a partition released (R253). -/
def State.unlock (s : State) (p : Nat) : State :=
  { s with tu := { s.tu with store := s.tu.store.filter fun e => !(e.locked && e.part == p) } }

/-! ## LPDDR6 scrubbing (R259) -/

/-- The page of a leaf when its Z bit is set and it lies inside [lo, hi]. -/
def State.zPage (s : State) (lo hi : Nat) (lf : Leaf) : Option (Nat × Nat) :=
  (s.localOf (bits lf.pte 47 14 * 2 ^ 14)).bind fun a =>
    if bit lf.pte 5 && decide (lo ≤ a) && decide (a + 2 ^ lf.size ≤ hi + 1) then some (a, 2 ^ lf.size) else none

/-- The Z pages of a locked window's tables, zeroed (R259).
LOG 153 (DESIGN CHOICE). -/
def State.zeroWindow (s : State) (r : Requester) (e : ScrubLock) : State :=
  let q := s.leaves r 3 1 e.root 0
  let pages := q.1.1.filterMap fun l => s.zPage e.lo e.hi l.2
  { q.2 with mem := pages.foldl (fun m p => m.zero p.1 p.2) q.2.mem }

/-- LPDDR6_ZERO_FILL: once the accesses of the context (or of slot x − 8) have ended, every Z leaf page inside its locked windows is zeroed, and
the windows unlock. A resident context's accesses have ended when its Rinse has started (R131).
LOG 153 (DESIGN CHOICE). -/
def execLpddr6ZeroFill (c x : Nat) (s : State) : Host.Outcome State Fault Refusal :=
  .next <|
    let mine := s.tu.scrub.filter fun e => e.locked && e.cluster == c && e.ctx == x
    if !mine.isEmpty && !(s.rinses.any fun k => k.cluster == c && k.ctx == x && !k.swapped && !k.started) then
      let s := mine.foldl (fun s e => s.zeroWindow (.steward) e) s
      { s with tu := { s.tu with scrub := s.tu.scrub.filter fun e => !(e.locked && e.cluster == c && e.ctx == x) } }
    else s

/-- The stored value of word `word` of a window: reserved bits read as 0. -/
def bbStored (word value : Nat) : Nat :=
  match word with
  | 0 => value / 8 * 8
  | 1 => value % 2 ^ 16
  | 2 => value / 256 * 256
  | _ => value % 2 ^ 16

/-- The scrub-lock entry that window w asks for: its LPDDR6 range while V and SCRUB are set (R259). -/
def State.scrubAsk (s : State) (c x w : Nat) : Option ScrubLock :=
  let d := s.window c x w
  (s.localOf d.lo).bind fun lo => (s.localOf d.hi).bind fun hi =>
    if d.v && d.scrub && decide (hi < lpddrTop) then
      some { cluster := c, ctx := x, win := w, lo := lo, hi := hi, locked := false, root := 0 }
    else none

/-- The scrub-lock entries of a window dropped, those a teardown has locked kept. -/
def State.scrubDrop (s : State) (c x w : Nat) : State :=
  { s with tu := { s.tu with scrub := s.tu.scrub.filter fun e => e.locked || !(e.cluster == c && e.ctx == x && e.win == w) } }

/-- Word 0 of a window has been written: its scrub-lock entry is reserved, or V stays clear (R259). -/
def State.scrubReserve (s : State) (c x w : Nat) : State :=
  (s.scrubAsk c x w).elim s fun e =>
    if 256 ≤ s.tu.scrub.length then (s.setFld (bbReg c x w 0) 7 7 0).raiseCl .tuScrubFull c (some x) 0x3FF w 0 0
    else { s with tu := { s.tu with scrub := s.tu.scrub ++ [e] } }

/-- A window write (R121, R259): by the Steward or the cluster sequencer; a write that makes an LPDDR6 SCRUB window valid
reserves a scrub-lock entry, and with none free leaves V clear. -/
def State.bbWrite (s : State) (c x w word value : Nat) : State :=
  let s := s.wr (bbReg c x w word) (bbStored word value)
  if word = 0 then (s.scrubDrop c x w).scrubReserve c x w else s

/-- BB_WINDOW_WRITE. -/
def execBbWindowWrite (r : Requester) (c x w word value : Nat) (s : State) : Host.Outcome State Fault Refusal :=
  .next <|
    if s.mayWrite .stewardSeq r c && decide (c < s.nClusters) && decide (x < 5) && decide (w < 8) && decide (word < 4) then
      s.bbWrite c x w word value
    else s

end Sys2Proof.Machine
end

