-- ==== Sys2Proof/Machine/Arrays.lean ====
section
/-! DEFINITION. The matrix arrays (R73–R98): array instructions, when they issue, passes and their commits, DRAIN, SAVE,
RESTORE, MERGE, window writes to accumulator memory. -/

namespace Sys2Proof.Machine

/-! ## Fields of an instruction (Table 04-2) -/

/-- OP. -/
def QInstr.op (i : QInstr) : Nat := bits i.w0 3 0
/-- TILE. -/
def QInstr.tile (i : QInstr) : Nat := bits i.w0 6 4
/-- PSLOT. -/
def QInstr.pslot (i : QInstr) : Nat := bits i.w0 8 7
/-- CONSUME. -/
def QInstr.consume (i : QInstr) : Bool := bit i.w0 9
/-- The number of K-steps. -/
def QInstr.ksteps (i : QInstr) : Nat := bits i.w0 23 16 + 1
/-- AUX. -/
def QInstr.aux (i : QInstr) : Nat := bits i.w0 31 24
/-- SLOT. -/
def QInstr.slot (i : QInstr) : Nat := bits i.w0 44 32
/-- SSLOT. -/
def QInstr.sslot (i : QInstr) : Nat := bits i.w0 60 48
/-- CTX. -/
def QInstr.ctx (i : QInstr) : Nat := bits i.w0 63 61
/-- The arithmetic word. -/
def QInstr.arith (i : QInstr) : ArithWord := parseArith i.w1

/-- Whether an instruction is valid (R78): no reserved OP, CTX or field value, and the shape of a PASS. A 16-bit PASS must also start at
a whole k, at a K-step that is a multiple of 4.
LOG 140 (DEDUCED). -/
def QInstr.valid (i : QInstr) : Bool :=
  let w := i.arith
  let k0 := kOfSteps w i.aux
  bits i.w0 15 10 == 0 && bits i.w0 47 45 == 0 && decide (i.ctx < 5) &&
  (match i.op with
    | 1 | 2 => i.aux == 0 && arithFieldsOk i.w1 && (pairRate w).isSome
    | 3 => arithFieldsOk i.w1 && decide (i.aux + i.ksteps ≤ 256) &&
      (match pairRate w with
        | some (1, _) => i.ksteps % 4 == 0 && i.aux % 4 == 0
        | some _ => true
        | none => false) && (!(w.aBs || w.bBs) || k0 % 32 == 0)
    | 4 => arithFieldsOk i.w1 && (decide (i.aux < 16) || i.aux == 0xFF)
    | 5 | 6 => i.aux == 0 && i.w1 == 0
    | 7 => i.aux == 0 && arithFieldsOk i.w1
    | _ => false)

/-! ## Widths (R94–R97) -/

/-- Whether array a of cluster c is narrowed. -/
def State.narrowed (s : State) (c a : Nat) : Bool := bit (s.rd (arrReg c a 0xC)) 14

/-- The width of array a of cluster c, the narrower of the two in a lockstep pair. -/
def State.arrWidth (s : State) (c a : Nat) : Nat :=
  if s.narrowed c a || (s.isLockstep (c / 2) && s.narrowed (c / 2 * 2 + 1) a) then 31 else 32

/-- The columns a pass of context x works on: the timed width in the timed context. -/
def State.passWidth (s : State) (c a x : Nat) : Nat :=
  if x = 4 then match (s.ownerOf c).bind s.prog with
    | some g => min (max 31 g.timedWidth) (s.arrWidth c a)
    | none => s.arrWidth c a
  else s.arrWidth c a

/-! ## Operand slots (Table 04-1) -/

/-- The slots that `n` bytes take.
LOG 40 (DESIGN CHOICE). -/
def slotsFor (n : Nat) : Nat := ceilDiv n 256

/-- A slots of `steps` K-steps. -/
def aSlots (w : ArithWord) (steps : Nat) : Nat := slotsFor (kOfSteps w steps * 32 * fmtBits w.aFmt / 8)
/-- B slots of a panel source, 256 K-steps. -/
def bSlots (w : ArithWord) : Nat := slotsFor (kOfSteps w 256 * 32 * fmtBits w.bFmt / 8)
/-- Scale slots of `steps` K-steps of a block-scaled operand: 32 bytes a block of 32 k. -/
def scaleSlots (w : ArithWord) (steps : Nat) : Nat := slotsFor (ceilDiv (kOfSteps w steps) 32 * 32)

/-- The slots of a drained tile in its store format. -/
def drainSlots (bitsPer : Nat) : Nat := slotsFor (1024 * bitsPer / 8)

/-- The C source slots of a CIN_MODE. -/
def cinSlots (m : Nat) : Nat := match m with
  | 1 => 1
  | 2 => 16
  | 3 => 41
  | _ => 0

/-- The chain entry AUX of the serving engine's table: its four steps and four immediates (R101, R104). -/
def State.chainOf (s : State) (c a aux : Nat) : List Nat × List Nat :=
  let e := vecReg c (a / 4) (0x100 + 32 * aux)
  ((List.range 4).map fun k => s.rd (e + 4 * k), (List.range 4).map fun k => s.rd (e + 0x10 + 4 * k))

/-- The steps of the chain of a DRAIN; none without a chain. -/
def State.drainChain (s : State) (c a : Nat) (i : QInstr) : List (Nat × Nat) :=
  if i.aux = 0xFF then [] else chainSteps (s.chainOf c a i.aux).1

/-- The bits of an element a DRAIN stores. -/
def State.drainBits (s : State) (c a : Nat) (i : QInstr) : Nat :=
  match (s.drainChain c a i).getLast? with
  | some (_, w) => if bits w 5 0 = 9 ∨ bits w 5 0 = 10 then 8 else fmtBits i.arith.outFmt
  | none => fmtBits i.arith.outFmt

/-- The slots a DRAIN's chain steps read through SRC 2 and SRC 3. -/
def chainSlots (steps : List (Nat × Nat)) : List (Nat × Nat) :=
  steps.filterMap fun e => match bits e.2 7 6 with
    | 2 => some (bits e.2 20 8, 1)
    | 3 => some (bits e.2 20 8, 16)
    | _ => none

/-- The slot runs an instruction reads: (first slot, count). -/
def State.srcSlots (s : State) (c a : Nat) (i : QInstr) : List (Nat × Nat) :=
  let w := i.arith
  match i.op with
  | 1 => (i.slot, bSlots w) :: (if w.bBs then [(i.sslot, scaleSlots w 256)] else [])
  | 2 => (if w.cin = 3 then [] else [(i.slot, 1)]) ++ (if w.cin = 0 then [] else [(i.sslot, cinSlots w.cin)])
  | 3 => (i.slot, aSlots w i.ksteps) :: (if w.aBs then [(i.sslot, scaleSlots w i.ksteps)] else [])
  | 4 => chainSlots (s.drainChain c a i)
  | 6 => [(i.slot, 41)]
  | 7 => [(i.slot, 41)]
  | _ => []

/-- The slot runs an instruction writes. -/
def State.dstSlots (s : State) (c a : Nat) (i : QInstr) : List (Nat × Nat) :=
  match i.op with
  | 4 => [(i.slot, drainSlots (s.drainBits c a i))]
  | 5 => [(i.slot, 41)]
  | _ => []

/-- The slot runs whose tags an instruction waits to be full (R83): not the bounds slot nor a RESTORE's source. -/
def State.tagSlots (s : State) (c a : Nat) (i : QInstr) : List (Nat × Nat) :=
  match i.op with
  | 2 => if i.arith.cin = 0 then [] else [(i.sslot, cinSlots i.arith.cin)]
  | 6 => []
  | _ => s.srcSlots c a i

/-! ## When an instruction issues (R83–R87) -/

/-- Whether the sources are present and the destinations empty. -/
def State.slotsReady (s : State) (c a : Nat) (i : QInstr) : Bool :=
  ((s.tagSlots c a i).all fun r => s.allFull c r.1 r.2) && ((s.dstSlots c a i).all fun r => s.allEmpty c r.1 r.2)

/-- Whether the array has no pass before its decision tick: at a pass boundary or idle. -/
def Arr.atBoundary (v : Arr) (t : Nat) : Bool := v.passes.all fun p => decide (p.issue + max p.n 64 ≤ t)

/-- Whether a pass can be taken back to back at tick t: the decision tick of the last one (R87), whose shadow is free. -/
def Arr.backToBack (v : Arr) (t : Nat) : Bool :=
  match v.passes.getLast? with
  | some p => t == p.issue + (if p.chained then max p.n 64 else p.n)
  | none => false

/-- Whether every pass has committed, or one may be joined back to back. -/
def Arr.passFree (v : Arr) (t : Nat) : Bool := v.passes.isEmpty || v.backToBack t

/-- Whether a tile has no pass that has not committed. -/
def Arr.tileQuiet (v : Arr) (t : Nat) : Bool := v.passes.all fun p => p.instr.tile != t

/-- Whether an issued pass, or one queued earlier than the instruction, reads its panel slot (R83). -/
def Arr.panelRead (v : Arr) (j : QInstr) : Bool :=
  v.passes.any (fun p => p.instr.pslot == j.pslot) ||
  (v.queues.any fun q => q.any fun i => i.op == 3 && i.pslot == j.pslot && decide (i.seq < j.seq))

/-- Whether the array itself lets an instruction issue at tick t. Of ANCHOR, DRAIN, SAVE, RESTORE and MERGE one runs at a time; a PASS on
another tile may issue beside it.
LOG 141 (DESIGN CHOICE). -/
def Arr.unitReady (v : Arr) (i : QInstr) (t : Nat) : Bool :=
  decide (v.idleFrom ≤ t) &&
  (match i.op with
    | 1 => v.atBoundary t && decide ((v.panels.getD i.pslot Panel.empty).busy ≤ t) && !v.panelRead i
    | 3 => v.passFree t && decide ((v.panels.getD i.pslot Panel.empty).busy ≤ t) && bit v.set i.tile &&
      (decide (v.busy ≤ t) || v.busyTile != i.tile) && (match v.op with
        | some o => o.instr.tile != i.tile
        | none => true)
    | 2 | 4 | 5 | 6 | 7 => v.atBoundary t && v.tileQuiet i.tile && decide (v.busy ≤ t) && v.op.isNone
    | _ => v.atBoundary t)

/-- The head of context x's queue. -/
def State.headOf (s : State) (c a x : Nat) : Option QInstr := ((s.arr c a).queues.getD x []).head?

/-- Whether context x's head may issue now, but for arbitration: it is not held, its scheduled tick has come, the array and
its slots allow it; an instruction that will fault needs no operands. -/
def State.canIssue (s : State) (c a x : Nat) : Bool :=
  match s.headOf c a x with
  | none => false
  | some i =>
    !i.stuck && !s.heldOn c a x && decide (i.sched.getD 0 ≤ s.ct) && (s.arr c a).unitReady i s.ct &&
    (s.slotsReady c a i || !i.valid || s.tileOwner c a i.tile != x)

/-- The priority of context x (Table 13-8). -/
def State.ctxPrio (s : State) (c x : Nat) : Nat := s.fld (ctxStatus c x) 15 14

/-- The order of R296 between elastic contexts with last-issue ticks. -/
def beats (p1 l1 x1 p2 l2 x2 : Nat) : Bool :=
  decide (p2 < p1) || (p1 == p2 && (decide (l1 < l2) || (l1 == l2 && decide (x1 < x2))))

/-- The elastic contexts whose heads may issue on array a.
LOG 22 (DESIGN CHOICE). -/
def State.issuers (s : State) (c a : Nat) : List Nat := (List.range 4).filter (s.canIssue c a)

/-- Whether context x is the one that issues (R84, R296): timed first, then the scheduler's order.
LOG 22 (DESIGN CHOICE). -/
def State.chosen (s : State) (c a x : Nat) : Bool :=
  s.canIssue c a x &&
  (x == 4 || (!s.canIssue c a 4 &&
    let l := (s.arr c a).lastIssue
    (s.issuers c a).all fun y => y == x || beats (s.ctxPrio c x) (l.getD x 0) x (s.ctxPrio c y) (l.getD y 0) y))

/-- What every issue does: the instruction leaves its queue, its context progresses, a choice among contexts counts. -/
def State.issued (s : State) (c a x : Nat) : State :=
  let v := s.arr c a
  let s := if 1 < (s.issuers c a).length && x != 4 then s.ndTiming (s.ownerOf c) else s
  let s := s.setArr c a { v with queues := modAt (List.drop 1) v.queues x, lastIssue := setAt v.lastIssue x s.ct }
  s.started c x

/-! ## Faults at issue -/

/-- The flags of the operator in hand of context x. -/
def State.tilerFlag (s : State) (c x : Nat) (f : TilerCtx → TilerCtx) : State :=
  let k := s.ctx c x
  if k.tiler.active then s.setCtx c x { k with tiler := f k.tiler } else s

/-- The head of a queue rewritten. -/
def State.modHead (s : State) (c a x : Nat) (f : QInstr → QInstr) : State :=
  let v := s.arr c a
  s.setArr c a { v with queues := modAt (fun q => match q with
    | [] => []
    | i :: r => f i :: r) v.queues x }

/-- An instruction refused (R78): its task is aborted, the cause recorded.
LOG 23 (DESIGN CHOICE). -/
def State.instrInvalid (s : State) (c a x : Nat) (i : QInstr) : State :=
  let s := s.raiseCl .arrInstrInvalid c (some x) (8 * c) a (i.w0 % 2 ^ 32) (i.w0 / 2 ^ 32)
  (s.abortCtx c x 6).setFld (arrReg c a 0) 31 28 6

/-- ACC_BOUND (R77): the instruction holds back its queue.
LOG 23 (DESIGN CHOICE). -/
def State.accBound (s : State) (c a x : Nat) (i : QInstr) : State :=
  let s := s.raiseCl .accBound c (some x) (8 * c) a i.tile i.opIdx
  let s := s.modHead c a x fun i => { i with stuck := true }
  let s := s.tilerFlag c x fun t => { t with bound := true }
  if x = 4 then s.abortCtx c x 2 else s

/-- The slot runs fail the window check (R122, R123). -/
def State.slotBad (s : State) (c a x : Nat) (i : QInstr) : Option Nat :=
  match (s.srcSlots c a i).find? fun r => !s.slotsOk c x r.1 r.2 .read with
  | some r => some r.1
  | none => ((s.dstSlots c a i).find? fun r => !s.slotsOk c x r.1 r.2 .write).map Prod.fst

/-- The rank and index on the general read port of what an instruction of array a reads (Table 05-1); a PASS reads by the array port. -/
def QInstr.readRank (i : QInstr) (a : Nat) : Option (Nat × Nat) :=
  match i.op with
  | 1 => some (1, a)
  | 2 | 6 | 7 => some (2, a)
  | 4 => some (3, a / 4)
  | _ => none

/-- Slots read by an array or engine for a context, over the general read port where a rank is given. -/
def State.readSlots (s : State) (r : Requester) (c : Nat) (rank : Option (Nat × Nat)) (runs : List (Nat × Nat)) : Option AccErr × State :=
  runs.foldl (fun acc q => match acc.1 with
    | some e => (some e, acc.2)
    | none =>
      let a := spAddr c (q.1 * 256)
      let rd := (match rank with
        | some k => acc.2.usePorts r a (q.2 * 256) false k
        | none => acc.2).memFetch r a (q.2 * 256)
      (rd.1.err, rd.2)) (none, s)

/-- A pass that is not chained ramps up: the array was idle in the previous tick (R89). -/
def State.ramp (s : State) (c a : Nat) : State :=
  if (s.arr c a).backToBack s.ct then s else s.countUp (arrReg c a 0x18) 1

/-- Whether the checks of every instruction pass: validity, ownership, windows, operand data; otherwise the state after the
fault. A pass with an uncorrectable operand has issued, and aborts (R92). -/
def State.issueCheck (s : State) (c a x : Nat) (i : QInstr) : Bool × State :=
  if !i.valid then (false, s.instrInvalid c a x i)
  else if s.tileOwner c a i.tile ≠ x then (false, s.accBound c a x i)
  else match s.slotBad c a x i with
    | some q => (false, s.bbViolation (.array c a x) c x (127 * 2 ^ 41 + spAddr c (q * 256)))
    | none =>
      let rd := s.readSlots (.array c a x) c (i.readRank a) (s.srcSlots c a i)
      match rd.1 with
      | none => (true, rd.2)
      | some e =>
        if e = .ue then
          let s := ((if i.op = 3 then rd.2.ramp c a else rd.2).abortCtx c x e.cause).setFld (arrReg c a 0) 31 28 2
          (false, if i.op = 3 then (s.orReg (arrReg c a 0) (2 ^ 27)).countUp (arrReg c a 0x1C) 1 else s)
        else (false, rd.2.abortCtx c x e.cause)

/-- An instruction of kind `op` at the head of context x's queue issues, with its effect. -/
def State.issueWith (s : State) (c a x op : Nat) (f : QInstr → State → State) : State :=
  match s.headOf c a x with
  | none => s
  | some i =>
    if i.op = op ∧ s.chosen c a x = true then
      let q := s.issueCheck c a x i
      if q.1 then f i (q.2.issued c a x) else q.2
    else s

/-! ## Timed lateness (R85, R281) -/

/-- LATE_DATA: BT_LATE counts the event, the task is slipped, and the source is raised once per task (R281). -/
def State.lateData (s : State) (c : Nat) (unit late : Nat) : State :=
  match s.ownerOf c with
  | none => s
  | some p =>
    let s := (s.countUp (btReg p 0x10) 1).orReg (btReg p 0) (2 ^ 25)
    match (s.ctx c 4).task with
    | none => s
    | some t =>
      let first := match s.task t with
        | some k => !k.lateRaised
        | none => false
      let s := s.modTask t fun k => { k with slipped := true, lateRaised := true }
      if first then s.raiseCl .lateData c (some 4) (8 * c) unit late 0 else s

/-- SLOT_CONFLICT of partition p, counted and latched. -/
def State.slotConflict (s : State) (p c unit : Nat) : State :=
  let s := (s.countUp (btReg p 0x14) 1).orReg (btReg p 0) (2 ^ 26)
  s.raiseCl .slotConflict c (some 4) (8 * c) unit 0 0

/-- Whether the timed task on cluster c has slipped.
LOG 41 (DESIGN CHOICE). -/
def State.timedSlipped (s : State) (c : Nat) : Bool :=
  match ((s.ctx c 4).task).bind s.task with
  | some k => k.slipped
  | none => false

/-- A timed instruction that does not issue at its scheduled tick: absent operands are LATE_DATA, an array that is not free for a PASS is
SLOT_CONFLICT unless the task has slipped; noted once for an instruction.
LOG 41 (DESIGN CHOICE). -/
def State.timedWait (s : State) (c a : Nat) : State :=
  match s.headOf c a 4, s.ownerOf c with
  | some i, some p =>
    match i.sched with
    | some t =>
      let note := s.modHead c a 4 fun i => { i with late := true }
      if s.ct < t || i.late || !i.valid then s
      else if !s.slotsReady c a i then note.lateData c a (s.ct - t)
      else if i.op == 3 && !(s.arr c a).unitReady i s.ct && !s.timedSlipped c then note.slotConflict p c a
      else s
    | none => s
  | _, _ => s

/-- The tick at which the next instruction of array u of the timed task on cluster c is scheduled, or its next local piece of Mover
channel u − 8; none where the Program schedules none (R269).
LOG 41 (DESIGN CHOICE). -/
def State.schedAt (s : State) (c u : Nat) : Option Nat :=
  (((s.ctx c 4).task).bind s.task).bind fun k =>
    ((k.rcd.sched.find? fun e => e.cluster == c && e.unit == u).bind fun e => e.ticks[sparseGet 0 (s.ctx c 4).placed u]?).map (k.launchAt + 24 + ·)

/-- One more instruction or local piece of the timed task on cluster c placed. -/
def State.place (s : State) (c u : Nat) : State :=
  let k := s.ctx c 4
  s.setCtx c 4 { k with placed := sparsePut 0 k.placed u (sparseGet 0 k.placed u + 1) }

/-! ## Tile storage -/

/-- An accumulator word as it is loaded: a word the device never writes is NaN (R58). -/
def loadWord (w : Nat) : Nat := accEncode (accDecode w)

/-- The words of a tile as they are loaded. -/
def State.tileWords (s : State) (c a t : Nat) : List Nat := (List.range 1024).map fun e => loadWord (s.ldn (accAddr c a t e) 8)
/-- The anchor fields of a tile. -/
def State.tileAnchors (s : State) (c a t : Nat) : List Nat := (List.range 1024).map fun e => s.anchor (accAddr c a t e)
/-- The words of a tile written; a whole word written is correctable again. -/
def State.putTile (s : State) (c a t : Nat) (l : List Nat) : State :=
  let s := l.zipIdx.foldl (fun s e => s.stn (accAddr c a t e.2) 8 e.1) s
  { s with mem := s.mem.healWhole (accAddr c a t 0) (8 * l.length) }
/-- The anchors of a tile written. -/
def State.putAnchors (s : State) (c a t : Nat) (l : List Nat) : State :=
  l.zipIdx.foldl (fun s e => s.setAnchor (accAddr c a t e.2) e.1) s

/-- Whether a tile holds an uncorrectable element; corrected ones are noted (R114). -/
def State.readTile (s : State) (r : Requester) (c a t : Nat) : Bool × State :=
  let rd := s.memRead r (accAddr c a t 0) 0x2000
  (rd.1.err == some .ue, rd.2)

/-- A task ended by an uncorrectable tile. -/
def State.tileUe (s : State) (c a x : Nat) : State := (s.abortCtx c x 5).setFld (arrReg c a 0) 31 28 3

/-- The tile image of a tile (Table 04-5). -/
def State.tileImage (s : State) (c a t : Nat) : List Byte :=
  ((s.tileWords c a t).flatMap fun w => leBytes 8 w) ++ ((s.tileAnchors c a t).flatMap fun v => leBytes 2 v) ++
  leBytes 1 (b2n (s.tileSat c a t)) ++ leBytes 63 0

/-- The words of a tile image. -/
def imageWords (l : List Byte) : List Nat := (List.range 1024).map fun e => loadWord (fieldAt l (8 * e) 8)
/-- The anchor fields of a tile image; reserved bits are ignored. -/
def imageAnchors (l : List Byte) : List Nat := (List.range 1024).map fun e => fieldAt l (0x2000 + 2 * e) 2 % 1024
/-- The SAT bit of a tile image. -/
def imageSat (l : List Byte) : Bool := bit (fieldAt l 0x2800 1) 0

/-- Array a occupied for `n` ct by an instruction on a tile. -/
def State.occupy (s : State) (c a t n : Nat) : State :=
  s.setArr c a { s.arr c a with busy := s.ct + n, busyTile := t }
/-- Tile t set by ANCHOR or RESTORE. -/
def State.setTileSet (s : State) (c a t : Nat) : State :=
  s.setArr c a { s.arr c a with set := setBit (s.arr c a).set t true }

/-! ## PANEL, ANCHOR, SAVE, RESTORE -/

/-- PANEL (R75, R76): the panel slot takes B and its scales, one slot of 256 bytes per ct; at its completion CONSUME empties the sources. -/
def State.panelDo (s : State) (c a : Nat) (i : QInstr) : State :=
  let w := i.arith
  let v := s.arr c a
  let p : Panel :=
    { data := s.rowBytes (spAddr c (i.slot * 256)) (bSlots w * 256),
      scales := if w.bBs then s.rowBytes (spAddr c (i.sslot * 256)) (scaleSlots w 256 * 256) else [],
      busy := s.ct + bSlots w }
  let s := s.setArr c a { v with panels := setAt v.panels i.pslot p }
  if i.consume then (s.srcSlots c a i).foldl (fun s r => s.changeTags ⟨s.ct + bSlots w, c, r.1, r.2, 0, false, false⟩) s else s

/-- PANEL. -/
def execPanel (c a x : Nat) (s : State) : Host.Outcome State Fault Refusal :=
  .next (s.issueWith c a x 1 fun i s => s.panelDo c a i)

/-- The C value of element (i, j) under a CIN_MODE: an FP32 code, or an INT32 one for an integer pair (R54). -/
def cinValue (m : Nat) (src : List Byte) (i j : Nat) : Nat :=
  match m with
  | 1 => fieldAt src (4 * j) 4
  | 2 => fieldAt src (4 * (32 * i + j)) 4
  | _ => 0

/-- The anchor and word of element (i, j) that ANCHOR writes for CIN_MODE 0, 1 and 2 (R56, R57, R79). -/
def anchorElem (w : ArithWord) (bounds src : List Byte) (i j : Nat) : Nat × Nat :=
  let cv := cinValue w.cin src i j
  let t := if w.cin = 0 then none else cBound cv
  let a := if fixedAnchors w then 0
    else anchorOf (toSigned 16 (fieldAt bounds (2 * i) 2)) (toSigned 16 (fieldAt bounds (0x40 + 2 * j) 2)) (fieldAt bounds 0x80 2) t
  (anchorEncode a, if w.cin = 0 then 0 else accEncode (gridTerm (if fixedAnchors w then decodeElem 9 cv else f32 cv) a))

/-- ANCHOR (R79, R95): anchors and initial words of the tile; column 31 of a narrowed array holds word 0, anchor 0. -/
def State.anchorDo (s : State) (c a : Nat) (i : QInstr) : State :=
  let w := i.arith
  let src := if w.cin = 0 then [] else s.rowBytes (spAddr c (i.sslot * 256)) (cinSlots w.cin * 256)
  let bounds := s.mem.read (spAddr c (i.slot * 256)) 256
  let elems := if w.cin = 3 then (imageAnchors src).zip (imageWords src)
    else (List.range 1024).map fun e => anchorElem w bounds src (e / 32) (e % 32)
  let elems := if s.arrWidth c a = 31 then elems.zipIdx.map fun e => if e.2 % 32 = 31 then (0, 0) else e.1 else elems
  let s := (s.putAnchors c a i.tile (elems.map Prod.fst)).putTile c a i.tile (elems.map Prod.snd)
  let s := s.setTileSat c a i.tile (w.cin == 3 && imageSat src)
  (s.setTileSet c a i.tile).occupy c a i.tile 34

/-- ANCHOR. -/
def execAnchor (c a x : Nat) (s : State) : Host.Outcome State Fault Refusal :=
  .next (s.issueWith c a x 2 fun i s => s.anchorDo c a i)

/-- SAVE (R82): the tile image written to 41 slots, a slot a ct, each full once its last byte is written (Table 05-2); the bytes are in
place from the issue on.
LOG 142 (DESIGN CHOICE). -/
def State.saveDo (s : State) (c a : Nat) (i : QInstr) : State :=
  let q := s.readTile (.array c a i.ctx) c a i.tile
  if q.1 then q.2.tileUe c a i.ctx
  else
    let s := (q.2.memWrite (.array c a i.ctx) (spAddr c (i.slot * 256)) (s.tileImage c a i.tile)).2
    (s.changeTags ⟨s.ct + 1, c, i.slot, 41, 1, true, false⟩).occupy c a i.tile 41

/-- SAVE. -/
def execSave (c a x : Nat) (s : State) : Host.Outcome State Fault Refusal :=
  .next (s.issueWith c a x 5 fun i s => s.saveDo c a i)

/-- A tile loaded from a tile image: words, anchors, SAT. -/
def State.loadImage (s : State) (c a t : Nat) (l : List Byte) : State :=
  let narrow := s.arrWidth c a = 31
  let cut := fun (e : Nat × Nat) => if narrow ∧ e.2 % 32 = 31 then 0 else e.1
  let s := (s.putAnchors c a t ((imageAnchors l).zipIdx.map cut)).putTile c a t ((imageWords l).zipIdx.map cut)
  (s.setTileSat c a t (imageSat l)).setTileSet c a t

/-- RESTORE. -/
def execRestore (c a x : Nat) (s : State) : Host.Outcome State Fault Refusal :=
  .next (s.issueWith c a x 6 fun i s =>
    (s.loadImage c a i.tile (s.rowBytes (spAddr c (i.slot * 256)) 10304)).occupy c a i.tile 41)

/-! ## PASS -/

/-- Element (row or column) `e` of k value `k` of an operand, with its block scale where it is block-scaled. -/
def operandVal (code : Nat) (bs : Bool) (data scales : List Byte) (k e : Nat) : Val :=
  scaledElem code (elemAt data (fmtBits code) (32 * k + e)) (if bs then some (fieldAt scales (k / 32 * 32 + e) 1) else none)

/-- A cell after the K-steps of a pass: each product rounded to the anchor grid and added (R59, R60). -/
def runCell (w : ArithWord) (aData aScales bData bScales : List Byte) (k0 n i j : Nat) (anchor : Int) (start : Nat) : Nat × Bool :=
  let r := (List.range n).foldl (fun (acc : AccVal × Bool) k =>
    let t := gridTerm ((operandVal w.aFmt w.aBs aData aScales k i).mul (operandVal w.bFmt w.bBs bData bScales (k0 + k) j)) anchor
    let q := accAdd acc.1 t
    (q.1, acc.2 || q.2)) (accDecode start, false)
  (if n = 0 then start else accEncode r.1, r.2)

/-- PASS (R86, R87): the cells' final values, started from the previous pass where it is chained on the same tile; no memory is read then.
LOG 21 (DESIGN CHOICE). -/
def State.passDo (s : State) (c a : Nat) (i : QInstr) : State :=
  let v := s.arr c a
  let b2b := v.backToBack s.ct
  let prev := if b2b then v.passes.getLast?.filter fun p => p.instr.tile == i.tile else none
  let q := if prev.isSome then (false, s) else s.readTile (.array c a i.ctx) c a i.tile
  if q.1 then (((q.2.ramp c a).tileUe c a i.ctx).orReg (arrReg c a 0) (2 ^ 27)).countUp (arrReg c a 0x1C) 1
  else
    let s := q.2
    let w := i.arith
    let aData := s.rowBytes (spAddr c (i.slot * 256)) (aSlots w i.ksteps * 256)
    let aScales := if w.aBs then s.rowBytes (spAddr c (i.sslot * 256)) (scaleSlots w i.ksteps * 256) else []
    let p := v.panels.getD i.pslot Panel.empty
    let start := match prev with
      | some p => p.cells
      | none => s.tileWords c a i.tile
    let width := s.passWidth c a i.ctx
    let cells := (List.range 1024).map fun e =>
      if width ≤ e % 32 then (start.getD e 0, false)
      else runCell w aData aScales p.data p.scales (kOfSteps w i.aux) (kOfSteps w i.ksteps) (e / 32) (e % 32)
        (anchorDecode (s.anchor (accAddr c a i.tile e))) (start.getD e 0)
    let ps : Pass := { instr := i, issue := s.ct, n := i.ksteps, chained := b2b, cells := cells.map Prod.fst, sat := cells.any Prod.snd }
    let s := s.ramp c a
    s.setArr c a { s.arr c a with passes := v.passes ++ [ps] }

/-- PASS: a pass issues, or an instruction with a reserved OP is refused. -/
def execPass (c a x : Nat) (s : State) : Host.Outcome State Fault Refusal :=
  .next <|
    let s := if x = 4 then s.timedWait c a else s
    match s.headOf c a x with
    | some i =>
      if i.op = 0 ∨ 8 ≤ i.op then (if s.chosen c a x then (s.issueCheck c a x i).2 else s)
      else s.issueWith c a x 3 fun i s => s.passDo c a i
    | none => s

/-- What R60 reports for a tile that completes with a saturated element. -/
def State.reportSat (s : State) (c a x t : Nat) : State :=
  let s := ((s.setTileSat c a t true).arithSat c).tilerFlag c x fun q => { q with sat := true }
  s.raiseCl .accSat c (some x) (8 * c) a t 0

/-- The commit of a pass (R88): its words, saturation, consumed slots, ARR_PASS_COUNT.
LOG 21 (DESIGN CHOICE). -/
def State.commitDo (s : State) (c a : Nat) (p : Pass) : State :=
  let i := p.instr
  let s := s.setArr c a { s.arr c a with passes := (s.arr c a).passes.drop 1 }
  let s := s.putTile c a i.tile p.cells
  let s := if p.sat then s.reportSat c a i.ctx i.tile else s
  let s := if i.consume then (s.srcSlots c a i).foldl (fun s r => s.setTags c r.1 r.2 false) s else s
  (s.count64 (arrReg c a 0x10) 1).progress c i.ctx

/-- PASS_COMMIT: the oldest pass at the last tick of its commit. -/
def execPassCommit (c a : Nat) (s : State) : Host.Outcome State Fault Refusal :=
  .next <| match (s.arr c a).passes with
    | p :: _ => if p.issue + p.n + 63 ≤ s.ct then s.commitDo c a p else s
    | [] => s

/-! ## DRAIN and MERGE -/

/-- The operand v of a chain step for element (i, j) (Table 04-10). -/
def State.chainOperand (s : State) (c : Nat) (imm : Nat) (w i j : Nat) : Nat :=
  match bits w 7 6 with
  | 1 => imm
  | 2 => s.ldn (spAddr c (bits w 20 8 * 256) + 4 * j) 4
  | 3 => s.ldn (spAddr c (bits w 20 8 * 256) + 4 * (32 * i + j)) 4
  | _ => 0

/-- One element of a DRAIN: its code, OUT_OVF and OUT_NAN (R103); +0 in column 31 of a narrowed array (R95). -/
def State.drainElem (s : State) (c a : Nat) (i : QInstr) (steps : List (Nat × Nat)) (imms : List Nat) (e : Nat) : Conv :=
  let w := i.arith
  let addr := accAddr c a i.tile e
  if e % 32 = 31 ∧ s.arrWidth c a = 31 then ⟨0, false, false⟩ else
  let word := s.ldn addr 8
  let anc := anchorDecode (s.anchor addr)
  if i.aux = 0xFF then convertWord w.outFmt w.outSat anc word
  else
    let c0 := convertWord 0x8 w.outSat anc word
    let r := steps.foldl (fun (acc : Nat × Option Nat) st =>
      chainStep (bits st.2 5 0) acc.1 (s.chainOperand c (imms.getD st.1 0) st.2 (e / 32) (e % 32)) (bits st.2 28 21)) (c0.code, none)
    match r.2 with
    | some k => ⟨k, c0.ovf, c0.nan⟩
    | none => let f := f32ToElem w.outFmt w.outSat r.1; ⟨f.code, c0.ovf || f.ovf, c0.nan || f.nan⟩

/-- Engine steps of at most 64 ct that make up a fused drain. -/
def splitSteps (x kernel ct : Nat) (array : Option Nat) : List VStep :=
  (List.range (ceilDiv ct 64)).map fun k => { ctx := x, kernel := kernel, ct := min 64 (ct - 64 * k), array := array }

/-- DRAIN (R103): the tile converted and stored; the slots become full when the last row has been written.
LOG 21 (DESIGN CHOICE). -/
def State.drainDo (s : State) (c a : Nat) (i : QInstr) : State :=
  let q := s.readTile (.array c a i.ctx) c a i.tile
  if q.1 then q.2.tileUe c a i.ctx
  else
    let s := q.2
    let steps := s.drainChain c a i
    let imms := (s.chainOf c a i.aux).2
    let out := (List.range 1024).map (s.drainElem c a i steps imms)
    let n := s.drainBits c a i
    let ovf := out.any (·.ovf)
    let nan := out.any (·.nan)
    let ct := 32 * (1 + (steps.map fun e => chainStepCt (bits e.2 5 0)).foldl (· + ·) 0) + 8
    let vs := if i.aux = 0xFF then [] else splitSteps i.ctx 0 ct (some a)
    let s := (s.memWrite (.array c a i.ctx) (spAddr c (i.slot * 256)) (packElems n (out.map (·.code)))).2
    let s := (s.arithOut c ovf nan).tilerFlag c i.ctx fun t => { t with ovf := t.ovf || ovf, nan := t.nan || nan }
    let o : ArrOp := { instr := i, until_ := s.ct + (if i.aux = 0xFF then 36 else ct), sat := false, slots := drainSlots n, steps := vs.length }
    let s := s.setArr c a { s.arr c a with op := some o }
    s.setVec c (a / 4) { s.vec c (a / 4) with queue := (s.vec c (a / 4)).queue ++ vs }

/-- DRAIN. -/
def execDrain (c a x : Nat) (s : State) : Host.Outcome State Fault Refusal :=
  .next (s.issueWith c a x 4 fun i s => s.drainDo c a i)

/-- Whether the serving engine still has steps of a fused drain of array a. -/
def State.drainPending (s : State) (c a : Nat) : Bool :=
  let v := s.vec c (a / 4)
  (v.queue.any fun q => q.array == some a) || (match v.running with
    | some q => q.array == some a && decide (s.ct < v.until_)
    | none => false)

/-- The DRAIN or MERGE of array a at its last tick.
LOG 21 (DESIGN CHOICE). -/
def State.opDone (s : State) (c a op : Nat) : Option ArrOp :=
  match (s.arr c a).op with
  | some o => if o.instr.op == op && decide (o.until_ ≤ s.ct) && !s.drainPending c a then some o else none
  | none => none

/-- DRAIN_COMPLETE: the last row is written and the destination slots are full. -/
def execDrainComplete (c a : Nat) (s : State) : Host.Outcome State Fault Refusal :=
  .next <| match s.opDone c a 4 with
    | some o => ((s.setArr c a { s.arr c a with op := none }).setTags c o.instr.slot o.slots true).progress c o.instr.ctx
    | none => s

/-- MERGE (R82): every image anchor compared with the tile's, then each image word added to the tile's word; column 31 of a narrowed
array keeps word 0 (R95).
LOG 171 (DESIGN CHOICE). -/
def State.mergeDo (s : State) (c a : Nat) (i : QInstr) : State :=
  let q := s.readTile (.array c a i.ctx) c a i.tile
  if q.1 then q.2.tileUe c a i.ctx
  else
    let s := q.2
    let l := s.rowBytes (spAddr c (i.slot * 256)) 10304
    let cols := fun e => s.arrWidth c a == 32 || e % 32 != 31
    if (List.range 1024).any fun e => fieldAt l (0x2000 + 2 * e) 2 % 1024 != s.anchor (accAddr c a i.tile e) then
      (s.raiseCl .accAnchorMismatch c (some i.ctx) (8 * c) a i.tile 0).abortCtx c i.ctx 6
    else
      let sums := (List.range 1024).map fun e =>
        if cols e then accAdd (accDecode (s.ldn (accAddr c a i.tile e) 8)) (accDecode (fieldAt l (8 * e) 8)) else (.fin 0, false)
      let s := s.putTile c a i.tile (sums.map fun r => accEncode r.1)
      let o : ArrOp := { instr := i, until_ := s.ct + 41, sat := sums.any Prod.snd || imageSat l, slots := 0, steps := 0 }
      s.setArr c a { s.arr c a with op := some o }

/-- MERGE. -/
def execMerge (c a x : Nat) (s : State) : Host.Outcome State Fault Refusal :=
  .next (s.issueWith c a x 7 fun i s => s.mergeDo c a i)

/-- MERGE_COMPLETE: saturation is reported as at a commit. -/
def execMergeComplete (c a : Nat) (s : State) : Host.Outcome State Fault Refusal :=
  .next <| match s.opDone c a 7 with
    | some o =>
      let s := (s.setArr c a { s.arr c a with op := none }).progress c o.instr.ctx
      if o.sat then s.reportSat c a o.instr.ctx o.instr.tile else s
    | none => s

/-! ## Aborts, holds, ownership, window writes -/

/-- PASS_ABORT (R92, R436): a pass of context x aborts for a cause: 1 lockstep mismatch, 2 an uncorrectable operand,
3 an uncorrectable tile, 4 a task abort, 5 a teardown; the task is aborted under 2 to 4. -/
def execPassAbort (c a x cause : Nat) (s : State) : Host.Outcome State Fault Refusal :=
  .next <|
    if decide (1 ≤ cause) && decide (cause ≤ 5) && (s.arr c a).passes.any fun p => p.instr.ctx == x then
      let s := s.abortArr c a x cause
      if cause = 2 ∨ cause = 3 then s.abortCtx c x 5 else if cause = 4 then s.abortCtx c x 6 else s
    else s

/-- Whether the array is idle (R81): no pass, no DRAIN or MERGE, nothing occupying it. -/
def State.arrIdle (s : State) (c a : Nat) : Bool :=
  let v := s.arr c a
  v.passes.isEmpty && v.op.isNone && decide (v.busy ≤ s.ct) && (v.panels.all fun p => decide (p.busy ≤ s.ct))

/-- The word after a write with byte enables. -/
def mergeBytes (be old new : Nat) : Nat :=
  leNat ((List.range 8).map fun i => BitVec.ofNat 8 ((if bit be i then new else old) / 256 ^ i))

/-- ACC_WRITE (R81): a write through the cluster window to a word of an idle array; ignored with ACC_WRITE_BUSY otherwise. A write with
byte enables reads the word first (R112, R114); column 31 of a narrowed array keeps word 0 (R95). -/
def State.accWrite (s : State) (r : Requester) (c a t e value be : Nat) : Option AccErr × State :=
  let addr := accAddr c a t e
  if !s.mapped addr 8 then (some .unmapped, s.raiseReq .addrUnmapped r addr)
  else if s.arrIdle c a then
    let w : Option AccErr × State := if be % 256 = 255 then (none, s) else
      let rd := s.memFetch r addr 8
      (rd.1.err, rd.2)
    if w.1.isSome || (e % 32 == 31 && s.arrWidth c a == 31) then w
    else w.2.memWrite r addr (leBytes 8 (if be % 256 = 255 then value else mergeBytes be (s.ldn addr 8) value))
  else (none, s.raise .accWriteBusy (scopeOf (s.ownerOf c)) { req := r.index, unit := a, info0 := addr % 2 ^ 32, info1 := addr / 2 ^ 32, cluster := some c })

/-- ARR_CTRL_STOP (R90): a write of ARR_CTRL. -/
def execArrCtrlStop (_r : Requester) (c a value : Nat) (s : State) : Host.Outcome State Fault Refusal :=
  .next (if decide (c < s.nClusters) && decide (a < 8) then s.wr (arrReg c a 4) (value % 2) else s)

/-- Whether a tile has a queued or running instruction. -/
def Arr.tileBusy (v : Arr) (t : Nat) : Bool :=
  (v.queues.any fun q => q.any fun i => i.tile == t) || (v.passes.any fun p => p.instr.tile == t) ||
  (match v.op with
    | some o => o.instr.tile == t
    | none => false)

/-- ARR_TILE_OWNER after a write: a field whose owner would change stays where the tile has a queued or running
instruction (Table 04-15). -/
def State.tileOwners (s : State) (c a value : Nat) : Nat :=
  (List.range 8).foldl (fun w t =>
    let o := bits value (4 * t + 3) (4 * t)
    if o ≠ s.tileOwner c a t ∧ (s.arr c a).tileBusy t = true then w else setBits w (4 * t + 3) (4 * t) o) (s.rd (arrReg c a 8))

/-- ARR_TILE_OWNER_WRITE. -/
def execArrTileOwnerWrite (_r : Requester) (c a value : Nat) (s : State) : Host.Outcome State Fault Refusal :=
  .next (if decide (c < s.nClusters) && decide (a < 8) then s.wr (arrReg c a 8) (s.tileOwners c a value) else s)

end Sys2Proof.Machine
end

