-- ==== Sys2Proof/Machine/Golden.lean ====
section
/-! DEFINITION. The golden test (R438, R439): the golden sets, the result bytes of each unit of a cluster, and their signatures. -/

namespace Sys2Proof.Machine

/-- One step of the CRC-32C register: its low bit shifted out. -/
def crcShift (v : BitVec 32) : BitVec 32 := if v.getLsbD 0 then v >>> 1 ^^^ 0x82F63B78#32 else v >>> 1

/-- CRC-32C of a byte string, with initial value 0xFFFF_FFFF and a final inversion (R439). -/
def crc32c (l : List Byte) : Nat :=
  (~~~(l.foldl (fun v b => (List.range 8).foldl (fun v _ => crcShift v) (v ^^^ b.setWidth 32)) 0xFFFFFFFF#32)).toNat

/-- The arithmetic word of a golden set (Table 20-3): formats with their block scales, and a C vector in set 7. -/
def goldenArith (set : Nat) : ArithWord :=
  let w := fun (a b : Nat) (scaled : Bool) (cin : Nat) =>
    ({ aFmt := a, aBs := scaled, bFmt := b, bBs := scaled, outFmt := 0xA, outSat := false, cin := cin, headroom := 0 } : ArithWord)
  match set with
  | 0 => w 0 0 false 0
  | 1 => w 2 2 false 0
  | 2 => w 3 4 false 0
  | 3 => w 3 3 true 0
  | 4 => w 5 5 true 0
  | 5 => w 6 6 false 0
  | 6 => w 7 6 false 0
  | _ => w 0 1 false 1

/-- Element (i, j) of an array's golden result: the word after the set's 64 K-steps and its anchor field; column 31 of a narrowed array
holds neither (R95).
LOG 161 (DESIGN CHOICE). -/
def goldenCell (set width i j : Nat) : Nat × Nat :=
  let w := goldenArith set
  let rom := Config.goldenOperand set
  if width ≤ j then (0, 0)
  else
    let a := anchorElem w (rom 4) (rom 5) i j
    ((runCell w (rom 0) (rom 1) (rom 2) (rom 3) 0 (kOfSteps w 64) i j (anchorDecode a.1) a.2).1, a.1)

/-- The units of a cluster that the golden test runs: arrays 0–7, engines 8 and 9, the Mover 10. -/
def goldenUnits : List Nat := List.range 11

/-- The result bytes of a unit of a cluster in the order it produces them (R439).
LOG 161 (DESIGN CHOICE). -/
def goldenBytes (set width unit : Nat) : List Byte :=
  if unit < 8 then
    (List.range 1024).flatMap fun e => let q := goldenCell set width (e / 32) (e % 32); leBytes 8 q.1 ++ leBytes 2 q.2
  else if unit < 10 then Config.goldenResult 0 set
  else Config.goldenResult 1 set ++ Config.goldenResult 2 set ++ Config.goldenResult 3 set

/-- Result bytes with what the faults of a unit changed in them. -/
def spoiled (errors : List UnitError) (c unit : Nat) (l : List Byte) : List Byte :=
  (errors.filter fun e => e.cluster == c && e.unit == unit).foldl (fun l e => l.modify e.pos fun b => b ^^^ e.xor) l

/-- The width that a unit's signature depends on. -/
def State.goldenWidth (s : State) (c unit : Nat) : Nat := if unit < 8 then s.arrWidth c unit else 32

/-- The signature of a unit of cluster c after a golden test. -/
def State.signature (s : State) (set c unit : Nat) (errors : List UnitError) : Nat :=
  crc32c (spoiled errors c unit (goldenBytes set (s.goldenWidth c unit) unit))

/-- The signature that the ROM holds for a unit and a set: that of a unit without fault.
LOG 162 (DEDUCED). -/
def State.expected (s : State) (set c unit : Nat) : Nat := s.signature set c unit []

end Sys2Proof.Machine
end

