-- ==== Sys2Proof/Machine/Vector.lean ====
section
/-! DEFINITION. The vector engines (R99–R106): the steps they run and their chain tables. -/

namespace Sys2Proof.Machine

/-! ## Steps -/

/-- The running step ends once its ticks are over; VEC_STEP_COUNT counts it. -/
def State.vecEnd (s : State) (c e : Nat) : State :=
  let v := s.vec c e
  match v.running with
  | some r =>
    if v.until_ ≤ s.ct then ((s.setVec c e { v with running := none }).count64 (vecReg c e 8) 1).progress c r.ctx else s
  | none => s

/-- The contexts that have a step on an engine that may start: every queued context but elastic ones under a claim of the
timed context (R101), throttling (R516) or a pre-emption. -/
def State.vecReady (s : State) (c e : Nat) : List Nat :=
  (List.range 5).filter fun x =>
    ((s.vec c e).queue.any fun q => q.ctx == x) &&
    (x == 4 || !((s.vec c e).claim || s.throttled || (s.ctx c x).held))

/-- The context whose step starts: the timed one first, then the order of R296. -/
def State.vecChoice (s : State) (c e : Nat) : Option Nat :=
  let l := s.vecReady c e
  let last := (s.vec c e).lastIssue
  if l.contains 4 then some 4
  else l.find? fun x => l.all fun y => y == x || beats (s.ctxPrio c x) (last.getD x 0) x (s.ctxPrio c y) (last.getD y 0) y

/-- The engine that the cluster sequencer chooses for a standalone step: the one with the shorter queue. -/
def State.stepEngine (s : State) (c : Nat) : Nat := if (s.vec c 1).queue.length < (s.vec c 0).queue.length then 1 else 0

/-- A step whose kernel is not in the kernel store (R100): KERNEL_INVALID of this engine, and the task is aborted. -/
def State.kernelInvalid (s : State) (c e x kernel : Nat) : State :=
  let s := s.orReg (vecReg c e 0) (2 ^ 24)
  (s.raiseCl .vecKernelInvalid c (some x) (8 * c) e kernel 0).abortCtx c x 6

/-- Whether a kernel is in cluster c's kernel store. -/
def State.kernelIn (s : State) (c k : Nat) : Bool := (sparseGet [] s.kstore c).contains k

/-- The next step starts. -/
def State.vecStart (s : State) (c e : Nat) : State :=
  match s.vecChoice c e with
  | none => s
  | some x =>
    match (s.vec c e).queue.find? fun q => q.ctx == x with
    | none => s
    | some q =>
      let v := { s.vec c e with queue := dropFirst (fun r => r.ctx == x) (s.vec c e).queue, lastIssue := setAt (s.vec c e).lastIssue x s.ct }
      let t := s.ct
      let s := if x != 4 && 1 < (s.vecReady c e).length then s.ndTiming (s.ownerOf c) else s
      let s := s.setVec c e v
      if q.kernel ≠ 0 ∧ s.kernelIn c q.kernel = false then s.kernelInvalid c e x q.kernel
      else (s.setVec c e { v with running := some q, until_ := t + q.ct }).started c x

/-- VEC_STEP: at a step boundary the step that ended is counted and the next one starts. -/
def execVecStep (c e : Nat) (s : State) : Host.Outcome State Fault Refusal :=
  .next <|
    let s := s.vecEnd c e
    if (s.vec c e).running.isNone then s.vecStart c e else s

/-! ## Chain table (R106) -/

/-- Whether a queued or running DRAIN that engine e serves names a chain entry. -/
def State.chainNamed (s : State) (c e entry : Nat) : Bool :=
  (List.range 4).any fun k =>
    let v := s.arr c (4 * e + k)
    let names := fun (i : QInstr) => i.op == 4 && i.aux == entry
    (v.queues.any fun q => q.any names) || (match v.op with
      | some o => names o.instr
      | none => false)

/-- VEC_CHAIN_WRITE. -/
def execVecChainWrite (r : Requester) (c e off value : Nat) (s : State) : Host.Outcome State Fault Refusal :=
  .next <|
    if s.mayWrite .stewardSeq r c && decide (c < s.nClusters) && decide (e < 2) && decide (off < 0x200) && off % 4 == 0 &&
        !s.chainNamed c e (off / 32) then s.wr (vecReg c e (0x100 + off)) value
    else s

end Sys2Proof.Machine
end

