-- ==== Sys2Proof/Machine/OnChip.lean ====
section
/-! DEFINITION. On-chip memory (R107–R136): error write-back, atomic operations, work counters, tag commands, the Rinse. -/

namespace Sys2Proof.Machine

/-- The completion status of a request (R19, R115, R133, R391): the host sees Unsupported Request or Completer Abort, every
other requester an error response. -/
def respOf (r : Requester) (e : Option AccErr) : RespStatus :=
  match e with
  | none => .ok
  | some k => if r = .pcie then (if k = .ue ∨ k = .locked then .abort else .unsupported) else .error

/-- A cluster unit's failed access aborts its task (R115, R123). -/
def State.failTask (s : State) (r : Requester) (e : Option AccErr) : State :=
  match e, r.cluster, r.ctx with
  | some k, some c, some x => s.abortCtx c x k.cause
  | _, _, _ => s

/-- Whether a requester may make an access (R122, R124, R125): a unit that acts for a context within its windows, a core of the service
complex within those of S, a cluster's sequencer and swap unit anywhere but in another partition's memory, every other unit anywhere. -/
def State.reqWindowOk (s : State) (r : Requester) (ga n : Nat) (right : Right) : Bool :=
  match r.cluster, r.ctx with
  | some c, some x => s.windowOk c x ga n right
  | some c, none => match s.localOf ga with
    | some l => !s.foreign c l
    | none => true
  | none, _ => match r with
    | .hart _ => s.swinOk ga n right
    | _ => true

/-- BB_VIOLATION of a requester (R123). -/
def State.reqViolation (s : State) (r : Requester) (ga : Nat) : State :=
  match r.cluster, r.ctx with
  | some c, some x => (s.bbViolation r c x ga).answer r .error []
  | _, _ => (s.raiseReq .bbViolation r ga).answer r .error []

/-- ACC_WRITE: for a context within its windows, for the service complex within those of S, and never into another partition (R122, R125). -/
def execAccWrite (r : Requester) (c a t e value be : Nat) (s : State) : Host.Outcome State Fault Refusal :=
  .next <|
    let ga := 127 * 2 ^ 41 + accAddr c a t e
    if decide (a < 8) && decide (t < 8) && decide (e < 1024) then
      if s.reqWindowOk r ga 8 .write then
        let w := s.accWrite r c a t e value be
        w.2.failTask r w.1
      else s.reqViolation r ga
    else s

/-! ## Error correction (R113) -/

/-- Whether a word (address ÷ 8) lies in a bank: of cluster c's scratchpad, or, with c past the last cluster, of the pool (R127).
LOG 165 (DESIGN CHOICE). -/
def inBank (c bank w : Nat) : Bool := bankOf (w * 8) == some (if c < 64 then c * 32 + bank else 2048 + bank)

/-- CORRECTION_WRITE_BACK: the oldest word of a bank that a read has corrected is rewritten, in a tick in which nothing else wants the
bank's write port (R111, R113). -/
def execCorrectionWriteBack (c bank : Nat) (s : State) : Host.Outcome State Fault Refusal :=
  .next <| match s.spBack.find? (inBank c bank) with
    | some w =>
      if s.now.uses.any fun u => u.wr && some u.bank == bankOf (w * 8) then s
      else { s with spBack := s.spBack.filter (· != w), mem := if s.mem.err (w * 8) = some true then s.mem else s.mem.heal w }
    | none => s

/-! ## Atomic operations and work counters (R128–R130) -/

/-- The work counter a local address names: the canonical address of its low word. -/
def workCtr (a : Nat) : Option Nat :=
  match regionOf a with
  | .reg r false => if r < devBase ∧ 0xF00400 ≤ (r - clusterBase) % 0x1000000 ∧ (r - clusterBase) % 0x1000000 < 0xF00480 ∧ r % 8 = 0 then some r else none
  | _ => none

/-- An atomic operation or counter fetch of a requester on a local address: the word before it, its failure. -/
def State.reqAtomic (s : State) (r : Requester) (op : AtomicOp) (a operand expected : Nat) : (Nat × Option AccErr) × State :=
  match op, workCtr a with
  | .fetch, some w =>
    if s.unitPresent w && a % 8 == 0 then ((s.rd64 w, none), s.wr64 w ((s.rd64 w + operand % 2 ^ 32) % 2 ^ 64))
    else ((0, some .unmapped), s.raiseReq .addrUnmapped r a)
  | _, _ => s.memAtomic r op a operand expected

/-- An atomic request whole: window check, operation, reaction to a failure, completion. -/
def State.atomicReq (s : State) (r : Requester) (op : AtomicOp) (a operand expected : Nat) : State :=
  let ga := 127 * 2 ^ 41 + a
  if !s.reqWindowOk r ga (atomicLen op) .atomic then s.reqViolation r ga
  else
    let q := s.reqAtomic r op a operand expected
    (q.2.failTask r q.1.2).answer r (respOf r q.1.2) (leBytes (atomicLen op) q.1.1)

/-- POOL_ATOMIC: fetch-and-add, swap, compare-and-swap or FP32 add in a pool bank. -/
def execPoolAtomic (r : Requester) (op : AtomicOp) (addr operand expected : Nat) (s : State) : Host.Outcome State Fault Refusal :=
  .next <|
    if decide (poolBase ≤ addr) && decide (addr < poolBase + poolSize) then s.atomicReq r op addr operand expected else s

/-- WORK_COUNTER_FETCH: a fetch-and-add of a 32-bit increment. -/
def execWorkCounterFetch (r : Requester) (addr inc : Nat) (s : State) : Host.Outcome State Fault Refusal :=
  .next (s.atomicReq r .fetch addr inc 0)

/-! ## Tag commands (R117) -/

/-- Whether a tag command is obeyed (Table 05-7): the Steward's or the cluster sequencer's, on a slot of the scratchpad. -/
def State.tagCmdOk (s : State) (r : Requester) (c slot : Nat) : Bool :=
  s.mayWrite .stewardSeq r c && decide (c < s.nClusters) && decide (slot < 8192)

/-- A tag set by command: applied after the hardware changes of its tick (R117). -/
def State.tagCmd (s : State) (c slot : Nat) (b : Bool) : State := s.changeTags ⟨s.ct + 1, c, slot, 1, 0, b, true⟩

/-- SET_FULL. -/
def execSetFull (r : Requester) (c slot : Nat) (s : State) : Host.Outcome State Fault Refusal :=
  .next (if s.tagCmdOk r c slot then s.tagCmd c slot true else s)

/-- SET_EMPTY. -/
def execSetEmpty (r : Requester) (c slot : Nat) (s : State) : Host.Outcome State Fault Refusal :=
  .next (if s.tagCmdOk r c slot then s.tagCmd c slot false else s)

/-! ## The Rinse (R131–R133) -/

/-- A tile zero-filled: words, anchors, SAT; its owner becomes none. -/
def State.rinseTile (s : State) (c a t : Nat) : State :=
  let lo := accAddr c a t 0
  let m := s.mem.zero lo 0x2000
  let s := { s with mem := { m with anchors := sparseDrop m.anchors (lo / 8) ((lo + 0x2000) / 8) } }
  let s := s.setArr c a { s.arr c a with set := setBits (s.arr c a).set t t 0 }
  (s.setTileSat c a t false).setTileOwner c a t 0xF

/-- Whether the accesses of context x of cluster c have all ended: no piece in flight, no pass, DRAIN or MERGE, no running
engine step, no attention item, its completion word written. -/
def State.ctxQuiet (s : State) (c x : Nat) : Bool :=
  ((s.chansOf c x).all fun n => (s.chan c n).inflight.isEmpty) &&
  ((List.range 8).all fun a => ((s.arr c a).passes.all fun p => p.instr.ctx != x) && (match (s.arr c a).op with
    | some o => o.instr.ctx != x
    | none => true)) &&
  ((List.range 2).all fun e => match (s.vec c e).running with
    | some r => r.ctx != x || decide ((s.vec c e).until_ ≤ s.ct)
    | none => true) &&
  (s.att c).ctx != some x && (s.ctx c x).tiler.phase != 2

/-- The end of a Rinse job: of a resident context the slot is freed and the context is empty (R313). -/
def State.rinseEnd (s : State) (k : Rinse) : State :=
  let s := { s with rinses := s.rinses.erase k }
  if k.swapped then s
  else
    let s := match (List.range 16).find? fun n => (s.slot k.cluster n).ctx == some k.ctx with
      | some n => s.freeSlot k.cluster n
      | none => s
    ((s.setCtx k.cluster k.ctx Ctx.empty).setCtxState k.cluster k.ctx 0 0).settle

/-- The ticks that the scratchpad Rinse takes for a list of regions, one after another: 8 rows a ct (R132). -/
def scratchTicks (l : List (Nat × Nat × Nat)) : Nat := (l.map fun v => ceilDiv (regionRows v) 8).foldl (· + ·) 0

/-- The slots of a scratchpad region of a job become empty, two a ct, each as its last row is written (R132). -/
def State.emptyRegion (s : State) (k : Rinse) (v : Nat × Nat × Nat) : State :=
  let c := k.cluster
  let first := (v.2.1 - clWin c) / 256
  let before := k.todo.takeWhile fun w => w.1 != v.1
  if v.2.1 < poolBase then
    s.changeTags ⟨s.ct + scratchTicks (before.filter fun w => decide (w.2.1 < poolBase)) + 1, c, first, (v.2.2 + 1 - clWin c + 255) / 256 - first, 2, false, false⟩
  else s

/-- The scrub of a job begins: tiles and locked windows are zero-filled and the windows' slots set empty; with no window locked the job
ends.
LOG 31 (DESIGN CHOICE). -/
def State.rinseStart (s : State) (k : Rinse) : State :=
  let s := k.tiles.foldl (fun s t => s.rinseTile k.cluster t.1 t.2) s
  let s := k.windows.foldl (fun s w => { s with mem := s.mem.zero w.2.1 (w.2.2 + 1 - w.2.1) }) s
  let s := k.windows.foldl (fun s w => s.emptyRegion k w) s
  let k1 := { k with started := true, startAt := s.ct, tiles := [] }
  if k.windows.isEmpty then s.rinseEnd k
  else { s with rinses := s.rinses.map fun r => if r = k then k1 else r }

/-- RINSE_SCRUB: once the context's accesses have ended (ctx 7: the windows of a swapped-out slot).
LOG 31 (DESIGN CHOICE). -/
def execRinseScrub (c x : Nat) (s : State) : Host.Outcome State Fault Refusal :=
  .next <| match s.rinses.find? fun r => r.cluster == c && r.ctx == x && !r.started with
    | some k => if k.swapped || s.ctxQuiet c x then s.rinseStart k else s
    | none => s

/-- The ticks a region's scrub takes from the start of its job (R132): over the regions of the cluster window in window order 8 rows a ct
and the displaced rows, 128 bytes a ct in each pool bank, four banks of a slice at once. -/
def rinseTicks (k : Rinse) (w lo hi : Nat) : Nat :=
  if lo < poolBase then
    scratchTicks (k.todo.filter fun v => decide (v.1 < w) && decide (v.2.1 < poolBase)) + ceilDiv (regionRows (w, lo, hi) + k.displaced) 8
  else max (ceilDiv (min (hi + 1 - lo) 0x80000) 128) (ceilDiv (hi + 1 - lo) (512 * ((hi - poolBase) / 0x400000 + 1 - (lo - poolBase) / 0x400000)))

/-- RINSE_REGION_DONE: the region of window w is scrubbed and unlocks; after the last one the job ends.
LOG 31 (DESIGN CHOICE). -/
def execRinseRegionDone (c x w : Nat) (s : State) : Host.Outcome State Fault Refusal :=
  .next <| match s.rinses.find? fun r => r.cluster == c && r.ctx == x && r.started && r.windows.any fun v => v.1 == w with
    | some k =>
      match k.windows.find? fun v => v.1 == w with
      | some v =>
        if k.startAt + rinseTicks k w v.2.1 v.2.2 ≤ s.ct then
          let k1 := { k with windows := k.windows.filter fun v => v.1 != w }
          let s := { s with rinses := s.rinses.map fun r => if r = k then k1 else r }
          if k1.windows.isEmpty then s.rinseEnd k1 else s
        else s
      | none => s
    | none => s

end Sys2Proof.Machine
end

