-- ==== Sys2Proof/Machine/Movers.lean ====
section
/-! DEFINITION. The Movers' descriptors (R137–R162): fields, checks at a push, the walk, tags of source slots, the census, the
codecs, channel control. Pieces are issued and delivered in MoverRun. -/

namespace Sys2Proof.Machine

/-! ## Fields (Table 06-1, Table 06-2) -/

/-- A Mover descriptor. -/
structure MovDesc where
  op : Nat
  srcMode : Nat
  dstTag : Bool
  srcLoc : Bool
  dstLoc : Bool
  codec : Nat
  elem : Nat
  census : Bool
  sync : Nat
  release : Nat
  src : Nat
  dst : Nat
  cslot : Nat
  len0 : Nat
  cnt : List Nat
  sstr : List Int
  dstr : List Int
  pos : List Nat
  deriving DecidableEq, Repr

/-- A register word of descriptor entry e. -/
def descReg (c e word : Nat) : Nat := movReg c (0x800 + 0x40 * e + 4 * word)

/-- The 64 bytes of descriptor entry e. -/
def State.descBytes (s : State) (c e : Nat) : List Byte := (List.range 16).flatMap fun w => leBytes 4 (s.rd (descReg c e w))

/-- A position from PROGRESS (R150). -/
def posOf (v : Nat) : List Nat := [bits v 15 0, bits v 27 16, bits v 39 28, bits v 51 40, bits v 63 52]

/-- PROGRESS of a position. -/
def progressOf (p : List Nat) : Nat :=
  p.getD 0 0 % 2 ^ 16 + p.getD 1 0 % 2 ^ 12 * 2 ^ 16 + p.getD 2 0 % 2 ^ 12 * 2 ^ 28 + p.getD 3 0 % 2 ^ 12 * 2 ^ 40 + p.getD 4 0 % 2 ^ 12 * 2 ^ 52

/-- A stride: s24 times 16^SH. -/
def strideAt (l : List Byte) (o sh : Nat) : Int := toSigned 24 (fieldAt l o 3) * (16 ^ sh : Nat)

/-- The descriptor of 64 bytes. -/
def movDesc (l : List Byte) : MovDesc :=
  let c := fieldAt l 0 4
  let sh := fieldAt l 0x1E 2
  let n := fieldAt l 0x0E 2
  { op := bits c 1 0, srcMode := bits c 3 2, dstTag := bit c 4, srcLoc := bit c 5, dstLoc := bit c 6, codec := bits c 9 7,
    elem := bits c 13 10, census := bit c 14 || bits c 1 0 == 2, sync := fieldAt l 4 2, release := fieldAt l 6 2,
    src := fieldAt l 8 6, dst := fieldAt l 0x10 6, cslot := fieldAt l 0x16 2 % 2 ^ 13, len0 := if n = 0 then 65536 else n,
    cnt := (List.range 4).map fun d => bits (fieldAt l 0x18 6) (12 * d + 11) (12 * d) + 1,
    sstr := (List.range 4).map fun d => strideAt l (0x20 + 3 * d) (bits sh (2 * d + 1) (2 * d)),
    dstr := (List.range 4).map fun d => strideAt l (0x2C + 3 * d) (bits sh (2 * d + 9) (2 * d + 8)),
    pos := posOf (fieldAt l 0x38 8) }

/-- The descriptor in entry e of cluster c. -/
def State.desc (s : State) (c e : Nat) : MovDesc := movDesc (s.descBytes c e)

/-! ## Sizes -/

/-- Whether the compressed side is the source. -/
def MovDesc.decode (d : MovDesc) : Bool := d.codec == 2 || d.codec == 4
/-- Whether the compressed side is the destination. -/
def MovDesc.encode (d : MovDesc) : Bool := d.codec == 1 || d.codec == 3
/-- The bytes of a compressed block (R157, R159). -/
def MovDesc.block (d : MovDesc) : Nat := if d.codec ≤ 2 then 32 else 24
/-- The bytes of 32 elements. -/
def MovDesc.group (d : MovDesc) : Nat := 4 * fmtBits d.elem
/-- The blocks of 32 elements of a run. -/
def MovDesc.blocks (d : MovDesc) : Nat := ceilDiv d.len0 d.group
/-- The runs of the descriptor. -/
def MovDesc.runs (d : MovDesc) : Nat := d.cnt.foldl (· * ·) 1
/-- The bytes a side uses of the uncompressed position p0. -/
def sideOff (comp : Bool) (group block p0 : Nat) : Nat := if comp then p0 / group * block else p0
/-- The bytes of a run on the source side. -/
def MovDesc.srcRun (d : MovDesc) : Nat := if d.decode then d.blocks * d.block else d.len0
/-- The bytes of a run on the destination side. -/
def MovDesc.dstRun (d : MovDesc) : Nat := if d.encode then d.blocks * d.block else d.len0

/-- The offset of a position's run from the address of a side. -/
def runOff (str : List Int) (p : List Nat) : Int := ((str.zip (p.drop 1)).map fun (e : Int × Nat) => e.1 * (e.2 : Int)).foldl (· + ·) 0

/-- The least and greatest run offset of a side. -/
def reach (str : List Int) (cnt : List Nat) : Int × Int :=
  let far := (str.zip cnt).map fun (e : Int × Nat) => e.1 * ((e.2 : Int) - 1)
  ((far.map (min 0)).foldl (· + ·) 0, (far.map (max 0)).foldl (· + ·) 0)

/-! ## The check at a push (R142) -/

/-- Whether a local side stays inside the scratchpad. -/
def localOk (base : Nat) (str : List Int) (cnt : List Nat) (run : Nat) : Bool :=
  let r := reach str cnt
  decide (0 ≤ (base : Int) + r.1) && decide ((base : Int) + r.2 + (run : Nat) ≤ 0x200000)

/-- Whether a descriptor is accepted on a channel of the elastic or timed class.
LOG 35 (DESIGN CHOICE). -/
def descOk (l : List Byte) (timed : Bool) : Bool :=
  let d := movDesc l
  let c := fieldAt l 0 4
  let al := if d.codec ≤ 2 then 32 else 8
  let aligned := fun (a : Nat) (str : List Int) => a % al == 0 && str.all fun v => v % (al : Int) == 0
  decide (d.op < 3) && decide (d.srcMode < 3) && decide (d.codec < 5) && decide (d.elem ≤ 0xA) && bits c 31 15 == 0 &&
  bits (fieldAt l 0x16 2) 15 13 == 0 && (timed || d.release == 0) &&
  d.len0 * 8 % fmtBits d.elem == 0 &&
  (!d.census || (decide (3 ≤ d.elem) && decide (d.elem ≤ 8))) &&
  (match d.codec with
    | 0 => true
    | 1 | 2 => d.elem == 6
    | _ => d.elem == 0) &&
  (d.codec == 0 || d.op == 0) &&
  (!d.decode || aligned d.src d.sstr) && (!d.encode || aligned d.dst d.dstr) &&
  (d.op == 1 || !d.srcLoc || localOk d.src d.sstr d.cnt d.srcRun) &&
  (d.op == 2 || !d.dstLoc || localOk d.dst d.dstr d.cnt d.dstRun) &&
  (!d.census || decide (d.cslot * 256 + d.runs * d.blocks ≤ 0x200000)) &&
  decide (d.pos.getD 0 0 < d.len0) && ((d.pos.drop 1).zip d.cnt).all (fun e => decide (e.1 < e.2)) &&
  (d.codec == 0 || d.pos.getD 0 0 % d.group == 0)

/-! ## The walk (R143) -/

/-- Whether a position lies past the last one. -/
def MovDesc.over (d : MovDesc) (p : List Nat) : Bool := decide (d.cnt.getD 3 1 ≤ p.getD 4 0)

/-- The source address of a position, as an integer. -/
def MovDesc.srcAt (d : MovDesc) (p : List Nat) : Int :=
  (d.src : Int) + runOff d.sstr p + (sideOff d.decode d.group d.block (p.getD 0 0) : Nat)
/-- The destination address of a position. -/
def MovDesc.dstAt (d : MovDesc) (p : List Nat) : Int :=
  (d.dst : Int) + runOff d.dstr p + (sideOff d.encode d.group d.block (p.getD 0 0) : Nat)

/-- The uncompressed bytes of the piece at a position: up to the next 64-byte boundary of the source (of the destination for
FILL), or two blocks under a codec. -/
def MovDesc.pieceLen (d : MovDesc) (p : List Nat) : Nat :=
  let rest := d.len0 - p.getD 0 0
  if d.codec ≠ 0 then min rest (2 * d.group)
  else
    let a := if d.op = 1 then d.dstAt p else d.srcAt p
    min rest (64 - (a % 64).toNat)

/-- The blocks a piece of n uncompressed bytes carries. -/
def MovDesc.pieceBlocks (d : MovDesc) (n : Nat) : Nat := ceilDiv n d.group
/-- The source bytes of a piece. -/
def MovDesc.srcLen (d : MovDesc) (n : Nat) : Nat := if d.decode then d.pieceBlocks n * d.block else n
/-- The destination bytes of a piece. -/
def MovDesc.dstLen (d : MovDesc) (n : Nat) : Nat := if d.encode then d.pieceBlocks n * d.block else n

/-- The position with its outer dimensions advanced by one run. -/
def carry : List Nat → List Nat → List Nat
  | [p], _ => [p + 1]
  | p :: r, c :: q => if p + 1 < c then (p + 1) :: r else 0 :: carry r q
  | r, _ => r

/-- The position after a piece of n bytes. -/
def MovDesc.after (d : MovDesc) (p : List Nat) (n : Nat) : List Nat :=
  if p.getD 0 0 + n < d.len0 then (p.getD 0 0 + n) :: p.drop 1 else 0 :: carry (p.drop 1) d.cnt

/-- The number of runs completed before a position. -/
def MovDesc.runIndex (d : MovDesc) (p : List Nat) : Nat :=
  let g := fun k => d.cnt.getD k 1
  p.getD 1 0 + g 0 * (p.getD 2 0 + g 1 * (p.getD 3 0 + g 2 * p.getD 4 0))

/-- The position at the start of run k. -/
def MovDesc.runStart (d : MovDesc) (k : Nat) : List Nat :=
  let g := fun i => d.cnt.getD i 1
  [0, k % g 0, k / g 0 % g 1, k / (g 0 * g 1) % g 2, k / (g 0 * g 1 * g 2)]

/-! ## Source slots of a consuming descriptor (R145) -/

/-- The mask of the bytes of [lo, lo + n) in the 256 bytes of slot `key`. -/
def slotMask (key : Nat) (lo : Int) (n : Nat) : Nat :=
  let a := max lo (256 * (key : Int))
  let b := min (lo + (n : Nat)) (256 * (key : Int) + 256)
  if a < b then (2 ^ (b - a).toNat - 1) * 2 ^ (a - 256 * (key : Int)).toNat else 0

/-- The bytes of slot `key` that a descriptor reads: over the dimensions, outermost last. -/
def maskOver (key n : Nat) : List (Nat × Int) → Int → Nat
  | [], lo => slotMask key lo n
  | (cnt, str) :: r, lo => (List.range cnt).foldl (fun m k => m ||| maskOver key n r (lo + (k : Nat) * str)) 0

/-- The bytes of slot `key` that the whole descriptor reads. -/
def MovDesc.slotNeeds (d : MovDesc) (key : Nat) : Nat := maskOver key d.srcRun (d.cnt.zip d.sstr).reverse (d.src : Int)

/-- The slot keys (address ÷ 256) of n bytes. -/
def slotKeys (lo : Int) (n : Nat) : List Nat :=
  if n = 0 then [] else (List.range ((lo.toNat + n - 1) / 256 + 1 - lo.toNat / 256)).map (lo.toNat / 256 + ·)

/-- Bytes read from source slots: the masks after them, and the slots of a consuming descriptor whose every byte has now been
read.
LOG 34 (DESIGN CHOICE). -/
def MovDesc.touch (d : MovDesc) (m : List (Nat × Nat)) (lo : Int) (n : Nat) : List (Nat × Nat) × List Nat :=
  (slotKeys lo n).foldl (fun acc k =>
    let v := sparseGet 0 acc.1 k ||| slotMask k lo n
    if d.srcMode = 2 ∧ v &&& d.slotNeeds k = d.slotNeeds k then (sparsePut 0 acc.1 k 0, acc.2 ++ [k])
    else (sparsePut 0 acc.1 k v, acc.2)) (m, [])

/-- The masks at a position that a descriptor resumes from: the whole runs before it, then its own run. -/
def MovDesc.maskAt (d : MovDesc) (p : List Nat) : List (Nat × Nat) :=
  if d.srcMode = 0 then []
  else
    let m := (List.range (d.runIndex p)).foldl (fun m k => (d.touch m (d.srcAt (d.runStart k)) d.srcRun).1) []
    (d.touch m (d.srcAt (0 :: p.drop 1)) (sideOff d.decode d.group d.block (p.getD 0 0))).1

/-! ## The codecs (R157–R160) -/

/-- The elements of bytes. -/
def elemsOf (code : Nat) (l : List Byte) : List Nat :=
  (List.range (l.length * 8 / fmtBits code)).map fun i => elemAt l (fmtBits code) i

/-- A list padded with zeros to n elements. -/
def padTo (n : Nat) (l : List Nat) : List Nat := l ++ List.replicate (n - l.length) 0

/-- The magnitude code of a BF16 value on a grid step of 2^e. -/
def b8Mag (e : Int) (x : Nat) : Nat :=
  match decodeElem 6 x with
  | .fin _ sig exp => min 63 (roundShift sig (e - exp))
  | _ => 0

/-- An FMC-B8 block of 32 BF16 values. -/
def b8Encode (xs : List Nat) : List Byte :=
  let c := censusBlock 6 xs
  if c = 0xFF then leBytes 32 0xFF
  else
    let shifts := (List.range 4).map fun u =>
      let cu := censusBlock 6 ((xs.drop (8 * u)).take 8)
      if c = 0 then 0 else if cu = 0 then 3 else min 3 (c - cu)
    let codes := xs.zipIdx.map fun e =>
      let m := b8Mag ((c : Int) - 132 - (shifts.getD (e.2 / 8) 0 : Nat)) e.1
      (if m ≠ 0 ∧ bit e.1 15 = true then 64 else 0) + m
    leBytes 1 c ++ leBytes 1 ((shifts.zipIdx.map fun e => e.1 * 4 ^ e.2).foldl (· + ·) 0) ++ leBytes 2 0 ++
    leBytes 28 ((codes.zipIdx.map fun e => e.1 * 2 ^ (7 * e.2)).foldl (· + ·) 0)

/-- The 32 BF16 values of an FMC-B8 block. -/
def b8Decode (l : List Byte) : List Nat :=
  let c := fieldAt l 0 1
  if c = 0xFF then List.replicate 32 0x7FC0
  else (List.range 32).map fun k =>
    let code := bits (fieldAt l 4 28) (7 * k + 6) (7 * k)
    let m := code % 64
    if m = 0 then 0
    else (roundFloat fmtBF16 false (.fin (bit code 6) m ((c : Int) - 132 - (bits (fieldAt l 1 1) (2 * (k / 8) + 1) (2 * (k / 8)) : Nat)))).code

/-- The magnitude of an FMC-I6 index. -/
def i6Mag (n : Nat) : Nat := if n ≤ 15 then n else if n ≤ 19 then 4 * n - 45 else 8 * n - 121

/-- The index of the level nearest to a magnitude, ties to the smaller one. -/
def i6Index (m : Nat) : Nat :=
  (List.range 32).foldl (fun best n =>
    let dist := fun k => max (i6Mag k) m - min (i6Mag k) m
    if dist n < dist best then n else best) 0

/-- An FMC-I6 block of 32 INT8 values. -/
def i6Encode (xs : List Nat) : List Byte :=
  leBytes 24 ((xs.zipIdx.map fun e =>
    let v := toSigned 8 e.1
    let n := i6Index v.natAbs
    ((if v < 0 ∧ n ≠ 0 then 32 else 0) + n) * 2 ^ (6 * e.2)).foldl (· + ·) 0)

/-- The 32 INT8 values of an FMC-I6 block. -/
def i6Decode (l : List Byte) : List Nat :=
  (List.range 32).map fun k =>
    let code := bits (fieldAt l 0 24) (6 * k + 5) (6 * k)
    let m := i6Mag (code % 32)
    if bit code 5 then (256 - m) % 256 else m

/-- What a piece delivers: destination bytes, the elements the census sees, NaN blocks met (R156, R158, R160). -/
structure PieceOut where
  bytes : List Byte
  elems : List Nat
  nanBlocks : Nat
  deriving DecidableEq, Repr

/-- The output of a piece of n uncompressed bytes from its source bytes.
LOG 35 (DESIGN CHOICE). -/
def MovDesc.output (d : MovDesc) (raw : List Byte) (n : Nat) : PieceOut :=
  let groups := (chunkBytes d.block raw).filter fun b => !b.isEmpty
  match d.codec with
  | 1 =>
    let xs := elemsOf 6 raw
    let bs := (List.range (ceilDiv xs.length 32)).map fun k => b8Encode (padTo 32 ((xs.drop (32 * k)).take 32))
    ⟨bs.flatten, xs, (bs.filter fun b => fieldAt b 0 1 == 0xFF).length⟩
  | 2 =>
    let xs := (groups.flatMap b8Decode).take (n / 2)
    ⟨packElems 16 xs, xs, (groups.filter fun b => fieldAt b 0 1 == 0xFF).length⟩
  | 3 =>
    let xs := elemsOf 0 raw
    ⟨((List.range (ceilDiv xs.length 32)).map fun k => i6Encode (padTo 32 ((xs.drop (32 * k)).take 32))).flatten, xs, 0⟩
  | 4 =>
    let xs := (groups.flatMap i6Decode).take n
    ⟨packElems 8 xs, xs, 0⟩
  | _ => ⟨raw, elemsOf d.elem raw, 0⟩

/-- The census bytes a piece closes and the census of the block it leaves open (R156): elements from index `first` of a run of
`total`; each closed block gives (block index, byte). -/
def censusRun (code first total acc : Nat) (xs : List Nat) : List (Nat × Nat) × Nat :=
  xs.zipIdx.foldl (fun st e =>
    let k := first + e.2
    let m := max st.2 (censusElem code e.1)
    if k % 32 = 31 ∨ k + 1 = total then (st.1 ++ [(k / 32, m)], 0) else (st.1, m)) ([], acc)

/-! ## Faults of a channel (Table 06-6) -/

/-- MOV_FAULT takes a fault: the first one since VALID was clear, else OVERFLOW; the channel keeps its last cause. -/
def State.movFault (s : State) (c n entry cause side va : Nat) : State :=
  let r := movReg c 4
  let s := s.setChan c n { s.chan c n with cause := cause }
  if bit (s.rd r) 31 then s.orReg r (2 ^ 30)
  else
    let v := 2 ^ 31 + bits (s.rd r) 30 30 * 2 ^ 30 + cause * 2 ^ 26 + entry * 2 ^ 21 + n * 2 ^ 17 + side * 2 ^ 16
    ((s.wr r v).wr (movReg c 8) (va % 2 ^ 32)).wr (movReg c 0xC) (va / 2 ^ 32 % 2 ^ 16)

/-- The context channel n is bound to. -/
def State.chanCtx (s : State) (c n : Nat) : Nat := s.fld (movReg c (0x100 + 0x20 * n)) 2 0

/-- A descriptor refused (R142, R144): recorded, raised, the owning task aborted. -/
def State.descInvalid (s : State) (c n entry side va : Nat) : State :=
  let x := s.chanCtx c n
  let s := s.movFault c n entry 5 side va
  (s.raiseCl .movDescInvalid c (some x) (8 * c + 1) n (va % 2 ^ 32) (va / 2 ^ 32 % 2 ^ 16)).abortCtx c x 6

/-! ## Entries and queues (R138, R142) -/

/-- Whether a slot key (address ÷ 256) is a scratchpad slot, of this chip or of another. -/
def keyScratch (g : Nat) : Bool :=
  match regionOf (g * 256 % 2 ^ 41) with
  | .scratch _ _ => true
  | _ => false

/-- Whether a side that is not LOCAL may lie in scratchpad: where its first address has no translation yet, its pieces tell (R142). -/
def State.sideScratch (s : State) (c n x : Nat) (a : Int) (right : Right) : Bool :=
  match (s.xlate (.mover c n x) c x a.toNat right none).1 with
  | .ok ga => keyScratch (ga / 256)
  | _ => true

/-- Whether the tagged sides of a descriptor are scratchpad (R142).
LOG 35 (DESIGN CHOICE). -/
def State.tagSidesOk (s : State) (c n x : Nat) (d : MovDesc) : Bool :=
  (d.srcMode == 0 || d.op == 1 || d.srcLoc || s.sideScratch c n x (d.srcAt d.pos) .read) &&
  (!d.dstTag || d.op == 2 || d.dstLoc || s.sideScratch c n x (d.dstAt d.pos) .write)

/-- Whether entry e is queued on a channel of cluster c. -/
def State.entryQueued (s : State) (c e : Nat) : Bool := (List.range 16).any fun n => (s.chan c n).queue.contains e

/-- Whether the Steward or the cluster's sequencer writes to a channel that exists. -/
def State.movOk (s : State) (r : Requester) (c n : Nat) : Bool :=
  s.mayWrite .stewardSeq r c && decide (c < s.nClusters) && decide (n < 16)

/-- MOV_DESC_WRITE: a word of a free entry is stored. -/
def execMovDescWrite (r : Requester) (c e word value : Nat) (s : State) : Host.Outcome State Fault Refusal :=
  .next (if s.movOk r c 0 && decide (e < 32) && decide (word < 16) && !s.entryQueued c e then s.wr (descReg c e word) value else s)

/-- An entry pushed on a channel: refused, invalid, or queued. A channel whose CTX holds a reserved value has no context bound.
LOG 35 (DESIGN CHOICE). -/
def State.movPush (s : State) (c n e : Nat) : State :=
  let x := s.chanCtx c n
  if s.entryQueued c e || decide (4 < x) then s.orReg (movReg c (0x108 + 0x20 * n)) (2 ^ 8)
  else if !descOk (s.descBytes c e) (x == 4) || !s.tagSidesOk c n x (s.desc c e) then s.descInvalid c n e 0 0
  else
    let v := s.chan c n
    s.setChan c n { v with queue := v.queue ++ [e], state := if v.state = 0 then 1 else v.state }

/-- MOV_PUSH. -/
def execMovPush (r : Requester) (c n e : Nat) (s : State) : Host.Outcome State Fault Refusal :=
  .next (if s.movOk r c n then s.movPush c n (e % 32) else s)

/-- MOV_ABORT (R155). -/
def execMovAbort (r : Requester) (c n : Nat) (s : State) : Host.Outcome State Fault Refusal :=
  .next (if s.movOk r c n then s.abortChan c n else s)

/-- The save area of slot n. -/
def State.saveArea (s : State) (c n : Nat) : Nat :=
  s.rd (clReg c 0xA10) / 2 ^ 14 * 2 ^ 14 + 2 ^ 32 * s.fld (clReg c 0xA14) 8 0 + n * (s.rd (clReg c 0xA18) / 2 ^ 14 * 2 ^ 14)

/-- A RESUME written for a unit of a swapped-out slot: RESUME_PEND set in the slot's image (R301).
LOG 155 (DESIGN CHOICE). -/
def State.resumeLater (s : State) (c : Nat) (unit : Slot → Bool) : State :=
  match (List.range 16).find? fun n => (s.slot c n).task.isSome && (s.slot c n).ctx.isNone && unit (s.slot c n) with
  | some n =>
    let a := s.saveArea c n + 3
    (s.setSlot c n { s.slot c n with resumePend := true }).stewardPut a (leBytes 1 (s.ldn a 1 ||| 1))
  | none => s

/-- A channel suspended by a fault goes on at PROGRESS; its context leaves the suspended state when no unit of it is
suspended (R152, R295). -/
def State.movResume (s : State) (c n : Nat) : State :=
  let v := s.chan c n
  if v.state = 4 then
    let s := s.setChan c n { v with state := if v.queue.isEmpty then 0 else 1 }
    let x := s.chanCtx c n
    let still := (s.chansOf c x).any (fun m => (s.chan c m).state == 4) || ((s.att c).ctx == some x && s.fld (attReg c 0) 2 0 == 5)
    if s.ctxState c x = 3 ∧ still = false then s.setCtxState c x 1 0 else s
  else s.resumeLater c fun v => v.chans.any fun k => k.n == n && k.state == 4

/-- MOV_RESUME. -/
def execMovResume (r : Requester) (c n : Nat) (s : State) : Host.Outcome State Fault Refusal :=
  .next (if s.movOk r c n then s.movResume c n else s)

/-- MOV_CTX_BIND: ignored while the channel's queue is not empty. -/
def execMovCtxBind (r : Requester) (c n x : Nat) (s : State) : Host.Outcome State Fault Refusal :=
  .next (if s.movOk r c n && (s.chan c n).queue.isEmpty then s.setFld (movReg c (0x100 + 0x20 * n)) 2 0 x else s)

/-! ## The regulator (R148) -/

/-- RATE and BURST of channel n. -/
def State.chanRate (s : State) (c n : Nat) : Nat × Nat :=
  let v := s.rd (movReg c (0x10C + 0x20 * n))
  (bits v 11 0, max 1 (bits v 27 16))

/-- Tokens of channel n refilled, once in a tick. -/
def State.refill (s : State) (c n : Nat) : State :=
  let v := s.chan c n
  let rb := s.chanRate c n
  if s.chanCtx c n < 4 ∧ rb.1 ≠ 0 ∧ v.refillAt ≤ s.ct then
    s.setChan c n { v with tokens := min rb.2 (v.tokens + rb.1), refillAt := s.ct + 1, state := if v.state = 6 then 1 else v.state }
  else s

/-- TOKEN_REFILL. -/
def execTokenRefill (c : Nat) (s : State) : Host.Outcome State Fault Refusal :=
  .next (if s.ct % 256 = 0 then (List.range 16).foldl (fun s n => s.refill c n) s else s)

end Sys2Proof.Machine
end

