-- ==== Sys2Proof/Machine/Sync.lean ====
section
/-! DEFINITION. Synchronisation objects (R305–R311): signals, sets, waits, watches, wakes and polls. -/

namespace Sys2Proof.Machine

/-! ## Blocked contexts -/

/-- Whether context x has an array instruction, an engine step or a Mover piece that can start. -/
def State.canStart (s : State) (c x : Nat) : Bool :=
  ((List.range 8).any fun a => s.canIssue c a x) || ((List.range 2).any fun e => (s.vec c e).queue.any fun q => q.ctx == x) ||
  (s.chansOf c x).any fun n => !(s.chan c n).queue.isEmpty && !([2, 3, 4, 5, 7].contains (s.chan c n).state)

/-- A ready context that nothing of can start is blocked (R295).
LOG 160 (DEDUCED). -/
def State.block (s : State) (c x cause : Nat) : State :=
  if x < 4 ∧ s.ctxState c x = 1 ∧ s.canStart c x = false then s.setCtxState c x 2 cause else s

/-! ## Words -/

/-- Whether a wait for a value is satisfied (Table 13-3). -/
def waitOver (value expected : Nat) : Bool := decide (0 ≤ toSigned 64 (value + 2 ^ 64 - expected % 2 ^ 64))

/-- The global address of object i of context x, if the context has one (R305). -/
def State.objAddr (s : State) (c x i : Nat) : Option Nat :=
  let v := s.rd (clReg c (0xA44 + 0x20 * x))
  if i < 2 ^ (bits v 27 25 + 5) then some (127 * 2 ^ 41 + poolBase + bits v 24 0 + 8 * i) else none

/-- Whether a global address is a pool word of this chip. -/
def State.poolWord (s : State) (ga : Nat) : Option Nat :=
  match s.localOf ga with
  | some a => if poolBase ≤ a ∧ a < poolBase + poolSize ∧ a % 8 = 0 then some a else none
  | none => none

/-! ## Waits -/

/-- Registers of a context's wait (Table 13-4). -/
def State.setWaitRegs (s : State) (c x ga exp : Nat) : State :=
  (s.wr64 (clReg c (0xA50 + 0x20 * x)) ga).wr64 (clReg c (0xA58 + 0x20 * x)) exp

/-- A wait begins for context x; on behalf of the timed context it is SYNC_INVALID (R309). -/
def State.beginWait (s : State) (c x ga exp : Nat) : State :=
  if x = 4 then (s.raiseCl .syncInvalid c (some 4) (8 * c) 0 (ga % 2 ^ 32) (ga / 2 ^ 32)).abortCtx c 4 6
  else (s.setCtx c x { s.ctx c x with wait := some (s.normGa ga, exp), watching := false }).setWaitRegs c x ga exp

/-- The slot resident in context x. -/
def State.slotOf (s : State) (c x : Nat) : Option Nat :=
  (List.range 16).find? fun n => (s.slot c n).task.isSome && (s.slot c n).ctx == some x

/-- The wait of context x is over: the tiler's word, or the next start condition.
LOG 55 (DESIGN CHOICE). -/
def State.waitDone (s : State) (c x : Nat) : State :=
  let k := s.ctx c x
  let s := (s.setCtx c x { k with wait := none, watching := false }).setWaitRegs c x 0 0
  let ready := fun (s : State) => if s.ctxState c x = 2 then s.setCtxState c x 1 0 else s
  if k.tiler.waitWord.isSome then
    let work := match k.tiler.work with
      | .waitCount _ _ :: r => r
      | w => w
    ready (s.setCtx c x { s.ctx c x with tiler := { k.tiler with waitWord := none, work := work } })
  else
    match s.slotOf c x with
    | none => ready s
    | some n =>
      let v := s.slot c n
      let s := s.setSlot c n { v with conds := v.conds.drop 1 }
      match v.conds.drop 1 with
      | (ga, e) :: _ => s.beginWait c x ga e
      | [] => ready s

/-- The cause a waiting context shows: 6 while start conditions are unmet, else 1. -/
def State.waitCause (s : State) (c x : Nat) : Nat :=
  if (s.ctx c x).tiler.waitWord.isSome then 1
  else match s.slotOf c x with
    | some n => if (s.slot c n).conds.isEmpty then 1 else 6
    | none => 1

/-- The value of a local word read for a waiter; none where the read failed and the task has been ended. -/
def State.waitRead (s : State) (c x a : Nat) : Option Nat × State :=
  let rd := s.memRead (.tiler c x) a 8
  match rd.1.err with
  | none => (some (leNat rd.1.bytes), rd.2)
  | some e => (none, rd.2.abortCtx c x e.cause)

/-- The watches of the pool slice of a local address: it has room for 512. -/
def State.sliceFull (s : State) (a : Nat) : Bool :=
  let slice := fun (g : Nat) => (g % 2 ^ 41 - poolBase) / 0x400000
  decide (512 ≤ (s.watches.filter fun w => slice w.addr == slice a).length)

/-- Context x evaluates its wait: a word of the pool is watched unless it satisfies the wait or the table is full; a word of
another chip's pool is watched by packet; any other word will be polled (R308). -/
def State.watchNow (s : State) (c x : Nat) : State :=
  match (s.ctx c x).wait with
  | none => s
  | some (ga, exp) =>
    let block := fun (s : State) (w : Bool) =>
      let q := s.setCtx c x { s.ctx c x with watching := w }
      if q.ctxState c x = 1 ∨ q.ctxState c x = 2 then q.setCtxState c x 2 (s.waitCause c x) else q
    match s.poolWord ga, s.localOf ga with
    | some a, _ =>
      if s.sliceFull a then block s false
      else
        let rd := s.waitRead c x a
        match rd.1 with
        | none => rd.2
        | some v =>
          if waitOver v exp then rd.2.waitDone c x
          else block { rd.2 with watches := rd.2.watches ++ [({ addr := s.normGa ga, cluster := c, ctx := x, slot := none, remote := none } : Watch)] } true
    | none, some _ => block s false
    | none, none =>
      let q := s.spSend (.tiler c x) false { kind := kWatch, dest := ga / 2 ^ 41, len := 0, op := 0, tagged := false, addr := ga % 2 ^ 41, payload := [], cmd := none }
      match q.1 with
      | some _ => block q.2 true
      | none => q.2.abortCtx c x 6

/-- Whether a context is in a state in which it waits. -/
def State.mayWait (s : State) (c x : Nat) : Bool :=
  decide (c < s.nClusters) && decide (x < 4) && [1, 2, 3].contains (s.ctxState c x) && !(s.ctx c x).held

/-- WATCH: the pool slice records the watch of a context that waits, and answers the word's value. -/
def execWatch (c x : Nat) (s : State) : Host.Outcome State Fault Refusal :=
  .next (if s.mayWait c x && (s.ctx c x).wait.isSome && !(s.ctx c x).watching then s.watchNow c x else s)

/-- The watch of context x withdrawn. -/
def State.unwatch (s : State) (c x : Nat) : State :=
  let far := match (s.ctx c x).wait with
    | some (ga, _) => if (s.ctx c x).watching && (s.localOf ga).isNone then some ga else none
    | none => none
  let s := { s with watches := s.watches.filter fun (w : Watch) => !(w.cluster == c && w.ctx == x && w.slot == none && w.remote == none) }
  let s := s.setCtx c x { s.ctx c x with watching := false }
  match far with
  | some ga => (s.spSend (.tiler c x) false { kind := kWatch, dest := ga / 2 ^ 41, len := 0, op := 1, tagged := false, addr := ga % 2 ^ 41, payload := [], cmd := none }).2
  | none => s

/-- UNWATCH: of a context that is pre-empted or evicted. -/
def execUnwatch (c x : Nat) (s : State) : Host.Outcome State Fault Refusal :=
  .next (if (s.ctx c x).held && (s.ctx c x).watching then s.unwatch c x else s)

/-! ## Swapped-out slots that wait (R293, R310) -/

/-- READY of a slot. -/
def State.setReady (s : State) (c n : Nat) (b : Bool) : State :=
  let r := clReg c 0xA04
  s.wr r (setBit (s.rd r) (16 + n) b)

/-- A swapped-out slot's readiness from its wait (R310): satisfied conditions are dropped, the Steward watches the next word, and the slot is
ready once none is left. A word outside the pool, or one whose slice has no room, is polled as a context's is (R308).
LOG 154 (DESIGN CHOICE). -/
def State.slotWait (s : State) (c n : Nat) : Nat → State
  | 0 => s
  | fuel + 1 =>
    let v := s.slot c n
    match v.waiting with
    | none =>
      match v.conds with
      | [] => (s.setSlot c n { v with readyAt := s.ct }).setReady c n true
      | w :: _ => State.slotWait (s.setSlot c n { v with waiting := some w }) c n fuel
    | some (ga, e) =>
      match s.localOf ga with
      | some a =>
        let q := s.memRead .steward a 8
        if q.1.err.isNone && waitOver (leNat q.1.bytes) e then State.slotWait (q.2.setSlot c n { v with waiting := none, conds := v.conds.drop 1 }) c n fuel
        else if (s.poolWord ga).isSome && !s.sliceFull a then
          { q.2 with watches := q.2.watches ++ [({ addr := s.normGa ga, cluster := c, ctx := 7, slot := some n, remote := none } : Watch)] }
        else q.2
      | none =>
        let q := s.spSend .steward false { kind := kWatch, dest := ga / 2 ^ 41, len := 0, op := 0, tagged := false, addr := ga % 2 ^ 41, payload := [], cmd := none }
        { q.2 with watches := q.2.watches ++ [({ addr := ga, cluster := c, ctx := 7, slot := some n, remote := none } : Watch)] }

/-! ## Signals (R306, R307) -/

/-- The watch of a swapped-out slot fires where its word now satisfies it: the next start condition, or READY.
LOG 55 (DESIGN CHOICE). -/
def State.slotFire (s : State) (w : Watch) (n value : Nat) : State :=
  let v := s.slot w.cluster n
  match v.waiting with
  | none => s
  | some (_, exp) =>
    if waitOver value exp then
      let t := { s with watches := s.watches.filter (· != w) }
      (t.setSlot w.cluster n { v with conds := v.conds.drop 1, waiting := none }).slotWait w.cluster n 12
    else s

/-- Every watcher of a word is woken: a context's entry goes and its WAKE is on its way, a watcher of another chip is sent a
WAKE packet, the Steward evaluates its slots' watches.
LOG 55 (DESIGN CHOICE). -/
def State.wakeAll (s : State) (ga value : Nat) : State :=
  let mine := s.watches.filter fun w => w.addr == ga
  mine.foldl (fun s w =>
    match w.slot, w.remote with
    | some n, _ => s.slotFire w n value
    | none, some p =>
      let s := { s with watches := s.watches.filter (· != w) }
      s.originate { p with kind := kWake, cls := 3, dest := p.src, src := s.selfId, len := 0, payload := [] }
    | none, none => { s with watches := s.watches.filter (· != w), wakes := s.wakes ++ [w] }) s

/-- A signal of a requester on a word of this chip. -/
def State.signalLocal (s : State) (r : Requester) (a inc : Nat) : Option AccErr × State :=
  let q := s.memAtomic r .add a (inc % 2 ^ 32) 0
  match q.1.2 with
  | none => (none, q.2.wakeAll (127 * 2 ^ 41 + a) ((q.1.1 + inc % 2 ^ 32) % 2 ^ 64))
  | some e => (some e, q.2)

/-- A SET of a word of this chip. -/
def State.setLocal (s : State) (r : Requester) (a value : Nat) : Option AccErr × State :=
  if a % 8 = 0 then
    let q := s.memWrite r a (leBytes 8 value)
    match q.1 with
    | none => (none, q.2.wakeAll (127 * 2 ^ 41 + a) (value % 2 ^ 64))
    | some e => (some e, q.2)
  else (some .unmapped, s.raiseReq .addrUnmapped r a)

/-- SYNC_ID signalled by a unit of context x (R151, R164, R305): an increment of 1.
LOG 56 (DESIGN CHOICE). -/
def State.unitSignal (s : State) (r : Requester) (c x id : Nat) : State :=
  if id = 0xFFFF then s
  else match s.objAddr c x id with
    | none => (s.raiseCl .syncInvalid c (some x) r.index 0 id 0).abortCtx c x 6
    | some ga =>
      if !s.windowOk c x ga 8 .atomic then s.bbViolation r c x ga
      else
        let q := s.signalLocal r (ga % 2 ^ 41) 1
        match q.1 with
        | none => q.2
        | some e => q.2.abortCtx c x e.cause

/-- A signal or SET of the Steward by global address, here or on another chip. -/
def State.stewardWord (s : State) (ga v : Nat) (set : Bool) (cmd : Option (Nat × Nat)) : Bool × State :=
  match s.localOf ga with
  | some a =>
    let q := if set then s.setLocal .steward a v else s.signalLocal .steward a v
    match cmd with
    | some (r, i) => (true, q.2.complete r i (if q.1.isNone then stOk else stAborted) 0 0)
    | none => (true, q.2)
  | none =>
    let q := s.spSend .steward false { kind := kSignal, dest := ga / 2 ^ 41, len := if set then 8 else 4, op := b2n set, tagged := false, addr := ga % 2 ^ 41, payload := leBytes (if set then 8 else 4) v, cmd := cmd }
    match q.1, cmd with
    | none, some (r, i) => (false, q.2.complete r i stAborted 0 0)
    | _, _ => (q.1.isSome, q.2)

/-- SYNC_SIGNAL: a signal reaches an object. -/
def execSyncSignal (r : Requester) (addr inc : Nat) (s : State) : Host.Outcome State Fault Refusal :=
  .next <| match s.localOf addr with
    | some a =>
      if !s.reqWindowOk r addr 8 .atomic then s.reqViolation r addr
      else
        let q := s.signalLocal r a inc
        (q.2.failTask r q.1).answer r (respOf r q.1) []
    | none =>
      if !s.reqWindowOk r addr 8 .atomic then s.reqViolation r addr
      else
        let q := s.spSend r (r.ctx == some 4) { kind := kSignal, dest := addr / 2 ^ 41, len := 4, op := 0, tagged := false, addr := addr % 2 ^ 41, payload := leBytes 4 inc, cmd := none }
        match q.1 with
        | some _ => q.2
        | none => (q.2.failTask r (some .unmapped)).answer r .error []

/-- SYNC_SET: the Steward writes an object. -/
def execSyncSet (addr value : Nat) (s : State) : Host.Outcome State Fault Refusal :=
  .next (s.stewardWord addr value true none).2

/-- A mailbox SIGNAL or SET. -/
def State.mbWord (s : State) (ring idx : Nat) (k : Cmd) (set : Bool) : State :=
  let ga := k.arg 8 8
  let v := if set then k.arg 0x10 8 else k.arg 0x10 4
  let own := match s.localOf ga with
    | some a => (s.poolWord ga).isSome && s.memOwner a == some k.part
    | none => true
  if decide (2 ^ 48 ≤ ga) || !own then s.complete ring idx stInvalid 0 0 else (s.stewardWord ga v set (some (ring, idx))).2

/-- SIGNAL, the mailbox command. -/
def execSignal (ring idx : Nat) (s : State) : Host.Outcome State Fault Refusal :=
  .next (s.mbox ring idx 0x0C fun k s => s.mbWord ring idx k false)

/-- SET, the mailbox command. -/
def execSet (ring idx : Nat) (s : State) : Host.Outcome State Fault Refusal :=
  .next (s.mbox ring idx 0x0D fun k s => s.mbWord ring idx k true)

/-! ## Wakes and polls -/

/-- WAKE: the waiter reads the word again; one whose watch has been withdrawn drops it (R304). -/
def execWake (c x addr : Nat) (s : State) : Host.Outcome State Fault Refusal :=
  .next <| match s.wakes.find? fun w => w.cluster == c && w.ctx == x && w.addr == s.normGa addr with
    | some w =>
      let s := { s with wakes := s.wakes.erase w }
      let k := s.ctx c x
      match k.wait with
      | some (ga, _) => if k.watching && ga == w.addr then (s.setCtx c x { k with watching := false }).watchNow c x else s
      | none => s
    | none => s

/-- One poll of a word. -/
def State.pollWord (s : State) (c x a exp : Nat) : State :=
  let rd := (s.countUp (clReg c 0xA0C) 1).waitRead c x a
  match rd.1 with
  | some v => if waitOver v exp then rd.2.waitDone c x else rd.2
  | none => rd.2

/-- The poll of the word that swapped-out slot n waits for, where no watch is held on it.
LOG 154 (DESIGN CHOICE). -/
def State.pollSlot (s : State) (c n : Nat) : State :=
  let v := s.slot c n
  if decide (c < s.nClusters) && v.task.isSome && v.ctx.isNone && v.waiting.isSome && s.ct % 256 == 0 &&
      !(s.watches.any fun w => w.cluster == c && w.slot == some n) then
    (s.countUp (clReg c 0xA0C) 1).slotWait c n 12
  else s

/-- SYNC_POLL: every 256 ct, a wait on a word outside the pool, or one whose slice has no room, reads the word; x from 8 on is slot x − 8. -/
def execSyncPoll (c x : Nat) (s : State) : Host.Outcome State Fault Refusal :=
  .next <|
    if 8 ≤ x then s.pollSlot c (x - 8)
    else match (s.ctx c x).wait with
    | some (ga, exp) =>
      if s.mayWait c x && !(s.ctx c x).watching && s.ct % 256 == 0 then
        match s.poolWord ga, s.localOf ga with
        | some a, _ => if s.sliceFull a then s.pollWord c x a exp else s
        | none, some a => s.pollWord c x a exp
        | none, none => (s.countUp (clReg c 0xA0C) 1).watchNow c x
      else s
    | none => s
/-! ## Page faults (R255, R256) -/

/-- The MSI-X vector of partition p's page-fault ring (Table 18-9). -/
def State.pfVector (s : State) (p : Nat) : Nat :=
  if p < 3 then bits (s.rd (peReg 0x10)) (13 + 8 * p) (8 + 8 * p) else s.fld (peReg 0x14) 5 0

/-- Whether partition p's page-fault ring is full: 255 records. -/
def State.pfFull (s : State) (p : Nat) : Bool := (s.rd (tuReg (0x108 + 0x10 * p)) + 1) % 256 == s.rd (tuReg (0x10C + 0x10 * p))

/-- A record written at the head of partition p's ring, and its vector signalled, or the word of the handler that the Program names (R255).
LOG 152 (DESIGN CHOICE). -/
def State.pfWrite (s : State) (p : Nat) (l : List Byte) : State :=
  let h := tuReg (0x108 + 0x10 * p)
  let base := s.rd (tuReg (0x100 + 0x10 * p)) + 2 ^ 32 * s.fld (tuReg (0x104 + 0x10 * p)) 8 0
  let s := (s.memWrite .steward (base + 32 * s.rd h) l).2.wr h ((s.rd h + 1) % 256)
  match (s.prog p).bind (·.pfHandler) with
  | some a => (s.signalLocal .steward a 1).2
  | none => s.msix (s.pfVector p)

/-- A page-fault record appended: in the ring, among the 16 that wait, or lost. -/
def State.pfRecord (s : State) (p : Nat) (l : List Byte) : State :=
  if !s.pfFull p then s.pfWrite p l
  else if s.tu.wait.length < 16 then { s with tu := { s.tu with wait := s.tu.wait ++ [(p, l)] } }
  else (s.orReg (tuReg 0) (2 ^ 8)).countUp (tuReg 8) 1

/-- Waiting records enter partition p's ring while it has room. -/
def State.pfDrain (s : State) (p : Nat) : Nat → State
  | 0 => s
  | n + 1 =>
    match s.tu.wait.find? fun e => e.1 == p with
    | some e =>
      if s.pfFull p then s
      else State.pfDrain (({ s with tu := { s.tu with wait := dropFirst (fun q => q.1 == p) s.tu.wait } } : State).pfWrite p e.2) p n
    | none => s

/-- The Mover channel of a requester, 0xFF for another unit. -/
def Requester.chanByte : Requester → Nat
  | .mover _ n _ => n
  | _ => 0xFF

/-- The page-fault record of Table 11-3. -/
def State.pfBytes (s : State) (r : Requester) (c x va cause level : Nat) (snap : Option Snap) : List Byte :=
  leBytes 8 va ++ leBytes 2 (s.asidOf c x) ++ leBytes 2 r.index ++ leBytes 1 x ++ leBytes 1 cause ++ leBytes 1 level ++
  leBytes 1 (Requester.chanByte r) ++ leBytes 2 ((snap.map (·.seq)).getD 0xFFFF) ++ leBytes 2 ((snap.map (·.gen)).getD 0) ++
  leBytes 4 0 ++ leBytes 8 s.time

/-- The page-fault record of an elastic Mover or attention fault. -/
def State.pageFault (s : State) (r : Requester) (c x va cause level : Nat) (snap : Option Snap) : State :=
  match s.ownerOf c with
  | some p => s.pfRecord p (s.pfBytes r c x va cause level snap)
  | none => s

end Sys2Proof.Machine
end

