-- ==== Sys2Proof/Machine/Elastic.lean ====
section
/-! DEFINITION. Elastic tasks (R292–R304, R312–R315): launches, slots, swapping, pre-emption, loading, teardown. -/

namespace Sys2Proof.Machine

/-! ## Launches (R293) -/

/-- Whether partition p runs: it has a Program and is not stopped. -/
def State.partRuns (s : State) (p : Nat) : Bool := (s.prog p).isSome && !s.scopeStopped p

/-- A launch queued: by priority, then by arrival. -/
def State.enqueue (s : State) (q : QLaunch) : State :=
  let before := s.launchQ.takeWhile fun e => decide (q.rcd.prio ≤ e.rcd.prio)
  { s with launchQ := before ++ q :: s.launchQ.drop before.length }

/-- The launch record of a mailbox LAUNCH entry (Table 18-7); none where an argument is out of range. -/
def State.launchRec (s : State) (k : Cmd) : Option TaskRec :=
  let nc := k.arg 0xB 1
  let cl := bitList (k.arg 0x10 8) 64
  match (s.prog k.part).bind fun g => g.tasks.find? fun t => t.index == k.arg 8 2 && !t.timed with
  | none => none
  | some t =>
    let conds := (List.range nc).map fun c => (127 * 2 ^ 41 + poolBase + 8 * k.arg (0x18 + 8 * c) 4, k.arg (0x1C + 8 * c) 4)
    if decide (k.arg 0xA 1 < 4) && decide (nc ≤ 4) && !cl.isEmpty && (cl.all fun c => (s.clustersOf k.part).contains c) &&
        (conds.all fun e => s.memOwner (e.1 % 2 ^ 41) == some k.part) then
      some { t with clusters := cl, prio := k.arg 0xA 1, starts := conds }
    else none

/-- LAUNCH: the command waits in the launch queue until its task ends. -/
def State.launchCmd (s : State) (ring idx : Nat) (k : Cmd) : State :=
  if k.part < 4 ∧ s.scopeStopped k.part = true then s.complete ring idx stAborted 0 0
  else match s.launchRec k with
    | none => s.complete ring idx stInvalid 0 0
    | some t => s.enqueue { part := k.part, rcd := t, cmd := some (ring, idx) }

/-- LAUNCH; with 64 launches waiting it starts later. -/
def execLaunch (ring idx : Nat) (s : State) : Host.Outcome State Fault Refusal :=
  .next (if 64 ≤ s.launchQ.length then s else s.mbox ring idx 0x04 fun k s => s.launchCmd ring idx k)

/-- Whether an instance of a task of partition p waits or runs. -/
def State.taskLive (s : State) (p idx : Nat) : Bool :=
  (s.tasks.any fun e => e.2.part == p && e.2.rcd.index == idx && !e.2.ended) || s.launchQ.any fun q => q.part == p && q.rcd.index == idx

/-- TASK_GRAPH_LAUNCH: an entry of the Program's elastic task graph whose task has no live instance. -/
def execTaskGraphLaunch (p entry : Nat) (s : State) : Host.Outcome State Fault Refusal :=
  .next <|
    match (s.prog p).bind fun g => g.graph[entry]?.bind fun i => g.tasks.find? fun t => t.index == i && !t.timed with
    | some t =>
      if s.partRuns p && decide (s.launchQ.length < 64) && !s.taskLive p t.index && !t.clusters.isEmpty then
        s.enqueue { part := p, rcd := t, cmd := none }
      else s
    | none => s

/-! ## Slots -/

/-- The lowest free slot of cluster c. -/
def State.freeSlotOf (s : State) (c : Nat) : Option Nat := (List.range 16).find? fun n => !bit (s.rd (clReg c 0xA04)) n

/-- The save area of slot n zero-filled, up to its stride (R313). -/
def State.clearArea (s : State) (c n : Nat) : State :=
  let a := s.saveArea c n
  let len := s.rd (clReg c 0xA18) / 2 ^ 14 * 2 ^ 14
  if len ≠ 0 ∧ s.mapped a len = true ∧ s.rinseLocked a len = false then { s with mem := s.mem.zero a len } else s

/-- A slot of cluster c allocated to task t. -/
def State.takeSlot (s : State) (t : Nat) (rcd : TaskRec) (c n : Nat) : State :=
  let r := clReg c 0xA04
  let s := (s.clearArea c n).wr r (setBit (s.rd r) n true)
  (s.setSlot c n { Slot.free with task := some t, prio := rcd.prio, readyAt := s.ct, conds := rcd.starts }).slotWait c n 12

/-- ST_SEQ_STATUS.STATE of partition p: 1 once the work list of a step that has not been launched is built. -/
def State.seqState (s : State) (p : Nat) : Nat := s.fld (stReg (0x2000 + 0x40 * p)) 3 0
/-- ST_SEQ_STATUS.STATE set. -/
def State.setSeqState (s : State) (p v : Nat) : State := s.setFld (stReg (0x2000 + 0x40 * p)) 3 0 v

/-- The first queued launch every one of whose clusters has a free slot; a step's work list is built first (R224). -/
def State.launchable (s : State) : Option QLaunch :=
  s.launchQ.find? fun q => s.partRuns q.part && (!q.rcd.step || s.seqState q.part == 1) && q.rcd.clusters.all fun c => (s.freeSlotOf c).isSome

/-- The task instance of a launch. -/
def taskOf (q : QLaunch) (ct : Nat) : Task :=
  { part := q.part, rcd := q.rcd, timed := false, cmd := q.cmd, left := q.rcd.clusters, aborted := false, ended := false, suspended := false, launchAt := ct,
    endCt := 0, started := true, slipped := false, lateRaised := false, blockedSince := ct, hangRaised := false }

/-- SLOT_ALLOCATE. -/
def execSlotAllocate (s : State) : Host.Outcome State Fault Refusal :=
  .next <| match (if s.stewardUp then s.launchable else none) with
    | none => s
    | some q =>
      let t := s.nextTask
      let s := { s with launchQ := s.launchQ.erase q, nextTask := t + 1, tasks := s.tasks ++ [(t, taskOf q s.ct)] }
      let s := if q.rcd.step then (s.setStep q.part { s.step_ q.part with task := some t }).setSeqState q.part 2 else s
      q.rcd.clusters.foldl (fun s c => match s.freeSlotOf c with
        | some n => s.takeSlot t q.rcd c n
        | none => s) s

/-! ## Choosing a swap (R298) -/

/-- Whether a swapped-out slot is ready: READY, its task not suspended. -/
def State.slotReady (s : State) (c n : Nat) : Bool :=
  bit (s.rd (clReg c 0xA04)) (16 + n) && (s.slot c n).ctx.isNone &&
  (match (s.slot c n).task.bind s.task with
    | some t => !t.suspended
    | none => false)

/-- The ready slot that goes first: highest priority, then ready first, then the lower number. -/
def State.bestSlot (s : State) (c : Nat) : Option Nat :=
  let l := (List.range 16).filter (s.slotReady c)
  l.find? fun n => l.all fun m => m == n ||
    (let a := s.slot c n; let b := s.slot c m
     decide (b.prio < a.prio) || (a.prio == b.prio && (decide (a.readyAt < b.readyAt) || (a.readyAt == b.readyAt && decide (n < m)))))

/-- The resident elastic contexts of cluster c that are ready, blocked or suspended. -/
def State.residents (s : State) (c : Nat) : List Nat := (List.range 4).filter fun x => [1, 2, 3].contains (s.ctxState c x)

/-- Since when a context has been blocked; one that is not blocked comes after every one that is. -/
def State.blockedSince (s : State) (c x : Nat) : Nat := if s.ctxState c x = 1 then s.ct + 1 else (s.ctx c x).blockedAt

/-- The context to evict among several: blocked longest, ties to the lower number. -/
def State.longestBlocked (s : State) (c : Nat) (l : List Nat) : Option Nat :=
  l.find? fun x => l.all fun y => y == x || decide (s.blockedSince c x < s.blockedSince c y) ||
    (s.blockedSince c x == s.blockedSince c y && decide (x < y))

/-- The resident context that ready slot n replaces: where all are blocked the one blocked longest, else one of lower priority, which only
the Steward pre-empts (R302).
LOG 54 (DESIGN CHOICE). -/
def State.victim (s : State) (c n : Nat) : Option Nat :=
  let l := s.residents c
  if (l.all fun x => s.ctxState c x != 1) && ((List.range 4).all fun x => l.contains x || s.ctxState c x != 5) then s.longestBlocked c l
  else if !s.stewardUp then none
  else
    let low := l.filter fun x => decide (s.ctxPrio c x < (s.slot c n).prio)
    let least := low.filter fun x => low.all fun y => decide (s.ctxPrio c x ≤ s.ctxPrio c y)
    s.longestBlocked c least

/-- The item of a DETECT operator dropped with its job and its staging: it starts again when the context is loaded.
LOG 157 (DESIGN CHOICE). -/
def State.dropDetect (s : State) (c x : Nat) : State :=
  let s := (s.abortDpps c x).abortChans c x
  s.setCtx c x { s.ctx c x with tiler := { (s.ctx c x).tiler with own := 0, work := [] } }

/-- Eviction of a context begins (R299, R302): it is held, its channels stop at the next piece boundary, its watch is
withdrawn; slot `next` follows it (16: none). -/
def State.evict (s : State) (c x next : Nat) : State :=
  let s := s.unwatch c x
  let s := (s.chansOf c x).foldl (fun s n =>
    let v := s.chan c n
    if v.queue.isEmpty ∨ v.state = 4 ∨ v.state = 7 then s else s.setChan c n { v with state := 5 }) s
  let t := (s.ctx c x).tiler
  let s := if t.phase = 1 ∧ fieldAt t.desc 0 1 = 0x20 ∧ s.rd (clReg c (0x838 + 0x20 * x)) ≠ 0xFFFFFFFF ∧ s.fld (attReg c 0) 2 0 ≠ 5 then s.setFld (attReg c 0) 2 0 6 else s
  let s := if t.phase = 1 ∧ fieldAt t.desc 0 1 = 0x28 ∧ t.own ≠ 2 then s.dropDetect c x else s
  (s.setCtx c x { s.ctx c x with held := true, move := some (next, s.ct) }).setCtxState c x 4 0

/-- A load of slot n into context x begins (R299), in the place of an evicted slot or not: the slot no longer reads READY. -/
def State.loadStart (s : State) (c x n : Nat) (swap : Bool) : State :=
  let s := (s.setReady c n false).setSlot c n { s.slot c n with ctx := some x }
  let s := { s with watches := s.watches.filter fun (w : Watch) => !(w.cluster == c && w.slot == some n) }
  (s.setCtx c x { Ctx.empty with task := (s.slot c n).task, held := true, move := some (n, s.ct), swapIn := swap }).setCtxState c x 5 0

/-- CONTEXT_SWAP: a ready slot goes to an empty context, or a resident one is evicted for it.
LOG 54 (DESIGN CHOICE). -/
def execContextSwap (c : Nat) (s : State) : Host.Outcome State Fault Refusal :=
  .next <| match s.bestSlot c with
    | none => s
    | some n =>
      match (List.range 4).find? fun x => s.ctxState c x == 0 with
      | some x => if s.stewardUp then s.loadStart c x n false else s
      | none =>
        match s.victim c n with
        | some x => s.evict c x n
        | none => s

/-! ## Saving (R294, R299) -/

/-- One Mover channel as saved. -/
def State.saveChan (s : State) (c n : Nat) : SavedChan :=
  let v := s.chan c n
  { n := n, rate := s.rd (movReg c (0x10C + 0x20 * n)), state := v.state, cause := v.cause, cenMax := v.cenMax, carry := v.carry, admitted := v.admitted,
    entries := v.queue.map fun e => (List.range 16).map fun w => s.rd (descReg c e w) }

/-- The 16 bytes of a channel record. -/
def chanRecord (v : SavedChan) : List Byte :=
  leBytes 1 (v.n + 0x80) ++ leBytes 1 v.state ++ leBytes 1 v.entries.length ++ leBytes 1 v.cause ++ leBytes 4 v.rate ++ leBytes 1 v.cenMax ++ leBytes 7 0

/-- Words of k registers from an address. -/
def State.regBytes (s : State) (a k : Nat) : List Byte := leFields ((List.range k).map fun i => (4, s.rd (a + 4 * i)))

/-- ATT_POS and ATT_ITEM of a context (R238, R243): those of the item of ATTN_STEP that it holds. -/
def State.attPlace (s : State) (c x : Nat) : Nat × Nat :=
  let t := (s.ctx c x).tiler
  if t.active && t.phase == 1 && fieldAt t.desc 0 1 == 0x20 then (t.att.block % 2 ^ 16 * 2 ^ 16 + t.att.run % 2 ^ 16, s.rd (clReg c (0x838 + 0x20 * x)))
  else (0, 0xFFFFFFFF)

/-- The registers of a context in its state image. -/
def State.imageRegs (s : State) (c x : Nat) : List Byte :=
  s.regBytes (bbReg c x 0 0) 32 ++ s.regBytes (clReg c (0x820 + 0x20 * x)) 7 ++ leBytes 4 0 ++ s.regBytes (clReg c (0x900 + 0x10 * x)) 2 ++
  s.regBytes (clReg c (0xA44 + 0x20 * x)) 1 ++ leBytes 4 0 ++ s.regBytes (clReg c (0xA50 + 0x20 * x)) 4 ++ leBytes 4 (s.attPlace c x).1 ++ leBytes 4 (s.attPlace c x).2 ++ leBytes 8 0

/-- The channel records of a state image. -/
def chanRecords (chans : List SavedChan) : List Byte :=
  (List.range 16).flatMap fun k => match chans[k]? with
    | some v => chanRecord v
    | none => leBytes 16 0

/-- The descriptors of a state image. -/
def imageEntries (chans : List SavedChan) : List Byte :=
  let entries := chans.flatMap fun v => v.entries.flatMap fun e => e.flatMap (leBytes 4)
  entries ++ List.replicate (2048 - entries.length) 0

/-- The tile map of a state image. -/
def imageMap (tiles : List (Nat × Nat)) : List Byte :=
  (List.range 64).flatMap fun k => leBytes 1 ((tiles.findIdx? (· == (k / 8, k % 8))).getD 0xFF)

/-- The state image of a slot that leaves context x (Table 13-1), its tile images apart. -/
def State.imageHead (s : State) (c x n flags : Nat) (chans : List SavedChan) (tiles : List (Nat × Nat)) : List Byte :=
  leFields [(1, n), (1, (s.slot c n).prio), (1, tiles.length), (1, flags), (2, (((s.ctx c x).task.bind s.task).map (·.rcd.index)).getD 0), (58, 0)] ++
  s.imageRegs c x ++ chanRecords chans ++ imageEntries chans ++ imageMap tiles ++ leBytes 5552 0

/-- The tiles of a context read by the swap unit: whether an element of one is uncorrectable (R114, R115). -/
def State.readTiles (s : State) (c : Nat) (tiles : List (Nat × Nat)) : Bool × State :=
  tiles.foldl (fun q t =>
    let r := q.2.readTile (.swapUnit c) c t.1 t.2
    (q.1 || r.1, r.2)) (false, s)

/-- The array instructions of a context that have not issued go back to its tiler, in order (R294), and the queues are empty. -/
def State.reclaim (s : State) (c x : Nat) : State :=
  (List.range 8).foldl (fun s k =>
    let a := 7 - k
    let v := s.arr c a
    let q := v.queues.getD x []
    let s := s.setArr c a { v with queues := setAt v.queues x [] }
    let t := (s.ctx c x).tiler
    let logical := fun (i : QInstr) => setBits (setBits i.w0 6 4 (((t.map.getD a []).findIdx? (· == i.tile)).getD i.tile)) 63 61 0
    s.setCtx c x { s.ctx c x with tiler := { t with work := (q.map fun i => Work.arr a (logical i) i.w1) ++ t.work } }) s

/-- Whether a context may be saved: its accesses have ended, every descriptor whose data is delivered has retired, and no timed
claim holds an array (R299). -/
def State.saveReady (s : State) (c x : Nat) : Bool :=
  ((s.chansOf c x).all fun n => (s.chan c n).inflight.isEmpty && (match (s.chan c n).pos, (s.chan c n).queue with
    | some p, e :: _ => !(s.desc c e).over p
    | _, _ => true)) &&
  ((List.range 8).all fun a => ((s.arr c a).passes.all fun p => p.instr.ctx != x) && (match (s.arr c a).op with
    | some o => o.instr.ctx != x
    | none => true) && !(s.arr c a).claim) &&
  ((List.range 2).all fun e => (match (s.vec c e).running with
    | some r => r.ctx != x || decide ((s.vec c e).until_ ≤ s.ct)
    | none => true) && ((s.vec c e).queue.all fun q => q.ctx != x || q.array.isNone))

/-- CTX_SAVE_FAIL: the slot is torn down (Table 13-9). -/
def State.saveFail (s : State) (c x : Nat) : State :=
  let s := s.raiseCl .ctxSaveFail c (some x) (8 * c) x 0 0
  match (s.ctx c x).task with
  | some t => s.teardownTask t
  | none => s.tearDown c x 5 6

/-- A state image passed through the two 41-slot buffers at CL_CTX_SWAPBUF (R299): the tile images alternate between them, the rest follows;
the slots are left empty.
LOG 156 (DESIGN CHOICE). -/
def State.swapBuf (s : State) (c : Nat) (images : List (List Byte)) : State :=
  let first := s.fld (clReg c 0xA1C) 12 0
  images.zipIdx.foldl (fun s e =>
    let slot := first + 41 * (e.2 % 2)
    let l := (e.1.take (0x200000 - slot * 256))
    ((s.memWrite (.swapUnit c) (spAddr c (slot * 256)) l).2).setTags c slot (min (ceilDiv l.length 256) (8192 - slot)) false) s

/-- The slot of context x saved: image to memory, tiles unowned, registers and channels released; the load that waits for the
context begins. -/
def State.saveSlot (s : State) (c x n : Nat) : State :=
  let s := s.reclaim c x
  let k := s.ctx c x
  let tiles := s.tilesOf c x
  let chans := (s.chansOf c x).map (s.saveChan c)
  let attHeld := (s.att c).ctx == some x && s.fld (attReg c 0) 2 0 == 5
  let faulted := attHeld || chans.any fun v => v.state == 4
  let area := s.saveArea c n
  let parts := tiles.map fun t => s.tileImage c t.1 t.2 ++ List.replicate (10496 - (s.tileImage c t.1 t.2).length) 0
  let flags := 2 * b2n k.wait.isSome + 4 * b2n faulted + b2n (s.slot c n).resumePend
  let wins := (List.range 32).map fun i => s.rd (bbReg c x 0 0 + 4 * i)
  let head := s.imageHead c x n flags chans tiles
  let w := (s.swapBuf c (parts ++ [head])).memWrite (.swapUnit c) area (head ++ parts.flatten)
  let s := w.2
  let s := tiles.foldl (fun s t => s.setTileOwner c t.1 t.2 0xF) s
  let s := if attHeld then (s.setAtt c Att.idle).setFld (attReg c 0) 2 0 0 |>.setFld (attReg c 0) 26 24 7 else s
  let s := (s.chansOf c x).foldl (fun s m => (s.setChan c m MovChan.idle).setFld (movReg c (0x100 + 0x20 * m)) 2 0 7) s
  let v := s.slot c n
  let s := s.setSlot c n { v with ctx := none, tiler := k.tiler, chans := chans, faulted := faulted, attHeld := attHeld, waiting := k.wait, tiles := tiles.length, windows := wins, readyAt := s.ct, started := true }
  let s := (((s.scrubMove c x (8 + n) false).setCtx c x Ctx.empty).setCtxState c x 0 0).untile c x
  if w.1.isSome then (s.raiseCl .ctxSaveFail c (some x) (8 * c) x 0 0).tearSlot c n else s.slotWait c n 12

/-- STATE_IMAGE_SAVE. -/
def execStateImageSave (c x : Nat) (s : State) : Host.Outcome State Fault Refusal :=
  .next <| match (s.ctx c x).move, s.slotOf c x with
    | some (next, _), some n =>
      if s.ctxState c x = 4 ∧ s.saveReady c x = true then
        let q := s.readTiles c (s.tilesOf c x)
        if q.1 then q.2.saveFail c x
        else
          let s := q.2.saveSlot c x n
          let s := if next < 16 ∧ (s.slot c next).ctx = none ∧ (s.slot c next).task.isSome = true then s.loadStart c x next true else s
          s.settle
      else s
    | _, _ => s

/-! ## Loading (R299–R301) -/

/-- The registers a launch writes when a slot first becomes resident (R163, R293): list, status area, arena, tables, objects,
windows, tile owners among the free positions of its mask. -/
def State.firstLoad (s : State) (c x : Nat) (r : TaskRec) : State :=
  let b := clReg c (0x820 + 0x20 * x)
  let s := (s.wr b (r.listAddr % 2 ^ 32)).wr (b + 4) (r.listAddr / 2 ^ 32 % 2 ^ 15 + r.count % 2 ^ 16 * 2 ^ 16)
  let s := (s.wr64 (b + 8) r.statusAddr).wr (b + 0x10) (r.arenaFirst % 2 ^ 13 + r.arenaCount % 2 ^ 13 * 2 ^ 16)
  let s := (s.wr (b + 0x14) 0).wr (b + 0x18) 0xFFFFFFFF
  let q := clReg c (0x900 + 0x10 * x)
  let s := (s.wr q (r.root % 2 ^ 32 / 2 ^ 14 * 2 ^ 14 + r.asid % 2 ^ 12)).wr (q + 4) (r.root / 2 ^ 32 % 2 ^ 9)
  let s := s.wr (clReg c (0xA44 + 0x20 * x)) (r.syncBase % 2 ^ 25 + r.syncCount % 8 * 2 ^ 25)
  let s := r.windows.zipIdx.foldl (fun s w =>
    (((s.bbWrite c x w.2 3 w.1.w3).bbWrite c x w.2 2 w.1.w2).bbWrite c x w.2 1 w.1.w1).bbWrite c x w.2 0 w.1.w0) s
  let mine := fun (s : State) (a t : Nat) => bit r.tileMask (8 * a + t) && (s.tileOwner c a t == 0xF || s.tileOwner c a t == x)
  let s := (List.range 64).foldl (fun s k => if mine s (k / 8) (k % 8) then s.setTileOwner c (k / 8) (k % 8) x else s) s
  let map := (List.range 8).map fun a => (List.range 8).filter (fun t => bit r.tileMask (8 * a + t)) ++ (List.range 8).filter (fun t => !bit r.tileMask (8 * a + t))
  s.setCtx c x { s.ctx c x with tiler := { TilerCtx.idle with active := true, map := map } }

/-- The positions of array a that a load may use. -/
def State.freeTiles (s : State) (c a x : Nat) : List Nat := (List.range 8).filter fun t => s.tileOwner c a t == 0xF || s.tileOwner c a t == x

/-- The tiles of a saved slot restored from their images into free positions in ascending order; the tiler's map follows. -/
def State.restoreTiles (s : State) (c x area : Nat) (count : Nat) : State :=
  let map := s.mem.read (area + 0xA10) 64
  let posn := fun (a : Nat) => (List.range 8).filter fun t => (map.getD (8 * a + t) 0xFF).toNat < count
  let short := (List.range 8).any fun a => (s.freeTiles c a x).length < (posn a).length
  let t := (s.ctx c x).tiler
  let newMap := (List.range 8).map fun a =>
    let old := posn a
    let free := s.freeTiles c a x
    let moved := (t.map.getD a []).map fun p => ((old.findIdx? (· == p)).bind fun i => free[i]?).getD p
    moved
  let s := (List.range 8).foldl (fun s a =>
    ((posn a).zip (s.freeTiles c a x)).foldl (fun s e =>
      let s := s.setTileOwner c a e.2 x
      if short then s else s.loadImage c a e.2 (s.mem.read (area + 0x2000 + 10496 * (map.getD (8 * a + e.1) 0).toNat) 10304)) s) s
  s.setCtx c x { s.ctx c x with tiler := { t with map := newMap, bound := t.bound || short } }

/-- A saved channel brought back on a channel that is not bound. -/
def State.restoreChan (s : State) (c x : Nat) (resume : Bool) (v : SavedChan) : State :=
  let free := fun n => s.chanCtx c n == 7 && (s.chan c n).queue.isEmpty
  match (if free v.n then some v.n else (List.range 16).find? free) with
  | none => s
  | some n =>
    let s := (s.setFld (movReg c (0x100 + 0x20 * n)) 2 0 x).wr (movReg c (0x10C + 0x20 * n)) v.rate
    let spare := (List.range 32).filter fun e => !s.entryQueued c e
    let s := ((v.entries.zip spare).foldl (fun s e => (List.range 16).foldl (fun s w => s.wr (descReg c e.2 w) (e.1.getD w 0)) s) s)
    let st := if v.entries.isEmpty then 0 else if v.state = 4 then (if resume then 1 else 4) else 1
    s.setChan c n { MovChan.idle with queue := spare.take v.entries.length, cenMax := v.cenMax, carry := v.carry, admitted := v.admitted, state := st, cause := v.cause }

/-- The rest of a saved slot brought back: windows, tiler and translation registers, objects, wait state, tiles, channels. -/
def State.reload (s : State) (c x n : Nat) : State :=
  let v := s.slot c n
  let area := s.saveArea c n
  let img := fun (o : Nat) => s.ldn (area + o) 4
  let s := { s with tu := { s.tu with scrub := s.tu.scrub.filter fun e => e.locked || !(e.cluster == c && e.ctx == 8 + n) } }
  let s := (List.range 32).foldl (fun s i => s.bbWrite c x (7 - i / 4) (3 - i % 4) (img (0x40 + 16 * (7 - i / 4) + 4 * (3 - i % 4)))) s
  let s := (List.range 7).foldl (fun s i => s.wr (clReg c (0x820 + 0x20 * x + 4 * i)) (img (0xC0 + 4 * i))) s
  let s := (s.wr (clReg c (0x900 + 0x10 * x)) (img 0xE0)).wr (clReg c (0x904 + 0x10 * x)) (img 0xE4)
  let s := s.wr (clReg c (0xA44 + 0x20 * x)) (img 0xE8)
  let s := (List.range 4).foldl (fun s i => s.wr (clReg c (0xA50 + 0x20 * x + 4 * i)) (img (0xF0 + 4 * i))) s
  let s := if img 0x104 ≠ 0xFFFFFFFF then (s.wr (attReg c 8) (img 0x100)).wr (attReg c 0xC) (img 0x104) else s
  let s := s.swapBuf c ((List.range (v.tiles + 1)).map fun k => if k < v.tiles then s.mem.read (area + 0x2000 + 10496 * k) 10496 else s.mem.read area 0x2000)
  let s := s.setCtx c x { s.ctx c x with tiler := v.tiler }
  let s := s.restoreTiles c x area v.tiles
  let resume := v.resumePend || bit (s.ldn (area + 3) 1) 0
  let s := v.chans.foldl (fun s k => s.restoreChan c x resume k) s
  let s := if v.attHeld && !resume && (s.att c).ctx.isNone then
      (s.setAtt c { s.att c with ctx := some x }).setFld (attReg c 0) 2 0 5 |>.setFld (attReg c 0) 26 24 x
    else s
  let s := s.setSlot c n { v with resumePend := false, waiting := none, chans := [], faulted := false, attHeld := false }
  match v.waiting with
  | some (ga, e) => s.beginWait c x ga e
  | none => s

/-- Whether the image of a saved slot carries uncorrectable data. -/
def State.imageUe (s : State) (c n : Nat) : Bool :=
  (s.errWords (s.saveArea c n) (0x2000 + 10496 * (s.slot c n).tiles)).any Prod.snd

/-- The context of a loaded slot becomes ready, or suspended where a channel still waits for RESUME. -/
def State.loadDone (s : State) (c x n : Nat) : State :=
  let v := s.slot c n
  let s := match v.started, v.task.bind s.task with
    | false, some t => s.firstLoad c x t.rcd
    | _, _ => s.reload c x n
  let s := s.setSlot c n { s.slot c n with started := true }
  let swap := (s.ctx c x).swapIn || v.started
  let s := (s.setCtx c x { s.ctx c x with held := false, move := none, swapIn := false }).countUp (clReg c 0xA08) (b2n swap)
  let s := if swap then s.ndTiming (s.ownerOf c) else s
  let idx := match v.task.bind s.task with
    | some t => t.rcd.index
    | none => 0
  let s := s.wr (ctxStatus c x) (s.fld (ctxStatus c x) 31 31 * 2 ^ 31 + idx % 256 * 2 ^ 16 + v.prio * 2 ^ 14 + n * 2 ^ 8 + 5)
  let stopped := (s.att c).ctx == some x || (s.chansOf c x).any fun m => (s.chan c m).state == 4
  (s.setCtxState c x (if stopped then 3 else 1) 0).settle

/-- LOAD: a CL_CTX_CMD LOAD of the Steward begins a load into an empty context. -/
def execLoad (r : Requester) (c x slot : Nat) (s : State) : Host.Outcome State Fault Refusal :=
  .next <|
    if r == .steward && decide (c < s.nClusters) && decide (x < 4) && decide (slot < 16) && s.ctxState c x == 0 &&
        (s.slot c slot).task.isSome && (s.slot c slot).ctx.isNone then s.loadStart c x slot false
    else s

/-- Whether the channels and descriptors of a saved slot find free channels and entries.
LOG 139 (DESIGN CHOICE). -/
def State.chansFit (s : State) (c n : Nat) : Bool :=
  let l := (s.slot c n).chans
  decide (l.length ≤ ((List.range 16).filter fun m => s.chanCtx c m == 7 && (s.chan c m).queue.isEmpty).length) &&
  decide ((l.map (·.entries.length)).foldl (· + ·) 0 ≤ ((List.range 32).filter fun e => !s.entryQueued c e).length)

/-- LOAD_COMPLETE: the load waits until the slot's channels and descriptors find free ones.
LOG 54, 139 (DESIGN CHOICE). -/
def execLoadComplete (c x : Nat) (s : State) : Host.Outcome State Fault Refusal :=
  .next <| match (s.ctx c x).move with
    | some (n, _) =>
      if s.ctxState c x = 5 ∧ s.chansFit c n = true then
        if (s.slot c n).started && s.imageUe c n then (s.setCtx c x { s.ctx c x with move := none }).saveFail c x else s.loadDone c x n
      else s
    | none => s

/-! ## Commands on contexts (R302, R304, R313) -/

/-- PREEMPT: only the Steward's; ignored while the context saves, loads or tears down. -/
def State.preempt (s : State) (c x : Nat) : State :=
  match s.ctxState c x with
  | 1 => s.evict c x 16
  | 2 => s.evict c x 16
  | 3 => s.evict c x 16
  | 0 => s
  | _ => s.orReg (ctxStatus c x) (2 ^ 31)

/-- PREEMPT. -/
def execPreempt (r : Requester) (c x : Nat) (s : State) : Host.Outcome State Fault Refusal :=
  .next (if r == .steward && decide (c < s.nClusters) && decide (x < 4) then s.preempt c x else s)

/-- The task of a slot torn down loses this cluster's share; with no share left it ends aborted. -/
def State.dropShare (s : State) (c : Nat) (t : Option Nat) : State :=
  match t with
  | none => s
  | some t =>
    let s := s.modTask t fun k => { k with aborted := true, left := k.left.filter (· != c) }
    match s.task t with
    | some k =>
      if k.left.isEmpty ∧ k.ended = false then
        let s := s.modTask t fun k => { k with ended := true }
        match k.cmd with
        | some (r, i) => s.complete r i stAborted 0 0
        | none => s
      else s
    | none => s

/-- TEARDOWN: of a resident context, or of a swapped-out slot. -/
def execTeardown (r : Requester) (c x : Nat) (swapped : Bool) (slot : Nat) (s : State) : Host.Outcome State Fault Refusal :=
  .next <|
    if r == .steward && decide (c < s.nClusters) && decide (x < 4) && decide (slot < 16) then
      if swapped then
        if (s.slot c slot).task.isSome && (s.slot c slot).ctx.isNone then ((s.dropShare c (s.slot c slot).task).tearSlot c slot).settle else s
      else if s.ctxState c x = 0 ∨ s.ctxState c x = 6 then s
      else (s.tearDown c x 5 6).dropShare c (s.ctx c x).task
    else s

/-! ## SUSPEND, CONTINUE, KILL (R400) -/

/-- The live instances of the task a command names. -/
def State.named (s : State) (k : Cmd) : List (Nat × Task) :=
  s.tasks.filter fun e => e.2.part == k.part && e.2.rcd.index == k.arg 8 2 && !e.2.ended && !e.2.timed

/-- Whether a KILL of the task a command names is in progress.
LOG 130 (DESIGN CHOICE). -/
def State.killing (s : State) (k : Cmd) : Bool := s.st.cmds.any fun q => q.opcode == 7 && q.started && q.part == k.part && q.arg 8 2 == k.arg 8 2

/-- SUSPEND: every resident slot of the task is pre-empted; it completes once every slot is saved. A KILL of the task supersedes it
(R399).
LOG 130 (DESIGN CHOICE). -/
def State.suspendCmd (s : State) (ring idx : Nat) (k : Cmd) : State :=
  if s.killing k then s.complete ring idx stAborted 0 0
  else if (s.named k).isEmpty then s.complete ring idx stInvalid 0 0
  else
    let s := (s.named k).foldl (fun s e => s.modTask e.1 fun t => { t with suspended := true }) s
    let s := (s.slotsOfTask k.part (k.arg 8 2)).foldl (fun s e => match (s.slot e.1 e.2).ctx with
      | some x => s.preempt e.1 x
      | none => s) s
    s.settle

/-- SUSPEND. -/
def execSuspend (ring idx : Nat) (s : State) : Host.Outcome State Fault Refusal :=
  .next (s.mbox ring idx 0x05 fun k s => s.suspendCmd ring idx k)

/-- CONTINUE: the slots may be loaded again; it completes once each is resident or ready. -/
def execCont (ring idx : Nat) (s : State) : Host.Outcome State Fault Refusal :=
  .next (s.mbox ring idx 0x06 fun k s =>
    if (s.named k).isEmpty then s.complete ring idx stInvalid 0 0
    else ((s.named k).foldl (fun s e => s.modTask e.1 fun t => { t with suspended := false }) s).settle)

/-- KILL: the task is torn down, a SUSPEND of it is superseded; it completes when every Rinse has ended. -/
def State.killCmd (s : State) (ring idx : Nat) (k : Cmd) : State :=
  let waiting := s.launchQ.filter fun q => q.part == k.part && q.rcd.index == k.arg 8 2
  if (s.named k).isEmpty && waiting.isEmpty then s.complete ring idx stInvalid 0 0
  else
    let s := (s.st.cmds.filter fun q => q.opcode == 5 && q.started && q.part == k.part && q.arg 8 2 == k.arg 8 2).foldl (fun s q => s.complete q.ring q.idx stAborted 0 0) s
    let s := { s with launchQ := s.launchQ.filter fun q => !(q.part == k.part && q.rcd.index == k.arg 8 2) }
    let s := waiting.foldl (fun s q => match q.cmd with
      | some (r, i) => s.complete r i stAborted 0 0
      | none => s) s
    ((s.named k).foldl (fun s e => s.teardownTask e.1) s).settle

/-- KILL. -/
def execKill (ring idx : Nat) (s : State) : Host.Outcome State Fault Refusal :=
  .next (s.mbox ring idx 0x07 fun k s => s.killCmd ring idx k)

/-! ## The tiler's choice of context (R297) -/

/-- CUR_CTX of cluster c. -/
def State.curCtx (s : State) (c : Nat) : Nat := s.fld (clReg c 0x800) 11 9

/-- Whether context x's queues have room on every array. -/
def State.queueRoom (s : State) (c x : Nat) : Bool := (List.range 8).all fun a => decide (((s.arr c a).queues.getD x []).length < 8)

/-- The context the sequencer changes to: ready, of equal or higher priority, with room, by the order of R296. -/
def State.nextCtx (s : State) (c cur : Nat) : Option Nat :=
  let l := (List.range 4).filter fun x => x != cur && s.ctxState c x == 1 && (s.ctx c x).tiler.active && decide (s.ctxPrio c cur ≤ s.ctxPrio c x) && s.queueRoom c x
  l.find? fun x => l.all fun y => y == x ||
    beats (s.ctxPrio c x) (s.ctx c x).tiler.emitted x (s.ctxPrio c y) (s.ctx c y).tiler.emitted y

/-- CUR_CTX becomes x. -/
def State.tileFor (s : State) (c x : Nat) : State :=
  let k := s.ctx c x
  (s.setCtx c x { k with tiler := { k.tiler with emitted := s.ct } }).setFld (clReg c 0x800) 11 9 x

/-- TILER_CONTEXT_CHANGE: after 2,048 ct of emitting for one context. -/
def execTilerContextChange (c : Nat) (s : State) : Host.Outcome State Fault Refusal :=
  .next <|
    let cur := s.curCtx c
    if cur < 4 ∧ (s.ctx c cur).tiler.emitted + 2048 ≤ s.ct then
      match s.nextCtx c cur with
      | some x => s.tileFor c x
      | none => s
    else s

end Sys2Proof.Machine
end

