-- ==== Sys2Proof/Machine/TilerOps.lean ====
section
/-! DEFINITION. The tiler's shared operations (R152, R163, R164, R169, R178, R538): reads and writes for a context, operators read and
refused, shares and work items, the end of an operator. -/

namespace Sys2Proof.Machine

/-! ## Reads and writes that a Mover makes for a context -/

/-- A piece of channel n that met a translation failure (R152, R153): an elastic miss suspends the channel and its context, a
timed one ends the task. -/
def State.movMiss (s : State) (c n x entry side va : Nat) (q : XRes) : State :=
  let info := fun (s : State) (src : Src) => s.raiseCl src c (some x) (8 * c + 1) n (va % 2 ^ 32) (va / 2 ^ 32 % 2 ^ 16)
  match q with
  | .ok _ => s
  | .fault k l =>
    let s := info (s.movFault c n entry 1 side va) .movPageFault
    let s := (s.setChan c n { s.chan c n with state := 4 }).pageFault (.mover c n x) c x va k l none
    if s.ctxState c x = 1 ∨ s.ctxState c x = 2 then s.setCtxState c x 3 0 else s
  | .timedMiss => (info (s.movFault c n entry 2 side va) .movXlateTimed).abortCtx c x 6
  | .invalid => s.abortCtx c x 6
  | .ue => (s.movFault c n entry 4 side va).abortCtx c x 5

/-- The channel that carries the tiler's own transfers of context x: its lowest bound one, 0 without any. -/
def State.lane (s : State) (c x : Nat) : Nat := (s.chansOf c x).headD 0

/-- A piece of a step's transfer: the global address it reaches, or none where it failed and that has been dealt with. -/
def State.reachGa (s : State) (c x va n : Nat) (right : Right) : Option Nat × State :=
  let lane := s.lane c x
  if 2 ^ 47 ≤ va then (none, s.abortCtx c x 6)
  else
    let q := s.xlate (.mover c lane x) c x va right none
    match q.1 with
    | .ok ga =>
      if q.2.windowOk c x ga n right then (some ga, q.2) else (none, q.2.bbViolation (.mover c lane x) c x ga)
    | e => (none, q.2.movMiss c lane x 0 (if right = .read then 0 else 1) va e)

/-- The local address of a piece of a step's transfer, or none where it failed. -/
def State.reachVa (s : State) (c x va n : Nat) (right : Right) : Option Nat × State :=
  let q := s.reachGa c x va n right
  match q.1 with
  | none => (none, q.2)
  | some ga => match q.2.localOf ga with
    | some a => (some a, q.2)
    | none => (none, (q.2.farRead (.mover c (q.2.lane c x) x) ga).abortCtx c x 6)

/-- n bytes read for a work item of context x. -/
def State.xRead (s : State) (c x va n : Nat) : Option (List Byte) × State :=
  (vaPieces va n).foldl (fun acc p => match acc.1 with
    | none => acc
    | some l =>
      let q := acc.2.reachVa c x p.1 p.2 .read
      match q.1 with
      | none => (none, q.2)
      | some a =>
        let rd := q.2.memRead (.mover c (q.2.lane c x) x) a p.2
        match rd.1.err with
        | none => (some (l ++ rd.1.bytes), rd.2)
        | some e => (none, rd.2.abortCtx c x e.cause)) (some [], s)

/-- Several runs read: the bytes of each. -/
def State.xReads (s : State) (c x : Nat) (l : List (Nat × Nat)) : Option (List (List Byte)) × State :=
  l.foldl (fun acc r => match acc.1 with
    | none => acc
    | some o =>
      let q := acc.2.xRead c x r.1 r.2
      (q.1.map fun b => o ++ [b], q.2)) (some [], s)

/-- Bytes written for a work item; false where it failed. -/
def State.xWrite (s : State) (c x va : Nat) (l : List Byte) : Bool × State :=
  (vaPieces va l.length).foldl (fun acc p =>
    if acc.1 then
      let q := acc.2.reachGa c x p.1 p.2 .write
      let d := (l.drop (p.1 - va)).take p.2
      match q.1 with
      | none => (false, q.2)
      | some ga => match q.2.localOf ga with
        | none => q.2.farWrite (.mover c (q.2.lane c x) x) c x ga d
        | some a =>
          let w := q.2.memWrite (.mover c (q.2.lane c x) x) a d
          match w.1 with
          | none => (true, w.2)
          | some e => (false, w.2.abortCtx c x e.cause)
    else acc) (true, s)

/-- Several runs written in order. -/
def State.xWrites (s : State) (c x : Nat) (l : List (Nat × List Byte)) : Bool × State :=
  l.foldl (fun acc r => if acc.1 then acc.2.xWrite c x r.1 r.2 else acc) (true, s)

/-! ## Operators (R163–R165, R538) -/

/-- OP of CL_TILER_POS: the index of the current operator. -/
def State.opIndex (s : State) (c x : Nat) : Nat := s.fld (clReg c (0x834 + 0x20 * x)) 15 0
/-- The operator list address. -/
def State.listAddr (s : State) (c x : Nat) : Nat :=
  s.rd (clReg c (0x820 + 0x20 * x)) / 128 * 128 + 2 ^ 32 * s.fld (clReg c (0x824 + 0x20 * x)) 14 0
/-- The operator count. -/
def State.listCount (s : State) (c x : Nat) : Nat := s.fld (clReg c (0x824 + 0x20 * x)) 31 16
/-- The status area address. -/
def State.statusAddr (s : State) (c x : Nat) : Nat :=
  s.rd (clReg c (0x828 + 0x20 * x)) / 8 * 8 + 2 ^ 32 * s.fld (clReg c (0x82C + 0x20 * x)) 14 0
/-- The arena: first slot and count. -/
def State.arena (s : State) (c x : Nat) : Nat × Nat :=
  let v := s.rd (clReg c (0x830 + 0x20 * x))
  (bits v 12 0, bits v 28 16)
/-- The held work item. -/
def State.item (s : State) (c x : Nat) : Nat := s.rd (clReg c (0x838 + 0x20 * x))
/-- The held work item set. -/
def State.setItem (s : State) (c x v : Nat) : State := s.wr (clReg c (0x838 + 0x20 * x)) v

/-- The tiler of context x. -/
def State.til (s : State) (c x : Nat) : TilerCtx := (s.ctx c x).tiler
/-- The tiler of context x rewritten. -/
def State.modTil (s : State) (c x : Nat) (f : TilerCtx → TilerCtx) : State :=
  s.setCtx c x { s.ctx c x with tiler := f (s.til c x) }

/-- CL_TILER_STATE.STATE. -/
def State.tilState (s : State) (c v : Nat) : State := s.setFld (clReg c 0x800) 3 0 v

/-- Whether every byte of a field lies in the 47-bit range (R538). -/
def inVa (addr n : Nat) : Bool := decide (addr + n ≤ 2 ^ 47)

/-- The current operator refused (R169): DESC_INVALID, the task aborted, CAUSE 0x01. -/
def State.descRefused (s : State) (c x : Nat) : State :=
  (s.raiseCl .descInvalid c (some x) (8 * c) (s.opIndex c x) (s.opIndex c x) 0).abortCtx c x 1

/-- TILER_ARENA (R174, R183). -/
def State.arenaFault (s : State) (c x : Nat) : State :=
  (s.raiseCl .tilerArena c (some x) (8 * c) (s.opIndex c x) (s.opIndex c x) 0).abortCtx c x 3

/-- Whether context x is ready, or blocked by the tags of its own slots alone.
LOG 160 (DEDUCED). -/
def State.tagsOnly (s : State) (c x : Nat) : Bool := s.ctxState c x == 1 || s.ctxState c x == 2 && (s.blockCause c x == 2 || s.blockCause c x == 3)

/-- Whether the tiler may act for context x: its context runs, and the sequencer tiles for it or may change to it (R297); the
timed context's posting is never delayed. -/
def State.tilerMay (s : State) (c x : Nat) : Bool :=
  decide (c < s.nClusters) && decide (x < 5) && (s.til c x).active && !(s.ctx c x).held && (s.ctx c x).wait.isNone &&
  (if x = 4 then s.ctxState c 4 == 7
   else s.tagsOnly c x && (s.curCtx c == x || s.curCtx c == 7 || s.ctxState c (s.curCtx c) != 1 || !(s.til c (s.curCtx c)).active))

/-- The sequencer tiles for an elastic context x. -/
def State.tilerTake (s : State) (c x : Nat) : State := if x = 4 ∨ s.curCtx c = x then s else s.tileFor c x

/-- A channel for the tiler's transfers: the lowest one bound to the context, else the lowest unbound empty one, bound now. -/
def State.tilerChan (s : State) (c x : Nat) : Option Nat × State :=
  match s.chansOf c x with
  | n :: _ => (some n, s)
  | [] => match (List.range 16).find? fun n => s.chanCtx c n == 7 && (s.chan c n).queue.isEmpty with
    | some n => (some n, s.setFld (movReg c (0x100 + 0x20 * n)) 2 0 x)
    | none => (none, s)

/-- An operator in hand: nothing of the one before it stays in the flags, the items or the work (R164). -/
def TilerCtx.take (t : TilerCtx) (l : List Byte) : TilerCtx :=
  { t with phase := 1, desc := l, sat := false, ovf := false, nan := false, special := false, fallback := false, aborted := false, cause := 0,
           items := 0, next := 0, total := 0, allTaken := false, work := [], waitWord := none, own := 0, bound := false, resident := none, att := AttWork.idle }

/-- The descriptor of the current operator, read at its place in the list as a Mover of the context reads (R163, R538): a translation miss
suspends the context, any other failure ends its task. Where no channel is free the tiler waits.
LOG 149 (DESIGN CHOICE). -/
def State.readOp (s : State) (c x : Nat) : Option (List Byte) × State :=
  let n := s.opIndex c x
  let a := s.listAddr c x + 128 * n
  if !inVa a 128 || !inVa (s.statusAddr c x + 8 * n) 8 then (none, (s.modTil c x fun t => t.take []).descRefused c x)
  else
    let q := s.tilerChan c x
    if q.1.isNone then (none, s)
    else
      let r := (q.2.modTil c x fun t => t.take []).xRead c x a 128
      if r.1.isSome || (r.2.til c x).aborted then r else (none, r.2.modTil c x fun t => { t with phase := 0 })

/-- The OPCODEs of Table 07-4. -/
def catalogue : List Nat := [0x01, 0x10, 0x11, 0x12, 0x13, 0x14, 0x15, 0x20, 0x21, 0x28, 0x30, 0x31, 0x32, 0x33, 0x34, 0x35, 0x38, 0x40, 0x41]

/-- The OPCODE of the next operator as its list holds it, without any effect; none where it cannot be read or is reserved. -/
def State.opNow (s : State) (c x : Nat) : Option Nat :=
  let v := match (s.til c x).phase with
    | 0 => (s.readOp c x).1.map fun l => fieldAt l 0 1
    | _ => some (fieldAt (s.til c x).desc 0 1)
  v.filter catalogue.contains

/-- The OPCODE of the next operator, 0x100 where it cannot be read or is reserved. -/
def State.peekOp (s : State) (c x : Nat) : Nat := (s.opNow c x).getD 0x100

/-! ## Shares (R178) -/

/-- The clusters of the task of context x, in ascending number. -/
def State.shareOf (s : State) (c x : Nat) : List Nat :=
  match (s.ctx c x).task.bind s.task with
  | some t => sortBy (fun a b => decide (a ≤ b)) t.rcd.clusters
  | none => [c]

/-- Whether this cluster runs an operator with DIST clear. -/
def State.leads (s : State) (c x : Nat) : Bool := (s.shareOf c x).headD c == c

/-- The next work item of the operator: an index, none where there is no more; false where the fetch failed. -/
def State.nextItem (s : State) (c x total wctr : Nat) (dist : Bool) : Bool × Option Nat × State :=
  let t := s.til c x
  if t.allTaken then (true, none, s)
  else if !dist then
    if t.next < total then (true, some t.next, s.modTil c x fun t => { t with next := t.next + 1 }) else (true, none, s)
  else if x = 4 then
    let l := s.shareOf c x
    let i := (l.findIdx? (· == c)).getD 0 + l.length * t.next
    if i < total then (true, some i, s.modTil c x fun t => { t with next := t.next + 1 }) else (true, none, s)
  else
    let a := chipCtrBase + 8 * wctr
    let ga := 127 * 2 ^ 41 + a
    if !s.windowOk c x ga 8 .atomic then (false, none, s.bbViolation (.tiler c x) c x ga)
    else
      let q := s.memAtomic (.tiler c x) .fetch a 1 0
      match q.1.2 with
      | some e => (false, none, q.2.abortCtx c x e.cause)
      | none => if q.1.1 < total then (true, some q.1.1, q.2.modTil c x fun t => { t with next := t.next + 1 }) else (true, none, q.2.modTil c x fun t => { t with allTaken := true })

/-- The operator starts: its descriptor held, its flags clear. -/
def State.opStart (s : State) (c x : Nat) (l : List Byte) (total : Nat) (work : List Work) : State :=
  let s := s.modTil c x fun t => { t.take l with total := total, work := work }
  (s.setItem c x 0xFFFFFFFF).setFld (clReg c (0x834 + 0x20 * x)) 31 16 0

/-- The share of the operator is finished; its completion word is due. -/
def State.opDoneShare (s : State) (c x : Nat) : State := (s.setItem c x 0xFFFFFFFF).modTil c x fun t => { t with phase := 2, work := [] }

/-- A work item ends. -/
def State.itemEnd (s : State) (c x : Nat) : State := (s.setItem c x 0xFFFFFFFF).modTil c x fun t => { t with items := t.items + 1 }

/-- IN_SPECIAL of the operator and of the cluster. -/
def State.inSpecial (s : State) (c x : Nat) (b : Bool) : State :=
  (s.arithSpecial c b).modTil c x fun t => { t with special := t.special || b }

/-- The flags of a kernel's final rounding. -/
def State.outFlags (s : State) (c x : Nat) (ovf nan : Bool) : State :=
  (s.arithOut c ovf nan).modTil c x fun t => { t with ovf := t.ovf || ovf, nan := t.nan || nan }

/-! ## Engine steps -/

/-- Engine steps of a kernel for context x.
LOG 126 (DESIGN CHOICE). -/
def State.addSteps (s : State) (c x kernel ct : Nat) : State :=
  let e := s.stepEngine c
  s.setVec c e { s.vec c e with queue := (s.vec c e).queue ++ splitSteps x kernel ct none }

/-- Whether context x has no engine step queued or running. -/
def State.stepsDone (s : State) (c x : Nat) : Bool :=
  (List.range 2).all fun e => ((s.vec c e).queue.all fun q => q.ctx != x) && (match (s.vec c e).running with
    | some r => r.ctx != x || decide ((s.vec c e).until_ ≤ s.ct)
    | none => true)

/-- Whether the Mover channels of context x have no descriptor. -/
def State.movIdle (s : State) (c x : Nat) : Bool := (s.chansOf c x).all fun n => (s.chan c n).queue.isEmpty && (s.chan c n).inflight.isEmpty

/-- Whether the arrays have nothing of context x queued, running or uncommitted. -/
def State.arrsIdle (s : State) (c x : Nat) : Bool :=
  (List.range 8).all fun a =>
    let v := s.arr c a
    (v.queues.getD x []).isEmpty && (v.passes.all fun p => p.instr.ctx != x) && (match v.op with
      | some o => o.instr.ctx != x
      | none => true) && decide (v.busy ≤ s.ct)

/-- Whether everything issued for context x has ended. -/
def State.ctxIdle (s : State) (c x : Nat) : Bool := s.stepsDone c x && s.movIdle c x && s.arrsIdle c x

/-- Whether a conv operator has the diagonal mapping (R196).
LOG 43, 170 (DESIGN CHOICE). -/
def isDiag (l : List Byte) : Bool := fieldAt l 0 1 != 0x01 && fieldAt l 0 1 != 0x10 && decide (fieldAt l 0x1E 2 / max 1 (fieldAt l 0x16 2) < 32)

/-- CL_TASK_TABLE: one tile task for each array of each item held; the greatest number since reset. -/
def State.taskTable (s : State) (c : Nat) : State :=
  let one := fun (x : Nat) =>
    let d := (s.til c x).desc
    if s.item c x = 0xFFFFFFFF ∨ !([0x01, 0x10, 0x11, 0x12].contains (fieldAt d 0 1)) then 0 else if fieldAt d 0 1 ≠ 1 ∧ isDiag d = true then 1 else 8
  let n := ((List.range 5).map one).foldl (· + ·) 0
  (s.setFld (clReg c 0x808) 6 0 n).setFld (clReg c 0x808) 22 16 (max n (s.fld (clReg c 0x808) 22 16))

/-! ## The completion word (R164) -/

/-- The completion word of the operator in hand (Table 07-1).
LOG 45 (DESIGN CHOICE). -/
def compWord (t : TilerCtx) : Nat :=
  let f := if t.aborted then 64 + t.cause * 256 else b2n true
  f + 2 * b2n t.sat + 4 * b2n t.ovf + 8 * b2n t.nan + 16 * b2n t.special + 32 * b2n t.fallback + fieldAt t.desc 4 2 * 2 ^ 16 + t.items * 2 ^ 32

/-- A timed task ended without abort: a slipped one that ended in time counts once in ND_TIMING (R281), and the streams it produces are
fresh (R287). -/
def State.timedEnd (s : State) (k : Task) : State :=
  let s := if k.slipped && decide (s.ct ≤ k.launchAt + 24 + k.endCt) then s.ndTiming (some k.part) else s
  match (s.dsp k.part).table with
  | some b =>
    let new := (b.streams.filter fun r => r.source == 0 && r.task == k.rcd.index).map StreamRec.stream
    s.setDsp k.part { s.dsp k.part with fresh := new ++ (s.dsp k.part).fresh.filter fun n => !new.contains n }
  | none => s

/-- A cluster's share of a task has ended: its slot is torn down or its timed context left; with the last share the task ends.
LOG 53 (DEDUCED). -/
def State.shareEnd (s : State) (c x : Nat) : State :=
  match (s.ctx c x).task with
  | none => s
  | some t =>
    let s := (s.modTil c x fun q => { q with active := false, phase := 0 }).untile c x
    let s := s.modTask t fun k => { k with left := k.left.filter (· != c) }
    let s := if x = 4 then s.endTimedCtx c else s.tearDown c x 5 6
    match s.task t with
    | some k =>
      if k.left.isEmpty ∧ k.ended = false then
        let s := s.modTask t fun k => { k with ended := true }
        let s := if k.timed && !k.aborted then s.timedEnd k else s
        match k.cmd with
        | some (r, i) => s.complete r i (if k.aborted then stAborted else stOk) 0 0
        | none => s
      else s
    | none => s

/-- The share of a cluster of a lockstep pair ends 3 ct after its last compared event, its completion word (R434); any other at once.
LOG 167 (DESIGN CHOICE). -/
def State.shareOver (s : State) (c x : Nat) : State :=
  match s.isLockstep (c / 2), (s.ctx c x).task with
  | true, some t =>
    let s := (s.modTil c x fun q => { q with active := false, phase := 0 }).untile c x
    { s with ending := s.ending ++ [(c, x, t, s.ct + 3)] }
  | _, _ => s.shareEnd c x

/-- Shares whose 3 ct have passed end.
LOG 167 (DESIGN CHOICE). -/
def State.endDue (s : State) : State :=
  let due := s.ending.filter fun e => decide (e.2.2.2 ≤ s.ct)
  due.foldl (fun (s : State) (e : Nat × Nat × Nat × Nat) =>
    if (s.ctx e.1 e.2.1).task = some e.2.2.1 ∧ (s.task e.2.2.1).any (fun k => !k.aborted) = true then s.shareEnd e.1 e.2.1 else s)
    { s with ending := s.ending.filter fun e => decide (s.ct < e.2.2.2) }

/-- The word written at the status area; where the address lies outside the range none is written (R538). -/
def State.writeWord (s : State) (c x : Nat) : State :=
  let a := s.statusAddr c x + 8 * s.opIndex c x
  if inVa a 8 then (s.ctxWrite (.tiler c x) c x a (leBytes 8 (compWord (s.til c x)))).2 else s

/-- COMPLETION_WORD: the word of a finished or aborted share, then SYNC_ID and the next operator. -/
def State.completionWord (s : State) (c x : Nat) : State :=
  let t := s.til c x
  let s := (((s.writeWord c x).modTil c x fun q => { q with phase := if q.aborted then 3 else 0, work := [] }).setItem c x 0xFFFFFFFF).taskTable c
  let s := if t.desc.isEmpty then s else s.unitSignal (.tiler c x) c x (fieldAt t.desc 6 2)
  if t.aborted then s
  else if (s.til c x).aborted then s
  else
    let n := s.opIndex c x + 1
    let s := s.setFld (clReg c (0x834 + 0x20 * x)) 15 0 n
    if s.listCount c x ≤ n then s.shareOver c x else s

/-- COMPLETION_WORD.
LOG 45 (DESIGN CHOICE). -/
def execCompletionWord (c x : Nat) (s : State) : Host.Outcome State Fault Refusal :=
  .next <|
    let t := s.til c x
    if decide (c < s.nClusters) && decide (x < 5) && t.active && t.phase == 2 && (t.aborted || s.ctxIdle c x) then s.completionWord c x else s

end Sys2Proof.Machine
end

