-- ==== Sys2Proof/Machine/AttOps.lean ====
section
/-! DEFINITION. The attention sequencer's accesses (R227, R239): through a run's ROOT snapshot, or through the context's own
translation, with the suspension a fault causes. -/

namespace Sys2Proof.Machine

/-- ATT_STATUS takes a fault: CAUSE, FAULT, the address. -/
def State.attNote (s : State) (c cause va : Nat) : State :=
  ((s.setFld (attReg c 0) 31 28 cause).orReg (attReg c 0) (2 ^ 27)).wr64 (attReg c 0x10) va

/-- ATT_STATUS.STATE and CUR_CTX. -/
def State.attState (s : State) (c st x : Nat) : State := (s.setFld (attReg c 0) 2 0 st).setFld (attReg c 0) 26 24 x

/-- A translation that failed for the attention sequencer (R239): an elastic fault suspends it, a timed miss ends the task. -/
def State.attFail (s : State) (c x va : Nat) (snap : Option Snap) (q : XRes) : State :=
  let info := fun (s : State) (src : Src) => s.raiseCl src c (some x) (8 * c + 2) 0 (va % 2 ^ 32) (va / 2 ^ 32 % 2 ^ 16)
  match q with
  | .ok _ => s
  | .fault k l =>
    let s := (info ((s.attNote c 1 va).attState c 5 x) .attPageFault).setAtt c { ctx := some x }
    let s := s.pageFault (.attention c x) c x va k l snap
    if s.ctxState c x = 1 ∨ s.ctxState c x = 2 then s.setCtxState c x 3 0 else s
  | .timedMiss => (info (s.attNote c 2 va) .attXlateTimed).abortCtx c x 6
  | .invalid => s.abortCtx c x 6
  | .ue => (s.attNote c 4 va).abortCtx c x 5

/-- A failed memory access of the attention sequencer. -/
def State.attMemFail (s : State) (c x va : Nat) (e : AccErr) : State :=
  (if e = .ue then s.attNote c 4 va else s).abortCtx c x e.cause

/-- The global address of n bytes inside one page; none where the translation or the windows refuse it. -/
def State.attGa (s : State) (c x : Nat) (snap : Option Snap) (va n : Nat) (right : Right) : Option Nat × State :=
  if 2 ^ 47 ≤ va then (none, s.abortCtx c x 6)
  else
    let q := s.xlate (.attention c x) c x va right snap
    match q.1 with
    | .ok ga =>
      if q.2.windowOk c x ga n right then (some ga, q.2) else (none, q.2.bbViolation (.attention c x) c x ga)
    | e => (none, q.2.attFail c x va snap e)

/-- The local address of n bytes inside one page; none where the access failed. -/
def State.attReach (s : State) (c x : Nat) (snap : Option Snap) (va n : Nat) (right : Right) : Option Nat × State :=
  let q := s.attGa c x snap va n right
  match q.1 with
  | none => (none, q.2)
  | some ga => match q.2.localOf ga with
    | some a => (some a, q.2)
    | none => (none, (q.2.farRead (.attention c x) ga).abortCtx c x 6)

/-- n bytes read. -/
def State.attRead (s : State) (c x : Nat) (snap : Option Snap) (va n : Nat) : Option (List Byte) × State :=
  (vaPieces va n).foldl (fun acc p => match acc.1 with
    | none => acc
    | some l =>
      let q := acc.2.attReach c x snap p.1 p.2 .read
      match q.1 with
      | none => (none, q.2)
      | some a =>
        let rd := q.2.memRead (.attention c x) a p.2
        match rd.1.err with
        | none => (some (l ++ rd.1.bytes), rd.2)
        | some e => (none, rd.2.attMemFail c x p.1 e)) (some [], s)

/-- Several runs read, in order. -/
def State.attReads (s : State) (c x : Nat) (snap : Option Snap) (l : List (Nat × Nat)) : Option (List (List Byte)) × State :=
  l.foldl (fun acc r => match acc.1 with
    | none => acc
    | some o =>
      let q := acc.2.attRead c x snap r.1 r.2
      (q.1.map fun b => o ++ [b], q.2)) (some [], s)

/-- Bytes written; false where it failed. -/
def State.attWrite (s : State) (c x : Nat) (snap : Option Snap) (va : Nat) (l : List Byte) : Bool × State :=
  (vaPieces va l.length).foldl (fun acc p =>
    if acc.1 then
      let q := acc.2.attGa c x snap p.1 p.2 .write
      let d := (l.drop (p.1 - va)).take p.2
      match q.1 with
      | none => (false, q.2)
      | some ga => match q.2.localOf ga with
        | none => q.2.farWrite (.attention c x) c x ga d
        | some a =>
          let w := q.2.memWrite (.attention c x) a d
          match w.1 with
          | none => (true, w.2)
          | some e => (false, w.2.attMemFail c x p.1 e)
    else acc) (true, s)

/-- Several runs written, in order. -/
def State.attWrites (s : State) (c x : Nat) (snap : Option Snap) (l : List (Nat × List Byte)) : Bool × State :=
  l.foldl (fun acc r => if acc.1 then acc.2.attWrite c x snap r.1 r.2 else acc) (true, s)

/-! ## PAGE_WALK (R248, R255) -/

/-- The snapshot through which an attention sequencer's access reaches an address: that of the running step's run whose region holds it. -/
def State.snapAt (s : State) (r : Requester) (c va : Nat) : Option Snap :=
  match r, s.ownerOf c with
  | .attention _ _, some p => ((s.step_ p).runs.find? fun q => q.region == va / 2 ^ 36).map fun q => ⟨q.root * 2 ^ 14, q.seq, q.gen⟩
  | _, _ => none

/-- The report of a walk to its requester: a Mover channel or the attention sequencer suspends under its own rule, every other unit's task is
aborted (R255). -/
def State.walkReport (s : State) (r : Requester) (c x va : Nat) (right : Right) (snap : Option Snap) (q : XRes) : State :=
  match r with
  | .mover _ n _ => s.movMiss c n x ((s.chan c n).queue.headD 0) (if right = .read then 0 else 1) va q
  | .attention _ _ => s.attFail c x va snap q
  | _ => s.xlAbort r c x va q

/-- Whether a context is in use.
LOG 52 (DESIGN CHOICE). -/
def State.ctxLive (s : State) (c x : Nat) : Bool := decide (c < s.nClusters) && decide (x < 5) && s.ctxState c x != 0

/-- PAGE_WALK: the walk for an address of an elastic context, its result installed or reported. -/
def execPageWalk (r : Requester) (c x va : Nat) (right : Right) (s : State) : Host.Outcome State Fault Refusal :=
  .next <|
    if s.ctxLive c x && decide (x < 4) && decide (va < 2 ^ 47) then
      let q := s.walk r c x va right (s.snapAt r c va)
      q.2.walkReport r c x va right (s.snapAt r c va) q.1
    else s

end Sys2Proof.Machine
end

