-- ==== Sys2Proof/Machine/TilerPlan.lean ====
section
/-! DEFINITION. Plans of array operators (R166–R169, R173–R184, R187–R198): descriptor fields and checks, blocks, loop order, slots, work
items, and the steps of a work item. -/

namespace Sys2Proof.Machine

/-! ## Descriptor fields -/

/-- A tensor address field and its 16-byte stride: 6-byte address at o, 2-byte stride after it. -/
def addrAt (l : List Byte) (o : Nat) : Nat := fieldAt l o 6
/-- A 2-byte stride field. -/
def strAt (l : List Byte) (o : Nat) : Nat := fieldAt l (o + 6) 2

/-- The chain steps of a descriptor (R104). -/
def descChain (l : List Byte) : List Nat := (List.range 4).map fun k => fieldAt l (0x60 + 4 * k) 4

/-- Whether a descriptor has a chain. -/
def hasChain (l : List Byte) : Bool := bits (fieldAt l 0x60 4) 5 0 != 0

/-- The bits of an element stored to OUT (R168). -/
def outBits (l : List Byte) (outFmt : Nat) : Nat :=
  match (chainSteps (descChain l)).getLast? with
  | some (_, w) => if bits w 5 0 = 9 ∨ bits w 5 0 = 10 then 8 else fmtBits outFmt
  | none => fmtBits outFmt

/-- Output size of an axis (R191). -/
def convOut (n lo hi dil k stride : Nat) : Int := ((n : Int) + lo + hi - dil * (k - 1) - 1) / (stride : Nat) + 1

/-- OUT_H and OUT_W of a convolution-layout descriptor. -/
def outH (l : List Byte) : Int :=
  if fieldAt l 0 1 = 0x15 then (fieldAt l 0x20 2 : Nat)
  else convOut (fieldAt l 0x18 2) (fieldAt l 0x28 1) (fieldAt l 0x29 1) (fieldAt l 0x24 1) (fieldAt l 0x20 1) (fieldAt l 0x22 1)
/-- OUT_W. -/
def outW (l : List Byte) : Int :=
  if fieldAt l 0 1 = 0x15 then (fieldAt l 0x22 2 : Nat)
  else convOut (fieldAt l 0x1A 2) (fieldAt l 0x2A 1) (fieldAt l 0x2B 1) (fieldAt l 0x25 1) (fieldAt l 0x21 1) (fieldAt l 0x23 1)

/-! ## Checks -/

/-- The checks of an arithmetic word and its chain (R52–R54, R104). -/
def arithOk (l : List Byte) : Bool :=
  let w := parseArith (fieldAt l 8 8)
  arithFieldsOk (fieldAt l 8 8) && (pairRate w).isSome && w.cin != 3 && chainOk w.outFmt (descChain l)

/-- The last byte a strided tensor reaches lies in range. -/
def reachOk (addr : Nat) (dims : List (Nat × Nat)) (run : Nat) : Bool :=
  inVa (addr + (dims.map fun d => (d.1 - 1) * d.2).foldl (· + ·) 0) run

/-- A power of two. -/
def isPow2 (n : Nat) : Bool := n != 0 && n &&& (n - 1) == 0

/-- The chunk length kc (R173). -/
def chunkLen (w : ArithWord) : Nat := kOfSteps w 256

/-- The checks of a matrix descriptor (R169, R538). -/
def matrixOk (l : List Byte) : Bool :=
  let w := parseArith (fieldAt l 8 8)
  let c := fieldAt l 0 4
  let m := fieldAt l 0x10 4; let n := fieldAt l 0x14 4; let k := fieldAt l 0x18 4; let bt := fieldAt l 0x1C 2
  let split := fieldAt l 0x1F 1
  let eA := fmtBits w.aFmt; let eB := fmtBits w.bFmt; let eO := outBits l w.outFmt
  let q := ceilDiv k 32
  let unscaled := fun (f : Nat) (bs : Bool) => !bs && [0x3, 0x4, 0x5, 0x6, 0x7, 0x8].contains f
  arithOk l && bits c 15 14 == 0 && bits c 31 24 == 0 && bits c 11 10 != 3 &&
  m != 0 && n != 0 && k != 0 && bt != 0 && decide (1 ≤ fieldAt l 0x1E 1) && decide (fieldAt l 0x1E 1 ≤ 8) &&
  isPow2 split && decide (split ≤ ceilDiv k (chunkLen w)) && (split == 1 || w.cin == 0) &&
  decide (m * eA ≤ 128 * strAt l 0x20) && decide (n * eB ≤ 128 * strAt l 0x28) && decide (n * eO ≤ 128 * strAt l 0x38) &&
  (!bit c 8 || unscaled w.aFmt w.aBs) && (!bit c 9 || unscaled w.bFmt w.bBs) &&
  ([0x20, 0x28, 0x30, 0x38].all fun o => addrAt l o % 16 == 0) &&
  reachOk (addrAt l 0x20) [(bt, 256 * fieldAt l 0x50 4), (k, 16 * strAt l 0x20)] (ceilDiv (m * eA) 8) &&
  reachOk (addrAt l 0x28) [(bt, 256 * fieldAt l 0x54 4), (k, 16 * strAt l 0x28)] (ceilDiv (n * eB) 8) &&
  reachOk (addrAt l 0x38) [(bt, 256 * fieldAt l 0x5C 4), (m, 16 * strAt l 0x38)] (ceilDiv (n * eO) 8) &&
  (w.cin != 1 || reachOk (addrAt l 0x30) [(bt, 256 * fieldAt l 0x58 4)] (4 * n)) &&
  (w.cin != 2 || reachOk (addrAt l 0x30) [(bt, 256 * fieldAt l 0x58 4), (m, 16 * strAt l 0x30)] (4 * n)) &&
  (!w.aBs || reachOk (addrAt l 0x40) [(bt * q, strAt l 0x40)] m) && (!w.bBs || reachOk (addrAt l 0x48) [(bt * q, strAt l 0x48)] n) &&
  (!bit c 8 || reachOk (addrAt l 0x40) [(bt * k, strAt l 0x40)] (ceilDiv m 32)) &&
  (!bit c 9 || reachOk (addrAt l 0x48) [(bt * k, strAt l 0x48)] (ceilDiv n 32))

/-- The checks shared by every convolution-layout descriptor (R194, R538).
LOG 43 (DESIGN CHOICE). -/
def convBaseOk (l : List Byte) (inFmt outFmt : Nat) : Bool :=
  let c := fieldAt l 0 4
  let op := fieldAt l 0 1
  let cin := fieldAt l 0x1C 2; let cout := fieldAt l 0x1E 2; let bt := fieldAt l 0x26 2
  let within := fun (v lo hi : Nat) => decide (lo ≤ v) && decide (v ≤ hi)
  let eX := fmtBits inFmt; let eO := outBits l outFmt
  bits c 23 17 == 0 && bits c 9 8 != 3 && bits c 14 13 != 3 && (op == 0x14 || !bit c 12) && (op == 0x15 || bits c 14 13 == 0) &&
  decide (1 ≤ fieldAt l 0x18 2) && decide (1 ≤ fieldAt l 0x1A 2) && decide (1 ≤ cin) && decide (1 ≤ cout) && decide (1 ≤ bt) &&
  within (fieldAt l 0x2E 1) 1 8 && fieldAt l 0x2F 1 == 0 &&
  (if op = 0x15 then fieldAt l 0x24 2 == 0
   else ([0x20, 0x21, 0x22, 0x23, 0x24, 0x25].all fun o => within (fieldAt l o 1) 1 32)) &&
  decide (0 < outH l) && decide (0 < outW l) && fieldAt l 0x2C 2 / 2 ^ (min 16 eX) == 0 &&
  decide (cin * eX ≤ 128 * strAt l 0x30) && decide (cout * eO ≤ 128 * strAt l 0x40) &&
  ([0x30, 0x38, 0x10, 0x40].all fun o => addrAt l o % 16 == 0) &&
  reachOk (addrAt l 0x30) [(bt, 256 * fieldAt l 0x58 4), (fieldAt l 0x18 2 * fieldAt l 0x1A 2, 16 * strAt l 0x30)] (ceilDiv (cin * eX) 8) &&
  reachOk (addrAt l 0x40) [(bt, 256 * fieldAt l 0x5C 4), ((outH l * outW l).toNat, 16 * strAt l 0x40)] (ceilDiv (cout * eO) 8)

/-- GROUPS in range and dividing both channel counts. -/
def groupsOk (l : List Byte) : Bool :=
  let g := fieldAt l 0x16 2
  g != 0 && decide (g ≤ fieldAt l 0x1C 2) && fieldAt l 0x1C 2 % g == 0 && fieldAt l 0x1E 2 % g == 0

/-- The checks of CONV2D, DWCONV2D and GROUPCONV2D (R194).
LOG 169 (DESIGN CHOICE). -/
def convOk (l : List Byte) : Bool :=
  let w := parseArith (fieldAt l 8 8)
  let c := fieldAt l 0 4
  let op := fieldAt l 0 1
  let g := fieldAt l 0x16 2
  let cgo := fieldAt l 0x1E 2 / g
  let kred := fieldAt l 0x20 1 * fieldAt l 0x21 1 * (fieldAt l 0x1C 2 / g)
  let isFloat := fun (f : Nat) => [0x3, 0x4, 0x5, 0x6, 0x7, 0x8].contains f
  arithOk l && convBaseOk l w.aFmt w.outFmt && groupsOk l && (op != 0x11 || g == fieldAt l 0x1C 2) &&
  (op == 0x10 || [1, 2, 4, 8, 16].contains cgo || cgo % 32 == 0) && !w.aBs && decide (w.cin < 2) &&
  (!bit c 10 || isFloat w.aFmt) && (!bit c 11 || (isFloat w.bFmt && !w.bBs)) &&
  reachOk (addrAt l 0x38) [(kred, 16 * strAt l 0x38)] (ceilDiv (fieldAt l 0x1E 2 * fmtBits w.bFmt) 8) &&
  (w.cin != 1 || inVa (addrAt l 0x10) (4 * fieldAt l 0x1E 2)) &&
  (!w.bBs || reachOk (addrAt l 0x48) [(ceilDiv kred 32, strAt l 0x48)] (fieldAt l 0x1E 2)) &&
  (!bit c 11 || reachOk (addrAt l 0x48) [(kred, strAt l 0x48)] (ceilDiv (fieldAt l 0x1E 2) 32)) &&
  (!bit c 10 || reachOk (addrAt l 0x50) [(fieldAt l 0x26 2 * fieldAt l 0x18 2 * fieldAt l 0x1A 2, strAt l 0x50)] (ceilDiv (fieldAt l 0x1C 2) 32))

/-- Whether the descriptor of an array operator is accepted. -/
def arrayOpOk (l : List Byte) : Bool := if fieldAt l 0 1 = 0x01 then matrixOk l else convOk l

/-! ## The plan (R173, R174, R180, R183) -/

/-- What the tiler fixes for an array operator. -/
structure Plan where
  conv : Bool
  diag : Bool
  w : ArithWord
  w1 : Nat
  /-- Rows, columns of one group, reduction, problems, groups of columns. -/
  m : Nat
  n : Nat
  k : Nat
  batch : Nat
  groups : Nat
  /-- Rows and columns of one batch element before folding (R180). -/
  mPer : Nat
  nPer : Nat
  t : Nat
  wop : Nat
  kc : Nat
  c : Nat
  /-- The loop order, and the one before a fallback, which numbers the blocks (R177). -/
  order : Nat
  order0 : Nat
  sA : Nat
  sa : Nat
  sB : Nat
  sb : Nat
  d : Nat
  split : Nat
  morton : Bool
  dist : Bool
  wctr : Nat
  fits : Bool
  /-- First slots: B, A, bounds, drain staging, spill area. -/
  bAt : Nat
  aAt : Nat
  boundsAt : Nat
  drainAt : Nat
  spillAt : Nat
  /-- Bits of a stored output element. -/
  eo : Nat
  /-- Tiles the context owns in the fallback order, 0 before it. -/
  own : Nat
  deriving DecidableEq, Repr

/-- The slots that a convolution's staged runs of one chunk of one tile need at most: every element once, a run of 4-bit elements in whole
bytes (R199). -/
def stageSlots (w : ArithWord) (sA : Nat) : Nat := if fmtBits w.aFmt = 4 then 2 * sA else sA

/-- work(t) of R174, with a convolution's staged runs (R199). -/
def workSlots (sA sa sB sb d t staged : Nat) : Nat := 2 * t * (sA + sa) + 2 * 8 * (sB + sb) + 8 * t + 2 * 8 * d + staged * t
/-- resident(t) of R174. -/
def residentSlots (c sA sa sB sb d t staged : Nat) : Nat := 2 * t * (sA + sa) + c * 8 * (sB + sb) + 8 * t + 2 * 8 * d + staged * t

/-- T halved until the panel-stream working set fits. -/
def fitT (cost : Nat → Nat) (s : Nat) : Nat → Nat → Nat
  | 0, t => t
  | f + 1, t => if s < cost t ∧ 1 < t then fitT cost s f (t / 2) else t

/-- The operator width (R173). -/
def State.opWidth (s : State) (c x : Nat) (dist : Bool) : Nat :=
  if x = 4 then (match (s.ownerOf c).bind s.prog with
    | some g => g.timedWidth
    | none => 32)
  else if dist then s.fld (clReg c 0x80C) 5 0
  else s.fld (clReg c 0x100) 5 0

/-- The plan of an array operator from its checked descriptor; `own` is T_own in the fallback order.
LOG 39 (DESIGN CHOICE). -/
def mkPlan (l : List Byte) (wopOf : Bool → Nat) (arena : Nat × Nat) (own : Nat) : Plan :=
  let w := parseArith (fieldAt l 8 8)
  let c := fieldAt l 0 4
  let conv := decide (fieldAt l 0 1 ≠ 0x01)
  let diag := conv && isDiag l
  let dist := if conv then bit c 16 else bit c 13
  let g := max 1 (fieldAt l 0x16 2)
  let bt := if conv then fieldAt l 0x26 2 else fieldAt l 0x1C 2
  let mPer := if conv then (outH l * outW l).toNat else fieldAt l 0x10 4
  let nPer := if conv then (if diag then fieldAt l 0x1E 2 else fieldAt l 0x1E 2 / g) else fieldAt l 0x14 4
  let eA := fmtBits w.aFmt; let eB := fmtBits w.bFmt; let eo := outBits l w.outFmt
  let foldM := !conv && decide (1 < bt) && fieldAt l 0x54 4 == 0 && mPer % 32 == 0 && 2048 * fieldAt l 0x50 4 == mPer * eA &&
    256 * fieldAt l 0x5C 4 == 16 * mPer * strAt l 0x38
  let foldN := !conv && !foldM && decide (1 < bt) && fieldAt l 0x50 4 == 0 && nPer % 32 == 0 && 2048 * fieldAt l 0x54 4 == nPer * eB &&
    2048 * fieldAt l 0x5C 4 == nPer * eo
  let m := if foldM then mPer * bt else mPer
  let n := if foldN then nPer * bt else nPer
  let batch := if foldM || foldN then 1 else bt
  let cgi := fieldAt l 0x1C 2 / g
  let cgo := fieldAt l 0x1E 2 / g
  let k := if !conv then fieldAt l 0x18 4
    else if diag then fieldAt l 0x20 1 * fieldAt l 0x21 1 * (ceilDiv (min 16 (fieldAt l 0x1E 2)) cgo * cgi)
    else fieldAt l 0x20 1 * fieldAt l 0x21 1 * cgi
  let kc := chunkLen w
  let chunks := ceilDiv k kc
  let sA := aSlots w 256
  let sB := bSlots w
  let wide := if kc = 512 then 2 else 1
  let sa := if w.aBs then wide else 0
  let sb := if w.bBs then wide else 0
  let d := drainSlots eo
  let staged := if conv then stageSlots w sA else 0
  let tiles := if conv then fieldAt l 0x2E 1 else fieldAt l 0x1E 1
  let t0 := min tiles (ceilDiv m 32)
  let cost := fun t => workSlots sA sa sB sb d t staged
  let t := fitT cost arena.2 4 t0
  let want := if conv then 0 else bits c 11 10
  let order0 := if diag = true ∨ want = 1 then 1 else if residentSlots chunks sA sa sB sb d t staged ≤ arena.2 then 2 else 1
  let order := if own ≠ 0 then 1 else order0
  let ta := if own = 0 then t else min t own
  let bN := if order = 2 then chunks * 8 * (sB + sb) else 2 * 8 * (sB + sb)
  let bAt := arena.1
  let aAt := bAt + bN
  let boundsAt := aAt + 2 * ta * (sA + sa) + staged * ta
  let drainAt := boundsAt + 8 * ta
  let spillAt := drainAt + 16 * d
  { conv := conv, diag := diag, w := w, w1 := fieldAt l 8 8, m := m, n := n, k := k, batch := batch, groups := if conv && !diag then g else 1,
    mPer := mPer, nPer := nPer, t := t, wop := if diag then 16 else wopOf dist, kc := kc, c := chunks, order := order, order0 := order0, sA := sA, sa := sa,
    sB := sB, sb := sb, d := d, split := if conv then 1 else fieldAt l 0x1F 1, morton := (if conv then bit c 15 else bit c 12) && !diag, dist := dist,
    wctr := if conv then bits c 31 24 else bits c 23 16,
    fits := decide (cost ta + (if own = 0 then 0 else 328 * t) ≤ arena.2), bAt := bAt, aAt := aAt, boundsAt := boundsAt, drainAt := drainAt,
    spillAt := spillAt, eo := eo, own := own }

/-- The plan of the operator in hand of context x. -/
def State.plan (s : State) (c x : Nat) : Plan := mkPlan (s.til c x).desc (s.opWidth c x) (s.arena c x) (s.til c x).own

/-! ## Blocks and work items (R177, R181, R197) -/

/-- Rows of blocks. -/
def Plan.gm (p : Plan) : Nat := ceilDiv p.m (32 * p.t)
/-- Columns of blocks of one group. -/
def Plan.gnGroup (p : Plan) : Nat := if p.diag then ceilDiv p.n 16 else ceilDiv p.n (8 * p.wop)
/-- Columns of blocks. -/
def Plan.gn (p : Plan) : Nat := p.groups * p.gnGroup

/-- ⌈log₂ n⌉. -/
def clog2 (n : Nat) : Nat := if n ≤ 1 then 0 else Nat.log2 (n - 1) + 1

/-- Block of a Morton index (R177). -/
def mortonBlock (t a b : Nat) : Nat × Nat :=
  let lo := min a b
  let pick := fun (o : Nat) => ((List.range lo).map fun u => b2n (bit t (2 * u + o)) * 2 ^ u).foldl (· + ·) 0
  let rest := ((List.range (max a b - lo)).map fun u => b2n (bit t (2 * lo + u)) * 2 ^ (lo + u)).foldl (· + ·) 0
  (pick 1 + (if b > a then 0 else rest), pick 0 + (if b > a then rest else 0))

/-- The indices of one batch element. -/
def Plan.perBatch (p : Plan) : Nat := if p.morton && p.order0 != 2 then 2 ^ (clog2 p.gm + clog2 p.gn) else p.gm * p.gn

/-- The block (bm, bn) of an index within a batch element, if it lies inside the grid. -/
def Plan.blockOf (p : Plan) (i : Nat) : Option (Nat × Nat) :=
  if p.diag || p.order0 == 2 then some (i % p.gm, i / p.gm)
  else if p.morton then
    let b := mortonBlock i (clog2 p.gm) (clog2 p.gn)
    if b.1 < p.gm ∧ b.2 < p.gn then some b else none
  else some (i / p.gn, i % p.gn)

/-- A work item: batch element, block, its kind (0 whole, 1 a segment, 2 a merge), segment, block number g. -/
structure Item where
  b : Nat
  bm : Nat
  bn : Nat
  kind : Nat
  seg : Nat
  g : Nat
  deriving DecidableEq, Repr

/-- The number of blocks inside the grid over all batch elements. -/
def Plan.blocks (p : Plan) : Nat := p.gm * p.gn * p.batch

/-- The work items of an operator. -/
def Plan.total (p : Plan) : Nat := if p.split = 1 then p.perBatch * p.batch else p.blocks * p.split + p.blocks

/-- The g-th block inside the grid of a batch element. -/
def Plan.blockNo (p : Plan) (g : Nat) : Option (Nat × Nat) :=
  if p.morton && p.order0 != 2 then ((List.range p.perBatch).filterMap p.blockOf)[g]? else p.blockOf g

/-- The work item of an index; none where it maps outside the grid. -/
def Plan.item (p : Plan) (i : Nat) : Option Item :=
  if p.split = 1 then (p.blockOf (i % p.perBatch)).map fun q => { b := i / p.perBatch, bm := q.1, bn := q.2, kind := 0, seg := 0, g := 0 }
  else
    let gs := p.blocks * p.split
    let g := if i < gs then i / p.split else i - gs
    let per := p.gm * p.gn
    (p.blockNo (g % per)).map fun q => { b := g / per, bm := q.1, bn := q.2, kind := if i < gs then 1 else 2, seg := if i < gs then i % p.split else 0, g := g }

/-- The virtual address of a partial-sum image (R181). -/
def Plan.imageVa (p : Plan) (l : List Byte) (g seg a t : Nat) : Nat :=
  addrAt l 0x30 + 256 * ceilDiv (8 * p.blocks) 256 + 10496 * ((g * p.split + seg) * 8 * p.t + a * p.t + t)

/-- Whether the partial-sum area lies in the 47-bit range (R538). -/
def Plan.areaOk (p : Plan) (l : List Byte) : Bool := p.split == 1 || inVa (p.imageVa l p.blocks 0 0 0) 0

/-! ## Places of a work item -/

/-- First row of row tile t. -/
def Plan.row0 (p : Plan) (it : Item) (t : Nat) : Nat := 32 * (it.bm * p.t + t)
/-- Rows of row tile t that lie below M. -/
def Plan.rows (p : Plan) (it : Item) (t : Nat) : Nat := min 32 (p.m - p.row0 it t)
/-- Group of the item's columns. -/
def Plan.group (p : Plan) (it : Item) : Nat := it.bn / p.gnGroup
/-- First column of array a within the group. -/
def Plan.col0 (p : Plan) (it : Item) (a : Nat) : Nat := if p.diag then it.bn * 16 else (it.bn % p.gnGroup * 8 + a) * p.wop
/-- Columns of array a that lie below N. -/
def Plan.cols (p : Plan) (it : Item) (a : Nat) : Nat := min p.wop (p.n - p.col0 it a)
/-- First column of array a in the whole output. -/
def Plan.outCol (p : Plan) (it : Item) (a : Nat) : Nat := p.group it * p.n + p.col0 it a

/-- The k values of chunk c. -/
def Plan.chunkK (p : Plan) (c : Nat) : Nat := min p.kc (p.k - c * p.kc)
/-- The K-steps of chunk c. -/
def Plan.steps (p : Plan) (c : Nat) : Nat :=
  match pairRate p.w with
  | some (r, _) => ceilDiv (p.chunkK c * 4) r
  | none => p.chunkK c

/-- A slot of the A buffer of chunk parity q, tile t of `ta`. -/
def Plan.aSlot (p : Plan) (ta q t : Nat) : Nat := p.aAt + (q % 2 * ta + t) * (p.sA + p.sa)
/-- The B slot of chunk c of array a. -/
def Plan.bSlot (p : Plan) (c a : Nat) : Nat := p.bAt + ((if p.order = 2 then c else c % 2) * 8 + a) * (p.sB + p.sb)
/-- The bounds slot of tile t of array a. -/
def Plan.boundsSlot (p : Plan) (ta a t : Nat) : Nat := p.boundsAt + a * ta + t
/-- The drain staging slot of tile t of array a. -/
def Plan.drainSlot (p : Plan) (a t : Nat) : Nat := p.drainAt + (2 * a + t % 2) * p.d

/-- The arrays of an item: all eight, or the one that an item of the diagonal mapping runs on (R197): of the i-th item of a cluster array
i mod 8, in the elastic class with DIST set the lowest-numbered array without an item; the tiler holds one item at a time, so that is 0.
LOG 150 (DEDUCED). -/
def Plan.arrays (p : Plan) (x i : Nat) : List Nat := if p.diag then [if p.dist && x != 4 then 0 else i % 8] else List.range 8

/-- Runs of consecutive indices that lie in one batch element: (offset, count, element, local index). -/
def segs (i0 n per : Nat) : List (Nat × Nat × Nat × Nat) :=
  if n = 0 ∨ per = 0 then []
  else (List.range ((i0 + n - 1) / per + 1 - i0 / per)).map fun u =>
    let lo := max i0 ((i0 / per + u) * per)
    let hi := min (i0 + n) ((i0 / per + u + 1) * per)
    (lo - i0, hi - lo, lo / per, lo % per)

/-! ## Mover descriptors and instructions -/

/-- A stride as its s24 field and shift. -/
def encStride (v : Nat) : Nat × Nat :=
  if v < 2 ^ 23 then (v, 0) else if v < 2 ^ 27 then (v / 16, 1) else if v < 2 ^ 31 then (v / 256, 2) else (v / 4096 % 2 ^ 24, 3)

/-- A transfer of at most three dimensions: operation, modes, addresses, run, counts with source and destination strides, element format
and first census slot. -/
structure Xfer where
  op : Nat
  srcTag : Bool
  srcLoc : Bool
  dstLoc : Bool
  src : Nat
  dst : Nat
  run : Nat
  dims : List (Nat × Nat × Nat)
  elem : Nat := 1
  cslot : Nat := 0
  dstTag : Bool := false
  deriving DecidableEq, Repr

/-- The 64 bytes of a transfer's descriptor, as a number. -/
def Xfer.desc (t : Xfer) : Nat :=
  let g := fun i => t.dims.getD i (1, 0, 0)
  let ctrl := t.op + (if t.srcTag then 4 else 0) + 16 * b2n t.dstTag + 32 * b2n t.srcLoc + 64 * b2n t.dstLoc + 0x400 * t.elem
  let cnt := ((List.range 3).map fun i => ((g i).1 - 1) % 4096 * 2 ^ (12 * i)).foldl (· + ·) 0
  let sh := ((List.range 3).map fun i => (encStride (g i).2.1).2 * 4 ^ i + (encStride (g i).2.2).2 * 4 ^ (4 + i)).foldl (· + ·) 0
  let str := fun (f : Nat × Nat × Nat → Nat) => (List.range 4).flatMap fun i => leBytes 3 (if i < 3 then (encStride (f (g i))).1 else 0)
  leNat (leBytes 4 ctrl ++ leBytes 2 0xFFFF ++ leBytes 2 0 ++ leBytes 6 t.src ++ leBytes 2 (t.run % 65536) ++ leBytes 6 t.dst ++ leBytes 2 t.cslot ++
    leBytes 6 cnt ++ leBytes 2 sh ++ str (fun d => d.2.1) ++ str (fun d => d.2.2) ++ leBytes 8 0)

/-- A count above 4,096 as two dimensions of a strided transfer. -/
def splitDim (n src dst : Nat) : List (Nat × Nat × Nat) :=
  if n ≤ 4096 then [(n, src, dst)] else [(4096, src, dst), (ceilDiv n 4096, 4096 * src, 4096 * dst)]

/-- Slots filled with zeros. -/
def fillSlots (slot n : Nat) : Work :=
  .mov (Xfer.desc { op := 1, srcTag := false, srcLoc := false, dstLoc := true, src := 0, dst := slot * 256, run := 256, dims := splitDim n 0 256 })

/-- Rows copied from memory to a scratchpad offset. -/
def copyIn (src dst run rows srcStr dstStr : Nat) : Work :=
  .mov (Xfer.desc { op := 0, srcTag := false, srcLoc := false, dstLoc := true, src := src, dst := dst, run := run, dims := splitDim rows srcStr dstStr })

/-- Rows copied from tagged slots to memory. -/
def copyOut (src dst run rows srcStr dstStr : Nat) : Work :=
  .mov (Xfer.desc { op := 0, srcTag := true, srcLoc := true, dstLoc := false, src := src, dst := dst, run := run, dims := splitDim rows srcStr dstStr })

/-- Word 0 of an array instruction with a logical tile. -/
def instr0 (op tile pslot : Nat) (consume : Bool) (steps aux slot sslot : Nat) : Nat :=
  op + tile % 8 * 2 ^ 4 + pslot % 4 * 2 ^ 7 + b2n consume * 2 ^ 9 + (steps - 1) % 256 * 2 ^ 16 + aux % 256 * 2 ^ 24 + slot % 8192 * 2 ^ 32 + sslot % 8192 * 2 ^ 48

/-! ## Loads of a work item -/

/-- The address of element (row k, first column j) of the A or B tensor of a matrix operator: base, batch stride, row stride. -/
def elemVa (addr bstr str b k bitOff : Nat) : Nat := addr + 256 * b * bstr + 16 * k * str + bitOff / 8

/-! ### Staged input runs (R193, R199) -/

/-- The coordinate that a tap reads on an axis: none where it takes the pad value. -/
def tapCoord (n o stride d dil lo : Nat) (clamp : Bool) : Option Nat :=
  let u : Int := (o * stride + d * dil : Nat) - (lo : Int)
  if 0 ≤ u ∧ u < (n : Int) then some u.toNat
  else if clamp then some (min (n - 1) u.toNat) else none

/-- The input pixel (y, x) that output pixel p reads through a tap; none where it takes the pad value. -/
def tapPixel (l : List Byte) (p tap : Nat) : Option (Nat × Nat) :=
  let ow := max 1 (outW l).toNat
  let kw := max 1 (fieldAt l 0x21 1)
  let clamp := bits (fieldAt l 0 4) 9 8 == 2
  match tapCoord (fieldAt l 0x18 2) (p / ow) (fieldAt l 0x22 1) (tap / kw) (fieldAt l 0x24 1) (fieldAt l 0x28 1) clamp,
      tapCoord (fieldAt l 0x1A 2) (p % ow) (fieldAt l 0x23 1) (tap % kw) (fieldAt l 0x25 1) (fieldAt l 0x2A 1) clamp with
  | some y, some q => some (y, q)
  | _, _ => none

/-- The channels that one tap contributes to each k of an item: their number and the first of them (R195, R196). -/
def Plan.tapChans (p : Plan) (l : List Byte) (it : Item) : Nat × Nat :=
  let g := max 1 (fieldAt l 0x16 2)
  let cgi := fieldAt l 0x1C 2 / g
  let cgo := max 1 (fieldAt l 0x1E 2 / g)
  if p.diag then (p.cols it 0 / cgo * cgi, p.col0 it 0 / cgo * cgi) else (cgi, p.group it * cgi)

/-- The plan of an item: in the diagonal mapping the reduction is that of the item's own column tile (R196). -/
def Plan.forItem (p : Plan) (l : List Byte) (it : Item) : Plan :=
  if p.diag then
    let k := fieldAt l 0x20 1 * fieldAt l 0x21 1 * (p.tapChans l it).1
    { p with k := k, c := ceilDiv k p.kc }
  else p

/-- The parts of a k range that lie in one tap: (tap, first channel within the tap, count). -/
def tapParts (k0 n per : Nat) : List (Nat × Nat × Nat) := (segs k0 n per).map fun g => (g.2.2.1, g.2.2.2, g.2.1)

/-- A run of input channels of one pixel: the first channel of the tensor, their number, the pixel. -/
structure PixRun where
  ch : Nat
  n : Nat
  y : Nat
  x : Nat
  deriving DecidableEq, Repr

/-- The nibble of its first byte in which a run begins. -/
def PixRun.skip (r : PixRun) (e : Nat) : Nat := r.ch * e % 8 / e
/-- The bytes of a run. -/
def PixRun.len (r : PixRun) (e : Nat) : Nat := ceilDiv ((r.n + r.skip e) * e) 8

/-- The run that row tile row `row` reads through a part of a tap; none for pad values and rows past the last. -/
def Plan.runOf (p : Plan) (l : List Byte) (it : Item) (row : Nat) (q : Nat × Nat × Nat) : Option PixRun :=
  if p.m ≤ row then none
  else (tapPixel l row q.1).map fun y => { ch := (p.tapChans l it).2 + q.2.1, n := q.2.2, y := y.1, x := y.2 }

/-- The runs that chunk c of row tile t needs, each once, in order. -/
def Plan.stageRuns (p : Plan) (l : List Byte) (it : Item) (t c : Nat) : List PixRun :=
  ((tapParts (c * p.kc) (p.chunkK c) (p.tapChans l it).1).flatMap fun q => (List.range 32).filterMap fun i => p.runOf l it (p.row0 it t + i) q).eraseDups

/-- The first slot for the staged runs of tile place u of `ta`, and how many there are. -/
def Plan.stageAt (p : Plan) (ta u : Nat) : Nat × Nat :=
  let n := stageSlots p.w p.sA
  (p.aAt + 2 * ta * (p.sA + p.sa) + u * n, n)

/-- Runs with the bytes before each. -/
def runOffsets (e : Nat) : Nat → List PixRun → List (PixRun × Nat)
  | _, [] => []
  | o, r :: q => (r, o) :: runOffsets e (o + r.len e) q

/-- Runs of neighbouring pixels of one row of the image and the same channels, in one transfer: the first, its place, their number. -/
def joinRuns (l : List (PixRun × Nat)) : List (PixRun × Nat × Nat) :=
  (l.foldl (fun acc r => match acc with
    | (f, o, n) :: q => if r.1 = { f with x := f.x + n } then (f, o, n + 1) :: q else (r.1, r.2, 1) :: acc
    | [] => [(r.1, r.2, 1)]) []).reverse

/-- The Mover transfers that stage the runs of chunk c of row tile t, place u. -/
def Plan.stageLoads (p : Plan) (l : List Byte) (it : Item) (ta c t u : Nat) : List Work :=
  let e := fmtBits p.w.aFmt
  (joinRuns (runOffsets e 0 (p.stageRuns l it t c))).map fun r =>
    copyIn (addrAt l 0x30 + 256 * it.b * fieldAt l 0x58 4 + 16 * (r.1.y * fieldAt l 0x1A 2 + r.1.x) * strAt l 0x30 + r.1.ch * e / 8)
      ((p.stageAt ta u).1 * 256 + r.2.1) (r.1.len e) r.2.2 (16 * strAt l 0x30) (r.1.len e)

/-- The loads of A chunk c of tile t into its buffer (R168, R176, R199): of a convolution its input runs are staged, WINDOW builds the chunk
from them, and they are freed.
LOG 39 (DESIGN CHOICE). -/
def Plan.loadA (p : Plan) (l : List Byte) (it : Item) (ta c t u : Nat) : List Work :=
  let e := fmtBits p.w.aFmt
  let slot := p.aSlot ta c u
  let mv := p.rows it t
  let kv := p.chunkK c
  let r0 := p.row0 it t
  let n := aSlots p.w (p.steps c)
  let fill := if mv < 32 ∨ kv * e * 32 % 2048 ≠ 0 then [fillSlots slot (p.sA + p.sa)] else []
  if p.conv then p.stageLoads l it ta c t u ++ [.ready (p.stageAt ta u).1 (p.stageAt ta u).2, .window slot t c, .empty (p.stageAt ta u).1 (p.stageAt ta u).2]
  else if mv = 0 then fill
  else
    let odd := e == 4 && mv % 2 == 1
    let fill := if odd then (if p.sa = 0 then [] else [fillSlots (slot + n) p.sa]) else fill
    let data := if odd then .nibbles false slot t c else copyIn (elemVa (addrAt l 0x20) (fieldAt l 0x50 4) (strAt l 0x20) it.b (c * p.kc) (r0 * e)) (slot * 256) (ceilDiv (mv * e) 8) kv (16 * strAt l 0x20) (4 * e)
    let q := ceilDiv p.k 32
    let scales := if p.w.aBs then (segs r0 mv p.mPer).map fun g =>
        copyIn (addrAt l 0x40 + ((it.b + g.2.2.1) * q + c * p.kc / 32) * strAt l 0x40 + g.2.2.2) ((slot + n) * 256 + g.1) g.2.1 (ceilDiv kv 32) (strAt l 0x40) 32
      else []
    fill ++ data :: scales

/-- The first slot of the A scales of chunk c of a buffer. -/
def Plan.aScaleSlot (p : Plan) (slot c : Nat) : Nat := slot + aSlots p.w (p.steps c)

/-- The loads of B chunk c of array a (R168, R176, R188).
LOG 19, 39 (DESIGN CHOICE). -/
def Plan.loadB (p : Plan) (l : List Byte) (it : Item) (c a part : Nat) : List Work :=
  let e := fmtBits p.w.bFmt
  let slot := p.bSlot c a
  if p.diag then [.diagB slot c part]
  else
    let nv := p.cols it a
    let kv := p.chunkK c
    let col := p.outCol it a
    let odd := e == 4 && nv != 0 && (nv % 2 == 1 || col % 2 == 1)
    let fill := if odd then (if p.sb = 0 then [] else [fillSlots (slot + p.sB) p.sb]) else if nv < 32 ∨ kv < p.kc then [fillSlots slot (p.sB + p.sb)] else []
    let base := if p.conv then addrAt l 0x38 + 16 * (c * p.kc) * strAt l 0x38 + col * e / 8
      else elemVa (addrAt l 0x28) (fieldAt l 0x54 4) (strAt l 0x28) it.b (c * p.kc) (col * e)
    let str := if p.conv then strAt l 0x38 else strAt l 0x28
    let q := ceilDiv p.k 32
    if nv = 0 then fill
    else
      let data := if odd then .nibbles true slot a c else copyIn base (slot * 256) (ceilDiv (nv * e) 8) kv (16 * str) (4 * e)
      let scales := if !p.w.bBs then []
        else if p.conv then [copyIn (addrAt l 0x48 + c * p.kc / 32 * strAt l 0x48 + col) ((slot + p.sB) * 256) nv (ceilDiv kv 32) (strAt l 0x48) 32]
        else (segs col nv p.nPer).map fun g =>
          copyIn (addrAt l 0x48 + ((it.b + g.2.2.1) * q + c * p.kc / 32) * strAt l 0x48 + g.2.2.2) ((slot + p.sB) * 256 + g.1) g.2.1 (ceilDiv kv 32) (strAt l 0x48) 32
      fill ++ data :: scales

/-- The loads of the C source of tile t of array a into slots from `slot`.
LOG 39 (DESIGN CHOICE). -/
def Plan.loadC (p : Plan) (l : List Byte) (it : Item) (a t slot : Nat) : List Work :=
  let nv := p.cols it a
  let mv := p.rows it t
  let r0 := p.row0 it t
  let rb := r0 / p.mPer
  let col := p.outCol it a
  let base := if p.conv then addrAt l 0x10 else addrAt l 0x30
  let cb := if p.conv then 0 else fieldAt l 0x58 4
  let one := fillSlots slot (cinSlots p.w.cin)
  one :: (if nv = 0 ∨ mv = 0 then []
    else (segs col nv (if p.conv then 2 ^ 32 else p.nPer)).map fun g =>
      let b := it.b + rb + g.2.2.1
      if p.w.cin = 1 then copyIn (base + 256 * b * cb + 4 * g.2.2.2) (slot * 256 + 4 * g.1) (4 * g.2.1) 1 0 0
      else copyIn (base + 256 * b * cb + 16 * (r0 % p.mPer) * strAt l 0x30 + 4 * g.2.2.2) (slot * 256 + 4 * g.1) (4 * g.2.1) mv (16 * strAt l 0x30) 128)

/-! ## The steps of a work item -/

/-- A list in groups of n. -/
def groupsOf {α : Type} (n : Nat) (l : List α) : List (List α) :=
  (List.range (ceilDiv l.length (max n 1))).map fun i => (l.drop (i * max n 1)).take (max n 1)

/-- ANCHOR of tile t of array a, in buffer place u of `ta`, with its C source at a slot. -/
def Plan.anchorOp (p : Plan) (ta a t u cSlot : Nat) : Work :=
  .arr a (instr0 2 t 0 false 1 0 (p.boundsSlot ta a u) cSlot) p.w1

/-! ### Bounds (R56, R57, R172, R198) -/

/-- The place of one operand's elements and of its block bytes. -/
structure OpPlace where
  code : Nat
  scaled : Bool
  stored : Bool
  addr : Nat
  bstr : Nat
  str : Nat
  scAddr : Nat
  scStr : Nat
  /-- The reduction length and the elements of one row of storage. -/
  k : Nat
  total : Nat
  deriving DecidableEq, Repr

/-- The place of operand A or B of a plan; of a convolution A is the input tensor, a row of storage a pixel (R187, R198). -/
def Plan.place (p : Plan) (l : List Byte) (isB : Bool) : OpPlace :=
  let ctrl := fieldAt l 0 4
  let kred := fieldAt l 0x20 1 * fieldAt l 0x21 1 * (fieldAt l 0x1C 2 / max 1 (fieldAt l 0x16 2))
  match p.conv, isB with
  | true, true =>
    { code := p.w.bFmt, scaled := p.w.bBs, stored := bit ctrl 11, addr := addrAt l 0x38, bstr := 0, str := strAt l 0x38, scAddr := addrAt l 0x48,
      scStr := strAt l 0x48, k := kred, total := fieldAt l 0x1E 2 }
  | true, false =>
    { code := p.w.aFmt, scaled := false, stored := bit ctrl 10, addr := addrAt l 0x30, bstr := fieldAt l 0x58 4, str := strAt l 0x30,
      scAddr := addrAt l 0x50, scStr := strAt l 0x50, k := fieldAt l 0x18 2 * fieldAt l 0x1A 2, total := fieldAt l 0x1C 2 }
  | false, true =>
    { code := p.w.bFmt, scaled := p.w.bBs, stored := bit ctrl 9, addr := addrAt l 0x28, bstr := fieldAt l 0x54 4, str := strAt l 0x28,
      scAddr := addrAt l 0x48, scStr := strAt l 0x48, k := p.k, total := p.nPer }
  | false, false =>
    { code := p.w.aFmt, scaled := p.w.aBs, stored := bit ctrl 8, addr := addrAt l 0x20, bstr := fieldAt l 0x50 4, str := strAt l 0x20,
      scAddr := addrAt l 0x40, scStr := strAt l 0x40, k := p.k, total := p.mPer }

/-- The element-bound mode of an operand. -/
def OpPlace.mode (o : OpPlace) : Option Nat := if o.scaled then some (scaleBound o.code) else none

/-- N of R56: the reduction length, and 1 more for a C term. -/
def Plan.terms (p : Plan) (l : List Byte) : Nat := (p.place l true).k + b2n (p.w.cin != 0)

/-- A range cut into pieces of at most n: first and count of each. -/
def cuts (total n : Nat) : List (Nat × Nat) := (List.range (ceilDiv total (max 1 n))).map fun i => (i * max 1 n, min (max 1 n) (total - i * max 1 n))

/-- The census read of a part of an operand (R57): OP CENSUS over its rows and groups, its bytes from slot `at_`. -/
def OpPlace.censusRead (o : OpPlace) (q : BoundsPart) (at_ : Nat) : Work :=
  let e := fmtBits o.code
  let elems := min o.total (32 * (q.g0 + q.ng)) - 32 * q.g0
  let from_ := o.addr + 256 * q.b * o.bstr + 16 * q.k0 * o.str + 4 * q.g0 * e
  .mov (Xfer.desc
    { op := 2, srcTag := false, srcLoc := false, dstLoc := false, src := from_, dst := 0, run := elems * e / 8,
      dims := splitDim q.kn (16 * o.str) 0, elem := o.code, cslot := at_ })

/-- The parts in which BOUNDS reads elements lo to lo + n − 1 of batch element b of an operand into n bounds slots: stored block bytes at
once, a census in pieces that fit `room` slots from slot `at_`, each read by the Mover first. -/
def OpPlace.boundsWork (o : OpPlace) (isB : Bool) (slot cnt b lo n off at_ room : Nat) : List Work :=
  let g0 := lo / 32
  let ng := if n = 0 then 0 else (lo + n - 1) / 32 + 1 - g0
  if n = 0 then []
  else if o.scaled || o.stored then [.boundsPart slot cnt { isB := isB, b := b, lo := lo, n := n, off := off, k0 := 0, kn := o.k, g0 := g0, ng := ng, census := none }]
  else (cuts ng (min (room * 256) (65536 / (4 * fmtBits o.code)))).flatMap fun g => (cuts o.k (min 4096 (room * 256 / max 1 g.2))).flatMap fun k =>
    let q : BoundsPart := { isB := isB, b := b, lo := lo, n := n, off := off, k0 := k.1, kn := k.2, g0 := g0 + g.1, ng := g.2, census := some at_ }
    [o.censusRead q at_, .ready at_ room, .boundsPart slot cnt q, .empty at_ room]

/-- The bounds slots of an item (R56, R172): opened, every part of both operands taken in, closed. The row bound of a convolution is one for
the whole input of the batch element (R198). -/
def Plan.boundsWork (p : Plan) (l : List Byte) (it : Item) (as : List Nat) (ta : Nat) (ts : List (Nat × Nat)) : List Work :=
  let room := 2 * ta * (p.sA + p.sa)
  let a0 := as.headD 0
  let all := p.boundsSlot ta a0 0
  let n := as.length * ta
  let cols := fun (a : Nat) => if p.conv then [(0, p.cols it a, 0, p.outCol it a)].filter (fun g => g.2.1 != 0) else segs (p.outCol it a) (p.cols it a) p.nPer
  let ofB := as.flatMap fun a => (cols a).flatMap fun g =>
    (p.place l true).boundsWork true (p.boundsSlot ta a 0) ta (if p.conv then 0 else it.b + g.2.2.1) g.2.2.2 g.2.1 g.1 p.aAt room
  let ofA := if p.conv then
      let o := p.place l false
      o.boundsWork false all n it.b 0 o.total 0 p.aAt room
    else ts.flatMap fun t => (segs (p.row0 it t.1) (p.rows it t.1) p.mPer).flatMap fun g => as.flatMap fun a =>
      (p.place l false).boundsWork false (p.boundsSlot ta a t.2) 1 (it.b + g.2.2.1) g.2.2.2 g.2.1 g.1 p.aAt room
  [.boundsOpen all n] ++ ofB ++ ofA ++ [.bounds all n]

/-- The anchors of tiles (t, place) of the item (R175): bounds first, C sources staged where the A buffers will be. -/
def Plan.anchors (p : Plan) (l : List Byte) (it : Item) (as : List Nat) (ta : Nat) (ts : List (Nat × Nat)) : List Work :=
  let pairs := as.flatMap fun a => ts.map fun t => (a, t)
  let bounds := if fixedAnchors p.w then [] else p.boundsWork l it as ta ts
  let cn := cinSlots p.w.cin
  let room := 2 * ta * (p.sA + p.sa) / max cn 1
  let body := if cn = 0 then pairs.map fun q => p.anchorOp ta q.1 q.2.1 q.2.2 0
    else (groupsOf room pairs).flatMap fun g =>
      let at_ := fun (i : Nat) => p.aAt + i * cn
      (g.zipIdx.flatMap fun q => p.loadC l it q.1.1 q.1.2.1 (at_ q.2)) ++ [.ready p.aAt (g.length * cn)] ++
      (g.zipIdx.map fun q => p.anchorOp ta q.1.1 q.1.2.1 q.1.2.2 (at_ q.2)) ++ [.sync, .empty p.aAt (g.length * cn)]
  bounds ++ body

/-- The PANELs of chunk c. -/
def Plan.panels (p : Plan) (as : List Nat) (c : Nat) (consume : Bool) : List Work :=
  as.map fun a => .arr a (instr0 1 0 c consume 1 0 (p.bSlot c a) (p.bSlot c a + p.sB)) p.w1

/-- The PASSes of chunk c over tiles (t, place). -/
def Plan.passes (p : Plan) (as : List Nat) (ta c : Nat) (ts : List (Nat × Nat)) : List Work :=
  as.flatMap fun a => ts.map fun t =>
    let slot := p.aSlot ta c t.2
    .arr a (instr0 3 t.1 c false (p.steps c) 0 slot (p.aScaleSlot slot c)) p.w1

/-- The weight row of k of an item in the diagonal mapping (R188, R196). -/
def Plan.diagRow (p : Plan) (l : List Byte) (it : Item) (k : Nat) : Nat :=
  let cgi := max 1 (fieldAt l 0x1C 2 / max 1 (fieldAt l 0x16 2))
  let per := max 1 (p.tapChans l it).1
  k / per * cgi + k % per % cgi

/-- The first of the Cg_out columns that k of an item reaches in the diagonal mapping. -/
def Plan.diagCol (p : Plan) (l : List Byte) (it : Item) (k : Nat) : Nat :=
  let g := max 1 (fieldAt l 0x16 2)
  k % max 1 (p.tapChans l it).1 / max 1 (fieldAt l 0x1C 2 / g) * max 1 (fieldAt l 0x1E 2 / g)

/-- Which of two weight scale blocks an element of a column's 32 k holds its scale in: 0 for that of the block's first row of the column,
1 for the next one (at most 32 consecutive rows lie in a block, so there are no more).
LOG 19 (DESIGN CHOICE). -/
def Plan.diagPart (p : Plan) (l : List Byte) (it : Item) (c i : Nat) : Nat :=
  let k := c * p.kc + i
  let first := ((List.range (i % 32 + 1)).find? fun j => p.diagCol l it (c * p.kc + i / 32 * 32 + j) == p.diagCol l it k).getD (i % 32)
  b2n (p.diagRow l it k / 32 != p.diagRow l it (c * p.kc + i / 32 * 32 + first) / 32)

/-- Whether chunk c holds elements of a second scale block in some column's 32 k: they go into a panel of their own, so that each element
has the scale of its own weight row (R51, R188).
LOG 19 (DESIGN CHOICE). -/
def Plan.straddles (p : Plan) (l : List Byte) (it : Item) (c : Nat) : Bool :=
  p.diag && p.w.bBs && (List.range (p.chunkK c)).any fun i => p.diagPart l it c i == 1

/-- Chunks `cs` over tiles: the loads of a chunk go ahead of the passes of the one before it. -/
def Plan.chunks (p : Plan) (l : List Byte) (it : Item) (as : List Nat) (ta : Nat) (ts : List (Nat × Nat)) (loadBs consume withPanels : Bool) : List Nat → List Work
  | [] => []
  | c :: r =>
    let aN := ta * (p.sA + p.sa)
    let loadB := fun (part : Nat) => (as.flatMap fun a => p.loadB l it c a part) ++ as.map fun a => .ready (p.bSlot c a) (p.sB + p.sb)
    [.chunk c, .free (p.aSlot ta c 0) aN] ++ (ts.flatMap fun t => p.loadA l it ta c t.1 t.2) ++ [.ready (p.aSlot ta c 0) aN] ++
    (if loadBs then loadB 0 else []) ++ (if withPanels then p.panels as c consume else []) ++ p.passes as ta c ts ++
    (if p.straddles l it c then [.sync] ++ loadB 1 ++ p.panels as c consume ++ p.passes as ta c ts else []) ++
    Plan.chunks p l it as ta ts loadBs consume withPanels r

/-- DRAINs of tiles and the copies of their rows to OUT (R175, R176); two tiles of each array at a time. -/
def Plan.drains (p : Plan) (l : List Byte) (it : Item) (as : List Nat) (aux : Nat) (ts : List Nat) : List Work :=
  (groupsOf 2 ts).flatMap fun g =>
    let pairs := as.flatMap fun a => g.zipIdx.map fun t => (a, t.1, t.2)
    let out := if p.conv then addrAt l 0x40 else addrAt l 0x38
    let bstr := fieldAt l 0x5C 4
    let str := if p.conv then strAt l 0x40 else strAt l 0x38
    (pairs.map fun q => Work.arr q.1 (instr0 4 q.2.1 0 false 1 aux (p.drainSlot q.1 q.2.2) 0) p.w1) ++
    (pairs.flatMap fun q =>
      let nv := p.cols it q.1
      let mv := p.rows it q.2.1
      if nv = 0 ∨ mv = 0 then []
      else [copyOut (p.drainSlot q.1 q.2.2 * 256) (out + 256 * it.b * bstr + 16 * p.row0 it q.2.1 * str + p.outCol it q.1 * p.eo / 8) (nv * p.eo / 8) mv (4 * p.eo) (16 * str)]) ++
    [.sync, .empty p.drainAt (16 * p.d)]

/-- The tile images that pass at once through the slots of A, the bounds and the drains; B's are left alone, since under order 2 they may
hold columns (R174). -/
def Plan.imagesAtOnce (p : Plan) : Nat := max 1 (min 6 ((p.spillAt - p.aAt) / 41))

/-- Tile images saved and copied to memory. -/
def Plan.saves (p : Plan) (l : List Byte) (it : Item) (as ts : List Nat) : List Work :=
  (groupsOf p.imagesAtOnce (as.flatMap fun a => ts.map fun t => (a, t))).flatMap fun g =>
    (g.zipIdx.map fun q => Work.arr q.1.1 (instr0 5 q.1.2 0 false 1 0 (p.aAt + 41 * q.2) 0) 0) ++
    (g.zipIdx.map fun q => copyOut ((p.aAt + 41 * q.2) * 256) (p.imageVa l it.g it.seg q.1.1 q.1.2) 10496 1 0 0) ++
    [.sync, .empty p.aAt (41 * p.imagesAtOnce)]

/-- Tile images of every segment brought back: RESTORE of the first, MERGE of the others (R181). -/
def Plan.merges (p : Plan) (l : List Byte) (it : Item) (as ts : List Nat) : List Work :=
  (groupsOf p.imagesAtOnce (as.flatMap fun a => ts.flatMap fun t => (List.range p.split).map fun sg => (a, t, sg))).flatMap fun g =>
    (g.zipIdx.map fun q => copyIn (p.imageVa l it.g q.1.2.2 q.1.1 q.1.2.1) ((p.aAt + 41 * q.2) * 256) 10496 1 0 0) ++ [.ready p.aAt (41 * p.imagesAtOnce)] ++
    (g.zipIdx.map fun q => if q.1.2.2 = 0 then Work.arr q.1.1 (instr0 6 q.1.2.1 0 false 1 0 (p.aAt + 41 * q.2) 0) 0
      else Work.arr q.1.1 (instr0 7 q.1.2.1 0 false 1 0 (p.aAt + 41 * q.2) 0) p.w1) ++
    [.sync, .empty p.aAt (41 * p.imagesAtOnce)]

/-- The chain entry of context x, or none. -/
def chainAux (l : List Byte) (x : Nat) : Nat := if hasChain l then x else 0xFF

/-- The steps of an item in the operator's own order (R175, R181).
LOG 39, 40 (DESIGN CHOICE). -/
def Plan.itemWork (p : Plan) (l : List Byte) (x i : Nat) (it : Item) (resident : Bool) : List Work :=
  let as := p.arrays x i
  let ts := List.range p.t
  let tt := ts.map fun t => (t, t)
  let aux := chainAux l x
  let segLen := ceilDiv p.c p.split
  let cs := if it.kind = 1 then (List.range p.c).filter fun c => c / segLen == it.seg else List.range p.c
  let last := p.order != 2 || it.kind == 1 || it.bm + 1 == p.gm
  let clear := (if resident then [] else [Work.empty p.bAt (p.aAt - p.bAt)]) ++ [.empty p.aAt (p.spillAt - p.aAt)]
  if it.kind = 2 then clear ++ [.waitCount (addrAt l 0x30 + 8 * it.g) p.split] ++ p.merges l it as ts ++ p.drains l it as aux ts
  else
    clear ++ p.anchors l it as p.t tt ++ p.chunks l it as p.t tt (!resident) last true cs ++ [.sync, .empty p.aAt (2 * p.t * (p.sA + p.sa))] ++
    (if it.kind = 1 then p.saves l it as ts ++ [.count (addrAt l 0x30 + 8 * it.g)] else p.drains l it as aux ts)

/-- The steps of an item in the fallback order (R183): segments of two chunks, groups of T_own tiles, images in the spill area. -/
def Plan.fallbackWork (p : Plan) (l : List Byte) (x i : Nat) (it : Item) : List Work :=
  let as := p.arrays x i
  let aux := chainAux l x
  let segLen := ceilDiv p.c p.split
  let cs := if it.kind = 1 then (List.range p.c).filter fun c => c / segLen == it.seg else List.range p.c
  let segs2 := groupsOf 2 cs
  let ta := min p.t p.own
  let clear := [Work.empty p.bAt (p.spillAt - p.bAt), Work.empty p.spillAt (328 * p.t)]
  let spill := fun (a t : Nat) => p.spillAt + (a * p.t + t) * 41
  let arrs := fun (op : Nat) (ts : List (Nat × Nat)) => as.flatMap fun a => ts.map fun t => Work.arr a (instr0 op t.2 0 false 1 0 (spill a t.1) 0) 0
  let groups := groupsOf ta (List.range p.t)
  clear ++ (if it.kind = 2 then [.waitCount (addrAt l 0x30 + 8 * it.g) p.split] else []) ++
  (if it.kind = 2 then groups.flatMap fun g => p.merges l it as g ++ p.drains l it as aux g
   else segs2.zipIdx.flatMap fun sg =>
    groups.zipIdx.flatMap fun g =>
      let tt := g.1.map fun t => (t, t % ta)
      (if sg.2 = 0 then p.anchors l it as ta tt ++ [.sync] else arrs 6 tt ++ [.sync] ++ g.1.flatMap fun t => as.map fun a => .empty (spill a t) 41) ++
      p.chunks l it as ta tt (g.2 == 0) (g.2 == 0) (g.2 == 0) sg.1 ++ [.sync, .empty p.aAt (2 * ta * (p.sA + p.sa))] ++
      (if sg.2 + 1 = segs2.length then
        (if it.kind = 1 then p.saves l it as g.1 else p.drains l it as aux g.1)
       else arrs 5 tt ++ [.sync])) ++
  (if it.kind = 1 then [.count (addrAt l 0x30 + 8 * it.g)] else [])

end Sys2Proof.Machine
end

