-- ==== Sys2Proof/Machine/TilerRun.lean ====
section
/-! DEFINITION. The tiler at work (R57, R172–R184, R191–R199, R309): bounds, windows, diagonal panels, the emission of a work item, the
array operators, the split-K fallback, phase-2 items. -/

namespace Sys2Proof.Machine

/-! ## Bounds (R56, R57, R168, R172, R198) -/

/-- The bytes of a census read, one list for each element of the part. -/
def BoundsPart.lists (q : BoundsPart) (d : List Byte) : List (List Nat) := (List.range q.n).map fun j =>
  let g := (q.lo + j) / 32
  if q.g0 ≤ g ∧ g < q.g0 + q.ng then (List.range q.kn).map fun k => fieldAt d (k * q.ng + (g - q.g0)) 1 else []

/-- The block bytes of the elements of a part, one list for each: scales or a stored census of the K positions of the part, or the bytes of
its census read. -/
def State.partBytes (s : State) (c x : Nat) (o : OpPlace) (q : BoundsPart) : Option (List (List Nat)) × State :=
  let pick := fun (rows : List (List Byte)) (at_ : Nat → Nat) => (List.range q.n).map fun j => rows.map fun l => fieldAt l (at_ j) 1
  match q.census with
  | some slot => afterRead (s.memRead (.engine c 0 x) (spAddr c (slot * 256)) (q.kn * q.ng)) (fun e s => (none, s.abortCtx c x e.cause))
      fun d s => (some (q.lists d), s)
  | none =>
    if o.scaled then
      let k := ceilDiv o.k 32
      let r := s.xReads c x ((List.range k).map fun i => (o.scAddr + (q.b * k + i) * o.scStr + q.lo, q.n))
      (r.1.map fun d => pick d id, r.2)
    else
      let r := s.xReads c x ((List.range o.k).map fun i => (o.scAddr + (q.b * o.k + i) * o.scStr + q.g0, q.ng))
      (r.1.map fun d => pick d fun j => (q.lo + j) / 32 - q.g0, r.2)

/-- What a bounds slot holds for an element before any block byte has been taken in. -/
def boundNone : Nat := 0x8000

/-- A bound raised to that of more block bytes; NaN and infinity blocks are left out (R56). -/
def raiseBound (mode : Option Nat) (old : Nat) (blocks : List Nat) : Nat :=
  if blocks.all (· == 0xFF) then old else ofSigned 16 (max (toSigned 16 old) (operandBound mode blocks))

/-- A bounds slot after a part: element `off` + j of its row or column bounds takes the j-th list in (Table 04-4). -/
def boundsMerge (l : List Byte) (col off : Nat) (mode : Option Nat) (d : List (List Nat)) : List Byte :=
  (List.range 128).flatMap fun i =>
    let v := fieldAt l (2 * i) 2
    let k := i - (if col = 1 then 32 else 0)
    leBytes 2 (if i / 32 = col ∧ off ≤ k ∧ k < off + d.length then raiseBound mode v (d.getD (k - off) []) else v)

/-- The bounds of a convolution's input: one for all rows, with the census of PAD_VALUE under PAD_MODE 1 (R198). -/
def convBounds (w : ArithWord) (l : List Byte) (d : List (List Nat)) : List (List Nat) :=
  let pad := if bits (fieldAt l 0 4) 9 8 = 1 then [censusElem w.aFmt (fieldAt l 0x2C 2)] else []
  List.replicate 32 (pad ++ d.flatten)

/-- Slot bytes that an engine writes for a context. -/
def State.engineWrite (s : State) (c x slot : Nat) (l : List Byte) : Bool × State :=
  if s.slotsOk c x slot (ceilDiv l.length 256) .write then
    afterWrite (s.memWrite (.engine c 0 x) (spAddr c (slot * 256)) l) (fun e s => (false, s.abortCtx c x e.cause)) fun s => (true, s)
  else (false, s.bbViolation (.engine c 0 x) c x (127 * 2 ^ 41 + spAddr c (slot * 256)))

/-- n bounds slots from `slot` rewritten by BOUNDS. -/
def State.boundsSlots (s : State) (c x slot n : Nat) (f : List Byte → List Byte) : Bool × State :=
  (List.range n).foldl (fun q i => if q.1 then q.2.engineWrite c x (slot + i) (f (q.2.mem.read (spAddr c ((slot + i) * 256)) 256)) else q) (true, s)

/-- A part of a BOUNDS job. -/
def State.boundsPart (s : State) (c x slot n : Nat) (p : Plan) (l : List Byte) (q : BoundsPart) : Bool × State :=
  let o := p.place l q.isB
  let r := s.partBytes c x o q
  match r.1 with
  | none => (false, r.2)
  | some d =>
    let d := if p.conv && !q.isB then convBounds p.w l d else d
    let w := r.2.boundsSlots c x slot n fun b => boundsMerge b (b2n q.isB) q.off o.mode d
    if w.1 then (true, w.2.inSpecial c x (d.any fun e => e.contains 0xFF)) else w

/-- The bounds slots of an item closed: an element without a block has the bound of nothing, H is resolved from N, and the engine's step is
queued. -/
def State.boundsJob (s : State) (c x slot n : Nat) (p : Plan) (l : List Byte) : Bool × State :=
  if !s.kernelIn c 1 then (false, s.kernelInvalid c (s.stepEngine c) x 1)
  else
    let w := s.boundsSlots c x slot n fun b => ((List.range 64).flatMap fun i =>
      let v := fieldAt b (2 * i) 2
      leBytes 2 (if v = boundNone then ofSigned 16 (operandBound none []) else v)) ++ leBytes 2 (resolveHeadroom p.w.headroom (p.terms l)) ++ leBytes 126 0
    if w.1 then (true, w.2.addSteps c x 1 (64 * n)) else w

/-! ## Windows (R191–R193, R195, R196, R199) -/

/-- The pad value of a tap as an element code. -/
def padCode (l : List Byte) : Nat := if bits (fieldAt l 0 4) 9 8 = 1 then fieldAt l 0x2C 2 else 0

/-- The elements of A of one row for a part of a tap, out of the staged runs. -/
def Plan.windowRow (p : Plan) (l : List Byte) (it : Item) (runs : List (PixRun × Nat)) (stage : List Byte) (row : Nat) (q : Nat × Nat × Nat) : List Nat :=
  let e := fmtBits p.w.aFmt
  if p.m ≤ row then List.replicate q.2.2 0
  else match (p.runOf l it row q).bind fun r => runs.find? fun o => o.1 == r with
    | some (r, o) => (List.range q.2.2).map fun i => elemAt (stage.drop o) e (i + r.skip e)
    | none => List.replicate q.2.2 (padCode l)

/-- The k-major elements of A chunk ch of row tile t. -/
def Plan.windowElems (p : Plan) (l : List Byte) (it : Item) (stage : List Byte) (t ch : Nat) : List Nat :=
  let runs := runOffsets (fmtBits p.w.aFmt) 0 (p.stageRuns l it t ch)
  (tapParts (ch * p.kc) (p.chunkK ch) (p.tapChans l it).1).flatMap fun q =>
    let rows := (List.range 32).map fun i => p.windowRow l it runs stage (p.row0 it t + i) q
    (List.range q.2.2).flatMap fun j => rows.map fun v => v.getD j 0

/-- WINDOW: A chunk ch of row tile t, place u of `ta`, written from its staged runs, its bytes counted, its engine steps queued. -/
def State.windowJob (s : State) (c x slot t ch ta u : Nat) (p : Plan) (l : List Byte) (it : Item) : Bool × State :=
  let st := p.stageAt ta u
  if !s.slotsOk c x st.1 st.2 .read then (false, s.bbViolation (.engine c 0 x) c x (127 * 2 ^ 41 + spAddr c (st.1 * 256)))
  else
    afterRead (s.memRead (.engine c 0 x) (spAddr c (st.1 * 256)) (st.2 * 256)) (fun e s => (false, s.abortCtx c x e.cause)) fun d s =>
      let bytes := packElems (fmtBits p.w.aFmt) (p.windowElems l it d t ch)
      let w := s.engineWrite c x slot (bytes ++ List.replicate ((p.sA + p.sa) * 256 - bytes.length) 0)
      if w.1 then (true, (w.2.count64 (clReg c 0x8C0) bytes.length).addSteps c x 0x0B (ceilDiv bytes.length 128)) else w

/-! ## Panels of the diagonal mapping (R196), and 4-bit operands that do not fill whole bytes -/

/-- The panel source of chunk ch in the diagonal mapping; with block scales, the elements of one part, each column's 32 k with the scale of
that part's weight rows (R51, R188). -/
def State.diagJob (s : State) (c x slot ch part : Nat) (p : Plan) (l : List Byte) (it : Item) : Bool × State :=
  let cgo := max 1 (fieldAt l 0x1E 2 / max 1 (fieldAt l 0x16 2))
  let nv := p.cols it 0
  let col := p.col0 it 0
  let e := fmtBits p.w.bFmt
  let k0 := ch * p.kc
  let at_ := fun (k : Nat) => (col + p.diagCol l it k) * e
  let r := s.xReads c x ((List.range (p.chunkK ch)).map fun i =>
    (addrAt l 0x38 + 16 * p.diagRow l it (k0 + i) * strAt l 0x38 + at_ (k0 + i) / 8, ceilDiv (cgo * e + at_ (k0 + i) % 8) 8))
  let q := ceilDiv (p.place l true).k 32
  let sc := if p.w.bBs then r.2.xReads c x ((List.range q).map fun i => (addrAt l 0x48 + i * strAt l 0x48 + col, nv)) else (some [], r.2)
  match r.1, sc.1 with
  | some d, some scales =>
    let mine := fun (i j : Nat) =>
      decide (p.diagCol l it (k0 + i) ≤ j) && decide (j < p.diagCol l it (k0 + i) + cgo) && decide (j < nv) && (!p.w.bBs || p.diagPart l it ch i == part)
    let elems := d.zipIdx.flatMap fun v => (List.range 32).map fun j =>
      if mine v.2 j then elemAt v.1 e (at_ (k0 + v.2) % 8 / e + (j - p.diagCol l it (k0 + v.2))) else 0
    let bytes := packElems e elems
    let scale := fun (blk j : Nat) => match (List.range (min 32 (p.chunkK ch - 32 * blk))).find? fun i => mine (32 * blk + i) j with
      | some i => fieldAt (scales.getD (p.diagRow l it (k0 + 32 * blk + i) / 32) []) j 1
      | none => 0x7F
    let sb := if p.w.bBs then (List.range (ceilDiv (p.chunkK ch) 32)).flatMap fun blk => (List.range 32).flatMap fun j => leBytes 1 (scale blk j) else []
    sc.2.engineWrite c x slot (bytes ++ List.replicate (p.sB * 256 - bytes.length) 0 ++ sb ++ List.replicate (p.sb * 256 - sb.length) 0)
  | _, _ => (false, sc.2)

/-- Chunk ch of 4-bit elements from element `first` of each storage row, n of them, laid out 32 to a k with zeros in the rest (R49, R168, R176). -/
def State.nibbleJob (s : State) (c x slot slots base str first n kv : Nat) : Bool × State :=
  let r := s.xReads c x ((List.range kv).map fun i => (base + 16 * i * str + first / 2, ceilDiv (n + first % 2) 2))
  match r.1 with
  | none => (false, r.2)
  | some d =>
    let bytes := packElems 4 (d.flatMap fun v => (List.range 32).map fun j => if j < n then elemAt v 4 (j + first % 2) else 0)
    r.2.engineWrite c x slot (bytes ++ List.replicate (slots * 256 - bytes.length) 0)

/-- The 4-bit elements of A chunk ch of row tile t, or of B chunk ch of array t. -/
def State.nibbles (s : State) (c x slot t ch : Nat) (isB : Bool) (p : Plan) (l : List Byte) (it : Item) : Bool × State :=
  let o := p.place l isB
  let base := o.addr + 256 * (if p.conv then 0 else it.b) * o.bstr + 16 * (ch * p.kc) * o.str
  if isB then s.nibbleJob c x slot p.sB base o.str (p.outCol it t) (p.cols it t) (p.chunkK ch)
  else s.nibbleJob c x slot (aSlots p.w (p.steps ch)) base o.str (p.row0 it t) (p.rows it t) (p.chunkK ch)

/-! ## Emission -/

/-- The context's tiler with the head of its work taken. -/
def State.popWork (s : State) (c x : Nat) : State := s.modTil c x fun t => { t with work := t.work.drop 1 }

/-- A descriptor pushed by the tiler: it needs a free entry. -/
def State.tilerPush (s : State) (c x d : Nat) : Bool × State :=
  match (List.range 32).find? fun e => !s.entryQueued c e, s.tilerChan c x with
  | some e, (some n, s) =>
    let s := (List.range 16).foldl (fun s w => s.wr (descReg c e w) (d / 2 ^ (32 * w) % 2 ^ 32)) s
    (true, s.movPush c n e)
  | _, _ => (false, s)

/-- Whether a queued or uncommitted PASS of context x reads slots from [first, first + n). -/
def State.slotsRead (s : State) (c x first n : Nat) : Bool :=
  let hit := fun (i : QInstr) => i.op == 3 && i.ctx == x && decide (first ≤ i.slot) && decide (i.slot < first + n)
  (List.range 8).any fun a => ((s.arr c a).queues.getD x []).any hit || (s.arr c a).passes.any fun p => hit p.instr

/-- The chain of the operator in hand written as entry x of both engines. -/
def State.writeChain (s : State) (c x : Nat) : State :=
  let d := (s.til c x).desc
  (List.range 2).foldl (fun s e => (List.range 8).foldl (fun s i => s.wr (vecReg c e (0x100 + 32 * x + 4 * i)) (fieldAt d (0x60 + 4 * i) 4)) s) s

/-- 1 added to a word of another chip (R62, R181). -/
def State.farAdd (s : State) (r : Requester) (c x ga : Nat) : Bool × State :=
  let q := s.spSend r (x == 4) { kind := kAtomic, dest := ga / 2 ^ 41, len := 16, op := 0, tagged := false, addr := ga % 2 ^ 41, payload := leBytes 8 1 ++ leBytes 8 0, cmd := none }
  if q.1.isSome then (true, q.2) else (false, q.2.abortCtx c x 6)

/-- The head of the tiler's work done, if it can be now. -/
def State.emit1 (s : State) (c x : Nat) (w : Work) : Bool × State :=
  let t := s.til c x
  let p := s.plan c x
  let it := (p.item (s.item c x)).getD { b := 0, bm := 0, bn := 0, kind := 0, seg := 0, g := 0 }
  let pi := p.forItem t.desc it
  match w with
  | .arr a w0 w1 =>
    let q := (s.arr c a).queues.getD x []
    if 8 ≤ q.length then (false, s)
    else
      let phys := (t.map.getD a []).getD (bits w0 6 4) (bits w0 6 4)
      let i : QInstr := { w0 := setBits (setBits w0 6 4 phys) 63 61 x, w1 := w1, sched := if x = 4 then s.schedAt c a else none, opIdx := s.opIndex c x, stuck := false, late := false, seq := (s.arr c a).pushed }
      let s := s.setArr c a { s.arr c a with queues := setAt (s.arr c a).queues x (q ++ [i]), pushed := (s.arr c a).pushed + 1 }
      (true, if x = 4 then s.place c a else s)
  | .mov d => s.tilerPush c x d
  | .boundsOpen slot n => s.boundsSlots c x slot n fun _ => (List.range 64).flatMap fun i => leBytes 4 (if i < 32 then boundNone * 65537 else 0)
  | .boundsPart slot n q => s.boundsPart c x slot n pi t.desc q
  | .bounds slot n => s.boundsJob c x slot n pi t.desc
  | .window _ _ _ => (false, s)
  | .detect => (false, s)
  | .diagB slot ch part => s.diagJob c x slot ch part pi t.desc it
  | .nibbles b slot t ch => s.nibbles c x slot t ch b pi (s.til c x).desc it
  | .chunk ch => (true, s.setFld (clReg c (0x834 + 0x20 * x)) 31 16 ch)
  | .chain => if (List.range 2).any fun e => s.chainNamed c e x then (false, s) else (true, s.writeChain c x)
  | .free first n => if s.slotsRead c x first n then (false, s) else (true, s.setTags c first n false)
  | .ready first n => if s.movIdle c x then (true, s.setTags c first n true) else (false, s)
  | .empty first n => (true, s.setTags c first n false)
  | .sync => (s.ctxIdle c x, s)
  | .count va =>
    let q := s.reachGa c x va 8 .atomic
    match q.1 with
    | none => (false, q.2)
    | some ga => match q.2.localOf ga with
    | none => q.2.farAdd (.mover c (q.2.lane c x) x) c x ga
    | some a =>
      let m := q.2.memAtomic (.tiler c x) .add a 1 0
      match m.1.2 with
      | some e => (false, m.2.abortCtx c x e.cause)
      | none => (true, m.2.wakeAll (127 * 2 ^ 41 + a) ((m.1.1 + 1) % 2 ^ 64))
  | .waitCount _ _ => (false, s)
  | .step k ct => (true, s.addSteps c x k ct)

/-- Whether the operator of context x still runs. -/
def State.opRuns_ (s : State) (c x : Nat) : Bool := (s.til c x).phase == 1 && !(s.til c x).aborted && !(s.til c x).bound

/-- Work emitted in order until something has to be waited for. -/
def State.emit (s : State) (c x : Nat) : Nat → State
  | 0 => s
  | n + 1 =>
    if !s.opRuns_ c x then s
    else match (s.til c x).work with
      | [] => s
      | w :: _ =>
        let q := s.emit1 c x w
        if q.1 && q.2.opRuns_ c x then State.emit (q.2.popWork c x) c x n else q.2

/-! ## Operators as rows of the table -/

/-- DIST and WCTR of a descriptor. -/
def distOf (l : List Byte) : Bool :=
  match fieldAt l 0 1 with
  | 0x01 => bit (fieldAt l 0 4) 13
  | 0x28 => false
  | 0x40 => false
  | 0x41 => false
  | _ => bit (fieldAt l 0 4) 16
/-- WCTR of a descriptor. -/
def wctrOf (l : List Byte) : Nat := if fieldAt l 0 1 = 0x01 then bits (fieldAt l 0 4) 23 16 else bits (fieldAt l 0 4) 31 24

/-- What an operator is made of: its check, whether its plan fits the arena, its work items, its first work, which indices are
items, what starts an item and what goes on with one. -/
structure OpKind where
  ok : State → List Byte → Bool
  fits : State → List Byte → Bool
  total : State → List Byte → Nat
  work : List Byte → List Work
  isItem : State → Nat → Bool
  start : State → Nat → State
  go : State → State

/-- The operator that context x is at: read and checked, or its next item, or the end of its share. A descriptor that cannot be read, or whose
OPCODE is reserved, is dealt with by whichever operator's command comes (R163, R169). A cluster that runs nothing of the operator needs no
arena for it (R178). -/
def State.opRow (s : State) (c x op : Nat) (k : OpKind) : State :=
  if !s.tilerMay c x || !((s.opNow c x).getD op == op) then s
  else
    let s := s.tilerTake c x
    match (s.til c x).phase with
    | 0 =>
      let q := s.readOp c x
      match q.1 with
      | none => q.2
      | some l =>
        let s := (q.2.modTil c x fun t => t.take l).tilState c 1
        let share := s.leads c x || distOf l
        if !catalogue.contains (fieldAt l 0 1) || !k.ok s l then s.descRefused c x
        else if share && !k.fits s l then s.arenaFault c x
        else s.opStart c x l (if share then k.total s l else 0) (if share then k.work l else [])
    | 1 =>
      let l := (s.til c x).desc
      let s := s.emit c x ((s.til c x).work.length + 1)
      if !s.opRuns_ c x || !(s.til c x).work.isEmpty then s
      else if s.item c x ≠ 0xFFFFFFFF then k.go s
      else
        let q := s.nextItem c x (s.til c x).total (wctrOf l) (distOf l)
        match q with
        | (false, _, s) => s
        | (true, some i, s) => if k.isItem s i then ((k.start (s.setItem c x i) i).taskTable c).tilState c 2 else s
        | (true, none, s) => if s.ctxIdle c x then (s.opDoneShare c x).tilState c 0 else s
    | _ => s

/-- The block column whose whole B lies in the arena after an item under order 2; a K segment leaves none. -/
def Plan.leaves (p : Plan) (it : Item) : Option Nat := if p.order = 2 ∧ it.kind = 0 ∧ it.bm + 1 ≠ p.gm then some (it.b * p.gn + it.bn) else none

/-- Work of an item of an array operator set. -/
def State.itemStart (s : State) (c x i : Nat) : State :=
  let p := s.plan c x
  match p.item i with
  | none => s
  | some it =>
    let l := (s.til c x).desc
    let held := it.kind == 0 && (s.til c x).resident == some (it.b * p.gn + it.bn)
    let pi := p.forItem l it
    (s.modTil c x fun t =>
      { t with work := if t.own = 0 then pi.itemWork l x (t.next - 1) it held else pi.fallbackWork l x (t.next - 1) it, resident := none }).setFld (clReg c (0x834 + 0x20 * x)) 31 16 0

/-- An item of an array operator ends once all it issued has ended. -/
def State.itemGo (s : State) (c x : Nat) : State :=
  if s.ctxIdle c x then
    let p := s.plan c x
    let next := (p.item (s.item c x)).bind p.leaves
    ((s.modTil c x fun t => { t with resident := if t.own = 0 then next else none }).itemEnd c x).taskTable c
  else s

/-- The four array operators. -/
def arrayKind (c x : Nat) : OpKind :=
  { ok := fun s l => arrayOpOk l && (mkPlan l (s.opWidth c x) (s.arena c x) 0).areaOk l,
    fits := fun s l => (mkPlan l (s.opWidth c x) (s.arena c x) 0).fits,
    total := fun s l => (mkPlan l (s.opWidth c x) (s.arena c x) 0).total,
    work := fun l => if hasChain l then [.chain] else [],
    isItem := fun s i => ((s.plan c x).item i).isSome,
    start := fun s i => s.itemStart c x i,
    go := fun s => s.itemGo c x }

/-- MATMUL. -/
def execMatmul (c x : Nat) (s : State) : Host.Outcome State Fault Refusal := .next (s.opRow c x 0x01 (arrayKind c x))
/-- CONV2D. -/
def execConv2d (c x : Nat) (s : State) : Host.Outcome State Fault Refusal := .next (s.opRow c x 0x10 (arrayKind c x))
/-- DWCONV2D. -/
def execDwconv2d (c x : Nat) (s : State) : Host.Outcome State Fault Refusal := .next (s.opRow c x 0x11 (arrayKind c x))
/-- GROUPCONV2D. -/
def execGroupconv2d (c x : Nat) (s : State) : Host.Outcome State Fault Refusal := .next (s.opRow c x 0x12 (arrayKind c x))

/-- Whether the tiler works on an item of context x whose next step satisfies a test. -/
def State.headIs (s : State) (c x : Nat) (f : Work → Bool) : Bool :=
  s.tilerMay c x && s.opRuns_ c x && (match (s.til c x).work with
    | w :: _ => f w
    | [] => false)

/-- WINDOW: the next A chunk of a convolution is built. -/
def execWindow (c x : Nat) (s : State) : Host.Outcome State Fault Refusal :=
  .next <|
    if !s.headIs c x (fun _ => true) then s
    else match (s.til c x).work with
      | .window slot t ch :: _ =>
        let l := (s.til c x).desc
        let p := s.plan c x
        match p.item (s.item c x) with
        | none => s
        | some it =>
          let ta := if p.own = 0 then p.t else min p.t p.own
          let q := if s.kernelIn c 0x0B then s.windowJob c x slot t ch ta (t % ta) (p.forItem l it) l it else (false, s.kernelInvalid c (s.stepEngine c) x 0x0B)
          if q.1 && q.2.opRuns_ c x then q.2.popWork c x else q.2
      | _ => s

/-! ## Phase 2 and timed waits (R181, R309) -/

/-- Context x of the tiler waits for a word at a virtual address (elastic). -/
def State.tilerWait (s : State) (c x va need : Nat) : State :=
  let q := s.reachGa c x va 8 .read
  match q.1 with
  | none => q.2
  | some ga =>
    let s := (q.2.modTil c x fun t => { t with waitWord := some (va, need) }).tilState c 4
    (s.beginWait c x ga need).watchNow c x

/-- PHASE_2_ITEM: the held phase-2 item waits for its block's count word, then goes on. -/
def execPhase2Item (c x : Nat) (s : State) : Host.Outcome State Fault Refusal :=
  .next <|
    let kind2 := match (s.plan c x).item (s.item c x) with
      | some it => it.kind == 2
      | none => false
    if !s.headIs c x (fun _ => kind2) || fieldAt (s.til c x).desc 0 1 == 0x20 then s
    else match (s.til c x).work with
      | .waitCount va need :: _ => if x = 4 then s else s.tilerWait c x va need
      | _ => s.emit c x ((s.til c x).work.length + 1)

/-- COUNT_WORD_READ: a timed tiler reads a count or APPENDED word as a plain read; an unsatisfied one slips the task. -/
def execCountWordRead (c : Nat) (s : State) : Host.Outcome State Fault Refusal :=
  .next <|
    if !s.headIs c 4 (fun _ => true) then s
    else match (s.til c 4).work with
      | .waitCount va need :: _ =>
        let q := if fieldAt (s.til c 4).desc 0 1 = 0x20 then s.attRead c 4 none va 8 else s.xRead c 4 va 8
        match q.1 with
        | none => q.2
        | some d => if waitOver (leNat d) need then q.2.popWork c 4 else q.2.lateData c 0 0
      | _ => s

/-! ## The split-K fallback (R183) -/

/-- The queued instructions of context x on the arrays of a mask discarded. -/
def State.arrFlush (s : State) (c x arrays : Nat) : State :=
  (List.range 8).foldl (fun s a => if bit arrays a then s.setArr c a { s.arr c a with queues := setAt (s.arr c a).queues x [] } else s) s

/-- ARR_FLUSH: a write to CL_ARR_FLUSH by the Steward or the cluster sequencer. -/
def execArrFlush (r : Requester) (c x arrays : Nat) (s : State) : Host.Outcome State Fault Refusal :=
  .next (if s.mayWrite .stewardSeq r c && decide (c < s.nClusters) && decide (x < 5) then s.arrFlush c x arrays else s)

/-- The positions of array a that context x owns. -/
def State.ownedTiles (s : State) (c a x : Nat) : List Nat := (List.range 8).filter fun t => s.tileOwner c a t == x

/-- The work item restarted in the fallback order with the positions that the context owns.
LOG 42 (DESIGN CHOICE). -/
def State.fallback (s : State) (c x : Nat) : State :=
  let own := ((List.range 8).map fun a => (s.ownedTiles c a x).length).foldl min 8
  if own = 0 then s.abortCtx c x 2
  else
    let s := s.modTil c x fun t => { t with fallback := true, bound := false, own := own, resident := none, map := (List.range 8).map fun a => s.ownedTiles c a x }
    let s := s.countUp (clReg c 0x810) 1
    if !(s.plan c x).fits then s.arenaFault c x else (s.itemStart c x (s.item c x)).tilState c 2

/-- SPLIT_K_FALLBACK: after ACC_BOUND the held instructions are discarded, what was issued ends, the item restarts.
LOG 42 (DESIGN CHOICE). -/
def execSplitKFallback (c x : Nat) (s : State) : Host.Outcome State Fault Refusal :=
  .next <|
    if decide (c < s.nClusters) && decide (x < 4) && (s.til c x).bound && (s.til c x).phase == 1 && !(s.til c x).aborted && !(s.ctx c x).held then
      let s := ((s.arrFlush c x 0xFF).abortChans c x).tilState c 5
      if s.arrsIdle c x && s.movIdle c x then s.fallback c x else s
    else s

end Sys2Proof.Machine
end

