-- ==== Sys2Proof/Machine/Kernels.lean ====
section
/-! DEFINITION. The kernels that operators name (R66, R71, R102, R170–R172, R187–R202, R542): row kernels, pooling, resize, bounds, and
the Mover operators COPY and CENSUS. -/

namespace Sys2Proof.Machine

/-! ## Checks (R542) -/

/-- Formats a kernel reads. -/
def kernelIn_ : List Nat := [0x0, 0x1, 0x3, 0x4, 0x6, 0x7, 0x8]
/-- Formats a kernel writes. -/
def kernelOut_ : List Nat := [0x0, 0x1, 0x3, 0x4, 0x6, 0x7, 0x8, 0x9]

/-- OPCODE, IN_FMT and OUT_FMT of a kernel layout. -/
def inFmt (l : List Byte) : Nat := bits (fieldAt l 0 4) 11 8
/-- OUT_FMT. -/
def outFmt (l : List Byte) : Nat := bits (fieldAt l 0 4) 15 12
/-- ROWS. -/
def kRows (l : List Byte) : Nat := fieldAt l 8 4
/-- LEN. -/
def kLen (l : List Byte) : Nat := fieldAt l 0xC 4

/-- Whether a chain has a step with a SRC. -/
def chainHas (l : List Byte) (src : Nat) : Bool := (chainSteps (descChain l)).any fun e => bits e.2 7 6 == src

/-- The checks every kernel layout passes.
LOG 20 (DESIGN CHOICE). -/
def kernelBase (l : List Byte) : Bool :=
  bits (fieldAt l 0 4) 23 17 == 0 && fieldAt l 0x1C 4 == 0 && fieldAt l 0x36 2 == 0 && fieldAt l 0x3E 2 == 0 && fieldAt l 0x48 24 == 0 &&
  (match fieldAt l 0 1 with
    | 0x34 => decide (fieldAt l 0x18 4 ≤ 2)
    | 0x21 => decide (fieldAt l 0x18 4 ≤ 1)
    | _ => fieldAt l 0x18 4 == 0) &&
  kRows l != 0 && decide (1 ≤ kLen l) && decide (kLen l ≤ 65536) && kernelIn_.contains (inFmt l) &&
  (if fieldAt l 0 1 = 0x21 ∨ fieldAt l 0 1 = 0x38 then outFmt l == 0 && !hasChain l else kernelOut_.contains (outFmt l) && chainOk (outFmt l) (descChain l))

/-- The elements of a result row. -/
def kOut (l : List Byte) : Nat := if fieldAt l 0 1 = 0x34 then 1 else kLen l

/-- Whether a kernel reads gains, biases. -/
def usesG (l : List Byte) : Bool := fieldAt l 0 1 == 0x31 || fieldAt l 0 1 == 0x32
/-- Whether it reads biases. -/
def usesBias (l : List Byte) : Bool := fieldAt l 0 1 == 0x31

/-- The checks of a row kernel. -/
def rowKernelOk (l : List Byte) : Bool :=
  let ein := fmtBits (inFmt l)
  let eo := outBits l (outFmt l)
  let z := chainHas l 2 || chainHas l 3
  kernelBase l && decide (kLen l * ein ≤ 128 * strAt l 0x20) && decide (kOut l * eo ≤ 128 * strAt l 0x28) &&
  (!chainHas l 3 || decide (4 * kLen l ≤ 16 * strAt l 0x40)) &&
  addrAt l 0x20 % 16 == 0 && addrAt l 0x28 % 16 == 0 && (!usesG l || addrAt l 0x30 % 16 == 0) && (!usesBias l || addrAt l 0x38 % 16 == 0) &&
  (!z || addrAt l 0x40 % 16 == 0) &&
  reachOk (addrAt l 0x20) [(kRows l, 16 * strAt l 0x20)] (kLen l * ein / 8) && reachOk (addrAt l 0x28) [(kRows l, 16 * strAt l 0x28)] (kOut l * eo / 8) &&
  (!usesG l || inVa (addrAt l 0x30) (4 * kLen l)) && (!usesBias l || inVa (addrAt l 0x38) (4 * kLen l)) &&
  (!chainHas l 2 || inVa (addrAt l 0x40) (4 * kLen l)) && (!chainHas l 3 || reachOk (addrAt l 0x40) [(kRows l, 16 * strAt l 0x40)] (4 * kLen l))

/-! ## Row arithmetic (R71, R102, R172) -/

/-- The softmax of a row with an input scale (R172). -/
def softmaxRow (p0 : Nat) (xs : List Nat) : List Nat :=
  let t := xs.map fun v => fmul v p0
  let m := vmax t
  let e := t.map fun v => fexp (fsub v m)
  let r := frecip (vsum e)
  e.map fun v => fmul v r

/-- The kernel results of a row, in FP32. -/
def rowResult (l : List Byte) (g b xs : List Nat) : List Nat :=
  let p0 := fieldAt l 0x10 4
  let invN := fieldAt l 0x14 4
  match fieldAt l 0 1 with
  | 0x31 =>
    let mu := fmul (vsum xs) invN
    let d := xs.map fun v => fsub v mu
    let r := frsqrt (fadd (fmul (vdot d d) invN) p0)
    d.zipIdx.map fun e => ffma (fmul e.1 r) (g.getD e.2 0) (b.getD e.2 0)
  | 0x32 =>
    let r := frsqrt (fadd (fmul (vdot xs xs) invN) p0)
    xs.zipIdx.map fun e => fmul (fmul e.1 r) (g.getD e.2 0)
  | 0x33 => softmaxRow p0 xs
  | 0x34 => [match fieldAt l 0x18 4 with
      | 0 => vsum xs
      | 1 => vmax xs
      | _ => vmin xs]
  | _ => xs

/-- A chain run on one FP32 result, then the final rounding: the stored code, OUT_OVF, OUT_NAN. -/
def chainFinish (l : List Byte) (fmt : Nat) (operand : Nat → Nat → Nat) (v : Nat) : Conv :=
  let r := (chainSteps (descChain l)).foldl (fun (acc : Nat × Option Nat) e =>
    chainStep (bits e.2 5 0) acc.1 (if bits e.2 7 6 = 1 then fieldAt l (0x70 + 4 * e.1) 4 else operand (bits e.2 7 6) (bits e.2 20 8)) (bits e.2 28 21)) (v, none)
  match r.2 with
  | some k => ⟨k, false, false⟩
  | none => f32ToElem fmt false r.1

/-- FP32 values of bytes. -/
def f32s (d : List Byte) : List Nat := (List.range (d.length / 4)).map fun i => fieldAt d (4 * i) 4

/-! ## Row kernels -/

/-- The rows of the held item. -/
def itemRows (i rows : Nat) : List Nat := (List.range 32).filterMap fun k => if 32 * i + k < rows then some (32 * i + k) else none

/-- A row kernel's item. -/
def State.rowItem (s : State) (c x kernel : Nat) : State :=
  let l := (s.til c x).desc
  let rows := itemRows (s.item c x) (kRows l)
  let e := fmtBits (inFmt l)
  let eo := outBits l (outFmt l)
  let n := kLen l
  if !s.kernelIn c kernel then s.kernelInvalid c (s.stepEngine c) x kernel
  else
    let opt := fun (b : Bool) (o : Nat) => if b then [(addrAt l o, 4 * n)] else [(0, 0)]
    let q := s.xReads c x (opt (usesG l) 0x30 ++ opt (usesBias l) 0x38 ++ opt (chainHas l 2) 0x40 ++
      rows.map (fun r => (addrAt l 0x20 + 16 * r * strAt l 0x20, n * e / 8)) ++
      (if chainHas l 3 then rows.map fun r => (addrAt l 0x40 + 16 * r * strAt l 0x40, 4 * n) else []))
    match q.1 with
    | none => q.2
    | some d =>
      let g := f32s (d.getD 0 [])
      let b := f32s (d.getD 1 [])
      let z := f32s (d.getD 2 [])
      let out := rows.zipIdx.map fun r =>
        let xs := (List.range n).map fun j => elemToF32 (inFmt l) (elemAt (d.getD (3 + r.2) []) e j)
        let zt := f32s (d.getD (3 + rows.length + r.2) [])
        ((rowResult l g b xs).zipIdx.map fun v => chainFinish l (outFmt l) (fun src _ => if src = 2 then z.getD v.2 0 else zt.getD v.2 0) v.1)
      let w := q.2.xWrites c x ((rows.zip out).map fun r => (addrAt l 0x28 + 16 * r.1 * strAt l 0x28, packElems eo (r.2.map (·.code))))
      if w.1 then
        let all := out.flatten
        ((w.2.outFlags c x (all.any (·.ovf)) (all.any (·.nan))).addSteps c x kernel 64).itemEnd c x
      else w.2

/-- The frame of a row kernel. -/
def rowKind (c x kernel : Nat) : OpKind :=
  { ok := fun _ l => rowKernelOk l, fits := fun _ _ => true, total := fun _ l => ceilDiv (kRows l) 32, work := fun _ => [],
    isItem := fun _ _ => true, start := fun s _ => s, go := fun s => s.rowItem c x kernel }

/-- ELEMWISE. -/
def execElemwise (c x : Nat) (s : State) : Host.Outcome State Fault Refusal := .next (s.opRow c x 0x30 (rowKind c x 0x02))
/-- LAYERNORM. -/
def execLayernorm (c x : Nat) (s : State) : Host.Outcome State Fault Refusal := .next (s.opRow c x 0x31 (rowKind c x 0x03))
/-- RMSNORM. -/
def execRmsnorm (c x : Nat) (s : State) : Host.Outcome State Fault Refusal := .next (s.opRow c x 0x32 (rowKind c x 0x04))
/-- SOFTMAX. -/
def execSoftmax (c x : Nat) (s : State) : Host.Outcome State Fault Refusal := .next (s.opRow c x 0x33 (rowKind c x 0x05))
/-- REDUCE. -/
def execReduce (c x : Nat) (s : State) : Host.Outcome State Fault Refusal := .next (s.opRow c x 0x34 (rowKind c x 0x06))
/-- CAST. -/
def execCast (c x : Nat) (s : State) : Host.Outcome State Fault Refusal := .next (s.opRow c x 0x35 (rowKind c x 0x07))

/-! ## BOUNDS named by a Program -/

/-- The checks of a BOUNDS operator.
LOG 44 (DESIGN CHOICE). -/
def boundsOk (l : List Byte) : Bool :=
  kernelBase l && addrAt l 0x20 % 16 == 0 && addrAt l 0x28 % 16 == 0 && reachOk (addrAt l 0x20) [(kRows l, 16 * strAt l 0x20)] (kLen l) &&
  reachOk (addrAt l 0x28) [(ceilDiv (kRows l) 32, 16 * strAt l 0x28)] 256

/-- The element-bound mode of X: INT8 has block scales and no census, the formats that Table 03-4 gives no bound have a census, and an FP8
tensor has the one that Config says.
LOG 44 (DESIGN CHOICE). -/
def boundsMode (fmt : Nat) : Option Nat := if fmt = 0 ∨ ((fmt = 3 ∨ fmt = 4) ∧ Config.boundsScaled fmt = true) then some (scaleBound fmt) else none

/-- The K that LEN block bytes of a row cover: 32 of them to a scale. -/
def boundsK (l : List Byte) : Nat := if (boundsMode (inFmt l)).isSome then 32 * kLen l else kLen l

/-- 32 bounds of a bounds slot. -/
def boundBytes (mode : Option Nat) (d : List (List Nat)) : List Byte :=
  (List.range 32).flatMap fun i => leBytes 2 (ofSigned 16 (operandBound mode (d.getD i [])))

/-- A BOUNDS item: its 32 rows and its 32 columns of X bounded over the whole of each (R56), H resolved from the K of a row. -/
def State.boundsItem (s : State) (c x : Nat) : State :=
  let l := (s.til c x).desc
  let i := s.item c x
  let all := List.range (kRows l)
  if !s.kernelIn c 1 then s.kernelInvalid c (s.stepEngine c) x 1
  else
    let q := s.xReads c x (all.map fun r => (addrAt l 0x20 + 16 * r * strAt l 0x20, kLen l))
    match q.1 with
    | none => q.2
    | some d =>
      let row := fun (r : Nat) => (d.getD r []).map (·.toNat)
      let rows := (itemRows i (kRows l)).map row
      let cols := (itemRows i (kLen l)).map fun j => all.map fun r => (row r).getD j 0
      let mode := boundsMode (inFmt l)
      let bytes := boundBytes mode rows ++ boundBytes mode cols ++ leBytes 2 (resolveHeadroom 0 (boundsK l)) ++ leBytes 126 0
      let w := q.2.xWrite c x (addrAt l 0x28 + 16 * i * strAt l 0x28) bytes
      if w.1 then (((w.2.inSpecial c x ((rows ++ cols).any fun r => r.contains 0xFF)).addSteps c x 1 64).itemEnd c x) else w.2

/-- The frame of BOUNDS. -/
def boundsKind (c x : Nat) : OpKind :=
  { ok := fun _ l => boundsOk l, fits := fun _ _ => true, total := fun _ l => ceilDiv (kRows l) 32, work := fun _ => [],
    isItem := fun _ _ => true, start := fun s _ => s, go := fun s => s.boundsItem c x }

/-- BOUNDS. -/
def execBounds (c x : Nat) (s : State) : Host.Outcome State Fault Refusal := .next (s.opRow c x 0x38 (boundsKind c x))

/-! ## Pooling (R200) -/

/-- The checks shared by pooling and resize. -/
def poolBaseOk (l : List Byte) : Bool :=
  let w := parseArith (fieldAt l 8 8)
  arithFieldsOk (fieldAt l 8 8) && chainOk w.outFmt (descChain l) && convBaseOk l w.aFmt w.outFmt && groupsOk l && !w.aBs && w.bFmt == 0 &&
  !w.bBs && w.cin == 0 && decide (w.aFmt ≤ 7) && w.outFmt != 0xA && fieldAt l 0x1C 2 == fieldAt l 0x1E 2 &&
  (!bit (fieldAt l 0 4) 10 || [0x3, 0x4, 0x5, 0x6, 0x7].contains w.aFmt) && !bit (fieldAt l 0 4) 11

/-- The output pixels of one image. -/
def outPixels (l : List Byte) : Nat := (outH l * outW l).toNat

/-- The value nearest to a/b in FP32. -/
def quotF32 (a b : Nat) : Nat :=
  let q := a * 2 ^ 80 / max b 1
  toF32 (.fin false (2 * q + b2n (a * 2 ^ 80 % max b 1 != 0)) (-81))

/-- n channels of a pixel of X read, as element codes. -/
def State.pixelRun (s : State) (c x : Nat) (l : List Byte) (fmt b y q n : Nat) : Option (List Nat) × State :=
  let e := fmtBits fmt
  let r := s.xRead c x (addrAt l 0x30 + 256 * b * fieldAt l 0x58 4 + 16 * (y * fieldAt l 0x1A 2 + q) * strAt l 0x30) (ceilDiv (n * e) 8)
  (r.1.map fun d => (List.range n).map fun i => elemAt d e i, r.2)

/-- The channel results of an output pixel: its taps as FP32 lists, none where a tap lies outside the image. -/
def poolResult (l : List Byte) (taps : List (Option (List Nat))) (pad : Nat) : List Nat :=
  let n := fieldAt l 0x1C 2
  let at_ := fun (j : Nat) (t : Option (List Nat)) => match t with
    | some v => v.getD j 0
    | none => pad
  if fieldAt l 0 1 = 0x13 then (List.range n).map fun j => vmax (taps.map (at_ j))
  else if bit (fieldAt l 0 4) 12 then
    let inside := (taps.filter (·.isSome)).length
    (List.range n).map fun j => if inside = 0 then 0 else fmul (vsum (taps.map fun t => if t.isSome then at_ j t else 0)) (quotF32 1 inside)
  else (List.range n).map fun j => fmul (vsum (taps.map (at_ j))) (quotF32 1 taps.length)

/-- The taps of an output pixel read: with replicated borders every tap reads a pixel, and one outside the image is marked so for
COUNT_MODE. -/
def State.poolTaps (s : State) (c x : Nat) (l : List Byte) (b p : Nat) : Option (List (Option (List Nat))) × State :=
  let fmt := (parseArith (fieldAt l 8 8)).aFmt
  (List.range (fieldAt l 0x20 1 * fieldAt l 0x21 1)).foldl (fun acc t => match acc.1 with
    | none => acc
    | some d =>
      match tapPixel l p t with
      | none => (some (d ++ [none]), acc.2)
      | some (y, q) =>
        let r := acc.2.pixelRun c x l fmt b y q (fieldAt l 0x1C 2)
        (r.1.map fun v => d ++ [some (v.map (elemToF32 fmt))], r.2)) (some [], s)

/-- Whether tap t of output pixel p lies inside the image. -/
def tapInside (l : List Byte) (p t : Nat) : Bool :=
  let ow := max 1 (outW l).toNat
  let kw := max 1 (fieldAt l 0x21 1)
  (tapCoord (fieldAt l 0x18 2) (p / ow) (fieldAt l 0x22 1) (t / kw) (fieldAt l 0x24 1) (fieldAt l 0x28 1) false).isSome &&
  (tapCoord (fieldAt l 0x1A 2) (p % ow) (fieldAt l 0x23 1) (t % kw) (fieldAt l 0x25 1) (fieldAt l 0x2A 1) false).isSome

/-- The operand of a chain step of a convolution-layout kernel for pixel i and channel j: the slots of Table 04-10, whose 32 columns serve
channels 32 and up again (R200 names no slot for those).
LOG 148 (DESIGN CHOICE). -/
def State.convOperand (s : State) (c i j src slot : Nat) : Nat :=
  match src with
  | 2 => s.ldn (spAddr c (slot * 256) + 4 * (j % 32)) 4
  | 3 => s.ldn (spAddr c (slot * 256) + 4 * (32 * (i % 32) + j % 32)) 4
  | _ => 0

/-- A read of an engine's chain operands; false where it failed. -/
def State.chainData (s : State) (c x : Nat) (l : List Byte) : Bool × State :=
  let runs := chainSlots (chainSteps (descChain l))
  match runs.find? fun r => !s.slotsOk c x r.1 r.2 .read with
  | some r => (false, s.bbViolation (.engine c 0 x) c x (127 * 2 ^ 41 + spAddr c (r.1 * 256)))
  | none =>
    let q := s.readSlots (.engine c (s.stepEngine c) x) c (some (3, s.stepEngine c)) runs
    match q.1 with
    | none => (true, q.2)
    | some e => (false, q.2.abortCtx c x e.cause)

/-- Results of output pixels finished, stored and counted: the end of a convolution-layout kernel's item.
LOG 43 (DESIGN CHOICE). -/
def State.pixelsOut (s : State) (c x kernel : Nat) (l : List Byte) (b : Nat) (out : List (Nat × List Nat)) : State :=
  let fmt := (parseArith (fieldAt l 8 8)).outFmt
  let eo := outBits l fmt
  let q := s.chainData c x l
  if !q.1 then q.2
  else
    let done := out.map fun r => (r.1, r.2.zipIdx.map fun v => chainFinish l fmt (q.2.convOperand c r.1 v.2) v.1)
    let w := q.2.xWrites c x (done.map fun r =>
      (addrAt l 0x40 + 256 * b * fieldAt l 0x5C 4 + 16 * r.1 * strAt l 0x40, packElems eo (r.2.map (·.code))))
    if w.1 then
      let all := done.flatMap Prod.snd
      ((w.2.outFlags c x (all.any (·.ovf)) (all.any (·.nan))).addSteps c x kernel 64).itemEnd c x
    else w.2

/-- The image and the pixels of the held item of pooling or resize. -/
def State.pixelItem (s : State) (c x : Nat) : Nat × List Nat :=
  let l := (s.til c x).desc
  let per := max 1 (ceilDiv (outPixels l) 32)
  (s.item c x / per, itemRows (s.item c x % per) (outPixels l))

/-- A pooling item. -/
def State.poolItem (s : State) (c x kernel : Nat) : State :=
  let l := (s.til c x).desc
  let it := s.pixelItem c x
  let pad := elemToF32 (parseArith (fieldAt l 8 8)).aFmt (padCode l)
  if !s.kernelIn c kernel then s.kernelInvalid c (s.stepEngine c) x kernel
  else
    let q := it.2.foldl (fun (acc : Option (List (Nat × List Nat)) × State) p => match acc.1 with
      | none => acc
      | some d =>
        let r := acc.2.poolTaps c x l it.1 p
        (r.1.map fun taps =>
          let marked := if bit (fieldAt l 0 4) 12 then taps.zipIdx.map fun t => if tapInside l p t.2 then t.1 else none else taps
          d ++ [(p, poolResult l marked pad)], r.2)) (some [], s)
    match q.1 with
    | none => q.2
    | some out => q.2.pixelsOut c x kernel l it.1 out

/-- The frame of pooling and resize. -/
def pixelKind (ok : List Byte → Bool) (go : State → State) : OpKind :=
  { ok := fun _ l => ok l, fits := fun _ _ => true, total := fun _ l => ceilDiv (outPixels l) 32 * fieldAt l 0x26 2, work := fun _ => [],
    isItem := fun _ _ => true, start := fun s _ => s, go := go }

/-- POOL_MAX. -/
def execPoolMax (c x : Nat) (s : State) : Host.Outcome State Fault Refusal := .next (s.opRow c x 0x13 (pixelKind poolBaseOk fun s => s.poolItem c x 0x08))
/-- POOL_AVG. -/
def execPoolAvg (c x : Nat) (s : State) : Host.Outcome State Fault Refusal := .next (s.opRow c x 0x14 (pixelKind poolBaseOk fun s => s.poolItem c x 0x09))

/-! ## Resize (R201) -/

/-- The integer part of a non-negative FP32 value. -/
def floorF32 (v : Nat) : Nat :=
  match f32 v with
  | .fin false sig e => if e < 0 then sig / 2 ^ (-e).toNat else sig * 2 ^ e.toNat
  | _ => 0

/-- −0.5 and 0.5 in FP32. -/
def negHalf32 : Nat := 0xBF000000
/-- 0.5. -/
def half32 : Nat := 0x3F000000

/-- One axis: the two input indices and the fraction between them. -/
def resizeAxis (mode nIn nOut o : Nat) : Nat × Nat × Nat :=
  let fo := fOfInt (o : Int)
  let scale := if mode = 2 then (if nOut = 1 then 0 else quotF32 (nIn - 1) (nOut - 1)) else quotF32 nIn nOut
  if mode = 0 then
    let i := min (floorF32 (fmul (fadd fo half32) scale)) (nIn - 1)
    (i, i, 0)
  else
    let src := if mode = 2 then fmul fo scale else ffma (fadd fo half32) scale negHalf32
    let src := fmin (fmax src 0) (fOfInt ((nIn : Int) - 1))
    let i0 := floorF32 src
    (i0, min (i0 + 1) (nIn - 1), fsub src (fOfInt (i0 : Int)))

/-- The results of one output pixel. -/
def resizeResult (mode : Nat) (fx fy : Nat) (v00 v01 v10 v11 : List Nat) : List Nat :=
  if mode = 0 then v00
  else (List.range v00.length).map fun j =>
    let g := fun (l : List Nat) => l.getD j 0
    let h0 := ffma fx (fsub (g v01) (g v00)) (g v00)
    let h1 := ffma fx (fsub (g v11) (g v10)) (g v10)
    ffma fy (fsub h1 h0) h0

/-- A resize item. -/
def State.resizeItem (s : State) (c x : Nat) : State :=
  let l := (s.til c x).desc
  let it := s.pixelItem c x
  let fmt := (parseArith (fieldAt l 8 8)).aFmt
  let mode := bits (fieldAt l 0 4) 14 13
  let n := fieldAt l 0x1C 2
  if !s.kernelIn c 0x0A then s.kernelInvalid c (s.stepEngine c) x 0x0A
  else
    let q := it.2.foldl (fun (acc : Option (List (Nat × List Nat)) × State) p => match acc.1 with
      | none => acc
      | some d =>
        let ow := max 1 (outW l).toNat
        let ay := resizeAxis mode (fieldAt l 0x18 2) (outH l).toNat (p / ow)
        let ax := resizeAxis mode (fieldAt l 0x1A 2) (outW l).toNat (p % ow)
        let pts := if mode = 0 then [(ay.1, ax.1)] else [(ay.1, ax.1), (ay.1, ax.2.1), (ay.2.1, ax.1), (ay.2.1, ax.2.1)]
        let r := pts.foldl (fun (a : Option (List (List Nat)) × State) pt => match a.1 with
          | none => a
          | some vs =>
            let w := a.2.pixelRun c x l fmt it.1 pt.1 pt.2 n
            (w.1.map fun v => vs ++ [v.map (elemToF32 fmt)], w.2)) (some [], acc.2)
        (r.1.map fun vs => d ++ [(p, resizeResult mode ax.2.2 ay.2.2 (vs.getD 0 []) (vs.getD 1 []) (vs.getD 2 []) (vs.getD 3 []))], r.2)) (some [], s)
    match q.1 with
    | none => q.2
    | some out => q.2.pixelsOut c x 0x0A l it.1 out

/-- RESIZE. -/
def execResize (c x : Nat) (s : State) : Host.Outcome State Fault Refusal := .next (s.opRow c x 0x15 (pixelKind poolBaseOk fun s => s.resizeItem c x))

/-! ## COPY and CENSUS -/

/-- The frame of a copy-layout operator: its one item is the embedded Mover descriptor.
LOG 44 (DESIGN CHOICE). -/
def copyKind (c x : Nat) : OpKind :=
  { ok := fun _ l => fieldAt l 0x48 56 == 0, fits := fun _ _ => true, total := fun _ _ => 1, work := fun _ => [], isItem := fun _ _ => true,
    start := fun s _ => s.modTil c x fun t => { t with work := [.mov (fieldAt t.desc 8 64), .sync] }, go := fun s => s.itemEnd c x }

/-- COPY. -/
def execCopy (c x : Nat) (s : State) : Host.Outcome State Fault Refusal := .next (s.opRow c x 0x40 (copyKind c x))
/-- CENSUS. -/
def execCensus (c x : Nat) (s : State) : Host.Outcome State Fault Refusal := .next (s.opRow c x 0x41 (copyKind c x))

end Sys2Proof.Machine
end

