-- ==== Sys2Proof/Machine/Dpp.lean ====
section
/-! DEFINITION. Detection Post-Processors (R203–R219): the descriptor, decoding, order, suppression, overlap, jobs. -/

namespace Sys2Proof.Machine

/-! ## The descriptor (R206, R207) -/

/-- ENC. -/
def detEnc (l : List Byte) : Nat := bits (fieldAt l 0 4) 10 8
/-- The DPP named. -/
def detDpp (l : List Byte) : Nat := bits (fieldAt l 0 4) 25 24
/-- Whether an encoding is rotated. -/
def rotated (enc : Nat) : Bool := enc == 3 || enc == 4
/-- Box values and prior values of an encoding (Table 09-3). -/
def encSizes (enc : Nat) : Nat × Nat :=
  match enc with
  | 0 => (4, 4)
  | 1 => (4, 2)
  | 2 => (4, 0)
  | 3 => (5, 6)
  | _ => (5, 0)
/-- Bytes of a score, a box value. -/
def scoreBytes (l : List Byte) : Nat := fmtBits (bits (fieldAt l 0 4) 19 16) / 8
/-- Bytes of a box value. -/
def boxBytes (l : List Byte) : Nat := fmtBits (bits (fieldAt l 0 4) 23 20) / 8

/-- Whether a detection descriptor is accepted, its DPP apart. -/
def detectOk (l : List Byte) : Bool :=
  let c := fieldAt l 0 4
  let n := fieldAt l 8 2
  let sz := encSizes (detEnc l)
  let rec_ := fieldAt l 0xA 2 * scoreBytes l
  decide (detEnc l < 5) && bits c 15 13 == 0 && bits c 31 26 == 0 && [0x0, 0x6, 0x7, 0x8].contains (bits c 19 16) && [0x6, 0x7, 0x8].contains (bits c 23 20) &&
  decide (1 ≤ n) && decide (n ≤ 16384) && decide (1 ≤ fieldAt l 0xA 2) && decide (fieldAt l 0xA 2 ≤ 256) && decide (1 ≤ fieldAt l 0xC 2) &&
  decide (fieldAt l 0xC 2 ≤ 1024) && decide (fieldAt l 0xE 1 ≤ 16) && fieldAt l 0xF 1 == 0 && fieldAt l 0x16 2 == 0 && fieldAt l 0x2C 4 == 0 &&
  fieldAt l 0x4E 2 == 0 && fieldAt l 0x50 48 == 0 && decide (rec_ ≤ strAt l 0x30) && decide (sz.1 * boxBytes l ≤ strAt l 0x38) &&
  (sz.2 == 0 || decide (4 * sz.2 ≤ strAt l 0x40)) && addrAt l 0x48 % 16 == 0 &&
  reachOk (addrAt l 0x30) [(n, strAt l 0x30)] rec_ && reachOk (addrAt l 0x38) [(n, strAt l 0x38)] (sz.1 * boxBytes l) &&
  (sz.2 == 0 || reachOk (addrAt l 0x40) [(n, strAt l 0x40)] (4 * sz.2)) && inVa (addrAt l 0x48) (32 * fieldAt l 0xC 2)

/-! ## Decoding (R208, R209) -/

/-- The decoded values of a candidate from its box and prior values. -/
def decodeBox (l : List Byte) (bx pr : List Nat) : List Nat :=
  let v := fun (i : Nat) => bx.getD i 0
  let p := fun (i : Nat) => pr.getD i 0
  let vr := fun (i : Nat) => fieldAt l (0x18 + 4 * i) 4
  let st := fieldAt l 0x28 4
  match detEnc l with
  | 0 =>
    let cx := ffma (fmul (v 0) (vr 0)) (p 2) (p 0)
    let cy := ffma (fmul (v 1) (vr 1)) (p 3) (p 1)
    let w := fmul (p 2) (fexp (fmul (v 2) (vr 2)))
    let h := fmul (p 3) (fexp (fmul (v 3) (vr 3)))
    [ffma negHalf32 w cx, ffma negHalf32 h cy, ffma half32 w cx, ffma half32 h cy]
  | 1 => [ffma (fneg (v 0)) st (p 0), ffma (fneg (v 1)) st (p 1), ffma (v 2) st (p 0), ffma (v 3) st (p 1)]
  | 3 => [ffma (v 0) (p 5) (p 0), ffma (v 1) (p 5) (p 1), fmul (p 2) (fexp (v 2)), fmul (p 3) (fexp (v 3)), fadd (p 4) (v 4)]
  | _ => bx

/-- round_ties_even(v·2^k) exactly; magnitudes beyond 2^62 are cut off, far above the limit of R209. -/
def gridOf (v : Nat) (k : Int) : Int := (roundInt (-(2 ^ 62)) (2 ^ 62) ((f32 v).scale k)).1

/-- The grid form of a box: x1, y1, x2, y2, or cx, cy, hl, hw and the angle code. -/
def gridBox (l : List Byte) (d : List Nat) : List Int :=
  let f : Int := fieldAt l 0xE 1
  let g := fun (i : Nat) (k : Int) => gridOf (d.getD i 0) k
  if rotated (detEnc l) then
    [g 0 f, g 1 f, g 2 (f - 1), g 3 (f - 1), (roundInt (-(2 ^ 62)) (2 ^ 62) ((f32 (d.getD 4 0)).mul (f32 0x4622F983))).1 % 65536]
  else [g 0 f, g 1 f, g 2 f, g 3 f]

/-- Whether an FP32 code is finite. -/
def finite32 (v : Nat) : Bool := match f32 v with
  | .fin _ _ _ => true
  | _ => false

/-- Whether a candidate is valid (R209). -/
def boxValid (l : List Byte) (d : List Nat) (g : List Int) : Bool :=
  let v := fun (i : Nat) => g.getD i 0
  (d.all finite32) && ((g.take 4).all fun q => decide (q.natAbs < 2 ^ 30)) &&
  (if rotated (detEnc l) then !flt 0x44800000 (d.getD 4 0 % 2 ^ 31) && decide (0 < v 2) && decide (0 < v 3)
   else decide (v 0 < v 2) && decide (v 1 < v 3))

/-! ## Overlap (R212, R213) -/

/-- IoU of two axis-aligned boxes on the grid. -/
def iouAxis (a b : List Int) : Nat :=
  let va := fun (i : Nat) => a.getD i 0
  let vb := fun (i : Nat) => b.getD i 0
  let iw := max 0 (min (va 2) (vb 2) - max (va 0) (vb 0))
  let ih := max 0 (min (va 3) (vb 3) - max (va 1) (vb 1))
  let i := iw * ih
  let u := (va 2 - va 0) * (va 3 - va 1) + (vb 2 - vb 0) * (vb 3 - vb 1) - i
  if u ≤ 0 then 0 else (min 0xFFFF (65536 * i / u)).toNat

/-- An exact quotient rounded to nearest, ties to even. -/
def rdiv (a b : Int) : Int :=
  let q : Int := divRoundEven a.natAbs b.natAbs
  if (a < 0) != (b < 0) then -q else q
where
  /-- The quotient of two natural numbers rounded to nearest, ties to even. -/
  divRoundEven (n d : Nat) : Nat :=
    let q := n / max d 1
    let r := n % max d 1
    if 2 * r > d ∨ (2 * r = d ∧ q % 2 = 1) then q + 1 else q

/-- π in units of 2^-128. -/
def pi128 : Int := 1069028584064966747859680373161870783301

/-- A cosine (odd = false) or sine (odd = true) of an angle in units of 2^-128 by its series, of at most π/4. -/
def trigSeries (odd : Bool) (x : Int) : Int :=
  let one : Int := 2 ^ 128
  let first := if odd then x else one
  ((List.range 24).foldl (fun (acc : Int × Int) k =>
    let d : Int := if odd then ((2 * k + 2) * (2 * k + 3) : Nat) else ((2 * k + 1) * (2 * k + 2) : Nat)
    let t := -(acc.2 * x / one * x / one) / d
    (acc.1 + t, t)) (first, first)).1

/-- 2^30·cos of r 4,096ths of a turn, 0 ≤ r ≤ 1,024, rounded to the nearest integer. -/
def cosQuarter (r : Nat) : Int :=
  let v := if r ≤ 512 then trigSeries false (pi128 * 2 * (r : Int) / 4096) else trigSeries true (pi128 * 2 * ((1024 - r : Nat) : Int) / 4096)
  (v + 2 ^ 97) / 2 ^ 98

/-- cos_tab of an angle code. -/
def cosTab (t : Int) : Int :=
  let k := (t % 65536).toNat / 16
  let r := k % 1024
  match k / 1024 with
  | 0 => cosQuarter r
  | 1 => -cosQuarter (1024 - r)
  | 2 => -cosQuarter r
  | _ => cosQuarter (1024 - r)

/-- The corners of a rotated box. -/
def cornersOf (b : List Int) : List (Int × Int) :=
  let v := fun (i : Nat) => b.getD i 0
  let c := cosTab (v 4)
  let sn := cosTab (v 4 - 0x4000)
  let ax := rdiv (v 2 * c) (2 ^ 30); let ay := rdiv (v 2 * sn) (2 ^ 30)
  let bx := rdiv (-(v 3) * sn) (2 ^ 30); let by_ := rdiv (v 3 * c) (2 ^ 30)
  [(v 0 + ax + bx, v 1 + ay + by_), (v 0 - ax + bx, v 1 - ay + by_), (v 0 - ax - bx, v 1 - ay - by_), (v 0 + ax - bx, v 1 + ay - by_)]

/-- Side of a point to an edge. -/
def sideOf (e0 e1 p : Int × Int) : Int := (e1.1 - e0.1) * (p.2 - e0.2) - (e1.2 - e0.2) * (p.1 - e0.1)

/-- A polygon clipped by an edge. -/
def clipEdge (e0 e1 : Int × Int) (poly : List (Int × Int)) : List (Int × Int) :=
  let rot := poly.drop 1 ++ poly.take 1
  (poly.zip rot).flatMap fun e =>
    let p := e.1; let q := e.2
    let dp := sideOf e0 e1 p
    let dq := sideOf e0 e1 q
    (if 0 ≤ dp then [p] else []) ++
    (if decide (0 ≤ dp) != decide (0 ≤ dq) then
      [(p.1 + rdiv ((q.1 - p.1) * dp) (dp - dq), p.2 + rdiv ((q.2 - p.2) * dp) (dp - dq))] else [])

/-- Twice the signed area of a polygon. -/
def shoelace (poly : List (Int × Int)) : Int :=
  ((poly.zip (poly.drop 1 ++ poly.take 1)).map fun (e : (Int × Int) × (Int × Int)) => e.1.1 * e.2.2 - e.2.1 * e.1.2).foldl (· + ·) 0

/-- IoU of two rotated boxes: A clipped by the edges of B. -/
def iouRot (a b : List Int) : Nat :=
  let pa := cornersOf a
  let pb := cornersOf b
  let e := fun (i : Nat) => pb.getD (i % 4) (0, 0)
  let poly := (List.range 4).foldl (fun poly i => clipEdge (e i) (e (i + 1)) poly) pa
  let i2 : Int := (shoelace poly).natAbs
  let u := ((shoelace pa).natAbs : Int) + ((shoelace pb).natAbs : Int) - i2
  if u ≤ 0 then 0 else (min 0xFFFF (65536 * i2 / u)).toNat

/-! ## Entries (R210, R211) -/

/-- An entry: score, candidate, class, decoded values, grid box. -/
structure DetEntry where
  score : Nat
  cand : Nat
  cls : Nat
  box : List Nat
  grid : List Int
  deriving DecidableEq, Repr

/-- A candidate as read: scores, box values, prior values, in FP32. -/
structure DetCand where
  scores : List Nat
  box : List Nat
  prior : List Nat
  deriving DecidableEq, Repr

/-- Whether a score is at or above the threshold. -/
def admitted (l : List Byte) (v : Nat) : Bool := !isNan32 v && !isNan32 (fieldAt l 0x10 4) && !flt v (fieldAt l 0x10 4)

/-- The best class of a candidate: the highest score, the lower class on a tie. -/
def bestClass (sc : List Nat) : Option Nat :=
  (sc.zipIdx.foldl (fun (best : Option (Nat × Nat)) e =>
    if isNan32 e.1 then best
    else match best with
      | none => some (e.1, e.2)
      | some b => if flt b.1 e.1 then some (e.1, e.2) else best) none).map Prod.snd

/-- The entries of valid candidate n. -/
def entriesOf (l : List Byte) (n : Nat) (q : DetCand) (d : List Nat) (g : List Int) : List DetEntry :=
  let cls := if bit (fieldAt l 0 4) 12 then List.range q.scores.length else (bestClass q.scores).toList
  (cls.filter fun k => admitted l (q.scores.getD k 0)).map fun k => { score := q.scores.getD k 0, cand := n, cls := k, box := d, grid := g }

/-- The walk: an entry is kept unless a kept entry of its group overlaps it by more than IOU_THRESH. -/
def suppress (l : List Byte) (entries : List DetEntry) : List DetEntry :=
  let th := fieldAt l 0x14 2
  let iou := fun (a b : DetEntry) => if rotated (detEnc l) then iouRot a.grid b.grid else iouAxis a.grid b.grid
  entries.foldl (fun kept e =>
    if fieldAt l 0xC 2 ≤ kept.length then kept
    else if kept.any fun k => (!bit (fieldAt l 0 4) 11 || k.cls == e.cls) && decide (th < iou e k) then kept
    else kept ++ [e]) []

/-- A kept record (Table 09-4). -/
def DetEntry.bytes (e : DetEntry) : List Byte :=
  leBytes 4 e.score ++ leBytes 2 e.cand ++ leBytes 1 e.cls ++ leBytes 1 0 ++ ((List.range 5).flatMap fun i => leBytes 4 (e.box.getD i 0)) ++ leBytes 4 0

/-- What a job gives: kept records, invalid candidates, entries lost to capacity. -/
def detectResult (l : List Byte) (cands : List DetCand) : List (List Byte) × Nat × Nat :=
  let dec := cands.zipIdx.map fun q =>
    let d := decodeBox l q.1.box q.1.prior
    (q.2, q.1, d, gridBox l d)
  let good := dec.filter fun q => boxValid l q.2.2.1 q.2.2.2
  let all := sortBy (fun (a b : DetEntry) => !flt a.score b.score) (good.flatMap fun q => entriesOf l q.1 q.2.1 q.2.2.1 q.2.2.2)
  ((suppress l (all.take 16384)).map DetEntry.bytes, cands.length - good.length, all.length - 16384)

/-! ## Jobs (R204, R205, R214–R217) -/

/-- The terms of T_bound (R216): the ticks by which a job has decoded, sorted and suppressed, and T_bound. -/
def detEnds (l : List Byte) : (Nat × Nat × Nat) × Nat :=
  let n := fieldAt l 8 2
  let sz := encSizes (detEnc l)
  let bin := n * (fieldAt l 0xA 2 * scoreBytes l + sz.1 * boxBytes l + 4 * sz.2)
  let e := min 16384 (n * (if bit (fieldAt l 0 4) 12 then fieldAt l 0xA 2 else 1))
  let keep := fieldAt l 0xC 2
  let dec := 64 + max (ceilDiv bin 128) (ceilDiv n 2)
  let sort := dec + ceilDiv (e * clog2 e) 16
  let sup := sort + ceilDiv (e * keep) (if rotated (detEnc l) then 2 else 16)
  ((dec, sort, sup), sup + keep)

/-- T_bound of a job. -/
def detBound (l : List Byte) : Nat := (detEnds l).2

/-- The slots of the arena that hold the kept records. -/
def detSlots (l : List Byte) : Nat := ceilDiv (32 * fieldAt l 0xC 2) 256

/-! ### Staging (R204) -/

/-- The bytes that a candidate has in each of the three streams. -/
def detSizes (l : List Byte) : List Nat :=
  let sz := encSizes (detEnc l)
  [fieldAt l 0xA 2 * scoreBytes l, sz.1 * boxBytes l, 4 * sz.2]

/-- The slots of eight candidates of each stream. -/
def detRuns (l : List Byte) : List Nat := (detSizes l).map fun e => ceilDiv (8 * e) 256

/-- The slots of a ring place, which holds eight candidates of each stream. -/
def detPlace (l : List Byte) : Nat := (detRuns l).sum

/-- The blocks of a job: eight candidates each. -/
def detBlocks (l : List Byte) : Nat := ceilDiv (fieldAt l 8 2) 8

/-- The candidates of block b. -/
def detCount (l : List Byte) (b : Nat) : Nat := min 8 (fieldAt l 8 2 - 8 * b)

/-- The slots of block b in an arena that starts at `first`: each stream's first slot, its slots in use, the bytes of a candidate. Blocks take
the two places of the ring in turn, behind the records' slots. -/
def detAt (l : List Byte) (first b : Nat) : List (Nat × Nat × Nat) :=
  let base := first + detSlots l + b % 2 * detPlace l
  (List.range 3).map fun k =>
    let e := (detSizes l).getD k 0
    (base + ((detRuns l).take k).sum, ceilDiv (detCount l b * e) 256, e)

/-- The transfers that stage block b. -/
def detLoads (l : List Byte) (first b : Nat) : List Work :=
  ((detAt l first b).zip [0x30, 0x38, 0x40]).filterMap fun q =>
    let e := q.1.2.2
    if e = 0 then none
    else
      let x : Xfer :=
        { op := 0, srcTag := false, srcLoc := false, dstLoc := true, dstTag := true, src := addrAt l q.2 + 8 * b * strAt l q.2, dst := q.1.1 * 256,
          run := e, dims := splitDim (detCount l b) (strAt l q.2) e }
      some (.mov x.desc)

/-- The work of a DETECT item: its rings empty, the first two blocks staged, the job handed over, the other blocks behind them.
LOG 158 (DESIGN CHOICE). -/
def detWork (l : List Byte) (first : Nat) : List Work :=
  let load := fun (b : Nat) => detLoads l first b
  .empty first (detSlots l + 2 * detPlace l) :: ((List.range (min 2 (detBlocks l))).flatMap load ++
    .detect :: (List.range (detBlocks l - 2)).flatMap fun b => load (b + 2))

/-- The bytes of block b of a job taken from its ring, by stream, its slots empty after; none where they are not all full, or where a read has
failed, which ends the task (R115, R217). -/
def State.detTake (s : State) (d : Nat) (j : DppJob) (b : Nat) : Option (List (List Byte)) × State :=
  let l := j.desc
  let at_ := detAt l (s.arena j.cluster j.ctx).1 b
  if !(at_.all fun q => (List.range q.2.1).all fun i => s.full j.cluster (q.1 + i)) then (none, s)
  else
    at_.foldl (fun acc q => match acc.1 with
      | none => acc
      | some o => afterRead (acc.2.memRead (.dpp d) (spAddr j.cluster (q.1 * 256)) (detCount l b * q.2.2))
          (fun e s => (none, s.abortCtx j.cluster j.ctx e.cause)) fun l s => (some (o ++ [l]), s.setTags j.cluster q.1 q.2.1 false)) (some [], s)

/-- The candidates of a job whose input has been read. -/
def DppRun.cands (r : DppRun) : List DetCand :=
  let l := r.job.desc
  let vals := fun (code : Nat) (d : List Byte) => (elemsOf code d).map (elemToF32 code)
  let at_ := fun (d : List Byte) (k i : Nat) => (d.drop (i * (detSizes l).getD k 0)).take ((detSizes l).getD k 0)
  (List.range (fieldAt l 8 2)).map fun i =>
    { scores := vals (bits (fieldAt l 0 4) 19 16) (at_ r.scores 0 i), box := vals (bits (fieldAt l 0 4) 23 20) (at_ r.boxes 1 i), prior := f32s (at_ r.priors 2 i) }

/-- A running job with a block more; with its last one its records are known. -/
def DppRun.take (r : DppRun) (d : List (List Byte)) : DppRun :=
  let r := { r with taken := r.taken + 1, scores := r.scores ++ d.getD 0 [], boxes := r.boxes ++ d.getD 1 [], priors := r.priors ++ d.getD 2 [] }
  if r.taken < detBlocks r.job.desc then r
  else
    let q := detectResult r.job.desc r.cands
    { r with read := true, scores := [], boxes := [], priors := [], records := q.1, dropped := q.2.1, lost := q.2.2 }

/-- DPP d goes on reading: at most the two blocks that its ring holds.
LOG 158 (DESIGN CHOICE). -/
def State.dppRead (s : State) (d : Nat) : State :=
  (List.range 2).foldl (fun s _ => match (s.dpp d).running with
    | none => s
    | some r =>
      if r.read then s
      else
        let q := s.detTake d r.job r.taken
        match q.1 with
        | none => q.2
        | some b => q.2.setDpp d { q.2.dpp d with running := some (r.take b) }) s

/-- The contexts that a full queue of DPP d blocks are ready again (R295). -/
def State.dppRoom (s : State) (d : Nat) : State :=
  (List.range s.nClusters).foldl (fun s c => (List.range 4).foldl (fun s x =>
    if s.ctxState c x = 2 ∧ s.blockCause c x = 4 ∧ detDpp (s.til c x).desc = d then s.setCtxState c x 1 0 else s) s) s

/-- DPP_JOB_START: an idle DPP takes the next queued job; a running one goes on reading what its tiler stages. -/
def execDppJobStart (d : Nat) (s : State) : Host.Outcome State Fault Refusal :=
  .next <| match (s.dpp d).running, (s.dpp d).queue with
    | none, j :: r =>
      if decide (d < s.nDpps) then
        let run : DppRun :=
          { job := j, start := s.ct, bound := detBound j.desc, ends := (detEnds j.desc).1, taken := 0, scores := [], boxes := [], priors := [],
            read := false, records := [], dropped := 0, lost := 0, ended := false }
        ((s.setDpp d { queue := r, running := some run }).dppRoom d).dppRead d
      else s
    | _, _ => s.dppRead d

/-- A job has ended: counters and its records in the arena of its cluster, their slots full. -/
def State.dppEnd (s : State) (d : Nat) (r : DppRun) : State :=
  let s := s.setDpp d { s.dpp d with running := some { r with ended := true } }
  let s := (s.countUp (dppReg d 8) 1).countUp (dppReg d 0xC) r.dropped
  let s := (s.countUp (dppReg d 0x10) r.lost).wr (dppReg d 0x14) r.records.length
  let s := s.wr (dppReg d 0x18) (min r.bound (s.ct - r.start))
  let s := if r.lost > 0 then s.orReg (dppReg d 0) (2 ^ 10) else s
  let slot := (s.arena r.job.cluster r.job.ctx).1
  let bytes := r.records.flatten
  let w := s.memWrite (.dpp d) (spAddr r.job.cluster (slot * 256)) bytes
  w.2.setTags r.job.cluster slot (ceilDiv bytes.length 256) true

/-- The tiler is told: it copies the kept records out, and the DPP is free. -/
def State.dppSignal (s : State) (d : Nat) (r : DppRun) : State :=
  let s := s.setDpp d { s.dpp d with running := none }
  let slot := (s.arena r.job.cluster r.job.ctx).1
  let n := r.records.length
  let copy := if n = 0 then [] else [copyOut (slot * 256) (addrAt r.job.desc 0x48) (32 * n) 1 0 0, .sync, .empty slot (ceilDiv (32 * n) 256)]
  s.modTil r.job.cluster r.job.ctx fun t => { t with own := 2, items := n, work := copy }

/-- The running job of DPP d once its input has been read; a job whose input is not staged in time waits for it. -/
def State.dppReady (s : State) (d : Nat) : Option DppRun := (s.dpp d).running.filter (·.read)

/-- DPP_JOB_END: the running job ends; an elastic one signals its tiler, a timed one holds to T_bound. -/
def execDppJobEnd (d : Nat) (s : State) : Host.Outcome State Fault Refusal :=
  .next <|
    let s := s.dppRead d
    match s.dppReady d with
    | some r =>
      if r.ended then s
      else
        let s := s.dppEnd d r
        if r.job.timed then s else s.dppSignal d r
    | none => s

/-- DPP_T_BOUND: a timed job signals exactly T_bound ct after it started. -/
def execDppTBound (d : Nat) (s : State) : Host.Outcome State Fault Refusal :=
  .next <|
    let s := s.dppRead d
    match s.dppReady d with
    | some r =>
      if r.job.timed && decide (r.start + r.bound ≤ s.ct) then
        let s := if r.ended then s else s.dppEnd d r
        s.dppSignal d r
      else s
    | none => s

/-! ## DETECT (R205) -/

/-- Whether the DPP named belongs to the task's partition and takes its class. -/
def State.detectMay (s : State) (c x : Nat) (l : List Byte) : Bool :=
  let d := detDpp l
  decide (d < s.nDpps) && (s.dppOwner d).isSome && s.dppOwner d == s.ownerOf c && bit (s.rd (dppReg d 4)) 4 == (x == 4)

/-- A job enters a DPP's queue: behind earlier ones, and among those of the same tick in ascending cluster. -/
def State.dppQueue (s : State) (d : Nat) (j : DppJob) : State :=
  let v := s.dpp d
  let tie := v.queue.any fun q => q.at_ == j.at_ && !q.timed && !j.timed
  let s := if tie then s.ndTiming (s.ownerOf j.cluster) else s
  let before := v.queue.filter fun q => decide (q.at_ < j.at_) || decide (q.cluster < j.cluster)
  let after := v.queue.filter fun q => !(decide (q.at_ < j.at_) || decide (q.cluster < j.cluster))
  s.setDpp d { v with queue := before ++ j :: after }

/-- The job of the operator in hand handed to its DPP; a full queue makes it wait, an elastic context blocked, and a timed job that finds the
queue full or the DPP busy raises SLOT_CONFLICT once (R205). -/
def State.detectHand (s : State) (c x : Nat) : State :=
  let t := s.til c x
  let d := detDpp t.desc
  let v := s.dpp d
  let busy := v.running.isSome || !v.queue.isEmpty
  let s := match s.ownerOf c with
    | some p => if x = 4 ∧ t.own = 0 ∧ busy = true then s.slotConflict p c d else s
    | none => s
  if 4 ≤ v.queue.length then (s.modTil c x fun t => { t with own := 3 }).block c x 4
  else ((s.dppQueue d { cluster := c, ctx := x, timed := x == 4, desc := t.desc, at_ := s.ct }).modTil c x fun t => { t with own := 1 }).popWork c x

/-- What remains of a DETECT item once its work has been emitted: a dropped one starts again, one whose records have been copied ends.
The kept count stands in ITEMS (R214). -/
def State.detectGo (s : State) (c x : Nat) : State :=
  match (s.til c x).own with
  | 0 => s.modTil c x fun t => { t with work := detWork t.desc (s.arena c x).1 }
  | 2 => s.setItem c x 0xFFFFFFFF
  | _ => s

/-- The frame of DETECT. -/
def detectKind (c x : Nat) : OpKind :=
  { ok := fun s l => detectOk l && s.detectMay c x l, fits := fun s l => decide (detSlots l + 2 * detPlace l ≤ (s.arena c x).2), total := fun _ _ => 1,
    work := fun _ => [], isItem := fun _ _ => true, start := fun s _ => s, go := fun s => s.detectGo c x }

/-- DETECT. -/
def execDetect (c x : Nat) (s : State) : Host.Outcome State Fault Refusal :=
  .next <|
    let s := s.opRow c x 0x28 (detectKind c x)
    if s.headIs c x (fun w => w == .detect) && (s.opNow c x == some 0x28) then s.detectHand c x else s

end Sys2Proof.Machine
end

