-- ==== Sys2Proof/Machine/Attention.lean ====
section
/-! DEFINITION. Attention (R220–R245): the Sequence Table, builds and commits of steps, ATTN_STEP with its append and attend items,
ACCEPT. -/

namespace Sys2Proof.Machine

/-! ## The Sequence Table (R222, R223) -/

/-- Word w of entry q of partition p's table. -/
def seqReg (p q w : Nat) : Nat := stReg (0x80000 + p * 0x8000 + 32 * q + 4 * w)
/-- A register of partition p's table (Table 10-7). -/
def seqCtl (p o : Nat) : Nat := stReg (0x2000 + 0x40 * p + o)

/-- A Sequence Table entry (Table 10-2). -/
structure SeqEntry where
  state : Nat
  chunked : Bool
  cand : Nat
  user : Nat
  len : Nat
  rem : Nat
  chunk : Nat
  gen : Nat
  region : Nat
  root : Nat
  maxLen : Nat
  deriving DecidableEq, Repr

/-- The entry of eight words. -/
def seqEntry (w : Nat → Nat) : SeqEntry :=
  { state := bits (w 0) 1 0, chunked := bit (w 0) 2, cand := bits (w 0) 6 3, user := bits (w 0) 31 16, len := w 1, rem := w 2,
    chunk := bits (w 3) 15 0, gen := bits (w 3) 31 16, region := bits (w 4) 15 0, root := w 5, maxLen := w 6 }

/-- Entry q of partition p. -/
def State.seq (s : State) (p q : Nat) : SeqEntry := seqEntry fun w => s.rd (seqReg p q w)

/-- Whether an entry's words pass the checks of R223 for sequence q of partition p. -/
def State.seqOk (s : State) (p q : Nat) (l : List Byte) : Bool :=
  let w := fun k => fieldAt l (4 * k) 4
  let e := seqEntry w
  bits (w 0) 15 8 == 0 && bits (w 4) 31 16 == 0 && w 7 == 0 &&
  (e.state == 0 ||
    (decide (e.cand ≤ 8) && decide (1 ≤ e.region) && decide (e.region ≤ 2047) && decide (e.root < 2 ^ 27) && e.maxLen % 16 == 0 &&
     decide (e.len + e.rem ≤ e.maxLen) &&
     (if e.chunked then e.chunk % 16 == 0 && decide (16 ≤ e.chunk) && decide (e.chunk ≤ 2048) && s.part != 0x1600 && s.part != 0x0800
      else decide (e.rem ≤ 2048)) &&
     (List.range 1024).all fun k => k == q || (s.seq p k).state == 0 || (s.seq p k).region != e.region))

/-- An entry's words written. -/
def State.putSeq (s : State) (p q : Nat) (l : List Byte) : State :=
  (List.range 8).foldl (fun s k => s.wr (seqReg p q k) (fieldAt l (4 * k) 4)) s

/-- A SEQ_SET refused: SEQ_SET_REJECT, completion REFUSED. -/
def State.seqReject (s : State) (p q ring idx : Nat) : State :=
  (s.raise .seqSetReject p { info0 := q }).complete ring idx stRefused 0 0

/-- SEQ_SET: held until its apply moment; one that names a step already built is refused (R330). -/
def State.seqSet (s : State) (ring idx : Nat) (k : Cmd) : State :=
  let q := k.arg 8 2
  let ap := k.arg 0x10 8
  if 4 ≤ k.part ∨ 1024 ≤ q then s.complete ring idx stInvalid 0 0
  else if ap ≠ 0 ∧ ap ≤ s.rd64 (seqCtl k.part 8) then s.seqReject k.part q ring idx
  else s.hold { ring := ring, idx := idx, part := k.part, apply := ap, due := false, seed := none, seq := q, entry := sliceBytes k.entry 0x18 32 }

/-- SEQ_SET. -/
def execSeqSet (ring idx : Nat) (s : State) : Host.Outcome State Fault Refusal :=
  .next (s.mbox ring idx 0x08 fun k s => s.seqSet ring idx k)

/-- A held command applied: the seed takes effect, or the entry is checked and written. -/
def State.applyOne (s : State) (h : Held) : State :=
  let s := { s with st := { s.st with held := s.st.held.filter (· != h) } }
  match h.seed with
  | some v => (s.wr64 (detReg h.part 0x18) v).complete h.ring h.idx stOk 0 0
  | none =>
    if s.seqOk h.part h.seq h.entry then (s.putSeq h.part h.seq h.entry).complete h.ring h.idx stOk 0 0
    else s.seqReject h.part h.seq h.ring h.idx

/-- Whether a sequence appears in the work list of a running step. -/
def State.seqRunning (s : State) (p q : Nat) : Bool := (s.step_ p).task.isSome && (s.step_ p).runs.any fun r => r.seq == q

/-- The held commands of partition p applied before the build of step n, in start order; a SEQ_SET of a running sequence waits for
the commit.
LOG 49 (DESIGN CHOICE). -/
def State.applyHeld (s : State) (p n : Nat) : State :=
  (s.st.held.filter fun h => h.part == p && (h.apply == 0 || h.apply == n || h.due)).foldl (fun s h =>
    if h.seed.isNone && s.seqRunning p h.seq then
      { s with st := { s.st with held := s.st.held.map fun g => if g = h then { g with due := true } else g } }
    else s.applyOne h) s

/-- The deferred SEQ_SETs of partition p applied after a commit. -/
def State.applyDue (s : State) (p : Nat) : State := (s.st.held.filter fun h => h.part == p && h.due).foldl (fun s h => s.applyOne h) s

/-! ## Building a step (R224, R225) -/

/-- A build in progress: the state, rows so far, runs, whether its loop has ended. -/
structure BuildAcc where
  s : State
  rows : Nat
  runs : List StepRunRec
  stop : Bool

/-- A run appended. -/
def BuildAcc.emit (b : BuildAcc) (q kind pos count : Nat) (e : SeqEntry) : BuildAcc :=
  { b with rows := b.rows + count,
           runs := b.runs ++ [{ seq := q, count := count, pos := pos, row := b.rows, kind := kind, cand := if kind = 2 then count - 1 else 0, gen := e.gen,
                                region := e.region, user := e.user, root := e.root }] }

/-- A decode sequence at its capacity: FULL, held, SEQ_FULL. -/
def State.seqFull (s : State) (p q : Nat) : State :=
  let r := seqReg p q 0
  let s := s.wr r (setBit (setBits (s.rd r) 1 0 3) 7 true)
  (s.countUp (seqCtl p 0x1C) 1).raise .seqFull p { info0 := q }

/-- One entry of the decode loop. -/
def decodeRun (p : Nat) (b : BuildAcc) (q : Nat) : BuildAcc :=
  let e := b.s.seq p q
  if b.stop || e.state != 2 then b
  else
    let need := min (1 + e.cand) (e.maxLen - e.len)
    if need = 0 then { b with s := b.s.seqFull p q }
    else if 2048 < b.rows + need then { b with s := b.s.setFld (seqCtl p 0x10) 9 0 q, stop := true }
    else b.emit q 2 e.len need e

/-- The rows a prompt sequence gets; none where it is passed over, with whether the loop ends there. -/
def promptRows (e : SeqEntry) (rows : Nat) : Option Nat × Bool :=
  if e.chunked then
    let c := min e.rem (e.chunk - e.len % 16)
    if 2048 < rows + c then
      let last := e.len + 2048 - rows
      let c := last - last % 16 - e.len
      if last - last % 16 ≤ e.len then (none, true) else (some c, false)
    else (some c, false)
  else if 2048 < rows + e.rem then (none, false) else (some e.rem, false)

/-- One entry of the prompt loop. -/
def promptRun (p : Nat) (b : BuildAcc) (q : Nat) : BuildAcc :=
  let e := b.s.seq p q
  if b.stop || decide (2048 ≤ b.rows) || e.state != 1 then b
  else match promptRows e b.rows with
    | (none, stop) => { b with stop := stop }
    | (some c, _) =>
      let b := b.emit q (if c = e.rem then 1 else 0) e.len c e
      { b with s := b.s.setFld (seqCtl p 0x10) 25 16 ((q + 1) % 1024) }

/-- The decode loop, from the sequence where the last one stopped. -/
def decodeLoop (p : Nat) (b : BuildAcc) : BuildAcc :=
  let first := b.s.fld (seqCtl p 0x10) 9 0
  (List.range 1024).foldl (fun b n => decodeRun p b ((first + n) % 1024)) b

/-- The prompt loop, from the sequence after the last one served. -/
def promptLoop (p : Nat) (b : BuildAcc) : BuildAcc :=
  let first := b.s.fld (seqCtl p 0x10) 25 16
  (List.range 1024).foldl (fun b n => promptRun p b ((first + n) % 1024)) b

/-- Both loops. -/
def State.buildRuns (s : State) (p : Nat) : BuildAcc :=
  promptLoop p { decodeLoop p { s := s, rows := 0, runs := [], stop := false } with stop := false }

/-- A work list record (Table 10-3). -/
def StepRunRec.bytes (r : StepRunRec) : List Byte :=
  leBytes 2 r.seq ++ leBytes 2 r.count ++ leBytes 4 r.pos ++ leBytes 2 r.row ++ leBytes 1 r.kind ++ leBytes 1 r.cand ++ leBytes 2 r.gen ++
  leBytes 1 0xFF ++ leBytes 1 0 ++ leBytes 2 r.region ++ leBytes 2 r.user ++ leBytes 4 r.root ++ leBytes 8 0

/-- The local address of partition p's work list. -/
def State.workList (s : State) (p : Nat) : Nat := s.rd (seqCtl p 0x14) + 2 ^ 32 * s.fld (seqCtl p 0x18) 8 0

/-- The work list of step n written (Table 10-3). -/
def BuildAcc.write (b : BuildAcc) (p n : Nat) : Option AccErr × State :=
  let head := leFields [(4, n), (2, b.runs.length), (2, b.rows), (24, 0)]
  b.s.memWrite .steward (b.s.workList p) (head ++ b.runs.flatMap StepRunRec.bytes)

/-- The step's runs kept and its counts shown. -/
def State.built (s : State) (p : Nat) (b : BuildAcc) : State :=
  let s := s.setStep p { runs := b.runs, task := none, builtAt := s.ct }
  ((s.setFld (seqCtl p 0) 31 20 b.rows).setFld (seqCtl p 0) 19 9 b.runs.length).setSeqState p 1

/-- A build: the step number advances, held commands apply, the work list is written; false where that write fails.
LOG 50 (DESIGN CHOICE). -/
def State.build (s : State) (p : Nat) : Bool × State :=
  let n := (s.rd64 (seqCtl p 8) + 1) % 2 ^ 64
  let b := ((s.wr64 (seqCtl p 8) n).applyHeld p n).buildRuns p
  let w := b.write p n
  (w.1.isNone, if w.1.isSome then w.2 else w.2.built p b)

/-- The first queued launch of a step task of partition p. -/
def State.stepLaunch (s : State) (p : Nat) : Option QLaunch := s.launchQ.find? fun q => q.part == p && q.rcd.step

/-- STEP_BUILD: the elastic step task at the head of the queue has its work list built; where the write fails it completes
ABORTED.
LOG 50 (DESIGN CHOICE). -/
def execStepBuild (p : Nat) (s : State) : Host.Outcome State Fault Refusal :=
  .next <| match s.stepLaunch p with
    | none => s
    | some q =>
      if s.stewardUp && s.partRuns p && s.seqState p == 0 && !bit (s.rd (seqCtl p 4)) 0 then
        let b := s.build p
        if b.1 then b.2
        else
          let s := { b.2 with launchQ := b.2.launchQ.erase q }
          match q.cmd with
          | some (r, i) => s.complete r i stAborted 0 0
          | none => s
      else s

/-! ## Committing a step (R226) -/

/-- ACCEPTED of each run, 0 for runs that are not KIND 2; none where a read failed. -/
def State.acceptedOf (s : State) (p : Nat) (runs : List StepRunRec) : Option (List Nat) × State :=
  runs.zipIdx.foldl (fun acc e => match acc.1 with
    | none => acc
    | some l =>
      if e.1.kind = 2 then
        let rd := acc.2.memRead .steward (acc.2.workList p + 32 + 32 * e.2 + 0xE) 1
        match rd.1.err with
        | none => (some (l ++ [leNat rd.1.bytes]), rd.2)
        | some _ => (none, rd.2)
      else (some (l ++ [0]), acc.2)) (some [], s)

/-- One run committed to its entry. -/
def State.commitRun (s : State) (p : Nat) (r : StepRunRec) (a : Nat) : State :=
  let len := seqReg p r.seq 1
  let rem := seqReg p r.seq 2
  if r.kind = 2 then s.wr len (s.rd len + 1 + min r.cand (if a = 0xFF then 0 else a))
  else
    let s := (s.wr len (s.rd len + r.count)).wr rem (s.rd rem - r.count)
    if r.kind = 1 then s.setFld (seqReg p r.seq 0) 1 0 2 else s

/-- Every run of the step committed, or none. -/
def State.commit (s : State) (p : Nat) : State :=
  let runs := (s.step_ p).runs
  let q := s.acceptedOf p runs
  match q.1 with
  | none => q.2
  | some l => (runs.zip l).foldl (fun s e => s.commitRun p e.1 e.2) q.2

/-- STEP_COMMIT: once the step task has completed; SEQ_SETs that waited for it apply then.
LOG 49 (DESIGN CHOICE). -/
def execStepCommit (p : Nat) (s : State) : Host.Outcome State Fault Refusal :=
  .next <| match (s.step_ p).task with
    | some t => match s.task t with
      | some k =>
        if k.ended then
          let s := if k.aborted then s else s.commit p
          ((s.setStep p SeqStep.idle).setSeqState p 0).applyDue p
        else s
      | none => s
    | none => if p < 4 then s.applyDue p else s

/-! ## The descriptor (R229, R230) -/

/-- The bytes of an element of KV_FMT. -/
def attE (l : List Byte) : Nat := fmtBits (bits (fieldAt l 0 4) 15 12) / 8
/-- KV_FMT. -/
def attKv (l : List Byte) : Nat := bits (fieldAt l 0 4) 15 12
/-- Q_FMT. -/
def attQ (l : List Byte) : Nat := bits (fieldAt l 0 4) 19 16
/-- OUT_FMT. -/
def attOut (l : List Byte) : Nat := bits (fieldAt l 0 4) 23 20
/-- Q_HEADS. -/
def attQHeads (l : List Byte) : Nat := fieldAt l 8 2
/-- KV_HEADS. -/
def attKvHeads (l : List Byte) : Nat := fieldAt l 0xA 2
/-- HEAD_DIM. -/
def attDim (l : List Byte) : Nat := fieldAt l 0xC 2
/-- KV_HALF. -/
def attHalf (l : List Byte) : Nat := 16 * attKvHeads l * attDim l * attE l
/-- WL_ADDR. -/
def attWl (l : List Byte) : Nat := addrAt l 0x20
/-- MAX_CT. -/
def attMaxCt (l : List Byte) : Nat := fieldAt l 0x48 4

/-- The checks of R230 and R538. -/
def State.attOk (s : State) (c x : Nat) (l : List Byte) : Bool :=
  let w : ArithWord := { aFmt := attQ l, aBs := false, bFmt := attKv l, bBs := false, outFmt := 8, outSat := false, cin := 0, headroom := 0 }
  let timed := x == 4
  let dims := attQHeads l * attDim l
  let kdims := attKvHeads l * attDim l
  let tableTimed := match s.ownerOf c with
    | some p => bit (s.rd (seqCtl p 4)) 0
    | none => false
  bits (fieldAt l 0 4) 11 9 == 0 && bits (fieldAt l 0 4) 31 25 == 0 && fieldAt l 0xF 1 == 0 && fieldAt l 0x26 2 == 0 && fieldAt l 0x4C 52 == 0 &&
  [3, 4, 6, 7].contains (attKv l) && [6, 7, 8].contains (attOut l) && (pairRate w == some (4, false) || pairRate w == some (1, false)) &&
  decide (1 ≤ attQHeads l) && decide (attQHeads l ≤ 256) && decide (1 ≤ attKvHeads l) && decide (attKvHeads l ≤ 64) &&
  attQHeads l % attKvHeads l == 0 && [32, 64, 128, 256].contains (attDim l) &&
  fieldAt l 0x14 4 % 0x4000 == 0 && fieldAt l 0x18 4 % 0x4000 == 0 && fieldAt l 0x1C 4 % 0x4000 == 0 && decide (2 * attHalf l ≤ fieldAt l 0x14 4) &&
  [0x20, 0x28, 0x30, 0x38, 0x40].all (fun o => addrAt l o % 16 == 0) && (timed == (attMaxCt l != 0)) && timed == tableTimed &&
  inVa (attWl l) (32 + 32 * 1024) && reachOk (addrAt l 0x28) [(dims, 16 * strAt l 0x28)] 1 && reachOk (addrAt l 0x30) [(kdims, 16 * strAt l 0x30)] 1 &&
  inVa (addrAt l 0x38) (kdims * attE l) && reachOk (addrAt l 0x40) [(dims, 16 * strAt l 0x40)] 1

/-- The number of ATTN_STEP operators of the list, up to the current one, that name this work list (R231). -/
def State.attLevel (s : State) (c x : Nat) (l : List Byte) : Option Nat × State :=
  (List.range (s.opIndex c x)).foldl (fun acc k => match acc.1 with
    | none => acc
    | some n =>
      let q := acc.2.ctxRead (.tiler c x) c x (acc.2.listAddr c x + 128 * k) 128
      (q.1.map fun d => if fieldAt d 0 1 = 0x20 ∧ attWl d = attWl l then n + 1 else n, q.2)) (some 1, s)

/-! ## Work items (R231) -/

/-- A work list record read back. -/
def runOf (d : List Byte) : StepRunRec :=
  { seq := fieldAt d 0 2, count := fieldAt d 2 2, pos := fieldAt d 4 4, row := fieldAt d 8 2, kind := fieldAt d 0xA 1, cand := fieldAt d 0xB 1,
    gen := fieldAt d 0xC 2, region := fieldAt d 0x10 2, user := fieldAt d 0x12 2, root := fieldAt d 0x14 4 }

/-- The header's STEP and the runs of the work list. -/
def State.attRuns (s : State) (c x : Nat) : Option (Nat × List StepRunRec) × State :=
  let wl := attWl (s.til c x).desc
  let h := s.attRead c x none wl 32
  match h.1 with
  | none => (none, h.2)
  | some d =>
    let r := h.2.attReads c x none ((List.range (fieldAt d 4 2)).map fun k => (wl + 32 + 32 * k, 32))
    (r.1.map fun rs => (fieldAt d 0 4, rs.map runOf), r.2)

/-- The groups of 32 rows of a run under one KV head. -/
def runGroups (l : List Byte) (r : StepRunRec) : Nat := ceilDiv (attQHeads l / attKvHeads l * r.count) 32

/-- The append items of a step.
LOG 46 (DESIGN CHOICE). -/
def attAppends (l : List Byte) (runs : List StepRunRec) : Nat := runs.length * attKvHeads l
/-- All items of a step: append items run by run and head by head, then attend items run, head, group. -/
def attTotal (l : List Byte) (runs : List StepRunRec) : Nat :=
  attAppends l runs + (runs.map fun r => attKvHeads l * runGroups l r).foldl (· + ·) 0

/-- The run, head and group of the n-th attend item. -/
def attendOf (l : List Byte) : List (StepRunRec × Nat) → Nat → Option (StepRunRec × Nat × Nat × Nat)
  | [], _ => none
  | (r, i) :: rest, n =>
    let g := runGroups l r
    if n < attKvHeads l * g then some (r, i, n / g, n % g) else attendOf l rest (n - attKvHeads l * g)

/-- The (query head, row) pairs of a group.
LOG 46 (DESIGN CHOICE). -/
def attPairs (l : List Byte) (r : StepRunRec) (h g : Nat) : List (Nat × Nat) :=
  let per := attQHeads l / attKvHeads l
  (List.range 32).filterMap fun k =>
    let n := 32 * g + k
    if n < per * r.count then some (h * per + n / r.count, n % r.count) else none

/-! ## Append items -/

/-- The snapshot of a run. -/
def runSnap (r : StepRunRec) : Option Snap := some ⟨r.root * 2 ^ 14, r.seq, r.gen⟩
/-- The base of the layer's area in a run's region. -/
def attBase (l : List Byte) (r : StepRunRec) : Nat := r.region * 2 ^ 36 + fieldAt l 0x1C 4
/-- The address of page p. -/
def attPage (l : List Byte) (r : StepRunRec) (p : Nat) : Nat := attBase l r + p * fieldAt l 0x14 4
/-- The K census byte of (page, head, slot); that of V follows it. -/
def attCen (l : List Byte) (r : StepRunRec) (p h t : Nat) : Nat := attBase l r + fieldAt l 0x18 4 + 32 * (p * attKvHeads l + h) + 2 * t

/-- The largest census among the 32-element blocks of a token's elements. -/
def tokenCensus (fmt : Nat) (xs : List Nat) : Nat :=
  ((List.range (ceilDiv xs.length 32)).map fun b => censusBlock fmt ((xs.drop (32 * b)).take 32)).foldl max 0

/-- What an append item writes: per token its key elements, its values, both census bytes. -/
def appendWrites (l : List Byte) (r : StepRunRec) (h : Nat) (toks : List (List Nat × List Nat)) : List (Nat × List Byte) :=
  let e := attE l
  let hd := attDim l
  toks.zipIdx.flatMap fun t =>
    let pos := r.pos + t.2
    let p := pos / 16
    let sl := pos % 16
    (t.1.1.zipIdx.map fun k => (attPage l r p + ((h * hd + k.2) * 16 + sl) * e, leBytes e k.1)) ++
    [(attPage l r p + attHalf l + ((h * 16 + sl) * hd) * e, t.1.2.flatMap (leBytes e)),
     (attCen l r p h sl, leBytes 1 (tokenCensus (attKv l) t.1.1) ++ leBytes 1 (tokenCensus (attKv l) t.1.2))]

/-- An append item: pages and census written, then APPENDED takes a fetch-and-add of 1. -/
def State.appendItem (s : State) (c x : Nat) (r : StepRunRec) (k h : Nat) : State :=
  let l := (s.til c x).desc
  let e := attE l
  let hd := attDim l
  let kr := s.attReads c x none ((List.range hd).map fun d => (addrAt l 0x30 + 16 * (h * hd + d) * strAt l 0x30 + r.row * e, r.count * e))
  let vr := match kr.1 with
    | none => (none, kr.2)
    | some _ => kr.2.attReads c x none ((List.range r.count).map fun t => (addrAt l 0x38 + 16 * (r.row + t) * strAt l 0x38 + h * hd * e, hd * e))
  match kr.1, vr.1 with
  | some kd, some vd =>
    let toks := (List.range r.count).map fun t =>
      (kd.map (fun d => elemAt d (8 * e) t), (List.range hd).map fun j => elemAt (vd.getD t []) (8 * e) j)
    let w := vr.2.attWrites c x (runSnap r) (appendWrites l r h toks)
    if !w.1 then w.2
    else
      let q := w.2.attReach c x none (attWl l + 32 + 32 * k + 0x18) 8 .atomic
      match q.1 with
      | none => q.2
      | some a =>
        let m := q.2.memAtomic (.attention c x) .add a 1 0
        match m.1.2 with
        | some er => m.2.attMemFail c x (attWl l + 32 + 32 * k + 0x18) er
        | none => ((m.2.wakeAll (127 * 2 ^ 41 + a) ((m.1.1 + 1) % 2 ^ 64)).attState c 0 7).itemEnd c x
  | _, _ => vr.2

/-! ## Attend items (R232–R234) -/

/-- −∞ as FP32. -/
def negInf32 : Nat := 0xFF800000

/-- The tokens of a block that the run has: keys by dimension, values by token, census bytes (K, V). -/
structure KvBlock where
  k : List (List Nat)
  v : List (List Nat)
  kc : List Nat
  vc : List Nat
  deriving DecidableEq, Repr

/-- One page of a block: its first n tokens for head h. -/
def State.kvPage (s : State) (c x : Nat) (r : StepRunRec) (h p n : Nat) : Option KvBlock × State :=
  let l := (s.til c x).desc
  let e := attE l
  let hd := attDim l
  let q := s.attReads c x (runSnap r) (
    (List.range hd).map (fun d => (attPage l r p + (h * hd + d) * 16 * e, n * e)) ++
    (List.range n).map (fun t => (attPage l r p + attHalf l + (h * 16 + t) * hd * e, hd * e)) ++ [(attCen l r p h 0, 2 * n)])
  match q.1 with
  | none => (none, q.2)
  | some d =>
    let cen := d.getD (hd + n) []
    (some { k := (d.take hd).map (fun b => (List.range n).map (elemAt b (8 * e))), v := ((d.drop hd).take n).map (fun b => (List.range hd).map (elemAt b (8 * e))),
            kc := (List.range n).map (fun t => fieldAt cen (2 * t) 1), vc := (List.range n).map fun t => fieldAt cen (2 * t + 1) 1 }, q.2)

/-- Block b of a run for head h: the tokens up to the run's last position. -/
def State.kvBlock (s : State) (c x : Nat) (r : StepRunRec) (h b : Nat) : Option KvBlock × State :=
  let hd := attDim (s.til c x).desc
  (List.range 4).foldl (fun acc i =>
    let p := 4 * b + i
    let n := min 16 (r.pos + r.count - 16 * p)
    match acc.1 with
    | none => acc
    | some o =>
      if n = 0 then acc
      else
        let q := acc.2.kvPage c x r h p n
        (q.1.map fun g => { k := (o.k.zip g.k).map (fun z => z.1 ++ z.2), v := o.v ++ g.v, kc := o.kc ++ g.kc, vc := o.vc ++ g.vc }, q.2))
    (some { k := List.replicate hd [], v := [], kc := [], vc := [] }, s)

/-- An anchored dot product converted once to FP32. -/
def attDot (anchor : Int) (prods : List Val) : Conv :=
  convertWord 0x8 false anchor (accEncode (prods.foldl (fun acc v => (accAdd acc (gridTerm v anchor)).1) (.fin 0)))

/-- What one row takes through a block: t of the 64 tokens and the conversions of S. -/
def attScores (l : List Byte) (qs : List Nat) (pos b : Nat) (g : KvBlock) : List Nat × List Conv :=
  let hd := attDim l
  let r := operandBound none [tokenCensus (attQ l) qs]
  let cell := fun (u : Nat) =>
    attDot (anchorOf r (operandBound none [g.kc.getD u 0]) (resolveHeadroom 0 hd) none)
      (qs.zipIdx.map fun e => (decodeElem (attQ l) e.1).mul (decodeElem (attKv l) ((g.k.getD e.2 []).getD u 0)))
  let seen := (List.range 64).map fun u => decide (64 * b + u ≤ pos)
  let conv := seen.zipIdx.map fun e => if e.1 then some (cell e.2) else none
  (conv.map (fun v => match v with
    | some k => fmul k.code (fieldAt l 0x10 4)
    | none => negInf32), conv.filterMap id)

/-- PV of one row over a block: p in KV_FMT times the values, with the bound of the tokens the row sees. -/
def attPv (l : List Byte) (ps : List Nat) (pos b : Nat) (g : KvBlock) : List Conv :=
  let vb := operandBound none (g.vc.zipIdx.filterMap fun e => if 64 * b + e.2 ≤ pos then some e.1 else none)
  let a := anchorOf (1 + vb) 0 6 none
  let pv := ps.map fun p => decodeElem (attKv l) (f32ToElem (attKv l) false p).code
  (List.range (attDim l)).map fun j =>
    attDot a ((List.range 64).map fun u => (pv.getD u (.fin false 0 0)).mul (decodeElem (attKv l) ((g.v.getD u []).getD j 0)))

/-- One block of one row under the online softmax: the row after it, whether it was rescaled, its conversions.
LOG 47 (DESIGN CHOICE). -/
def attOnline (l : List Byte) (qs : List Nat) (pos b : Nat) (g : KvBlock) (row : AttRow) : AttRow × Bool × List Conv :=
  let sc := attScores l qs pos b g
  let mn := fmax row.m (vmax sc.1)
  let a := if row.m = negInf32 then 0 else fexp2 (fsub row.m mn)
  let ps := sc.1.map fun t => if t = negInf32 then 0 else fexp2 (fsub t mn)
  let pv := attPv l ps pos b g
  ({ m := mn, l := ffma row.l a (vsum ps), o := row.o.zipIdx.map fun e => ffma e.1 a ((pv.getD e.2 ⟨0, false, false⟩).code) },
   a != one32 && a != 0, sc.2 ++ pv)

/-- One block of the second pass under MAXFIRST. -/
def attMaxed (l : List Byte) (qs : List Nat) (pos b : Nat) (g : KvBlock) (row : AttRow) : AttRow × Bool × List Conv :=
  let sc := attScores l qs pos b g
  let ps := sc.1.map fun t => if t = negInf32 then 0 else fexp2 (fsub t row.m)
  let pv := attPv l ps pos b g
  ({ row with l := fadd row.l (vsum ps), o := row.o.zipIdx.map fun e => fadd e.1 ((pv.getD e.2 ⟨0, false, false⟩).code) }, false, sc.2 ++ pv)

/-- One block of the first pass under MAXFIRST. -/
def attMax (l : List Byte) (qs : List Nat) (pos b : Nat) (g : KvBlock) (row : AttRow) : AttRow × Bool × List Conv :=
  let sc := attScores l qs pos b g
  ({ row with m := fmax row.m (vmax sc.1) }, false, sc.2)

/-- The bytes of a row in the arena: m, l, o and its Q elements. -/
def attRec (l : List Byte) : Nat := 8 + 6 * attDim l

/-- The slots of the arena that an attend item's rows take.
LOG 47 (DESIGN CHOICE). -/
def attSlots (l : List Byte) : Nat := ceilDiv (32 * attRec l) 256

/-- A row as its bytes in the arena. -/
def attRowBytes (r : AttRow × List Nat) : List Byte := leBytes 4 r.1.m ++ leBytes 4 r.1.l ++ r.1.o.flatMap (leBytes 4) ++ r.2.flatMap (leBytes 2)

/-- A row from its bytes. -/
def attRowOf (l : List Byte) (d : List Byte) : AttRow × List Nat :=
  let n := attDim l
  ({ m := fieldAt d 0 4, l := fieldAt d 4 4, o := (List.range n).map fun j => fieldAt d (8 + 4 * j) 4 }, (List.range n).map fun j => fieldAt d (8 + 4 * n + 2 * j) 2)

/-- The rows of the item as the arena holds them (R238); none where the read failed. -/
def State.attLoad (s : State) (c x n : Nat) : Option (List (AttRow × List Nat)) × State :=
  let l := (s.til c x).desc
  let slot := (s.arena c x).1
  if !s.slotsOk c x slot (attSlots l) .read then (none, s.bbViolation (.attention c x) c x (127 * 2 ^ 41 + spAddr c (slot * 256)))
  else afterRead (s.memRead (.attention c x) (spAddr c (slot * 256)) (n * attRec l))
    (fun e s => (none, s.attMemFail c x (spAddr c (slot * 256)) e))
    fun d s => (some ((List.range n).map fun i => attRowOf l ((d.drop (i * attRec l)).take (attRec l))), s)

/-- The rows of the item put into the arena; false where the write failed. -/
def State.attStore (s : State) (c x : Nat) (rows : List (AttRow × List Nat)) : Bool × State :=
  let slot := (s.arena c x).1
  if !s.slotsOk c x slot (attSlots (s.til c x).desc) .write then (false, s.bbViolation (.attention c x) c x (127 * 2 ^ 41 + spAddr c (slot * 256)))
  else afterWrite (s.memWrite (.attention c x) (spAddr c (slot * 256)) (rows.flatMap attRowBytes))
    (fun e s => (false, s.attMemFail c x (spAddr c (slot * 256)) e)) fun s => (true, s)

/-- Every row of the item, with its position, through block b, the last one being `last`; the sequencer's counters and flags follow.
LOG 47 (DESIGN CHOICE). -/
def State.attBlock (s : State) (c x last : Nat) (rows : List ((AttRow × List Nat) × Nat)) (b : Nat) (g : KvBlock) : State :=
  let t := s.til c x
  let l := t.desc
  let two := bit (fieldAt l 0 4) 8
  let f := if !two then attOnline else if t.att.pass = 0 then attMax else attMaxed
  let out := rows.map fun e => if b ≤ e.2 / 64 then f l e.1.2 e.2 b g e.1.1 else (e.1.1, false, [])
  let w := s.attStore c x ((out.zip rows).map fun e => (e.1.1, e.2.1.2))
  if !w.1 then w.2
  else
    let done := (rows.filter fun r => decide (b ≤ r.2 / 64)).length
    let conv := out.flatMap fun o => o.2.2
    let s := (w.2.count64 (attReg c 0x18) (if two && t.att.pass == 0 then 0 else done)).countUp (attReg c 0x20) (out.filter fun o => o.2.1).length
    let s := (s.outFlags c x (conv.any (·.ovf)) (conv.any (·.nan))).inSpecial c x ((g.kc ++ g.vc).any (· == 0xFF) || rows.any fun r => tokenCensus (attQ l) r.1.2 == 0xFF)
    let again := two && t.att.pass == 0 && b == last
    s.modTil c x fun t => { t with att := { t.att with block := if again then 0 else b + 1, pass := if again then 1 else t.att.pass } }

/-- The Q elements of a pair. -/
def State.attQRow (s : State) (c x row h : Nat) : Option (List Nat) × State :=
  let l := (s.til c x).desc
  let eb := fmtBits (attQ l)
  let q := s.attReads c x none ((List.range (attDim l)).map fun d =>
    (addrAt l 0x28 + 16 * (h * attDim l + d) * strAt l 0x28 + row * eb / 8, ceilDiv eb 8))
  (q.1.map fun ds => ds.map fun d => elemAt d eb (if eb = 4 then row % 2 else 0), q.2)

/-- What the sequencer writes for its rows. -/
def attOutput (l : List Byte) (row0 : Nat) (pairs : List (Nat × Nat)) (rows : List AttRow) : List (Nat × Conv) :=
  let eo := fmtBits (attOut l) / 8
  (pairs.zip rows).flatMap fun e =>
    let rl := frecip e.2.l
    e.2.o.zipIdx.map fun d =>
      (addrAt l 0x40 + 16 * (e.1.1 * attDim l + d.2) * strAt l 0x40 + (row0 + e.1.2) * eo, f32ToElem (attOut l) false (fmul d.1 rl))

/-- The rows of an attend item staged: their Q elements, m at −∞, l and o at 0. -/
def State.attStage (s : State) (c x : Nat) (r : StepRunRec) (pairs : List (Nat × Nat)) : Bool × State :=
  let q := pairs.foldl (fun (acc : Option (List (List Nat)) × State) e => match acc.1 with
    | none => acc
    | some o =>
      let q := acc.2.attQRow c x (r.row + e.2) e.1
      (q.1.map fun d => o ++ [d], q.2)) (some [], s)
  match q.1 with
  | none => (false, q.2)
  | some rows =>
    let zero := List.replicate (attDim (q.2.til c x).desc) 0
    let w := q.2.attStore c x (rows.map fun d => ({ m := negInf32, l := 0, o := zero }, d))
    (w.1, if w.1 then w.2.modTil c x fun t => { t with att := { t.att with block := 0, pass := 0, staged := true } } else w.2)

/-- ATT_POS and ATT_ITEM name the item of context x that the sequencer works on. -/
def State.attShow (s : State) (c x : Nat) : State :=
  let t := (s.til c x).att
  (s.wr (attReg c 8) (t.block % 2 ^ 16 * 2 ^ 16 + t.run % 2 ^ 16)).wr (attReg c 0xC) (s.item c x)

/-- The end of an attend item: its output written. -/
def State.attFinish (s : State) (c x : Nat) (r : StepRunRec) (pairs : List (Nat × Nat)) (rows : List AttRow) : State :=
  let l := (s.til c x).desc
  let out := attOutput l r.row pairs rows
  let o := s.attWrites c x none (out.map fun e => (e.1, leBytes (fmtBits (attOut l) / 8) e.2.code))
  if !o.1 then o.2
  else
    let s := (o.2.outFlags c x (out.any fun e => e.2.ovf) (out.any fun e => e.2.nan)).modTil c x fun t => { t with att := { t.att with block := 0, pass := 0, staged := false } }
    (((s.addSteps c x 0x11 64).attState c 0 7).itemEnd c x).attShow c x

/-- An attend item goes on: its rows staged, then one block, up to the next pass boundary (R238), or, behind the last block, its output. -/
def State.attendItem (s : State) (c x : Nat) (r : StepRunRec) (h g : Nat) : State :=
  let pairs := attPairs (s.til c x).desc r h g
  let st := if (s.til c x).att.staged then (true, s) else s.attStage c x r pairs
  if !st.1 then st.2
  else
    let q := (st.2.attShow c x).attLoad c x pairs.length
    match q.1 with
    | none => q.2
    | some rows =>
      let pos := pairs.map fun e => r.pos + e.2
      let last := (pos.map (· / 64)).foldl max 0
      let b := (q.2.til c x).att.block
      if b ≤ last then
        let k := q.2.kvBlock c x r h b
        match k.1 with
        | none => k.2
        | some kv => k.2.attBlock c x last (rows.zip pos) b kv
      else q.2.attFinish c x r pairs (rows.map Prod.fst)

/-! ## ATTN_STEP -/

/-- Whether the attention sequencer of cluster c may work for context x: not while it is suspended for another elastic one. -/
def State.attFree (s : State) (c x : Nat) : Bool := x == 4 || (s.att c).ctx.isNone

/-- ATTN_STEP read and checked: it starts. A cluster that takes no share of it needs no arena for it. -/
def State.attStart (s : State) (c x : Nat) : State :=
  let q := s.readOp c x
  match q.1 with
  | none => q.2
  | some l =>
    let s := (q.2.modTil c x fun t => t.take l).tilState c 1
    if !catalogue.contains (fieldAt l 0 1) || !s.attOk c x l then s.descRefused c x
    else if (s.leads c x || bit (fieldAt l 0 4) 24) && decide ((s.arena c x).2 < attSlots l) then s.arenaFault c x
    else if !s.kernelIn c 0x11 then s.kernelInvalid c (s.stepEngine c) x 0x11
    else
      let v := s.attLevel c x l
      match v.1 with
      | none => if (v.2.til c x).aborted then v.2 else v.2.modTil c x fun t => { t with phase := 0 }
      | some n => (v.2.opStart c x l 0 []).modTil c x fun t => { t with own := n, att := { AttWork.idle with startAt := v.2.ct } }

/-- The work list read: the items of this cluster's share are known. -/
def State.attOpen (s : State) (c x : Nat) : State :=
  let q := s.attRuns c x
  match q.1 with
  | none => q.2
  | some (_, runs) =>
    let l := (q.2.til c x).desc
    let dist := bit (fieldAt l 0 4) 24
    q.2.modTil c x fun t => { t with total := if dist || q.2.leads c x then attTotal l runs else 0, att := { t.att with phase := 1 } }

/-- The next item taken, once the work list has been read: ATT_ITEM and ATT_POS name it, an attend item first waits for its run's APPENDED. -/
def State.attNext (s : State) (c x : Nat) : State :=
  let l := (s.til c x).desc
  let r := s.attRuns c x
  match r.1 with
  | none => r.2
  | some (_, runs) =>
    match r.2.nextItem c x (r.2.til c x).total (fieldAt l 0xE 1) (bit (fieldAt l 0 4) 24) with
    | (false, _, s) => s
    | (true, none, s) =>
      let s := s.modTil c x fun t => { t with att := { t.att with phase := 2 } }
      if x = 4 then (s.attState c 4 4).wr (attReg c 0xC) 0xFFFFFFFF else s.wr (attReg c 0xC) 0xFFFFFFFF
    | (true, some i, s) =>
      let n := attAppends l runs
      let at_ := if i < n then some (i / attKvHeads l, []) else
        (attendOf l runs.zipIdx (i - n)).map fun e => (e.2.1, [Work.waitCount (attWl l + 32 + 32 * e.2.1 + 0x18) ((s.til c x).own * attKvHeads l)])
      let q := at_.getD (0, [])
      ((((s.setItem c x i).tilState c 2).modTil c x fun t => { t with work := q.2, att := { t.att with run := q.1, block := 0, staged := false } })).attShow c x

/-- ATTN_STEP: the operator starts, takes its next item, or ends its share; a timed one ends at MAX_CT. -/
def execAttnStep (c x : Nat) (s : State) : Host.Outcome State Fault Refusal :=
  .next <|
    if !s.tilerMay c x || !((s.opNow c x).getD 0x20 == 0x20) || !s.attFree c x then s
    else
      let s := s.tilerTake c x
      let t := s.til c x
      if t.phase = 0 then s.attStart c x
      else if !s.opRuns_ c x then s
      else match t.att.phase with
        | 0 => s.attOpen c x
        | 1 => if s.item c x = 0xFFFFFFFF then s.attNext c x else s
        | _ => if x ≠ 4 ∧ s.ctxIdle c x = true then (s.opDoneShare c x).tilState c 0 else s

/-- The held item of ATTN_STEP with the runs of its work list: run, its number, head and, of an attend item, group. -/
def State.attHeld (s : State) (c x : Nat) : Option (StepRunRec × Nat × Nat × Option Nat) × State :=
  let q := s.attRuns c x
  match q.1 with
  | none => (none, q.2)
  | some (_, runs) =>
    let l := (q.2.til c x).desc
    let i := q.2.item c x
    let n := attAppends l runs
    if i < n then ((runs[i / attKvHeads l]?).map fun r => (r, i / attKvHeads l, i % attKvHeads l, none), q.2)
    else ((attendOf l runs.zipIdx (i - n)).map fun e => (e.1, e.2.1, e.2.2.1, some e.2.2.2), q.2)

/-- Whether context x holds an item of ATTN_STEP that the sequencer may run. -/
def State.attMay (s : State) (c x : Nat) : Bool :=
  s.tilerMay c x && s.opRuns_ c x && fieldAt (s.til c x).desc 0 1 == 0x20 && s.item c x != 0xFFFFFFFF && s.attFree c x

/-- APPEND_ITEM. -/
def execAppendItem (c x : Nat) (s : State) : Host.Outcome State Fault Refusal :=
  .next <|
    if !s.attMay c x then s
    else match s.attHeld c x with
      | (some (r, k, h, none), s) => ((s.attState c 1 x).attShow c x).appendItem c x r k h
      | (some _, _) => s
      | (none, s) => s

/-- An elastic attend item waits for its run's APPENDED. -/
def State.attWait (s : State) (c x va need : Nat) : State :=
  let q := s.attReach c x none va 8 .read
  match q.1 with
  | none => q.2
  | some a =>
    let s := ((q.2.modTil c x fun t => { t with waitWord := some (va, need) }).tilState c 4).attState c 3 x
    (s.beginWait c x (127 * 2 ^ 41 + a) need).watchNow c x

/-- ATTEND_ITEM: once APPENDED suffices; an elastic context waits for it, a timed one reads it under COUNT_WORD_READ. -/
def execAttendItem (c x : Nat) (s : State) : Host.Outcome State Fault Refusal :=
  .next <|
    if !s.attMay c x then s
    else match (s.til c x).work with
      | .waitCount va need :: _ => if x = 4 then s else s.attWait c x va need
      | _ => match s.attHeld c x with
        | (some (r, _, h, some g), s) => (s.attState c 2 x).attendItem c x r h g
        | (some _, _) => s
        | (none, s) => s

/-- The suspended item of cluster c restarts: its context leaves the suspended state when no channel of it is suspended.
LOG 46 (DESIGN CHOICE). -/
def State.attResume (s : State) (c : Nat) : State :=
  match (s.att c).ctx with
  | none => s
  | some x =>
    let s := (s.setAtt c Att.idle).attState c 0 7
    let still := (s.chansOf c x).any fun m => (s.chan c m).state == 4
    if s.ctxState c x = 3 ∧ still = false then s.setCtxState c x 1 0 else s

/-- ATT_RESUME: a write of ATT_CTRL.RESUME by the Steward or the cluster sequencer while a fault suspends the sequencer. -/
def execAttResume (r : Requester) (c : Nat) (s : State) : Host.Outcome State Fault Refusal :=
  .next <|
    if s.mayWrite .stewardSeq r c && decide (c < s.nClusters) then
      if s.fld (attReg c 0) 2 0 == 5 then s.attResume c else s.resumeLater c fun v => v.attHeld
    else s

/-- ATT_OVERRUN: at MAX_CT a timed ATTN_STEP ends its share, or raises ATT_OVERRUN where its work has not ended. -/
def execAttOverrun (c : Nat) (s : State) : Host.Outcome State Fault Refusal :=
  .next <|
    let t := s.til c 4
    if decide (c < s.nClusters) && t.active && t.phase == 1 && !t.aborted && fieldAt t.desc 0 1 == 0x20 && decide (t.att.startAt + attMaxCt t.desc ≤ s.ct) then
      if t.att.phase = 2 ∧ s.ctxIdle c 4 = true then ((s.opDoneShare c 4).tilState c 0).attState c 0 7
      else
        let s := (s.setFld (attReg c 0) 31 28 3).orReg (attReg c 0) (2 ^ 27)
        (s.raiseCl .attOverrun c (some 4) (8 * c + 2) 0 (s.opIndex c 4) 0).abortCtx c 4 6
    else s

/-! ## ACCEPT (R236) -/

/-- The checks of ACCEPT's descriptor. -/
def acceptOk (l : List Byte) : Bool :=
  kernelBase l && [0x20, 0x28, 0x30, 0x40].all (fun o => addrAt l o % 16 == 0) &&
  reachOk (addrAt l 0x20) [(kRows l, 16 * strAt l 0x20)] (kLen l * fmtBits (inFmt l) / 8) && inVa (addrAt l 0x30) (4 * kRows l) &&
  inVa (addrAt l 0x28) 4 && inVa (addrAt l 0x40) 32

/-- The index of the largest value, the lowest on a tie; none where every value is NaN. -/
def argmax32 (xs : List Nat) : Option Nat :=
  (xs.zipIdx.foldl (fun (b : Option (Nat × Nat)) e =>
    if isNan32 e.1 then b
    else match b with
      | none => some (e.1, e.2)
      | some m => if flt m.1 e.1 then some (e.1, e.2) else b) none).map Prod.snd

/-- A token sampled from probabilities by w. -/
def sampleAt (ps : List Nat) (w : Nat) : Nat :=
  let sums := (ps.foldl (fun (acc : List Nat × Nat) p => (fadd acc.2 p :: acc.1, fadd acc.2 p)) ([], 0)).1.reverse
  let theta := fmul w (sums.getLastD 0)
  match sums.findIdx? (flt theta) with
  | some i => i
  | none => (ps.zipIdx.foldl (fun b e => if flt 0 e.1 then e.2 else b) 0)

/-- What ACCEPT decides for a run: the candidates accepted and the next token. `z` and `d` are the logits and input tokens of its
rows, `u` and `w` the generator's values. -/
def acceptRun (mode p0 cand : Nat) (z : List (List Nat)) (d : List Nat) (u w : Nat → Nat) : Nat × Nat :=
  let ok := fun (a : Nat) =>
    let zs := z.getD a []
    let tok := d.getD (a + 1) 0
    decide (tok < zs.length) && (if mode = 0 then argmax32 zs == some tok else flt (u a) ((softmaxRow p0 zs).getD tok 0))
  let a := ((List.range cand).takeWhile ok).length
  let zs := z.getD a []
  if mode = 0 then (a, (argmax32 zs).getD 0)
  else
    let ps := softmaxRow p0 zs
    let ps := if a < cand then setAt ps (d.getD (a + 1) 0) 0 else ps
    (a, sampleAt ps (w a))

/-- One run of ACCEPT's item.
LOG 48 (DESIGN CHOICE). -/
def State.acceptOne (s : State) (c x step : Nat) (r : StepRunRec) (k : Nat) : Bool × State :=
  let l := (s.til c x).desc
  let e := fmtBits (inFmt l)
  let n := kLen l
  let rows := if r.kind = 2 then (List.range r.count).map (r.row + ·) else [r.row + r.count - 1]
  let q := s.xReads c x (rows.map (fun i => (addrAt l 0x20 + 16 * i * strAt l 0x20, n * e / 8)) ++ rows.map fun i => (addrAt l 0x30 + 4 * i, 4))
  match q.1 with
  | none => (false, q.2)
  | some d =>
    let z := (d.take rows.length).map fun b => (List.range n).map fun j => elemToF32 (inFmt l) (elemAt b e j)
    let toks := (d.drop rows.length).map fun b => fieldAt b 0 4
    let seed := match q.2.ownerOf c with
      | some p => q.2.rd64 (detReg p 0x18)
      | none => 0
    let gen := fun (stream i : Nat) => steepUnit (steep seed step (r.seq * 2 ^ 16 + i) stream)
    let a := acceptRun (fieldAt l 0x18 4) (fieldAt l 0x10 4) (if r.kind = 2 then r.cand else 0) z toks (gen 0) (gen 1)
    q.2.xWrites c x ((if r.kind = 2 then [(addrAt l 0x40 + 32 + 32 * k + 0xE, leBytes 1 a.1)] else []) ++ [(addrAt l 0x28 + 4 * k, leBytes 4 a.2)])

/-- An item of ACCEPT: the KIND 1 and KIND 2 runs whose first row lies in its 32 rows; the last item takes the rest.
LOG 48 (DESIGN CHOICE). -/
def State.acceptItem (s : State) (c x : Nat) : State :=
  let l := (s.til c x).desc
  if !s.kernelIn c 0x10 then s.kernelInvalid c (s.stepEngine c) x 0x10
  else
    let i := s.item c x
    let h := s.xRead c x (addrAt l 0x40) 32
    match h.1 with
    | none => h.2
    | some d =>
      let rs := h.2.xReads c x ((List.range (fieldAt d 4 2)).map fun k => (addrAt l 0x40 + 32 + 32 * k, 32))
      match rs.1 with
      | none => rs.2
      | some recs =>
        let runs := (recs.map runOf).zipIdx.filter fun e => e.1.kind != 0 && e.1.count != 0 &&
          (e.1.row / 32 == i || (decide (i + 1 = ceilDiv (kRows l) 32) && decide (i < e.1.row / 32)))
        let w := runs.foldl (fun (acc : Bool × State) e => if acc.1 then acc.2.acceptOne c x (fieldAt d 0 4) e.1 e.2 else acc) (true, rs.2)
        if w.1 then (w.2.addSteps c x 0x10 64).itemEnd c x else w.2

/-- The frame of ACCEPT. -/
def acceptKind (c x : Nat) : OpKind :=
  { ok := fun _ l => acceptOk l, fits := fun _ _ => true, total := fun _ l => ceilDiv (kRows l) 32, work := fun _ => [],
    isItem := fun _ _ => true, start := fun s _ => s, go := fun s => s.acceptItem c x }

/-- ACCEPT. -/
def execAccept (c x : Nat) (s : State) : Host.Outcome State Fault Refusal := .next (s.opRow c x 0x21 (acceptKind c x))

end Sys2Proof.Machine
end

