-- ==== Sys2Proof/Machine/Ingest.lean ====
section
/-! DEFINITION. Sensor ingest (R332–R347): buffer rings, camera pipes, the parsers of range sensors, the Strainer. -/

namespace Sys2Proof.Machine

/-! ## Units -/

/-- Pipe i beside its registers. -/
def State.pipe (s : State) (i : Nat) : Pipe := sparseGet Pipe.idle s.pipes i
/-- Pipe i set. -/
def State.setPipe (s : State) (i : Nat) (v : Pipe) : State := { s with pipes := sparsePut Pipe.idle s.pipes i v }
/-- Parser e beside its registers. -/
def State.parser (s : State) (e : Nat) : Parser := sparseGet Parser.idle s.parsers e
/-- Parser e set. -/
def State.setParser (s : State) (e : Nat) (v : Parser) : State := { s with parsers := sparsePut Parser.idle s.parsers e v }
/-- Strainer instance n beside its registers. -/
def State.strain (s : State) (n : Nat) : Strain := sparseGet Strain.idle s.strs n
/-- Strainer instance n set. -/
def State.setStrain (s : State) (n : Nat) (v : Strain) : State := { s with strs := sparsePut Strain.idle s.strs n v }

/-! ## Buffer rings (R338) -/

/-- The latest complete buffer. -/
def BufRing.latest (r : BufRing) : Option (Nat × Nat × Nat) := r.done.getLast?

/-- The buffer that a frame start chooses among n: completed least recently (never completed first, lower number first), not last
released, not the one before it, not the latest complete one.
LOG 71 (DESIGN CHOICE). -/
def BufRing.choose (r : BufRing) (n : Nat) : Option Nat :=
  let out := fun (b : Nat) => r.last == some b || r.prev == some b || r.latest.map Prod.fst == some b
  (((List.range n).filter fun b => !r.hist.contains b) ++ r.hist.filter fun b => decide (b < n)).find? fun b => !out b

/-- The chosen buffer stops counting as complete. -/
def BufRing.take (r : BufRing) (b : Nat) : BufRing := { r with done := r.done.filter fun e => e.1 != b }

/-- A buffer completes in tick t. -/
def BufRing.finish (r : BufRing) (b stamp t : Nat) : BufRing :=
  { r with hist := r.hist.filter (· != b) ++ [b], done := r.done.filter (fun e => e.1 != b) ++ [(b, stamp, t)] }

/-- The buffer that a release at tick t finds, with its stamp: the latest one completed before t, if that was since the last release
(R277). -/
def BufRing.ready (r : BufRing) (t : Nat) : Option (Nat × Nat) :=
  match (r.done.filter fun e => decide (e.2.2 < t)).getLast? with
  | some (b, stamp, at_) => if r.relAt ≤ at_ then some (b, stamp) else none
  | none => none

/-- A release at tick t (R277). -/
def BufRing.release (r : BufRing) (t : Nat) : BufRing :=
  match r.ready t with
  | some (b, _) => { r with relAt := t, prev := r.last, last := some b }
  | none => { r with relAt := t }

/-- RING_STATE's WRITING and COMPLETE fields. -/
def State.showRing (s : State) (reg : Nat) (r : BufRing) (writing : Option Nat) : State :=
  (s.setFld reg 15 8 (writing.getD 0)).setFld reg 7 0 ((r.latest.map Prod.fst).getD 0)

/-- The address of buffer b of a ring whose registers start at `reg`. -/
def State.bufAddr (s : State) (reg b : Nat) : Nat := s.rd reg / 0x1000 * 0x1000 + 2 ^ 32 * s.fld (reg + 4) 8 0 + b * s.rd (reg + 8)

/-! ## Pipe stages (R335, R336) -/

/-- Bits per colour of a data type (MIPI CSI-2 codes); 0 for other types.
LOG 69 (PRESUMED). -/
def dtBits (dt : Nat) : Nat :=
  match dt with
  | 0x2A => 8
  | 0x2B => 10
  | 0x2C => 12
  | 0x2D => 14
  | 0x2E => 16
  | 0x24 => 8
  | _ => 0

/-- The bytes of a line of w pixels.
LOG 69 (PRESUMED). -/
def lineBytes (dt w : Nat) : Nat := if dt = 0x24 then 3 * w else ceilDiv (w * dtBits dt) 8

/-- Pixel p of a line's payload, its colours (R, G, B, or one), each scaled to 16 bits (MIPI CSI-2 packing).
LOG 69 (PRESUMED). -/
def unpackPixel (dt : Nat) (l : List Byte) (p : Nat) : List Nat :=
  let b := fun k => (l.getD k 0).toNat
  match dt with
  | 0x24 => [b (3 * p + 2) * 256, b (3 * p + 1) * 256, b (3 * p) * 256]
  | 0x2A => [b p * 256]
  | 0x2B => let g := p / 4 * 5; [(b (g + p % 4) * 4 + b (g + 4) / 4 ^ (p % 4) % 4) * 64]
  | 0x2C => let g := p / 2 * 3; [(b (g + p % 2) * 16 + b (g + 2) / 16 ^ (p % 2) % 16) * 16]
  | 0x2D => let g := p / 4 * 7; [(b (g + p % 4) * 64 + fieldAt l (g + 4) 3 / 64 ^ (p % 4) % 64) * 4]
  | _ => [b (2 * p) * 256 + b (2 * p + 1)]

/-- The colour of a CFA site: 0 R, 1 G (C under RCCB), 2 B.
LOG 70 (DESIGN CHOICE). -/
def cfaColour (cfa y x : Nat) : Nat :=
  let site := fun (y x : Nat) => y % 2 + x % 2
  match cfa with
  | 1 => site y (x + 1)
  | 2 => site (y + 1) x
  | 3 => site (y + 1) (x + 1)
  | 5 => 0
  | _ => site y x

/-- A rounded quotient of integers, ties to even. -/
def divRoundInt (a : Int) (b : Nat) : Int := if a < 0 then -(divRound a.natAbs b : Nat) else (divRound a.natAbs b : Nat)

/-- The settings of a pipe that its stages use. -/
structure PipeCfg where
  dt : Nat
  cfa : Nat
  w : Nat
  h : Nat
  cx : Nat
  cy : Nat
  cw : Nat
  ch : Nat
  ow : Nat
  oh : Nat
  fmt : Nat
  fold : Nat
  pf : Nat
  black : List Nat
  gain : List Nat
  m : List Int
  off : List Int
  deriving DecidableEq, Repr

/-- The stage settings of pipe i. -/
def State.pipeCfg (s : State) (i : Nat) : PipeCfg :=
  let f := fun o hi lo => s.fld (ingReg i o) hi lo
  let pair := fun o k => bits (s.rd (ingReg i (o + 4 * (k / 2)))) (16 * (k % 2) + 15) (16 * (k % 2))
  { dt := f 4 22 17, cfa := f 4 11 9, w := f 8 13 0, h := f 8 29 16, cx := f 0xC 13 0, cy := f 0xC 29 16, cw := f 0x10 13 0, ch := f 0x10 29 16,
    ow := f 0x14 12 0, oh := f 0x14 28 16, fmt := f 0x18 3 0, fold := 2 ^ f 0x18 5 4, pf := 2 ^ f 0x18 7 6,
    black := (List.range 4).map (pair 0x20), gain := (List.range 4).map (pair 0x28),
    m := (List.range 9).map (fun k => toSigned 16 (pair 0x30 k)), off := (List.range 3).map fun k => toSigned 16 (pair 0x30 (9 + k)) }

/-- Whether a pipe's data is one colour. -/
def PipeCfg.mono (g : PipeCfg) : Bool := g.dt != 0x24 && g.cfa == 5
/-- The channels of a pixel. -/
def PipeCfg.chans (g : PipeCfg) : Nat := if g.mono then 1 else 3

/-- Black level and gain. -/
def PipeCfg.gained (g : PipeCfg) (c v : Nat) : Nat := min 65535 (divRound ((v - g.black.getD c 0) * g.gain.getD c 0) 4096)

/-- A raw sample after black level and gain; coordinates past the border replicate it. -/
def PipeCfg.sample (g : PipeCfg) (lines : List (List Byte)) (y x : Int) (k : Nat) : Nat × Nat :=
  let yy := (max 0 (min y ((g.h : Int) - 1))).toNat
  let xx := (max 0 (min x ((g.w : Int) - 1))).toNat
  let v := unpackPixel g.dt (lines.getD yy []) xx
  let c := if g.dt = 0x24 then k else cfaColour g.cfa yy xx
  (c, g.gained c (v.getD (if g.dt = 0x24 then k else 0) 0))

/-- Colour k of a pixel after the demosaic. -/
def PipeCfg.colour (g : PipeCfg) (lines : List (List Byte)) (y x k : Nat) : Nat :=
  if g.dt = 0x24 ∨ g.cfa = 5 then (g.sample lines y x k).2
  else
    let near := (List.range 9).map fun n => g.sample lines ((y : Int) + (n / 3 : Nat) - 1) ((x : Int) + (n % 3 : Nat) - 1) k
    let own := (near.filter fun e => e.1 == k).map Prod.snd
    divRound (own.foldl (· + ·) 0) (max 1 own.length)

/-- Channel k after the colour matrix. -/
def PipeCfg.matrix (g : PipeCfg) (lines : List (List Byte)) (y x k : Nat) : Nat :=
  let sum := (List.range g.chans).foldl (fun (t : Int) j => t + g.m.getD (3 * k + j) 0 * (g.colour lines y x j : Nat)) 0
  (max 0 (min 65535 (divRoundInt sum 4096 + g.off.getD k 0))).toNat

/-- The prefiltered crop. -/
def PipeCfg.boxed (g : PipeCfg) (lines : List (List Byte)) (y x k : Nat) : Nat :=
  divRound (((List.range (g.pf * g.pf)).map fun n => g.matrix lines (g.cy + y * g.pf + n / g.pf) (g.cx + x * g.pf + n % g.pf) k).foldl (· + ·) 0) (g.pf * g.pf)

/-- The two source indices and the fraction of a resized index. -/
def resizeTap (nIn nOut o : Nat) : Nat × Nat × Nat :=
  let step := divRound (65536 * nIn) (max 1 nOut)
  let src := (max 0 (min ((((2 * o + 1) * step : Nat) : Int) - 65536) (2 * ((nIn : Int) - 1) * 65536)) / 2).toNat
  (src / 65536, min (src / 65536 + 1) (nIn - 1), src % 65536)

/-- Two values mixed by a fraction of 65,536. -/
def mix16 (a b f : Nat) : Nat := divRound (a * (65536 - f) + b * f) 65536

/-- A resized pixel.
LOG 70 (DESIGN CHOICE). -/
def PipeCfg.resized (g : PipeCfg) (lines : List (List Byte)) (y x k : Nat) : Nat :=
  let tx := resizeTap (g.cw / g.pf) g.ow x
  let ty := resizeTap (g.ch / g.pf) g.oh y
  let row := fun r => mix16 (g.boxed lines r tx.1 k) (g.boxed lines r tx.2.1 k) tx.2.2
  mix16 (row ty.1) (row ty.2.1) ty.2.2

/-- A pixel of 0 to 65535 as a number of 0 to 1, its last bit sticky. -/
def pixelVal (v : Nat) : Val :=
  let q := v * 2 ^ 40 / 65535
  .fin false (2 * q + b2n (q * 65535 != v * 2 ^ 40)) (-41)

/-- A value packed as an element: U8, INT8, or v ÷ 65,535 rounded once to BF16 or FP16. -/
def packPixel (fmt v : Nat) : Nat :=
  let u := min 255 (divRound v 256)
  if fmt = 0 then (u + 128) % 256
  else if fmt = 1 then u
  else if fmt = 6 then (roundFloat fmtBF16 false (pixelVal v)).code
  else (roundFloat fmtFP16 false (pixelVal v)).code

/-- The bytes of an output pixel. -/
def PipeCfg.stride (g : PipeCfg) : Nat := ceilDiv (g.fold * g.fold * g.chans * (fmtBits g.fmt / 8)) 16 * 16

/-- A row of output pixels. -/
def PipeCfg.outRow (g : PipeCfg) (lines : List (List Byte)) (r : Nat) : List Byte :=
  (List.range (g.ow / g.fold)).flatMap fun x =>
    let d := (List.range (g.fold * g.fold)).flatMap fun n => (List.range g.chans).flatMap fun k =>
      leBytes (fmtBits g.fmt / 8) (packPixel g.fmt (g.resized lines (r * g.fold + n / g.fold) (x * g.fold + n % g.fold) k))
    d ++ List.replicate (g.stride - d.length) 0

/-- The number of input lines that output rows below `r` need. -/
def PipeCfg.needs (g : PipeCfg) (r : Nat) : Nat :=
  let last := (resizeTap (g.ch / g.pf) g.oh (r * g.fold - 1)).2.1
  min g.h (g.cy + (last + 1) * g.pf + 1)

/-! ## Frames (R334, R337, R338) -/

/-- Whether pipe i works: its port is owned and it is enabled. -/
def State.pipeOn (s : State) (i : Nat) : Bool := (s.camOwner i).isSome && bit (s.rd (ingReg i 4)) 31

/-- A source of pipe i raised. -/
def State.raisePipe (s : State) (src : Src) (i : Nat) : State :=
  s.raise src (scopeOf (s.camOwner i)) { req := 0x210 + i, unit := i }

/-- The open frame of pipe i rewritten. -/
def State.modFrame (s : State) (i : Nat) (f : PipeFrame → PipeFrame) : State :=
  s.setPipe i { s.pipe i with frame := (s.pipe i).frame.map f }

/-- ING_STATUS.STATE. -/
def State.pipeState (s : State) (i v : Nat) : State := s.setFld (ingReg i 0) 1 0 v

/-- The open frame of pipe i abandoned: its buffer returns to the free set. -/
def State.frameDrop (s : State) (i : Nat) : State :=
  let p := s.pipe i
  ((((s.setPipe i { p with frame := none }).showRing (ingReg i 0x6C) p.ring none).countUp (ingReg i 0x74) 1).pipeState i 0).raisePipe .ingFrameDrop i

/-- Whether packing goes straight to scratchpad. -/
def State.direct (s : State) (i : Nat) : Bool := bit (s.rd (ingReg i 0x18)) 8

/-- The fire time a triggered frame pairs with.
LOG 74 (DESIGN CHOICE). -/
def State.pairFire (s : State) (i : Nat) : Option Nat :=
  (s.gen (s.fld (ingReg i 4) 15 12)).fired.find? fun f =>
    decide ((s.time + 2 ^ 64 - f) % 2 ^ 64 ≤ s.rd (ingReg i 0x58)) && !(s.pipe i).used.contains f

/-- A frame starts: stamped and given a buffer.
LOG 74 (DESIGN CHOICE). -/
def State.frameOpen (s : State) (i : Nat) : State :=
  let p := s.pipe i
  let trig := bit (s.rd (ingReg i 4)) 16
  let fire := if trig then s.pairFire i else none
  let stamp := match fire with
    | some f => (f + s.shown (ingReg i 0x50)) % 2 ^ 64
    | none => (s.time + 2 ^ 64 - s.rd (ingReg i 0x54)) % 2 ^ 64
  let uns := trig && fire.isNone
  let b := if s.direct i then some 0 else p.ring.choose (s.fld (ingReg i 0x6C) 20 16)
  let s := if uns then ((s.orReg (ingReg i 0) (2 ^ 29)).countUp (ingReg i 0x7C) 1).raisePipe .ingUnsynced i else s
  match b with
  | none => s
  | some b =>
    let ring := if s.direct i then p.ring else p.ring.take b
    let fr : PipeFrame := { buf := b, stamp := stamp, fire := fire.getD 0, unsynced := uns, bad := false, ended := false, lines := [], emb := [], strips := 0 }
    let s := s.setPipe i { p with ring := ring, frame := some fr, count := (p.count + 1) % 2 ^ 32, used := p.used ++ fire.toList }
    ((s.wr64 (ingReg i 0x80) stamp).showRing (ingReg i 0x6C) ring (some b)).pipeState i 1

/-- A frame-start packet: a frame still open is cut short. -/
def State.frameStart (s : State) (i vc : Nat) : State :=
  if vc ≠ s.fld (ingReg i 4) 26 23 then s.countUp (ingReg i 0x78) 1
  else (if (s.pipe i).frame.isSome then s.frameDrop i else s).frameOpen i

/-- FRAME_START. -/
def execFrameStart (i vc : Nat) (s : State) : Host.Outcome State Fault Refusal := .next (if s.pipeOn i then s.frameStart i vc else s)

/-- The bytes waiting in a staging queue. -/
def stagedBytes (q : List Staged) : Nat := (q.map fun e => match e.acc.kind with
  | .write l => l.length
  | _ => 8).foldl (· + ·) 0

/-- A write enters a staging queue of 64 KiB (R278); false where it is full. -/
def State.stagePut (s : State) (p src : Nat) (a : Access) (reply : Option (Nat × SpoutPacket)) : Bool × State :=
  let q := s.stage p src
  let n := match a.kind with
    | .write l => l.length
    | _ => 8
  if 65536 < stagedBytes q + n then (false, s)
  else (true, s.setStage p src (q ++ [{ at_ := s.ct, acc := a, reply := reply, released := false }]))

/-- A frame whose output was held off past the line buffers.
LOG 71 (DESIGN CHOICE). -/
def State.frameOverrun (s : State) (i : Nat) : State := (((s.orReg (ingReg i 0) (2 ^ 30)).raisePipe .ingOverrun i).frameDrop i).pipeState i 0

/-- Strip n of the open frame packed into its ring of the scratchpad, row by row, then its sequence number at DCOUNT (R339).
LOG 70 (DESIGN CHOICE). -/
def State.packStrip (s : State) (i n : Nat) : State :=
  let g := s.pipeCfg i
  let v := s.rd (ingReg i 0x18)
  let rows := bits v 23 16
  let c := bits v 29 24
  let rowLen := g.ow / g.fold * g.stride
  let p := s.pipe i
  match p.frame, s.camOwner i with
  | some f, some own =>
    let base := spAddr c (s.fld (ingReg i 0x1C) 12 0 * 256 + p.strip % (bits v 15 12 + 1) * (rows * rowLen))
    let put := fun (acc : Bool × State) (addr : Nat) (l : List Byte) =>
      if acc.1 then acc.2.stagePut own i { req := .pipe i, addr := 127 * 2 ^ 41 + addr, tagged := false, kind := .write l } none else acc
    let q := (List.range (min rows (g.oh / g.fold - n * rows))).foldl (fun acc r => put acc (base + r * rowLen) (g.outRow f.lines (n * rows + r))) (true, s)
    let q := put q (poolBase + 8 * s.fld (ingReg i 0x5C) 21 0) (leBytes 8 (p.strip + 1))
    if q.1 then (q.2.setPipe i { p with strip := p.strip + 1, frame := some { f with strips := n + 1 } }) else q.2.frameOverrun i
  | _, _ => s

/-- Every strip whose lines have arrived packed. -/
def State.packReady (s : State) (i : Nat) : Nat → State
  | 0 => s
  | fuel + 1 =>
    match (s.pipe i).frame with
    | none => s
    | some f =>
      let g := s.pipeCfg i
      let rows := s.fld (ingReg i 0x18) 23 16
      if f.bad || rows == 0 || decide (g.oh / g.fold ≤ f.strips * rows) || decide (f.lines.length < g.needs (min (g.oh / g.fold) ((f.strips + 1) * rows))) then s
      else State.packReady (s.packStrip i f.strips) i fuel

/-- A packet of the image's data type or embedded data of the open frame. -/
def State.csiData (s : State) (i : Nat) (pkt : CsiPacket) : State :=
  let g := s.pipeCfg i
  if pkt.dt = 0x12 then s.modFrame i fun f => { f with emb := (f.emb ++ pkt.payload).take 4032 }
  else
    let s := s.modFrame i fun f => if f.lines.length < g.h then { f with lines := f.lines ++ [pkt.payload], bad := f.bad || decide (pkt.payload.length < lineBytes g.dt g.w) } else f
    if s.direct i then s.packReady i 256 else s

/-- A packet at a camera port. -/
def State.csiPacket (s : State) (i : Nat) (pkt : CsiPacket) : State :=
  let err := fun (s : State) => ((s.orReg (ingReg i 0) (2 ^ 31)).raisePipe .ingCsiErr i).modFrame i fun f => { f with bad := true }
  if !pkt.headerOk then err s
  else if pkt.vc ≠ s.fld (ingReg i 4) 26 23 then s.countUp (ingReg i 0x78) 1
  else if pkt.dt = 0 then s.frameStart i pkt.vc
  else if pkt.dt = 1 then s.modFrame i fun f => { f with ended := true }
  else if pkt.dt ≠ 0x12 ∧ (pkt.dt ≠ s.fld (ingReg i 4) 22 17 ∨ dtBits pkt.dt = 0) then s.countUp (ingReg i 0x78) 1
  else if !pkt.crcOk then err s
  else s.csiData i pkt

/-- CSI_PACKET. -/
def execCsiPacket (i : Nat) (pkt : CsiPacket) (s : State) : Host.Outcome State Fault Refusal := .next (if s.pipeOn i then s.csiPacket i pkt else s)

/-- The header of a camera buffer (Table 15-3). -/
def frameHeader (g : PipeCfg) (f : PipeFrame) (count : Nat) : List Byte :=
  leBytes 8 f.stamp ++ leBytes 4 count ++ leBytes 4 (b2n f.unsynced) ++ leBytes 8 f.fire ++ leBytes 2 (g.ow / g.fold) ++ leBytes 2 (g.oh / g.fold) ++
  leBytes 2 (g.stride / 16) ++ leBytes 2 f.emb.length ++ leBytes 32 0 ++ f.emb ++ List.replicate (4032 - f.emb.length) 0

/-- The bytes of a frame's buffer. -/
def State.frameBytes (s : State) (i : Nat) (f : PipeFrame) : List Byte :=
  let g := s.pipeCfg i
  frameHeader g f (s.pipe i).count ++ (List.range (g.oh / g.fold)).flatMap (g.outRow f.lines)

/-- Whether a frame's output is held off: its buffer's channels are not in service. -/
def State.frameHeld (s : State) (i : Nat) (f : PipeFrame) : Bool :=
  !s.direct i && !s.lpReady (s.bufAddr (ingReg i 0x60) f.buf) (s.frameBytes i f).length

/-- A good frame's buffer written and complete. -/
def State.frameDone (s : State) (i : Nat) (f : PipeFrame) : State :=
  let p := s.pipe i
  let s := if s.direct i then s else (s.memWrite (.pipe i) (s.bufAddr (ingReg i 0x60) f.buf) (s.frameBytes i f)).2
  let ring := if s.direct i then p.ring else p.ring.finish f.buf f.stamp s.ct
  (((s.setPipe i { p with frame := none, ring := ring }).showRing (ingReg i 0x6C) ring none).countUp (ingReg i 0x70) 1).pipeState i 0

/-- FRAME_COMPLETE: every line has arrived, or the frame-end packet has come. -/
def execFrameComplete (i : Nat) (s : State) : Host.Outcome State Fault Refusal :=
  .next <| match (s.pipe i).frame with
    | some f =>
      let full := decide ((s.pipeCfg i).h ≤ f.lines.length)
      if !s.pipeOn i || !(full || f.ended) then s
      else if full && !f.bad then (if s.frameHeld i f then s.frameOverrun i else s.frameDone i f) else s.frameDrop i
    | none => s

/-- ING_STAMP_OFS: a write takes effect for frames that start after its tick; an unowned port is held in reset (R332).
LOG 74 (DESIGN CHOICE). -/
def execIngStampOfs (_r : Requester) (i value : Nat) (s : State) : Host.Outcome State Fault Refusal :=
  .next (if decide (i < s.nCameras) && (s.camOwner i).isSome then s.wrLate s.ct (ingReg i 0x50) value else s)

/-! ## Ethernet sensor parsers (R340–R342) -/

/-- A big-endian field of a byte list. -/
def beAt (l : List Byte) (o n : Nat) : Nat := (sliceBytes l o n).foldl (fun v b => 256 * v + b.toNat) 0

/-- The Internet checksum sum of bytes (padded with 0 to an even length), folded to 16 bits. -/
def inetSum (l : List Byte) : Nat :=
  let v := ((List.range (ceilDiv l.length 2)).map fun i => beAt l (2 * i) 2).foldl (· + ·) 0
  let f := fun n => n % 65536 + n / 65536
  f (f (f v))

/-- What a parser makes of a frame. -/
inductive ParseRes where
  | other
  | drop
  | take (payload : List Byte)
  deriving DecidableEq, Repr

/-- The template of parser e. -/
def State.template (s : State) (e : Nat) : List Byte := (List.range 8).flatMap fun k => leBytes 4 (s.rd (ethReg e (0x10 + 4 * k)))

/-- A frame from its destination address, without its FCS, against a template.
LOG 72 (DESIGN CHOICE). -/
def parseFrame (t f : List Byte) : ParseRes :=
  let tagged := beAt f 12 2 == 0x8100
  let o := if tagged then 16 else 12
  let et := beAt f o 2
  let vidOk := bit (fieldAt t 0 2) 12 || (tagged && beAt f 14 2 % 4096 == fieldAt t 0 2 % 4096)
  let ip := f.drop (o + 2)
  let v4 := et == 0x0800
  let ihl := 4 * ((ip.getD 0 0).toNat % 16)
  let shape := if v4 then (ip.getD 0 0).toNat / 16 == 4 && decide (20 ≤ ihl) && beAt ip 6 2 % 16384 == 0 && beAt ip 9 1 == 17 && decide (ihl + 8 ≤ beAt ip 2 2) && decide (beAt ip 2 2 ≤ ip.length)
    else et == 0x86DD && (ip.getD 0 0).toNat / 16 == 6 && beAt ip 6 1 == 17 && decide (8 ≤ beAt ip 4 2) && decide (40 + beAt ip 4 2 ≤ ip.length)
  let udp := if v4 then (ip.take (beAt ip 2 2)).drop ihl else (ip.drop 40).take (beAt ip 4 2)
  let len := beAt udp 4 2
  let pseudo := if v4 then sliceBytes ip 12 8 ++ [0, 17] ++ sliceBytes udp 4 2 else sliceBytes ip 8 32 ++ [0, 0] ++ sliceBytes udp 4 2 ++ [0, 0, 0, 17]
  if !vidOk || et != fieldAt t 2 2 || !shape || beAt udp 2 2 != fieldAt t 4 2 || decide (len < 8) || decide (udp.length < len) then .other
  else if (v4 && inetSum (ip.take ihl) != 0xFFFF) || (beAt udp 6 2 != 0 && inetSum (pseudo ++ udp.take len) != 0xFFFF) then .drop
  else
    let d := (udp.take len).drop 8
    if d.length < fieldAt t 6 2 + fieldAt t 0x14 2 * fieldAt t 8 1 then .drop else .take d

/-- A coordinate of a record: its raw value as FP32 times SCALE. -/
def pointCoord (t rec_ : List Byte) (o : Nat) : Nat :=
  let raw := match fieldAt t 9 1 with
    | 0 => fOfInt (toSigned 16 (fieldAt rec_ o 2))
    | 1 => fOfInt (toSigned 32 (fieldAt rec_ o 4))
    | _ => fieldAt rec_ o 4
  fmul raw (fieldAt t 0x10 4)

/-- A point record of 16 bytes.
LOG 72 (DESIGN CHOICE). -/
def pointBytes (t rec_ : List Byte) (dtUs : Nat) : List Byte :=
  let opt := fun o => if fieldAt t o 1 = 0xFF then 0 else fieldAt rec_ (fieldAt t o 1) 1
  [0xA, 0xB, 0xC].flatMap (fun o => leBytes 4 (pointCoord t rec_ (fieldAt t o 1))) ++ leBytes 2 (min 65535 dtUs) ++ leBytes 1 (opt 0xD) ++ leBytes 1 (opt 0xE)

/-- A buffer opens at t_first. -/
def State.pointOpen (s : State) (e t0 : Nat) : State :=
  let p := s.parser e
  match p.ring.choose (s.fld (ethReg e 0x3C) 20 16) with
  | none => s
  | some b =>
    let ring := p.ring.take b
    (s.setParser e { p with ring := ring, buf := some b, first := t0, points := [], seq := (p.seq + 1) % 2 ^ 32 }).showRing (ethReg e 0x3C) ring (some b)

/-- The open buffer completes, closed for the reason of a FLAGS bit. -/
def State.pointClose (s : State) (e flag : Nat) : State :=
  let p := s.parser e
  match p.buf with
  | none => s
  | some b =>
    let stamp := (p.first + 2 ^ 64 - s.rd (ethReg e 0x40)) % 2 ^ 64
    let d := leBytes 8 stamp ++ leBytes 4 p.seq ++ leBytes 4 (2 ^ flag) ++ leBytes 4 (p.points.length / 16) ++ leBytes 44 0 ++ p.points
    let s := (s.memWrite (.parser e) (s.bufAddr (ethReg e 0x30) b) d).2
    let ring := p.ring.finish b stamp s.ct
    (s.setParser e { p with ring := ring, buf := none, points := [] }).showRing (ethReg e 0x3C) ring none

/-- The point records of a packet, from record k on. -/
def State.pointAdd (s : State) (e tPkt : Nat) (d : List Byte) (k : Nat) : State :=
  let t := s.template e
  let s := if (s.parser e).buf.isNone then s.pointOpen e tPkt else s
  let p := s.parser e
  match p.buf with
  | none => s.countUp (ethReg e 0x4C) 1
  | some _ =>
    let rec_ := (d.drop (fieldAt t 6 2 + k * fieldAt t 8 1)).take (fieldAt t 8 1)
    let s := s.setParser e { p with points := p.points ++ pointBytes t rec_ (((tPkt + 2 ^ 64 - p.first) % 2 ^ 64) / 1000) }
    if fieldAt t 0x18 4 ≤ (s.parser e).points.length / 16 then s.pointClose e 2 else s

/-- The time at which the open buffer closes. -/
def State.closeAt (s : State) (e : Nat) : Nat := ((s.parser e).first + 1000 * fieldAt (s.template e) 0x16 2) % 2 ^ 64

/-- A packet taken by parser e at its receive time. -/
def State.pointPacket (s : State) (e tPkt : Nat) (d : List Byte) : State :=
  let t := s.template e
  let p := s.parser e
  let az := if fieldAt t 0xF 1 = 0xFF then none else some (fieldAt d (fieldAt t 6 2 + fieldAt t 0xF 1) 2)
  let wrap := match p.lastAz, az with
    | some a, some b => decide (b + 18000 < a)
    | _, _ => false
  let s := s.countUp (ethReg e 0x44) 1
  let s := if p.buf.isSome && reached tPkt (s.closeAt e) then s.pointClose e 1 else if wrap then s.pointClose e 0 else s
  let s := (List.range (fieldAt t 0x14 2)).foldl (fun s k => s.pointAdd e tPkt d k) s
  s.setParser e { s.parser e with lastAz := az }

/-- A packet that a parser drops. -/
def State.parseDrop (s : State) (e : Nat) : State :=
  ((s.orReg (ethReg e 0) (2 ^ 31)).countUp (ethReg e 0x48) 1).raise .ethParseDrop (scopeOf (s.ethOwner e)) { req := 0x220 + e, unit := e }

/-- BUFFER_CLOSE: t_first + CLOSE_US has passed. -/
def execBufferClose (e : Nat) (s : State) : Host.Outcome State Fault Refusal :=
  .next (if (s.parser e).buf.isSome && (s.ethOwner e).isSome && reached s.time (s.closeAt e) then s.pointClose e 1 else s)

/-! ## Releases (R277) -/

/-- The ring of buffered source n of Table 12-5. -/
def State.srcRing (s : State) (n : Nat) : BufRing := if n < 16 then (s.pipe n).ring else (s.parser (n - 16)).ring

/-- Buffered source n released for partition p at tick t; the new values show from t + 1. -/
def State.releaseBuf (s : State) (p n t : Nat) : State :=
  let a := btReg p (0x400 + 0x10 * n)
  let r := s.srcRing n
  let s := if n < 16 then s.setPipe n { s.pipe n with ring := r.release t } else s.setParser (n - 16) { s.parser (n - 16) with ring := r.release t }
  match r.ready t with
  | some (b, stamp) => ((s.wrLate t a (2 ^ 31 + 2 ^ 30 + b)).wrLate t (a + 4) (stamp % 2 ^ 32)).wrLate t (a + 8) (stamp / 2 ^ 32 % 2 ^ 32)
  | none => s.wrLate t a (setBit (s.rd a) 30 false)

/-! ## The Strainer (R343, R346) -/

/-- A register of instance n. -/
def strReg (n o : Nat) : Nat := pmReg (0x80000 + 0x20 * n + o)

/-- The sample count of instance n's clock: 1 GHz, or 25 MHz in the Cosy.
LOG 73 (DESIGN CHOICE). -/
def State.strNow (s : State) (n : Nat) : Nat := if n < 25 then s.clock.ns else s.clock.aon / 40

/-- A setting of instance n in samples: units of 2^PRE. -/
def State.strUnits (s : State) (n v : Nat) : Nat := v * 2 ^ s.fld (strReg n 4) 31 28
/-- MIN_W in samples, 0 counting as 1. -/
def State.minW (s : State) (n : Nat) : Nat := s.strUnits n (max 1 (s.fld (strReg n 4) 27 20))
/-- MIN_IV in samples. -/
def State.minIv (s : State) (n : Nat) : Nat := s.strUnits n (s.fld (strReg n 4) 19 10)
/-- MAX_ACT in samples. -/
def State.maxAct (s : State) (n : Nat) : Nat := s.strUnits n (s.fld (strReg n 4) 9 0)

/-- Whether instance n reports: an instance of a GPIO only where the pin is an input (R543). -/
def State.strOn (s : State) (n : Nat) : Bool :=
  decide (n < 31) && (decide (24 ≤ n) || bits (fieldAt (s.record 5 7) (0x10 + n) 1) 1 0 == 1)

/-- The reported level of instance n changes. -/
def State.strReport (s : State) (n : Nat) (b : Bool) : State := s.setFld (strReg n 8) 29 29 (b2n b)

/-- A level accepted, active after POL: reported, coalesced or held.
LOG 73 (DESIGN CHOICE). -/
def State.strAccept (s : State) (n : Nat) (active : Bool) : State :=
  let v := s.strain n
  let t := s.strNow n - s.minW n
  let held := match v.lastAt with
    | some a => s.minIv n != 0 && decide (t < a + s.minIv n)
    | none => false
  let s := if active then s else s.setFld (strReg n 8) 30 30 0
  let v1 := { v with level := active, activeAt := if active then some t else none }
  if bit (s.rd (strReg n 0)) 1 then
    if held then s.setStrain n { v1 with changes := v.changes + 1 } else (s.setStrain n { v1 with lastAt := some t }).strReport n active
  else if !active then (s.setStrain n v1).strReport n false
  else if held then ((s.setStrain n v1).countUp (strReg n 0x10) 1).strReport n true
  else (s.setStrain n { v1 with lastAt := some t, edges := v.edges ++ if n = 24 then [t] else [] }).strReport n true

/-- STRAINER_ACCEPT: the pin has held a level for MIN_W units; a level that is the accepted one ends a shorter pulse, which is
discarded and counted. -/
def execStrainerAccept (n : Nat) (level : Bool) (s : State) : Host.Outcome State Fault Refusal :=
  .next <|
    if !s.strOn n then s
    else
      let active := level != bit (s.rd (strReg n 0)) 0
      if active == (s.strain n).level then s.countUp (strReg n 0xC) 1 else s.strAccept n active

/-- The minimum interval of a level-mode instance ends: the current level is reported, skipped changes count. -/
def State.strIvEnd (s : State) (n : Nat) : State :=
  let v := s.strain n
  let differs := bit (s.rd (strReg n 8)) 29 != v.level
  let s := s.countUp (strReg n 0x10) (v.changes - b2n differs)
  if differs then (s.setStrain n { v with changes := 0, lastAt := some (s.strNow n) }).strReport n v.level else s.setStrain n { v with changes := 0 }

/-- MIN_IV_END.
LOG 73 (DESIGN CHOICE). -/
def execMinIvEnd (n : Nat) (s : State) : Host.Outcome State Fault Refusal :=
  .next <| match (s.strain n).lastAt with
    | some a => if s.strOn n && bit (s.rd (strReg n 0)) 1 && (s.strain n).changes != 0 && decide (a + s.minIv n ≤ s.strNow n) then s.strIvEnd n else s
    | none => s

/-- STRAINER_STUCK: an input active for MAX_ACT units.
LOG 73 (DESIGN CHOICE). -/
def execStrainerStuck (n : Nat) (s : State) : Host.Outcome State Fault Refusal :=
  .next <| match (s.strain n).activeAt with
    | some a =>
      if s.strOn n && s.maxAct n != 0 && decide (a + s.maxAct n ≤ s.strNow n) && !bit (s.rd (strReg n 8)) 30 then
        (s.orReg (strReg n 8) (2 ^ 31 + 2 ^ 30)).raise .strainerStuck 7 { unit := n }
      else s
    | none => s

end Sys2Proof.Machine
end

