-- ==== Sys2Proof/Machine/Brew.lean ====
section
/-! DEFINITION. The timed class (R262–R291) and the Taster (R438–R441): Brew Table records, minor frames, the entry actions, staging
queues, claims, self-test slices, publication, the Age Monitor, the network-on-chip slot tables. -/

namespace Sys2Proof.Machine

/-! ## The Brew Table (R265, R266, R286) -/

/-- An entry (Table 12-2). -/
def brewEntry (l : List Byte) : BrewEntry :=
  { offset := bits (fieldAt l 0 4) 29 0, minor := fieldAt l 4 1, action := fieldAt l 5 1, arg0 := fieldAt l 8 4, arg1 := fieldAt l 0xC 4 }

/-- A stream record (Table 12-10). -/
def streamRec (l : List Byte) : StreamRec :=
  { stream := fieldAt l 0 1 % 64, source := fieldAt l 1 1, task := fieldAt l 2 1, ageMax := fieldAt l 4 4, staleMax := fieldAt l 8 4, header := fieldAt l 0x10 6 }

/-- A Brew Table record (Table 12-1). -/
def brewTable (l : List Byte) : BrewTable :=
  let n := fieldAt l 2 2
  { minors := fieldAt l 1 1, minorNs := fieldAt l 4 4, epoch := fieldAt l 8 8, busyCt := fieldAt l 0x10 4,
    entries := (List.range n).map fun k => brewEntry ((l.drop (0x20 + 16 * k)).take 16),
    streams := (List.range (fieldAt l 0x14 1)).map fun k => streamRec ((l.drop (0x20 + 16 * n + 32 * k)).take 32) }

/-- The start time of minor frame f since EPOCH (R262). -/
def BrewTable.frameTime (b : BrewTable) (f : Nat) : Nat := (b.epoch + f * b.minorNs) % 2 ^ 64

/-- The Age Monitor's record of a stream. -/
def State.stream (s : State) (n : Nat) : Option Stream := assoc s.streams n
/-- The Age Monitor's record of a stream rewritten. -/
def State.modStream (s : State) (n : Nat) (f : Stream → Stream) : State :=
  { s with streams := s.streams.map fun e => if e.1 = n then (e.1, f e.2) else e }

/-- The streams of a table registered for partition p; `keep`: those already known keep their state. -/
def State.takeStreams (s : State) (p : Nat) (b : BrewTable) (keep : Bool) : State :=
  let old := s.streams.filter fun e => e.2.part == p
  let fresh : Stream := { part := p, stamp := 0, published := false, since := s.time, stale := false }
  let now := b.streams.map fun r => (r.stream, if keep then (assoc old r.stream).getD fresh else fresh)
  { s with streams := s.streams.filter (fun e => e.2.part != p) ++ now }

/-- The dispatcher of partition p at the partition's boot: its table active in bank 0, waiting for its first frame. -/
def State.bootDispatcher (s : State) (p : Nat) : State :=
  let l := s.record 0x11 p
  let s := s.resetRegs (btReg p 0) (btReg p 0x10000)
  if l.isEmpty then s.setDsp p { Brew.stopped with boot := s.time }
  else
    let b := brewTable l
    let s := s.setDsp p { Brew.stopped with table := some b, boot := s.time, frameNo := b.frameFrom s.time }
    (s.takeStreams p b false).setFld (btReg p 0) 3 0 1

/-- The shadow bank becomes the active one in the boundary tick (R40, R267): the frame that starts takes the new table's number.
LOG 138 (DESIGN CHOICE). -/
def State.switchTable (s : State) (p : Nat) : State :=
  let b := brewTable (s.record 0x11 p)
  let d := s.dsp p
  let at_ := match d.table with
    | some o => o.frameTime d.frameNo
    | none => s.time
  let n := toSigned 64 (at_ + 2 ^ 64 - b.epoch % 2 ^ 64)
  let s := s.setDsp p { d with table := some b, shadow := d.table, frameNo := (n / (b.minorNs : Int)).toNat }
  let bank := s.fld (btReg p 4) 15 15
  (s.takeStreams p b true).setFld (btReg p 4) 15 15 (1 - bank)

/-! ## Claims (R91, R101, R271, R282, R283) -/

/-- Whether the Taster reservation of partition p is in force. -/
def State.tasterHolds (s : State) (p : Nat) : Bool :=
  match (s.dsp p).taster with
  | some t => decide (s.ct < t + 448)
  | none => false

/-- Whether a claim of partition p holds array a of cluster c. -/
def State.arrClaimed (s : State) (p c a : Nat) : Bool :=
  let d := s.dsp p
  s.tasterHolds p || (d.claims.any fun k => k.clusters.contains c && bit k.arrays a) ||
  d.slices.any fun k => k.kind == 1 && k.unit == c && k.index == a

/-- Whether a claim of partition p holds engine e of cluster c. -/
def State.vecClaimed (s : State) (p c e : Nat) : Bool :=
  let d := s.dsp p
  s.tasterHolds p || (d.claims.any fun k => k.clusters.contains c && bit k.engines e) ||
  d.slices.any fun k => k.kind == 2 && k.unit == c && k.index == e

/-- The arrays and engines of partition p follow its claims.
LOG 59 (DESIGN CHOICE). -/
def State.applyClaims (s : State) (p : Nat) : State :=
  (s.clustersOf p).foldl (fun s c =>
    let s := (List.range 8).foldl (fun s a => s.setArr c a { s.arr c a with claim := s.arrClaimed p c a }) s
    (List.range 2).foldl (fun s e => s.setVec c e { s.vec c e with claim := s.vecClaimed p c e }) s) s

/-! ## Minor frames (R262–R264) -/

/-- Partition p is parked (R500): its dispatcher stops and its tasks are aborted. -/
def State.park (s : State) (p : Nat) : State :=
  let s := (s.stopDispatcher p).abortPart p
  { s with power := { s.power with parked := s.power.parked.filter (fun q => q != p) ++ [p], since := s.clock.aon } }

/-- The partitions that a state entry parks: all, or for Watch all but the watch partition (Table 23-1). -/
def State.parks (s : State) (target p : Nat) : Bool :=
  decide (p < 4) && (if target = 2 then fieldAt (s.record 0x14 7) 1 1 != p else target == 1 || target == 3)

/-- Whether a state entry in progress parks partition p at its next frame start (Table 23-3). -/
def State.parkDue (s : State) (p : Nat) : Bool := bit (s.rd (pmReg 0)) 3 && s.parks (s.fld (pmReg 0) 7 4) p

/-- The tick in which an instant of synthesised time lies or ends, as seen from now: the first tick at or after it (R262). -/
def State.tickOf (s : State) (t : Nat) : Nat := nsToCt (s.clock.ns - (s.time + 2 ^ 64 - t % 2 ^ 64) % 2 ^ 64)

/-- The synthesised time of a tick that has begun. -/
def State.timeAt (s : State) (t : Nat) : Nat := (s.time + 2 ^ 64 - (s.clock.ns - ctToNs t) % 2 ^ 64) % 2 ^ 64

/-- The start tick of the next minor frame, once it has come: the first tick at or after its start time, postponed past the windows of the
previous frame (R262, R264). -/
def State.frameTickDue (s : State) (p : Nat) (b : BrewTable) : Option Nat :=
  let d := s.dsp p
  let t := b.frameTime d.frameNo
  if reached s.time t then
    let n := max (s.tickOf t) d.busyTill
    if n ≤ s.ct then some n else none
  else none

/-- A frame skipped: none of its entries fires; a skipped minor frame 0 is still a boundary.
LOG 57 (DESIGN CHOICE). -/
def State.frameSkip (s : State) (p : Nat) (b : BrewTable) : State :=
  let d := s.dsp p
  let m := d.frameNo % b.minors
  let s := s.setDsp p { d with frameNo := d.frameNo + 1, boundary := d.boundary || m == 0, squeezed := false }
  ((s.countUp (btReg p 0x1C) 1).orReg (btReg p 0) (2 ^ 24)).raise .frameSkip p { unit := m }

/-- A frame start postponed to FRAME_BUSY_CT after the previous one, once. -/
def State.frameSqueeze (s : State) (p : Nat) (b : BrewTable) : State :=
  let d := s.dsp p
  if d.squeezed then s
  else
    let s := (s.setDsp p { d with squeezed := true }).setFld (btReg p 0) 3 0 3
    ((s.countUp (btReg p 0x18) 1).orReg (btReg p 0) (2 ^ 24)).raise .frameSqueeze p { unit := d.frameNo % b.minors }

/-- The step a reset of scope p has reached (Table 21-7); 0 where none runs. -/
def State.resetStep (s : State) (p : Nat) : Nat := match s.urn.active.find? fun r => r.scope == p with
  | some r => r.step
  | none => 0

/-- The pending records of a scope are closed (R459). -/
def State.closeScope (s : State) (p : Nat) : State :=
  State.showPending { s with urn := { s.urn with pending := s.urn.pending.filter fun q => q.rcd.scope != p } }

/-- The reset of scope p ends: the scope is in service, and the commands that asked for it complete (R467, R471). -/
def State.endReset (s : State) (p : Nat) : State :=
  let cmds := (s.urn.active.filter fun r => r.scope == p).flatMap (·.cmds)
  let s := { s with urn := { s.urn with active := s.urn.active.filter fun r => r.scope != p } }
  let s := (s.setRecState p (if (s.prec p).active then 0 else 6)).closeScope p
  let s := if p < 4 then s.setFld (urnReg 0xC000) p p 0 else s
  cmds.foldl (fun s k => s.complete k.1 k.2 stOk 0 0) s

/-- A frame starts, its start tick being t.
LOG 58 (DESIGN CHOICE). -/
def State.frameGo (s : State) (p : Nat) (b : BrewTable) (t : Nat) : State :=
  let d := s.dsp p
  let m := d.frameNo % b.minors
  let e := (b.entries.findIdx? fun e => e.minor == m).getD b.entries.length
  let s := s.setDsp p
    { d with
      frameTick := t, busyTill := t + b.busyCt, frameNo := d.frameNo + 1, inFrame := true, nextEntry := e, framesRun := d.framesRun + 1, squeezed := false,
      boundary := false, lastTaster := if d.framesRun = 0 then s.time else d.lastTaster }
  let s := ((s.wr64 (btReg p 8) (b.frameTime d.frameNo)).setFld (btReg p 4) 31 16 e).setFld (btReg p 4) 5 0 m
  let s := s.setFld (btReg p 0) 3 0 2
  let s := if s.resetStep p = 8 then s.endReset p else s
  { s with tasks := s.tasks.map fun t => if t.2.part = p ∧ t.2.timed = true then (t.1, { t.2 with lateRaised := false }) else t }

/-- A frame's start tick: it parks, is skipped, postponed, or starts.
LOG 57 (DESIGN CHOICE). -/
def State.minorFrame (s : State) (p : Nat) (b : BrewTable) : State :=
  let d := s.dsp p
  if s.parkDue p then s.park p
  else if reached s.time (b.frameTime (d.frameNo + 1)) then s.frameSkip p b
  else
    let s := if s.tickOf (b.frameTime d.frameNo) < d.busyTill then s.frameSqueeze p b else s
    match s.frameTickDue p b with
    | some t => s.frameGo p b t
    | none => s

/-- MINOR_FRAME_START: the next frame's start time is reached, and the timebase is valid (R354, R505). -/
def execMinorFrameStart (p : Nat) (s : State) : Host.Outcome State Fault Refusal :=
  .next <| match (s.dsp p).table with
    | some b =>
      if decide (p < 4) && s.fld (btReg p 0) 3 0 != 0 && (!s.scopeStopped p || s.resetStep p == 8) && bit (s.rd (tbReg 0)) 31 && reached s.time (b.frameTime (s.dsp p).frameNo)
      then s.minorFrame p b else s
    | none => s

/-! ## Entries (R267) -/

/-- The next entry of the current minor frame, where its tick has come and its ACTION is the one asked for. -/
def State.entryDue (s : State) (p action : Nat) : Option BrewEntry :=
  let d := s.dsp p
  match d.table with
  | none => none
  | some b =>
    match b.entries[d.nextEntry]? with
    | none => none
    | some e =>
      if d.inFrame && !s.scopeStopped p && e.action == action && e.minor == s.fld (btReg p 4) 5 0 && decide (d.frameTick + e.offset ≤ s.ct) then some e
      else none

/-- An entry fires: its effect, given its tick T. -/
def State.fire (s : State) (p action : Nat) (f : BrewEntry → Nat → State → State) : State :=
  match s.entryDue p action with
  | none => s
  | some e =>
    let d := s.dsp p
    f e (d.frameTick + e.offset) ((s.setDsp p { d with nextEntry := d.nextEntry + 1 }).setFld (btReg p 4) 31 16 (d.nextEntry + 1))

/-! ## Timed tasks (R269, R270) -/

/-- A timed task of the loaded Program. -/
def State.timedRec (s : State) (p idx : Nat) : Option TaskRec := (s.prog p).bind fun g => g.tasks.find? fun r => r.timed && r.index == idx

/-- A timed launch: the registers of every cluster's timed context written; the task starts 24 ct after T.
LOG 59 (DESIGN CHOICE). -/
def State.timedLaunch (s : State) (p : Nat) (r : TaskRec) (t endCt : Nat) : State :=
  let n := s.nextTask
  let k : Task :=
    { part := p, rcd := r, timed := true, cmd := none, left := r.clusters, aborted := false, ended := false, suspended := false, launchAt := t, endCt := endCt,
      started := false, slipped := false, lateRaised := false, blockedSince := s.ct, hangRaised := false }
  let s := { s with nextTask := n + 1, tasks := s.tasks ++ [(n, k)] }
  let s := if r.step then (s.setStep p { s.step_ p with task := some n }).setSeqState p 2 else s
  r.clusters.foldl (fun s c =>
    let s := s.setCtx c 4 { Ctx.empty with task := some n }
    (s.firstLoad c 4 r).modTil c 4 fun q => { q with active := false }) s

/-- BREW_LAUNCH: a LAUNCH entry. -/
def execBrewLaunch (p : Nat) (s : State) : Host.Outcome State Fault Refusal :=
  .next <| s.fire p 1 fun e t s =>
    match s.timedRec p (e.arg0 % 256) with
    | none => s
    | some r =>
      match r.clusters.find? fun c => (s.ctx c 4).task.isSome with
      | some c => s.slotConflict p c 0
      | none =>
        let b := if r.step then (if s.stewardUp && bit (s.rd (seqCtl p 4)) 0 then s.build p else (false, s)) else (true, s)
        if b.1 then b.2.timedLaunch p r t (bits e.arg1 29 0) else b.2

/-- TIMED_TASK_START: 24 ct after its LAUNCH entry the task runs on all its clusters.
LOG 59 (DESIGN CHOICE). -/
def execTimedTaskStart (p task : Nat) (s : State) : Host.Outcome State Fault Refusal :=
  .next <| match s.task task with
    | none => s
    | some k =>
      if k.timed && k.part == p && !k.started && !k.ended && decide (k.launchAt + 24 ≤ s.ct) then
        let s := s.modTask task fun k => { k with started := true }
        k.rcd.clusters.foldl (fun s c => (s.setCtxState c 4 7 0).modTil c 4 fun q => { q with active := true }) s
      else s

/-- DEADLINE_MISS: a timed task that has not ended by T + 24 + END. -/
def execDeadlineMiss (p task : Nat) (s : State) : Host.Outcome State Fault Refusal :=
  .next <| match s.task task with
    | none => s
    | some k =>
      if k.timed && k.part == p && !k.ended && decide (k.launchAt + 24 + k.endCt ≤ s.ct) then
        (s.raise .deadlineMiss p { ctx := 4, info0 := k.rcd.index, task := some task, cluster := k.rcd.clusters.head? }).teardownTask task
      else s

/-! ## Time-released ingress (R277, R278) -/

/-- The staged writes of a source that entered before T released, its injection running until `stop`. -/
def State.releaseStage (s : State) (p src t stop : Nat) : State :=
  let q := s.stage p src
  let s := s.setStage p src (q.map fun e => if e.at_ < t then { e with released := true } else e)
  let d := s.dsp p
  if q.any fun e => decide (e.at_ < t) then s.setDsp p { d with injecting := d.injecting.filter (fun e => e.1 != src) ++ [(src, t, stop)] } else s

/-- INGRESS: an INGRESS entry releases its sources (Table 12-5). -/
def execIngress (p : Nat) (s : State) : Host.Outcome State Fault Refusal :=
  .next <| s.fire p 2 fun e t s =>
    (bitList (bits e.arg0 25 0) 26).foldl (fun s n =>
      let s := if n < 20 then s.releaseBuf p n t else s
      if 16 ≤ n ∧ n < 20 then s else s.releaseStage p n t (t + bits e.arg1 23 0 - 40)) s

/-- STAGING_ENQUEUE: a write enters its source's queue; a full queue holds its source off.
LOG 64 (DESIGN CHOICE). -/
def execStagingEnqueue (src p : Nat) (a : Access) (s : State) : Host.Outcome State Fault Refusal :=
  .next <|
    let held := match a.kind with
      | .write _ | .signal _ | .set _ => true
      | _ => false
    if decide (p < 4) && decide (src < 26) && held && (s.prec p).active then (s.stagePut p src a none).2 else s

/-! ## Handoff buffers and claims (R26, R271) -/

/-- SWAP: the timed consumer gets the version that the elastic producer has completed since the last swap, or reads the previous one
again, which ND_TIMING counts. The manual gives no way in which the producer tells: whether it has completed one is a free value.
LOG 61 (DESIGN CHOICE). -/
def execSwap (p : Nat) (s : State) : Host.Outcome State Fault Refusal :=
  .next <| s.fire p 3 fun e t s =>
    let a := btReg p (0x100 + 4 * (e.arg0 % 64))
    if (Config.freeWord s.fresh).getLsbD 0 then s.draw.wrLate t a (1 - s.rd a % 2) else s.draw.ndTiming (some p)

/-- CLAIM: a CLAIM entry holds the named units of every cluster of its task. -/
def execClaim (p : Nat) (s : State) : Host.Outcome State Fault Refusal :=
  .next <| s.fire p 4 fun e t s =>
    let cl := match s.timedRec p (e.arg0 % 256) with
      | some r => r.clusters
      | none => []
    let d := s.dsp p
    let k : ClaimRec := { clusters := cl, arrays := bits e.arg0 15 8, engines := bits e.arg0 17 16, until_ := t + bits e.arg1 23 0 }
    (s.setDsp p { d with claims := d.claims ++ [k] }).applyClaims p

/-- CLAIM_RELEASE: the claims that have ended are released. -/
def execClaimRelease (p : Nat) (s : State) : Host.Outcome State Fault Refusal :=
  .next <|
    let d := s.dsp p
    if d.claims.any fun k => decide (k.until_ ≤ s.ct) then
      (s.setDsp p { d with claims := d.claims.filter fun k => decide (s.ct < k.until_) }).applyClaims p
    else s

/-! ## The Taster (R282, R438–R440) -/

/-- TASTER: every array, engine and Mover of the partition is reserved for 448 ct. -/
def execTaster (p : Nat) (s : State) : Host.Outcome State Fault Refusal :=
  .next <| s.fire p 5 fun _ t s => (s.setDsp p { s.dsp p with taster := some t, tasterRun := false, compared := [] }).applyClaims p

/-- The golden set of the current frame: the frames run before it, modulo 8.
LOG 63 (DESIGN CHOICE). -/
def State.goldenSet (s : State) (p : Nat) : Nat := ((s.dsp p).framesRun - 1) % 8

/-- The signatures of every unit of the partition's clusters. -/
def State.goldenRun (s : State) (p : Nat) (errors : List UnitError) : List (Nat × Nat × Nat) :=
  ((List.range s.nClusters).filter fun c => s.ownerOf c == some p).flatMap fun c => goldenUnits.map fun u => (c, u, s.signature (s.goldenSet p) c u errors)

/-- GOLDEN_TEST: at T + 320 the golden set runs into the signature compressors; no memory, flag or counter changes. -/
def execGoldenTest (p : Nat) (errors : List UnitError) (s : State) : Host.Outcome State Fault Refusal :=
  .next <| match (s.dsp p).taster with
    | some t =>
      if t + 320 ≤ s.ct ∧ (s.dsp p).tasterRun = false then s.setDsp p { s.dsp p with tasterRun := true, signatures := s.goldenRun p errors } else s
    | none => s

/-- The units of cluster c whose signature differs from the expected one (R440). -/
def State.goldenBad (s : State) (p c : Nat) : List Nat :=
  ((s.dsp p).signatures.filter fun e => e.1 == c && e.2.2 != s.expected (s.goldenSet p) c e.2.1).map fun e => e.2.1

/-- The registers of a cluster after a golden test whose failing units are given (Table 20-8); a lockstep pair's are those of its even
cluster (R452). -/
def State.tasterNote (s : State) (c set : Nat) (units : List Nat) : State :=
  let mask := fun (lo n : Nat) => (List.range n).foldl (fun m k => if units.contains (lo + k) then m + 2 ^ k else m) 0
  let arrays := mask 0 8
  let engines := mask 8 2
  let mover := units.contains 10
  let rc := if s.isLockstep (c / 2) then c / 2 * 2 else c
  let a := clReg rc 0xB08
  let bad := !units.isEmpty
  let fail := bit (s.rd a) 31
  let s := if rc = c then s.countWrap (clReg c 0xB0C) 1 else s
  let s := s.setFld a 30 28 set
  if bad && !fail then (s.wr a (setBits (setBits (setBits (s.rd a) 13 12 engines) 11 11 (b2n mover)) 7 0 arrays)).orReg a (2 ^ 31) else s

/-- TASTER_COMPARE: at T + 448 the signatures of cluster c are compared. -/
def execTasterCompare (p c : Nat) (s : State) : Host.Outcome State Fault Refusal :=
  .next <| match (s.dsp p).taster with
    | none => s
    | some t =>
      let d := s.dsp p
      if d.tasterRun && decide (t + 448 ≤ s.ct) && s.ownerOf c == some p && decide (c < s.nClusters) && !d.compared.contains c then
        let set := s.goldenSet p
        let s := s.setDsp p { d with compared := d.compared ++ [c], lastTaster := s.time }
        let units := s.goldenBad p c
        let s := (s.tasterNote c set units).applyClaims p
        let s := { s with urn := { s.urn with diagnose := s.urn.diagnose ++ ((units.filter (· < 8)).map fun a => c * 8 + a).filter fun k => !s.urn.diagnose.contains k } }
        units.foldl (fun s u => s.raise .tasterMismatch p { cluster := some c, unit := u, info0 := set, info1 := c }) s
      else s

/-! ## Sliced self-test (R283–R285, R442) -/

/-- Table 12-9: claim lead, nominal slice, slices per test. -/
def testKind (k : Nat) : Nat × Nat × Nat :=
  match k with
  | 1 => (320, 2048, 16)
  | 2 => (64, 1024, 8)
  | 3 => (0, 512, 16)
  | 4 => (0, 256, 8)
  | _ => (0, 512, 128)

/-- The key of a unit's self-test record. -/
def testKey (kind unit index : Nat) : Nat := kind * 2 ^ 16 + unit * 32 + index

/-- A unit's self-test record. -/
def State.unitTest (s : State) (k : Nat) : UnitTest := sparseGet UnitTest.fresh s.tests k
/-- A unit's self-test record set. -/
def State.setUnitTest (s : State) (k : Nat) (v : UnitTest) : State := { s with tests := sparsePut UnitTest.fresh s.tests k v }

/-- SELFTEST: a SELFTEST entry claims its unit. -/
def execSelftest (p : Nat) (s : State) : Host.Outcome State Fault Refusal :=
  .next <| s.fire p 6 fun e t s =>
    let kind := bits e.arg0 11 8
    let k : SliceRec :=
      { kind := kind, unit := bits e.arg0 6 0, index := bits e.arg0 16 12, startAt := t + (testKind kind).1, endAt := t + bits e.arg1 23 0, running := false }
    let d := s.dsp p
    (s.setDsp p { d with slices := d.slices ++ [k] }).applyClaims p

/-- Whether a unit may start its slice: logic BIST runs only on an idle unit. -/
def State.sliceMay (s : State) (k : SliceRec) : Bool :=
  match k.kind with
  | 1 => s.arrIdle k.unit k.index
  | 2 => (s.vec k.unit k.index).running.isNone || decide ((s.vec k.unit k.index).until_ ≤ s.ct)
  | _ => true

/-- SELFTEST_SLICE: after the claim lead the unit's next slice starts.
LOG 60 (DESIGN CHOICE). -/
def execSelftestSlice (p : Nat) (s : State) : Host.Outcome State Fault Refusal :=
  .next <|
    let d := s.dsp p
    s.setDsp p { d with slices := modFirst (fun k => !k.running && decide (k.startAt ≤ s.ct) && decide (s.ct < k.endAt) && s.sliceMay k) (fun k => { k with running := true }) d.slices }

/-- A slice finished: its unit stays claimed to the end of its window; a failing one is reported once the unit is restored.
LOG 60 (DESIGN CHOICE). -/
def State.sliceDone (s : State) (p : Nat) (k : SliceRec) (failAt : Option Nat) : State :=
  let d := s.dsp p
  let hold : ClaimRec :=
    { clusters := [k.unit], arrays := if k.kind = 1 then 2 ^ k.index else 0, engines := if k.kind = 2 then 2 ^ k.index else 0, until_ := k.endAt }
  let s := s.setDsp p { d with slices := d.slices.erase k, claims := if k.kind ≤ 2 then d.claims ++ [hold] else d.claims }
  let key := testKey k.kind k.unit k.index
  let v := s.unitTest key
  let s := s.setUnitTest key (if v.next + 1 < (testKind k.kind).2.2 then { v with next := v.next + 1 } else { next := 0, doneAt := s.time, raised := false })
  let s := (s.countUp (btReg p 0x28) 1).applyClaims p
  match failAt with
  | none => s
  | some w =>
    let fix := if k.kind = 1 then [(k.unit, k.index, w)] else if k.kind = 3 then [(k.unit, 8 + k.index, w)] else []
    let s := { s with repairs := s.repairs ++ fix.filter fun e => !s.repairs.contains e }
    s.raise .selftestFail p { unit := k.unit, info0 := k.kind + 256 * k.index, info1 := w, cluster := if k.kind = 5 then none else some k.unit }

/-- SLICE_END: the running slice has taken at least its nominal length; `failAt` is the column, row or cell it found at fault.
LOG 60 (DESIGN CHOICE). -/
def execSliceEnd (p : Nat) (failAt : Option Nat) (s : State) : Host.Outcome State Fault Refusal :=
  .next <| match (s.dsp p).slices.find? fun k => k.running && decide (k.startAt + (testKind k.kind).2.1 ≤ s.ct) && decide (s.ct ≤ k.endAt) with
    | some k => s.sliceDone p k failAt
    | none => s

/-- SLICE_ABANDON: a slice whose window has ended is dropped and runs again in the unit's next window. -/
def execSliceAbandon (p : Nat) (s : State) : Host.Outcome State Fault Refusal :=
  .next <|
    let d := s.dsp p
    match d.slices.find? fun k => decide (k.endAt ≤ s.ct) with
    | some k => ((s.setDsp p { d with slices := d.slices.erase k }).countUp (btReg p 0x2C) 1).applyClaims p
    | none => s

/-- Whether a unit of a KIND belongs to partition p. -/
def State.testUnit (s : State) (p kind unit index : Nat) : Bool :=
  match kind with
  | 1 => (s.clustersOf p).contains unit && decide (index < 8)
  | 2 => (s.clustersOf p).contains unit && decide (index < 2)
  | 3 => (s.clustersOf p).contains unit && decide (index < 32)
  | 4 => (s.clustersOf p).contains unit && decide (index < 8)
  | 5 => assoc s.poolBanks unit == some p && index == 0
  | _ => false

/-- SELFTEST_OVERDUE: a unit whose test is older than its interval, once per unit; the first is latched.
LOG 127 (DESIGN CHOICE). -/
def execSelftestOverdue (p kind unit index : Nat) (s : State) : Host.Outcome State Fault Refusal :=
  .next <|
    let key := testKey kind unit index
    let v := s.unitTest key
    let from_ := if v.doneAt = 0 then (s.dsp p).boot else v.doneAt
    let late := decide (toSigned 64 (s.time + 2 ^ 64 - from_ % 2 ^ 64) > (s.rd (btReg p (0x40 + 4 * kind)) * 1000000000 : Nat))
    if decide (p < 4) && (s.prec p).active && s.testUnit p kind unit index && late && !v.raised then
      let s := s.setUnitTest key { v with raised := true }
      let a := btReg p 0x30
      let s := if bit (s.rd a) 31 then s else s.wr a (2 ^ 31 + kind * 2 ^ 17 + index * 2 ^ 12 + unit)
      s.raise .selftestOverdue p { unit := unit, info0 := kind + 256 * index }
    else s

/-! ## Publishing and the Age Monitor (R286–R288, R445) -/

/-- A stream record with the partition whose table holds it. -/
def State.streamOf (s : State) (n : Nat) : Option (Nat × StreamRec) :=
  (List.range 4).findSome? fun p => (s.dsp p).table.bind fun b => (b.streams.find? fun r => r.stream == n).map fun r => (p, r)

/-- An age in ns as a signed difference (R350). -/
def State.age (s : State) (stamp : Nat) : Int := toSigned 64 (s.time + 2 ^ 64 - stamp % 2 ^ 64)

/-- What a fault of the Age Monitor records: the stream and the age.
LOG 127 (DESIGN CHOICE). -/
def ageInfo (n : Nat) (age : Int) : FaultInfo := { unit := n, info0 := ofSigned 64 age % 2 ^ 32, info1 := ofSigned 64 age / 2 ^ 32 }

/-- A publication at a synthesised time: SEQ + 1 and AGE_US in the header, STAMP and time to the Age Monitor, which checks the age.
LOG 62 (DESIGN CHOICE). -/
def State.publish (s : State) (p : Nat) (r : StreamRec) (stamp at_ : Nat) : Bool × State :=
  let q := s.memRead .steward (r.header + 8) 4
  match q.1.err with
  | some _ => (false, q.2)
  | none =>
    let s := q.2
    let age := toSigned 64 (at_ + 2 ^ 64 - stamp % 2 ^ 64)
    let w := s.memWrite .steward (r.header + 8) (leBytes 4 ((leNat q.1.bytes + 1) % 2 ^ 32) ++ leBytes 4 (ofSigned 32 (age / 1000)))
    let s := w.2.modStream r.stream fun v => { v with stamp := stamp, published := true, stale := v.stale && !decide (age < (r.staleMax : Int)) }
    (true, if age > (r.ageMax : Int) then s.raise .ageLate p (ageInfo r.stream age) else s)

/-- PUBLISH: a PUBLISH entry publishes its stream where the producing task has ended without abort since the last one. -/
def execPublish (p : Nat) (s : State) : Host.Outcome State Fault Refusal :=
  .next <| s.fire p 7 fun e t s =>
    let n := e.arg0 % 64
    let withheld := fun (s : State) => s.countUp (btReg p 0x20) 1
    let fresh := (s.dsp p).fresh.contains n
    let s := s.setDsp p { s.dsp p with fresh := (s.dsp p).fresh.filter (· != n) }
    match s.streamOf n with
    | some (q, r) =>
      if q = p ∧ r.source = 0 ∧ fresh = true then
        let st := s.memRead .steward r.header 8
        match st.1.err with
        | some _ => withheld st.2
        | none =>
          let w := st.2.publish p r (leNat st.1.bytes) (s.timeAt t)
          if w.1 then w.2 else withheld w.2
      else withheld s
    | none => withheld s

/-- Whether a requester publishes for partition p (4 = S): one of that partition, or the Steward.
LOG 62 (DESIGN CHOICE). -/
def State.mayPublish (s : State) (r : Requester) (p : Nat) : Bool := r == .steward || s.partOf r == some p

/-- URN_AGE_PUB: the stream number written after the stamp publishes a SOURCE 1 stream. -/
def execUrnAgePub (r : Requester) (p stream : Nat) (s : State) : Host.Outcome State Fault Refusal :=
  .next <| match s.streamOf (stream % 64) with
    | some (q, rcd) =>
      if decide (p < 5) && s.mayPublish r p && (q == p || p == 4) && rcd.source == 1 && !s.scopeStopped q then
        (s.publish q rcd (s.rd64 (urnReg (0x40000 + 0x10 * p))) s.time).2
      else s
    | none => s

/-- One stream checked against STALE_MAX_NS; one not published since partition boot is measured from the boot. -/
def State.ageCheck1 (s : State) (e : Nat × Stream) : State :=
  match s.streamOf e.1 with
  | none => s
  | some (p, r) =>
    let age := s.age (if e.2.published then e.2.stamp else e.2.since)
    if !e.2.stale && decide (age > (r.staleMax : Int)) then
      (s.modStream e.1 fun v => { v with stale := true }).raise .ageStale p (ageInfo e.1 age)
    else s

/-- AGE_CHECK: every 50 µs of Urn time.
LOG 62 (DESIGN CHOICE). -/
def execAgeCheck (s : State) : Host.Outcome State Fault Refusal :=
  .next (if s.clock.urn % 50000 = 0 then s.streams.foldl State.ageCheck1 s else s)

/-! ## Network-on-chip slots (R272–R275) -/

/-- The network tick: 1,500 MHz.
LOG 3 (DESIGN CHOICE). -/
def State.nocTick (s : State) : Nat := 3 * s.clock.ns / 2

/-- The number of bits set below bit n. -/
def popCount (v n : Nat) : Nat := (bitList v n).length

/-- The slot table entry of router r that applies now, and whether its parity holds.
LOG 66 (DESIGN CHOICE). -/
def State.slotEntry (s : State) (r : Nat) : Nat × Bool :=
  let v := s.rd (stReg (0x40000 + r * 0x400 + 4 * (s.nocTick % 256)))
  (v, popCount v 32 % 2 == 0)

/-- Whether a slot entry reserves output o for input i and partition p. -/
def slotReserves (v o i p : Nat) : Bool := bit v (6 * o + 5) && bits v (6 * o + 4) (6 * o + 3) == p && bits v (6 * o + 2) (6 * o) == i

/-- SLOT_CONFLICT of a router: the router, the port, the slot. -/
def State.routerConflict (s : State) (p r o : Nat) : State :=
  ((s.countUp (btReg p 0x14) 1).orReg (btReg p 0) (2 ^ 26)).raise .slotConflict p { unit := r, info0 := o, info1 := s.nocTick % 256 }

/-- The mesh router that router r is, or that edge router r is attached to (R17), as column and row. -/
def nocPlace (r : Nat) : Nat × Nat :=
  if r < 64 then (r % 8, r / 8) else if r < 72 then (r - 64, 0) else if r < 80 then (r - 72, 7)
  else if r < 88 then (0, r - 80) else (7, r - 88)

/-- The output by which router r sends a packet toward router d: first along the row, then along the column (R17), then out to the
edge router.
LOG 132 (DEDUCED). -/
def nocOut (r d : Nat) : Nat :=
  let e := fun (q : Nat) => if q < 72 then 0 else if q < 80 then 2 else if q < 88 then 3 else 1
  if r = d then 4
  else if 64 ≤ r then (e r + 2) % 4
  else
    let a := nocPlace r
    let b := nocPlace d
    if a.1 < b.1 then 1 else if b.1 < a.1 then 3 else if a.2 < b.2 then 2 else if b.2 < a.2 then 0 else e d

/-- The router that output o of router r leads to. -/
def nocNext (r o : Nat) : Nat :=
  if 64 ≤ r then (nocPlace r).1 + 8 * (nocPlace r).2
  else match o with
    | 0 => if r < 8 then 64 + r else r - 8
    | 1 => if r % 8 = 7 then 88 + r / 8 else r + 1
    | 2 => if 56 ≤ r then 72 + r % 8 else r + 8
    | _ => if r % 8 = 0 then 80 + r / 8 else r - 1

/-- The one path from router r to router d: the routers it crosses, each with the input the packet comes in by and the output it
leaves by (input and output 4: the router's own unit). -/
def nocPath (d : Nat) : Nat → Nat → Nat → List (Nat × Nat × Nat)
  | 0, _, _ => []
  | n + 1, r, i => (r, i, nocOut r d) :: if r = d then [] else nocPath d n (nocNext r (nocOut r d)) ((nocOut r d + 2) % 4)

/-- The router of a requester's unit (Table 01-3).
LOG 132 (DEDUCED). -/
def reqRouter (r : Requester) : Option Nat :=
  match r with
  | .pipe i => some (88 + i / 4)
  | .parser _ => some 91
  | .dpp _ => some 92
  | .spout _ => some 93
  | .pcie => some 94
  | .hart _ => some 94
  | .steward => some 95
  | .urn => some 95
  | .caddy => some 95
  | .sliceRinse n => some (80 + n)
  | .jtag => none
  | r => r.cluster

/-- The router that a global address lies behind (Table 01-3): another chip's behind the Spout ports.
LOG 132 (DEDUCED). -/
def State.addrRouter (s : State) (ga : Nat) : Option Nat :=
  match s.localOf ga with
  | none => some 93
  | some a =>
    match regionOf a with
    | .lpddr => (s.lpChan a).map fun c => 64 + c.1
    | .scratch c _ => some c
    | .accum c _ => some c
    | .pool o => some (80 + o / 0x400000)
    | .chipCtr w => some (80 + w / 32)
    | .reg r _ =>
      if r < devBase then some ((r - clusterBase) / 0x1000000)
      else if urnBase ≤ r then some 95
      else
        let u := (r - devBase) % 0x100000 / 0x10000
        match (r - devBase) / 0x100000 with
        | 4 => some 92
        | 5 => some (88 + u / 4)
        | 6 => some 91
        | 7 => some 93
        | 8 => some 94
        | 9 => some (64 + u)
        | _ => some 95
    | .none => if clusterBase ≤ a ∧ a < clusterBase + 0x40000000 then some ((a - clusterBase) / 0x1000000) else none

/-- The input and the output of a packet at a router on its way from its requester to an address, or back.
LOG 132 (DEDUCED). -/
def State.nocHop (s : State) (router : Nat) (r : Requester) (ga : Nat) (back : Bool) : Option (Nat × Nat) :=
  match reqRouter r, s.addrRouter ga with
  | some q, some d =>
    let ends := if back then (d, q) else (q, d)
    ((nocPath ends.2 32 ends.1 4).find? fun e => e.1 == router).map Prod.snd
  | _, _ => none

/-- Which of two elastic packets leaves: the lower requester index on even NoC ticks, the higher on odd ones (R274). -/
def nocWins (tick : Nat) (r q : Requester) : Bool := if tick % 2 = 0 then decide (r.index ≤ q.index) else decide (q.index ≤ r.index)

/-- NOC_PACKET: a packet of partition p, sent by a requester to a global address or back to it, is at a router of its path; `rival` is
the packet that wants the same output in the same NoC tick, by its requester and whether it is timed. At the local port of a pass-through
router it is an unmapped access.
LOG 172 (DESIGN CHOICE). -/
def execNocPacket (router p : Nat) (r : Requester) (ga : Nat) (back timed : Bool) (rival : Option (Requester × Bool)) (s : State) :
    Host.Outcome State Fault Refusal :=
  .next <|
    match s.nocHop router r ga back with
    | none => s
    | some (i, o) =>
      if 4 ≤ p then s
      else if o = 4 ∧ router < 64 ∧ s.nClusters ≤ router then (s.raiseReq .addrUnmapped r (ga % 2 ^ 41)).answer r .error []
      else
        let e := s.slotEntry router
        let reserved := e.2 && slotReserves e.1 o i p
        let s1 := if !e.2 || (timed && (!reserved || (rival.map (·.2)) == some true)) then s.routerConflict p router o else s
        match timed, rival with
        | false, some (q, false) => if nocWins s.nocTick r q then s1 else s1.ndTiming (some p)
        | _, _ => s1

end Sys2Proof.Machine
end

