-- ==== Sys2Proof/Machine/Spout.lean ====
section
/-! DEFINITION. Spout ports (R363–R384): training, identity, calibration, link failure, responses and their timeouts, the start
barrier. Arriving packets are in SpoutIn. -/

namespace Sys2Proof.Machine

/-! ## Ports -/

/-- SP_PORT_STATUS.STATE: 0 disabled, 1 training, 2 calibrating, 3 up, 4 down. -/
def State.spState (s : State) (n : Nat) : Nat := s.fld (spReg n 0) 2 0
/-- SP_PORT_STATUS.STATE set. -/
def State.setSpState (s : State) (n v : Nat) : State := s.setFld (spReg n 0) 2 0 v

/-- A source of port n, in the scope of the partition that owns it. -/
def State.raiseSp (s : State) (src : Src) (n : Nat) (i : FaultInfo) : State := s.raise src (scopeOf (s.spOwner n)) { i with req := 0x208 + n, unit := n }

/-- Whether port n is enabled and populated. -/
def State.spOn (s : State) (n : Nat) : Bool := decide (n < s.nSpouts) && bit (s.portCfg n) 0

/-- Time in sixteenths of a ct (R377). -/
def State.ct16 (s : State) : Nat := 12 * s.clock.ns

/-! ## Responses (R376, R381, R382) -/

/-- The channel pieces that wait for a tag take its response; a read's bytes join the piece.
LOG 38 (DESIGN CHOICE). -/
def State.pieceDone (s : State) (c n tag : Nat) (data : List Byte) : State :=
  let v := s.chan c n
  s.setChan c n { v with inflight := v.inflight.map fun p => if p.waits.contains tag then { p with waits := p.waits.filter (· != tag), raw := p.raw ++ data } else p }

/-- A request of this chip ends with an error response: the owning task is aborted with CAUSE 0x06, a mailbox command ABORTED. -/
def State.reqFail (s : State) (q : SpReq) : State :=
  let s := { s with sp := { s.sp with reqs := s.sp.reqs.filter fun k => k.tag != q.tag } }
  let s := match q.cmd with
    | some (r, i) => s.complete r i stAborted 0 0
    | none => s
  let s := match q.req.cluster, q.req.ctx with
    | some c, some x => s.abortCtx c x 6
    | _, _ => s
  s.answer q.req .error []

/-- The value a WATCH returns: the waiting context goes on or stays blocked, and the Steward's slots are evaluated; `kept` tells
whether the slice recorded the watch. -/
def State.watchReply (s : State) (q : SpReq) (value : Nat) (kept : Bool) : State :=
  let ga := q.dest * 2 ^ 41 + q.addr
  match q.req with
  | .tiler c x =>
    let k := s.ctx c x
    match k.wait with
    | some (g, e) => if g = ga ∧ k.watching = true then (if waitOver value e then (if kept then s.unwatch c x else s).waitDone c x else s.setCtx c x { k with watching := kept }) else s
    | none => s
  | _ => (s.watches.filter fun w => w.addr == ga && w.slot.isSome).foldl (fun s w => match w.slot with
    | some n => s.slotFire w n value
    | none => s) s

/-- A request of this chip ends well. -/
def State.reqDone (s : State) (q : SpReq) (pkt : SpoutPacket) : State :=
  let s := { s with sp := { s.sp with reqs := s.sp.reqs.filter fun k => k.tag != q.tag } }
  let s := match q.cmd with
    | some (r, i) => s.complete r i stOk 0 0
    | none => s
  let s := match q.req with
    | .mover c n _ => s.pieceDone c n q.tag pkt.payload
    | _ => s
  if q.kind = kWatch then s.watchReply q (leNat (pkt.payload.take 8)) (pkt.atomicOp == 0) else s.answer q.req .ok pkt.payload

/-- A response that arrives for this chip: it ends its request, or is discarded and counted (R381).
LOG 84 (DESIGN CHOICE). -/
def State.response (s : State) (n : Nat) (pkt : SpoutPacket) : State :=
  match s.sp.reqs.find? fun q => q.tag == pkt.tag && q.dest == pkt.src && q.req.index == pkt.req with
  | none => s.countUp (spReg n 0x1C) 1
  | some q => if pkt.kind = kError then s.reqFail q else s.reqDone q pkt

/-- RESP_TIMEOUT: a request without a response RESP_TIMEOUT µs after it was sent. -/
def execRespTimeout (tag : Nat) (s : State) : Host.Outcome State Fault Refusal :=
  .next <| match s.sp.reqs.find? fun q => q.tag == tag with
    | none => s
    | some q =>
      if q.at_ + 1000 * fieldAt (s.record 0x13 7) 0xC 4 ≤ s.clock.urn then
        (s.raise .spRespTimeout (scopeOf (s.partOf q.req)) { req := q.req.index, ctx := q.req.ctx.getD 0xFF, unit := q.dest, info0 := q.addr % 2 ^ 32, info1 := q.addr / 2 ^ 32, cluster := q.req.cluster }).reqFail q
      else s

/-! ## Link failure and training (R364, R367, R382) -/

/-- What a port holds is discarded: requests of local requesters that it carried complete with an error, transit packets are counted. -/
def State.spDiscard (s : State) (n : Nat) : State :=
  let pkts := (s.port n).buf.map Prod.snd
  let mine := s.sp.reqs.filter fun q => q.port == n && pkts.any fun p => p.tag == q.tag && p.src == s.selfId
  let transit := (pkts.filter fun p => p.src != s.selfId).length
  let s := (s.setPort n SpPort.idle).countUp (spReg n 0x1C) transit
  mine.foldl (fun s q => s.reqFail q) s

/-- A port goes to training, or is disabled where its configuration says so.
LOG 81 (DESIGN CHOICE). -/
def State.spTrain (s : State) (n : Nat) : State :=
  let s := ((s.spDiscard n).wr (spReg n 0) 0).wr (spReg n 0x10) 0
  s.setSpState n (b2n (s.spOn n))

/-- A port that stays down. -/
def State.spStaysDown (s : State) (n : Nat) : State := (s.setSpState n 4).raiseSp .spLinkDown n {}

/-- LINK_DOWN: no block locked for 10 µs, or eight replays of one block. -/
def State.linkDown (s : State) (n : Nat) : State := (s.raiseSp .spLinkDown n {}).spTrain n

/-- LINK_DOWN. -/
def execLinkDown (n : Nat) (s : State) : Host.Outcome State Fault Refusal :=
  .next (if s.spState n = 2 ∨ s.spState n = 3 then s.linkDown n else s)

/-- RETRAIN: SP_PORT_CTRL.RETRAIN of the Steward.
LOG 81 (DESIGN CHOICE). -/
def execRetrain (r : Requester) (n : Nat) (s : State) : Host.Outcome State Fault Refusal :=
  .next (if r == .steward && decide (n < 4) && s.spOn n then s.spTrain n else s)

/-- A port whose training is complete is up. -/
def State.spUp (s : State) (n : Nat) : State :=
  let s := s.setSpState n 3
  if bit (s.rd (spReg n 0)) 4 then s.raiseSp .spDegraded n {} else s

/-- LINK_TRAINING: adaptation ended with a mask of good lanes and a measured latency (1/16 ct); the port is up once the peer's
identity is known.
LOG 81 (DESIGN CHOICE). -/
def execLinkTraining (n lanes calib : Nat) (s : State) : Host.Outcome State Fault Refusal :=
  .next <|
    if s.spState n = 1 ∧ s.spOn n = true then
      let low := lanes % 16 == 15
      let high := lanes / 16 % 16 == 15
      if !low && !high then s.spStaysDown n
      else
        let s := (s.setFld (spReg n 0) 4 4 (b2n !(low && high))).setFld (spReg n 0) 3 3 (b2n (!low))
        let s := (s.setFld (spReg n 0xC) 23 0 calib).setSpState n 2
        if bit (s.rd (spReg n 0x10)) 31 then s.spUp n else s
    else s

/-- TRAINING_RETRY: training did not end in 50 ms; after the third attempt the port stays down. -/
def execTrainingRetry (n : Nat) (s : State) : Host.Outcome State Fault Refusal :=
  .next <|
    if (s.spState n = 1 ∨ s.spState n = 2) ∧ s.spOn n = true then
      let p := s.port n
      let s := (s.setPort n { p with attempts := p.attempts + 1 }).setSpState n 1
      if 3 ≤ p.attempts + 1 then s.spStaysDown n else s
    else s

/-- IDENT: the peer's chip ID, port and stepping (the STEP fields of CAD_DEVICE_ID); a mismatch keeps the port down. -/
def execIdent (n peer port sys : Nat) (s : State) : Host.Outcome State Fault Refusal :=
  .next <|
    if (s.spState n = 1 ∨ s.spState n = 2) ∧ s.spOn n = true then
      if (peer % 128 = s.selfId ∧ s.selfId ≠ 127) ∨ sys ≠ 0x21 then (s.setSpState n 4).raiseSp .spPeerMismatch n { info0 := peer, info1 := sys }
      else
        let s := s.wr (spReg n 0x10) (2 ^ 31 + port % 4 * 2 ^ 8 + peer % 128)
        if s.spState n = 2 then s.spUp n else s
    else s

/-! ## Routing records (R368, R371, R387) -/

/-- The routing record in effect reaches the registers: routes, port configurations (a changed one retrains its port), and SELF,
which waits for a device reset unless it is the first. -/
def State.spoutLoad (s : State) : State :=
  let l := s.record 0x13 7
  if l.isEmpty then s
  else
    let s := (List.range 24).foldl (fun s k => s.wr (spGlob (0x10000 + 4 * k)) (fieldAt l (0x20 + 4 * k) 4)) s
    let self := fieldAt l 1 1 % 128
    let old := s.selfId
    let s := if old = 0x7F ∨ old = self then s.wr (spGlob 0) self else s.wr (spGlob 0) (2 ^ 31 + self * 2 ^ 16 + old)
    (List.range s.nSpouts).foldl (fun s n =>
      let c := fieldAt l (4 + n) 1 % 16
      if s.portCfg n = c then s
      else
        let was := s.portUp n
        let s := (s.wr (spReg n 4) c).spTrain n
        if was then s.raiseSp .spLinkDown n {} else s) s

/-! ## Calibration (R377) -/

/-- The chip at the far end of a port. -/
def State.peerId (s : State) (n : Nat) : Nat := s.fld (spReg n 0x10) 6 0

/-- A packet of the Spout block to the neighbour on port n, in the control class. -/
def State.spControl (s : State) (n kind op : Nat) (data : List Byte) : State :=
  if s.portUp n then
    s.transmit n { kind := kind, cls := 1, vc := 0, ttl := 15, dest := s.peerId n, src := s.selfId, req := 0, len := data.length, atomicOp := op, tagged := false, addr := 0, tag := 0, payload := data }
  else s

/-- CALIB_EXCHANGE: an up port sends a CALIB packet and notes when.
LOG 82 (DESIGN CHOICE). -/
def execCalibExchange (n : Nat) (s : State) : Host.Outcome State Fault Refusal :=
  .next (if s.portUp n then (s.setPort n { s.port n with calibAt := some s.ct16 }).spControl n kCalib 0 (leBytes 4 0) else s)

/-- A CALIB packet: one with operation 0 is answered with its turnaround; an answer gives a round trip, and SP_LINK_LAT is half
their mean over the last 256.
LOG 82 (DESIGN CHOICE). -/
def State.calib (s : State) (n : Nat) (pkt : SpoutPacket) : State :=
  if pkt.atomicOp = 0 then s.spControl n kCalib 1 (leBytes 4 0)
  else
    let p := s.port n
    match p.calibAt with
    | none => s
    | some t =>
      let trip := s.ct16 - t - leNat (pkt.payload.take 4)
      let trips := (trip :: p.trips).take 256
      let s := s.setPort n { p with calibAt := none, trips := trips }
      s.setFld (spReg n 0xC) 23 0 (trips.foldl (· + ·) 0 / trips.length / 2)

/-- CALIB. -/
def execCalib (n : Nat) (pkt : SpoutPacket) (s : State) : Host.Outcome State Fault Refusal :=
  .next (if s.portUp n && pkt.kind == kCalib then s.calib n pkt else s)

/-! ## The start barrier (R378–R380) -/

/-- The barrier rewritten. -/
def State.modBar (s : State) (f : Barrier → Barrier) : State := { s with sp := { s.sp with bar := f s.sp.bar } }
/-- The port toward the barrier root; 0xF: this chip is the root. -/
def State.barParent (s : State) : Nat := fieldAt (s.record 0x13 7) 8 1
/-- The ports that lead to barrier children. -/
def State.barChildren (s : State) : List Nat := bitList (fieldAt (s.record 0x13 7) 9 1) 4
/-- Whether ARM is set. -/
def State.armed (s : State) : Bool := bit (s.rd (spGlob 8)) 0
/-- ARM and ARMED set or cleared. -/
def State.setArmed (s : State) (b : Bool) : State := (s.setFld (spGlob 8) 0 0 (b2n b)).setFld (spGlob 4) 0 0 (b2n b)

/-- Once armed, with ARRIVE from every child, a chip sends ARRIVE up, or the root sends GO. -/
def State.barTry (s : State) : State :=
  let b := s.sp.bar
  let ready := s.barChildren.all fun n => (assoc b.arrived n).isSome
  if s.armed && ready && !b.sent && b.startAt.isNone then
    let depth := (b.arrived.map fun e => e.2 + s.fld (spReg e.1 0xC) 23 0).foldl max 0
    if s.barParent = 0xF then
      let rem := ceilDiv depth 16 + 4
      let s := s.barChildren.foldl (fun s n => s.spControl n kGo 0 (leBytes 4 (16 * rem))) s
      s.modBar fun b => { b with sent := true, startAt := some (s.ct + 1 + rem) }
    else (s.spControl s.barParent kArrive 0 (leBytes 4 depth)).modBar fun b => { b with sent := true }
  else s

/-- ARM: a write of SP_BAR_CTRL.ARM by the Steward. -/
def execArm (r : Requester) (s : State) : Host.Outcome State Fault Refusal :=
  .next (if r == .steward && !s.armed then ((s.setArmed true).modBar fun b => { b with armedAt := s.clock.urn }).barTry else s)

/-- An ARRIVE from a child.
LOG 83 (DESIGN CHOICE). -/
def State.arriveIn (s : State) (n : Nat) (pkt : SpoutPacket) : State :=
  (s.modBar fun b => { b with arrived := (n, leNat (pkt.payload.take 4)) :: b.arrived.filter fun e => e.1 != n }).barTry

/-- ARRIVE. -/
def execArrive (n : Nat) (pkt : SpoutPacket) (s : State) : Host.Outcome State Fault Refusal :=
  .next (if s.portUp n && pkt.kind == kArrive && s.barChildren.contains n then s.arriveIn n pkt else s)

/-- A GO: discarded where this chip is not armed or has its start tick; else the start tick, and GO forwarded with what remains. -/
def State.goIn (s : State) (n : Nat) (pkt : SpoutPacket) : State :=
  if !s.armed || s.sp.bar.startAt.isSome then s.orReg (spGlob 4) (2 ^ 3)
  else
    let a := s.ct16
    let left : Int := (leNat (pkt.payload.take 4) : Int) - s.fld (spReg n 0xC) 23 0
    let t1 := a / 16 + 1
    let late := decide (left < 16)
    let start := if late then t1 else (a + left.toNat + 8) / 16
    let s := s.barChildren.foldl (fun s m => s.spControl m kGo 0 (leBytes 4 (left - (16 * t1 - a : Nat)).toNat)) s
    (if late then s.orReg (spGlob 4) (2 ^ 2) else s).modBar fun b => { b with startAt := some start, late := late }

/-- GO. -/
def execGo (n : Nat) (pkt : SpoutPacket) (s : State) : Host.Outcome State Fault Refusal :=
  .next (if s.portUp n && pkt.kind == kGo && n == s.barParent then s.goIn n pkt else s)

/-- BARRIER_START: the start tick has come; SP_BAR_TIME is its time, ARM is cleared.
LOG 83 (DESIGN CHOICE). -/
def execBarrierStart (s : State) : Host.Outcome State Fault Refusal :=
  .next <| match s.sp.bar.startAt with
    | some t => if s.armed = true ∧ t ≤ s.ct then ((s.setArmed false).wr64 (spGlob 0xC) s.time).modBar fun _ => Barrier.idle else s
    | none => s

/-- BARRIER_TIMEOUT: GO has not come BAR_TIMEOUT ms after ARM.
LOG 83 (DESIGN CHOICE). -/
def execBarrierTimeout (s : State) : Host.Outcome State Fault Refusal :=
  .next <|
    if s.armed && s.sp.bar.startAt.isNone && decide (s.sp.bar.armedAt + 1000000 * fieldAt (s.record 0x13 7) 0xA 2 ≤ s.clock.urn) then
      (((s.setArmed false).modBar fun _ => Barrier.idle).orReg (spGlob 4) (2 ^ 1)).raise .spBarrierTimeout (scopeOf ((List.range 4).findSome? s.spOwner)) {}
    else s

end Sys2Proof.Machine
end

