-- ==== Sys2Proof/Machine/Boot.lean ====
section
/-! DEFINITION. What a Structure Image holds (R28–R35, R43, R44) and what booting does: records taken into effect, cluster and port
resets with their scrubs (R134, R466), the repair list (R443), the tests (R437, R444), loading a Program (R2, R97, R100, R253, R403). -/

namespace Sys2Proof.Machine

/-! ## Digests and measurement registers (R492) -/

/-- The 64 bytes of a digest, byte 0 first.
LOG 106 (DESIGN CHOICE). -/
def digestBytes (d : Digest) : List Byte := leBytes 64 d.toNat

/-- A digest from its 64 bytes.
LOG 106 (DESIGN CHOICE). -/
def digestOf (l : List Byte) : Digest := BitVec.ofNat 512 (leNat (l.take 64))

/-- Sixteen words from a register on as a digest. -/
def State.rdDigest (s : State) (a : Nat) : Digest :=
  BitVec.ofNat 512 (((List.range 16).map fun k => s.rd (a + 4 * k) * 2 ^ (32 * k)).foldl (· + ·) 0)

/-- A digest into sixteen registers.
LOG 106 (DESIGN CHOICE). -/
def State.wrDigest (s : State) (a : Nat) (d : Digest) : State :=
  (List.range 16).foldl (fun s k => s.wr (a + 4 * k) (bits d.toNat (32 * k + 31) (32 * k))) s

/-- Measurement register n. -/
def mrReg (n : Nat) : Nat := cadReg (0x100 + 64 * n)

/-- Measurement register n extended (R492). -/
def State.extendMr (s : State) (n : Nat) (d : Digest) : State :=
  s.wrDigest (mrReg n) (Config.sha512 (digestBytes (s.rdDigest (mrReg n)) ++ digestBytes d))

/-! ## Images (R28–R35) -/

/-- The length of a signature block (R30). -/
def sigLen : Nat := 3373

/-- The image hash (R30): over the signed portion. -/
def imageHash (img : List Byte) : Digest := Config.sha512 (img.take (fieldAt img 0xC 4 - sigLen))

/-- VERSION. -/
def imgVersion (img : List Byte) : Nat := fieldAt img 8 4
/-- FALLBACK. -/
def imgFallback (img : List Byte) : Nat := fieldAt img 0x13 1
/-- SWITCH_AFTER. -/
def imgAfter (img : List Byte) : Nat := fieldAt img 0x18 8
/-- PRED_HASH. -/
def imgPred (img : List Byte) : Digest := digestOf (sliceBytes img 0x20 64)
/-- SIGNER. -/
def imgSigner (img : List Byte) : Nat := fieldAt img 0x60 4

/-- A directory entry (Table 02-2). -/
structure SecEntry where
  type : Nat
  kind : Nat
  scope : Nat
  off : Nat
  len : Nat
  rsv : Nat
  deriving DecidableEq, Repr

/-- The directory of an image (R29). -/
def imgDir (img : List Byte) : List SecEntry :=
  (List.range (fieldAt img 6 2)).map fun k =>
    let o := 0x80 + 16 * k
    { type := fieldAt img o 2, kind := fieldAt img (o + 2) 1, scope := fieldAt img (o + 3) 1, off := fieldAt img (o + 4) 4,
      len := fieldAt img (o + 8) 4, rsv := fieldAt img (o + 0xC) 4 }

/-- The bytes of the section of a type; none where the image lacks it. -/
def imgSection (img : List Byte) (type : Nat) : List Byte :=
  match (imgDir img).find? fun e => e.type == type with
  | some e => sliceBytes img e.off e.len
  | none => []

/-- The PART_ID byte of a scope's records (R31). -/
def partId (scope : Nat) : Nat := if scope < 5 then scope else 0xFF

/-- The Brew Table record of a partition: records follow one another, each as long as its header says. -/
def brewRecord (p : Nat) : Nat → List Byte → List Byte
  | 0, _ => []
  | n + 1, l =>
    let len := 0x20 + 16 * fieldAt l 2 2 + 32 * fieldAt l 0x14 1
    if l.length < 0x20 ∨ l.length < len then []
    else if fieldAt l 0 1 = p then l.take len
    else brewRecord p n (l.drop len)

/-- A scope's record of a section type in an image (R31), empty where the image has none.
LOG 110 (DESIGN CHOICE). -/
def imgRecord (img : List Byte) (type scope : Nat) : List Byte :=
  let l := imgSection img type
  let byId := fun (n : Nat) => ((chunkBytes n l).find? fun r => fieldAt r 0 1 == partId scope).getD []
  match type with
  | 1 | 3 => if scope < 5 then sliceBytes l (32 * scope) 32 else []
  | 2 => if scope < 4 then sliceBytes l (8 * scope) 8 else []
  | 4 => byId 16
  | 5 => if scope < 5 then sliceBytes l (16 * scope) 16 else sliceBytes l 80 560
  | 0x11 => brewRecord scope 5 l
  | 0x12 => byId 1040
  | 0x13 | 0x14 => if scope = 7 then l else []
  | t => if l.isEmpty ∨ 4 ≤ scope then [] else Config.sectionRecord t l scope

/-- The partition map record of a partition (Table 02-4). -/
def partRec (l : List Byte) : PartRec :=
  { active := fieldAt l 1 1 == 1, pairs := fieldAt l 4 4, channels := fieldAt l 8 2, cameras := fieldAt l 0xA 2, dpps := fieldAt l 0xC 1 % 16,
    spouts := fieldAt l 0xD 1 % 16, eth := fieldAt l 0xE 1 % 16 }

/-- What a partition map record gives its partition: nothing where ACTIVE is 0. -/
def wantPart (l : List Byte) : PartRec := if (partRec l).active then partRec l else PartRec.absent
/-- The cold and hot section types of Table 02-3. -/
def coldTypes : List Nat := [1, 2, 3, 4, 5, 6]
def hotTypes : List Nat := [0x10, 0x11, 0x12, 0x13, 0x14]

/-- A record taken into effect. -/
def State.setRecord (s : State) (type scope : Nat) (l : List Byte) : State :=
  { s with si := { s.si with records := s.si.records.filter (fun e => e.1 != type * 8 + scope) ++ (if l.isEmpty then [] else [(type * 8 + scope, l)]) } }

/-- The records of some types of a scope taken into effect from the current image. -/
def State.takeRecords (s : State) (types : List Nat) (scope : Nat) : State :=
  types.foldl (fun s t => s.setRecord t scope (imgRecord s.si.current t scope)) s

/-- A severity table from its record (Table 21-2). -/
def severityOf (l : List Byte) : SevTable :=
  { notify := fieldAt l 1 1, ceLimit := fieldAt l 2 2, winDef := fieldAt l 4 4, winUrg := fieldAt l 8 4, devCfg := fieldAt l 0xC 4, entries := sliceBytes l 0x10 1024 }

/-- The severity table of a scope in effect follows its record (R458). -/
def State.applySev (s : State) (scope : Nat) : State :=
  let l := s.record 0x12 scope
  let rest := s.urn.sev.filter fun e => e.1 != scope
  { s with urn := { s.urn with sev := if l.isEmpty then rest else rest ++ [(scope, severityOf l)] } }

/-! ## NoC slot tables (R272) -/

/-- An entry with the reservations of partition p replaced by those of a new word, and its parity made even. -/
def mergeSlot (p old new : Nat) : Nat :=
  let own := fun (w o : Nat) => bit w (6 * o + 5) && bits w (6 * o + 4) (6 * o + 3) == p
  let body := (List.range 5).foldl (fun v o =>
    let keep := if own old o then setBits v (6 * o + 5) (6 * o) 0 else v
    if own new o then setBits keep (6 * o + 5) (6 * o) (bits new (6 * o + 5) (6 * o)) else keep) (bits old 29 0)
  let ones := (bitList body 30).length
  body + (ones % 2) * 2 ^ 31

/-- The slot tables take partition p's entries from its record. -/
def State.applySlots (s : State) (p : Nat) : State :=
  let l := s.record 0x10 p
  if l.isEmpty then s
  else (List.range 96).foldl (fun s r => (List.range 256).foldl (fun s t =>
    let a := stReg (0x40000 + 0x400 * r + 4 * t)
    s.wr a (mergeSlot p (s.rd a) (Config.slotWord l r t).toNat)) s) s

/-! ## ST_SI_ registers (R46, R47) -/

/-- The cold records that wait for a scope's boot (R43, R44). -/
def State.coldPend (s : State) (scope : Nat) : Bool :=
  !s.si.current.isEmpty &&
  ((coldTypes.any fun t => imgRecord s.si.current t scope != (assoc s.booted (t * 8 + scope)).getD []) ||
   (decide (scope < 5) && s.prec scope != wantPart (imgRecord s.si.current 1 scope)))

/-- ST_SI_STATUS and the version registers show the image store; RESULT, PREV_REVOKED, MAX_VERSION and FLOOR are kept as they are. -/
def State.showSi (s : State) : State :=
  let a := stReg 0x1000
  let hot := (s.si.hotPend.map fun p => 2 ^ p).foldl (· + ·) 0
  let cold := ((List.range 5).map fun p => if s.coldPend p then 2 ^ p else 0).foldl (· + ·) 0
  let s := ((s.setFld a 14 14 (b2n (s.coldPend 7))).setFld a 12 8 cold).setFld a 7 4 (hot % 16)
  let s := s.setFld a 3 0 (if s.si.submission.isSome then 2 else if s.si.hotPend ≠ [] ∨ s.si.hotDev = true then 3 else 0)
  let s := (s.wr (stReg 0x1004) (imgVersion s.si.current)).wr (stReg 0x1008) (imgVersion s.si.previous)
  s.wrDigest (stReg 0x1040) (if s.si.current.isEmpty then 0 else imageHash s.si.current)

/-! ## Cold records at a boot (R43, R44) -/

/-- The records of the current image that partition p boots with: a resource that another partition still holds does not join. -/
def State.takeCold (s : State) (p : Nat) : State :=
  let s := s.takeRecords coldTypes p
  let want := wantPart (s.record 1 p)
  let held := fun (f : PartRec → Nat) => ((List.range 5).filter fun q => q != p && (s.prec q).active).foldl (fun m q => m ||| f (s.prec q)) 0
  let free := fun (f : PartRec → Nat) => f want - (f want &&& held f)
  let own : PartRec := if want.active then
      { active := true, pairs := free (·.pairs), channels := free (·.channels), cameras := free (·.cameras), dpps := free (·.dpps), spouts := free (·.spouts), eth := free (·.eth) }
    else PartRec.absent
  let lock := if p < 4 then (setAt s.si.lockstep p (fieldAt (s.record 2 p) 4 4 &&& own.pairs)) else s.si.lockstep
  let s := { s with si := { s.si with parts := setAt s.si.parts p own, lockstep := lock, hotPend := s.si.hotPend.filter fun q => q != p } }
  { s with booted := s.booted.filter (fun e => !(e.1 % 8 == p && coldTypes.contains (e.1 / 8))) ++
      ((coldTypes.map fun t => (t * 8 + p, imgRecord s.si.current t p)).filter fun e => !e.2.isEmpty) }

/-! ## Cluster resets (R134, R443, R466) -/

/-- The units of a cluster back at their reset state, its memory scrubbed, every array's column map from OTP (R94). -/
def State.wipeCluster (s : State) (c : Nat) : State :=
  let m := ((s.mem.zero (spAddr c 0) 0x200000).zero (accAddr c 0 0 0) 0x80000)
  let m := { m with anchors := sparseDrop m.anchors (accAddr c 0 0 0 / 8) (accAddr c 0 0 0 / 8 + 0x10000) }
  let repair := s.rd (clReg c 0xB10)
  let s := State.resetRegs { s with mem := m } (clReg c 0) (clReg c 0x10000)
  let s := s.wr (clReg c 0xB10) (setBits repair 15 0 0)
  let s := (List.range 8).foldl (fun s a => s.wr (arrReg c a 0xC) (((assoc s.colMaps (8 * c + a)).getD 0) &&& 0x7F7F)) s
  { s with arrs := sparseDrop s.arrs (c * 8) (c * 8 + 8), vecs := sparseDrop s.vecs (c * 2) (c * 2 + 2), movs := sparseDrop s.movs (c * 16) (c * 16 + 16),
           ctxs := sparseDrop s.ctxs (c * 8) (c * 8 + 8), slots := sparseDrop s.slots (c * 16) (c * 16 + 16), atts := sparseDrop s.atts c (c + 1),
           tags := s.tags.filter (fun t => t.cluster != c), spBack := s.spBack.filter (fun w => !(decide (clWin c ≤ 8 * w) && decide (8 * w < clWin (c + 1)))),
           rinses := s.rinses.filter (fun r => r.cluster != c), watches := s.watches.filter (fun w => w.cluster != c || w.remote.isSome),
           wakes := s.wakes.filter (fun w => w.cluster != c), tu := { s.tu with micro := s.tu.micro.filter (fun e => e.1 != c), scrub := s.tu.scrub.filter (fun e => e.cluster != c) } }

/-- The physical column that serves logical column j under a column map (R94): the spare, column 32, serves BAD_COL0; on a narrowed array
the columns from BAD_COL1 on shift up by one. -/
def physCol (map j : Nat) : Nat :=
  let k := if bit map 14 ∧ bits map 13 8 ≤ j then j + 1 else j
  if bit map 6 ∧ k = bits map 5 0 then 32 else k

/-- A failing column of array a applied after the OTP map: the spare, else the narrowing, else none is left. A spare column that fails
itself is none of the columns it could replace (Table 04-16), and needs no repair while it is unused.
LOG 143 (DESIGN CHOICE). -/
def State.repairColumn (s : State) (c a col : Nat) : Bool × State :=
  let r := arrReg c a 0xC
  let v := s.rd r
  let soft := fun (s : State) => s.setFld (clReg c 0xB10) a a 1
  if !bit v 6 && decide (col < 32) then (true, soft (s.wr r (setBits (setBit v 6 true) 5 0 col)))
  else if !bit v 6 then (true, s)
  else if !bit v 14 then (true, soft (s.wr r (setBits (setBit v 14 true) 13 8 col)))
  else (false, s)

/-- The repair list of cluster c applied (R443): whether every repair could be made. -/
def State.applyRepairs (s : State) (c : Nat) : Bool × State :=
  (s.repairs.filter fun e => e.1 == c).foldl (fun acc e =>
    let u := e.2.1
    if u < 8 then
      let r := acc.2.repairColumn c u e.2.2
      (acc.1 && r.1, r.2)
    else
      let used := (s.repairs.takeWhile fun q => q != e).filter fun q => q.1 == c && q.2.1 == u
      if used.length < 2 then (acc.1, acc.2.setFld (clReg c 0xB10) 15 8 (acc.2.fld (clReg c 0xB10) 15 8 + 1)) else (false, acc.2)) (true, s)

/-- CL_ARR_WIDTH of cluster c (Table 04-9): arrays that use their spare, narrowed arrays, least width; a lockstep pair has the narrower of each two
(R96). -/
def State.showWidth (s : State) (c : Nat) : State :=
  let peers := if s.isLockstep (c / 2) then [c / 2 * 2, c / 2 * 2 + 1] else [c]
  let any := fun (b a : Nat) => peers.any fun q => bit (s.rd (arrReg q a 0xC)) b
  let mask := fun (b : Nat) => ((List.range 8).map fun a => if any b a then 2 ^ a else 0).foldl (· + ·) 0
  s.wr (clReg c 0x100) (mask 6 * 2 ^ 16 + mask 14 * 2 ^ 8 + (if mask 14 = 0 then 32 else 31))

/-- Cluster c reset: scrubbed, its repairs applied; whether they could be made. -/
def State.resetCluster (s : State) (c : Nat) : Bool × State :=
  let r := (s.wipeCluster c).applyRepairs c
  let s := r.2.setFld (clReg c 0xB00) 27 27 (b2n (s.isLockstep (c / 2)))
  if r.1 then (true, s.showWidth c)
  else (false, (s.showWidth c).orReg (clReg c 0xB10) (2 ^ 30))

/-- Both clusters of the pair where the pair runs in lockstep, else the cluster alone (R466). -/
def State.resetSet (s : State) (c : Nat) : List Nat := if s.isLockstep (c / 2) then [c / 2 * 2, c / 2 * 2 + 1] else [c]

/-- Clusters reset one after another: the first that could not be repaired, if any. -/
def State.resetClusters (s : State) (l : List Nat) : Option Nat × State :=
  let r := l.foldl (fun (acc : Option Nat × State) c =>
    let q := acc.2.resetCluster c
    (if q.1 then acc.1 else acc.1.orElse fun _ => some c, q.2)) (none, s)
  (r.1, l.foldl (fun s c => s.showWidth c) r.2)

/-- The clusters of every pair of partition p. -/
def State.pairClusters (s : State) (p : Nat) : List Nat := (List.range s.nClusters).filter fun c => bit (s.prec p).pairs (c / 2)

/-! ## Ports, pool and DPPs at a partition reset (Table 21-6) -/

/-- MC_CFG of an enabled channel from the sets in effect (Table 19-7). -/
def State.mcCfg (s : State) (ch : Nat) : State :=
  match s.lpSets.find? fun e => e.2.chans.contains ch with
  | none => s.wr (mcReg ch 4) (setBits (setBits 0 27 24 (Config.dramParts.toNat % 16)) 23 23 (Config.dramParts.toNat / 16))
  | some (p, q) =>
    let r := s.record 3 p
    let rate := if p = 7 then (if s.power.recovery then 0 else Config.dramRate.toNat) else fieldAt r 2 1
    let gran := if p = 7 then 1 else fieldAt r 1 1
    s.wr (mcReg ch 4) (setBits (setBits (setBits (setBits (setBits (setBits 0 31 28 rate) 27 24 (Config.dramParts.toNat % 16)) 23 23 (Config.dramParts.toNat / 16)) 19 18 gran)
      12 8 q.chans.length) 3 0 ((q.chans.findIdx? (· == ch)).getD 0))

/-- The pool banks and counter groups of partition p scrubbed and given back (R134). -/
def State.freePool (s : State) (p : Nat) : State :=
  let mine := (s.poolBanks.filter fun e => e.2 == p).map Prod.fst
  let s := { s with mem := mine.foldl (fun m b => m.zero (poolBase + b * 0x80000) 0x80000) s.mem, watches := s.watches.filter fun w => !(mine.any fun b => w.addr % 2 ^ 41 / 0x80000 == poolBase / 0x80000 + b) }
  let groups := (s.ctrGroups.filter fun e => e.2 == p).map Prod.fst
  let s := { s with mem := groups.foldl (fun m g => m.zero (chipCtrBase + g * 128) 128) s.mem }
  { s with poolBanks := s.poolBanks.filter (fun e => e.2 != p), ctrGroups := s.ctrGroups.filter (fun e => e.2 != p) }

/-- The sensor-port registers loaded from partition p's record (R344, R345, R357). -/
def State.loadRwl (s : State) (a w : Nat) : State :=
  match regRow a with
  | some r => s.wr a (r.fields.foldl (fun v f => if f.acc = .rwl then setBits v f.hi f.lo (bits w f.hi f.lo) else v) (s.rd a))
  | none => s

/-- The registers of a block that have a lockable field. -/
def rwlOffsets (rows : List RegRow) : List Nat :=
  (rows.filter fun r => r.fields.any fun f => f.acc == .rwl).flatMap fun r => (List.range r.count).map fun k => r.off + k * r.stride

/-- The ports of partition p take their settings (R344, R345, R357). -/
def State.loadSensors (s : State) (p : Nat) : State :=
  let l := s.record 6 p
  if l.isEmpty then s
  else
    let word := fun (a : Nat) => (Config.sensorWord l a).toNat
    let s := ((List.range s.nCameras).filter fun i => bit (s.prec p).cameras i).foldl (fun s i =>
      let s := (rwlOffsets rowsING).foldl (fun s o => s.loadRwl (ingReg i o) (word (ingReg i o))) s
      s.genRestart i (word (genReg i 0) + 2 ^ 32 * word (genReg i 4)) (word (genReg i 8)) (word (genReg i 0xC)) (word (genReg i 0x10))) s
    (bitList (s.prec p).eth 4).foldl (fun s e => (rwlOffsets rowsETH).foldl (fun s o => s.loadRwl (ethReg e o) (word (ethReg e o))) s) s

/-- The ports, parsers, DPPs and generators of partition p back at their reset state (its Spout ports train once it has booted). -/
def State.resetPorts (s : State) (p : Nat) : State :=
  let r := s.prec p
  let s := (bitList r.cameras 16).foldl (fun s i => (State.resetRegs { s with pipes := sparseDrop s.pipes i (i + 1) } (ingReg i 0) (ingReg (i + 1) 0)).setFld (genReg i 0x10) 31 31 0) s
  let s := (bitList r.eth 4).foldl (fun s e => State.resetRegs { s with parsers := sparseDrop s.parsers e (e + 1) } (ethReg e 0) (ethReg e 0x100)) s
  (bitList r.dpps 4).foldl (fun s d => State.resetRegs { s with dpps := sparseDrop s.dpps d (d + 1) } (dppReg d 0) (dppReg (d + 1) 0)) s

/-- The Spout ports of partition p start training. -/
def State.trainPorts (s : State) (p : Nat) : State :=
  (bitList (s.prec p).spouts 4).foldl (fun s n => if n < s.nSpouts then s.spTrain n else s) s

/-- Channels and Spout ports that no partition owns are held in reset (R33, R44); MC_CFG is loaded again when one trains.
LOG 133 (DEDUCED). -/
def State.gateFreed (s : State) : State :=
  let s := (List.range s.nChannels).foldl (fun (s : State) (c : Nat) =>
    if s.unowned (mcReg c 0) then (s.resetRegs (mcReg c 0) (mcReg c 4)).resetRegs (mcReg c 8) (mcReg (c + 1) 0) else s) s
  (List.range s.nSpouts).foldl (fun (s : State) (n : Nat) =>
    if s.unowned (spReg n 0) then State.resetRegs { s with sp := { s.sp with ports := sparseDrop s.sp.ports n (n + 1) } } (spReg n 0) (spReg (n + 1) 0) else s) s

/-- Everything of partition p that its reset clears beside its clusters and ports: Sequence Table, staging, streams, Program state. -/
def State.clearPart (s : State) (p : Nat) : State :=
  let s := s.unlock p
  let s := if p < 4 then
      let s := s.resetRegs (stReg (0x2000 + 0x40 * p)) (stReg (0x2040 + 0x40 * p))
      let s := s.resetRegs (stReg (0x80000 + 0x8000 * p)) (stReg (0x80000 + 0x8000 * (p + 1)))
      let s := s.resetRegs (stReg (0x3000 + 0x40 * p)) (stReg (0x3040 + 0x40 * p))
      let s := s.resetRegs (btReg p 0) (btReg p 0x10000)
      State.wrDigest { s with brew := sparseDrop s.brew p (p + 1), steps := sparseDrop s.steps p (p + 1), streams := s.streams.filter fun e => e.2.part != p } (mrReg (4 + p)) 0
    else s
  { s with staging := s.staging.filter (fun e => e.1 / 32 != p), tasks := s.tasks.filter (fun e => e.2.part != p), launchQ := s.launchQ.filter (fun q => q.part != p),
           tu := { s.tu with wait := s.tu.wait.filter fun e => e.1 != p, store := s.tu.store.filter fun e => e.part != p } }

/-! ## Tests at a boot (R437, R444) -/

/-- The full logic BIST of the arrays of partition p that owe one: the column it finds is a free value; where it finds none, the cluster
is marked (R444).
LOG 98 (DESIGN CHOICE). -/
def State.fullBist (s : State) (p : Nat) : State :=
  let mine := s.urn.diagnose.filter fun k => s.ownerOf (k / 8) == some p
  let s := { s with urn := { s.urn with diagnose := s.urn.diagnose.filter fun k => !mine.contains k } }
  mine.foldl (fun s k =>
    let w := (Config.freeWord s.fresh).toNat
    let s := s.draw
    if bit w 6 then { s with repairs := s.repairs ++ (if s.repairs.contains (k / 8, k % 8, w % 64 % 33) then [] else [(k / 8, k % 8, w % 64 % 33)]) }
    else s.orReg (clReg (k / 8) 0xB10) (2 ^ 31)) s

/-- The comparator test of the lockstep pairs of partition p, passed (R437).
LOG 97 (DESIGN CHOICE). -/
def State.comparatorTest (s : State) (p : Nat) : State :=
  ((s.pairClusters p).filter fun c => c % 2 == 1 && s.isLockstep (c / 2)).foldl (fun s c => s.orReg (clReg c 0xB00) (2 ^ 30)) s

/-! ## Programs (R2, R97, R100, R253, R268, R319, R320, R403) -/

/-- The pool banks that are free or already partition p's, in ascending number.
LOG 32 (DESIGN CHOICE). -/
def State.banksFor (s : State) (p : Nat) : List Nat := (List.range 64).filter fun b => (assoc s.poolBanks b).all (· == p)
/-- The counter groups that are free or already partition p's.
LOG 32 (DESIGN CHOICE). -/
def State.groupsFor (s : State) (p : Nat) : List Nat := (List.range 16).filter fun g => (assoc s.ctrGroups g).all (· == p)

/-- The boot of partition S takes the pool banks that it holds (R127).
LOG 164 (DESIGN CHOICE). -/
def State.sBanks (s : State) (p : Nat) : State :=
  if p = 4 then { s with poolBanks := s.poolBanks ++ (((s.banksFor 4).filter fun b => (assoc s.poolBanks b).isNone).take (Config.sPoolBanks s.si.current)).map fun b => (b, 4) }
  else s

/-- Whether an image may name pool bank b for partition p: one of its own, or a free one while it has none.
LOG 135 (DESIGN CHOICE). -/
def State.bankOk (s : State) (p b : Nat) : Bool :=
  match assoc s.poolBanks b with
  | some q => q == p
  | none => !(s.poolBanks.any fun e => e.2 == p)

/-- What a Brew Table entry occupies (Table 12-3): a source, a pool bank, or a unit of a cluster; `none` stands for every one. -/
structure Occupied where
  place : Nat
  cluster : Option Nat
  kind : Option Nat
  index : Option Nat
  deriving DecidableEq, Repr

/-- Whether two occupied things have a unit in common. -/
def Occupied.meets (a b : Occupied) : Bool :=
  let same := fun (x y : Option Nat) => x == none || y == none || x == y
  a.place == b.place && same a.cluster b.cluster && same a.kind b.kind && same a.index b.index

/-- The window of an entry: its minor frame, first and last tick, what it occupies, its action and task. -/
structure EntryWindow where
  minor : Nat
  first : Nat
  last : Nat
  units : List Occupied
  action : Nat
  task : Nat
  deriving DecidableEq, Repr

/-- The clusters of timed task k: those of the Program, else a stand-in that only the task's own windows share.
LOG 111 (DEDUCED). -/
def launchClusters (g : Option Program) (k : Nat) : List Nat :=
  match g with
  | some g => match g.tasks.find? fun t => t.timed && t.index == k with
    | some t => t.clusters
    | none => [1000 + k]
  | none => [1000 + k]

/-- The window of an entry (Table 12-3); a march of an array's accumulators occupies the array.
LOG 111 (DEDUCED). -/
def BrewEntry.window (e : BrewEntry) (g : Option Program) : EntryWindow :=
  let k := e.arg0 % 256
  let mk := fun (len : Nat) (u : List Occupied) => ({ minor := e.minor, first := e.offset, last := e.offset + len, units := u, action := e.action, task := k } : EntryWindow)
  match e.action with
  | 1 => mk (24 + bits e.arg1 29 0) ((launchClusters g k).map fun c => ⟨0, some c, none, none⟩)
  | 2 => mk (bits e.arg1 23 0) ((bitList e.arg0 26).map fun b => ⟨1, some b, none, none⟩)
  | 4 => mk (bits e.arg1 23 0) ((launchClusters g k).flatMap fun c =>
      (bitList (bits e.arg0 15 8) 8).map (fun a => (⟨0, some c, some 1, some a⟩ : Occupied)) ++ (bitList (bits e.arg0 17 16) 2).map (fun a => (⟨0, some c, some 2, some a⟩ : Occupied)))
  | 5 => mk 447 [⟨0, none, some 1, none⟩, ⟨0, none, some 2, none⟩, ⟨0, none, some 6, none⟩]
  | 6 => mk (bits e.arg1 23 0) [if bits e.arg0 11 8 = 5 then ⟨2, some (bits e.arg0 6 0), none, none⟩
      else ⟨0, some (bits e.arg0 6 0), some (if bits e.arg0 11 8 = 4 then 1 else bits e.arg0 11 8), some (bits e.arg0 16 12)⟩]
  | _ => mk 0 []

/-- Whether an entry's action, arguments and reserved bits are in range (R266, R268, R276, R283, R286). -/
def BrewEntry.argsOk (e : BrewEntry) (b : BrewTable) (own : PartRec) (g : Option Program) (bank : Nat → Bool) : Bool :=
  let k := e.arg0 % 256
  match e.action with
  | 1 => decide (e.arg0 < 256) && decide (e.arg1 < 2 ^ 30) && g.all fun g =>
      (g.tasks.any fun t => t.timed && t.index == k) && g.brewTaskLengths.all fun q => q.1 != k || decide (q.2 ≤ e.arg1)
  | 2 => decide (e.arg1 < 2 ^ 24) && decide (e.arg0 < 2 ^ 26) &&
      (bitList e.arg0 26).all fun i => if i < 16 then bit own.cameras i else if i < 20 then bit own.eth (i - 16) else if i < 24 then bit own.spouts (i - 20) else true
  | 3 => decide (e.arg0 < 64) && e.arg1 == 0
  | 4 => decide (e.arg0 < 2 ^ 18) && decide (e.arg1 < 2 ^ 24)
  | 5 => e.arg0 == 0 && e.arg1 == 0
  | 6 =>
    let kind := bits e.arg0 11 8
    let index := bits e.arg0 16 12
    let u := bits e.arg0 6 0
    decide (e.arg0 < 2 ^ 17) && !bit e.arg0 7 && decide (e.arg1 < 2 ^ 24) && decide (1 ≤ kind) && decide (kind ≤ 5) &&
    decide ((testKind kind).1 + (testKind kind).2.1 ≤ e.arg1) &&
    (match kind with
      | 1 | 4 => decide (index < 8)
      | 2 => decide (index < 2)
      | 3 => true
      | _ => index == 0) &&
    (if kind = 5 then decide (u < 64) && bank u else bit own.pairs (u / 2))
  | 7 => decide (e.arg0 < 64) && e.arg1 == 0 && b.streams.any fun r => r.stream == e.arg0
  | _ => false

/-- Whether a Brew Table record passes check 8 of R37 for a partition that owns `own` and the pool banks of `bank`, with the Program where
one is loaded (R265, R266, R268, R286). -/
def brewRecordOk (l : List Byte) (own : PartRec) (g : Option Program) (bank : Nat → Bool) : Bool :=
  let b := brewTable l
  let n := fieldAt l 2 2
  let m := fieldAt l 0x14 1
  let wins := b.entries.map fun e => e.window g
  let ordered := fun (x y : BrewEntry) => decide (x.minor * 2 ^ 30 + x.offset ≤ y.minor * 2 ^ 30 + y.offset)
  decide (1 ≤ b.minors) && decide (b.minors ≤ 64) && decide (1 ≤ n) && decide (n ≤ 2048) && decide (1000000 ≤ b.minorNs) && decide (b.minorNs ≤ 1000000000) &&
  b.minorNs % 4 == 0 && decide (b.minors * b.minorNs ≤ 1000000000) && decide (m ≤ 16) && (sliceBytes l 0x15 11).all (· == 0) &&
  l.length == 0x20 + 16 * n + 32 * m && decide (b.busyCt ≤ 3 * b.minorNs / 4 - ceilDiv (3 * b.minorNs) 4000) &&
  ((List.range n).all fun k => let o := 0x20 + 16 * k
    decide (fieldAt l o 4 < 2 ^ 30) && fieldAt l (o + 6) 2 == 0) &&
  ((List.range m).all fun k => let o := 0x20 + 16 * n + 32 * k
    decide (fieldAt l o 1 < 64) && decide (fieldAt l (o + 1) 1 ≤ 1) && fieldAt l (o + 3) 1 == 0 && fieldAt l (o + 0xC) 4 == 0 && fieldAt l (o + 0x10) 6 % 16 == 0 && decide (poolBase ≤ fieldAt l (o + 0x10) 6) && decide (fieldAt l (o + 0x10) 6 < poolBase + poolSize) &&
    bank ((fieldAt l (o + 0x10) 6 - poolBase) / 0x80000) && (sliceBytes l (o + 0x16) 10).all (· == 0)) &&
  decide ((b.streams.map (·.stream)).Nodup) &&
  (b.entries.all fun e => decide (e.minor < b.minors) && e.argsOk b own g bank) &&
  ((b.entries.zip (b.entries.drop 1)).all fun q => ordered q.1 q.2) &&
  (b.entries.all fun e => decide ((b.entries.filter fun q => q.minor == e.minor && q.offset == e.offset).length ≤ 8)) &&
  ((List.range b.minors).all fun f => (b.entries.filter fun e => e.minor == f && e.action == 5).length == 1) &&
  (wins.all fun w => decide (w.last < b.busyCt)) &&
  ((List.range wins.length).all fun i => match wins[i]? with
    | none => true
    | some x => (wins.drop (i + 1)).all fun y =>
      x.minor != y.minor || decide (x.last < y.first) || decide (y.last < x.first) || (x.action + y.action == 5 && x.action * y.action == 4 && x.task == y.task) ||
      x.units.all fun u => y.units.all fun v => !u.meets v)

/-- The checks of R2, R97, R268, R319 and R320: whether partition p provides what the Program names.
LOG 88 (DESIGN CHOICE). -/
def State.progCheck (s : State) (p : Nat) (g : Program) : Bool :=
  let cl := s.clustersOf p
  let banks := (s.banksFor p).take g.poolBanks
  let list := 32 + 32 * 1024
  decide (p < 4) && (s.prec p).active && !(g.ci && g.valueOptin) &&
  decide (31 ≤ g.timedWidth) && decide (g.timedWidth ≤ 32) && (cl.all fun c => decide (g.timedWidth ≤ s.fld (clReg c 0x100) 5 0)) &&
  decide (banks.length = g.poolBanks) && decide (((s.groupsFor p).take g.ctrGroups).length = g.ctrGroups) &&
  (g.tasks.all fun t => !t.step || t.timed == g.seqTimed) &&
  ((g.tasks.all fun t => !t.step) || ((List.range list).all fun i => i % 0x1000 != 0 && i + 1 != list ||
    (decide (poolBase ≤ g.workListAddr + i) && banks.contains ((g.workListAddr + i - poolBase) / 0x80000)))) &&
  (g.tasks.all fun t => t.clusters.all cl.contains) &&
  decide (g.dppTimed &&& (s.prec p).dpps = g.dppTimed) &&
  (let l := s.record 0x11 p
   l.isEmpty || brewRecordOk l (s.prec p) (some g) banks.contains)

/-- The kernels of a list that fit into a store with `room` bytes left, in order. -/
def fitKernels (size : Nat → Nat) : List Nat → Nat → List Nat
  | [], _ => []
  | k :: l, room => if size k ≤ room then k :: fitKernels size l (room - size k) else fitKernels size l room

/-- Cluster c's 8 KiB kernel store filled with the kernels that a Program names, out of the library of the verified firmware image (R100,
R485), and the tiler's firmware loaded (Table 07-12); VEC_LIB_ID of both engines shows them (Table 04-19).
LOG 144 (DESIGN CHOICE). -/
def State.fillStore (s : State) (c : Nat) (kernels : List Nat) : State :=
  let img := s.caddy.image
  let l := fitKernels (Config.kernelBytes img) (kernels.eraseDups.filter fun k => decide (Config.kernelBytes img k ≠ 0)) 0x2000
  let id := l.length % 2 ^ 16 * 2 ^ 16 + Config.libVersion img % 2 ^ 16
  ((({ s with kstore := sparsePut [] s.kstore c l } : State).wr (vecReg c 0 4) id).wr (vecReg c 1 4) id).wr (clReg c 0x804) (Config.tilerFw img)

/-- The Program's own state set up in partition p, whose units are reset and idle: pool, counters, kernel stores, DPP classes, tiler
widths, seed and marks, the work list.
LOG 89 (DESIGN CHOICE). -/
def State.placeProgram (s : State) (p : Nat) (g : Program) : State :=
  let banks := (s.banksFor p).take g.poolBanks
  let groups := (s.groupsFor p).take g.ctrGroups
  let cl := s.clustersOf p
  let width := (cl.map fun c => s.fld (clReg c 0x100) 5 0).foldl min 32
  let s := { s with poolBanks := s.poolBanks.filter (fun e => e.2 != p) ++ banks.map (fun b => (b, p)), ctrGroups := s.ctrGroups.filter (fun e => e.2 != p) ++ groups.map (fun b => (b, p)) }
  let s := cl.foldl (fun (s : State) c => (s.fillStore c g.kernels).wr (clReg c 0x80C) width) s
  let s := (bitList (s.prec p).dpps 4).foldl (fun s d => s.setFld (dppReg d 4) 4 4 (b2n (bit g.dppTimed d))) s
  let s := s.wr64 (detReg p 0x18) (g.seed % 2 ^ 64)
  let s := (s.setFld (detReg p 0) 3 3 (b2n g.ci)).setFld (detReg p 0) 2 2 (b2n g.valueOptin)
  let s := (s.setFld (seqCtl p 4) 0 0 (b2n g.seqTimed)).wr64 (seqCtl p 0x14) g.workListAddr
  { s with programs := s.programs.filter (fun e => e.1 != p) ++ [(p, g)] }

/-- The hot records of partition p taken from the current image, its severity table and slot tables with them. -/
def State.takeHot (s : State) (p : Nat) : State :=
  if s.si.current.isEmpty then s else ((s.takeRecords hotTypes p).applySev p).applySlots p

/-- A Program starts in partition p (R403): its dispatcher boots with the current image's hot sections (R42), the Program is placed, its
locks taken, it is measured with its hash, and its dispatcher waits for a frame. None where a lock fails (R253), with the source to raise.
LOG 137 (DESIGN CHOICE). -/
def State.startProgram (s : State) (p : Nat) (g : Program) (hash : Digest) : Option State × Option Src :=
  let s := (s.takeHot p).placeProgram p g
  let q := s.lockProgram p g
  (if q.1.isSome then none else some ((q.2.extendMr (4 + p) hash).bootDispatcher p), q.1)

/-! ## Boot of a partition -/

/-- The records of partition p that a boot takes (R42, R43): cold and hot, its slot tables and severity table. -/
def State.takeAll (s : State) (p : Nat) : State :=
  if s.si.current.isEmpty then s
  else (s.takeCold p).takeHot p

end Sys2Proof.Machine
end

