-- ==== Sys2Proof/Machine/Safety.lean ====
section
/-! DEFINITION. Safety mechanisms (R431–R454): the lockstep comparators, the Taster count of the Urn, safe states, ERR_OUT. -/

namespace Sys2Proof.Machine

/-- A write of the PCI Express host while the master is on Spout has no effect and is reported (R386). -/
def State.notMaster (s : State) (r : Requester) : State :=
  if r == .pcie && bit (s.rd (peReg 0)) 31 then (s.orReg (peReg 0) (2 ^ 30)).raise .peNotMaster 7 { req := r.index } else s

/-! ## Lockstep (R434, R435) -/

/-- A mismatch of pair k in an event group: recorded in the checker's cluster, every pass of the pair aborted with cause 0x1, every task
with a context there aborted, the source raised.
LOG 127 (DESIGN CHOICE). -/
def State.mismatch (s : State) (k group : Nat) : State :=
  let c := 2 * k
  let a := clReg (c + 1) 0xB00
  let s := if bit (s.rd a) 31 then s else s.setFld a 29 28 group
  let s := (s.orReg a (2 ^ 31)).countUp (clReg c 0xB04) 1
  let tasks := ((List.range 16).filterMap fun n => (s.slot c n).task) ++ ((s.ctx c 4).task.toList)
  let s := (List.range 5).foldl (fun s x => s.abortArrs c x 1) s
  let s := tasks.foldl (fun s t => s.teardownTask t) s
  s.raise .lockstepMismatch (scopeOf (s.ownerOf c)) { unit := k, info0 := group, cluster := some c }

/-- LOCKSTEP_MISMATCH: the comparators of a lockstep pair differ in group 0 store, 1 injection or 2 retire. -/
def execLockstepMismatch (pair group : Nat) (s : State) : Host.Outcome State Fault Refusal :=
  .next (if s.isLockstep pair = true ∧ pair < 32 ∧ group < 3 then s.mismatch pair group else s)

/-- REPORT_PATH_FAULT: the two report wires of a pair at equal levels for longer than 1 ct. -/
def execReportPathFault (pair : Nat) (s : State) : Host.Outcome State Fault Refusal :=
  .next (if s.isLockstep pair = true ∧ pair < 32 then s.mismatch pair 3 else s)

/-! ## The Taster count (R441) -/

/-- TASTER_MISSED: no golden test has completed in 2·MINOR_NS + 1 ms of synthesised time while the dispatcher ran.
LOG 131 (DESIGN CHOICE). -/
def execTasterMissed (p : Nat) (s : State) : Host.Outcome State Fault Refusal :=
  .next <| match (s.dsp p).table with
    | none => s
    | some b =>
      let d := s.dsp p
      let st := s.fld (btReg p 0) 3 0
      let late := decide (toSigned 64 (s.time + 2 ^ 64 - d.lastTaster % 2 ^ 64) > (2 * b.minorNs + 1000000 : Nat))
      if decide (p < 4) && (st == 2 || st == 3) && !s.scopeStopped p && late then
        State.raise ((s.setDsp p { d with lastTaster := s.time }).orReg (urnReg 0xC014) (2 ^ p)) .tasterMissed p { unit := p }
      else s

/-! ## Safe states (R446–R448, R453) -/

/-- SAFE_STATE: partition p enters its safe state for a cause of Table 20-10. -/
def execSafeState (p cause : Nat) (s : State) : Host.Outcome State Fault Refusal :=
  .next (if p < 4 ∧ (s.prec p).active = true ∧ 1 ≤ cause ∧ cause ≤ 5 then (s.safeState p cause).errUpdate else s)

/-- DEVICE_SAFE_STATE. -/
def execDeviceSafeState (cause : Nat) (s : State) : Host.Outcome State Fault Refusal :=
  .next (if 1 ≤ cause ∧ cause ≤ 5 then (s.deviceSafe cause).errUpdate else s)

/-- The partitions of a command's PARTS field enter their safe state. -/
def State.safeParts (s : State) (parts cause : Nat) : State :=
  ((List.range 4).filter fun p => bit parts p && (s.prec p).active).foldl (fun s p => s.safeState p cause) s

/-- URN_SAFE_CMD_PARTS: the Steward writes PARTS of URN_SAFE_CMD; other writers are ignored. -/
def execUrnSafeCmdParts (r : Requester) (parts : Nat) (s : State) : Host.Outcome State Fault Refusal :=
  .next (if r == .steward then (s.safeParts parts 3).errUpdate else s)

/-- URN_SAFE_CMD_DEVICE: the Steward writes DEVICE of URN_SAFE_CMD. -/
def execUrnSafeCmdDevice (r : Requester) (s : State) : Host.Outcome State Fault Refusal :=
  .next (if r == .steward then (s.deviceSafe 3).errUpdate else s)

/-- ST_SAFE_CMD: the controlling master's forwarder to URN_SAFE_CMD. -/
def execStSafeCmd (r : Requester) (value : Nat) (s : State) : Host.Outcome State Fault Refusal :=
  .next <|
    if s.isMaster r then
      let s := s.safeParts (value % 16) 3
      (if bit value 31 then s.deviceSafe 3 else s).errUpdate
    else s.notMaster r

/-- Whether SAFE_IN keeps partition p in its safe state. -/
def State.safeInHolds (s : State) (p : Nat) : Bool := (s.strain 26).level && decide (p < 4) && bit (s.rd (urnReg 0xC010)) p

/-- SAFE_IN puts partition p in its safe state: its source is raised in the scope as it stood, the cause is 0x2 (R446, R448).
LOG 128 (DEDUCED). -/
def State.safeInPart (s : State) (p : Nat) : State :=
  let new := !s.scopeStopped p
  let s := (s.raise .safeIn p { unit := p }).safeState p 2
  if new && !bit (s.rd (urnReg 0xC000)) 31 then s.setFld (urnReg 0xC000) 20 16 2 else s

/-- SAFE_IN: its level accepted by Strainer 26; an active level puts the partitions of SAFEIN_PARTS in their safe state. -/
def execSafeIn (active : Bool) (s : State) : Host.Outcome State Fault Refusal :=
  .next <|
    let was := (s.strain 26).level
    let s := (s.setStrain 26 { s.strain 26 with level := active }).strReport 26 active
    if active && !was then
      (((List.range 4).filter fun p => bit (s.rd (urnReg 0xC010)) p && (s.prec p).active).foldl (fun s p => s.safeInPart p) s).errUpdate
    else s

/-! ## ERR_OUT (R449) -/

/-- ERR_OUT_RETURN: no fault condition holds, at a 500 µs boundary of the Urn's clock. -/
def execErrOutReturn (s : State) : Host.Outcome State Fault Refusal :=
  .next <|
    if s.urn.errFault && !s.errCondition && s.clock.urn % 500000 == 0 then
      State.setFld { s with urn := { s.urn with errFault := false } } (urnReg 0xC00C) 1 1 0
    else s

end Sys2Proof.Machine
end

