-- ==== Sys2Proof/Machine/Recovery.lean ====
section
/-! DEFINITION. Fault collection and recovery (R455–R472): raising, windows, acknowledgement, watchdogs, crash records, cluster and
partition resets, the Steward's restart. -/

namespace Sys2Proof.Machine

/-! ## Out of service (R470) -/

/-- The reset of a scope, if one runs. -/
def State.resetRec (s : State) (p : Nat) : Option ResetRec := s.urn.active.find? fun r => r.scope == p

/-- The reset record of a scope rewritten. -/
def State.modReset (s : State) (p : Nat) (f : ResetRec → ResetRec) : State :=
  { s with urn := { s.urn with active := s.urn.active.map fun r => if r.scope = p then f r else r } }

/-- The reset of a scope given up: the commands that waited for it complete ABORTED. -/
def State.dropReset (s : State) (p : Nat) : State :=
  let cmds := (s.urn.active.filter fun r => r.scope == p).flatMap (·.cmds)
  let s := { s with urn := { s.urn with active := s.urn.active.filter fun r => r.scope != p, captureQueue := s.urn.captureQueue.filter fun q => q != p } }
  cmds.foldl (fun s k => s.complete k.1 k.2 stAborted 0 0) s

/-- Scope p goes out of service; a second perception partition out of service puts the device in its safe state for good.
LOG 137 (DESIGN CHOICE). -/
def State.outOfService (s : State) (p : Nat) : State :=
  let s := if p < 4 then s.stopDispatcher p else s
  let s := (((s.abortPart p).dropReset p).setRecState p 4).raise .partOos 7 { unit := p }
  let n := ((List.range 4).filter fun q => s.recState q == 4).length
  let s := if p < 4 ∧ 2 ≤ n then ((s.deviceSafe 1).orReg (urnReg 0xA000) (2 ^ 31)) else s
  s.errUpdate

/-! ## Rows of the Fault Collector (R459–R462) -/

/-- FAULT_RAISE: a unit raises a source. A failed comparator test ends the boot it belongs to, out of service (R437).
LOG 97 (DESIGN CHOICE). -/
def execFaultRaise (src : Src) (scope : Nat) (info : FaultInfo) (s : State) : Host.Outcome State Fault Refusal :=
  .next <|
    if scope < 5 ∨ scope = 7 then
      let s1 := s.raise src scope info
      if src = .lsInjectFail ∧ scope < 4 ∧ (s.resetRec scope).isSome = true then
        let c := 2 * (info.unit % 32) + 1
        (s1.setFld (clReg c 0xB00) 10 0 (info.info0 % 2048)).outOfService scope
      else if src = .dppMismatch ∧ info.unit < s.nDpps then s1.dppMismatch info.unit
      else if src = .peAerUncor then s1.countUp (peReg 0x1C) 1
      else s1
    else s

/-- A pending record rewritten, with its log copy. -/
def State.modPending (s : State) (seq : Nat) (f : FaultRec → FaultRec) (expiry : Option Nat) : State :=
  let s := s.modRecord seq f
  { s with urn := { s.urn with pending := s.urn.pending.map fun q => if q.rcd.seq = seq then { q with expiry := expiry } else q } }

/-- What an Urgent record does when its window ends (R460).
LOG 99 (DESIGN CHOICE). -/
def State.urgentAction (s : State) (r : FaultRec) : State :=
  let only := s.scopeStopped r.scope
  match r.action with
  | 0 =>
    if r.scope < 5 then
      let s := s.modPending r.seq (fun r => { r with sev := 5 }) none
      if only then s else (s.notify r.scope r.seq).actAtOnce r.scope 5 r.source r.seq
    else s.modPending r.seq id none
  | 1 =>
    let s := s.modPending r.seq id none
    match r.info.task with
    | some t => if only then s else s.teardownTask t
    | none => s
  | 2 =>
    let s := s.modPending r.seq id none
    match r.info.cluster with
    | some c => if only then s else { s with urn := { s.urn with clusterQ := s.urn.clusterQ.filter (fun q => q != c) ++ [c] } }
    | none => s
  | _ => s.modPending r.seq id none

/-- The window of a pending record has ended unacknowledged. -/
def State.escalate (s : State) (q : PendRec) : State :=
  State.errUpdate <|
    if q.rcd.sev = 3 then
      let s := s.modPending q.rcd.seq (fun r => { r with sev := 4 }) (some (s.clock.urn + s.windowNs q.rcd.scope 4))
      if s.scopeStopped q.rcd.scope then s else s.notify q.rcd.scope q.rcd.seq
    else s.urgentAction q.rcd

/-- The pending record of a SEQ, where its window ends before time t. -/
def State.dueRecord (s : State) (seq t : Nat) : Option PendRec :=
  s.urn.pending.find? fun q => q.rcd.seq == seq && (match q.expiry with
    | some e => decide (e < t)
    | none => false)

/-- WINDOW_EXPIRY: the window of a pending record ends unacknowledged. -/
def execWindowExpiry (seq : Nat) (s : State) : Host.Outcome State Fault Refusal :=
  .next <| match s.dueRecord seq (s.clock.urn + 1) with
    | some q => s.escalate q
    | none => s

/-- URN_SECOND: at a whole second of Urn time the counts of Correctable raises start again. -/
def execUrnSecond (s : State) : Host.Outcome State Fault Refusal :=
  .next <|
    let n := s.clock.urn / 1000000000
    if s.urn.secondNo < n then { s with urn := { s.urn with second := [], secondNo := n } } else s

/-- FC_STATUS.SW_DENIED set. -/
def State.swDenied (s : State) : State := s.orReg (urnReg 0x8000) (2 ^ 30)

/-- A record closed by an acknowledgement; an expiry of the same Urn tick applies first (R461). -/
def State.ackRecord (s : State) (seq : Nat) : State :=
  let s := match s.dueRecord seq ((s.clock.urn / 10 + 1) * 10) with
    | some q => s.escalate q
    | none => s
  let s := s.modRecord seq fun r => { r with acked := true }
  State.showPending { s with urn := { s.urn with pending := s.urn.pending.filter fun q => q.rcd.seq != seq } }

/-- FC_ACK: the Steward or the controlling master for any record, partition S for its own; a closed or unknown record is ignored. -/
def execFcAck (r : Requester) (seq : Nat) (s : State) : Host.Outcome State Fault Refusal :=
  .next <|
    let q := s.urn.pending.find? fun q => q.rcd.seq == seq
    let hart := match r with
      | .hart _ => true
      | _ => false
    if r == .steward || s.isMaster r then s.ackRecord seq
    else if hart then
      match q with
      | some q => if q.rcd.scope = 4 then s.ackRecord seq else s.swDenied
      | none => s
    else s.swDenied

/-- FC_SW_RAISE: software raises source 0x200 + n in a scope it may name. -/
def execFcSwRaise (r : Requester) (value : Nat) (s : State) : Host.Outcome State Fault Refusal :=
  .next <|
    let scope := bits value 26 24
    if scope ≠ 5 ∧ scope ≠ 6 ∧ (r = .steward ∨ s.isMaster r = true ∨ (scope < 5 ∧ s.partOf r = some scope)) then
      s.raise (.software (value % 256)) scope { req := r.index, ctx := r.ctx.getD 0xFF, info0 := bits value 23 8 }
    else s.swDenied

/-! ## Watchdogs (R465) -/

/-- HANG_CONTEXT: a ready context that has made no progress for CL_HANG_LIMIT ct. -/
def execHangContext (c x : Nat) (s : State) : Host.Outcome State Fault Refusal :=
  .next <|
    let k := s.ctx c x
    if x < 4 ∧ c < s.nClusters ∧ s.ctxState c x = 1 ∧ k.progressAt + s.rd (clReg c 0xB20) ≤ s.ct then
      (s.setCtx c x { k with progressAt := s.ct }).raiseCl .hangContext c (some x) (8 * c) x 0 0
    else s

/-- The tick of cluster c's last write of CL_SEQ_WDOG. -/
def State.wdogAt (s : State) (c : Nat) : Nat := sparseGet 0 s.urn.seqWdog c
/-- The sequencer watchdog of cluster c restarted. -/
def State.wdogRestart (s : State) (c : Nat) : State := { s with urn := { s.urn with seqWdog := sparsePut 0 s.urn.seqWdog c s.ct } }

/-- HANG_SEQUENCER: no write of CL_SEQ_WDOG for 2^20 ct. -/
def execHangSequencer (c : Nat) (s : State) : Host.Outcome State Fault Refusal :=
  .next <| match s.ownerOf c with
    | some p => if s.recState p = 0 ∧ c < s.nClusters ∧ s.wdogAt c + 2 ^ 20 ≤ s.ct then (s.wdogRestart c).raiseCl .hangSequencer c none (8 * c) 0 0 0 else s
    | none => s

/-- CL_SEQ_WDOG: any write restarts the sequencer watchdog. -/
def execClSeqWdog (_r : Requester) (c : Nat) (s : State) : Host.Outcome State Fault Refusal :=
  .next (if c < s.nClusters then s.wdogRestart c else s)

/-- The tick since which slot n of cluster c has been blocked: its context blocked, or swapped out and waiting. -/
def State.blockedFrom (s : State) (c n : Nat) : Option Nat :=
  let v := s.slot c n
  match v.ctx with
  | some x => if s.ctxState c x = 2 then some (s.ctx c x).blockedAt else none
  | none => if v.waiting.isSome then (v.task.bind s.task).map (·.blockedSince) else none

/-- HANG_TASK: an elastic task blocked for longer than ST_TASK_TIMEOUT ms; raised once. -/
def execHangTask (c slot : Nat) (s : State) : Host.Outcome State Fault Refusal :=
  .next <|
    let lim := s.fld (stReg 0x6008) 15 0
    match (s.slot c slot).task.bind s.task, (s.slot c slot).task, s.blockedFrom c slot with
    | some k, some t, some at_ =>
      if lim ≠ 0 ∧ k.hangRaised = false ∧ at_ + 750000 * lim < s.ct then
        (s.modTask t fun k => { k with hangRaised := true }).raise .hangTask k.part { info0 := k.rcd.index, task := some t, cluster := some c }
      else s
    | _, _, _ => s

/-! ## The Steward (R465, R471, R472) -/

/-- The Steward pair is held in reset; a third restart within 600 s puts the device in its safe state. -/
def State.holdSteward (s : State) : State :=
  if s.stewardUp then
    let recent := s.urn.restarts.filter s.in600
    let s := { s with urn := { s.urn with stewardUpAt := some (s.clock.urn + 10000), restarts := recent ++ [s.clock.urn] } }
    let s := s.countUp (urnReg 0xA014) 1
    if 2 ≤ recent.length then (s.deviceSafe 1).errUpdate else s
  else s

/-- STEWARD_HB: URN_HB_STEWARD has not changed for 500 µs, or the Steward's comparator reports a mismatch. -/
def execStewardHb (mismatch : Bool) (s : State) : Host.Outcome State Fault Refusal :=
  .next <|
    let v := s.rd (urnReg 0xA00C)
    if !s.stewardUp then s
    else if mismatch then (s.raise .stewardHb 7 { info0 := 1 }).holdSteward
    else if v ≠ s.urn.hbStewardSeen then { s with urn := { s.urn with hbStewardSeen := v, hbStewardAt := s.clock.urn } }
    else if s.urn.hbStewardAt + 500000 ≤ s.clock.urn then (s.raise .stewardHb 7 {}).holdSteward
    else s

/-- The Steward restarted: the commands it had taken complete ABORTED; its held commands with them.
LOG 103 (DESIGN CHOICE). -/
def State.restartSteward (s : State) : State :=
  let keep := s.urn.active.flatMap (·.cmds)
  let gone := s.st.cmds.filter fun k => !keep.contains (k.ring, k.idx)
  let s := gone.foldl (fun s k => s.complete k.ring k.idx stAborted 0 0) s
  let s := if s.fld (urnReg 0xA018) 31 28 = 2 then s.setFld (urnReg 0xA018) 31 28 3 else s
  State.showSi { s with st := { s.st with held := [] }, si := { s.si with submission := none },
                        urn := { s.urn with stewardUpAt := none, hbStewardSeen := s.rd (urnReg 0xA00C), hbStewardAt := s.clock.urn } }

/-- STEWARD_RESTART: 10 µs after the hold began the pair starts from the active bank of control memory.
LOG 103 (DESIGN CHOICE). -/
def execStewardRestart (s : State) : Host.Outcome State Fault Refusal :=
  .next <| match s.urn.stewardUpAt with
    | some t => if t ≤ s.clock.urn then s.restartSteward else s
    | none => s

/-! ## Crash records (R469) -/

/-- The slot of crash record number n, counted from 0: the first record in slot 0, the later ones in 1–3 in rotation. -/
def crashSlot (n : Nat) : Nat := if n = 0 then 0 else (n - 1) % 3 + 1

/-- Bytes followed by zeros up to a length, or cut to it. -/
def crashPad (n : Nat) (l : List Byte) : List Byte := (l ++ List.replicate n 0).take n

/-- A watched word as a crash record shows it: its address and its value.
LOG 102 (DESIGN CHOICE). -/
def State.watchBytes (s : State) (w : Watch) : List Byte := leBytes 8 w.addr ++ (match s.localOf w.addr with
  | some x => s.mem.read x 8
  | none => leBytes 8 0)

/-- The bytes of a crash record (Table 21-8): the scope's last 512 log records, its commands in progress, its watches as the table says,
zeros for absent clusters; of the parts whose layout is not given the bytes are free values.
LOG 102 (DESIGN CHOICE). -/
def State.crashBytes (s : State) (scope number : Nat) : List Byte :=
  let open_ : Nat → Nat → List Byte := fun lo n => (List.range n).map fun i => Config.crashByte number (lo + i)
  let log := s.urn.log.filter fun r => r.scope == scope
  let cmds := s.st.cmds.filter fun k => k.part == scope
  let watches := s.watches.filter fun w => s.ownerOf w.cluster == some scope
  open_ 0 0x200 ++ crashPad 0x4000 ((log.drop (log.length - 512)).flatMap fun r => leFields (r.words.map fun w => (4, w))) ++ open_ 0x4200 0x1000 ++
    crashPad 0x1000 (cmds.flatMap (·.entry)) ++
    ((List.range 64).flatMap fun c => if c < s.nClusters then open_ (0x6200 + 448 * c) 448 else List.replicate 448 0) ++
    crashPad 0x2000 (watches.flatMap s.watchBytes) ++ open_ 0xF200 0xE00

/-- The record copied to URN_CRASH_DEST, where that is LPDDR6 in service.
LOG 102 (DESIGN CHOICE). -/
def State.crashCopy (s : State) (scope slot number : Nat) : State :=
  let a := s.fld (urnReg 0xA020) 31 16 * 2 ^ 16 + 2 ^ 32 * s.fld (urnReg 0xA024) 8 0 + slot * 0x10000
  if a < lpddrTop ∧ s.lpReady a 0x10000 = true then
    s.stewardPut a (s.crashBytes scope number)
  else s

/-- A capture ends, complete or cut short. -/
def State.captureEnd (s : State) (scope : Nat) (cut : Bool) : State :=
  let n := s.urn.crashCount
  let r := s.resetRec scope
  let k : CrashRec :=
    { scope := scope, source := (r.map (·.source)).getD 0, seq := (r.map (·.seq)).getD 0, time := s.time, utime := s.utime, count := s.resetCount scope,
      fwVersion := s.urn.fwVersion, siVersion := imgVersion s.si.current, partial_ := cut, number := n }
  let crash := s.urn.crash.filter (fun e => e.1 != crashSlot n) ++ [(crashSlot n, k)]
  let s := { s with urn := { s.urn with capture := none, captureQueue := s.urn.captureQueue.filter (fun q => q != scope), crash := crash, crashCount := n + 1 } }
  (s.crashCopy scope (crashSlot n) n).wr (urnReg (0x8040 + 4 * firstIdx scope)) 0

/-- After its capture a scope waits held, goes out of service, or is reset (R470); the device is reset where AUTO_DEV is 1 and DEV_OOS 0.
LOG 129 (DESIGN CHOICE). -/
def State.afterCapture (s : State) (p : Nat) : State :=
  match s.resetRec p with
  | none => s
  | some r =>
    let go := fun (s : State) => (s.modReset p fun r => { r with step := 3 }).setRecState p 3
    if p = 7 then
      if bit (s.rd (urnReg 0xA004)) 8 && !bit (s.rd (urnReg 0xA000)) 31 then s.modReset p fun r => { r with step := 3 } else s.dropReset p
    else if !r.counted then go s
    else if bit (s.rd (urnReg 0xA004)) p then (s.dropReset p).setRecState p 1
    else if 2 ≤ s.resetCount p then s.outOfService p
    else
      let old := ((assoc s.urn.resets p).getD []).filter s.in600
      go { s with urn := { s.urn with resets := s.urn.resets.filter (fun e => e.1 != p) ++ [(p, old ++ [s.clock.urn])] } }

/-- CRASH_CAPTURE: the capture of a scope starts, in ascending scope order and one at a time, or ends.
LOG 102 (DESIGN CHOICE). -/
def execCrashCapture (scope : Nat) (s : State) : Host.Outcome State Fault Refusal :=
  .next <| match s.urn.capture with
    | none =>
      if s.urn.captureQueue.contains scope ∧ (s.urn.captureQueue.all fun q => decide (scope ≤ q)) = true ∧ s.urn.urnHeld = false then
        { s with urn := { s.urn with capture := some (scope, s.clock.urn) } }
      else s
    | some (c, _) => if c = scope then (s.captureEnd scope false).afterCapture scope else s

/-- CRASH_PARTIAL: a capture that has not ended after 5 ms is closed. -/
def execCrashPartial (s : State) : Host.Outcome State Fault Refusal :=
  .next <| match s.urn.capture with
    | some (c, t) => if t + 5000000 ≤ s.clock.urn then ((s.captureEnd c true).raise .crashPartial c {}).afterCapture c else s
    | none => s

/-! ## Cluster reset (R443, R466) -/

/-- The partition of a pair that could not be repaired. -/
def State.repairFailed (s : State) (c : Nat) : State := s.raise .repairExhausted (scopeOf (s.ownerOf c)) { unit := c / 2, cluster := some c }

/-- CLUSTER_RESET: the cluster, or both of a lockstep pair, that ACTION 2 named. -/
def State.clusterReset (s : State) (c : Nat) : State :=
  let l := s.resetSet c
  let tasks := l.flatMap fun q => ((List.range 16).filterMap fun n => (s.slot q n).task) ++ ((s.ctx q 4).task.toList)
  let s := tasks.foldl (fun s t => s.teardownTask t) s
  let r := s.resetClusters l
  let s := match r.2.ownerOf c with
    | some p => r.2.applyClaims p
    | none => r.2
  match r.1 with
  | some q => s.repairFailed q
  | none => s

/-- CLUSTER_RESET. -/
def execClusterReset (c : Nat) (s : State) : Host.Outcome State Fault Refusal :=
  .next (if s.urn.clusterQ.contains c then State.clusterReset { s with urn := { s.urn with clusterQ := s.urn.clusterQ.filter fun q => q != c } } c else s)

/-! ## Partition reset (R402, R404, R405, R467, R468) -/

/-- RESET of ring n: disabled; its taken commands run but complete nothing; its indices are cleared at the next host-service tick. -/
def State.ringReset (s : State) (n : Nat) : State :=
  let s := (s.setFld (stReg (0x5028 + 0x10 * n)) 31 31 0).setFld (stReg (0x502C + 0x10 * n)) 31 31 0
  let s := s.setRing n { s.ring n with resetPend := true }
  { s with st := { s.st with cmds := s.st.cmds.map fun k => if k.ring = n then { k with drop := true } else k } }

/-- The commands and held commands that name partition p complete ABORTED, but for those that wait for its reset.
LOG 101 (DESIGN CHOICE). -/
def State.abortCmds (s : State) (p : Nat) : State :=
  let keep := s.urn.active.flatMap (·.cmds)
  let gone := s.st.cmds.filter fun k => k.part == p && !keep.contains (k.ring, k.idx)
  let s := { s with st := { s.st with held := s.st.held.filter fun h => h.part != p } }
  gone.foldl (fun s k => s.complete k.ring k.idx stAborted 0 0) s

/-- What still moves for partition p is discarded: pieces, staged writes. -/
def State.drainPart (s : State) (p : Nat) : State :=
  let s := (s.abortPart p).abortCmds p
  let s := (s.pairClusters p).foldl (fun s c => (List.range 16).foldl (fun s n => s.setChan c n { MovChan.idle with tokens := (s.chan c n).tokens }) s) s
  { s with staging := s.staging.filter fun e => e.1 / 32 != p }

/-- The reset of partition S beside the others' (R405): cores, rings 4–7, MAC queues. -/
def State.resetS (s : State) : State :=
  let s := s.wr (stReg 0x5108) 0
  let s := (List.range 4).foldl (fun s n => s.ringReset (4 + n)) s
  { s with macs := [], l2 := [] }

/-- Full training of partition p's channels begins (R427): they are offline and their content is lost. -/
def State.beginTraining (s : State) (p : Nat) : State :=
  let chans := (bitList (s.prec p).channels 16).filter fun c => decide (c < s.nChannels)
  let s := chans.foldl (fun s c =>
    let s := State.resetRegs { s with writeBack := s.writeBack.filter fun e => e.1 != c } (mcReg c 0) (mcReg c 4)
    ((s.resetRegs (mcReg c 8) (mcReg (c + 1) 0)).mcCfg c).setFld (mcReg c 0) 3 0 1) s
  match s.lpSet p with
  | some q =>
    let hi := q.base + q.chans.length * s.chanBytes
    State.draw { s with mem := { s.mem with lost := (s.mem.zero q.base (hi - q.base)).lost ++ [({ lo := q.base, hi := hi, epoch := s.fresh } : LostRange)], cells := (s.mem.zero q.base (hi - q.base)).cells, bad := (s.mem.zero q.base (hi - q.base)).bad } }
  | none => s

/-- Whether every channel of partition p is in service. -/
def State.chansReady (s : State) (p : Nat) : Bool :=
  (bitList (s.prec p).channels 16).all fun c => decide (s.nChannels ≤ c) || s.fld (mcReg c 0) 3 0 == 2

/-- Steps 4 and 6 of Table 21-7: resets with their scrubs, on the records that the boot takes; `train`: the channels train. -/
def State.resetUnits (s : State) (p : Nat) (train : Bool) : State :=
  let s := (((s.resetPorts p).freePool p).clearPart p)
  let s := if p = 4 then s.resetS else s
  let old := s.pairClusters p
  let s := ((s.takeAll p).gateFreed).trainPorts p
  let r := s.resetClusters (old ++ (s.pairClusters p).filter fun c => !old.contains c)
  match r.1 with
  | some c => ((r.2.repairFailed c).outOfService p)
  | none =>
    let s := if train then r.2.beginTraining p else r.2
    (s.modReset p fun r => { r with step := 5 }).showSi

/-- Step 6: the full BIST where due, its repairs applied, the comparator test, the ports' settings. -/
def State.bootTests (s : State) (p : Nat) : State :=
  let s := s.fullBist p
  let r := s.resetClusters (s.pairClusters p)
  match r.1 with
  | some c => (r.2.repairFailed c).outOfService p
  | none => (((r.2.comparatorTest p).loadSensors p).sBanks p).modReset p fun r => { r with step := 7 }

/-- The partition stops after step 6 in the held state (R468).
LOG 100 (DESIGN CHOICE). -/
def State.heldState (s : State) (p : Nat) : State := ((s.dropReset p).setRecState p 5).raise .crashPartial p { info0 := 1 }

/-- Step 7: the reload image, hashed again, loaded; a partition that has none is in service with no Program.
LOG 101 (DESIGN CHOICE). -/
def State.reloadProgram (s : State) (p : Nat) : State :=
  match assoc (s.urn.reload.map fun e => (e.1, e.2)) p, (assoc s.nextProg p).orElse fun _ => s.prog p with
  | some (addr, len, hash), some g =>
    let s := { s with nextProg := s.nextProg.filter fun e => e.1 != p }
    let inside := match s.lpSet p with
      | some q => decide (addr < q.base + q.chans.length * s.chanBytes) && decide (q.base < addr + len)
      | none => false
    if inside || Config.sha512 (s.mem.read addr len) != hash || !s.progCheck p g then s.heldState p
    else match s.startProgram p g hash with
      | (some t, _) => if (t.dsp p).table.isSome then t.modReset p fun r => { r with step := 8 } else t.endReset p
      | (none, some e) => (s.raise e p {}).heldState p
      | (none, none) => s.heldState p
  | _, _ => s.endReset p

/-- A reset of scope p asked for by a command (R400, R403, R471): one that runs already is joined; it is not counted. -/
def State.askUncounted (s : State) (p : Nat) (cmd : Option (Nat × Nat)) : State :=
  match s.resetRec p with
  | some _ => s.modReset p fun r => { r with cmds := r.cmds ++ cmd.toList }
  | none =>
    { s with urn := { s.urn with active := s.urn.active ++ [{ scope := p, counted := false, since := s.clock.urn, step := 1, cmds := cmd.toList, overrun := false, source := 0, seq := 0 }] } }

/-- PARTITION_RESET: the next step of Table 21-7 of scope p's reset, once the one before has ended. Step 2 is CRASH_CAPTURE, step 8 the
MINOR_FRAME_START that ends it.
LOG 100 (DESIGN CHOICE). -/
def execPartitionReset (p : Nat) (s : State) : Host.Outcome State Fault Refusal :=
  .next <| match s.resetRec p with
    | none => s
    | some r =>
      if 4 < p ∨ s.stewardUp = false ∨ (r.step = 1 ∧ s.fld (urnReg 0xA018) 31 28 = 3) then s
      else match r.step with
        | 1 =>
          let s := if s.recState p = 0 then s.safeState p 1 else s
          let s := (s.setRecState p 2).modReset p fun r => { r with step := 2 }
          (State.errUpdate { s with urn := { s.urn with captureQueue := s.urn.captureQueue.filter (fun q => q != p) ++ [p] } })
        | 3 => (s.drainPart p).modReset p fun r => { r with step := 4 }
        | 4 => if s.safeInHolds p || s.fld (pmReg 0x20) 30 28 == 3 then s else s.resetUnits p true
        | 5 => if s.chansReady p then s.modReset p fun r => { r with step := 6 } else s
        | 6 => s.bootTests p
        | 7 => s.reloadProgram p
        | _ => s

/-- RESET_OVERRUN: a partition reset that exceeds 2.5 s. -/
def execResetOverrun (p : Nat) (s : State) : Host.Outcome State Fault Refusal :=
  .next <| match s.resetRec p with
    | some r =>
      if p < 5 ∧ r.overrun = false ∧ r.since + 2500000000 < s.clock.urn then (s.modReset p fun r => { r with overrun := true }).raise .resetOverrun 7 { unit := p }
      else s
    | none => s

/-- PART_RESET (R400, R470): not counted, and clears the count of its scope.
LOG 100 (DESIGN CHOICE). -/
def State.partReset (s : State) (ring idx : Nat) (k : Cmd) : State :=
  let p := k.part
  if 4 < p then s.complete ring idx stInvalid 0 0
  else
    let s := { s with urn := { s.urn with resets := s.urn.resets.filter fun e => e.1 != p } }
    s.askUncounted p (some (ring, idx))

/-- PART_RESET. -/
def execPartReset (ring idx : Nat) (s : State) : Host.Outcome State Fault Refusal :=
  .next (s.mbox ring idx 0x0E fun k s => s.partReset ring idx k)

end Sys2Proof.Machine
end

