-- ==== Sys2Proof/Machine/Device.lean ====
section
/-! DEFINITION. The device as a whole: device resets (R466, R527, R529), the boot ROM (R482–R487), the Steward's boot (R414, R427, R457,
R488, R543), the last-resort sequencer (R473), firmware switchover (R474, R475, R487, R495). -/

namespace Sys2Proof.Machine

/-! ## Device reset (Table 21-6, R477, R498, R517, R537) -/

/-- The registers a device reset keeps: the last-resort status, the wake sources, the shutdown record, the rail status, the reference
choice, what OTP and the configuration store hold, the number of the next fault record. -/
def keptReg (a : Nat) : Bool :=
  [pmReg 0x90000, pmReg 0x008, pmReg 0x088, pmReg 0x0C0, ckReg 0, cadReg 0, cadReg 0xC, urnReg 0x800C].contains a ||
  (decide (cadReg 0x10 ≤ a) && decide (a < cadReg 0x40)) || (decide (stReg 0x1000 ≤ a) && decide (a < stReg 0x1080))

/-- Those a power-up keeps: OTP and the configuration store. -/
def otpReg (a : Nat) : Bool :=
  [cadReg 0, cadReg 0xC].contains a || (decide (cadReg 0x10 ≤ a) && decide (a < cadReg 0x40)) || (decide (stReg 0x1000 ≤ a) && decide (a < stReg 0x1080))

/-- The state after a reset that keeps some registers: OTP, the boot flash and the configuration store live on.
LOG 109 (DESIGN CHOICE). -/
def State.rebirth (s : State) (keep : Nat → Bool) : State :=
  let status := s.rd (stReg 0x1000)
  let s1 := { State.reset with
    pending := s.pending, regs := s.regs.filter (fun e => keep e.1), repairs := s.repairs, colMaps := s.colMaps, resp := s.resp, out := s.out, fresh := s.fresh,
    si := { Si.none with current := s.si.current, previous := s.si.previous }, caddy := { s.caddy with ext := [], image := [], oldImage := [] } }
  (s1.wr (stReg 0x1000) (setBits (setBits 0 23 16 (bits status 23 16)) 13 13 (bits status 13 13))).wr (ckReg 0) (setBits 0 30 30 (s.fld (ckReg 0) 30 30))

/-- A device reset (Table 21-6): everything but the Urn log and crash memory, PM_LRS_STATUS and the configuration store; LPDDR6 content
is not kept across the training that follows.
LOG 109 (DESIGN CHOICE). -/
def State.deviceReset (s : State) : State :=
  let u := s.urn
  let s1 := s.rebirth keptReg
  State.draw { s1 with
    clock := { s.clock with ns := 0 }, power := { Power.up with resetN := s.power.resetN, pwrGood := s.power.pwrGood },
    urn := { Urn.boot with log := u.log, nextSeq := u.nextSeq, secondNo := u.secondNo, crash := u.crash, crashCount := u.crashCount },
    mem := { Memory.empty with lost := [({ lo := 0, hi := lpddrTop, epoch := s.fresh } : LostRange)] } }

/-- DEVICE_RESET: a device reset asked for, once its crash record is captured. -/
def execDeviceReset (s : State) : Host.Outcome State Fault Refusal :=
  .next <| match s.resetRec 7 with
    | none => s
    | some r => if r.step = 3 then s.deviceReset else s

/-- RESET_N: its level accepted; asserted, it ends any state and starts a device reset with RAIL_EN high. -/
def execResetN (asserted : Bool) (s : State) : Host.Outcome State Fault Refusal :=
  .next <|
    if asserted then State.deviceReset { s with power := { s.power with resetN := false } }
    else { s with power := { s.power with resetN := true } }

/-- PWR_GOOD_FALL: with RESET_N high it is a device reset without a crash record; a flash rewrite under way is lost (R474). -/
def execPwrGoodFall (s : State) : Host.Outcome State Fault Refusal :=
  .next <|
    if s.power.resetN && s.power.pwrGood then
      let s := if s.fld (urnReg 0xA018) 31 28 = 4 then { s with caddy := { s.caddy with flash := [] } } else s
      let s := State.deviceReset { s with power := { s.power with pwrGood := false } }
      { s with power := { s.power with errLow := true } }
    else s

/-- POWER_UP: VDDA_18 comes into range: everything starts from power-up, the always-on counters from 0; CLK_IN is the reference where at
least 1,000 of its edges are counted. -/
def execPowerUp (edges : Nat) (s : State) : Host.Outcome State Fault Refusal :=
  .next <|
    let s := if s.fld (urnReg 0xA018) 31 28 = 4 then { s with caddy := { s.caddy with flash := [] } } else s
    (s.rebirth otpReg).wr (ckReg 0) (if 1000 ≤ edges then 2 ^ 30 else 0)

/-! ## Verification of a firmware image (R484, R485) -/

/-- The check that an image fails, as CAD_BOOT.FAIL names it; 0 where it passes. -/
def State.verifyFw (s : State) (img : List Byte) (v : SigVerdict) : Nat :=
  let f := Config.fwField img
  if img.isEmpty || f 0 == 0 || f 4 != s.part then 1
  else if bit (s.fld (cadReg 0xC) 11 8) (f 5 % 4) || BitVec.ofNat 512 (f 6) != s.caddy.roots.getD (f 5 % 4) 0 then 2
  else if !(v.ed && v.ml) then 3
  else if f 2 < s.fld (cadReg 0xC) 7 0 then 4
  else if f 7 == 0 then 5
  else 0

/-- What the Fault Collector hears of a failed verification (Table 22-12). -/
def State.fwFailed (s : State) (code : Nat) : State :=
  if code = 3 then s.raise .cadSigFail 7 {} else if code = 4 then s.raise .cadRollback 7 {} else s

/-! ## The Steward's boot -/

/-- The device records of the image loaded at device boot (R457, R512, R543): fault configuration, Strainers, generators 16–24, GPIO,
clocks, Spout. -/
def State.deviceRecords (s : State) : State :=
  let s := ((s.takeRecords coldTypes 7).takeRecords hotTypes 7).applySev 7
  let s := { s with booted := s.booted.filter (fun (e : Nat × List Byte) => e.1 % 8 != 7) ++ ((coldTypes.map fun t => (t * 8 + 7, imgRecord s.si.current t 7)).filter fun (e : Nat × List Byte) => !e.2.isEmpty) }
  let dev := fieldAt (s.record 0x12 7) 0xC 4
  let s := if (s.record 0x12 7).isEmpty then s else
    (((s.wr (urnReg 0xC008) (bits dev 3 0 + bits dev 10 4 * 256)).wr (urnReg 0xC010) (bits dev 14 11)).wr (urnReg 0xA004) (bits dev 19 15 + bits dev 20 20 * 256))
  let pin := s.record 5 7
  let s := if pin.isEmpty then s else
    let s := (List.range 28).foldl (fun (s : State) (n : Nat) => ((s.wr (strReg n 0) (fieldAt pin (0x30 + 8 * n) 4 % 4)).wr (strReg n 4) (fieldAt pin (0x34 + 8 * n) 4))) s
    let s := (List.range 9).foldl (fun (s : State) (k : Nat) =>
      let o := 0x110 + 32 * k
      s.genRestart (16 + k) (fieldAt pin o 8) (fieldAt pin (o + 8) 4) (fieldAt pin (o + 12) 4) (fieldAt pin (o + 16) 4)) s
    s.wr (pmReg 0xC4) (((List.range 24).map fun n => let f := fieldAt pin (0x10 + n) 1; if f % 4 = 2 ∧ bit f 2 = true then 2 ^ n else 0).foldl (· + ·) 0)
  let s := if (s.record 4 7).isEmpty then s else s.wr (ckReg 4) (Config.clockWord (s.record 4 7)).toNat
  s.spoutLoad

/-- The partitions boot (R134, R437, R443, R444): no Program runs in them until a PROG_LOAD. -/
def State.bootParts (s : State) : State :=
  let s := (List.range 5).foldl (fun s p => s.takeAll p) s
  let s := s.gateFreed
  (List.range 5).foldl (fun s p =>
    if (s.prec p).active then
      let s := s.fullBist p
      let r := s.resetClusters (s.pairClusters p)
      match r.1 with
      | some c => (r.2.repairFailed c).outOfService p
      | none => (((r.2.comparatorTest p).loadSensors p).sBanks p).setRecState p 0
    else s.setRecState p 6) s

/-- Fresh random bytes for CAD_CHALLENGE (R490). -/
def State.newChallenge (s : State) : State :=
  let n := s.fresh
  State.wrDigest { s with fresh := n + 64 } (cadReg 0x40) (digestOf ((List.range 64).map fun i => Config.randomByte (n + i)))

/-- The Steward boots: LPDDR6 begins full training, the configuration store is read, and the image it names takes effect in full; a
current image below the floor counts as none (R488). -/
def State.stewardBoot (s : State) : State :=
  let s := if imgVersion s.si.current < s.rd (stReg 0x1010) then { s with si := { s.si with current := [], previous := [] } } else s
  let s := (List.range s.nChannels).foldl (fun s c => s.setFld (mcReg c 0) 3 0 1) s
  let s := if bit (s.rd (peReg 0)) 31 then (s.wr (spReg 0 4) 1).spTrain 0 else s
  let s := if s.si.current.isEmpty then s else ((s.deviceRecords).bootParts).extendMr 2 (imageHash s.si.current)
  let s := if (s.prec 4).active then State.draw (s.wr64 (stReg 0x5100) ((Config.freeWord s.fresh).toNat)) else s
  let s := if bit (s.rd (pmReg 0x88)) 31 then s.raiseAt (srcId .pmThermShutdown) 7 1 0 { info0 := s.fld (pmReg 0x88) 15 0 } else s
  s.showSi

/-- The FW_SVN floor raised to a committing image's SVN (R487).
LOG 108 (DESIGN CHOICE). -/
def State.commitSvn (s : State) (commit : Bool) (svn : Nat) : State :=
  if commit then s.setFld (cadReg 0xC) 7 0 (max (s.fld (cadReg 0xC) 7 0) (min 128 svn)) else s

/-- A verified image boots (R485): measured, the alias keys derived, the Urn and the Steward released from it;
a committing image that lies in flash completes its raise of the floor (R487). -/
def State.bootFrom (s : State) (img : List Byte) (source : Nat) : State :=
  let f := Config.fwField img
  let s := if source = 1 then s else s.commitSvn (f 3 != 0) (f 2)
  let s := s.wr (cadReg 8) (setBits (setBits (setBits (s.rd (cadReg 8)) 31 28 0) 27 26 source) 25 24 (f 5 % 4))
  let s := s.extendMr 1 (Config.fwHeaderHash img)
  let s := { s with caddy := { s.caddy with image := img, keyGen := s.caddy.keyGen + 1 }, power := { s.power with recovery := false },
                    urn := { s.urn with fwVersion := f 1, fwSvn := f 2, fwCommit := f 3 != 0 } }
  let s := s.setFld (urnReg 0xA018) 15 0 (f 1 % 65536)
  let s := s.stewardBoot
  if source = 0 then s else s.raise .cadRecovery 7 { info0 := source }

/-- Recovery boot (R486): channel 0 trains, and the ROM polls BAR2. -/
def State.recoveryBoot (s : State) : State :=
  State.setFld { s with power := { s.power with recovery := true, pollAt := s.clock.aon } } (mcReg 0 0) 3 0 1

/-- The OTP values that the ROM measures (R492). -/
def State.otpValues (s : State) : List Nat :=
  [s.fld (cadReg 0xC) 31 24, s.fld (cadReg 0xC) 11 8, s.fld (cadReg 0xC) 23 16] ++ s.caddy.owners.map (·.toNat) ++ [s.fld (cadReg 0xC) 7 0] ++
    (List.range 8).map fun k => s.rd (cadReg (0x10 + 4 * k))

/-- INTERNAL_RESET_RELEASE: straps sampled (bit 0 MASTER_SEL, bits 2–1 BOOT_SEL), the ROM run.
LOG 107 (DESIGN CHOICE). -/
def State.releaseReset (s : State) (straps : Nat) : State :=
  let sel := bits straps 2 1
  let s := { s with power := { s.power with released := true, pwrGood := true, bootSel := sel, errLow := false } }
  let s := (s.setFld (peReg 0) 31 31 (straps % 2)).wr (pmReg 0xC0) (s.rd (pmReg 0xC0) / 2 ^ 31 * 2 ^ 31 + 0x1FF)
  let s := (s.extendMr 0 (Config.romDigest s.otpValues)).newChallenge
  match sel with
  | 0 =>
    let code := s.verifyFw s.caddy.flash s.caddy.flashSig
    if code = 0 then s.bootFrom s.caddy.flash 0 else ((s.setFld (cadReg 8) 31 28 code).fwFailed code).recoveryBoot
  | 1 => s.recoveryBoot
  | 2 => s.setFld (cadReg 8) 31 28 7
  | _ => if s.fld (cadReg 0xC) 31 24 = 0 then s else s.setFld (cadReg 8) 31 28 7

/-- INTERNAL_RESET_RELEASE. A double-bit error in OTP stops the boot with the fault pattern on ERR_OUT; a corrected one is raised once the
Fault Collector runs (R482).
LOG 107, 176 (DESIGN CHOICE). -/
def execInternalResetRelease (straps : Nat) (otp : OtpRead) (s : State) : Host.Outcome State Fault Refusal :=
  .next <|
    if s.power.resetN && !s.power.released && !s.power.shut then
      match otp with
      | .clean => s.releaseReset straps
      | .corrected => (s.releaseReset straps).raise .cadOtpCe 7 {}
      | .lost => { s with power := { s.power with shut := true, errLow := true } }
    else s

/-! ## Recovery boot (R486) -/

/-- The recovery record is verified, and its image boots, or the failure is written beside it. -/
def State.recoveryRecord (s : State) (v : SigVerdict) : State :=
  let img := s.mem.read 0x1000 (s.ldn 4 4)
  let j := s.judge [0] img v
  let v := j.1
  let s := j.2
  let code := s.verifyFw img v
  if code ≠ 0 then ((s.stn 0xC 4 code).setFld (cadReg 8) 31 28 code).fwFailed code
  else
    let s := s.stn 0 4 0
    if s.ldn 8 1 = 1 then
      State.bootFrom { s with caddy := { s.caddy with flash := img, flashSig := v } } img 2
    else s.bootFrom img 1

/-- RECOVERY_POLL: every 1 ms the ROM reads the recovery record at BAR2 offset 0; `verdict` is the engines' on its image. -/
def execRecoveryPoll (verdict : SigVerdict) (s : State) : Host.Outcome State Fault Refusal :=
  .next <|
    if s.power.recovery && decide (s.power.pollAt + 1000000 ≤ s.clock.aon) && s.lpReady 0 64 then
      let s := { s with power := { s.power with pollAt := s.clock.aon } }
      let valid := s.ldn 0 4 == 0x56524B48 && decide (s.ldn 8 1 ≤ 1) && decide (s.ldn 4 4 + 0x1000 ≤ 0x4000000) && ((s.mem.read 9 3 ++ s.mem.read 0x10 48).all (· == 0))
      if valid then s.recoveryRecord verdict else s
    else s

/-! ## Channel training (R414, R427) -/

/-- CHANNEL_TRAINING_END: a channel in training returns to service, its parts' density and ranks agreeing with the others', or fails.
LOG 107 (DESIGN CHOICE). -/
def execChannelTrainingEnd (ch : Nat) (ok agree : Bool) (s : State) : Host.Outcome State Fault Refusal :=
  .next <|
    if s.fld (mcReg ch 0) 3 0 = 1 ∧ ch < s.nChannels then
      if ok && agree then
        let n := s.fresh
        let s := { s with fresh := n + 2, dqs := s.dqs.filter (fun (e : Nat × Nat) => e.1 / 2 != ch) ++ [(2 * ch, (Config.freeWord n).toNat % 65536), (2 * ch + 1, (Config.freeWord (n + 1)).toNat % 65536)] }
        (s.mcCfg ch).setFld (mcReg ch 0) 3 0 2
      else
        let s := s.setFld (mcReg ch 0) 3 0 5
        match s.chanOwner ch with
        | some p =>
          if (s.resetRec p).isSome then ((s.raise .mcTrainFail p { unit := ch }).outOfService p)
          else (State.raise { s with power := { s.power with released := false, shut := true } } .mcTrainFail 7 { unit := ch })
        | none => State.raise { s with power := { s.power with released := false, shut := true } } .mcTrainFail 7 { unit := ch }
    else s

/-! ## The last-resort sequencer (R473) -/

/-- The last-resort sequencer takes over. -/
def State.takeover (s : State) (cause : Nat) : State :=
  if s.urn.urnHeld then s
  else
    let hb := s.clock.urn / 10000 % 2 ^ 32
    let s := s.wr (urnReg 0xA010) hb
    let s := State.setFld { s with urn := { s.urn with urnHeld := true, errFault := true, takeoverAt := some s.clock.aon } } (urnReg 0xC00C) 1 1 1
    let s := (s.setFld (pmReg 0x90000) 3 0 cause).orReg (pmReg 0x90000) (2 ^ 31)
    let s := (List.range 5).foldl (fun s p => (if p < 4 then s.stopDispatcher p else s).abortPart p) s
    (s.deviceSafe 5).crashCopy 7 0 s.urn.crashCount

/-- LAST_RESORT_TAKEOVER: a mismatch of the Urn's pair (1), its stale heartbeat (2), the Steward's request (3), loss of its power (4). -/
def execLastResortTakeover (cause : Nat) (s : State) : Host.Outcome State Fault Refusal :=
  .next (if 1 ≤ cause ∧ cause ≤ 4 ∧ s.pmState < 3 then s.takeover cause else s)

/-- PM_LRS_REQ: 0x5A5A written by the Steward. -/
def execPmLrsReq (r : Requester) (value : Nat) (s : State) : Host.Outcome State Fault Refusal :=
  .next (if r == .steward && value == 0x5A5A then s.takeover 3 else s)

/-- URN_HB_CHECK: every 1 ms the Steward reads URN_HB_URN; unchanged, it asks for a takeover. -/
def execUrnHbCheck (s : State) : Host.Outcome State Fault Refusal :=
  .next <|
    if s.stewardUp = true ∧ s.urn.hbUrnAt + 1000000 ≤ s.clock.urn then
      let v := s.regValue (urnReg 0xA010)
      if v = s.urn.hbUrnSeen then s.takeover 3 else { s with urn := { s.urn with hbUrnSeen := v, hbUrnAt := s.clock.urn } }
    else s

/-- AUTO_RESET: 10 ms after a takeover the sequencer performs a device reset where PM_LRS_CFG says so. -/
def execAutoReset (s : State) : Host.Outcome State Fault Refusal :=
  .next <| match s.urn.takeoverAt with
    | some t => if bit (s.rd (pmReg 0x90004)) 0 = true ∧ t + 10000000 ≤ s.clock.aon then s.deviceReset else s
    | none => s

/-! ## Firmware switchover (R474, R475) -/

/-- URN_FW_STATUS.STATE. -/
def State.fwState (s : State) : Nat := s.fld (urnReg 0xA018) 31 28

/-- The refusal code of FW_STAGE for a failed check (Table 22-8). -/
def fwCode (v : Nat) : Nat := if v = 1 then 0x0B else if v = 4 then 0x0A else if v = 5 then 0x0B else 0x01

/-- FW_STAGE: the image read and verified into the standby bank.
LOG 108 (DESIGN CHOICE). -/
def State.fwStage (s : State) (ring idx : Nat) (k : Cmd) (v : SigVerdict) : State :=
  if [1, 2, 3].contains s.fwState || s.urn.fwStaged.isSome then s.complete ring idx stRefused 9 0
  else
    let a := k.arg 8 6
    let n := k.arg 0x10 4
    if n = 0 ∨ 48 * 2 ^ 20 < n then s.complete ring idx stInvalid 0 0
    else
      let rd := s.memRead .steward a n
      let j := rd.2.judge [0] rd.1.bytes v
      let code := if rd.1.err.isSome then 1 else s.verifyFw rd.1.bytes j.1
      let s := if rd.1.err.isSome then rd.2 else j.2
      if code ≠ 0 then (s.fwFailed code).complete ring idx stRefused (fwCode code) 0
      else
        let s := { s with urn := { s.urn with fwStaged := some (Config.fwField rd.1.bytes 1, rd.1.bytes), fwStagedAt := s.clock.urn } }
        (s.setFld (urnReg 0xA018) 31 28 1).complete ring idx stOk 0 0

/-- FW_STAGE. -/
def execFwStage (ring idx : Nat) (verdict : SigVerdict) (s : State) : Host.Outcome State Fault Refusal :=
  .next <|
    match s.mbCmd ring idx 0x0F with
    | some k => if s.lpReady (k.arg 8 6) (max 1 (k.arg 0x10 4)) then s.mbox ring idx 0x0F fun k s => s.fwStage ring idx k verdict else s
    | none => s

/-- Whether partition p is at a major-cycle boundary tick that has not been used: the start tick of its next frame, postponed or not, has
come, the frame is not one to be skipped, and it is minor frame 0 or the first after a skipped minor frame 0 (R264). -/
def State.atBoundary (s : State) (p : Nat) : Bool :=
  match (s.dsp p).table with
  | some b =>
    s.fld (btReg p 0) 3 0 != 0 && !s.scopeStopped p && ((s.dsp p).boundary || (s.dsp p).frameNo % b.minors == 0) &&
    !reached s.time (b.frameTime ((s.dsp p).frameNo + 1)) && (s.frameTickDue p b).isSome
  | none => false

/-- The Urn swaps the banks and restarts the Steward.
LOG 103 (DESIGN CHOICE). -/
def State.swapBanks (s : State) (img : List Byte) : State :=
  { s with caddy := { s.caddy with image := img, oldImage := s.caddy.image }, urn := { s.urn with stewardUpAt := some (s.clock.urn + 10000) } }

/-- FW_SWITCHOVER: at the fallback's first boundary tick at least 2 ms after staging that carries no hot switch, while no partition reset
is under way; STATE is 2 until the new firmware runs, then 3.
LOG 108 (DESIGN CHOICE). -/
def execFwSwitchover (s : State) : Host.Outcome State Fault Refusal :=
  .next <| match s.urn.fwStaged with
    | none => s
    | some (_, img) =>
      let fb := imgFallback s.si.current
      if s.fwState = 1 ∧ s.si.current ≠ [] ∧ s.atBoundary fb = true ∧ s.urn.fwStagedAt + 2000000 ≤ s.clock.urn ∧ s.si.hotDev = false ∧
          s.si.hotPend.contains fb = false ∧ s.urn.active = [] then
        let s := (s.swapBanks img).setFld (urnReg 0xA018) 31 28 2
        { s with urn := { s.urn with fwSwitchAt := s.clock.urn, fwHb := false } }
      else s

/-- CONFIRM: the new firmware, having written its heartbeat, confirms its start within the check; the Caddy measures it and derives new
alias keys (R495).
LOG 108 (DESIGN CHOICE). -/
def execConfirm (r : Requester) (s : State) : Host.Outcome State Fault Refusal :=
  .next <|
    if r = .steward ∧ s.fwState = 3 ∧ s.urn.fwHb = true ∧ s.clock.urn < s.urn.fwSwitchAt + 10000000 then
      let f := Config.fwField s.caddy.image
      let s := (s.setFld (urnReg 0xA018) 31 28 4).setFld (urnReg 0xA018) 15 0 (f 1 % 65536)
      let s := (s.wrDigest (mrReg 1) 0).extendMr 1 (Config.fwHeaderHash s.caddy.image)
      let s := s.setFld (cadReg 8) 25 24 (f 5 % 4)
      { s with caddy := { s.caddy with keyGen := s.caddy.keyGen + 1 }, urn := { s.urn with fwStaged := none, fwVersion := f 1, fwSvn := f 2, fwCommit := f 3 != 0 } }
    else s

/-- FW_SWITCH_FAIL: no confirmation in 10 ms: the Urn swaps back, restarts the old firmware and discards the staged image. -/
def execFwSwitchFail (s : State) : Host.Outcome State Fault Refusal :=
  .next <|
    if (s.fwState = 2 ∨ s.fwState = 3) ∧ s.urn.fwSwitchAt + 10000000 ≤ s.clock.urn then
      let s := (s.swapBanks s.caddy.oldImage).setFld (urnReg 0xA018) 31 28 5
      State.raise { s with urn := { s.urn with fwStaged := none } } .fwSwitchFail 7 {}
    else s

/-- FLASH_REWRITE_END: the boot flash rewritten, read back and compared; a committing image raises the FW_SVN floor (R487).
LOG 108 (DESIGN CHOICE). -/
def execFlashRewriteEnd (matchOk : Bool) (s : State) : Host.Outcome State Fault Refusal :=
  .next <|
    if s.fwState = 4 ∧ matchOk = true then
      let s := { s with caddy := { s.caddy with flash := s.caddy.image, flashSig := ⟨true, true⟩ } }
      let s := s.commitSvn s.urn.fwCommit s.urn.fwSvn
      s.setFld (urnReg 0xA018) 31 28 0
    else s

end Sys2Proof.Machine
end

