-- ==== Sys2Proof/Machine/ExtMem.lean ====
section
/-! DEFINITION. The LPDDR6 controllers (R413–R430): requests and their errors, write-back, refresh, tracking, patrol. -/

namespace Sys2Proof.Machine

/-! ## Errors of one burst (R422, R423) -/

/-- The bytes of [a, a + n) that lie in the burst of address b are lost: a miss or a miscorrection leaves no stated data (R422). -/
def State.scramble (s : State) (b n : Nat) : State :=
  let a := b / 32 * 32
  let bytes := (List.range (min 32 n)).map fun i => Config.freeByte (s.fresh + i)
  { s with mem := s.mem.write a bytes, fresh := s.fresh + 32 }

/-- A burst of channel c decodes with one bad symbol: it is corrected, recorded, and queued for write-back (R423).
LOG 93 (DESIGN CHOICE). -/
def State.burstCorrected (s : State) (c cha a : Nat) (patrol : Bool) : State :=
  let sym := (Config.freeWord s.fresh).toNat % 5
  State.mcNote { s with fresh := s.fresh + 1, writeBack := s.writeBack ++ [(c, a / 32 * 32)] } c cha 1 patrol sym

/-- A burst that stays uncorrectable after the retry.
LOG 67 (DESIGN CHOICE). -/
def State.burstLost (s : State) (a : Nat) : State :=
  { s with mem := { s.mem with bad := sparsePut false (s.mem.bad.filter fun e => e.1 != a / 32 * 4) (a / 32 * 4) true } }

/-- A retry of a burst that decodes: the data is delivered and nothing is rewritten.
LOG 93 (DESIGN CHOICE). -/
def State.retryGood (s : State) (r : Requester) (c cha a : Nat) : State :=
  let sym := (Config.freeWord s.fresh).toNat % 8
  ((State.mcNote { s with fresh := s.fresh + 1 } c cha 2 false sym).countUp (mcReg c 0x1C) 1).raise .mcRetry (scopeOf (s.chanOwner c))
    { req := r.index, ctx := r.ctx.getD 0xFF, unit := c, info0 := a % 2 ^ 32, info1 := a / 2 ^ 32, cluster := r.cluster }

/-- What decoding the burst at a local address does when its codeword has some bad symbols (R422, R423): one is corrected, two or three
are detected and the read retried once, four or more are detected, miscorrected or missed.
LOG 93, 94 (DESIGN CHOICE). -/
def State.burstDecode (s : State) (r : Requester) (a badSymbols : Nat) : State :=
  match s.lpChan a with
  | none => s
  | some (c, cha) =>
    let luck := (Config.freeWord s.fresh).toNat
    let s1 := { s with fresh := s.fresh + 1 }
    let detected := fun (s : State) (good : Bool) => if good then s.retryGood r c cha a else s.burstLost a
    if badSymbols = 0 then s
    else if badSymbols = 1 then s.burstCorrected c cha a false
    else if badSymbols ≤ 3 then detected s1 (luck % 2 == 0)
    else if luck % 3 = 0 then detected s1 (luck / 3 % 2 == 0)
    else if luck % 3 = 1 then (s1.scramble a 32).burstCorrected c cha a false
    else s1.scramble a 32

/-- Whether an access reads the burst it begins in: every read and atomic, and a write that covers only a part of it (R421).
LOG 94 (DESIGN CHOICE). -/
def accDecodes (x : Access) : Bool :=
  match x.kind with
  | .write l => decide (x.addr % 32 ≠ 0) || decide (l.length < 32)
  | _ => true

/-- The bytes an access covers. -/
def accSize : AccessKind → Nat
  | .read n => n
  | .write l => l.length
  | .atomic op _ _ => atomicLen op
  | .signal _ => 8
  | .set _ => 8

/-- The right an access needs (R122). -/
def accRight : AccessKind → Right
  | .read _ => .read
  | .write _ => .write
  | .set _ => .write
  | .atomic _ _ _ => .atomic
  | .signal _ => .atomic

/-- A request to a channel in service, performed and completed (R115, R420, R421). -/
def State.lpServe (s : State) (x : Access) (a : Nat) : State :=
  let r := x.req
  if !s.reqWindowOk r x.addr (accSize x.kind) (accRight x.kind) then s.reqViolation r x.addr
  else match x.kind with
    | .read n =>
      let q := s.memRead r a n
      (q.2.failTask r q.1.err).answer r (respOf r q.1.err) q.1.bytes
    | .write l =>
      let q := s.memWrite r a l
      (q.2.failTask r q.1).answer r (respOf r q.1) []
    | .atomic op operand expected => s.atomicReq r op a operand expected
    | .signal _ | .set _ => ((s.raiseReq .addrUnmapped r a).failTask r (some .unmapped)).answer r (respOf r (some .unmapped)) []

/-- LPDDR6_REQUEST: a read, write or atomic request to this device's LPDDR6; one that reaches a channel out of service waits (R427). -/
def execLpddr6Request (x : Access) (badSymbols : Nat) (s : State) : Host.Outcome State Fault Refusal :=
  .next <| match s.localOf x.addr with
    | some a =>
      if a < lpddrTop ∧ s.lpReady a (accSize x.kind) = true then
        (if accDecodes x then s.burstDecode x.req a badSymbols else s).lpServe x a
      else s
    | none => s

/-! ## Write-back, refresh, tracking, patrol (R423, R425, R426) -/

/-- MC_WRITE_BACK: the channel's oldest corrected burst is rewritten; the correction is counted and raised. -/
def execMcWriteBack (ch : Nat) (s : State) : Host.Outcome State Fault Refusal :=
  .next <| match s.writeBack.find? fun e => e.1 == ch with
    | some e =>
      if s.fld (mcReg ch 0) 3 0 = 2 then
        (State.countUp { s with writeBack := s.writeBack.erase e } (mcReg ch 0x14) 1).raise .mcCe (scopeOf (s.chanOwner ch))
          { unit := ch, info0 := e.2 % 2 ^ 32, info1 := e.2 / 2 ^ 32 }
      else s
    | none => s

/-- REFRESH: a per-bank refresh keeps the parts' content and changes no state the specification gives (R425).
LOG 96 (DESIGN CHOICE). -/
def execRefresh (_ch _bank : Nat) (s : State) : Host.Outcome State Fault Refusal := .next s

/-- TEMPERATURE_REPORT_READ: a report above the parts' rated range sets HOT and raises MC_DRAM_HOT.
LOG 95 (DESIGN CHOICE). -/
def execTemperatureReportRead (ch report : Nat) (s : State) : Host.Outcome State Fault Refusal :=
  .next <|
    if s.fld (mcReg ch 0) 3 0 = 2 ∧ Config.dramHot report = true then
      (s.setFld (mcReg ch 0) 4 4 1).raise .mcDramHot (scopeOf (s.chanOwner ch)) { unit := ch, info0 := report % 2 ^ 32 }
    else s

/-- DQS_OSCILLATOR_READ: the count of a rank's interval oscillator against its value at training.
LOG 95 (DESIGN CHOICE). -/
def execDqsOscillatorRead (ch rank count : Nat) (s : State) : Host.Outcome State Fault Refusal :=
  .next <|
    if s.fld (mcReg ch 0) 3 0 = 2 ∧ rank < 2 then
      let trained := (assoc s.dqs (2 * ch + rank)).getD 0
      let diff : Int := (count : Int) - (trained : Int)
      let s := s.setFld (mcReg ch 0x24) 15 0 (ofSigned 16 diff)
      if diff.natAbs * 64 > trained then
        (s.setFld (mcReg ch 0) 5 5 1).raise .mcDrift (scopeOf (s.chanOwner ch)) { unit := ch, info0 := ofSigned 32 diff }
      else s
    else s

/-- The local address of an address in channel c (the inverse of R418). -/
def State.chanLocal (s : State) (c cha : Nat) : Option Nat :=
  (s.lpSets.find? fun e => e.2.chans.contains c).map fun e =>
    let q := e.2
    q.base + (cha / q.gran * q.chans.length + (q.chans.findIdx? (· == c)).getD 0) * q.gran + cha % q.gran

/-- What the patrol does with one bad burst: corrected and written back, or recorded and counted; no task is aborted (R426). -/
def State.patrolBurst (s : State) (c cha a badSymbols : Nat) : State :=
  let luck := (Config.freeWord s.fresh).toNat
  let s1 := { s with fresh := s.fresh + 1 }
  let lost := fun (s : State) =>
    (((s.burstLost a).mcNote c cha 0 true 7).countUp (mcReg c 0x18) 1).raise .mcUe (scopeOf (s.chanOwner c)) { unit := c, info0 := a % 2 ^ 32, info1 := a / 2 ^ 32 }
  let retried := fun (s : State) (good : Bool) =>
    if good then ((s.mcNote c cha 2 true ((Config.freeWord s.fresh).toNat % 8)).countUp (mcReg c 0x1C) 1).raise .mcRetry (scopeOf (s.chanOwner c)) { unit := c, info0 := a % 2 ^ 32, info1 := a / 2 ^ 32 }
    else lost s
  if badSymbols = 1 then s.burstCorrected c cha a true
  else if badSymbols ≤ 3 then retried s1 (luck % 2 == 0)
  else if luck % 3 = 0 then retried s1 (luck / 3 % 2 == 0)
  else if luck % 3 = 1 then (s1.scramble a 32).burstCorrected c cha a true
  else s1

/-- PATROL: a pass over a channel's whole space at elastic priority ends; it met a burst with some bad symbols, at an address the
specification does not give.
LOG 95 (DESIGN CHOICE). -/
def execPatrol (ch badSymbols : Nat) (s : State) : Host.Outcome State Fault Refusal :=
  .next <|
    if s.fld (mcReg ch 0) 3 0 = 2 then
      let s1 := if badSymbols = 0 then s else
        let cha := (Config.freeWord s.fresh).toNat * 32 % s.chanBytes
        match s.chanLocal ch cha with
        | some a => State.patrolBurst { s with fresh := s.fresh + 1 } ch cha a badSymbols
        | none => s
      s1.countUp (mcReg ch 0x20) 1
    else s

end Sys2Proof.Machine
end

