-- ==== Sys2Proof/Machine/Si.lean ====
section
/-! DEFINITION. Structure Images at work (R36–R45): submission and its checks in order, acceptance, hot switching, revert. -/

namespace Sys2Proof.Machine

/-! ## The checks of R37 -/

/-- Check 1: MAGIC, FORMAT, lengths, reserved fields and the layout of the directory (R28–R30). -/
def siFormatOk (img : List Byte) : Bool :=
  let total := fieldAt img 0xC 4
  let signed := total - sigLen
  let dir := imgDir img
  let secs := dir.filter fun e => decide (0 < e.len)
  fieldAt img 0 4 == 0x474D4953 && fieldAt img 4 2 == 1 && fieldAt img 0x14 4 == 0 && (sliceBytes img 0x64 28).all (· == 0) &&
  decide (0x80 + sigLen ≤ total) && decide (total ≤ 0x400000) && decide (total ≤ img.length) && signed % 64 == 0 &&
  decide (0x80 + 16 * dir.length ≤ signed) &&
  (dir.all fun e => e.rsv == 0 && e.scope / 32 % 4 == 0 && e.off % 64 == 0 && decide (0x80 + 16 * dir.length ≤ e.off) && decide (e.off + e.len ≤ signed)) &&
  ((List.range secs.length).all fun i => match secs[i]? with
    | none => true
    | some x => (secs.drop (i + 1)).all fun y => decide (x.off + x.len ≤ y.off) || decide (y.off + y.len ≤ x.off))

/-- Check 2: PART and STEP against CAD_DEVICE_ID. -/
def State.siPartOk (s : State) (img : List Byte) : Bool :=
  fieldAt img 0x10 2 == s.part && fieldAt img 0x12 1 == s.fld (cadReg 0) 15 8

/-- The state of owner key slot n, 1–4 (Table 22-2). -/
def State.ownerState (s : State) (n : Nat) : Nat := s.fld (cadReg 0xC) (16 + 2 * n - 1) (16 + 2 * n - 2)

/-- LIFECYCLE: 0 BLANK, 1 VENDOR, 3 OWNED. -/
def State.lifecycle (s : State) : Nat := s.fld (cadReg 0xC) 31 24

/-- Check 3: both signatures verify against the key that SIGNER names, which the lifecycle admits (R30, R491). -/
def State.siSignerOk (s : State) (img : List Byte) (edOk mlOk : Bool) : Bool :=
  let n := imgSigner img
  edOk && mlOk && (if n = 0 then decide (s.lifecycle ≠ 3) else decide (n ≤ 4) && s.ownerState n == 1)

/-- The sections of Table 02-3 with their kinds. -/
def sectionKinds : List (Nat × Nat) := coldTypes.map (fun t => (t, 1)) ++ hotTypes.map (fun t => (t, 0))

/-- Whether SCOPE of a section is what Table 02-3 gives its type: per partition (at least one of bits 4–0, bit 7 clear), per partition and
device (both), or device (bit 7 alone).
LOG 134 (DEDUCED). -/
def scopeOk (type scope : Nat) : Bool :=
  if type = 0x13 ∨ type = 0x14 then scope == 0x80
  else bit scope 7 == [4, 5, 0x12].contains type && scope % 32 != 0

/-- Check 6: each section exactly once, of its kind and scope (R31). -/
def siSectionsOk (img : List Byte) : Bool :=
  let dir := imgDir img
  fieldAt img 6 2 == 11 && sectionKinds.all fun k => (dir.filter fun e => e.type == k.1).length == 1 && dir.all fun e => e.type != k.1 || (e.kind == k.2 && scopeOk e.type e.scope)

/-- The partition map of an image. -/
def imgParts (img : List Byte) : List PartRec := (List.range 5).map fun p => partRec (imgRecord img 1 p)

/-- The kinds of resource of a partition map record with the number of them on this grade (R33). -/
def State.resources (s : State) : List ((PartRec → Nat) × Nat) :=
  [((·.pairs), s.nClusters / 2), ((·.channels), s.nChannels), ((·.cameras), s.nCameras), ((·.dpps), s.nDpps), ((·.spouts), s.nSpouts), ((·.eth), 4)]

/-- Check 7: the partition map and the pair modes (R33, R34). -/
def State.siPartsOk (s : State) (img : List Byte) : Bool :=
  let l := imgSection img 1
  let m := imgSection img 2
  let ps := imgParts img
  let at_ := fun (p : Nat) => ps.getD p PartRec.absent
  let act := (List.range 4).filter fun p => (at_ p).active
  l.length == 160 && m.length == 32 &&
  ((List.range 5).all fun p => fieldAt l (32 * p) 1 == p && decide (fieldAt l (32 * p + 1) 1 ≤ 1) && fieldAt l (32 * p + 2) 2 == 0 &&
    decide (fieldAt l (32 * p + 0xC) 1 < 16) && decide (fieldAt l (32 * p + 0xD) 1 < 16) && decide (fieldAt l (32 * p + 0xE) 1 < 16) && (sliceBytes l (32 * p + 0xF) 17).all (· == 0)) &&
  (act.all fun p => (at_ p).pairs != 0 && (at_ p).channels != 0) &&
  (s.resources.all fun r => (ps.all fun q => decide (r.1 q < 2 ^ r.2)) &&
    ((List.range 5).all fun p => (List.range 5).all fun q => decide (p = q) || !(at_ p).active || !(at_ q).active || (r.1 (at_ p) &&& r.1 (at_ q)) == 0)) &&
  decide (act.length ≤ s.nParts) && (at_ 4).pairs == 0 && (at_ 4).active && decide (imgFallback img < 4) && (at_ (imgFallback img)).active &&
  ((List.range 4).all fun p =>
    let mask := fieldAt m (8 * p + 4) 4
    fieldAt m (8 * p) 1 == p && fieldAt m (8 * p + 1) 3 == 0 && (mask == 0 || ((at_ p).active && mask == (at_ p).pairs)))

/-! ### Check 8, section by section -/

/-- The interleave set an image gives partition p. -/
def State.imgSet (s : State) (img : List Byte) (p : Nat) : Option (Nat × Nat) :=
  let n := (bitList ((imgParts img).getD p PartRec.absent).channels 16).length
  if n = 0 then none else some (fieldAt (imgRecord img 3 p) 4 4 * 2 ^ 20, fieldAt (imgRecord img 3 p) 4 4 * 2 ^ 20 + n * s.chanBytes)

/-- Channel ownership (R416, R417). -/
def State.siChannelsOk (s : State) (img : List Byte) : Bool :=
  let l := imgSection img 3
  let sets := (List.range 5).filterMap fun p => (s.imgSet img p).map fun q => (p, q)
  l.length == 160 &&
  ((List.range 5).all fun p =>
    let o := 32 * p
    let base := fieldAt l (o + 4) 4 * 2 ^ 20
    fieldAt l o 1 == p && decide (fieldAt l (o + 1) 1 < 3) && decide (fieldAt l (o + 2) 1 < 4) && fieldAt l (o + 3) 1 == 0 && fieldAt l (o + 9) 3 == 0 &&
    (sliceBytes l (o + 0x14) 12).all (· == 0) && base % s.chanBytes == 0 && ((s.imgSet img p).isSome || base == 0) &&
    decide (fieldAt l (o + 2) 1 ≤ Config.dramRate.toNat) &&
    (let w := fieldAt l (o + 8) 1
     let ofs := fieldAt l (o + 0xC) 4
     let len := fieldAt l (o + 0x10) 4
     if p < 4 then w == 0xFF && ofs == 0 && len == 0
     else if w = 0xFF then ofs == 0 && len == 0 && (s.imgSet img 4).isSome
     else ofs % 32 == 0 && len % 32 == 0 && decide (0 < len) && match s.imgSet img w with
       | some q => decide (w < 4) && decide (q.1 + (ofs + len) * 2 ^ 20 ≤ q.2)
       | none => false)) &&
  (sets.all fun a => decide (a.2.2 ≤ s.nChannels * s.chanBytes) && sets.all fun b => decide (a.1 = b.1) || decide (a.2.2 ≤ b.2.1) || decide (b.2.2 ≤ a.2.1))

/-- Clock ratios (R512). -/
def siClockOk (img : List Byte) : Bool :=
  let l := imgSection img 4
  let ps := imgParts img
  let want := (List.range 5).filter (fun p => (ps.getD p PartRec.absent).active) ++ [0xFF]
  let ids := (chunkBytes 16 l).map fun r => fieldAt r 0 1
  l.length == 16 * want.length && (want.all fun p => ids.contains p) &&
  (chunkBytes 16 l).all fun r =>
    if fieldAt r 0 1 = 0xFF then decide (fieldAt r 1 1 < 3) && decide (fieldAt r 2 1 < 3) && fieldAt r 3 1 == 0 && (sliceBytes r 8 8).all (· == 0)
    else decide (fieldAt r 1 1 < 2) && (sliceBytes r 2 14).all (· == 0)

/-- Pin multiplexing (R543). -/
def siPinsOk (img : List Byte) : Bool :=
  let l := imgSection img 5
  let d := l.drop 80
  let own := fun (p : Nat) => fieldAt l (16 * p + 4) 4
  l.length == 640 &&
  ((List.range 5).all fun p => fieldAt l (16 * p) 1 == p && fieldAt l (16 * p + 1) 3 == 0 && fieldAt l (16 * p + 8) 8 == 0 && decide (own p < 2 ^ 24) &&
    (List.range 5).all fun q => decide (p = q) || (own p &&& own q) == 0) &&
  fieldAt d 0 1 == 0xFF && decide (fieldAt d 1 1 < 4) && (sliceBytes d 2 14).all (· == 0) && fieldAt d 0x28 8 == 0 &&
  ((List.range 24).all fun n => decide (fieldAt d (0x10 + n) 1 < 8) && fieldAt d (0x10 + n) 1 % 4 != 3) &&
  ((List.range 28).all fun n => decide (fieldAt d (0x30 + 8 * n) 4 < 4)) &&
  ((List.range 9).all fun k => (sliceBytes d (0x110 + 32 * k + 20) 12).all (· == 0))

/-- Sensor ports (R333, R338): the rings of enabled pipes lie in the partition's own LPDDR6, a direct pipe writes one of its clusters and counts in a pool bank of the
partition (R339). -/
def State.siSensorsOk (s : State) (img : List Byte) : Bool :=
  (List.range 4).all fun p =>
    let r := (imgParts img).getD p PartRec.absent
    let rec6 := imgRecord img 6 p
    let w := fun (a : Nat) => (Config.sensorWord rec6 a).toNat
    let ringOk := fun (base stride n : Nat) => decide (4 ≤ n) && decide (n ≤ 16) && base % 4096 == 0 && stride % 4096 == 0 && decide (0 < stride) && match s.imgSet img p with
      | some q => decide (q.1 ≤ base) && decide (base + n * stride ≤ q.2)
      | none => false
    !r.active || ((bitList r.cameras 16).all fun i =>
      !bit (w (ingReg i 4)) 31 ||
      (if bit (w (ingReg i 0x18)) 8 then
        bit r.pairs (bits (w (ingReg i 0x18)) 29 24 / 2) &&
        s.bankOk p (bits (w (ingReg i 0x5C)) 21 0 / 0x10000)
       else ringOk (w (ingReg i 0x60) + 2 ^ 32 * bits (w (ingReg i 0x64)) 8 0) (w (ingReg i 0x68)) (bits (w (ingReg i 0x6C)) 20 16))) &&
    (bitList r.eth 4).all fun e =>
      bits (w (ethReg e 0x3C)) 20 16 == 0 ||
      ringOk (w (ethReg e 0x30) + 2 ^ 32 * bits (w (ethReg e 0x34)) 8 0) (w (ethReg e 0x38)) (bits (w (ethReg e 0x3C)) 20 16)

/-- The output ports that router r has (R272): an edge router lacks those toward the outside and beside it. -/
def routerPorts (r : Nat) : List Nat :=
  if r < 64 then [0, 1, 2, 3, 4] else if r < 72 then [2, 4] else if r < 80 then [0, 4] else if r < 88 then [1, 4] else [3, 4]

/-- NoC slot tables (R272): reservations name their partition, use the router's ports, no two reserve one output in one slot, and no two
partitions reserve the same slot of the same router (R37). -/
def siSlotsOk (img : List Byte) : Bool :=
  let ps := imgParts img
  let act := (List.range 4).filter fun p => (ps.getD p PartRec.absent).active
  let word := fun (p r t : Nat) => (Config.slotWord (imgRecord img 0x10 p) r t).toNat
  let here := fun (p : Nat) => !(imgRecord img 0x10 p).isEmpty
  (List.range 96).all fun r => (List.range 256).all fun t =>
    (act.all fun p => !here p || (!bit (word p r t) 30 && (List.range 5).all fun o =>
      let f := bits (word p r t) (6 * o + 5) (6 * o)
      f == 0 || ((routerPorts r).contains o && (!bit f 5 || (bits f 4 3 == p && (routerPorts r).contains (f % 8)))))) &&
    decide ((act.filter fun p => here p && (List.range 5).any fun o => bit (word p r t) (6 * o + 5)).length ≤ 1)

/-- Brew Tables (R265, R268, R286): one record per active partition, stream numbers unique across the device. -/
def State.siBrewOk (s : State) (img : List Byte) : Bool :=
  let ps := imgParts img
  let act := (List.range 4).filter fun p => (ps.getD p PartRec.absent).active
  let recs := act.map fun p => imgRecord img 0x11 p
  (imgSection img 0x11).length == (recs.map (·.length)).foldl (· + ·) 0 &&
  (act.all fun p => !(imgRecord img 0x11 p).isEmpty && brewRecordOk (imgRecord img 0x11 p) (ps.getD p PartRec.absent) (s.prog p) (s.bankOk p)) &&
  decide ((recs.flatMap fun l => (brewTable l).streams.map (·.stream)).Nodup)

/-- The fault source IDs in use (Table 21-1): first ID and how many. -/
def sourceRanges : List (Nat × Nat) :=
  [(0x001, 3), (0x020, 8), (0x060, 8), (0x080, 8), (0x0A0, 8), (0x0C0, 8), (0x0E0, 6), (0x100, 5), (0x120, 9), (0x140, 4), (0x160, 7), (0x180, 7), (0x1A0, 8), (0x1C0, 6),
   (0x1E0, 6), (0x200, 256)]

/-- Severity tables (R457). -/
def siSeverityOk (img : List Byte) : Bool :=
  let l := imgSection img 0x12
  let ps := imgParts img
  let want := (List.range 5).filter (fun p => (ps.getD p PartRec.absent).active) ++ [0xFF]
  let recs := chunkBytes 1040 l
  l.length == 1040 * want.length && (recs.map fun r => fieldAt r 0 1) == want &&
  recs.all fun r =>
    let dev := fieldAt r 0xC 4
    decide (fieldAt r 1 1 < 8) && decide (fieldAt r 4 4 ≤ 1000000) && decide (fieldAt r 8 4 ≤ 1000000) &&
    (if fieldAt r 0 1 = 0xFF then decide (dev < 2 ^ 21) else dev == 0) &&
    (List.range 1024).all fun id =>
      let e := fieldAt r (0x10 + id) 1
      decide (e < 32) && e % 8 != 7 && (e == 0 || sourceRanges.any fun q => decide (q.1 ≤ id) && decide (id < q.1 + q.2))

/-- Spout routing (R368, R369). -/
def State.siRoutingOk (s : State) (img : List Byte) : Bool :=
  let l := imgSection img 0x13
  let self := fieldAt l 1 1
  let topo := fieldAt l 2 1
  let cfg := fun (n : Nat) => fieldAt l (4 + n) 1
  let route := fun (d : Nat) => fieldAt l (0x20 + d) 1
  let ps := imgParts img
  let owner := fun (n : Nat) => (List.range 4).find? fun p => (ps.getD p PartRec.absent).active && bit (ps.getD p PartRec.absent).spouts n
  let en := (List.range 4).filter fun n => bit (cfg n) 0
  let usable := fun (n : Nat) => en.contains n && decide (n < s.nSpouts) && (owner n).isSome
  let byPort := bit (s.rd (peReg 0)) 31
  l.length == 128 && fieldAt l 0 1 == 0xFF && decide (self < 96) && decide (topo < 3) && fieldAt l 3 1 == 0 && ((List.range 4).all fun n => decide (cfg n < 16)) &&
  (decide (fieldAt l 8 1 < 4) || fieldAt l 8 1 == 0xF) && decide (fieldAt l 9 1 < 16) && decide (1 ≤ fieldAt l 0xA 2) && decide (100 ≤ fieldAt l 0xC 4) &&
  decide (fieldAt l 0xC 4 ≤ 10000000) && (sliceBytes l 0x10 16).all (· == 0) &&
  ((List.range 96).all fun d => bits (route d) 6 3 == 0 && bit (route d) 2 == decide (d = self) && (decide (d ≠ self) || bit (route d) 7) &&
    (!bit (route d) 7 || bit (route d) 2 || usable (route d % 4))) &&
  (fieldAt l 8 1 == 0xF || usable (fieldAt l 8 1)) && ((bitList (fieldAt l 9 1) 4).all usable) &&
  (en.all fun n => (owner n).isSome && owner n == owner (en.headD 0)) &&
  (topo != 0 || en.all fun n => n == 0 && byPort) &&
  (topo != 2 || (decide (4 ≤ s.nSpouts) && !(en.all fun n => bit (cfg n) 1 == bit (cfg (en.headD 0)) 1))) &&
  (!byPort || en.contains 0)

/-- Power policy (R501): ranges, and a watch partition of one pair, one camera port and one channel. -/
def siPowerOk (img : List Byte) : Bool :=
  let l := imgSection img 0x14
  let w := fieldAt l 1 1
  let r := (imgParts img).getD w PartRec.absent
  let m := toSigned 8 (fieldAt l 3 1)
  let one := fun (v n : Nat) => (bitList v n).length == 1
  l.length == 32 && fieldAt l 0 1 == 0xFF && decide (fieldAt l 2 1 < 128) && decide (-20 ≤ m) && decide (m ≤ 20) && (sliceBytes l 6 26).all (· == 0) &&
  (w == 0xFF || (decide (w < 4) && r.active && one r.pairs 32 && one r.cameras 16 && one r.channels 16 && r.dpps == 0 && r.spouts == 0 && r.eth == 0))

/-- Check 8. -/
def State.siContentOk (s : State) (img : List Byte) : Bool :=
  s.siChannelsOk img && siClockOk img && siPinsOk img && s.siSensorsOk img && siSlotsOk img && s.siBrewOk img && siSeverityOk img && s.siRoutingOk img && siPowerOk img

/-- The image hash of the current image; zeros with none. -/
def State.currentHash (s : State) : Digest := if s.si.current.isEmpty then 0 else imageHash s.si.current

/-- The result code of the checks of R37: the first that fails, or 0 (Table 02-5).
LOG 112 (DESIGN CHOICE). -/
def State.siCheck (s : State) (img : List Byte) (edOk mlOk : Bool) : Nat :=
  if !siFormatOk img then 1
  else if !s.siPartOk img then 2
  else if !s.siSignerOk img edOk mlOk then 3
  else if !(decide (s.rd (stReg 0x100C) < imgVersion img) && decide (s.rd (stReg 0x1010) ≤ imgVersion img)) then 4
  else if imgPred img != s.currentHash then 5
  else if !siSectionsOk img then 6
  else if !s.siPartsOk img then 7
  else if !s.siContentOk img then 8
  else 0

/-! ## Submission (R36–R39) -/

/-- A submit or revert ends with a result code.
LOG 113 (DESIGN CHOICE). -/
def State.siEnd (s : State) (ring idx code : Nat) : State :=
  (s.setFld (stReg 0x1000) 23 16 code).complete ring idx (if code = 0 then stOk else stRefused) code 0

/-- Whether a hot switch is pending. -/
def State.hotPending (s : State) : Bool := !s.si.hotPend.isEmpty || s.si.hotDev

/-- A submission that passed every check waits for its journal record. -/
def State.siAccept (s : State) (ring idx : Nat) (img : List Byte) : State :=
  ({ s with si := { s.si with submission := some { image := img.take (fieldAt img 0xC 4), ring := ring, idx := idx } } } : State).setFld (stReg 0x1000) 3 0 2

/-- A submission that failed check `code`.
LOG 112 (DESIGN CHOICE). -/
def State.siFail (s : State) (ring idx : Nat) (img : List Byte) (code : Nat) : State :=
  let s := s.raise .siReject 7 { info0 := code }
  let s := if code = 3 then s.raise .cadSigFail 7 {} else if code = 4 ∧ imgVersion img < s.rd (stReg 0x1010) then s.raise .cadRollback 7 {} else s
  s.siEnd ring idx code

/-- The public key that SIGNER names: an owner's, or the vendor's (empty: the vendor's is fixed). -/
def State.siKey (s : State) (img : List Byte) : List Byte := (assoc s.caddy.ownerKeys (imgSigner img)).getD []

/-- A submitted image checked: refused with the code of the failed check, or on its way to the journal. The verdict on its signatures is
that of the first check of the same bytes under the same key. -/
def State.siChecked (s : State) (ring idx : Nat) (img : List Byte) (edOk mlOk : Bool) : State :=
  let q := s.judge (s.siKey img) (img.take (fieldAt img 0xC 4)) ⟨edOk, mlOk⟩
  let code := q.2.siCheck img q.1.ed q.1.ml
  if code = 0 then q.2.siAccept ring idx img else q.2.siFail ring idx img code

/-- SI_SUBMIT: the Steward copies the image and checks its copy; `edOk` and `mlOk` are the engines' verdicts against the key SIGNER names.
LOG 112 (DESIGN CHOICE). -/
def execSiSubmit (ring idx : Nat) (edOk mlOk : Bool) (s : State) : Host.Outcome State Fault Refusal :=
  .next <|
    if s.si.submission.isSome then s
    else match s.mbCmd ring idx 0x01 with
      | none => s
      | some k =>
        let a := k.arg 8 6
        let n := min (k.arg 0x10 4) 0x400000
        if !s.lpReady a n then s
        else
          let s := s.begin_ ring idx
          if s.hotPending then s.siEnd ring idx 9
          else if n = 0 then s.siChecked ring idx [] edOk mlOk
          else
            let q := s.memRead .steward a n
            q.2.siChecked ring idx (if q.1.err.isSome then [] else q.1.bytes) edOk mlOk

/-! ## Acceptance (R38) and hot switching (R40–R42) -/

/-- Whether a hot record of a scope differs between two images. -/
def hotChanged (old new : List Byte) (scope : Nat) : Bool := hotTypes.any fun t => imgRecord old t scope != imgRecord new t scope

/-- The device-wide hot records and those of S taken from the current image (R41).
LOG 114 (DESIGN CHOICE). -/
def State.takeHotDevice (s : State) : State :=
  let s := ((s.takeRecords hotTypes 7).applySev 7).takeRecords hotTypes 4
  let s := (s.applySev 4).spoutLoad
  { s with si := { s.si with hotDev := false } }

/-- ST_SI_SWITCH_TIME takes the time of a hot switch. -/
def State.markSwitch (s : State) : State := s.wr64 (stReg 0x1014) s.time

/-- The sets of a first image apply at its acceptance, and the boot set ends (R539); the partitions themselves boot later.
LOG 114 (DESIGN CHOICE). -/
def State.firstSets (s : State) : State :=
  let s := (List.range 5).foldl (fun (s : State) (p : Nat) =>
    let r := partRec (imgRecord s.si.current 1 p)
    State.setRecord { s with si := { s.si with parts := setAt s.si.parts p { PartRec.absent with channels := if r.active then r.channels else 0 } } } 3 p (imgRecord s.si.current 3 p)) s
  (List.range s.nChannels).foldl (fun (s : State) (c : Nat) => s.mcCfg c) s.gateFreed

/-- An image becomes the current one, the former current one the previous one (R38, R45).
LOG 114, 137 (DESIGN CHOICE). -/
def State.adopt (s : State) (img : List Byte) (revoked : Bool) : State :=
  let old := s.si.current
  let s := { s with si := { s.si with current := img, previous := old, submission := none, acceptAt := s.time } }
  let s := (s.setFld (stReg 0x1000) 13 13 (b2n revoked)).extendMr 2 (imageHash img)
  let s := if old.isEmpty then s.firstSets else s
  let fb := imgFallback img
  let dev := hotChanged old img 7 || hotChanged old img 4
  let live := fun (p : Nat) => s.fld (btReg p 0) 3 0 != 0 && (s.recState p == 0 || s.recState p == 3)
  let s := ((List.range 4).filter fun p => hotChanged old img p && s.recState p == 0 && !live p).foldl (fun (s : State) (p : Nat) => s.takeHot p) s
  let s := { s with si := { s.si with hotPend := (List.range 4).filter fun p => hotChanged old img p && live p, hotDev := dev && live fb } }
  let s := if dev && !live fb then s.takeHotDevice.markSwitch else s
  s.showSi

/-- IMAGE_ACCEPTANCE: the journal record of a checked image is complete.
LOG 113 (DESIGN CHOICE). -/
def execImageAcceptance (s : State) : Host.Outcome State Fault Refusal :=
  .next <| match s.si.submission with
    | none => s
    | some q =>
      if !s.stewardUp then s
      else
        let old := imgVersion s.si.current
        let s := (s.wr (stReg 0x100C) (max (s.rd (stReg 0x100C)) (imgVersion q.image))).wr (stReg 0x1010) (max (s.rd (stReg 0x1010)) old)
        (s.adopt q.image false).siEnd q.ring q.idx 0

/-- HOT_SWITCH: at a major-cycle boundary of partition p after SWITCH_AFTER and 2 ms after acceptance, all its hot sections switch in one
tick; in the fallback partition's boundary tick, the device-wide records and those of S as well. -/
def execHotSwitch (p : Nat) (s : State) : Host.Outcome State Fault Refusal :=
  .next <|
    let mine := s.si.hotPend.contains p
    let dev := s.si.hotDev && imgFallback s.si.current == p
    let after := imgAfter s.si.current
    if (mine || dev) && decide (p < 4) && s.atBoundary p && reached s.time (s.si.acceptAt + 2000000) && (after == 0 || reached s.time after) then
      let s1 := if mine then
          let t := (((s.takeRecords hotTypes p).applySev p).applySlots p).switchTable p
          { t with si := { t.si with hotPend := t.si.hotPend.filter fun q => q != p } }
        else s
      let s2 := if dev then s1.takeHotDevice else s1
      s2.markSwitch.showSi
    else s

/-! ## Revert (R45) -/

/-- SI_REVERT: the previous image becomes current again, and the former current one is revoked.
LOG 113 (DESIGN CHOICE). -/
def execSiRevert (ring idx : Nat) (s : State) : Host.Outcome State Fault Refusal :=
  .next <|
    if s.si.submission.isSome then s
    else s.mbox ring idx 0x02 fun _ s =>
      if s.hotPending then s.siEnd ring idx 9
      else if s.si.previous.isEmpty || bit (s.rd (stReg 0x1000)) 13 || decide (imgVersion s.si.previous < s.rd (stReg 0x1010)) then s.siEnd ring idx 0xA
      else (s.adopt s.si.previous true).siEnd ring idx 0

end Sys2Proof.Machine
end

