-- ==== Sys2Proof/Machine/Caddy.lean ====
section
/-! DEFINITION. The Caddy's commands (R479–R499): attestation, certificates, owners, minimum versions, measurement extensions, the random
number generator's health. -/

namespace Sys2Proof.Machine

/-- A command is refused with a CODE that the specification does not give for the cause.
LOG 116 (DESIGN CHOICE). -/
def State.refuseAny (s : State) (ring idx : Nat) : State :=
  State.complete { s with fresh := s.fresh + 1 } ring idx stRefused ((Config.freeWord s.fresh).toNat % 65536) 0

/-! ## Attestation (R494, R496) -/

/-- The fixed fields of the report, up to the configuration registers. -/
def State.reportHead (s : State) : List Byte :=
  let otp := s.rd (cadReg 0xC)
  leFields [(4, 0x54414B48), (2, 1), (2, 0x300), (4, s.rd (cadReg 0)), (4, s.urn.fwVersion), (2, bits otp 7 0), (2, s.urn.fwSvn),
    (4, s.rd (stReg 0x1004)), (4, s.rd (stReg 0x1010)), (1, bits otp 31 24), (1, bits otp 11 8), (1, bits otp 23 16), (1, 0),
    (8, s.time), (4, b2n (bit (s.rd (tbReg 0)) 31)), (4, 0)]

/-- The signed portion of the attestation report (Table 22-6). -/
def State.report (s : State) (nonce : List Byte) : List Byte :=
  s.reportHead ++ leFields ((List.range 4).map fun k => (4, s.rd (cadReg (0x30 + 4 * k)))) ++ nonce.take 64 ++
  digestBytes s.currentHash ++ (List.range 8).flatMap (fun n => digestBytes (s.rdDigest (mrReg n))) ++
  digestBytes (Config.aliasKeyHash (s.rdDigest (mrReg 0)) (s.rdDigest (mrReg 1)))

/-- The report and its signature block, made afresh (R481). -/
def State.signedReport (s : State) (nonce : List Byte) : List Byte × State :=
  (s.report nonce ++ (List.range sigLen).map (fun i => Config.signatureByte (s.fresh + i)), { s with fresh := s.fresh + sigLen })

/-- ATTEST: the report over a nonce is written where the command says. -/
def execAttest (ring idx : Nat) (s : State) : Host.Outcome State Fault Refusal :=
  .next <| match s.mbCmd ring idx 0x20 with
    | none => s
    | some k =>
      let nonceAt := k.arg 8 6
      let at_ := k.arg 0x10 6
      if !(s.lpReady nonceAt 64 && s.lpReady at_ 4141) then s
      else
        let s := s.begin_ ring idx
        if at_ % 64 ≠ 0 then s.complete ring idx stInvalid 0 0
        else if !bit (s.rd (cadReg 4)) 0 then s.complete ring idx stRefused 9 0
        else
          let n := s.memRead .caddy nonceAt 64
          if n.1.err.isSome then n.2.refuseAny ring idx
          else
            let q := n.2.signedReport n.1.bytes
            let w := q.2.memWrite .caddy at_ q.1
            if w.1.isSome then w.2.refuseAny ring idx else w.2.complete ring idx stOk 0 4141

/-- CERT_READ: a certificate is written, at most the limit, and its length is the result.
LOG 116 (DESIGN CHOICE). -/
def execCertRead (ring idx : Nat) (s : State) : Host.Outcome State Fault Refusal :=
  .next <| match s.mbCmd ring idx 0x21 with
    | none => s
    | some k =>
      let n := k.arg 8 8
      let gen := if n < 2 then 0 else s.caddy.keyGen
      let len := Config.certLength n gen
      let put := min len (k.arg 0x18 4)
      let at_ := k.arg 0x10 6
      if !s.lpReady at_ (max 1 put) then s
      else
        let s := s.begin_ ring idx
        if 4 ≤ n then s.complete ring idx stInvalid 0 0
        else if put = 0 then s.complete ring idx stOk 0 len
        else
          let w := s.memWrite .caddy at_ ((List.range put).map fun i => Config.certByte n gen i)
          if w.1.isSome then w.2.refuseAny ring idx else w.2.complete ring idx stOk 0 len

/-! ## Owners (R490, R491) -/

/-- The refusal code of an owner record, or 0: format, authority, challenge, signature, then the slot's own rules (Table 22-8).
LOG 115 (DESIGN CHOICE). -/
def State.ownerCheck (s : State) (l : List Byte) (op : Nat) (v : SigVerdict) : Nat :=
  let slot := fieldAt l 5 1
  let auth := fieldAt l 6 1
  let free := (sliceBytes l 0x808 56).all (· == 0) && fieldAt l 7 1 == 0 && (op == 1 || (sliceBytes l 0x48 1984).all (· == 0))
  if !(fieldAt l 0 4 == 0x4E574F48 && fieldAt l 4 1 == op && decide (1 ≤ slot) && decide (slot ≤ 4) && free) then 0x0B
  else if !((s.lifecycle == 1 && auth == 0) || (s.lifecycle == 3 && decide (1 ≤ auth) && decide (auth ≤ 4) && s.ownerState auth == 1)) then 2
  else if digestOf (sliceBytes l 8 64) != s.rdDigest (cadReg 0x40) then 4
  else if !(v.ed && v.ml) then 1
  else if op = 1 then (if s.ownerState slot = 0 then 0 else 3)
  else if s.ownerState slot ≠ 1 then 3
  else if ((List.range 4).filter fun n => s.ownerState (n + 1) == 1).length = 1 then 5
  else if (!s.si.current.isEmpty && imgSigner s.si.current == slot) || (!s.si.previous.isEmpty && imgSigner s.si.previous == slot) then 6
  else 0

/-- OWNER_STATE of a slot programmed. -/
def State.setOwner (s : State) (slot v : Nat) : State := s.setFld (cadReg 0xC) (16 + 2 * slot - 1) (16 + 2 * slot - 2) v

/-- An accepted enrolment: the slot's state, its key hash, the keys kept, LIFECYCLE OWNED. -/
def State.enrol (s : State) (l : List Byte) : State :=
  let slot := fieldAt l 5 1
  let keys := sliceBytes l 0x48 1984
  let s := (s.setOwner slot 1).setFld (cadReg 0xC) 31 24 3
  { s with caddy := { s.caddy with owners := setAt s.caddy.owners (slot - 1) (Config.sha512 keys), ownerKeys := s.caddy.ownerKeys.filter (fun e => e.1 != slot) ++ [(slot, keys)] } }

/-- An owner command: checked, performed or refused; the challenge is replaced either way.
LOG 115 (DESIGN CHOICE). -/
def State.ownerCmd (s : State) (ring idx op : Nat) (k : Cmd) (v : SigVerdict) : State :=
  let q := s.memRead .caddy (k.arg 8 6) (0x840 + sigLen)
  let l := q.1.bytes
  let j := q.2.judge ((assoc q.2.caddy.ownerKeys (fieldAt l 6 1)).getD []) l v
  let t := if q.1.err.isSome then q.2 else j.2
  let code := if q.1.err.isSome then 0x0B else t.ownerCheck l op j.1
  if code = 0 then
    (if op = 1 then t.enrol l else t.setOwner (fieldAt l 5 1) 3).newChallenge.complete ring idx stOk 0 0
  else
    let s := t.raise .cadEnrolReject 7 { info0 := code }
    let s := if code = 1 then s.raise .cadSigFail 7 {} else s
    s.newChallenge.complete ring idx stRefused code 0

/-- An owner command where its record can be read. -/
def State.ownerRun (s : State) (ring idx opcode op : Nat) (v : SigVerdict) : State :=
  match s.mbCmd ring idx opcode with
  | some k => if s.lpReady (k.arg 8 6) (0x840 + sigLen) then (s.begin_ ring idx).ownerCmd ring idx op k v else s
  | none => s

/-- OWNER_ENROL. -/
def execOwnerEnrol (ring idx : Nat) (verdict : SigVerdict) (s : State) : Host.Outcome State Fault Refusal :=
  .next (s.ownerRun ring idx 0x22 1 verdict)

/-- OWNER_REVOKE. -/
def execOwnerRevoke (ring idx : Nat) (verdict : SigVerdict) (s : State) : Host.Outcome State Fault Refusal :=
  .next (s.ownerRun ring idx 0x23 2 verdict)

/-! ## Minimum versions (R488, R489) -/

/-- SI_MIN slot n. -/
def State.siMin (s : State) (n : Nat) : Nat := s.rd (cadReg (0x10 + 4 * n))

/-- SI_MIN_RAISE: the next unused slot is programmed, and the effective floor and highest version follow.
LOG 115 (DESIGN CHOICE). -/
def execSiMinRaise (ring idx : Nat) (s : State) : Host.Outcome State Fault Refusal :=
  .next <| s.mbox ring idx 0x24 fun k s =>
    let v := k.arg 8 4
    match (List.range 8).find? fun n => s.siMin n == 0 with
    | none => s.complete ring idx stRefused 8 0
    | some n =>
      if s.si.current.isEmpty || v == 0 || decide (imgVersion s.si.current < v) || (List.range 8).any fun m => decide (v ≤ s.siMin m) then s.complete ring idx stRefused 7 0
      else
        let s := ((s.wr (cadReg (0x10 + 4 * n)) v).wr (stReg 0x1010) (max (s.rd (stReg 0x1010)) v)).wr (stReg 0x100C) (max (s.rd (stReg 0x100C)) v)
        s.complete ring idx stOk 0 0

/-! ## Measurement extensions (R492, R493) -/

/-- Whether a requester may extend measurement register n (Table 22-5): the Steward MR2 and MR4–MR7, partition S MR3.
LOG 17 (DESIGN CHOICE). -/
def mayExtend (r : Requester) (n : Nat) : Bool :=
  match r with
  | .steward => n == 2 || (decide (4 ≤ n) && decide (n ≤ 7))
  | .hart _ => n == 3
  | _ => false

/-- EXT_QUEUED shows the extensions that wait. -/
def State.showExt (s : State) : State := s.setFld (cadReg 4) 4 2 s.caddy.ext.length

/-- CAD_EXT_CMD: an extension with the digest in CAD_EXT_DATA waits for its turn, at most four, or is denied. -/
def execCadExtCmd (r : Requester) (value : Nat) (s : State) : Host.Outcome State Fault Refusal :=
  .next <|
    let n := value % 8
    if !mayExtend r n then s.orReg (cadReg 4) (2 ^ 31)
    else if 4 ≤ s.caddy.ext.length then s.orReg (cadReg 4) (2 ^ 30)
    else State.showExt { s with caddy := { s.caddy with ext := s.caddy.ext ++ [(n, s.rdDigest (cadReg 0x340))] } }

/-- The Caddy applies the oldest extension that waits: one in each idle nanosecond.
LOG 117 (DESIGN CHOICE). -/
def State.applyExt (s : State) : State :=
  match s.caddy.ext with
  | [] => s
  | (n, d) :: rest => State.showExt (State.extendMr { s with caddy := { s.caddy with ext := rest } } n d)

/-! ## Random numbers (R499) -/

/-- CAD_TRNG_FAIL: a health test fails; signing commands are refused until TRNG_OK returns. -/
def execCadTrngFail (s : State) : Host.Outcome State Fault Refusal :=
  .next ((s.setFld (cadReg 4) 0 0 0).raise .cadTrngFail 7 {})

/-- TRNG_OK_RETURN: the health tests pass again. -/
def execTrngOkReturn (s : State) : Host.Outcome State Fault Refusal :=
  .next (s.orReg (cadReg 4) (2 ^ 0))

end Sys2Proof.Machine
end

