-- ==== Sys2Proof/Machine/Power.lean ====
section
/-! DEFINITION. Power states, wake sources, the Cosy save, adaptive voltage, thermal control, rails and GPIO outputs (R500–R518, R526–R529,
R544). -/

namespace Sys2Proof.Machine

/-! ## The power policy (R501) -/

/-- The power policy record in effect. -/
def State.policy (s : State) : List Byte := s.record 0x14 7
/-- WATCH_PART; 0xFF where no record is in effect. -/
def State.watchPart (s : State) : Nat := if s.policy.isEmpty then 0xFF else fieldAt s.policy 1 1
/-- AVS_MARGIN in mV. -/
def State.avsMargin (s : State) : Int := toSigned 8 (fieldAt s.policy 3 1)
/-- Whether wake source w is enabled. -/
def State.wakeEn (s : State) (w : Nat) : Bool := bit (fieldAt s.policy 4 2) w

/-! ## Transitions (R502, R503) -/

/-- PM_STATUS.BUSY. -/
def State.pmBusy (s : State) : Bool := bit (s.rd (pmReg 0)) 3
/-- PM_STATUS.TARGET. -/
def State.pmTarget (s : State) : Nat := s.fld (pmReg 0) 7 4

/-- Whether a requester's writes of PM_STATE_CMD count. -/
def State.mayPower (s : State) (r : Requester) : Bool :=
  r == .steward || s.isMaster r || (match r with
    | .hart _ => true
    | _ => false)

/-- Whether a command to a state is permitted from the current one (Table 23-3). -/
def State.pmPermits (s : State) (target : Nat) : Bool :=
  let cur := s.pmState
  match target with
  | 0 => cur == 1 || cur == 2
  | 1 => cur == 0
  | 2 => (cur == 0 || cur == 1) && s.watchPart != 0xFF
  | 3 => decide (cur ≤ 2)
  | _ => true

/-- The active perception partitions that a transition parks. -/
def State.parkSet (s : State) (target : Nat) : List Nat := (List.range 4).filter fun p => (s.prec p).active && s.parks target p

/-- A transition begins: those of its partitions that run no dispatcher park at once, the others at their next frame start.
LOG 119 (DESIGN CHOICE). -/
def State.pmBegin (s : State) (target : Nat) : State :=
  let s := (s.setFld (pmReg 0) 3 3 1).setFld (pmReg 0) 7 4 target
  let s := { s with power := { s.power with since := s.clock.aon, exiting := target == 0 } }
  (s.parkSet target).foldl (fun (s : State) (p : Nat) => if s.fld (btReg p 0) 3 0 = 0 ∧ s.power.parked.contains p = false then s.park p else s) s

/-- A write to PM_STATE_CMD. -/
def State.pmCommand (s : State) (r : Requester) (target : Nat) : State :=
  if !s.mayPower r then s
  else if s.pmPermits target && (target == 4 || !s.pmBusy) then s.pmBegin target
  else s.orReg (pmReg 0) (2 ^ 31)

/-- PM_STATE_CMD with Run. -/
def execPmStateRun (r : Requester) (s : State) : Host.Outcome State Fault Refusal := .next (s.pmCommand r 0)
/-- PM_STATE_CMD with Trim. -/
def execPmStateTrim (r : Requester) (s : State) : Host.Outcome State Fault Refusal := .next (s.pmCommand r 1)
/-- PM_STATE_CMD with Watch. -/
def execPmStateWatch (r : Requester) (s : State) : Host.Outcome State Fault Refusal := .next (s.pmCommand r 2)
/-- PM_STATE_CMD with Retain. -/
def execPmStateRetain (r : Requester) (s : State) : Host.Outcome State Fault Refusal := .next (s.pmCommand r 3)
/-- PM_STATE_CMD with Off. -/
def execPmStateOff (r : Requester) (s : State) : Host.Outcome State Fault Refusal := .next (s.pmCommand r 4)

/-! ## Boot of a parked partition (R504) -/

/-- A parked partition boots as in a partition reset, its channels not trained, its Sequence Table kept, the reset not counted. -/
def State.bootParked (s : State) (p : Nat) : State :=
  let keep := s.regs.filter fun e => decide (stReg (0x80000 + 0x8000 * p) ≤ e.1) && decide (e.1 < stReg (0x80000 + 0x8000 * (p + 1)))
  let s := s.askUncounted p none
  let s := (s.setRecState p 3).resetUnits p false
  keep.foldl (fun (s : State) e => s.wr e.1 e.2.toNat) s

/-- The partitions of a list boot and are parked no longer. -/
def State.unpark (s : State) (l : List Nat) : State :=
  l.foldl (fun (s : State) (p : Nat) => State.bootParked { s with power := { s.power with parked := s.power.parked.filter fun q => q != p } } p) s

/-! ## Self-refresh (R428) -/

/-- The channels of a list in service enter self-refresh. -/
def State.selfRefresh (s : State) (l : List Nat) : State :=
  l.foldl (fun (s : State) (c : Nat) => if s.fld (mcReg c 0) 3 0 = 2 then s.setFld (mcReg c 0) 3 0 3 else s) s

/-- Every channel in self-refresh returns to service; none trains. -/
def State.leaveRefresh (s : State) : State :=
  (List.range s.nChannels).foldl (fun (s : State) (c : Nat) => if s.fld (mcReg c 0) 3 0 = 3 then s.setFld (mcReg c 0) 3 0 2 else s) s

/-- The Spout SerDes lose power: no port is up, and no fault is raised (R509). -/
def State.spoutsOff (s : State) : State :=
  (List.range s.nSpouts).foldl (fun (s : State) (n : Nat) => ((s.spDiscard n).setPort n SpPort.idle).wr (spReg n 0) 0) s

/-- They train again. -/
def State.spoutsOn (s : State) : State := (List.range s.nSpouts).foldl (fun (s : State) (n : Nat) => s.spTrain n) s

/-! ## The Cosy save (R508) -/

/-- The registers of Table 23-5. -/
def cosyReg (a : Nat) : Bool :=
  let within := fun (lo hi : Nat) => decide (lo ≤ a) && decide (a < hi)
  within (pmReg 0x18) (pmReg 0x20) || within (pmReg 0xC4) (pmReg 0xC8) || within (pmReg 0x90004) (pmReg 0x90008) || within (ckReg 4) (ckReg 8) ||
  (within (pmReg 0x80000) (pmReg 0x80400) && decide ((a - pmReg 0x80000) % 32 < 8)) ||
  within (stReg 0x1000) (stReg 0x1080) || within (stReg 0x5020) (stReg 0x50A0) ||
  (List.range 16).any (fun c => within (mcReg c 4) (mcReg c 8)) ||
  within (urnReg 0x8040) (urnReg 0x8080) || within (urnReg 0xA000) (urnReg 0xA00C) || within (urnReg 0xC008) (urnReg 0xC00C) || within (urnReg 0xC010) (urnReg 0xC014) ||
  within (stReg 0x80000) (stReg 0xA0000)

/-- The save: the registers into the Cosy RAM. -/
def State.cosySave (s : State) : State := { s with power := { s.power with cosy := s.regs.filter fun e => cosyReg e.1 } }

/-- What the always-on domain keeps through Retain: the Cosy's own registers, OTP. -/
def retainReg (a : Nat) : Bool :=
  keptReg a || (decide (pmReg 0 ≤ a) && decide (a < pmReg 0x100000)) || a == cadReg 8 || a == peReg 0

/-- Memory after Retain: LPDDR6 kept by self-refresh, everything else off. -/
def Memory.retained (m : Memory) : Memory :=
  { m with cells := m.cells.filter (fun c => decide (c.1 < lpddrTop)), lost := m.lost.filter (fun r => decide (r.lo < lpddrTop)),
           bad := m.bad.filter (fun e => decide (e.1 * 8 < lpddrTop)), anchors := [] }

/-- The fault log, the configuration and the firmware records that outlast Retain.
LOG 120 (DESIGN CHOICE). -/
def Urn.retained (u : Urn) : Urn :=
  { Urn.boot with log := u.log.drop (u.log.length - 128), nextSeq := u.nextSeq, sev := u.sev, reload := u.reload, fwVersion := u.fwVersion,
                  fwSvn := u.fwSvn, fwCommit := u.fwCommit, diagnose := u.diagnose }

/-- The block as the rails of Retain leave it: what the Cosy, LPDDR6 and the always-on domain keep.
LOG 120 (DESIGN CHOICE). -/
def State.retained (s : State) : State :=
  { s.rebirth retainReg with
    si := { s.si with submission := none, hotPend := [], hotDev := false }, booted := s.booted, programs := s.programs, strs := s.strs, dqs := s.dqs,
    caddy := { s.caddy with ext := [] }, clock := { s.clock with ns := 0, urn := 0 },
    power := { s.power with exiting := false, wake := false }, urn := s.urn.retained, mem := s.mem.retained }

/-- The measurements of the ROM and of the image `s` held.
LOG 120 (DESIGN CHOICE). -/
def State.remeasure (t s : State) : State :=
  let t := ((t.extendMr 0 (Config.romDigest s.otpValues)).newChallenge).extendMr 1 (Config.fwHeaderHash s.caddy.image)
  if s.si.current.isEmpty then t else t.extendMr 2 (imageHash s.si.current)

/-- The device wakes from Retain: every powered-off domain starts again, the Cosy save is restored, MR0 and MR1 are extended as at device
boot, LPDDR6 leaves self-refresh, the parked partitions boot (R503–R505).
LOG 109, 119 (DESIGN CHOICE). -/
def State.exitRetain (s : State) : State :=
  let t := State.remeasure (s.power.cosy.foldl (fun (t : State) e => t.wr e.1 e.2.toNat) s.retained) s
  let t := (List.range s.nChannels).foldl (fun (t : State) (c : Nat) => t.setFld (mcReg c 0) 3 0 2) t
  let t := ((t.setFld (peReg 0) 0 0 0).setFld (pmReg 0) 3 0 0).setFld (pmReg 0) 7 4 0
  (t.spoutsOn.unpark s.power.parked).showSi

/-! ## Wakes (R506, R507) -/

/-- The exit to Run starts; out of Retain it begins with RAIL_EN (R528). -/
def State.startExit (s : State) : State :=
  let s := (s.setFld (pmReg 0) 3 3 1).setFld (pmReg 0) 7 4 0
  if s.pmState = 3 then { s with power := { s.power with exiting := true, railEn := true, railAt := s.clock.aon } }
  else { s with power := { s.power with exiting := true } }

/-- PM_WAKE_SRC takes an active source: FIRST the lowest of the earliest Cosy tick of 40 ns.
LOG 121 (DESIGN CHOICE). -/
def State.wakeNote (s : State) (w : Nat) : State :=
  let v := s.rd (pmReg 8)
  let t := s.clock.aon / 40
  let first := !bit v 31 || (s.power.wakeAt == t && decide (w < bits v 5 4))
  let s := s.orReg (pmReg 8) (2 ^ 31 + 2 ^ w)
  if first then State.setFld { s with power := { s.power with wakeAt := t } } (pmReg 8) 5 4 w else s

/-- A wake source becomes active: in a lower state, or on the way to one, and only where it is enabled. -/
def State.wake (s : State) (w : Nat) : State :=
  let low := fun (n : Nat) => decide (1 ≤ n) && decide (n ≤ 3)
  let entering := s.pmBusy && !s.power.exiting && low s.pmTarget
  if !(decide (w < 4) && s.wakeEn w && s.power.resetN && !s.power.shut && (low s.pmState || entering)) then s
  else
    let s := s.wakeNote w
    if entering then State.orReg { s with power := { s.power with wake := true } } (pmReg 0) (2 ^ 30)
    else if s.pmBusy then s
    else s.startExit

/-- WAKE_SOURCE: source w is active. -/
def execWakeSource (w : Nat) (s : State) : Host.Outcome State Fault Refusal := .next (s.wake w)

/-- PM_WAKE_REQ: a write by a requester of the Watch partition is source 2. -/
def execPmWakeReq (r : Requester) (s : State) : Host.Outcome State Fault Refusal :=
  .next (if s.partOf r = some s.watchPart then s.wake 2 else s)

/-- ALARM: PM_RTC reaches PM_ALARM.
LOG 3, 121 (DESIGN CHOICE). -/
def execAlarm (s : State) : Host.Outcome State Fault Refusal :=
  .next (if s.clock.aon * 32768 / 1000000000 % 2 ^ 64 = s.rd64 (pmReg 0x18) then s.wake 1 else s)

/-! ## The end of a transition -/

/-- The device enters Off: the rails go, and only RESET_N or a power-up brings it back. -/
def State.enterOff (s : State) : State :=
  let s := ((s.setFld (pmReg 0) 2 0 4).setFld (pmReg 0) 3 3 0).setFld (pmReg 0) 7 4 0
  { s with power := { s.power with railEn := false, released := false, shut := true, exiting := false, wake := false } }

/-- The entry to a lower state completes.
LOG 119 (DESIGN CHOICE). -/
def State.enterState (s : State) (target : Nat) : State :=
  let s := ((s.setFld (pmReg 0) 2 0 target).setFld (pmReg 0) 3 3 0).setFld (pmReg 0) 7 4 0
  match target with
  | 1 => s.spoutsOff
  | 2 =>
    let w := s.watchPart
    let others := (List.range s.nChannels).filter fun c => !bit (s.prec w).channels c
    let s := (s.spoutsOff.selfRefresh others).setFld (peReg 0) 0 0 0
    s.unpark (s.power.parked.filter fun p => p == w)
  | _ =>
    let s := ((s.spoutsOff.cosySave).selfRefresh (List.range s.nChannels)).setFld (peReg 0) 0 0 0
    { s with power := { s.power with railEn := false } }

/-- STATE_ENTRY_COMPLETE: a transition ends once every partition it parks is parked; a wake that came meanwhile starts the exit.
LOG 119 (DESIGN CHOICE). -/
def execStateEntryComplete (s : State) : Host.Outcome State Fault Refusal :=
  .next <|
    if !s.pmBusy then s
    else if s.power.exiting then
      if s.pmState = 3 then s
      else
        let s := ((s.setFld (pmReg 0) 3 0 0).setFld (pmReg 0) 7 4 0).leaveRefresh
        let s := { s with power := { s.power with exiting := false } }
        s.spoutsOn.unpark s.power.parked
    else if s.pmTarget = 4 then s.enterOff
    else if (s.parkSet s.pmTarget).all fun p => s.power.parked.contains p then
      let woken := s.power.wake
      let s := s.enterState s.pmTarget
      if woken then State.startExit { s with power := { s.power with wake := false } } else s
    else s

/-! ## Rails (R513, R526–R528) -/

/-- PLL n loses lock. -/
def State.pllUnlock (s : State) (n : Nat) : State :=
  ((s.setFld (ckReg 0) n n 0).orReg (ckReg 0) (2 ^ 31)).raise .ckPllUnlock 7 { unit := n }

/-- CK_PLL_UNLOCK. -/
def execCkPllUnlock (n : Nat) (s : State) : Host.Outcome State Fault Refusal := .next (if n < 16 then s.pllUnlock n else s)

/-- RAIL_OUT_OF_RANGE: a switched rail leaves its range in Run, Trim or Watch with PWR_GOOD high; which PLLs it affects is not given, so the
PLL is a free value.
LOG 124 (DESIGN CHOICE). -/
def execRailOutOfRange (rail : Nat) (s : State) : Host.Outcome State Fault Refusal :=
  .next <|
    if s.pmState ≤ 2 ∧ s.power.pwrGood = true ∧ rail < 9 then
      let n := (Config.freeWord s.fresh).toNat % 16
      (State.setFld { s with fresh := s.fresh + 1 } (pmReg 0xC0) rail rail 0).pllUnlock n
    else s

/-- SWITCHED_RAILS_IN_RANGE: on exit from Retain every switched rail is in range, and the exit continues. -/
def execSwitchedRailsInRange (s : State) : Host.Outcome State Fault Refusal :=
  .next <|
    if s.pmState = 3 ∧ s.power.exiting = true ∧ s.power.railEn = true ∧ bit (s.rd (pmReg 0xC0)) 31 = false then
      (s.setFld (pmReg 0xC0) 8 0 0x1FF).exitRetain
    else s

/-- RAIL_TIMEOUT: they are not, 50 ms after RAIL_EN rose: TIMEOUT, both ERR_OUT pins low, and the device stays. -/
def execRailTimeout (s : State) : Host.Outcome State Fault Refusal :=
  .next <|
    if s.pmState = 3 ∧ s.power.exiting = true ∧ s.power.railEn = true ∧ s.power.railAt + 50000000 ≤ s.clock.aon then
      State.orReg { s with power := { s.power with errLow := true } } (pmReg 0xC0) (2 ^ 31)
    else s

/-! ## Adaptive voltage (R514) -/

/-- AVS: the target from the monitors (a free value) and AVS_MARGIN, clamped, approached by at most 5 mV; a PMBus error or a readback more than 20 mV
away commands 850 mV.
LOG 123 (DESIGN CHOICE). -/
def execAvs (readback : Option Nat) (s : State) : Host.Outcome State Fault Refusal :=
  .next <|
    if s.stewardUp && decide (s.pmState ≤ 2) then
      let want : Int := (Config.avsTarget [s.fresh] : Int) + s.avsMargin
      let target := (max 650 (min 850 want)).toNat
      let prev := s.fld (pmReg 0x80) 15 0
      let cmd := if prev = 0 then target else if prev < target then min target (prev + 5) else max target (prev - 5)
      let s := { s with fresh := s.fresh + 1 }
      let good := match readback with
        | none => false
        | some v => decide (v ≤ cmd + 20) && decide (cmd ≤ v + 20)
      if good then s.setFld (pmReg 0x80) 15 0 cmd
      else ((s.setFld (pmReg 0x80) 15 0 850).orReg (pmReg 0x80) (2 ^ 31)).raise .pmAvsFail 7 { info0 := cmd, info1 := readback.getD 0 }
    else s

/-! ## Thermal control (R515, R516) -/

/-- A sensor reading, in 1/16 °C. -/
def tempOf (v : Nat) : Int := toSigned 16 (v % 65536)

/-- Twice the median of some readings.
LOG 122 (DESIGN CHOICE). -/
def median2 (l : List Int) : Int :=
  let o := sortBy (fun (a b : Int) => decide (a ≤ b)) l
  if o.isEmpty then 0 else o.getD ((o.length - 1) / 2) 0 + o.getD (o.length / 2) 0

/-- Whether a reading is valid beside the others: within −50 to +150 °C and 10 °C of the median of those that are.
LOG 122 (DESIGN CHOICE). -/
def tempValid (l : List Int) (t : Int) : Bool :=
  let inRange := fun (v : Int) => decide (-800 ≤ v) && decide (v ≤ 2400)
  inRange t && decide ((2 * t - median2 (l.filter inRange)).natAbs ≤ 320)

/-- The threshold of a thermal level, in 1/16 °C (Table 23-8). -/
def levelAt (n : Nat) : Int :=
  match n with
  | 1 => 1840
  | 2 => 1952
  | 3 => 2080
  | _ => 2160

/-- The level that follows from Tj: one that holds already ends only 5 °C below its threshold. -/
def levelOf (old : Nat) (tj : Int) : Nat :=
  ((List.range 4).map fun k => if levelAt (k + 1) ≤ tj ∨ (k + 1 ≤ old ∧ levelAt (k + 1) - 80 < tj) then k + 1 else 0).foldl max 0

/-- Thermal shutdown (level 4): recorded, ERR_OUT low, Off. -/
def State.thermalShutdown (s : State) (tj : Int) : State :=
  let s := (s.wr (pmReg 0x88) (2 ^ 31 + ofSigned 16 tj)).enterOff
  { s with power := { s.power with errLow := true } }

/-- Level l begins to act, or goes on.
LOG 122 (DESIGN CHOICE). -/
def State.thermalLevel (s : State) (l : Nat) : State :=
  let old := s.fld (pmReg 0x20) 30 28
  let s := s.setFld (pmReg 0x20) 30 28 l
  let n := if l = 0 then s.power.hotSamples else s.power.hotSamples + 1
  let s := if n = 10 then State.countUp { s with power := { s.power with hotSamples := 0 } } (pmReg 0x84) 1 else { s with power := { s.power with hotSamples := n } }
  let s := if old = 0 ∧ 1 ≤ l then s.raise .pmThrottle 7 { info0 := s.fld (pmReg 0x20) 15 0 } else s
  if old < 3 ∧ 3 ≤ l then
    let s := ((List.range 4).filter fun p => (s.prec p).active).foldl (fun (s : State) (p : Nat) => s.safeState p 1) s
    s.raise .pmThermCrit 7 { info0 := s.fld (pmReg 0x20) 15 0 }
  else s

/-- THERMAL_SAMPLE: the sixteen junction sensors read; in Retain one sensor, for level 4 only.
LOG 122 (DESIGN CHOICE). -/
def execThermalSample (temps : List Nat) (s : State) : Host.Outcome State Fault Refusal :=
  .next <|
    let l := (temps.take 16).map tempOf
    if s.pmState = 4 then s
    else if s.pmState = 3 then
      let t := l.headD 0
      if 2160 ≤ t then s.thermalShutdown t else s
    else if l.length < 16 then s
    else
      let good := l.map (tempValid l)
      let s1 := (List.range 16).foldl (fun (s : State) (k : Nat) =>
        let s := s.wr (pmReg (0x40 + 4 * k)) (b2n (good.getD k false) * 2 ^ 31 + ofSigned 16 (l.getD k 0))
        if good.getD k false then s else s.raise .pmSensorFail 7 { unit := k, info0 := ofSigned 16 (l.getD k 0) }) s
      let valid := l.filter (tempValid l)
      let alert := bit (s.rd (pmReg 0x20)) 31
      let most := if valid.isEmpty then toSigned 16 (s.fld (pmReg 0x20) 15 0) else valid.foldl max (valid.headD 0)
      let tj := if alert then max most 2080 else most
      let s2 := s1.setFld (pmReg 0x20) 15 0 (ofSigned 16 tj)
      if 2160 ≤ tj then s2.thermalShutdown tj
      else
        let byTj := min 3 (levelOf (s.fld (pmReg 0x20) 30 28) tj)
        s2.thermalLevel (if valid.length < 12 then max 1 byTj else byTj)

/-- TEMP_ALERT_N: its level, through Strainer instance 27. -/
def execTempAlertN (active : Bool) (s : State) : Host.Outcome State Fault Refusal :=
  .next ((s.setFld (pmReg 0x20) 31 31 (b2n active)).strReport 27 active)

/-! ## GPIO outputs (R544) -/

/-- Whether GPIO n is an output (FUNC 2). -/
def State.gpioOut (s : State) (n : Nat) : Bool := fieldAt (s.record 5 7) (0x10 + n) 1 % 4 == 2

/-- Whether a requester may change bit n of PM_GPIO_OUT: the Steward, or a requester of the partition that owns the pin. -/
def State.mayGpio (s : State) (r : Requester) (n : Nat) : Bool :=
  r == .steward || (match s.partOf r with
    | some p => bit (fieldAt (s.record 5 p) 4 4) n
    | none => false)

/-- PM_GPIO_OUT. -/
def execPmGpioOut (r : Requester) (value : Nat) (s : State) : Host.Outcome State Fault Refusal :=
  .next <| (List.range 24).foldl (fun (t : State) (n : Nat) =>
    if s.gpioOut n && s.mayGpio r n then t.setFld (pmReg 0xC4) n n (bits value n n) else t) s

end Sys2Proof.Machine
end

