-- ==== Sys2Proof/Machine/HostSide.lean ====
section
/-! DEFINITION. The host side (R385–R411): mailbox rings at the host-service tick, the endpoint and its BARs, loading a Program, the service
complex, the MACs of partition S. -/

namespace Sys2Proof.Machine

/-! ## The host-service tick (R396–R400) -/

/-- The opcodes of Table 18-7, and those of the Caddy (Table 22-7). -/
def opcodes : List Nat := [1, 2, 3, 4, 5, 6, 7, 8, 9, 0xA, 0xB, 0xC, 0xD, 0xE, 0xF, 0x10, 0x11, 0x20, 0x21, 0x22, 0x23, 0x24]
/-- Those accepted on rings 0–3 only. -/
def masterOpcodes : List Nat := [1, 2, 3, 0xD, 0xE, 0xF, 0x20, 0x21, 0x22, 0x23, 0x24]

/-- The STATUS with which an entry is turned away before it starts, or 0: unknown opcode, reserved fields, PART (Table 18-6, R400).
LOG 85, 86 (DESIGN CHOICE). -/
def State.entryStatus (s : State) (ring : Nat) (k : Cmd) : Nat :=
  let p := k.part
  if !opcodes.contains k.opcode || decide (2 ≤ k.arg 1 1) || k.arg 3 1 != 0 || (decide (4 < p) && p != 0xFF) then stInvalid
  else if 4 ≤ ring ∧ masterOpcodes.contains k.opcode = true then stDenied
  else if p ≠ 0xFF ∧ bit (s.rd (stReg (0x5028 + ring * 0x10))) (16 + p) = false then stDenied
  else stOk

/-- Entry i of ring n taken: turned away at once, or waiting to start. -/
def State.takeEntry (s : State) (n i : Nat) : State :=
  let rd := s.memRead .steward (s.ringBase n + 64 + 64 * (i % s.ringSize n)) 64
  let entry := rd.1.bytes
  let s := rd.2
  let k : Cmd := { ring := n, idx := i, entry := entry, started := false, drop := false }
  let s := State.ringCount { s with st := { s.st with cmds := s.st.cmds ++ [k] } } n
  let st := s.entryStatus n k
  if st = stOk then s else (s.begin_ n i).complete n i st 0 0

/-- The entries of ring n taken at a tick: from CONS upward, at most 8, each only while its completion has a place. -/
def State.takeEntries (s : State) (n prod : Nat) : State :=
  let cons := (s.ring n).cons
  let rd := s.memRead .steward (s.ringBase n + 0x10) 4
  let cpl := leNat rd.1.bytes
  let s := rd.2
  let room := fun (k : Nat) => decide ((cons + k + 2 ^ 32 - cpl) % 2 ^ 32 < s.ringSize n)
  let want := min 8 ((prod + 2 ^ 32 - cons) % 2 ^ 32)
  let m := ((List.range want).takeWhile room).length
  if m = 0 then s
  else
    let s := (List.range m).foldl (fun (s : State) (k : Nat) => s.takeEntry n ((cons + k) % 2 ^ 32)) s
    let c := (cons + m) % 2 ^ 32
    (s.setRing n { s.ring n with cons := c }).stewardPut (s.ringBase n + 8) (leBytes 4 c)

/-- The scope of ring n's faults (R456). -/
def ringScope (n : Nat) : Nat := if n < 4 then 7 else 4

/-- Whether ring n's memory can be reached. -/
def State.ringReady (s : State) (n : Nat) : Bool := s.lpReady (s.ringBase n) 64 && s.lpReady (s.ringBase n + 64) (128 * s.ringSize n)

/-- The Steward's visit to ring n: a reset's indices, the message for completions, PROD, the entries; where PROD cannot be read, nothing
is taken.
LOG 85 (DESIGN CHOICE). -/
def State.visitRing (s : State) (n : Nat) : State :=
  if !s.ringReady n then s
  else
    let r := s.ring n
    let s := if r.resetPend then ((s.stewardPut (s.ringBase n + 8) (leBytes 4 0)).stewardPut (s.ringBase n + 0xC) (leBytes 4 0)).setRing n Ring.idle else s
    let r := s.ring n
    let s := if r.cplProd = r.lastMsg then s
      else
        let s := s.setRing n { r with lastMsg := r.cplProd }
        if n < 4 then s.msix (s.fld (stReg (0x5028 + n * 0x10)) 13 8) else s.send (.scIrq (n - 3))
    let status := s.rd (stReg (0x502C + n * 0x10))
    if bit (s.rd (stReg (0x5028 + n * 0x10))) 31 && !bit status 31 then
      let rd := s.memRead .steward (s.ringBase n) 4
      let prod := leNat rd.1.bytes
      let s := rd.2
      let r := s.ring n
      if rd.1.err.isSome then s
      else if s.ringSize n < (prod + 2 ^ 32 - r.cons) % 2 ^ 32 ∨ 2 ^ 31 ≤ (prod + 2 ^ 32 - r.prod) % 2 ^ 32 then
        (s.orReg (stReg (0x502C + n * 0x10)) (2 ^ 31)).raise .ringErr (ringScope n) { unit := n, info0 := prod, info1 := r.cons }
      else (s.setRing n { r with prod := prod }).takeEntries n prod
    else s

/-- HOST_SERVICE_TICK: every ST_HS_PERIOD the Steward visits the rings in ascending number.
LOG 85 (DESIGN CHOICE). -/
def execHostServiceTick (s : State) : Host.Outcome State Fault Refusal :=
  .next <|
    if s.stewardUp && decide (s.st.lastTick + s.fld (stReg 0x5000) 9 0 * 1000 ≤ s.clock.ns) then
      ((List.range 8).foldl (fun (s : State) (n : Nat) => s.visitRing n) { s.payOwed with st := { s.st with lastTick := s.clock.ns } }).payOwed
    else s

/-- NOP. -/
def execNop (ring idx : Nat) (s : State) : Host.Outcome State Fault Refusal :=
  .next (s.mbox ring idx 0x11 fun _ s => s.complete ring idx stOk 0 0)

/-- TRIG_SET: a camera generator disabled, rewritten and restarted; DENIED where PART does not own its camera port.
LOG 92 (DESIGN CHOICE). -/
def execTrigSet (ring idx : Nat) (s : State) : Host.Outcome State Fault Refusal :=
  .next <| s.mbox ring idx 0x10 fun k s =>
    let g := k.arg 8 8
    if 16 ≤ g then s.complete ring idx stInvalid 0 0
    else if s.camOwner g ≠ some k.part then s.complete ring idx stDenied 0 0
    else (s.genRestart g (k.arg 0x10 8) (k.arg 0x18 4) (k.arg 0x1C 4) (k.arg 0x20 4)).complete ring idx stOk 0 0

/-! ## Ring registers (R401, R404) -/

/-- Whether a requester owns ring n. -/
def State.ownsRing (s : State) (r : Requester) (n : Nat) : Bool :=
  if n < 4 then s.isMaster r else match r with
    | .hart _ => decide (n < 8)
    | _ => false

/-- RING_CFG_WRITE: stored by the ring's owner while ENABLE is 0, or together with RESET. -/
def execRingCfgWrite (r : Requester) (n value : Nat) (s : State) : Host.Outcome State Fault Refusal :=
  .next <|
    let a := stReg (0x5028 + n * 0x10)
    if !(decide (n < 8) && s.ownsRing r n) then s.notMaster r
    else if bit value 30 then (s.wr a (setBits (setBits (value % 2 ^ 21) 15 14 0) 7 4 0)).ringReset n
    else if bit (s.rd a) 31 then s
    else s.wr a (setBits (setBits (value % 2 ^ 21) 15 14 0) 7 4 0 + bits value 31 31 * 2 ^ 31)

/-- RING_RESET: ENABLE and ERR cleared; CONS and CPL_PROD zeroed at the next tick; the completions of taken commands are discarded. -/
def execRingReset (r : Requester) (n : Nat) (s : State) : Host.Outcome State Fault Refusal :=
  .next (if decide (n < 8) && s.ownsRing r n then s.ringReset n else s.notMaster r)

/-! ## The endpoint (R386, R389–R394) -/

/-- PE_BAR2_BASE. -/
def State.bar2Base (s : State) : Nat := s.fld (peReg 8) 31 30 * 2 ^ 30 + s.fld (peReg 0xC) 4 0 * 2 ^ 32
/-- The size of BAR2 at reset; no command changes it.
LOG 125 (DESIGN CHOICE). -/
def bar2Size : Nat := 2 ^ 34

/-- The local address of a BAR2 access of n bytes; none outside the window or with the link down. Recovery boot maps the first 64 MiB to
local address 0 (R486). -/
def State.bar2Addr (s : State) (offset n : Nat) : Option Nat :=
  if s.power.recovery then (if bit (s.rd (peReg 0)) 0 && decide (0 < n) && decide (offset + n ≤ 0x4000000) then some offset else none)
  else if bit (s.rd (peReg 0)) 0 && decide (0 < n) && decide (offset + n ≤ bar2Size) then some (s.bar2Base + offset) else none

/-- BAR2_WRITE: host bytes land in LPDDR6 on arrival; from a host that is not the master they have no effect, but for recovery boot, which is of PCI Express only (R486). The write is posted: it has
no completion, and one that fails is dropped, the source its only record (R115). -/
def execBar2Write (offset : Nat) (bytes : List Byte) (s : State) : Host.Outcome State Fault Refusal :=
  .next <| match s.bar2Addr offset bytes.length with
    | none => s
    | some a =>
      if !s.isMaster .pcie && !s.power.recovery then s.notMaster .pcie
      else if lpddrTop < a + bytes.length then s.raiseReq .addrUnmapped .pcie a
      else if !s.lpReady a bytes.length then s
      else (s.memWrite .pcie a bytes).2

/-- BAR2_READ. -/
def execBar2Read (offset len : Nat) (s : State) : Host.Outcome State Fault Refusal :=
  .next <| match s.bar2Addr offset len with
    | none => s
    | some a =>
      if lpddrTop < a + len then (s.raiseReq .addrUnmapped .pcie a).answer .pcie .unsupported []
      else if !s.lpReady a len then s
      else
        let q := s.memRead .pcie a len
        q.2.answer .pcie (respOf .pcie q.1.err) (if q.1.err = some .locked then [] else q.1.bytes)

/-- PERST_N (0), a hot reset (1), a link-down (2) or a transition from D3hot to D0 (3): only the endpoint is reset. -/
def execPerstN (event : Nat) (s : State) : Host.Outcome State Fault Refusal :=
  .next <|
    if event < 4 then
      let up := bit (s.rd (peReg 0)) 0
      let s := (((s.setFld (peReg 0) 7 0 0).wr (peReg 8) 0).wr (peReg 0xC) 0)
      let s := { s with st := { s.st with msixPend := 0, msixMask := 0 } }
      if up && (event == 1 || event == 2) then s.raise .peLinkDown 7 { info0 := event } else s
    else s

/-- PCIE_LINK_TRAINING: the link reaches L0 at a width and speed; out of reset only. -/
def execPcieLinkTraining (width speed : Nat) (s : State) : Host.Outcome State Fault Refusal :=
  .next <|
    if [1, 2, 4, 8].contains width && [4, 5].contains speed && s.power.released && decide (s.pmState ≤ 1) then
      ((s.setFld (peReg 0) 7 4 width).setFld (peReg 0) 3 1 speed).setFld (peReg 0) 0 0 1
    else s

/-! ## PROG_LOAD (R2, R253, R268, R403, R468) -/

/-- Why a Program is refused before it is placed, if it is: the source to raise, if any.
LOG 88 (DESIGN CHOICE). -/
def State.progRefused (s : State) (p : Nat) (g : Program) : Bool × Option Src :=
  if !s.progCheck p g then (true, none)
  else
    let e := ((s.unlock p).lockProgram p g).1
    (e.isSome, e)

/-- The reload image of partition p recorded. -/
def State.setReload (s : State) (p addr len : Nat) (h : Digest) : State :=
  { s with urn := { s.urn with reload := s.urn.reload.filter (fun e => e.1 != p) ++ [(p, addr, len, h)] } }

/-- A Program image read and checked for partition p: started where none runs, kept for the partition's reset where one does.
LOG 88 (DESIGN CHOICE). -/
def State.loadProgram (s : State) (ring idx : Nat) (k : Cmd) (g : Program) : State :=
  let p := k.part
  let addr := k.arg 8 6
  let len := k.arg 0x10 4
  let st := s.recState p
  if 4 ≤ p ∨ len = 0 then s.complete ring idx stInvalid 0 0
  else if st ≠ 5 ∧ (s.resetRec p).isSome = true then s.complete ring idx stRefused 9 0
  else
    let rd := s.memRead .steward addr len
    let s := rd.2
    if rd.1.err.isSome || (st != 0 && st != 1 && st != 5) then s.refuseAny ring idx
    else
      let h := Config.sha512 rd.1.bytes
      let no := s.progRefused p g
      if no.1 then (match no.2 with
        | some e => s.raise e p {}
        | none => s).refuseAny ring idx
      else if (s.prog p).isSome && st != 5 then
        let s := (s.setReload p addr len h).askUncounted p (some (ring, idx))
        { s with nextProg := s.nextProg.filter (fun e => e.1 != p) ++ [(p, g)] }
      else match s.startProgram p g h with
        | (some t, _) =>
          let t := t.setReload p addr len h
          (if st = 5 then (t.setRecState p 0).closeScope p else t).complete ring idx stOk 0 0
        | (none, e) => (match e with
          | some e => s.raise e p {}
          | none => s).refuseAny ring idx

/-- PROG_LOAD. -/
def execProgLoad (ring idx : Nat) (prog : Program) (s : State) : Host.Outcome State Fault Refusal :=
  .next <| match s.mbCmd ring idx 0x03 with
    | some k => if s.lpReady (k.arg 8 6) (max 1 (k.arg 0x10 4)) then (s.begin_ ring idx).loadProgram ring idx k prog else s
    | none => s

/-! ## The service complex (R405, R408, R410) -/

/-- HARTS: partition S enables cores; set bits stay set. -/
def execHarts (r : Requester) (value : Nat) (s : State) : Host.Outcome State Fault Refusal :=
  .next <| match r with
    | .hart _ => s.orReg (stReg 0x5108) (value % 256 / 2 * 2)
    | _ => s

/-- UART_RECEIVE: a character on an enabled UART interrupts partition S.
LOG 91 (DESIGN CHOICE). -/
def execUartReceive (u _ch : Nat) (s : State) : Host.Outcome State Fault Refusal :=
  .next (if decide (u < 2) && bit (fieldAt (s.record 5 7) 1 1) u then s.send (.scIrq (22 + u)) else s)

/-! ## The MACs of partition S (R340, R359, R409, R411) -/

/-- The heads of MAC e's rings. -/
def State.mac (s : State) (e : Nat) : Mac := sparseGet Mac.idle s.macs e
/-- The heads set. -/
def State.setMac (s : State) (e : Nat) (v : Mac) : State := { s with macs := sparsePut Mac.idle s.macs e v }

/-- A register of MAC e. -/
def macReg (e o : Nat) : Nat := ethReg e (0x100 + o)

/-- The ring of MAC e: base and number of descriptors; `tx`: the transmit ring.
LOG 90 (DESIGN CHOICE). -/
def State.macRing (s : State) (e : Nat) (tx : Bool) : Nat × Nat :=
  let o := if tx then 0x18 else 0x08
  (s.rd (macReg e o) + 2 ^ 32 * s.rd (macReg e (o + 4)), s.rd (macReg e (if tx then 0x20 else 0x10)))

/-- The PTP event message in a frame, if it is one (R359): messageType, domainNumber, sequenceId in one word. -/
def ptpId (f : List Byte) : Option Nat :=
  let o := if beAt f 12 2 = 0x8100 then 16 else 12
  let p := f.drop (o + 2)
  if beAt f o 2 = 0x88F7 ∧ (p.getD 0 0).toNat % 16 ≤ 3 then some (beAt p 30 2 * 2 ^ 16 + (p.getD 4 0).toNat * 2 ^ 8 + (p.getD 0 0).toNat % 16) else none

/-- A time stamp of a frame: `lat` as the compensation that the direction asks for.
LOG 90 (DESIGN CHOICE). -/
def State.stampFrame (s : State) (e : Nat) (egress : Bool) (f : List Byte) (age : Nat) : Bool × State :=
  match ptpId f with
  | none => (false, s)
  | some id =>
    let lat : Int := if egress then (s.rd (macReg e 0x2C) : Int) else -(s.rd (macReg e 0x28) : Int)
    (true, s.tsPush e egress { time := ofSigned 64 ((s.timeAgo age : Int) + lat), raw := ofSigned 64 ((s.tb.raw : Int) - age + lat), id := id })

/-- Bytes of a frame into the receive ring of MAC e, descriptor after descriptor while the device owns them; what the ring lacks is lost. -/
def State.rxPut (s : State) (e : Nat) (flags : Nat) : Nat → List Byte → State
  | 0, _ => s
  | fuel + 1, f =>
    let ring := s.macRing e false
    if ring.2 = 0 ∨ f.isEmpty then s
    else
      let a := ring.1 + 16 * ((s.mac e).rx % ring.2)
      let d := s.memRead (.parser e) a 16
      let buf := fieldAt d.1.bytes 0 6
      let cap := fieldAt d.1.bytes 6 2
      if d.1.err.isSome || fieldAt d.1.bytes 8 1 % 2 == 0 || cap == 0 then d.2
      else
        let part := f.take cap
        let rest := f.drop cap
        let w := d.2.memWrite (.parser e) buf part
        let word := (if rest.isEmpty then 2 else 0) + flags
        let s1 := (w.2.memWrite (.parser e) a (leBytes 6 buf ++ leBytes 2 part.length ++ leBytes 8 word)).2
        State.rxPut (s1.setMac e { s1.mac e with rx := (s1.mac e).rx + 1 }) e flags fuel rest

/-- ETH_FRAME: a frame arrives at MAC e: stamped where it is a PTP event, handed to the parser whose template it matches, else to partition
S.
LOG 90 (DESIGN CHOICE). -/
def execEthFrame (e : Nat) (frame : List Byte) (ethInfo : EthInfo) (s : State) : Host.Outcome State Fault Refusal :=
  .next <|
    if e < 4 ∧ bit (s.rd (macReg e 0)) 0 = true ∧ frame.length ≤ 9216 ∧ 14 ≤ frame.length then
      let t := s.timeAgo ethInfo.ageNs
      let q := if ethInfo.crcOk then s.stampFrame e false frame ethInfo.ageNs else (false, s)
      let res := if ethInfo.crcOk && (s.ethOwner e).isSome then parseFrame (s.template e) frame else .other
      match res with
      | .take d => q.2.pointPacket e t d
      | .drop => q.2.parseDrop e
      | .other => (q.2.rxPut e (b2n (!ethInfo.crcOk) * 4 + b2n q.1 * 8) 1024 frame).send (.scIrq (5 + 2 * e))
    else s

/-- The frame at the head of the transmit ring of MAC e: its descriptors, the bytes they name (zeros where they cannot be read).
LOG 147 (DESIGN CHOICE). -/
def State.txGather (s : State) (e : Nat) : Nat → Nat → Option (Nat × List Byte) × State
  | 0, _ => (none, s)
  | fuel + 1, k =>
    let ring := s.macRing e true
    let a := ring.1 + 16 * (((s.mac e).tx + k) % ring.2)
    let d := s.memRead (.parser e) a 16
    let fl := fieldAt d.1.bytes 8 1
    if d.1.err.isSome || fl % 2 == 0 then (none, d.2)
    else
      let b := d.2.memRead (.parser e) (fieldAt d.1.bytes 0 6) (fieldAt d.1.bytes 6 2)
      if bit fl 1 then (some (k + 1, b.1.bytes), b.2)
      else
        let q := State.txGather b.2 e fuel (k + 1)
        (q.1.map fun f => (f.1, b.1.bytes ++ f.2), q.2)

/-- A transmitted descriptor given back. -/
def State.txDone (s : State) (e : Nat) (stamped : Bool) (k : Nat) : State :=
  let ring := s.macRing e true
  let a := ring.1 + 16 * (((s.mac e).tx + k) % ring.2)
  let v := (s.memRead (.parser e) (a + 8) 1).1.bytes
  (s.memWrite (.parser e) (a + 8) (leBytes 1 (leNat v / 2 * 2 % 8 + b2n stamped * 8))).2

/-- MAC_TRANSMIT: the frame at the head of MAC e's transmit ring leaves, stamped where it is a PTP event. -/
def execMacTransmit (e : Nat) (s : State) : Host.Outcome State Fault Refusal :=
  .next <|
    let ring := s.macRing e true
    if e < 4 ∧ bit (s.rd (macReg e 0)) 0 = true ∧ s.macHalt = false ∧ 0 < ring.2 ∧ s.lpReady ring.1 (16 * ring.2) = true then
      let g := s.txGather e (min ring.2 1024) 0
      match g.1 with
      | none => g.2
      | some (n, f) =>
        let q := g.2.stampFrame e true f 0
        let s1 := (List.range n).foldl (fun (s : State) (k : Nat) => s.txDone e q.1 k) q.2
        ((s1.setMac e { s1.mac e with tx := ((s1.mac e).tx + n) % ring.2 }).send (.frame e f)).send (.scIrq (6 + 2 * e))
    else s

end Sys2Proof.Machine
end

