-- ==== Sys2Proof/Machine/RegWrite.lean ====
section
/-! DEFINITION. REGISTER_WRITE and COUNTER_LOW_READ (R9–R11, R19, R21): the checks of width and alignment, the writes that have rows
of their own, the access codes, and accesses that reach local memory or registers whatever they are. -/

namespace Sys2Proof.Machine

/-- The state after an effect. -/
def State.after (s : State) (o : Host.Outcome State Fault Refusal) : State :=
  match o with
  | .next t => t
  | .fault _ => s
  | .refused _ => s

/-- Whether the lock of a register's RWL fields is set: from the owning partition's boot to its reset (in service, in its safe state, or
in the capture before a reset), or since the device's boot.
LOG 14 (DEDUCED). -/
def State.rwlLocked (s : State) (a : Nat) : Bool :=
  let owned := fun (p : Option Nat) => match p with
    | some p => decide (s.recState p ≤ 2)
    | none => false
  if a < devBase then owned (s.ownerOf ((a - clusterBase) / 0x1000000))
  else
    let o := a - devBase
    let u := o % 0x100000 / 0x10000
    if a < urnBase ∧ o / 0x100000 = 1 then owned (some u)
    else if a < urnBase ∧ o / 0x100000 = 5 then owned (s.camOwner u)
    else if a < urnBase ∧ o / 0x100000 = 6 then owned (s.ethOwner u)
    else s.power.released && !s.power.recovery

/-- A word written to a register by the access codes of its fields. -/
def State.codeWrite (s : State) (r : Requester) (a w : Nat) : State :=
  match regRow a with
  | some row =>
    let c := (a - clusterBase) / 0x1000000
    if s.mayWrite row.who r c && !s.unowned a then s.wr a (writeByCode row.fields (s.rwlLocked a) (s.setNow a) (s.rd a) w) else s
  | none => s

/-! ## Writes with an effect of their own -/

/-- A word written to a CL_ register of cluster c. -/
def State.clWrite (s : State) (r : Requester) (c o w : Nat) : State :=
  let a := clReg c o
  if o = 0x200 then
    let t := s.codeWrite r a w
    if bit w 15 then t.setFld a 31 16 0 else t
  else if o = 0x314 then
    match bits w 31 30 with
    | 1 => s.after (execSetFull r c (w % 0x2000) s)
    | 2 => s.after (execSetEmpty r c (w % 0x2000) s)
    | _ => s
  else if 0x500 ≤ o ∧ o < 0x780 then s.after (execBbWindowWrite r c ((o - 0x500) / 0x80) ((o - 0x500) % 0x80 / 0x10) (o % 0x10 / 4) w s)
  else if o = 0x814 then s.after (execArrFlush r c (bits w 10 8) (w % 256) s)
  else if o = 0xA00 then
    let x := bits w 26 24
    match bits w 31 28 with
    | 1 => s.after (execPreempt r c x s)
    | 2 => s.after (execLoad r c x (w % 16) s)
    | 3 => s.after (execTeardown r c x (bit w 4) (w % 16) s)
    | _ => s
  else if o = 0xB24 then s.after (execClSeqWdog r c s)
  else s.codeWrite r a w

/-- A word written to a MOV_ register of cluster c. -/
def State.movWrite (s : State) (r : Requester) (c o w : Nat) : State :=
  let n := (o - 0x100) / 0x20
  if 0x100 ≤ o ∧ o < 0x300 ∧ o % 0x20 = 0 then
    let s := s.after (execMovCtxBind r c n (w % 8) s)
    let s := if bit w 6 then s.after (execMovResume r c n s) else s
    if bit w 7 then s.after (execMovAbort r c n s) else s
  else if 0x100 ≤ o ∧ o < 0x300 ∧ o % 0x20 = 4 then s.after (execMovPush r c n (w % 32) s)
  else if 0x800 ≤ o then s.after (execMovDescWrite r c ((o - 0x800) / 64) (o % 64 / 4) w s)
  else s.codeWrite r (movReg c o) w

/-- A word written to a register of a cluster's blocks. -/
def State.clusterWrite (s : State) (r : Requester) (a w : Nat) : State :=
  let c := (a - clusterBase) / 0x1000000
  let o := (a - clusterBase) % 0x1000000 - 0xF00000
  let b := o % 0x1000
  match o / 0x1000 with
  | 0 => s.clWrite r c b w
  | 1 =>
    if b % 0x200 = 4 then s.after (execArrCtrlStop r c (b / 0x200) w s)
    else if b % 0x200 = 8 then s.after (execArrTileOwnerWrite r c (b / 0x200) w s)
    else s.codeWrite r a w
  | 2 => if 0x100 ≤ b % 0x800 then s.after (execVecChainWrite r c (b / 0x800) (b % 0x800 - 0x100) w s) else s.codeWrite r a w
  | 3 => s.movWrite r c b w
  | 5 => if b = 4 then (if bit w 0 then s.after (execAttResume r c s) else s) else s.codeWrite r a w
  | _ => s.codeWrite r a w

/-- A word written to an ST_ register. -/
def State.stWrite (s : State) (r : Requester) (o w : Nat) : State :=
  let n := (o - 0x5020) / 0x10
  if 0x3000 ≤ o ∧ o < 0x3100 ∧ o % 0x40 = 4 then
    let p := (o - 0x3000) / 0x40
    let s := if bit w 0 then s.after (execClrTiming r p s) else s
    if bit w 1 then s.after (execClrValue r p s) else s
  else if 0x5020 ≤ o ∧ o < 0x50A0 then
    if o % 0x10 = 8 then s.after (execRingCfgWrite r n w s)
    else if s.ownsRing r n then s.codeWrite r (stReg o) w
    else s.notMaster r
  else if o = 0x5108 then s.after (execHarts r w s)
  else if o = 0x6000 then (if s.isMaster r then s.after (execFcAck r w s) else s.notMaster r)
  else if o = 0x6004 then (if s.isMaster r then s.after (execFcSwRaise r w s) else s.notMaster r)
  else if o = 0x600C then s.after (execStSafeCmd r w s)
  else s.codeWrite r (stReg o) w

/-- A word written to a TB_ register. -/
def State.tbWrite (s : State) (r : Requester) (o w : Nat) : State :=
  let a := tbReg o
  let g := (o - 0x100) / 0x20
  let q := (o - 0x100) % 0x20
  if o = 0x28 then s.after (execTbRate r w s)
  else if o = 0x2C then s.after (execTbIncr r w s)
  else if o = 0x30 then (if tbMaySteer r then { s with tb := { s.tb with adjLo := w % 2 ^ 32 } } else s)
  else if o = 0x34 then (if s.fld (tbReg 0x38) 1 0 = 0 then s.after (execJump r w s) else s.after (execSlew r w s))
  else if o = 0x38 then
    (if r = .steward then s.codeWrite r a w else if tbMaySteer r then s.setFld a 1 0 w else s)
  else if o = 0x3C then (if tbMaySteer r then s.codeWrite r a (min (w % 2 ^ 30) 549755813) else s)
  else if o = 0x48 then (if r = .steward then s.codeWrite r a w else s)
  else if 0x100 ≤ o ∧ o < 0x420 then
    (if q < 0x10 then s.after (execGenCfgWrite r g q w s)
    else if q = 0x10 then s.after (execGenEnable r g w s)
    else s.codeWrite r a w)
  else s.codeWrite r a w

/-- A word written to a PM_ register. -/
def State.pmWrite (s : State) (r : Requester) (o w : Nat) : State :=
  if o = 4 then
    match w % 8 with
    | 0 => s.after (execPmStateRun r s)
    | 1 => s.after (execPmStateTrim r s)
    | 2 => s.after (execPmStateWatch r s)
    | 3 => s.after (execPmStateRetain r s)
    | 4 => s.after (execPmStateOff r s)
    | _ => s
  else if o = 0xC then s.after (execPmWakeReq r s)
  else if o = 0xC4 then s.after (execPmGpioOut r w s)
  else if o = 0x90008 then s.after (execPmLrsReq r w s)
  else s.codeWrite r (pmReg o) w

/-- A word written to a register of the device region. -/
def State.devWrite (s : State) (r : Requester) (a w : Nat) : State :=
  let o := a - devBase
  let b := o % 0x100000
  match o / 0x100000 with
  | 0 => s.stWrite r b w
  | 2 => s.tbWrite r b w
  | 3 =>
    if b = 0x10 then (if r = .steward then s.wr a w else s)
    else if b = 0x14 then s.after (execFenceIssue r w s)
    else if 0x100 ≤ b ∧ b < 0x140 ∧ b % 0x10 = 0xC then (s.codeWrite r a w).pfDrain ((b - 0x100) / 0x10) 16
    else s.codeWrite r a w
  | 5 => if b % 0x10000 = 0x50 then s.after (execIngStampOfs r (b / 0x10000) w s) else s.codeWrite r a w
  | 7 =>
    if b = 0xE0008 then (if bit w 0 then s.after (execArm r s) else s)
    else if b < 0x40000 ∧ b % 0x10000 = 8 then (if bit w 0 then s.after (execRetrain r (b / 0x10000) s) else s)
    else s.codeWrite r a w
  | 10 => s.pmWrite r b w
  | _ => s.codeWrite r a w

/-- PE_BAR2_BASE after a write of one of its words: ignored where it is not a multiple of BAR2's size or the window would end above
128 GiB (R391). -/
def State.bar2BaseWrite (s : State) (r : Requester) (a w : Nat) : State :=
  let t := s.codeWrite r a w
  if t.bar2Base % bar2Size = 0 ∧ t.bar2Base + bar2Size ≤ lpddrTop then t else s

/-- A word written to a register of the Urn window. -/
def State.urnWrite (s : State) (r : Requester) (o w : Nat) : State :=
  let a := urnReg o
  if o = 0x8004 then s.after (execFcAck r w s)
  else if o = 0x8008 then s.after (execFcSwRaise r w s)
  else if o = 0xA00C then
    (if r = .steward then
      let s := s.wr a w
      if s.fwState = 3 then { s with urn := { s.urn with fwHb := true } } else s
    else s)
  else if o = 0xA018 then (if bit w 27 then s.after (execConfirm r s) else s)
  else if o = 0xC004 then
    (let s := s.after (execUrnSafeCmdParts r (w % 16) s)
    if bit w 31 then s.after (execUrnSafeCmdDevice r s) else s)
  else if 0x40000 ≤ o ∧ o < 0x40050 then
    (let p := (o - 0x40000) / 0x10
    if !s.mayPublish r p then s
    else if o % 0x10 = 8 then s.after (execUrnAgePub r p w s)
    else s.wr a w)
  else s.codeWrite r a w

/-- A word written to a register of the Caddy window.
LOG 17 (DESIGN CHOICE). -/
def State.cadWrite (s : State) (r : Requester) (o w : Nat) : State :=
  if o = 0x300 then s.after (execCadExtCmd r w s)
  else if 0x340 ≤ o then
    (if r = .steward ∨ (match r with
        | .hart _ => true
        | _ => false) = true then s.wr (cadReg o) w else s.orReg (cadReg 4) (2 ^ 31))
  else s.codeWrite r (cadReg o) w

/-- A word written to a register at its canonical address. -/
def State.writeReg (s : State) (r : Requester) (a value : Nat) : State :=
  let w := value % 2 ^ 32
  if a < devBase then s.clusterWrite r a w
  else if a = peReg 8 ∨ a = peReg 0xC then s.bar2BaseWrite r a w
  else if a < urnBase then s.devWrite r a w
  else if a < cadBase then s.urnWrite r (a - urnBase) w
  else s.cadWrite r (a - cadBase) w

/-! ## Accesses to a local address, register or memory (R19) -/

/-- A register written with 4 bytes, or with 8 in two accesses, the lower address first (R9); a mirror takes the write without effect
(R21), but for the record of a denied extension (R493).
LOG 12 (DESIGN CHOICE). -/
def State.regWrite (s : State) (r : Requester) (addr width value : Nat) : Option AccErr × State :=
  match s.mapped addr width, regionOf addr with
  | true, .reg a mirror =>
    if mirror then (none, if a = cadReg 0x300 ∨ cadReg 0x340 ≤ a then s.orReg (cadReg 4) (2 ^ 31) else s)
    else
      let s := s.writeReg r a value
      (none, if width = 8 then s.writeReg r (canonReg (addr + 4)).1 (value / 2 ^ 32) else s)
  | _, _ => (some .unmapped, s.raiseReq .addrUnmapped r addr)

/-- A register read with 4 bytes, or with 8 in two accesses.
LOG 12 (DESIGN CHOICE). -/
def State.regRead (s : State) (r : Requester) (addr width : Nat) : RdRes × State :=
  match s.mapped addr width, regionOf addr with
  | true, .reg a _ =>
    let lo := s.readReg a
    if width = 8 then
      let hi := lo.2.readReg (canonReg (addr + 4)).1
      (⟨leBytes 4 lo.1 ++ leBytes 4 hi.1, none⟩, hi.2)
    else (⟨leBytes 4 lo.1, none⟩, lo.2)
  | _, _ => (⟨List.replicate width 0, some .unmapped⟩, s.raiseReq .addrUnmapped r addr)

/-- Whether an address is a register's. -/
def isReg (addr : Nat) : Bool :=
  match regionOf addr with
  | .reg _ _ => true
  | _ => false

/-- Bytes written to accumulator memory of an idle array word by word (R81). -/
def State.accBytes (s : State) (r : Requester) (c o : Nat) (l : List Byte) : Option AccErr × State :=
  let lo := o / 8
  let n := ceilDiv (o + l.length) 8 - lo
  (List.range n).foldl (fun (q : Option AccErr × State) (k : Nat) =>
    let w := lo + k
    let be := ((List.range 8).map fun i => b2n (decide (o ≤ 8 * w + i) && decide (8 * w + i < o + l.length)) * 2 ^ i).foldl (· + ·) 0
    let v := leNat ((List.range 8).map fun i => if o ≤ 8 * w + i then l.getD (8 * w + i - o) 0 else 0)
    let e := q.2.accWrite r c (w / 0x2000) (w % 0x2000 / 0x400) (w % 0x400) v be
    (q.1.orElse fun _ => e.1, e.2)) (none, s)

/-- A write of any local address. -/
def State.localWrite (s : State) (r : Requester) (addr : Nat) (l : List Byte) : Option AccErr × State :=
  match regionOf addr with
  | .reg _ _ => s.regWrite r addr l.length (leNat l)
  | .accum c o => if s.mapped addr l.length then s.accBytes r c o l else (some .unmapped, s.raiseReq .addrUnmapped r addr)
  | _ => s.memWrite r addr l

/-- A read of any local address. -/
def State.localRead (s : State) (r : Requester) (addr n : Nat) : RdRes × State :=
  if isReg addr then s.regRead r addr n else s.memRead r addr n

/-! ## Stores into the compute region from outside (R23, R278) -/

/-- The staging source of a requester outside the compute region (Table 12-5): Spout ports 20–23, PCI Express 24, the service complex 25.
LOG 16 (DESIGN CHOICE). -/
def stagingSrc (r : Requester) : Option Nat :=
  match r with
  | .spout n => some (20 + n)
  | .pcie => some 24
  | .hart _ => some 25
  | _ => none

/-- The perception partition whose compute region a local address lies in: its clusters, pool banks and work counters; LPDDR6 is
outside.
LOG 16 (DESIGN CHOICE). -/
def State.computePart (s : State) (addr : Nat) : Option Nat :=
  match s.memOwner addr with
  | some p => if p < 4 ∧ ¬addr < lpddrTop then some p else none
  | none => none

/-! ## The commands -/

/-- Whether a requester may make an access: a cluster unit by the windows of its context, a core by the S windows, all others
unchecked (R122, R124, R406). -/
def State.grants (s : State) (r : Requester) (ga n : Nat) (right : Right) : Bool :=
  match r with
  | .hart _ => s.swinOk ga n right
  | _ => s.reqWindowOk r ga n right

/-- The reaction to a failed window check (R123, R406). -/
def State.denied (s : State) (r : Requester) (ga : Nat) : State :=
  match r with
  | .hart _ => (s.raiseReq .bbViolation r ga).answer r .error []
  | _ => s.reqViolation r ga

/-- The completion of a register write; a write of the PCI Express host is posted and has none (R115).
LOG 12 (DESIGN CHOICE). -/
def State.wrote (s : State) (r : Requester) (st : RespStatus) : State := if r = .pcie then s else s.answer r st []

/-- A register write after the checks of its requester: staged where it enters a partition's compute region from outside, performed
otherwise.
LOG 15 (DESIGN CHOICE). -/
def State.regRequest (s : State) (r : Requester) (addr width value : Nat) : State :=
  match (if isReg addr && s.mapped addr width then stagingSrc r else none), s.computePart (match regionOf addr with
      | .reg a _ => a
      | _ => addr) with
  | some src, some p =>
    let q := s.stagePut p src { req := r, addr := 127 * 2 ^ 41 + addr, tagged := false, kind := .write (leBytes width value) } none
    if q.1 then q.2.wrote r .ok else s
  | _, _ =>
    let w := s.regWrite r addr width value
    (w.2.failTask r w.1).wrote r (respOf r w.1)

/-- REGISTER_WRITE: an aligned write of 4 or 8 bytes; any other width or alignment is unmapped.
LOG 16 (DESIGN CHOICE). -/
def execRegisterWrite (r : Requester) (addr width value : Nat) (s : State) : Host.Outcome State Fault Refusal :=
  .next <|
    if r = .pcie ∧ bit (s.rd (peReg 0)) 0 = false then s
    else if r = .pcie ∧ s.isMaster r = false then s.notMaster r
    else if !s.grants r (127 * 2 ^ 41 + addr) width .write then s.denied r (127 * 2 ^ 41 + addr)
    else s.regRequest r addr width value

/-- COUNTER_LOW_READ: a read of the low word of a pair latches the high word for the next read of it. -/
def execCounterLowRead (r : Requester) (addr : Nat) (s : State) : Host.Outcome State Fault Refusal :=
  .next <|
    if r = .pcie ∧ bit (s.rd (peReg 0)) 0 = false then s
    else if !s.grants r (127 * 2 ^ 41 + addr) 4 .read then s.denied r (127 * 2 ^ 41 + addr)
    else
      let v := s.regRead r addr 4
      (v.2.failTask r v.1.err).answer r (respOf r v.1.err) v.1.bytes

end Sys2Proof.Machine
end

