-- ==== Sys2Proof/Machine/SpoutIn.lean ====
section
/-! DEFINITION. Accesses as one operation, staged writes performed (R278), and what arrives over Spout (R366, R370–R376, R386, R387). -/

namespace Sys2Proof.Machine

/-! ## One access at a local address -/

/-- The scratchpad slots that [a, a + n) touches. -/
def slotsOf (a n : Nat) : List (Nat × Nat) :=
  match regionOf a with
  | .scratch c o => (List.range ((o + max 1 n + 255) / 256 - o / 256)).map fun k => (c, o / 256 + k)
  | _ => []

/-- The bytes an access moves. -/
def accessLen (a : Access) : Nat :=
  match a.kind with
  | .read n => n
  | .write l => l.length
  | .atomic op _ _ => atomicLen op
  | .signal _ => 8
  | .set _ => 8

/-- Whether an access at local address x need not wait: its channels are in service and, where it is tagged, its slots are full for a
read, empty for a write (Table 05-2). -/
def State.accessReady (s : State) (x : Nat) (a : Access) : Bool :=
  let n := accessLen a
  s.lpReady x n && (!a.tagged || (match a.kind with
    | .read _ => (slotsOf x n).all fun e => s.full e.1 e.2
    | .write _ => (slotsOf x n).all fun e => !s.full e.1 e.2
    | _ => true))

/-- The tags of the slots of [x, x + n) set. -/
def State.tagRange (s : State) (x n : Nat) (b : Bool) : State := (slotsOf x n).foldl (fun s e => s.setTag e.1 e.2 b) s

/-- An access performed at a local address: what it returns, and why it was not performed. -/
def State.access (s : State) (x : Nat) (a : Access) : (List Byte × Option AccErr) × State :=
  match a.kind with
  | .read n =>
    let q := s.localRead a.req x n
    ((q.1.bytes, q.1.err), if a.tagged && !a.keep && q.1.err.isNone then q.2.tagRange x n false else q.2)
  | .write l =>
    let q := s.localWrite a.req x l
    (([], q.1), if a.tagged && q.1.isNone then q.2.tagRange x l.length true else q.2)
  | .atomic op operand expected =>
    let q := s.reqAtomic a.req op x operand expected
    ((leBytes (atomicLen op) q.1.1, q.1.2), q.2)
  | .signal inc =>
    let q := s.signalLocal a.req x inc
    (([], q.1), q.2)
  | .set v =>
    let q := s.setLocal a.req x v
    (([], q.1), q.2)

/-- The right an access needs. -/
def accessRight (a : Access) : Right :=
  match a.kind with
  | .read _ => .read
  | .write _ => .write
  | .set _ => .write
  | _ => .atomic

/-! ## Answers to other chips -/

/-- Whether the device is in boot routing (R387): the master is on Spout and no routing record has given this chip its ID.
LOG 80 (DESIGN CHOICE). -/
def State.bootRouting (s : State) : Bool := bit (s.rd (peReg 0)) 31 && s.selfId == 0x7F

/-- A response to a request that came in on port n: by its route, or straight back on port 0 in boot routing. -/
def State.spAnswer (s : State) (n : Nat) (q : SpoutPacket) (kind : Nat) (data : List Byte) : State :=
  let p : SpoutPacket := { q with kind := kind, cls := 2, vc := 0, ttl := 15, dest := q.src, src := s.selfId, len := data.length, payload := data }
  if s.bootRouting then (if s.portUp n then s.transmit n p else s) else s.originate p

/-- The answer to an access of a request packet. -/
def State.spReply (s : State) (n : Nat) (q : SpoutPacket) (data : List Byte) (err : Option AccErr) : State :=
  if err.isSome then s.spAnswer n q kError []
  else if q.kind = kRead ∨ q.kind = kAtomic ∨ q.kind = kWatch then s.spAnswer n q kData data
  else s.spAnswer n q kAck []

/-! ## Staged writes (R278) -/

/-- A packet's access without its tag where the packet's operation field says so (`op`): 1 checks the tag but leaves it, 2 sets it without
a check. The field tells the pieces of one slot apart, which R116 admits together. -/
def untag (reply : Option (Nat × SpoutPacket)) (op : Nat) (a : Access) : Access :=
  match reply with
  | some (_, pkt) => { a with tagged := a.tagged && pkt.atomicOp != op }
  | none => a

/-- A staged entry performed and answered: a packet by its response, a core's atomic operation by its old value. -/
def State.perform (s : State) (e : Staged) : State :=
  match s.localOf e.acc.addr with
  | none => s
  | some x =>
    let q := s.access x (untag e.reply 1 e.acc)
    match e.reply, e.acc.req, e.acc.kind with
    | some (n, pkt), _, _ => q.2.spReply n pkt q.1.1 q.1.2
    | none, .hart h, .atomic _ _ _ => q.2.answer (.hart h) (respOf (.hart h) q.1.2) q.1.1
    | none, _, _ => q.2

/-- Whether a staged entry can land now. -/
def State.stagedReady (s : State) (e : Staged) : Bool :=
  match s.localOf e.acc.addr with
  | some x => s.accessReady x (untag e.reply 2 e.acc)
  | none => true

/-- The 64-byte pieces a staged entry takes on the network.
LOG 64 (DESIGN CHOICE). -/
def stagedPieces (e : Staged) : Nat := max 1 (ceilDiv (accessLen e.acc) 64)

/-- The released entries of a queue performed in order, until one does not fit or cannot land.
LOG 65 (DEDUCED). -/
def State.inject (s : State) (cap : Nat) : List Staged → List Staged × State
  | [] => ([], s)
  | e :: rest =>
    if e.released && decide (stagedPieces e ≤ cap) && s.stagedReady e then (s.perform e).inject (cap - stagedPieces e) rest
    else (e :: rest, s)

/-- The edge router of a staging source (Table 01-3). -/
def stagingRouter (src : Nat) : Nat := if src < 16 then 88 + src / 4 else if src < 20 then 91 else if src < 24 then 93 else 94

/-- The network ticks of [lo, hi) whose slot at a router is reserved for what partition p injects there.
LOG 65 (DEDUCED). -/
def State.injectSlots (s : State) (p router lo hi : Nat) : Nat :=
  ((List.range 256).map fun t =>
    let v := s.rd (stReg (0x40000 + router * 0x400 + 4 * t))
    let mine := popCount v 32 % 2 == 0 && (List.range 5).any fun o => slotReserves v o 4 p
    if mine then (hi + 255 - t) / 256 - (lo + 255 - t) / 256 else 0).foldl (· + ·) 0

/-- INJECTION_STOP: the released writes that fitted have landed; the rest stay first in the queue and are counted.
LOG 65 (DEDUCED). -/
def execInjectionStop (p src : Nat) (s : State) : Host.Outcome State Fault Refusal :=
  .next <| match (s.dsp p).injecting.find? fun e => e.1 == src with
    | some (_, t, stop) =>
      if stop ≤ s.ct then
        let d := s.dsp p
        let s := s.setDsp p { d with injecting := d.injecting.filter fun e => e.1 != src }
        let q := s.inject (s.injectSlots p (stagingRouter src) (2 * (t + 1)) (2 * stop)) (s.stage p src)
        (q.2.setStage p src q.1).countUp (btReg p 0x24) (q.1.filter (·.released)).length
      else s
    | none => s

/-! ## Arriving packets -/

/-- The request an arriving packet carries. -/
def packetAccess (n : Nat) (q : SpoutPacket) : Access :=
  let kind : AccessKind :=
    if q.kind = kRead then .read q.len
    else if q.kind = kAtomic then .atomic ((atomicOf q.atomicOp).getD .add) (leNat (q.payload.take 8)) (leNat ((q.payload.drop 8).take 8))
    else if q.kind = kSignal then (if q.atomicOp = 1 then .set (leNat (q.payload.take 8)) else .signal (leNat (q.payload.take 4)))
    else .write q.payload
  { req := .spout n, addr := 127 * 2 ^ 41 + q.addr % 2 ^ 41, tagged := q.tagged, kind := kind }

/-- A packet for this chip that its port's owner may not send (R374): ERROR and SP_INBOUND_REJECT.
LOG 79 (DESIGN CHOICE). -/
def State.spReject (s : State) (n : Nat) (q : SpoutPacket) : State :=
  (s.raiseSp .spInboundReject n { info0 := q.src, info1 := q.req }).spAnswer n q kError []

/-- A request staged for partition p, or performed at once where no dispatcher releases it; false where it is held off. -/
def State.spStage (s : State) (n : Nat) (p : Option Nat) (q : SpoutPacket) : Bool × State :=
  let a := packetAccess n q
  let now : Bool × State :=
    if s.stagedReady { at_ := s.ct, acc := a, reply := some (n, q), released := true } then
      (true, s.perform { at_ := s.ct, acc := a, reply := some (n, q), released := true })
    else (false, s)
  match p with
  | some p => if p < 4 then s.stagePut p (20 + n) a (some (n, q)) else now
  | none => now

/-- A read served on arrival; false where it must wait.
LOG 78 (DESIGN CHOICE). -/
def State.spServe (s : State) (n : Nat) (q : SpoutPacket) : Bool × State :=
  let a := packetAccess n q
  let x := q.addr % 2 ^ 41
  if s.accessReady x (untag (some (n, q)) 2 a) then
    let r := s.access x (untag (some (n, q)) 1 a)
    (true, r.2.spReply n q r.1.1 r.1.2)
  else (false, s)

/-- Whether a packet is an access of the controlling master (R386). -/
def State.masterPacket (s : State) (n : Nat) (q : SpoutPacket) : Bool :=
  let x := q.addr % 2 ^ 41
  n == 0 && bit (s.rd (peReg 0)) 31 && q.req == 0x200 && q.src == s.peerId 0 && (q.kind == kRead || q.kind == kWrite) &&
  (decide (x < lpddrTop) || (decide (devBase ≤ x) && decide (x < devBase + 0x4000000)))

/-- A master access: a read served, a write staged where its address belongs to a perception partition. -/
def State.masterIn (s : State) (n : Nat) (q : SpoutPacket) : Bool × State :=
  let x := q.addr % 2 ^ 41
  if q.kind = kRead then s.spServe n q
  else s.spStage n (match regionOf x with
    | .reg a _ => s.memOwner a
    | _ => s.memOwner x) q

/-- A WATCH or UNWATCH of another chip on a pool word: the watch recorded or removed, the word's value answered. -/
def State.spWatch (s : State) (n : Nat) (q : SpoutPacket) : Bool × State :=
  let x := q.addr % 2 ^ 41
  let ga := 127 * 2 ^ 41 + x
  if (s.poolWord ga).isNone then (true, s.spReject n q)
  else
    let rd := s.memRead (.spout n) x 8
    let drop := fun (s : State) => ({ s with watches := s.watches.filter fun (w : Watch) => !(w.addr == ga && (match w.remote with
      | some p => p.src == q.src && p.req == q.req
      | none => false)) } : State)
    if q.atomicOp = 1 then (true, (drop rd.2).spReply n q rd.1.bytes rd.1.err)
    else if s.sliceFull x || rd.1.err.isSome then (true, rd.2.spReply n { q with atomicOp := 1 } rd.1.bytes rd.1.err)
    else
      let t := { rd.2 with watches := rd.2.watches ++ [({ addr := ga, cluster := 0, ctx := 0, slot := none, remote := some q } : Watch)] }
      (true, t.spReply n q rd.1.bytes none)

/-- A WAKE of another chip: its word's waiters here are woken, and the Steward watches again for its slots. -/
def State.spWake (s : State) (q : SpoutPacket) : State :=
  let ga := q.src * 2 ^ 41 + q.addr % 2 ^ 41
  let waiting := (List.range s.nClusters).flatMap fun c => ((List.range 4).filter fun x => (s.ctx c x).watching && (match (s.ctx c x).wait with
    | some w => w.1 == ga
    | none => false)).map fun x => ({ addr := ga, cluster := c, ctx := x, slot := none, remote := none } : Watch)
  let s1 : State := { s with wakes := s.wakes ++ waiting }
  if s.watches.any fun w => w.addr == ga && w.slot.isSome then
    (s1.spSend .steward false { kind := kWatch, dest := q.src, len := 0, op := 0, tagged := false, addr := q.addr % 2 ^ 41, payload := [], cmd := none }).2
  else s1

/-- A packet dropped at port n. -/
def State.spDrop (s : State) (n : Nat) : State := s.countUp (spReg n 0x1C) 1

/-- The address whose owner a packet's address belongs to: of a register its canonical address. -/
def homeOf (x : Nat) : Nat :=
  match regionOf x with
  | .reg a _ => a
  | _ => x

/-- A request packet for this chip; false where it is held off.
LOG 78 (DESIGN CHOICE). -/
def State.spRequest (s : State) (n : Nat) (q : SpoutPacket) : Bool × State :=
  if s.masterPacket n q then s.masterIn n q
  else if s.bootRouting then (true, s.spDrop n)
  else if q.kind = kWake then (true, s.spWake q)
  else
    let owner := s.spOwner n
    let mine := owner.isSome && s.memOwner (homeOf (q.addr % 2 ^ 41)) == owner
    if !mine then (true, s.spReject n q)
    else if (match owner with
      | some p => s.scopeStopped p
      | none => false) then (true, s.spAnswer n q kError [])
    else if q.kind = kWatch then s.spWatch n q
    else if q.kind = kRead then s.spServe n q
    else if q.kind = kAtomic ∧ (atomicOf q.atomicOp).isNone = true then (true, s.spAnswer n q kError [])
    else s.spStage n owner q

/-- A packet for another chip: routed on, or dropped (R370); a reserved chip ID is an unmapped access (R22).
LOG 79, 166 (DEDUCED, DESIGN CHOICE). -/
def State.transit (s : State) (n : Nat) (q : SpoutPacket) : State :=
  if s.bootRouting then s.spDrop n
  else if 96 ≤ q.dest then
    let t := s.raiseReq .chipIdInvalid (.spout n) (q.dest * 2 ^ 41 + q.addr % 2 ^ 41)
    if q.kind ≤ kWake then t.spAnswer n q kError [] else t.spDrop n
  else if q.ttl = 0 then (s.spDrop n).raiseSp .spTtlDrop n { info0 := q.dest, info1 := q.src }
  else match s.routeOf q.dest with
    | none => (s.spDrop n).raiseSp .spNoRoute n { info0 := q.dest, info1 := q.src }
    | some m =>
      if s.portUp m then
        s.transmit m (if bit (s.portCfg n) 1 == bit (s.portCfg m) 1 then q else { q with vc := 0 })
      else s.spDrop m

/-- A packet of the Spout block itself, for the neighbour. -/
def State.spBlock (s : State) (n : Nat) (q : SpoutPacket) : State :=
  if q.kind = kCalib then s.calib n q
  else if q.kind = kArrive then (if s.barChildren.contains n then s.arriveIn n q else s)
  else if q.kind = kGo then (if n = s.barParent then s.goIn n q else s)
  else s

/-- A packet arrives at port n; false where the port holds it off.
LOG 79 (DESIGN CHOICE). -/
def State.arrivePacket (s : State) (n : Nat) (q : SpoutPacket) : Bool × State :=
  let s := s.count64Hold (spReg n 0x28) (16 + q.payload.length)
  let here := q.dest == 127 || q.dest == s.selfId
  if decide (kIdent ≤ q.kind) && decide (q.kind ≤ kGo) then (true, s.spBlock n q)
  else if !(decide (kWrite ≤ q.kind) && decide (q.kind ≤ kWake) || decide (kAck ≤ q.kind) && decide (q.kind ≤ kError)) then (true, s.spDrop n)
  else if !here then (true, s.transit n q)
  else if kAck ≤ q.kind then (true, s.response n q)
  else s.spRequest n q

/-- A packet of a given kind at port n; one that is held off changes nothing. -/
def State.spArrival (s : State) (n kind : Nat) (q : SpoutPacket) : State :=
  if s.portUp n && q.kind == kind then
    let r := s.arrivePacket n q
    if r.1 then r.2 else s
  else s

/-! ## Link blocks (R366) -/

/-- The packets of a block delivered in order; false where one is held off.
LOG 77 (DESIGN CHOICE). -/
def State.deliverAll (s : State) (n : Nat) (l : List SpoutPacket) : Bool × State :=
  l.foldl (fun (acc : Bool × State) (q : SpoutPacket) =>
    if acc.1 then acc.2.arrivePacket n q else acc) (true, s)

/-- A block received: up to five symbol errors are corrected; a block whose CRC fails asks for a replay, the eighth in a row for one block
takes the port down; blocks after a failed one are discarded until the replay.
LOG 77 (DESIGN CHOICE). -/
def State.linkBlock (s : State) (n : Nat) (b : LinkBlock) : State :=
  let p := s.port n
  let good := b.crcOk && decide (b.symbolErrors ≤ 5)
  let s := if 1 ≤ b.symbolErrors ∧ b.symbolErrors ≤ 5 then s.countUp (spReg n 0x14) 1 else s
  if p.replaying && b.seq != p.rxNext then s
  else if good && b.seq == p.rxNext then
    let t := s.setPort n { p with rxNext := (p.rxNext + 1) % 2 ^ 16, replaying := false, replays := 0 }
    let r := t.deliverAll n b.packets
    if r.1 then r.2 else s
  else if 8 ≤ p.replays + 1 then s.linkDown n
  else (s.setPort n { p with replaying := true, replays := p.replays + 1 }).send (.replay n p.rxNext)

/-- LINK_BLOCK. -/
def execLinkBlock (n : Nat) (b : LinkBlock) (s : State) : Host.Outcome State Fault Refusal :=
  .next (if s.portUp n then s.linkBlock n b else s)

/-- REPLAY_REQUEST: the sender replays from a block that its replay buffer holds. -/
def execReplayRequest (n seq : Nat) (s : State) : Host.Outcome State Fault Refusal :=
  .next <|
    let l := (s.port n).buf.dropWhile fun e => e.1 != seq
    if s.portUp n && !l.isEmpty then
      let s := s.countUp (spReg n 0x18) 1
      { s with out := s.out ++ l.map fun e => .packet n e.2 }
    else s

/-- SPOUT_WRITE. -/
def execSpoutWrite (n : Nat) (pkt : SpoutPacket) (s : State) : Host.Outcome State Fault Refusal := .next (s.spArrival n kWrite pkt)
/-- SPOUT_READ. -/
def execSpoutRead (n : Nat) (pkt : SpoutPacket) (s : State) : Host.Outcome State Fault Refusal := .next (s.spArrival n kRead pkt)
/-- SPOUT_ATOMIC. -/
def execSpoutAtomic (n : Nat) (pkt : SpoutPacket) (s : State) : Host.Outcome State Fault Refusal := .next (s.spArrival n kAtomic pkt)
/-- SPOUT_SIGNAL. -/
def execSpoutSignal (n : Nat) (pkt : SpoutPacket) (s : State) : Host.Outcome State Fault Refusal := .next (s.spArrival n kSignal pkt)
/-- ACK. -/
def execAck (n : Nat) (pkt : SpoutPacket) (s : State) : Host.Outcome State Fault Refusal := .next (s.spArrival n kAck pkt)
/-- DATA. -/
def execData (n : Nat) (pkt : SpoutPacket) (s : State) : Host.Outcome State Fault Refusal := .next (s.spArrival n kData pkt)
/-- ERROR. -/
def execError (n : Nat) (pkt : SpoutPacket) (s : State) : Host.Outcome State Fault Refusal := .next (s.spArrival n kError pkt)

/-! ## Accesses of other clusters and of the service complex -/

/-- The packet that carries an access to another chip. -/
def accessSend (a : Access) : SpSend :=
  let base : SpSend := { kind := kRead, dest := a.addr / 2 ^ 41, len := 0, op := 0, tagged := a.tagged, addr := a.addr % 2 ^ 41, payload := [], cmd := none }
  match a.kind with
  | .read n => { base with len := n }
  | .write l => { base with kind := kWrite, len := l.length, payload := l }
  | .atomic op x e => { base with kind := kAtomic, len := 16, op := atomicCode op, payload := leBytes 8 x ++ leBytes 8 e }
  | .signal inc => { base with kind := kSignal, len := 4, payload := leBytes 4 inc }
  | .set v => { base with kind := kSignal, len := 8, op := 1, payload := leBytes 8 v }

/-- An access sent to another chip; one that cannot be sent completes with an error response and aborts its task. -/
def State.sendAccess (s : State) (a : Access) : State :=
  let q := s.spSend a.req (a.req.ctx == some 4) (accessSend a)
  match q.1 with
  | some _ => q.2
  | none => (q.2.failTask a.req (some .unmapped)).answer a.req .error []

/-- An access performed and answered. -/
def State.serveAccess (s : State) (x : Nat) (a : Access) : State :=
  if s.accessReady x a then
    let q := s.access x a
    (q.2.failTask a.req q.1.2).answer a.req (respOf a.req q.1.2) q.1.1
  else s

/-- REMOTE_ACCESS: a unit of a cluster reaches another cluster's scratchpad, accumulators, counters or registers, tagged or plain, or
another chip. -/
def execRemoteAccess (a : Access) (s : State) : Host.Outcome State Fault Refusal :=
  .next <|
    if a.req.cluster.isNone then s
    else if !s.reqWindowOk a.req a.addr (accessLen a) (accessRight a) then s.reqViolation a.req a.addr
    else match s.localOf a.addr with
      | some x => if clusterBase ≤ x ∧ x < clusterBase + 0x40000000 then s.serveAccess x a else s
      | none => s.sendAccess a

/-! ## The L2 of the service complex (R405, R407)

The cores see LPDDR6 outside the compute regions through the L2; every other requester sees memory. -/

/-- The bytes of an L2 line.
LOG 163 (DESIGN CHOICE). -/
def l2Bytes : Nat := 64

/-- The lines that [a, a + n) touches. -/
def l2LinesOf (a n : Nat) : List Nat := (List.range ((a + max 1 n + l2Bytes - 1) / l2Bytes - a / l2Bytes)).map fun k => (a / l2Bytes + k) * l2Bytes

/-- A line leaves the L2: a dirty one is written to memory first. -/
def State.l2Evict (s : State) (a : Nat) : State :=
  let t := match s.l2.find? fun e => e.addr == a with
    | some e => if e.dirty then (s.localWrite (.hart 0) a e.bytes).2 else s
    | none => s
  { t with l2 := t.l2.filter fun e => e.addr != a }

/-- Room for one more line: which line leaves, and whether one leaves before the 4 MiB are full, is a free value.
LOG 163 (DESIGN CHOICE). -/
def State.l2Room (s : State) : State :=
  let w := (Config.freeWord s.fresh).toNat
  let full := decide (0x400000 ≤ l2Bytes * s.l2.length)
  match s.l2[w / 2 % max 1 s.l2.length]? with
  | some e => if full || bit w 0 then s.draw.l2Evict e.addr else s.draw
  | none => s.draw

/-- The line at address a present in the L2, or why it could not be filled. -/
def State.l2Fill (s : State) (h a : Nat) : Option AccErr × State :=
  if s.l2.any fun e => e.addr == a then (none, s)
  else
    let q := s.l2Room.localRead (.hart h) a l2Bytes
    (q.1.err, if q.1.err.isSome then q.2 else { q.2 with l2 := q.2.l2 ++ [({ addr := a, bytes := q.1.bytes, dirty := false } : L2Line)] })

/-- Every line of [a, a + n) present, or the first reason against it. -/
def State.l2FillAll (s : State) (h a n : Nat) : Option AccErr × State :=
  (l2LinesOf a n).foldl (fun acc l => if acc.1.isSome then acc else acc.2.l2Fill h l) (none, s)

/-- The byte of the L2 at address a; 0 where no line has it. -/
def State.l2Byte (s : State) (a : Nat) : Byte :=
  match s.l2.find? fun e => e.addr == a / l2Bytes * l2Bytes with
  | some e => e.bytes.getD (a % l2Bytes) 0
  | none => 0

/-- The bytes [a, a + n) as the L2 holds them. -/
def State.l2Read (s : State) (a n : Nat) : List Byte := (List.range n).map fun i => s.l2Byte (a + i)

/-- The bytes of a written into the lines that hold them, which become dirty. -/
def State.l2Put (s : State) (a : Nat) (l : List Byte) : State :=
  { s with l2 := s.l2.map fun e =>
      if decide (a < e.addr + l2Bytes) && decide (e.addr < a + l.length) then
        { e with dirty := true, bytes := e.bytes.zipIdx.map fun b => if a ≤ e.addr + b.2 then l.getD (e.addr + b.2 - a) b.1 else b.1 }
      else e }

/-- Lines cleaned: dirty ones written to memory, kept clean. -/
def State.l2Clean (s : State) (lines : List Nat) : State :=
  lines.foldl (fun s a =>
    match s.l2.find? fun e => e.addr == a && e.dirty with
    | some e =>
      let t := (s.localWrite (.hart 0) a e.bytes).2
      { t with l2 := t.l2.map fun q => if q.addr = a then { q with dirty := false } else q }
    | none => s) s

/-- Lines dropped from the L2 without a write. -/
def State.l2Drop (s : State) (lines : List Nat) : State := { s with l2 := s.l2.filter fun e => !lines.contains e.addr }

/-- A Zicbom instruction on the lines of [a, a + n). -/
def State.l2Cbo (s : State) (op : CacheOp) (a n : Nat) : State :=
  let l := l2LinesOf a n
  match op with
  | .inval => s.l2Drop l
  | .clean => s.l2Clean l
  | .flush => (s.l2Clean l).l2Drop l

/-- An access of core h to cacheable memory: loads and stores meet the L2, an atomic operation memory once the L2 has given its lines up.
LOG 163 (DESIGN CHOICE). -/
def State.cached (s : State) (h x : Nat) (a : Access) : State :=
  let n := accessLen a
  if !s.lpReady x n then s
  else match a.kind with
    | .read _ =>
      let q := s.l2FillAll h x n
      q.2.answer (.hart h) (respOf (.hart h) q.1) (if q.1.isSome then [] else q.2.l2Read x n)
    | .write l =>
      let q := s.l2FillAll h x n
      (if q.1.isSome then q.2 else q.2.l2Put x l).answer (.hart h) (respOf (.hart h) q.1) []
    | _ => (s.l2Cbo .flush x n).serveAccess x a

/-- SC_ACCESS: a core of a partition S that has booted (R405), core 0 or one that HARTS enables; its access is checked against the S windows; a store or atomic operation into a perception partition's compute region
waits in S's staging queue, an access to other LPDDR6 goes through the L2, everything else is served; `cache` is a Zicbom instruction on the
lines of the access instead of the access itself.
LOG 15, 163 (DESIGN CHOICE). -/
def execScAccess (h : Nat) (a : Access) (cache : Option CacheOp) (s : State) : Host.Outcome State Fault Refusal :=
  .next <|
    let a : Access := { a with req := .hart h }
    if 8 ≤ h ∨ 3 ≤ s.recState 4 ∨ (h ≠ 0 ∧ bit (s.rd (stReg 0x5108)) h = false) then s
    else if cache.isSome && s.swinOk a.addr (accessLen a) .write then
      match cache, s.localOf a.addr with
      | some op, some x => (s.l2Cbo op x (accessLen a)).answer (.hart h) .ok []
      | _, _ => s.answer (.hart h) .ok []
    else if cache.isSome then (s.raiseReq .bbViolation (.hart h) a.addr).answer (.hart h) .error []
    else if !s.swinOk a.addr (accessLen a) (accessRight a) then (s.raiseReq .bbViolation (.hart h) a.addr).answer (.hart h) .error []
    else match s.localOf a.addr with
      | none => s.sendAccess a
      | some x =>
        let dest := s.computePart (homeOf x)
        let store := match a.kind with
          | .read _ => false
          | _ => true
        match dest with
        | some p =>
          if store then
            let q := s.stagePut p 25 a none
            if q.1 then (match a.kind with
              | .atomic _ _ _ => q.2
              | _ => q.2.answer (.hart h) .ok []) else s
          else s.serveAccess x a
        | none => if x < lpddrTop then s.cached h x a else s.serveAccess x a

end Sys2Proof.Machine
end

