-- ==== Sys2Proof/Machine/MoverRun.lean ====
section
/-! DEFINITION. Mover pieces issued and delivered (R143–R156): translation, windows, tags, the regulator, remote chips, the census,
retirement. -/

namespace Sys2Proof.Machine

/-! ## One side of a piece -/

/-- A part of a side in one page: its address in the descriptor's space, its bytes, its global address. -/
structure SidePart where
  va : Nat
  len : Nat
  ga : Nat
  deriving DecidableEq, Repr

/-- The global address of a scratchpad offset of cluster c. -/
def spGa (c o : Nat) : Nat := 127 * 2 ^ 41 + spAddr c o

/-- A window violation at a piece (R123). -/
def State.movWindow (s : State) (c n x e side va ga : Nat) : State := (s.movFault c n e 3 side va).bbViolation (.mover c n x) c x ga

/-- The parts of a side translated and window-checked, or none where that failed and has been dealt with; a translation that fails
waits until the pieces issued before it have been delivered. -/
def State.sideParts (s : State) (c n x e side : Nat) (loc : Bool) (a : Int) (len : Nat) (right : Right) : Option (List SidePart) × State :=
  if loc then
    let o := a.toNat
    if s.windowOk c x (spGa c o) len right then (some [⟨o, len, spGa c o⟩], s) else (none, s.movWindow c n x e side o (spGa c o))
  else if a < 0 ∨ 2 ^ 47 < a.toNat + len then (none, s.descInvalid c n e side (a % 2 ^ 48).toNat)
  else
    (vaPieces a.toNat len).foldl (fun (acc : Option (List SidePart) × State) (p : Nat × Nat) =>
      match acc.1 with
      | none => acc
      | some l =>
        let q := acc.2.xlate (.mover c n x) c x p.1 right none
        match q.1 with
        | .ok ga =>
          if q.2.windowOk c x ga p.2 right then (some (l ++ [⟨p.1, p.2, q.2.normGa ga⟩]), q.2)
          else (none, q.2.movWindow c n x e side p.1 ga)
        | m => (none, if (s.chan c n).inflight.isEmpty then q.2.movMiss c n x e side p.1 m else s)) (some [], s)

/-- The slots of parts: the key (address ÷ 256) in the descriptor's space, the global key, whether the part holds the slot's last byte. -/
def partKeys (l : List SidePart) : List (Nat × Nat × Bool) :=
  l.flatMap fun p => (slotKeys p.va p.len).map fun k => (k, p.ga / 256 + k - p.va / 256, decide (k * 256 + 255 < p.va + p.len))

/-- The local slot of a global key. -/
def State.keySlot (s : State) (g : Nat) : Option (Nat × Nat) := (s.localOf (g * 256)).bind fun a => (slotsOf a 1).head?

/-- Whether a local slot is full; the slots of other chips are checked there. -/
def State.keyIs (s : State) (g : Nat) (full : Bool) : Bool :=
  match s.keySlot g with
  | some (c, k) => s.full c k == full
  | none => true

/-- A slot's tag set by a channel; on another chip by an empty tagged packet. -/
def State.keySet (s : State) (c n x g : Nat) (full : Bool) : State :=
  match s.keySlot g with
  | some (c, k) => s.setTag c k full
  | none => (s.spSend (.mover c n x) (x == 4) { kind := if full then kWrite else kRead, dest := g * 256 / 2 ^ 41, len := 0, op := 2, tagged := true, addr := g * 256 % 2 ^ 41, payload := [], cmd := none }).2

/-! ## Issue (R143–R149, R152, R153) -/

/-- The census bytes a piece closes: the first one's offset from CSLOT × 256 and their number (R156). -/
def MovDesc.cenRange (d : MovDesc) (p : List Nat) (n : Nat) : Nat × Nat :=
  let at_ := fun (b : Nat) => b * 8 / fmtBits d.elem
  let first := at_ (p.getD 0 0)
  let last := at_ (p.getD 0 0 + n)
  let stop := if p.getD 0 0 + n = d.len0 then d.blocks else last / 32
  (d.runIndex p * d.blocks + first / 32, stop - first / 32)

/-- The source bytes of parts: read here, or asked of another chip, with the tags to wait for; none where the request could not be
sent.
LOG 38 (DESIGN CHOICE). -/
def State.readParts (s : State) (c n x : Nat) (check : Bool) (l : List SidePart) : Option (List Byte × Option Nat × List Nat) × State :=
  l.foldl (fun (acc : Option (List Byte × Option Nat × List Nat) × State) (p : SidePart) =>
    match acc.1 with
    | none => acc
    | some (raw, bad, waits) =>
      match acc.2.localOf p.ga with
      | some a =>
        let q := acc.2.localRead (.mover c n x) a p.len
        (some (raw ++ q.1.bytes, match bad with
          | some b => some b
          | none => q.1.err.map AccErr.cause, waits), q.2)
      | none =>
        let q := acc.2.spSend (.mover c n x) (x == 4) { kind := kRead, dest := p.ga / 2 ^ 41, len := p.len, op := b2n check, tagged := check, addr := p.ga % 2 ^ 41, payload := [], cmd := none }
        match q.1 with
        | some t => (some (raw, bad, waits ++ [t]), q.2)
        | none => (none, q.2)) (some ([], none, []), s)

/-- The destination sides of a piece: where it goes tagged to another chip, slot by slot, with what each packet does to the tag. -/
def dstSides (remoteTag : SidePart → Bool) (newKeys fills : List Nat) (l : List SidePart) : List PieceSide :=
  l.flatMap fun p =>
    if remoteTag p then
      (slotKeys p.va p.len).map fun k =>
        let lo := max p.va (256 * k)
        let hi := min (p.va + p.len) (256 * k + 256)
        let g := p.ga / 256 + k - p.va / 256
        let op := if newKeys.contains g then (if fills.contains g then 0 else 1) else if fills.contains g then 2 else 3
        ({ addr := p.ga + (lo - p.va), len := hi - lo, op := op } : PieceSide)
    else [({ addr := p.ga, len := p.len, op := 3 } : PieceSide)]

/-- A channel that cannot issue shows why; a timed one found in the wrong state at its tick is LATE_DATA (R119, R281), the context of an
elastic one may be blocked by it.
LOG 36 (DESIGN CHOICE). -/
def State.movWait (s : State) (c n x st : Nat) : State :=
  let v := s.chan c n
  let t := (s.setChan c n { v with state := st }).block c x st
  if x = 4 ∧ v.state ≠ st then t.lateData c n 0 else t

/-- The slots of this tick's two NoC ticks in which router c sends a timed packet of its cluster's partition toward router d (R149, R272).
LOG 36 (DESIGN CHOICE). -/
def State.nocSlots (s : State) (c d : Nat) : Nat :=
  match s.ownerOf c with
  | none => 0
  | some p => ((List.range 2).filter fun k =>
      let v := s.rd (stReg (0x40000 + c * 0x400 + 4 * ((2 * s.ct + k) % 256)))
      popCount v 32 % 2 == 0 && slotReserves v (nocOut c d) 4 p).length

/-- Whether a timed channel may issue a piece in this tick (R149): a network piece in a NoC slot of its own, toward its remote side; a
local one from its scheduled tick on.
LOG 36 (DESIGN CHOICE). -/
def State.timedMay (s : State) (c n : Nat) (net : Bool) (far : Option Nat) : Bool :=
  if net then
    match far.bind s.addrRouter with
    | some d => decide ((s.now.pieces.filter fun e => e.1 == c && e.2.2 && s.chanCtx c e.2.1 == 4).length < s.nocSlots c d)
    | none => true
  else match s.schedAt c (8 + n) with
    | some t => decide (t ≤ s.ct)
    | none => true

/-- The pattern bytes of a FILL piece: the pattern repeats over a run from its first byte (R143).
LOG 35 (DESIGN CHOICE). -/
def fillBytes (pattern p0 n : Nat) : List Byte := (List.range n).map fun i => BitVec.ofNat 8 (pattern / 256 ^ ((p0 + i) % 4))

/-- The next piece of the descriptor at the head of channel n: every check of R144 and R145, then its read.
LOG 34 (DESIGN CHOICE). -/
def State.issuePiece (s : State) (c n x e : Nat) : State :=
  let d := s.desc c e
  let v0 := s.chan c n
  let p := v0.pos.getD d.pos
  let v := if v0.pos.isNone then { v0 with pos := some p, srcMask := d.maskAt p } else v0
  if d.over p then s.setChan c n v
  else
    let len := d.pieceLen p
    let src := if d.op = 1 then (some [], s) else s.sideParts c n x e 0 d.srcLoc (d.srcAt p) (d.srcLen len) .read
    match src.1 with
    | none => src.2
    | some sp =>
      let dst := if d.op = 2 then (some [], src.2) else src.2.sideParts c n x e 1 d.dstLoc (d.dstAt p) (d.dstLen len) .write
      match dst.1 with
      | none => dst.2
      | some dp =>
        let cr := d.cenRange p len
        let cen := if d.census ∧ 0 < cr.2 then dst.2.sideParts c n x e 1 true ((d.cslot * 256 + cr.1 : Nat) : Int) cr.2 .write else (some [], dst.2)
        match cen.1 with
        | none => cen.2
        | some cp =>
          let s := cen.2.setChan c n v
          let sk := if d.srcMode = 0 then [] else partKeys sp
          let dk := if d.dstTag then partKeys dp else []
          let ck := if d.dstTag then partKeys cp else []
          let keys := (dk ++ ck).map fun k => k.2.1
          let fills := ((dk ++ ck).filter fun k => k.2.2).map fun k => k.2.1
          let newKeys := (keys.filter fun g => !v.admitted.contains g).eraseDups
          let firstRead := sk.filter fun k => sparseGet 0 v.srcMask k.1 == 0
          let filling := v.inflight.flatMap (·.fills)
          let remote := fun (q : SidePart) => (s.localOf q.ga).isNone
          let own := fun (q : SidePart) => decide (spGa c 0 ≤ q.ga) && decide (q.ga < spGa c 0x1000000)
          let net := !(sp.all own && dp.all own)
          let rate := s.chanRate c n
          if !(sk.all fun k => keyScratch k.2.1) then s.descInvalid c n e 0 (d.srcAt p).toNat
          else if !(dk.all fun k => keyScratch k.2.1) then s.descInvalid c n e 1 (d.dstAt p).toNat
          else if x == 4 && !s.timedMay c n net (((sp ++ dp).find? fun q => !own q).map (·.ga)) then s
          else if !(firstRead.all fun k => s.keyIs k.2.1 true) then s.movWait c n x 2
          else if !(newKeys.all fun g => s.keyIs g false && !filling.contains g) then s.movWait c n x 3
          else if net && x < 4 && rate.1 != 0 && v.tokens == 0 then s.setChan c n { v with state := 6 }
          else if !(sp.all fun q => match s.localOf q.ga with
              | some a => s.lpReady a q.len
              | none => true) then s
          else
            let rd := if d.op = 1 then (some (fillBytes d.src (p.getD 0 0) len, none, []), s)
              else s.readParts c n x (sp.any remote && !firstRead.isEmpty) sp
            match rd.1 with
            | none => rd.2.abortCtx c x 6
            | some (raw, bad, waits) =>
              let t := if d.srcMode = 0 then (v.srcMask, []) else d.touch v.srcMask (d.srcAt p) (d.srcLen len)
              let empties := (sk.filter fun k => t.2.contains k.1).map fun k => k.2.1
              let sides := dstSides (fun q => d.dstTag && remote q) newKeys fills dp
              let piece : Piece :=
                { entry := e, pos := p, next := d.after p len, raw := raw, dst := sides, fills := fills, empties := empties, issue := s.ct,
                  len := len, bad := bad, net := net, waits := waits, sent := false, late := false,
                  pages := ((if d.srcLoc then [] else sp) ++ if d.dstLoc then [] else dp).map fun q => q.va / 2 ^ 14 }
              let v := { v with inflight := v.inflight ++ [piece], pos := some piece.next, srcMask := t.1, state := 1,
                                admitted := (v.admitted ++ newKeys).filter fun g => !fills.contains g,
                                tokens := if net && x < 4 && rate.1 != 0 then v.tokens - 1 else v.tokens }
              (rd.2.setChan c n v).started c x

/-- Whether a channel of context x may issue: it is not stopped, its context is not held, and it and its Mover have room (R146, R154,
R282).
LOG 33 (DESIGN CHOICE). -/
def State.mayIssue (s : State) (c n x : Nat) : Bool :=
  let v := s.chan c n
  decide (c < s.nClusters) && decide (n < 16) && decide (x < 5) && [0, 1, 2, 3, 6].contains v.state && decide (v.inflight.length < 16) &&
  decide (s.movInflight c < 64) && (x == 4 || !(s.ctx c x).held && !(match s.ownerOf c with
    | some p => s.tasterHolds p
    | none => false))

/-- Channel n's attempt to issue in this tick, whatever the other channels want: the state after it, and, where a piece has been issued,
whether it crosses the network.
LOG 33 (DESIGN CHOICE). -/
def State.tryPiece (s : State) (c n : Nat) : Option Bool × State :=
  let x := s.chanCtx c n
  match (s.chan c n).queue with
  | e :: _ =>
    if s.mayIssue c n x then
      let t := s.issuePiece c n x e
      (if (s.chan c n).inflight.length < (t.chan c n).inflight.length then (t.chan c n).inflight.getLast?.map (·.net) else none, t)
    else (none, s)
  | [] => (none, s)

/-- Whether channel m is served before channel n (R147): timed first, ascending; between elastic ones the lower number on even ticks, the
higher on odd ones. -/
def State.chanBeats (s : State) (c m n : Nat) : Bool :=
  let tm := s.chanCtx c m == 4
  let tn := s.chanCtx c n == 4
  if tm != tn then tm else if tm || s.ct % 2 == 0 then decide (m < n) else decide (n < m)

/-- The pieces of a kind that cluster c has issued in this tick. -/
def State.piecesNow (s : State) (c : Nat) (f : Nat × Bool → Bool) : Nat := (s.now.pieces.filter fun e => e.1 == c && f e.2).length

/-- Whether channel n's piece finds a place in this tick: the places left, two network and eight local ones in all (R146), go to the ready
channels in the order of R147.
LOG 33 (DESIGN CHOICE). -/
def State.servesChan (s : State) (c n : Nat) (net : Bool) : Bool :=
  let rivals := (List.range 16).filter fun m =>
    m != n && s.chanBeats c m n && decide (s.piecesNow c (·.1 == m) < 2) && (s.tryPiece c m).1 == some net
  decide (rivals.length + s.piecesNow c (·.2 == net) < if net then 2 else 8)

/-- A piece issued: it is noted in the tick, and a local one of a timed channel is placed in the schedule. -/
def State.pieceNoted (s : State) (c n : Nat) (net : Bool) : State :=
  let s := { s with ports := { s.now with pieces := s.now.pieces ++ [(c, n, net)] } }
  if s.chanCtx c n = 4 ∧ net = false then s.place c (8 + n) else s

/-- A channel that loses its place in a tick; an elastic one is counted, once (R147).
LOG 33 (DESIGN CHOICE). -/
def State.pieceLost (s : State) (c n : Nat) : State :=
  if s.chanCtx c n < 4 ∧ s.now.lost.contains (c, n) = false then
    { s.ndTiming (s.ownerOf c) with ports := { s.now with lost := s.now.lost ++ [(c, n)] } }
  else s

/-- MOVER_PIECE_ISSUE: at most two pieces of a channel in a tick.
LOG 33 (DESIGN CHOICE). -/
def execMoverPieceIssue (c n : Nat) (s : State) : Host.Outcome State Fault Refusal :=
  .next <|
    let t := s.tryPiece c n
    match t.1 with
    | none => t.2
    | some net =>
      if 2 ≤ s.piecesNow c (·.1 == n) then s
      else if s.servesChan c n net then t.2.pieceNoted c n net
      else s.pieceLost c n

/-! ## Delivery (R144, R145, R156) -/

/-- The descriptor's PROGRESS written. -/
def State.setProgress (s : State) (c e v : Nat) : State := (s.wr (descReg c e 14) (v % 2 ^ 32)).wr (descReg c e 15) (v / 2 ^ 32 % 2 ^ 32)

/-- Bytes written to the local sides in order; the first failure ends it. -/
def State.writeSides (s : State) (c n x : Nat) (l : List (PieceSide × List Byte)) : Option AccErr × State :=
  l.foldl (fun (acc : Option AccErr × State) (e : PieceSide × List Byte) =>
    match acc.1, acc.2.localOf e.1.addr with
    | none, some a => acc.2.localWrite (.mover c n x) a e.2
    | _, _ => acc) (none, s)

/-- Bytes sent to the sides on other chips: the tags to wait for, none where a packet could not be sent. -/
def State.sendSides (s : State) (c n x : Nat) (l : List (PieceSide × List Byte)) : Option (List Nat) × State :=
  l.foldl (fun (acc : Option (List Nat) × State) (e : PieceSide × List Byte) =>
    match acc.1 with
    | none => acc
    | some w =>
      let q := acc.2.spSend (.mover c n x) (x == 4) { kind := kWrite, dest := e.1.addr / 2 ^ 41, len := e.2.length, op := if e.1.op = 3 then 0 else e.1.op, tagged := e.1.op != 3, addr := e.1.addr % 2 ^ 41, payload := e.2, cmd := none }
      (q.1.map fun t => w ++ [t], q.2)) (some [], s)

/-- The sides of a piece with their bytes. -/
def splitSides : List PieceSide → List Byte → List (PieceSide × List Byte)
  | [], _ => []
  | q :: r, l => (q, l.take q.len) :: splitSides r (l.drop q.len)

/-- The census bytes that a delivered piece closes written, and the census of the open block; of a plain copy the bytes of an element that
the piece ends inside wait for the next one. -/
def State.deliverCensus (s : State) (c n x : Nat) (d : MovDesc) (q : Piece) (xs : List Nat) : Option AccErr × State :=
  if d.census then
    let v := s.chan c n
    let first := q.pos.getD 0 0 * 8 / fmtBits d.elem
    let raw := v.carry ++ q.raw
    let xs := if d.codec = 0 then elemsOf d.elem raw else xs
    let r := censusRun d.elem first (d.len0 * 8 / fmtBits d.elem) v.cenMax xs
    let s := s.setChan c n { v with cenMax := r.2, carry := if d.codec = 0 then raw.drop (xs.length * fmtBits d.elem / 8) else [] }
    if r.1.isEmpty then (none, s)
    else s.localWrite (.mover c n x) (spAddr c (d.cslot * 256 + (d.cenRange q.pos q.len).1)) (r.1.map fun e => BitVec.ofNat 8 e.2)
  else (none, s)

/-- A piece whose bytes have all been written: tags, counters, PROGRESS.
LOG 34 (DESIGN CHOICE). -/
def State.pieceLanded (s : State) (c n x : Nat) (q : Piece) (o : PieceOut) : State :=
  let s := q.empties.foldl (fun (s : State) (g : Nat) => s.keySet c n x g false) s
  let s := q.fills.foldl (fun (s : State) (g : Nat) => match s.keySlot g with
    | some e => s.setTag e.1 e.2 true
    | none => s) s
  let s := (s.countUp (movReg c 0x18) o.nanBlocks).count64 (movReg c 0x10) q.len
  let s := s.setProgress c q.entry (progressOf q.next)
  let v := s.chan c n
  (s.setChan c n { v with inflight := v.inflight.drop 1 }).progress c x

/-- A returned piece of an aborted channel discarded; with the last one the channel is free (R155). -/
def State.dropPiece (s : State) (c n : Nat) : State :=
  let v := s.chan c n
  let rest := v.inflight.drop 1
  if rest.isEmpty then s.setChan c n { MovChan.idle with tokens := v.tokens, cause := v.cause, refillAt := v.refillAt }
  else s.setChan c n { v with inflight := rest }

/-- The oldest piece of channel n at its destination: written here, sent to other chips and acknowledged, or its failure.
LOG 34 (DESIGN CHOICE). -/
def State.deliverPiece (s : State) (c n : Nat) (q : Piece) : State :=
  let x := s.chanCtx c n
  let v := s.chan c n
  if !q.waits.isEmpty then s
  else if v.state = 7 then s.dropPiece c n
  else match q.bad with
    | some k => (if k = 5 then s.movFault c n q.entry 4 0 ((s.desc c q.entry).srcAt q.pos).toNat else s).abortCtx c x k
    | none =>
      let d := s.desc c q.entry
      let o := d.output q.raw q.len
      let sides := splitSides q.dst o.bytes
      let far := sides.filter fun e => (s.localOf e.1.addr).isNone
      if !(q.dst.all fun e => match s.localOf e.addr with
          | some a => s.lpReady a e.len
          | none => true) then s
      else if !far.isEmpty && !q.sent then
        let w := s.sendSides c n x far
        match w.1 with
        | none => w.2.abortCtx c x 6
        | some tags => w.2.setChan c n { v with inflight := { q with waits := tags, sent := true } :: v.inflight.drop 1 }
      else
        let w := s.writeSides c n x sides
        match w.1 with
        | some k => w.2.abortCtx c x k.cause
        | none =>
          let w := w.2.deliverCensus c n x d q o.elems
          match w.1 with
          | some k => w.2.abortCtx c x k.cause
          | none => w.2.pieceLanded c n x q o

/-- PIECE_DELIVERY: the oldest piece of a channel; a timed network piece is delivered by its release. -/
def execPieceDelivery (c n : Nat) (s : State) : Host.Outcome State Fault Refusal :=
  .next <| match (s.chan c n).inflight with
    | q :: _ => if q.net && s.chanCtx c n == 4 && (s.chan c n).state != 7 then s else s.deliverPiece c n q
    | [] => s

/-- TIMED_PIECE_RELEASE: RELEASE ct after its issue a timed network piece leaves staging, or is late where its data has not arrived.
LOG 36 (DESIGN CHOICE). -/
def execTimedPieceRelease (c n : Nat) (staged : Bool) (s : State) : Host.Outcome State Fault Refusal :=
  .next <| match (s.chan c n).inflight with
    | q :: rest =>
      let due := q.issue + (s.desc c q.entry).release
      if q.net && s.chanCtx c n == 4 && decide (due ≤ s.ct) then
        if staged && q.waits.isEmpty then s.deliverPiece c n q
        else if q.late then s
        else
          let v := s.chan c n
          (s.setChan c n { v with inflight := { q with late := true } :: rest }).lateData c n (s.ct - due)
      else s
    | [] => s

/-! ## Retirement (R151) -/

/-- A finished descriptor retired: slots marked full, counted, PROGRESS all ones, its entry free, its object signalled.
LOG 37 (DESIGN CHOICE). -/
def State.retire (s : State) (c n e : Nat) : State :=
  let x := s.chanCtx c n
  let v := s.chan c n
  let d := s.desc c e
  let s := v.admitted.foldl (fun (s : State) (g : Nat) => s.keySet c n x g true) s
  let s := s.countWrap (movReg c (0x110 + 0x20 * n)) 1
  let rest := v.queue.drop 1
  let s := s.setChan c n { v with queue := rest, pos := none, cenMax := 0, carry := [], admitted := [], srcMask := [], state := if rest.isEmpty then 0 else if v.state = 5 then 5 else 1 }
  (s.setProgress c e (2 ^ 64 - 1)).unitSignal (.mover c n x) c x d.sync

/-- DESCRIPTOR_RETIRE. -/
def execDescriptorRetire (c n : Nat) (s : State) : Host.Outcome State Fault Refusal :=
  .next <|
    let v := s.chan c n
    match v.queue, v.pos with
    | e :: _, some p => if v.inflight.isEmpty && v.state != 7 && (s.desc c e).over p then s.retire c n e else s
    | _, _ => s

end Sys2Proof.Machine
end

