-- ==== Sys2Proof/Machine/Dispatch.lean ====
section
/-! DEFINITION. One arm per command: the direct call of its meaning. -/

namespace Sys2Proof.Machine

/-- The effect of a command on everything but the queue.
LOG 2 (DESIGN CHOICE). -/
def exec (i : Instr) (s : State) : Host.Outcome State Fault Refusal :=
  match i with
  | .registerWrite r addr width value => Sys2Proof.Machine.execRegisterWrite r addr width value s
  | .counterLowRead r addr => Sys2Proof.Machine.execCounterLowRead r addr s
  | .siSubmit ring idx edOk mlOk => Sys2Proof.Machine.execSiSubmit ring idx edOk mlOk s
  | .imageAcceptance => Sys2Proof.Machine.execImageAcceptance s
  | .hotSwitch p => Sys2Proof.Machine.execHotSwitch p s
  | .siRevert ring idx => Sys2Proof.Machine.execSiRevert ring idx s
  | .panel c a x => Sys2Proof.Machine.execPanel c a x s
  | .anchor c a x => Sys2Proof.Machine.execAnchor c a x s
  | .pass c a x => Sys2Proof.Machine.execPass c a x s
  | .passCommit c a => Sys2Proof.Machine.execPassCommit c a s
  | .drain c a x => Sys2Proof.Machine.execDrain c a x s
  | .drainComplete c a => Sys2Proof.Machine.execDrainComplete c a s
  | .save c a x => Sys2Proof.Machine.execSave c a x s
  | .restore c a x => Sys2Proof.Machine.execRestore c a x s
  | .merge c a x => Sys2Proof.Machine.execMerge c a x s
  | .mergeComplete c a => Sys2Proof.Machine.execMergeComplete c a s
  | .passAbort c a x cause => Sys2Proof.Machine.execPassAbort c a x cause s
  | .accWrite r c a t e value be => Sys2Proof.Machine.execAccWrite r c a t e value be s
  | .arrCtrlStop r c a value => Sys2Proof.Machine.execArrCtrlStop r c a value s
  | .arrTileOwnerWrite r c a value => Sys2Proof.Machine.execArrTileOwnerWrite r c a value s
  | .vecStep c e => Sys2Proof.Machine.execVecStep c e s
  | .vecChainWrite r c e off value => Sys2Proof.Machine.execVecChainWrite r c e off value s
  | .correctionWriteBack c bank => Sys2Proof.Machine.execCorrectionWriteBack c bank s
  | .remoteAccess a => Sys2Proof.Machine.execRemoteAccess a s
  | .poolAtomic r op addr operand expected => Sys2Proof.Machine.execPoolAtomic r op addr operand expected s
  | .workCounterFetch r addr inc => Sys2Proof.Machine.execWorkCounterFetch r addr inc s
  | .setFull r c slot => Sys2Proof.Machine.execSetFull r c slot s
  | .setEmpty r c slot => Sys2Proof.Machine.execSetEmpty r c slot s
  | .rinseScrub c x => Sys2Proof.Machine.execRinseScrub c x s
  | .rinseRegionDone c x w => Sys2Proof.Machine.execRinseRegionDone c x w s
  | .movDescWrite r c e word value => Sys2Proof.Machine.execMovDescWrite r c e word value s
  | .movPush r c n e => Sys2Proof.Machine.execMovPush r c n e s
  | .movAbort r c n => Sys2Proof.Machine.execMovAbort r c n s
  | .movResume r c n => Sys2Proof.Machine.execMovResume r c n s
  | .movCtxBind r c n x => Sys2Proof.Machine.execMovCtxBind r c n x s
  | .moverPieceIssue c n => Sys2Proof.Machine.execMoverPieceIssue c n s
  | .pieceDelivery c n => Sys2Proof.Machine.execPieceDelivery c n s
  | .timedPieceRelease c n staged => Sys2Proof.Machine.execTimedPieceRelease c n staged s
  | .descriptorRetire c n => Sys2Proof.Machine.execDescriptorRetire c n s
  | .tokenRefill c => Sys2Proof.Machine.execTokenRefill c s
  | .matmul c x => Sys2Proof.Machine.execMatmul c x s
  | .conv2d c x => Sys2Proof.Machine.execConv2d c x s
  | .dwconv2d c x => Sys2Proof.Machine.execDwconv2d c x s
  | .groupconv2d c x => Sys2Proof.Machine.execGroupconv2d c x s
  | .poolMax c x => Sys2Proof.Machine.execPoolMax c x s
  | .poolAvg c x => Sys2Proof.Machine.execPoolAvg c x s
  | .resize c x => Sys2Proof.Machine.execResize c x s
  | .attnStep c x => Sys2Proof.Machine.execAttnStep c x s
  | .accept c x => Sys2Proof.Machine.execAccept c x s
  | .detect c x => Sys2Proof.Machine.execDetect c x s
  | .elemwise c x => Sys2Proof.Machine.execElemwise c x s
  | .layernorm c x => Sys2Proof.Machine.execLayernorm c x s
  | .rmsnorm c x => Sys2Proof.Machine.execRmsnorm c x s
  | .softmax c x => Sys2Proof.Machine.execSoftmax c x s
  | .reduce c x => Sys2Proof.Machine.execReduce c x s
  | .cast c x => Sys2Proof.Machine.execCast c x s
  | .bounds c x => Sys2Proof.Machine.execBounds c x s
  | .copy c x => Sys2Proof.Machine.execCopy c x s
  | .census c x => Sys2Proof.Machine.execCensus c x s
  | .completionWord c x => Sys2Proof.Machine.execCompletionWord c x s
  | .window c x => Sys2Proof.Machine.execWindow c x s
  | .arrFlush r c x arrays => Sys2Proof.Machine.execArrFlush r c x arrays s
  | .splitKFallback c x => Sys2Proof.Machine.execSplitKFallback c x s
  | .phase2Item c x => Sys2Proof.Machine.execPhase2Item c x s
  | .countWordRead c => Sys2Proof.Machine.execCountWordRead c s
  | .dppJobStart d => Sys2Proof.Machine.execDppJobStart d s
  | .dppJobEnd d => Sys2Proof.Machine.execDppJobEnd d s
  | .dppTBound d => Sys2Proof.Machine.execDppTBound d s
  | .seqSet ring idx => Sys2Proof.Machine.execSeqSet ring idx s
  | .stepBuild p => Sys2Proof.Machine.execStepBuild p s
  | .stepCommit p => Sys2Proof.Machine.execStepCommit p s
  | .appendItem c x => Sys2Proof.Machine.execAppendItem c x s
  | .attendItem c x => Sys2Proof.Machine.execAttendItem c x s
  | .attResume r c => Sys2Proof.Machine.execAttResume r c s
  | .attOverrun c => Sys2Proof.Machine.execAttOverrun c s
  | .pageWalk r c x va right => Sys2Proof.Machine.execPageWalk r c x va right s
  | .fenceIssue r hi => Sys2Proof.Machine.execFenceIssue r hi s
  | .fenceRetire => Sys2Proof.Machine.execFenceRetire s
  | .bbWindowWrite r c x w word value => Sys2Proof.Machine.execBbWindowWrite r c x w word value s
  | .lpddr6ZeroFill c x => Sys2Proof.Machine.execLpddr6ZeroFill c x s
  | .minorFrameStart p => Sys2Proof.Machine.execMinorFrameStart p s
  | .brewLaunch p => Sys2Proof.Machine.execBrewLaunch p s
  | .timedTaskStart p task => Sys2Proof.Machine.execTimedTaskStart p task s
  | .deadlineMiss p task => Sys2Proof.Machine.execDeadlineMiss p task s
  | .ingress p => Sys2Proof.Machine.execIngress p s
  | .stagingEnqueue src p a => Sys2Proof.Machine.execStagingEnqueue src p a s
  | .injectionStop p src => Sys2Proof.Machine.execInjectionStop p src s
  | .swap p => Sys2Proof.Machine.execSwap p s
  | .claim p => Sys2Proof.Machine.execClaim p s
  | .claimRelease p => Sys2Proof.Machine.execClaimRelease p s
  | .taster p => Sys2Proof.Machine.execTaster p s
  | .goldenTest p errors => Sys2Proof.Machine.execGoldenTest p errors s
  | .tasterCompare p c => Sys2Proof.Machine.execTasterCompare p c s
  | .selftest p => Sys2Proof.Machine.execSelftest p s
  | .selftestSlice p => Sys2Proof.Machine.execSelftestSlice p s
  | .sliceEnd p failAt => Sys2Proof.Machine.execSliceEnd p failAt s
  | .sliceAbandon p => Sys2Proof.Machine.execSliceAbandon p s
  | .selftestOverdue p kind unit index => Sys2Proof.Machine.execSelftestOverdue p kind unit index s
  | .publish p => Sys2Proof.Machine.execPublish p s
  | .urnAgePub r p stream => Sys2Proof.Machine.execUrnAgePub r p stream s
  | .ageCheck => Sys2Proof.Machine.execAgeCheck s
  | .nocPacket router p r ga back timed rival => Sys2Proof.Machine.execNocPacket router p r ga back timed rival s
  | .launch ring idx => Sys2Proof.Machine.execLaunch ring idx s
  | .taskGraphLaunch p entry => Sys2Proof.Machine.execTaskGraphLaunch p entry s
  | .slotAllocate => Sys2Proof.Machine.execSlotAllocate s
  | .contextSwap c => Sys2Proof.Machine.execContextSwap c s
  | .stateImageSave c x => Sys2Proof.Machine.execStateImageSave c x s
  | .load r c x slot => Sys2Proof.Machine.execLoad r c x slot s
  | .loadComplete c x => Sys2Proof.Machine.execLoadComplete c x s
  | .preempt r c x => Sys2Proof.Machine.execPreempt r c x s
  | .teardown r c x swapped slot => Sys2Proof.Machine.execTeardown r c x swapped slot s
  | .watch c x => Sys2Proof.Machine.execWatch c x s
  | .unwatch c x => Sys2Proof.Machine.execUnwatch c x s
  | .wake c x addr => Sys2Proof.Machine.execWake c x addr s
  | .syncSignal r addr inc => Sys2Proof.Machine.execSyncSignal r addr inc s
  | .syncSet addr value => Sys2Proof.Machine.execSyncSet addr value s
  | .syncPoll c x => Sys2Proof.Machine.execSyncPoll c x s
  | .tilerContextChange c => Sys2Proof.Machine.execTilerContextChange c s
  | .seed ring idx => Sys2Proof.Machine.execSeed ring idx s
  | .ndClear ring idx => Sys2Proof.Machine.execNdClear ring idx s
  | .clrTiming r p => Sys2Proof.Machine.execClrTiming r p s
  | .clrValue r p => Sys2Proof.Machine.execClrValue r p s
  | .csiPacket n pkt => Sys2Proof.Machine.execCsiPacket n pkt s
  | .frameStart n vc => Sys2Proof.Machine.execFrameStart n vc s
  | .frameComplete n => Sys2Proof.Machine.execFrameComplete n s
  | .ingStampOfs r n value => Sys2Proof.Machine.execIngStampOfs r n value s
  | .ethFrame e frame ethInfo => Sys2Proof.Machine.execEthFrame e frame ethInfo s
  | .bufferClose e => Sys2Proof.Machine.execBufferClose e s
  | .strainerAccept n level => Sys2Proof.Machine.execStrainerAccept n level s
  | .minIvEnd n => Sys2Proof.Machine.execMinIvEnd n s
  | .strainerStuck n => Sys2Proof.Machine.execStrainerStuck n s
  | .resetN asserted => Sys2Proof.Machine.execResetN asserted s
  | .internalResetRelease straps otp => Sys2Proof.Machine.execInternalResetRelease straps otp s
  | .perstN event => Sys2Proof.Machine.execPerstN event s
  | .pwrGoodFall => Sys2Proof.Machine.execPwrGoodFall s
  | .safeIn active => Sys2Proof.Machine.execSafeIn active s
  | .tempAlertN active => Sys2Proof.Machine.execTempAlertN active s
  | .ppsIn => Sys2Proof.Machine.execPpsIn s
  | .jump r hi => Sys2Proof.Machine.execJump r hi s
  | .slew r hi => Sys2Proof.Machine.execSlew r hi s
  | .tbRate r value => Sys2Proof.Machine.execTbRate r value s
  | .tbIncr r value => Sys2Proof.Machine.execTbIncr r value s
  | .tbTimeRead r => Sys2Proof.Machine.execTbTimeRead r s
  | .tbPpsinRawHiRead r => Sys2Proof.Machine.execTbPpsinRawHiRead r s
  | .tbTsIdRead r e egress => Sys2Proof.Machine.execTbTsIdRead r e egress s
  | .triggerFire g => Sys2Proof.Machine.execTriggerFire g s
  | .pulseEnd g => Sys2Proof.Machine.execPulseEnd g s
  | .genEnable r g value => Sys2Proof.Machine.execGenEnable r g value s
  | .genCfgWrite r g off value => Sys2Proof.Machine.execGenCfgWrite r g off value s
  | .clockCheck measured => Sys2Proof.Machine.execClockCheck measured s
  | .linkTraining n lanes calib => Sys2Proof.Machine.execLinkTraining n lanes calib s
  | .trainingRetry n => Sys2Proof.Machine.execTrainingRetry n s
  | .ident n peer port sys => Sys2Proof.Machine.execIdent n peer port sys s
  | .linkBlock n blk => Sys2Proof.Machine.execLinkBlock n blk s
  | .replayRequest n seq => Sys2Proof.Machine.execReplayRequest n seq s
  | .spoutWrite n pkt => Sys2Proof.Machine.execSpoutWrite n pkt s
  | .spoutRead n pkt => Sys2Proof.Machine.execSpoutRead n pkt s
  | .spoutAtomic n pkt => Sys2Proof.Machine.execSpoutAtomic n pkt s
  | .spoutSignal n pkt => Sys2Proof.Machine.execSpoutSignal n pkt s
  | .ack n pkt => Sys2Proof.Machine.execAck n pkt s
  | .data n pkt => Sys2Proof.Machine.execData n pkt s
  | .error n pkt => Sys2Proof.Machine.execError n pkt s
  | .calibExchange n => Sys2Proof.Machine.execCalibExchange n s
  | .calib n pkt => Sys2Proof.Machine.execCalib n pkt s
  | .arm r => Sys2Proof.Machine.execArm r s
  | .arrive n pkt => Sys2Proof.Machine.execArrive n pkt s
  | .go n pkt => Sys2Proof.Machine.execGo n pkt s
  | .barrierStart => Sys2Proof.Machine.execBarrierStart s
  | .barrierTimeout => Sys2Proof.Machine.execBarrierTimeout s
  | .respTimeout tag => Sys2Proof.Machine.execRespTimeout tag s
  | .linkDown n => Sys2Proof.Machine.execLinkDown n s
  | .retrain r n => Sys2Proof.Machine.execRetrain r n s
  | .bar2Write offset bytes => Sys2Proof.Machine.execBar2Write offset bytes s
  | .bar2Read offset len => Sys2Proof.Machine.execBar2Read offset len s
  | .hostServiceTick => Sys2Proof.Machine.execHostServiceTick s
  | .progLoad ring idx prog => Sys2Proof.Machine.execProgLoad ring idx prog s
  | .suspend ring idx => Sys2Proof.Machine.execSuspend ring idx s
  | .cont ring idx => Sys2Proof.Machine.execCont ring idx s
  | .kill ring idx => Sys2Proof.Machine.execKill ring idx s
  | .fence ring idx => Sys2Proof.Machine.execFence ring idx s
  | .signal ring idx => Sys2Proof.Machine.execSignal ring idx s
  | .set ring idx => Sys2Proof.Machine.execSet ring idx s
  | .partReset ring idx => Sys2Proof.Machine.execPartReset ring idx s
  | .fwStage ring idx verdict => Sys2Proof.Machine.execFwStage ring idx verdict s
  | .trigSet ring idx => Sys2Proof.Machine.execTrigSet ring idx s
  | .nop ring idx => Sys2Proof.Machine.execNop ring idx s
  | .ringCfgWrite r n value => Sys2Proof.Machine.execRingCfgWrite r n value s
  | .ringReset r n => Sys2Proof.Machine.execRingReset r n s
  | .harts r value => Sys2Proof.Machine.execHarts r value s
  | .scAccess h a cache => Sys2Proof.Machine.execScAccess h a cache s
  | .macTransmit e => Sys2Proof.Machine.execMacTransmit e s
  | .lpddr6Request a badSymbols => Sys2Proof.Machine.execLpddr6Request a badSymbols s
  | .mcWriteBack ch => Sys2Proof.Machine.execMcWriteBack ch s
  | .refresh ch bank => Sys2Proof.Machine.execRefresh ch bank s
  | .temperatureReportRead ch report => Sys2Proof.Machine.execTemperatureReportRead ch report s
  | .dqsOscillatorRead ch rank count => Sys2Proof.Machine.execDqsOscillatorRead ch rank count s
  | .patrol ch badSymbols => Sys2Proof.Machine.execPatrol ch badSymbols s
  | .channelTrainingEnd ch ok agree => Sys2Proof.Machine.execChannelTrainingEnd ch ok agree s
  | .lockstepMismatch pair group => Sys2Proof.Machine.execLockstepMismatch pair group s
  | .reportPathFault pair => Sys2Proof.Machine.execReportPathFault pair s
  | .tasterMissed p => Sys2Proof.Machine.execTasterMissed p s
  | .safeState p cause => Sys2Proof.Machine.execSafeState p cause s
  | .deviceSafeState cause => Sys2Proof.Machine.execDeviceSafeState cause s
  | .urnSafeCmdParts r parts => Sys2Proof.Machine.execUrnSafeCmdParts r parts s
  | .urnSafeCmdDevice r => Sys2Proof.Machine.execUrnSafeCmdDevice r s
  | .stSafeCmd r value => Sys2Proof.Machine.execStSafeCmd r value s
  | .errOutReturn => Sys2Proof.Machine.execErrOutReturn s
  | .faultRaise src scope info => Sys2Proof.Machine.execFaultRaise src scope info s
  | .windowExpiry seq => Sys2Proof.Machine.execWindowExpiry seq s
  | .urnSecond => Sys2Proof.Machine.execUrnSecond s
  | .fcAck r seq => Sys2Proof.Machine.execFcAck r seq s
  | .fcSwRaise r value => Sys2Proof.Machine.execFcSwRaise r value s
  | .hangContext c x => Sys2Proof.Machine.execHangContext c x s
  | .hangSequencer c => Sys2Proof.Machine.execHangSequencer c s
  | .clSeqWdog r c => Sys2Proof.Machine.execClSeqWdog r c s
  | .hangTask c slot => Sys2Proof.Machine.execHangTask c slot s
  | .stewardHb mismatch => Sys2Proof.Machine.execStewardHb mismatch s
  | .urnHbCheck => Sys2Proof.Machine.execUrnHbCheck s
  | .stewardRestart => Sys2Proof.Machine.execStewardRestart s
  | .partitionReset p => Sys2Proof.Machine.execPartitionReset p s
  | .resetOverrun p => Sys2Proof.Machine.execResetOverrun p s
  | .crashCapture scope => Sys2Proof.Machine.execCrashCapture scope s
  | .crashPartial => Sys2Proof.Machine.execCrashPartial s
  | .clusterReset c => Sys2Proof.Machine.execClusterReset c s
  | .deviceReset => Sys2Proof.Machine.execDeviceReset s
  | .lastResortTakeover cause => Sys2Proof.Machine.execLastResortTakeover cause s
  | .pmLrsReq r value => Sys2Proof.Machine.execPmLrsReq r value s
  | .autoReset => Sys2Proof.Machine.execAutoReset s
  | .fwSwitchover => Sys2Proof.Machine.execFwSwitchover s
  | .confirm r => Sys2Proof.Machine.execConfirm r s
  | .fwSwitchFail => Sys2Proof.Machine.execFwSwitchFail s
  | .flashRewriteEnd matchOk => Sys2Proof.Machine.execFlashRewriteEnd matchOk s
  | .recoveryPoll verdict => Sys2Proof.Machine.execRecoveryPoll verdict s
  | .attest ring idx => Sys2Proof.Machine.execAttest ring idx s
  | .certRead ring idx => Sys2Proof.Machine.execCertRead ring idx s
  | .ownerEnrol ring idx verdict => Sys2Proof.Machine.execOwnerEnrol ring idx verdict s
  | .ownerRevoke ring idx verdict => Sys2Proof.Machine.execOwnerRevoke ring idx verdict s
  | .siMinRaise ring idx => Sys2Proof.Machine.execSiMinRaise ring idx s
  | .cadExtCmd r value => Sys2Proof.Machine.execCadExtCmd r value s
  | .cadTrngFail => Sys2Proof.Machine.execCadTrngFail s
  | .pmStateRun r => Sys2Proof.Machine.execPmStateRun r s
  | .pmStateTrim r => Sys2Proof.Machine.execPmStateTrim r s
  | .pmStateWatch r => Sys2Proof.Machine.execPmStateWatch r s
  | .pmStateRetain r => Sys2Proof.Machine.execPmStateRetain r s
  | .pmStateOff r => Sys2Proof.Machine.execPmStateOff r s
  | .stateEntryComplete => Sys2Proof.Machine.execStateEntryComplete s
  | .wakeSource w => Sys2Proof.Machine.execWakeSource w s
  | .pmWakeReq r => Sys2Proof.Machine.execPmWakeReq r s
  | .alarm => Sys2Proof.Machine.execAlarm s
  | .avs readback => Sys2Proof.Machine.execAvs readback s
  | .thermalSample temps => Sys2Proof.Machine.execThermalSample temps s
  | .ckPllUnlock n => Sys2Proof.Machine.execCkPllUnlock n s
  | .railOutOfRange rail => Sys2Proof.Machine.execRailOutOfRange rail s
  | .railTimeout => Sys2Proof.Machine.execRailTimeout s
  | .pmGpioOut r value => Sys2Proof.Machine.execPmGpioOut r value s
  | .powerUp edges => Sys2Proof.Machine.execPowerUp edges s
  | .switchedRailsInRange => Sys2Proof.Machine.execSwitchedRailsInRange s
  | .pcieLinkTraining width speed => Sys2Proof.Machine.execPcieLinkTraining width speed s
  | .trngOkReturn => Sys2Proof.Machine.execTrngOkReturn s
  | .uartReceive u ch => Sys2Proof.Machine.execUartReceive u ch s

end Sys2Proof.Machine
end

