-- ==== Sys2Proof/Safety.lean ====
section
/-! DEFINITION. What a safe run is (no step ends in a fault or a refusal), and the words the statements are made of: a command that
completes, and a change of nothing but registers. -/

namespace Sys2Proof

/-- The machine answers a next state. -/
def Machine.stepsOn (s : Machine.State) : Prop := ∃ t, Machine.step s = .next t

/-- Every one of the first n steps from s answers a next state. -/
def Machine.safeFor : Nat → Machine.State → Prop
  | 0, _ => True
  | n + 1, s => ∃ t, Machine.step s = .next t ∧ Machine.safeFor n t

/-- Command c answers a next state, and that state satisfies P. -/
def Machine.completes (c : Instr) (s : Machine.State) (P : Machine.State → Prop) : Prop := ∃ t, Machine.exec c s = .next t ∧ P t

/-- From s to t only registers of the list change: every other register reads as before, and so does everything else. The notes of the
bits that hardware set in this tick and of the values a register still shows gain entries of those registers alone. -/
def Machine.onlyRegs (s t : Machine.State) (l : List Nat) : Prop :=
  (∀ a, a ∉ l → t.rd a = s.rd a) ∧ (∀ e ∈ t.hwSet, e ∈ s.hwSet ∨ e.2.1 ∈ l) ∧ (∀ e ∈ t.lateRegs, e ∈ s.lateRegs ∨ e.2.1 ∈ l) ∧
    { t with regs := s.regs, hwSet := s.hwSet, lateRegs := s.lateRegs } = s

/-- From s to t only bytes in [lo, lo + n) of memory change: every byte outside reads as before, and so does everything else. -/
def Machine.onlyBytes (s t : Machine.State) (lo n : Nat) : Prop :=
  (∀ a, a < lo ∨ lo + n ≤ a → t.mem.get a = s.mem.get a) ∧ { t with mem := s.mem } = s

/-- Dispatcher p past its next entry: what every fired entry does before its own effect (R265, R266). -/
def Machine.afterEntry (s : Machine.State) (p : Nat) : Machine.State :=
  (s.setDsp p { s.dsp p with nextEntry := (s.dsp p).nextEntry + 1 }).setFld (Machine.btReg p 4) 31 16 ((s.dsp p).nextEntry + 1)

end Sys2Proof
end

