-- ==== Sys2Proof/Certificates/Slice0/Obligations.lean ====
section
/-! DEFINITION. The statements for the provers. -/

open Sys2Proof Sys2Proof.Machine

/-- Register writes and reads by address. A 4-byte write that its requester may make, to an address a register of
the grade has, performs the register write with the written word and answers OK to the requester (a PCI Express
write is posted and gets no answer); an address that no register has changes nothing but the report: the write is
answered as unmapped and ADDR_UNMAPPED is raised, and the task of the request aborts. A write that comes from a
Spout port, PCI Express or the service complex to a register of a partition enters that partition's staging queue
instead. A read answers the 4 bytes of the register read; of the low word of a pair it answers the current low word
and latches the high word. The model's own choices it rests on: log entries 12, 14, 16. -/
def Obligations.RegisterAccessCommands : Prop :=
  (∀ (s : State) (r : Requester) (addr v a : Nat),
    ¬ (r = .pcie ∧ (bit (s.rd (peReg 0)) 0 = false ∨ s.isMaster r = false)) →
    s.grants r (127 * 2 ^ 41 + addr) 4 .write = true → s.mapped addr 4 = true → regionOf addr = .reg a false →
    stagingSrc r = none ∨ s.computePart a = none →
    exec (.registerWrite r addr 4 v) s = .next ((s.writeReg r a v).wrote r .ok)) ∧
  (∀ (s : State) (r : Requester) (addr width v : Nat),
    ¬ (r = .pcie ∧ (bit (s.rd (peReg 0)) 0 = false ∨ s.isMaster r = false)) →
    s.grants r (127 * 2 ^ 41 + addr) width .write = true → s.mapped addr width = false →
    exec (.registerWrite r addr width v) s =
      .next (((s.raiseReq .addrUnmapped r addr).failTask r (some .unmapped)).wrote r (respOf r (some .unmapped)))) ∧
  (∀ (s : State) (r : Requester) (addr v a p src : Nat),
    ¬ (r = .pcie ∧ (bit (s.rd (peReg 0)) 0 = false ∨ s.isMaster r = false)) →
    s.grants r (127 * 2 ^ 41 + addr) 4 .write = true → s.mapped addr 4 = true → regionOf addr = .reg a false →
    stagingSrc r = some src → s.computePart a = some p → stagedBytes (s.stage p src) + 4 ≤ 65536 →
    exec (.registerWrite r addr 4 v) s = .next ((s.setStage p src (s.stage p src ++
    [⟨s.ct, ⟨r, 127 * 2 ^ 41 + addr, false, .write (leBytes 4 v), false⟩, none, false⟩])).wrote r .ok)) ∧
  (∀ (s : State) (r : Requester) (addr a : Nat),
    ¬ (r = .pcie ∧ bit (s.rd (peReg 0)) 0 = false) → s.grants r (127 * 2 ^ 41 + addr) 4 .read = true →
    s.mapped addr 4 = true → regionOf addr = .reg a false →
    exec (.counterLowRead r addr) s = .next ((s.readReg a).2.answer r .ok (leBytes 4 (s.readReg a).1))) ∧
  (∀ (s : State) (r : Requester) (addr a : Nat),
    ¬ (r = .pcie ∧ bit (s.rd (peReg 0)) 0 = false) → s.grants r (127 * 2 ^ 41 + addr) 4 .read = true →
    s.mapped addr 4 = true → regionOf addr = .reg a false → isPairLow a = true → a ≠ tbReg 0x10 → a ≠ tbReg 0x510 →
    (∀ e < 4, a ≠ tbReg (0x614 + 0x40 * e) ∧ a ≠ tbReg (0x628 + 0x40 * e)) →
    exec (.counterLowRead r addr) s = .next ((s.latchHi (a + 4) (s.regValue (a + 4))).answer r .ok (leBytes 4 (s.regValue a))))

/-- Reads of a counter pair. A read of the low word of a 64-bit pair gives its current value and latches the high
word as it is at that moment; the read of the high word that follows gives the latched word, whatever the counter
holds by then. The model's own choices it rests on: log entry 13. -/
def Obligations.PairReads : Prop :=
  ∀ (s u : State) (a : Nat), isPairLow a = true → isPairLow (a + 4) = false →
    (∀ x ∈ [a, a + 4], x ≠ tbReg 0x10 ∧ x ≠ tbReg 0x510 ∧ ∀ e < 4, x ≠ tbReg (0x614 + 0x40 * e) ∧ x ≠ tbReg (0x628 + 0x40 * e)) →
    u.hiLatch = (s.readReg a).2.hiLatch →
    (s.readReg a).1 = s.regValue a ∧ { (s.readReg a).2 with hiLatch := s.hiLatch } = s ∧
    (u.readReg (a + 4)).1 = s.regValue (a + 4) % 2 ^ 32

/-- Structure Image commands. SI_SUBMIT reads the submitted image once and checks it: where every check passes the
image waits for its journal record, otherwise the submission is refused with the code of the first check that fails;
while an accepted hot switch is still pending it is refused with code 9, and so is SI_REVERT. IMAGE_ACCEPTANCE
raises both version floors and makes the submitted image current. HOT_SWITCH at the boundary switches the pending
hot records of its partition, those of the device with the boundary of the fallback partition, and marks the time.
SI_REVERT makes the previous image current again, or is refused with code 0xA. The model's own choices it rests on:
log entries 112, 113, 114, 134, 136, 137, 138. -/
def Obligations.StructureImages : Prop :=
  (∀ (s : State) (ring idx : Nat) (ed ml : Bool) (k : Cmd) (q : RdRes × State) (img : List Byte) (j : SigVerdict × State),
    s.si.submission = none → s.mbCmd ring idx 0x01 = some k → 0 < k.arg 0x10 4 → k.arg 0x10 4 ≤ 0x400000 →
    s.lpReady (k.arg 8 6) (k.arg 0x10 4) = true → s.hotPending = false →
    (s.begin_ ring idx).memRead .steward (k.arg 8 6) (k.arg 0x10 4) = q →
    ((if q.1.err.isSome then [] else q.1.bytes) = img) →
    q.2.judge (q.2.siKey img) (img.take (fieldAt img 0xC 4)) ⟨ed, ml⟩ = j →
    completes (.siSubmit ring idx ed ml) s fun t =>
      (j.2.siCheck img j.1.ed j.1.ml = 0 →
        t.si = { j.2.si with submission := some ⟨img.take (fieldAt img 0xC 4), ring, idx⟩ } ∧ t.mem = j.2.mem) ∧
      (j.2.siCheck img j.1.ed j.1.ml ≠ 0 → t = j.2.siFail ring idx img (j.2.siCheck img j.1.ed j.1.ml))) ∧
  (∀ (s : State) (ring idx : Nat) (ed ml : Bool) (k : Cmd),
    s.si.submission = none → s.mbCmd ring idx 0x01 = some k →
    s.lpReady (k.arg 8 6) (min (k.arg 0x10 4) 0x400000) = true → s.hotPending = true →
    exec (.siSubmit ring idx ed ml) s = .next ((s.begin_ ring idx).siEnd ring idx 9)) ∧
  (∀ (s : State) (q : Submission),
    s.si.submission = some q → s.stewardUp = true →
    exec .imageAcceptance s = .next ((((s.wr (stReg 0x100C) (max (s.rd (stReg 0x100C)) (imgVersion q.image))).wr (stReg 0x1010)
      (max (s.rd (stReg 0x1010)) (imgVersion s.si.current))).adopt q.image false).siEnd q.ring q.idx 0)) ∧
  (∀ (s : State) (p : Nat) (mine dev : Bool),
    mine = s.si.hotPend.contains p → dev = (s.si.hotDev && imgFallback s.si.current == p) → (mine || dev) = true →
    p < 4 → s.atBoundary p = true → reached s.time (s.si.acceptAt + 2000000) = true →
    imgAfter s.si.current = 0 ∨ reached s.time (imgAfter s.si.current) = true →
    completes (.hotSwitch p) s fun t => ∃ u v,
      (mine = true → ∃ w, w = (((s.takeRecords hotTypes p).applySev p).applySlots p).switchTable p ∧
        u = { w with si := { w.si with hotPend := w.si.hotPend.filter fun q => q != p } }) ∧ (mine = false → u = s) ∧
      v = (if dev then State.takeHotDevice u else u) ∧ t = (State.wr64 v (stReg 0x1014) v.time).showSi) ∧
  (∀ (s : State) (ring idx : Nat) (k : Cmd),
    s.si.submission = none → s.mbCmd ring idx 0x02 = some k → s.hotPending = false →
    completes (.siRevert ring idx) s fun t =>
      (s.si.previous.isEmpty = false ∧ bit (s.rd (stReg 0x1000)) 13 = false ∧ s.rd (stReg 0x1010) ≤ imgVersion s.si.previous →
        t = ((s.begin_ ring idx).adopt s.si.previous true).siEnd ring idx 0) ∧
      (s.si.previous.isEmpty = true ∨ bit (s.rd (stReg 0x1000)) 13 = true ∨ imgVersion s.si.previous < s.rd (stReg 0x1010) →
        t = (s.begin_ ring idx).siEnd ring idx 0xA)) ∧
  (∀ (s : State) (ring idx : Nat) (k : Cmd),
    s.si.submission = none → s.mbCmd ring idx 0x02 = some k → s.hotPending = true →
    exec (.siRevert ring idx) s = .next ((s.begin_ ring idx).siEnd ring idx 9))

/-- Array instructions issue from the head of a queue. The array instruction at the head of a context's queue that
is chosen and passes every check (validity, ownership of the tile, windows, operand data) leaves its queue and has
its own effect: PANEL fills a panel slot, ANCHOR sets a tile, PASS starts a pass, DRAIN stores a tile, SAVE writes a
tile image, RESTORE loads one, MERGE adds one. The model's own choices it rests on: log entries 21, 22, 23, 141,
142, 171. -/
def Obligations.ArrayInstructionsIssue : Prop :=
  (∀ (s : State) (c a x : Nat) (i : QInstr),
    s.headOf c a x = some i → i.op = 1 → s.chosen c a x = true → (s.issueCheck c a x i).1 = true →
    exec (.panel c a x) s = .next (((s.issueCheck c a x i).2.issued c a x).panelDo c a i)) ∧
  (∀ (s : State) (c a x : Nat) (i : QInstr),
    s.headOf c a x = some i → i.op = 2 → s.chosen c a x = true → (s.issueCheck c a x i).1 = true →
    exec (.anchor c a x) s = .next (((s.issueCheck c a x i).2.issued c a x).anchorDo c a i)) ∧
  (∀ (s : State) (c a x : Nat) (i : QInstr),
    s.headOf c a x = some i → i.op = 4 → s.chosen c a x = true → (s.issueCheck c a x i).1 = true →
    exec (.drain c a x) s = .next (((s.issueCheck c a x i).2.issued c a x).drainDo c a i)) ∧
  (∀ (s : State) (c a x : Nat) (i : QInstr),
    s.headOf c a x = some i → i.op = 5 → s.chosen c a x = true → (s.issueCheck c a x i).1 = true →
    exec (.save c a x) s = .next (((s.issueCheck c a x i).2.issued c a x).saveDo c a i)) ∧
  (∀ (s : State) (c a x : Nat) (i : QInstr),
    s.headOf c a x = some i → i.op = 7 → s.chosen c a x = true → (s.issueCheck c a x i).1 = true →
    exec (.merge c a x) s = .next (((s.issueCheck c a x i).2.issued c a x).mergeDo c a i)) ∧
  (∀ (s : State) (c a x : Nat) (i : QInstr),
    s.headOf c a x = some i → i.op = 6 → s.chosen c a x = true → (s.issueCheck c a x i).1 = true →
    completes (.restore c a x) s fun t => ∃ v, v = (s.issueCheck c a x i).2.issued c a x ∧
      t = (v.loadImage c a i.tile (v.rowBytes (spAddr c (i.slot * 256)) 10304)).occupy c a i.tile 41) ∧
  (∀ (s : State) (c a x : Nat) (i : QInstr),
    x < 4 → s.headOf c a x = some i → i.op = 3 → s.chosen c a x = true → (s.issueCheck c a x i).1 = true →
    exec (.pass c a x) s = .next (((s.issueCheck c a x i).2.issued c a x).passDo c a i)) ∧
  (∀ (s : State) (c a : Nat) (i : QInstr),
    (s.timedWait c a).headOf c a 4 = some i → i.op = 3 → (s.timedWait c a).chosen c a 4 = true →
    ((s.timedWait c a).issueCheck c a 4 i).1 = true →
    exec (.pass c a 4) s = .next ((((s.timedWait c a).issueCheck c a 4 i).2.issued c a 4).passDo c a i))

/-- Array work that completes, aborts or is written. At the last tick of its commit the oldest pass leaves the array
with its words written; a DRAIN or MERGE at its last tick leaves the array free, the DRAIN's slots full; an abort of
a cause of R92 removes the passes of its context; a write to accumulator memory of an idle array stores the enabled
bytes of the word (column 31 of a narrowed array takes nothing), one to a busy array is refused with ACC_WRITE_BUSY
and one that no window allows is a window violation; ARR_CTRL and ARR_TILE_OWNER writes change that register alone.
The model's own choices it rests on: log entry 21. -/
def Obligations.ArrayCompletions : Prop :=
  (∀ (s : State) (c a : Nat) (p : Pass) (l : List Pass),
    (s.arr c a).passes = p :: l → p.issue + p.n + 63 ≤ s.ct → exec (.passCommit c a) s = .next (s.commitDo c a p)) ∧
  (∀ (s : State) (c a : Nat) (o : ArrOp),
    s.opDone c a 4 = some o →
    exec (.drainComplete c a) s =
      .next (((s.setArr c a { s.arr c a with op := none }).setTags c o.instr.slot o.slots true).progress c o.instr.ctx)) ∧
  (∀ (s : State) (c a : Nat) (o : ArrOp),
    s.opDone c a 7 = some o →
    completes (.mergeComplete c a) s fun t => ∃ u, u = (s.setArr c a { s.arr c a with op := none }).progress c o.instr.ctx ∧
      (o.sat = false → t = u) ∧ (o.sat = true → t = u.reportSat c a o.instr.ctx o.instr.tile)) ∧
  (∀ (s : State) (c a x cause : Nat),
    1 ≤ cause → cause ≤ 5 → (((s.arr c a).passes.any fun p => p.instr.ctx == x) = true) →
    completes (.passAbort c a x cause) s fun t =>
      (cause = 1 ∨ cause = 5 → t = s.abortArr c a x cause) ∧ (cause = 2 ∨ cause = 3 → t = (s.abortArr c a x cause).abortCtx c x 5) ∧
      (cause = 4 → t = (s.abortArr c a x cause).abortCtx c x 6)) ∧
  (∀ (s : State) (r : Requester) (c a t e v : Nat),
    a < 8 → t < 8 → e < 1024 → s.reqWindowOk r (127 * 2 ^ 41 + accAddr c a t e) 8 .write = true →
    s.mapped (accAddr c a t e) 8 = true → s.arrIdle c a = true → (e % 32 = 31 → s.arrWidth c a ≠ 31) →
    completes (.accWrite r c a t e v 255) s fun u => ∃ w, w = s.memWrite r (accAddr c a t e) (leBytes 8 v) ∧ u = w.2.failTask r w.1) ∧
  (∀ (s : State) (r : Requester) (c a t e v be : Nat) (q : RdRes × State),
    a < 8 → t < 8 → e < 1024 → s.reqWindowOk r (127 * 2 ^ 41 + accAddr c a t e) 8 .write = true →
    s.mapped (accAddr c a t e) 8 = true → s.arrIdle c a = true → (e % 32 = 31 → s.arrWidth c a ≠ 31) →
    be % 256 ≠ 255 → s.memFetch r (accAddr c a t e) 8 = q → q.1.err = none →
    completes (.accWrite r c a t e v be) s fun u => ∃ w,
      w = q.2.memWrite r (accAddr c a t e) (leBytes 8 (mergeBytes be (s.ldn (accAddr c a t e) 8) v)) ∧ u = w.2.failTask r w.1) ∧
  (∀ (s : State) (r : Requester) (c a t e v : Nat),
    a < 8 → t < 8 → e < 1024 → s.reqWindowOk r (127 * 2 ^ 41 + accAddr c a t e) 8 .write = true →
    s.mapped (accAddr c a t e) 8 = true → s.arrIdle c a = true → e % 32 = 31 → s.arrWidth c a = 31 →
    exec (.accWrite r c a t e v 255) s = .next s) ∧
  (∀ (s : State) (r : Requester) (c a t e v be : Nat),
    a < 8 → t < 8 → e < 1024 → s.reqWindowOk r (127 * 2 ^ 41 + accAddr c a t e) 8 .write = true →
    s.mapped (accAddr c a t e) 8 = true → s.arrIdle c a = false →
    completes (.accWrite r c a t e v be) s fun u => ∃ i, u = s.raise .accWriteBusy (scopeOf (s.ownerOf c)) i) ∧
  (∀ (s : State) (r : Requester) (c a t e v be : Nat),
    a < 8 → t < 8 → e < 1024 → s.reqWindowOk r (127 * 2 ^ 41 + accAddr c a t e) 8 .write = false →
    exec (.accWrite r c a t e v be) s = .next (s.reqViolation r (127 * 2 ^ 41 + accAddr c a t e))) ∧
  (∀ (s : State) (r : Requester) (c a v : Nat),
    c < s.nClusters → a < 8 → s.regsWf = true →
    completes (.arrCtrlStop r c a v) s fun t => t.rd (arrReg c a 4) = v % 2 ∧ onlyRegs s t [arrReg c a 4]) ∧
  (∀ (s : State) (r : Requester) (c a v : Nat),
    c < s.nClusters → a < 8 → s.regsWf = true →
    completes (.arrTileOwnerWrite r c a v) s fun t => t.rd (arrReg c a 8) = s.tileOwners c a v % 2 ^ 32 ∧ onlyRegs s t [arrReg c a 8])

/-- Vector engines. On a free engine the chosen context's oldest step leaves the queue and runs for its length, with
the counted arbitration loss (ND_TIMING) and the context's progress as the only other effects; a step whose kernel
is not in the store leaves the queue and is refused with VEC_KERNEL_INVALID. A running step goes on until its last
tick; at its end the engine is free, the step is counted, and the next one starts. A chain word that no queued or
running DRAIN names is written and nothing else changes; a word that one names keeps its value. The model's own
choices it rests on: log entry 133. -/
def Obligations.VectorEngineCommands : Prop :=
  (∀ (s : State) (c e x : Nat) (q : VStep) (u : State) (v : Vec),
    (s.vec c e).running = none → s.vecChoice c e = some x → (s.vec c e).queue.find? (fun q => q.ctx == x) = some q →
    v = { s.vec c e with queue := dropFirst (fun r => r.ctx == x) (s.vec c e).queue, lastIssue := setAt (s.vec c e).lastIssue x s.ct } →
    (u = (if x ≠ 4 ∧ 1 < (s.vecReady c e).length then s.ndTiming (s.ownerOf c) else s)) →
    q.kernel = 0 ∨ s.kernelIn c q.kernel = true →
    exec (.vecStep c e) s = .next (((u.setVec c e v).setVec c e { v with running := some q, until_ := s.ct + q.ct }).started c x)) ∧
  (∀ (s : State) (c e x : Nat) (q : VStep) (u : State) (v : Vec),
    (s.vec c e).running = none → s.vecChoice c e = some x → (s.vec c e).queue.find? (fun q => q.ctx == x) = some q →
    v = { s.vec c e with queue := dropFirst (fun r => r.ctx == x) (s.vec c e).queue, lastIssue := setAt (s.vec c e).lastIssue x s.ct } →
    (u = (if x ≠ 4 ∧ 1 < (s.vecReady c e).length then s.ndTiming (s.ownerOf c) else s)) → q.kernel ≠ 0 →
    s.kernelIn c q.kernel = false → exec (.vecStep c e) s = .next ((u.setVec c e v).kernelInvalid c e x q.kernel)) ∧
  (∀ (s : State) (c e : Nat) (q : VStep),
    (s.vec c e).running = some q → s.ct < (s.vec c e).until_ → exec (.vecStep c e) s = .next s) ∧
  (∀ (s : State) (c e : Nat) (q : VStep) (u : State),
    (s.vec c e).running = some q → (s.vec c e).until_ ≤ s.ct →
    u = ((s.setVec c e { s.vec c e with running := none }).count64 (vecReg c e 8) 1).progress c q.ctx →
    (u.vec c e).running = none → exec (.vecStep c e) s = .next (u.vecStart c e)) ∧
  (∀ (s : State) (r : Requester) (c e off v : Nat),
    s.mayWrite .stewardSeq r c = true → c < s.nClusters → e < 2 → off < 0x200 → off % 4 = 0 →
    s.chainNamed c e (off / 32) = false → s.regsWf = true →
    completes (.vecChainWrite r c e off v) s fun t => t.rd (vecReg c e (0x100 + off)) = v % 2 ^ 32 ∧ onlyRegs s t [vecReg c e (0x100 + off)]) ∧
  (∀ (s : State) (r : Requester) (c e off v : Nat),
    s.chainNamed c e (off / 32) = true → exec (.vecChainWrite r c e off v) s = .next s)

/-- On-chip memory, tags and the Rinse. The write-back of a corrected word in a tick in which its bank's write port
is free clears the error, or leaves a word that has become uncorrectable, and changes nothing else; where the port
is in use it waits. A pool atomic reads the word, answers it and writes the new one (an FP32 add is counted as a
value hazard); on a word without error, in a tick in which no other requester uses its bank, it changes nothing
beside the word. A work-counter fetch answers the counter and adds its increment. A tag command adds the change of
one tag, seen from the next tick on, and nothing else. A scrub starts once its context is quiet, and a region
unlocks when its ticks are over. An access to a cluster is served where its window allows it and its tags are ready,
and waits where they are not; one that no window allows is a violation. The model's own choices it rests on: log
entries 27, 29, 30, 31, 165. -/
def Obligations.OnChipMemoryCommands : Prop :=
  (∀ (s : State) (c bank w : Nat),
    s.spBack.find? (inBank c bank) = some w →
    ((s.now.uses.any fun u => u.wr && some u.bank == bankOf (w * 8)) = false) →
    completes (.correctionWriteBack c bank) s fun t =>
      t = { s with spBack := s.spBack.filter (· != w), mem := if s.mem.err (w * 8) = some true then s.mem else s.mem.heal w }) ∧
  (∀ (s : State) (c bank w : Nat),
    s.spBack.find? (inBank c bank) = some w →
    ((s.now.uses.any fun u => u.wr && some u.bank == bankOf (w * 8)) = true) →
    exec (.correctionWriteBack c bank) s = .next s) ∧
  (∀ (s : State) (r : Requester) (op : AtomicOp) (a v e : Nat) (q : RdRes × State),
    poolBase ≤ a → a < poolBase + poolSize → s.reqWindowOk r (127 * 2 ^ 41 + a) (atomicLen op) .atomic = true →
    s.mapped a (atomicLen op) = true → a % atomicLen op = 0 → placeAtomic op (regionOf a) = true → workCtr a = none →
    s.rinseLocked a (atomicLen op) = false → s.memRead r a (atomicLen op) = q → q.1.err = none →
    completes (.poolAtomic r op a v e) s fun t => ∃ u : State, u = (if op = .fadd then q.2.ndValue (s.memOwner a) 1 r else q.2) ∧
      t = (u.memWrite r a (leBytes (atomicLen op) (atomicNew op (leNat q.1.bytes) v e))).2.answer r .ok (leBytes (atomicLen op) (leNat q.1.bytes))) ∧
  (∀ (s : State) (r : Requester) (op : AtomicOp) (a v e : Nat),
    poolBase ≤ a → a < poolBase + poolSize → s.reqWindowOk r (127 * 2 ^ 41 + a) (atomicLen op) .atomic = true →
    s.mapped a (atomicLen op) = true → a % atomicLen op = 0 → placeAtomic op (regionOf a) = true → workCtr a = none →
    s.rinseLocked a (atomicLen op) = false → s.errWords a (atomicLen op) = [] → op ≠ .fadd → r.ctx ≠ some 4 →
    s.now.olds = [] → (∀ u ∈ s.now.uses, u.req = r.key) →
    completes (.poolAtomic r op a v e) s fun t => t.mem.cells = (s.mem.write a (leBytes 8 (atomicNew op (s.ldn a 8) v e))).cells ∧
      (∀ b, b < a ∨ a + 8 ≤ b → t.mem.get b = s.mem.get b) ∧
      t.resp = some ⟨r, .ok, leBytes 8 (s.ldn a 8)⟩ ∧ { t with mem := s.mem, resp := s.resp, ports := s.ports } = s) ∧
  (∀ (s : State) (r : Requester) (a w inc : Nat),
    s.reqWindowOk r (127 * 2 ^ 41 + a) 8 .atomic = true → workCtr a = some w → s.unitPresent w = true → a % 8 = 0 →
    exec (.workCounterFetch r a inc) s = .next ((s.wr64 w ((s.rd64 w + inc % 2 ^ 32) % 2 ^ 64)).answer r .ok (leBytes 8 (s.rd64 w)))) ∧
  (∀ (s : State) (r : Requester) (c n : Nat) (u : State),
    s.mayWrite .stewardSeq r c = true → c < s.nClusters → n < 8192 → u = s.settleTags →
    exec (.setFull r c n) s = .next { u with tags := u.tags ++ [⟨s.ct + 1, c, n, 1, 0, true, true⟩] }) ∧
  (∀ (s : State) (r : Requester) (c n : Nat) (u : State),
    s.mayWrite .stewardSeq r c = true → c < s.nClusters → n < 8192 → u = s.settleTags →
    exec (.setEmpty r c n) s = .next { u with tags := u.tags ++ [⟨s.ct + 1, c, n, 1, 0, false, true⟩] }) ∧
  (∀ (s : State) (c x : Nat) (k : Rinse),
    ((s.rinses.find? fun r => r.cluster == c && r.ctx == x && !r.started) = some k) →
    k.swapped = true ∨ s.ctxQuiet c x = true → exec (.rinseScrub c x) s = .next (s.rinseStart k)) ∧
  (∀ (s : State) (c x : Nat) (k : Rinse),
    ((s.rinses.find? fun r => r.cluster == c && r.ctx == x && !r.started) = some k) → k.swapped = false →
    s.ctxQuiet c x = false → exec (.rinseScrub c x) s = .next s) ∧
  (∀ (s : State) (c x w : Nat) (k : Rinse) (v : Nat × Nat × Nat),
    ((s.rinses.find? fun r => r.cluster == c && r.ctx == x && r.started && r.windows.any fun v => v.1 == w) = some k) →
    ((k.windows.find? fun v => v.1 == w) = some v) → k.startAt + rinseTicks k w v.2.1 v.2.2 ≤ s.ct →
    completes (.rinseRegionDone c x w) s fun t => ∃ k1 u, k1 = { k with windows := k.windows.filter fun v => v.1 != w } ∧
      u = { s with rinses := s.rinses.map fun r => if r = k then k1 else r } ∧
      (k1.windows.isEmpty = true → t = u.rinseEnd k1) ∧ (k1.windows.isEmpty = false → t = u)) ∧
  (∀ (s : State) (a : Access) (x : Nat),
    a.req.cluster.isSome = true → s.reqWindowOk a.req a.addr (accessLen a) (accessRight a) = true →
    s.localOf a.addr = some x → clusterBase ≤ x → x < clusterBase + 0x40000000 → s.accessReady x a = true →
    completes (.remoteAccess a) s fun t => ∃ q, q = s.access x a ∧ t = (q.2.failTask a.req q.1.2).answer a.req (respOf a.req q.1.2) q.1.1) ∧
  (∀ (s : State) (a : Access) (x : Nat),
    a.req.cluster.isSome = true → s.reqWindowOk a.req a.addr (accessLen a) (accessRight a) = true →
    s.localOf a.addr = some x → clusterBase ≤ x → x < clusterBase + 0x40000000 → s.accessReady x a = false →
    exec (.remoteAccess a) s = .next s) ∧
  (∀ (s : State) (a : Access),
    a.req.cluster.isSome = true → s.reqWindowOk a.req a.addr (accessLen a) (accessRight a) = true →
    s.localOf a.addr = none → exec (.remoteAccess a) s = .next (s.sendAccess a)) ∧
  (∀ (s : State) (a : Access),
    a.req.cluster.isSome = true → s.reqWindowOk a.req a.addr (accessLen a) (accessRight a) = false →
    exec (.remoteAccess a) s = .next (s.reqViolation a.req a.addr))

/-- Mover descriptors and channels. A descriptor word is written while its entry is free, and no other register
changes; a write to a queued entry is ignored. A push of a valid descriptor of a free entry queues the entry and
changes nothing else; a push of an entry that is queued, or on a channel bound to no context, sets PUSH_REJ; an
invalid descriptor is reported. ABORT drops the queue of a channel with nothing in flight, and otherwise leaves the
channel discarding. RESUME restarts a channel that a fault has suspended, and its context once no unit of it is
suspended any more; for a channel that is not suspended it marks the swapped-out slot that is. A channel is bound
while its queue is empty. A piece issues where the arbitration of the tick serves its channel; otherwise the loss is
counted. A piece is delivered from the front of its channel; a timed piece that crossed the network is delivered at
its release, or noted as late. A descriptor whose pieces are all delivered retires. Tokens are refilled every 256
ticks. The model's own choices it rests on: log entries 33, 34, 35, 36, 37. -/
def Obligations.MoverCommands : Prop :=
  (∀ (s : State) (r : Requester) (c e word v : Nat),
    s.mayWrite .stewardSeq r c = true → c < s.nClusters → e < 32 → word < 16 → s.entryQueued c e = false →
    s.regsWf = true →
    completes (.movDescWrite r c e word v) s fun t => t.rd (descReg c e word) = v % 2 ^ 32 ∧ onlyRegs s t [descReg c e word]) ∧
  (∀ (s : State) (r : Requester) (c e word v : Nat),
    s.entryQueued c e = true → exec (.movDescWrite r c e word v) s = .next s) ∧
  (∀ (s : State) (r : Requester) (c n e : Nat),
    s.mayWrite .stewardSeq r c = true → c < s.nClusters → n < 16 → e < 32 → s.entryQueued c e = false →
    s.chanCtx c n ≤ 4 → descOk (s.descBytes c e) (s.chanCtx c n == 4) = true →
    s.tagSidesOk c n (s.chanCtx c n) (s.desc c e) = true →
    completes (.movPush r c n e) s fun t => (t.chan c n).queue = (s.chan c n).queue ++ [e] ∧
      ((t.chan c n).state = if (s.chan c n).state = 0 then 1 else (s.chan c n).state) ∧ { t with movs := s.movs } = s) ∧
  (∀ (s : State) (r : Requester) (c n e : Nat),
    s.mayWrite .stewardSeq r c = true → c < s.nClusters → n < 16 → e < 32 →
    s.entryQueued c e = true ∨ 4 < s.chanCtx c n →
    exec (.movPush r c n e) s = .next (s.orReg (movReg c (0x108 + 0x20 * n)) (2 ^ 8))) ∧
  (∀ (s : State) (r : Requester) (c n e : Nat),
    s.mayWrite .stewardSeq r c = true → c < s.nClusters → n < 16 → e < 32 → s.entryQueued c e = false →
    s.chanCtx c n ≤ 4 →
    descOk (s.descBytes c e) (s.chanCtx c n == 4) = false ∨ s.tagSidesOk c n (s.chanCtx c n) (s.desc c e) = false →
    exec (.movPush r c n e) s = .next (s.descInvalid c n e 0 0)) ∧
  (∀ (s : State) (r : Requester) (c n : Nat) (v : MovChan),
    s.mayWrite .stewardSeq r c = true → c < s.nClusters → n < 16 → v = s.chan c n →
    completes (.movAbort r c n) s fun t =>
      (v.inflight = [] → t = s.setChan c n { MovChan.idle with tokens := v.tokens, cause := v.cause, refillAt := v.refillAt }) ∧
      (v.inflight ≠ [] → t = s.setChan c n { v with state := 7, pos := none, admitted := [], srcMask := [] })) ∧
  (∀ (s : State) (r : Requester) (c n : Nat) (v : MovChan) (u : State),
    s.mayWrite .stewardSeq r c = true → c < s.nClusters → n < 16 → v = s.chan c n → v.state = 4 →
    (u = s.setChan c n { v with state := if v.queue.isEmpty then 0 else 1 }) →
    completes (.movResume r c n) s fun t =>
      (s.ctxState c (s.chanCtx c n) = 3 ∧ (u.chansOf c (s.chanCtx c n)).any (fun m => (u.chan c m).state == 4) = false ∧
        ((s.att c).ctx == some (s.chanCtx c n) && s.fld (attReg c 0) 2 0 == 5) = false → t = u.setCtxState c (s.chanCtx c n) 1 0) ∧
      (s.ctxState c (s.chanCtx c n) ≠ 3 ∨ (u.chansOf c (s.chanCtx c n)).any (fun m => (u.chan c m).state == 4) = true ∨
        ((s.att c).ctx == some (s.chanCtx c n) && s.fld (attReg c 0) 2 0 == 5) = true → t = u)) ∧
  (∀ (s : State) (r : Requester) (c n : Nat),
    s.mayWrite .stewardSeq r c = true → c < s.nClusters → n < 16 → (s.chan c n).state ≠ 4 →
    exec (.movResume r c n) s = .next (s.resumeLater c fun v => v.chans.any fun k => k.n == n && k.state == 4)) ∧
  (∀ (s : State) (r : Requester) (c n x : Nat),
    s.mayWrite .stewardSeq r c = true → c < s.nClusters → n < 16 → (s.chan c n).queue = [] →
    completes (.movCtxBind r c n x) s fun t => t = s.setFld (movReg c (0x100 + 0x20 * n)) 2 0 x ∧ onlyRegs s t [movReg c (0x100 + 0x20 * n)]) ∧
  (∀ (s : State) (r : Requester) (c n x e : Nat) (l : List Nat),
    (s.chan c n).queue = e :: l → exec (.movCtxBind r c n x) s = .next s) ∧
  (∀ (s : State) (c n : Nat) (net : Bool) (u : State),
    s.tryPiece c n = (some net, u) → s.piecesNow c (·.1 == n) < 2 → s.servesChan c n net = true →
    exec (.moverPieceIssue c n) s = .next (u.pieceNoted c n net)) ∧
  (∀ (s : State) (c n : Nat) (net : Bool) (u : State),
    s.tryPiece c n = (some net, u) → s.piecesNow c (·.1 == n) < 2 → s.servesChan c n net = false →
    exec (.moverPieceIssue c n) s = .next (s.pieceLost c n)) ∧
  (∀ (s : State) (c n : Nat) (u : State), s.tryPiece c n = (none, u) → exec (.moverPieceIssue c n) s = .next u) ∧
  (∀ (s : State) (c n : Nat) (q : Piece) (l : List Piece),
    (s.chan c n).inflight = q :: l → q.net = false ∨ s.chanCtx c n ≠ 4 ∨ (s.chan c n).state = 7 →
    exec (.pieceDelivery c n) s = .next (s.deliverPiece c n q)) ∧
  (∀ (s : State) (c n : Nat) (q : Piece) (l : List Piece),
    (s.chan c n).inflight = q :: l → q.net = true → s.chanCtx c n = 4 → (s.chan c n).state ≠ 7 →
    exec (.pieceDelivery c n) s = .next s) ∧
  (∀ (s : State) (c n : Nat) (q : Piece) (l : List Piece),
    (s.chan c n).inflight = q :: l → q.net = true → s.chanCtx c n = 4 → q.issue + (s.desc c q.entry).release ≤ s.ct →
    q.waits = [] → exec (.timedPieceRelease c n true) s = .next (s.deliverPiece c n q)) ∧
  (∀ (s : State) (c n : Nat) (q : Piece) (l : List Piece),
    (s.chan c n).inflight = q :: l → q.net = true → s.chanCtx c n = 4 → q.issue + (s.desc c q.entry).release ≤ s.ct →
    q.late = false →
    exec (.timedPieceRelease c n false) s =
      .next ((s.setChan c n { s.chan c n with inflight := { q with late := true } :: l }).lateData c n (s.ct - (q.issue + (s.desc c q.entry).release)))) ∧
  (∀ (s : State) (c n : Nat) (staged : Bool) (q : Piece) (l : List Piece),
    (s.chan c n).inflight = q :: l → s.ct < q.issue + (s.desc c q.entry).release →
    exec (.timedPieceRelease c n staged) s = .next s) ∧
  (∀ (s : State) (c n e : Nat) (l p : List Nat),
    (s.chan c n).queue = e :: l → (s.chan c n).pos = some p → (s.chan c n).inflight = [] → (s.chan c n).state ≠ 7 →
    (s.desc c e).over p = true → exec (.descriptorRetire c n) s = .next (s.retire c n e)) ∧
  (∀ (s : State) (c : Nat),
    s.ct % 256 = 0 → exec (.tokenRefill c) s = .next ((List.range 16).foldl (fun s n => s.refill c n) s)) ∧
  (∀ (s : State) (c : Nat), s.ct % 256 ≠ 0 → exec (.tokenRefill c) s = .next s)

/-- An operator of the list starts, or its descriptor is refused. For every operator row: a context whose tiler may
act and is between operators reads the next descriptor of its list (a read that gives none has its own effect);
where that descriptor names this operator (or cannot be told), and it passes the operator's check and its plan fits
the arena, it starts: it is held, its flags, its item count and its abort mark are clear, and, on a cluster with a
share, its items and its first work are known. One that fails the check, or whose opcode is reserved, is refused
with DESC_INVALID; one that does not fit raises TILER_ARENA. DETECT then hands its job over, where that is the next
step of its work. The model's own choices it rests on: log entry 39. -/
def Obligations.OperatorStarts : Prop :=
  ∀ (s : State) (c x op : Nat) (i : Instr) (k : OpKind) (f : State → State) (w u : State) (r : Option (List Byte)),
    ((op, i, k) ∈
    [(0x01, Instr.matmul c x, arrayKind c x), (0x10, Instr.conv2d c x, arrayKind c x),
     (0x11, Instr.dwconv2d c x, arrayKind c x), (0x12, Instr.groupconv2d c x, arrayKind c x),
     (0x13, Instr.poolMax c x, pixelKind poolBaseOk fun s => s.poolItem c x 0x08),
     (0x14, Instr.poolAvg c x, pixelKind poolBaseOk fun s => s.poolItem c x 0x09),
     (0x15, Instr.resize c x, pixelKind poolBaseOk fun s => s.resizeItem c x),
     (0x21, Instr.accept c x, acceptKind c x), (0x30, Instr.elemwise c x, rowKind c x 0x02),
     (0x31, Instr.layernorm c x, rowKind c x 0x03), (0x32, Instr.rmsnorm c x, rowKind c x 0x04),
     (0x33, Instr.softmax c x, rowKind c x 0x05), (0x34, Instr.reduce c x, rowKind c x 0x06),
     (0x35, Instr.cast c x, rowKind c x 0x07), (0x38, Instr.bounds c x, boundsKind c x),
     (0x40, Instr.copy c x, copyKind c x), (0x41, Instr.census c x, copyKind c x)] ∧ f = id ∨
      (op, i, k) = (0x28, Instr.detect c x, detectKind c x) ∧
        f = fun t => if t.headIs c x (fun w => w == .detect) && (t.opNow c x == some 0x28) then t.detectHand c x else t) →
    s.tilerMay c x = true → (s.opNow c x).getD op = op → w = s.tilerTake c x → (w.til c x).phase = 0 → w.readOp c x = (r, u) →
    ∃ t, exec i s = .next (f t) ∧ (r = none → t = u) ∧ ∀ l v share, r = some l → v = (u.modTil c x fun t => t.take l).tilState c 1 →
      share = (v.leads c x || distOf l) →
      (catalogue.contains (fieldAt l 0 1) = true → k.ok v l = true → (share = true → k.fits v l = true) →
        (t.til c x).phase = 1 ∧ (t.til c x).desc = l ∧ (t.til c x).items = 0 ∧ (t.til c x).aborted = false ∧
        (t.til c x).work = (if share then k.work l else []) ∧ (t.til c x).total = (if share then k.total v l else 0) ∧ t.mem = u.mem) ∧
      (catalogue.contains (fieldAt l 0 1) = false ∨ k.ok v l = false → t = v.descRefused c x) ∧
      (catalogue.contains (fieldAt l 0 1) = true → k.ok v l = true → share = true → k.fits v l = false → t = v.arenaFault c x)

/-- A started operator runs its held item, or takes the next one. For every operator row: a started operator first
emits the work it owes, as far as that can go. Where work is left, or it has been aborted or bound over, that is
all. Otherwise one that holds an item does the work of that item; one that holds none takes its next item, which
starts with the sequencer in state 2; where no item is left and all it issued has ended, its share is finished and
its completion word due. DETECT then hands its job over, where that is the next step of its work. The model's own
choices it rests on: log entries 39, 45. -/
def Obligations.OperatorRuns : Prop :=
  ∀ (s : State) (c x op : Nat) (i : Instr) (k : OpKind) (f : State → State) (w e : State) (b : Bool) (n : Option Nat) (u : State),
    ((op, i, k) ∈
    [(0x01, Instr.matmul c x, arrayKind c x), (0x10, Instr.conv2d c x, arrayKind c x),
     (0x11, Instr.dwconv2d c x, arrayKind c x), (0x12, Instr.groupconv2d c x, arrayKind c x),
     (0x13, Instr.poolMax c x, pixelKind poolBaseOk fun s => s.poolItem c x 0x08),
     (0x14, Instr.poolAvg c x, pixelKind poolBaseOk fun s => s.poolItem c x 0x09),
     (0x15, Instr.resize c x, pixelKind poolBaseOk fun s => s.resizeItem c x),
     (0x21, Instr.accept c x, acceptKind c x), (0x30, Instr.elemwise c x, rowKind c x 0x02),
     (0x31, Instr.layernorm c x, rowKind c x 0x03), (0x32, Instr.rmsnorm c x, rowKind c x 0x04),
     (0x33, Instr.softmax c x, rowKind c x 0x05), (0x34, Instr.reduce c x, rowKind c x 0x06),
     (0x35, Instr.cast c x, rowKind c x 0x07), (0x38, Instr.bounds c x, boundsKind c x),
     (0x40, Instr.copy c x, copyKind c x), (0x41, Instr.census c x, copyKind c x)] ∧ f = id ∨
      (op, i, k) = (0x28, Instr.detect c x, detectKind c x) ∧
        f = fun t => if t.headIs c x (fun w => w == .detect) && (t.opNow c x == some 0x28) then t.detectHand c x else t) →
    s.tilerMay c x = true → (s.opNow c x).getD op = op → w = s.tilerTake c x → (w.til c x).phase = 1 →
    e = w.emit c x ((w.til c x).work.length + 1) →
    (e.opRuns_ c x = false ∨ (e.til c x).work ≠ [] → exec i s = .next (f e)) ∧
    (e.opRuns_ c x = true → (e.til c x).work = [] →
      (e.item c x ≠ 0xFFFFFFFF → exec i s = .next (f (k.go e))) ∧
      (e.item c x = 0xFFFFFFFF → e.nextItem c x (e.til c x).total (wctrOf (w.til c x).desc) (distOf (w.til c x).desc) = (b, n, u) →
        (b = false → exec i s = .next (f u)) ∧
        (∀ j, b = true → n = some j →
          exec i s = .next (f (if k.isItem u j then ((k.start (u.setItem c x j) j).taskTable c).tilState c 2 else u))) ∧
        (b = true → n = none → exec i s = .next (f (if u.ctxIdle c x then (u.opDoneShare c x).tilState c 0 else u)))))

/-- Items are taken in order and end. A fetch of an item of an undistributed operator gives the next item in order
while that is below the total, and none from there on. An item that ends leaves no item held and memory as it was. A
row kernel that is not in the cluster's kernel set is refused with KERNEL_INVALID. COPY and CENSUS start as one
Mover descriptor taken from their own descriptor, and then wait for it. The model's own choices it rests on: log
entries 39, 126. -/
def Obligations.OperatorItems : Prop :=
  (∀ (s : State) (c x total w : Nat),
    (s.til c x).allTaken = false → (s.til c x).next < total →
    (s.nextItem c x total w false).1 = true ∧ (s.nextItem c x total w false).2.1 = some (s.til c x).next) ∧
  (∀ (s : State) (c x total w : Nat), total ≤ (s.til c x).next → s.nextItem c x total w false = (true, none, s)) ∧
  (∀ (s : State) (c x : Nat), s.regsWf = true → (s.itemEnd c x).item c x = 0xFFFFFFFF ∧ (s.itemEnd c x).mem = s.mem) ∧
  (∀ (s : State) (c x kernel : Nat),
    s.kernelIn c kernel = false → s.rowItem c x kernel = s.kernelInvalid c (s.stepEngine c) x kernel) ∧
  (∀ (s : State) (c x j : Nat),
    ((copyKind c x).start s j).mem = s.mem ∧ (copyKind c x).start s j = s.modTil c x fun t => { t with work := [.mov (fieldAt t.desc 8 64), .sync] })

/-- The tiler steps through its work. For a context whose tiler may act: a finished or aborted share whose issued
work has ended writes its completion word; the head of its work runs when it is its turn: WINDOW builds its chunk
and, where it succeeds, the work moves on, a missing WINDOW kernel being reported; a phase-2 item waits for its
count word or emits; COUNT_WORD_READ reads the word (a read that stops the context has that effect alone), goes on
once the word has reached the value needed and raises LATE_DATA in a timed context where it has not. CL_ARR_FLUSH
empties the queues of the context on the arrays of its mask and changes no register and no memory. After ACC_BOUND
the split-K fallback restarts the item once the arrays and the Mover have ended. The model's own choices it rests
on: log entries 40, 42, 45. -/
def Obligations.TilerWorkSteps : Prop :=
  (∀ (s : State) (c x : Nat),
    c < s.nClusters → x < 5 → (s.til c x).active = true → (s.til c x).phase = 2 →
    (s.til c x).aborted = true ∨ s.ctxIdle c x = true → exec (.completionWord c x) s = .next (s.completionWord c x)) ∧
  (∀ (s : State) (c x slot t ch ta : Nat) (w : List Work) (it : Item),
    s.tilerMay c x = true → s.opRuns_ c x = true → (s.til c x).work = .window slot t ch :: w →
    (s.plan c x).item (s.item c x) = some it → s.kernelIn c 0x0B = true →
    (ta = (if (s.plan c x).own = 0 then (s.plan c x).t else min (s.plan c x).t (s.plan c x).own)) →
    ∃ q, q = s.windowJob c x slot t ch ta (t % ta) ((s.plan c x).forItem (s.til c x).desc it) (s.til c x).desc it ∧
      exec (.window c x) s = .next (if q.1 && q.2.opRuns_ c x then q.2.popWork c x else q.2)) ∧
  (∀ (s : State) (c x slot t ch : Nat) (w : List Work) (it : Item),
    s.tilerMay c x = true → s.opRuns_ c x = true → (s.til c x).work = .window slot t ch :: w →
    (s.plan c x).item (s.item c x) = some it → s.kernelIn c 0x0B = false →
    exec (.window c x) s = .next (s.kernelInvalid c (s.stepEngine c) x 0x0B)) ∧
  (∀ (s : State) (r : Requester) (c x arrays : Nat),
    s.mayWrite .stewardSeq r c = true → c < s.nClusters → x < 5 →
    completes (.arrFlush r c x arrays) s fun t => t = s.arrFlush c x arrays ∧ t.regs = s.regs ∧ t.mem = s.mem ∧
      ∀ a < 8, bit arrays a = false → t.arr c a = s.arr c a) ∧
  (∀ (s : State) (c x : Nat),
    c < s.nClusters → x < 4 → (s.til c x).bound = true → (s.til c x).phase = 1 → (s.til c x).aborted = false →
    (s.ctx c x).held = false →
    ∃ u, u = ((s.arrFlush c x 0xFF).abortChans c x).tilState c 5 ∧
      exec (.splitKFallback c x) s = .next (if u.arrsIdle c x && u.movIdle c x then u.fallback c x else u)) ∧
  (∀ (s : State) (c x va need : Nat) (w : List Work) (it : Item),
    s.tilerMay c x = true → s.opRuns_ c x = true → (s.til c x).work = .waitCount va need :: w →
    (s.plan c x).item (s.item c x) = some it → it.kind = 2 → x ≠ 4 → fieldAt (s.til c x).desc 0 1 ≠ 0x20 →
    exec (.phase2Item c x) s = .next (s.tilerWait c x va need)) ∧
  (∀ (s : State) (c x : Nat) (k : Work) (w : List Work) (it : Item),
    s.tilerMay c x = true → s.opRuns_ c x = true → (s.til c x).work = k :: w → (∀ va need, k ≠ .waitCount va need) →
    (s.plan c x).item (s.item c x) = some it → it.kind = 2 → fieldAt (s.til c x).desc 0 1 ≠ 0x20 →
    exec (.phase2Item c x) s = .next (s.emit c x (w.length + 2))) ∧
  (∀ (s : State) (c va need : Nat) (w : List Work) (u : State),
    s.tilerMay c 4 = true → s.opRuns_ c 4 = true → (s.til c 4).work = .waitCount va need :: w →
    ((if fieldAt (s.til c 4).desc 0 1 = 0x20 then s.attRead c 4 none va 8 else s.xRead c 4 va 8) = (none, u)) →
    exec (.countWordRead c) s = .next u) ∧
  (∀ (s : State) (c va need : Nat) (w : List Work) (d : List Byte) (u : State),
    s.tilerMay c 4 = true → s.opRuns_ c 4 = true → (s.til c 4).work = .waitCount va need :: w →
    ((if fieldAt (s.til c 4).desc 0 1 = 0x20 then s.attRead c 4 none va 8 else s.xRead c 4 va 8) = (some d, u)) →
    exec (.countWordRead c) s = .next (if waitOver (leNat d) need then u.popWork c 4 else u.lateData c 0 0))

/-- Detection jobs start, end and hold to their bound. An idle DPP of the grade with a queued job starts it: the job
leaves the queue and runs from this tick with its T_bound, contexts that the full queue had blocked may go on, and
it reads the blocks its tiler has staged; a running one goes on reading. A job whose input has been read ends: its
records are written, and an elastic one signals its tiler at once, a timed one at its bound. A job that still waits
for input, or has ended, or whose bound has not come, only goes on reading. The model's own choices it rests on: log
entries 158, 159, 160. -/
def Obligations.DetectionJobs : Prop :=
  (∀ (s : State) (d : Nat) (j : DppJob) (l : List DppJob) (r : DppRun),
    (s.dpp d).running = none → (s.dpp d).queue = j :: l → d < s.nDpps →
    r = { job := j, start := s.ct, bound := detBound j.desc, ends := (detEnds j.desc).1, taken := 0, scores := [], boxes := [], priors := [], read := false, records := [], dropped := 0, lost := 0, ended := false } →
    exec (.dppJobStart d) s = .next (((s.setDpp d { queue := l, running := some r }).dppRoom d).dppRead d)) ∧
  (∀ (s : State) (d : Nat) (j : DppRun), (s.dpp d).running = some j → exec (.dppJobStart d) s = .next (s.dppRead d)) ∧
  (∀ (s : State) (d : Nat) (u : State) (j : DppRun),
    u = s.dppRead d → u.dppReady d = some j → j.ended = false →
    completes (.dppJobEnd d) s fun t => (j.job.timed = false → t = (u.dppEnd d j).dppSignal d j) ∧ (j.job.timed = true → t = u.dppEnd d j)) ∧
  (∀ (s : State) (d : Nat) (u : State),
    u = s.dppRead d → (u.dppReady d = none ∨ ∃ j, u.dppReady d = some j ∧ j.ended = true) →
    exec (.dppJobEnd d) s = .next u) ∧
  (∀ (s : State) (d : Nat) (u : State) (j : DppRun),
    u = s.dppRead d → u.dppReady d = some j → j.job.timed = true → j.start + j.bound ≤ u.ct →
    completes (.dppTBound d) s fun t => (j.ended = true → t = u.dppSignal d j) ∧ (j.ended = false → t = (u.dppEnd d j).dppSignal d j)) ∧
  (∀ (s : State) (d : Nat) (u : State),
    u = s.dppRead d → (∀ j, u.dppReady d = some j → j.job.timed = false ∨ u.ct < j.start + j.bound) →
    exec (.dppTBound d) s = .next u)

/-- Attention steps: held sets, builds, commits and items. SEQ_SET is refused INVALID for a wrong partition or
sequence, refused with SEQ_SET_REJECT when it names a step already built, and held otherwise. The elastic step task
at the head of its queue is built; a build that fails completes its launch ABORTED. A commit follows the end of the
step task and leaves the sequencer idle. ATTN_STEP starts at its place in the list, opens its work list, fetches its
next item when it holds none, and an elastic one ends its share when everything issued has ended; append and attend
items run as the work list gives them, an elastic attend item waiting for its APPENDED count. The sequencer
suspended by a fault resumes, and its context with it once no unit of it is suspended any more; one that is not
suspended marks the swapped-out slot that is. At MAX_CT a timed ATTN_STEP ends its share or raises ATT_OVERRUN. The
model's own choices it rests on: log entries 46, 47, 49, 50. -/
def Obligations.AttentionSteps : Prop :=
  (∀ (s : State) (ring idx : Nat) (k : Cmd),
    s.mbCmd ring idx 0x08 = some k → 4 ≤ k.part ∨ 1024 ≤ k.arg 8 2 →
    exec (.seqSet ring idx) s = .next ((s.begin_ ring idx).complete ring idx stInvalid 0 0)) ∧
  (∀ (s : State) (ring idx : Nat) (k : Cmd),
    s.mbCmd ring idx 0x08 = some k → k.part < 4 → k.arg 8 2 < 1024 → 0 < k.arg 0x10 8 →
    k.arg 0x10 8 ≤ (s.begin_ ring idx).rd64 (seqCtl k.part 8) →
    exec (.seqSet ring idx) s =
      .next (((s.begin_ ring idx).raise .seqSetReject k.part { info0 := k.arg 8 2 }).complete ring idx stRefused 0 0)) ∧
  (∀ (s : State) (ring idx : Nat) (k : Cmd),
    s.mbCmd ring idx 0x08 = some k → k.part < 4 → k.arg 8 2 < 1024 →
    k.arg 0x10 8 = 0 ∨ (s.begin_ ring idx).rd64 (seqCtl k.part 8) < k.arg 0x10 8 →
    exec (.seqSet ring idx) s = .next ((s.begin_ ring idx).hold
      { ring := ring, idx := idx, part := k.part, apply := k.arg 0x10 8, due := false, seed := none, seq := k.arg 8 2, entry := sliceBytes k.entry 0x18 32 })) ∧
  (∀ (s : State) (p : Nat) (q : QLaunch),
    s.stepLaunch p = some q → s.stewardUp = true → s.partRuns p = true → s.seqState p = 0 →
    bit (s.rd (seqCtl p 4)) 0 = false →
    ∃ b u, b = s.build p ∧ u = { b.2 with launchQ := b.2.launchQ.erase q } ∧
      exec (.stepBuild p) s = .next (if b.1 then b.2 else q.cmd.elim u fun e => u.complete e.1 e.2 stAborted 0 0)) ∧
  (∀ (s : State) (p t : Nat) (k : Task),
    (s.step_ p).task = some t → s.task t = some k → k.ended = true →
    exec (.stepCommit p) s = .next (((if k.aborted then s else s.commit p).setStep p SeqStep.idle).setSeqState p 0 |>.applyDue p)) ∧
  (∀ (s : State) (p : Nat), (s.step_ p).task = none → p < 4 → exec (.stepCommit p) s = .next (s.applyDue p)) ∧
  (∀ (s : State) (c x : Nat) (w : State),
    s.tilerMay c x = true → (s.opNow c x).getD 0x20 = 0x20 → s.attFree c x = true → w = s.tilerTake c x →
    (w.til c x).phase = 0 → exec (.attnStep c x) s = .next (w.attStart c x)) ∧
  (∀ (s : State) (c x : Nat) (w : State),
    s.tilerMay c x = true → (s.opNow c x).getD 0x20 = 0x20 → s.attFree c x = true → w = s.tilerTake c x →
    w.opRuns_ c x = true → (w.til c x).att.phase = 0 → exec (.attnStep c x) s = .next (w.attOpen c x)) ∧
  (∀ (s : State) (c x : Nat) (w : State),
    s.tilerMay c x = true → (s.opNow c x).getD 0x20 = 0x20 → s.attFree c x = true → w = s.tilerTake c x →
    w.opRuns_ c x = true → (w.til c x).att.phase = 1 → w.item c x = 0xFFFFFFFF →
    exec (.attnStep c x) s = .next (w.attNext c x)) ∧
  (∀ (s : State) (c x : Nat) (w : State),
    s.tilerMay c x = true → (s.opNow c x).getD 0x20 = 0x20 → s.attFree c x = true → w = s.tilerTake c x →
    w.opRuns_ c x = true → (w.til c x).att.phase = 1 → w.item c x ≠ 0xFFFFFFFF → exec (.attnStep c x) s = .next w) ∧
  (∀ (s : State) (c x : Nat) (w : State),
    s.tilerMay c x = true → (s.opNow c x).getD 0x20 = 0x20 → s.attFree c x = true → w = s.tilerTake c x →
    w.opRuns_ c x = true → (w.til c x).att.phase = 2 →
    exec (.attnStep c x) s = .next (if x ≠ 4 ∧ w.ctxIdle c x = true then (w.opDoneShare c x).tilState c 0 else w)) ∧
  (∀ (s : State) (c x k h : Nat) (r : StepRunRec) (u : State),
    s.attMay c x = true → s.attHeld c x = (some (r, k, h, none), u) →
    exec (.appendItem c x) s = .next (((u.attState c 1 x).attShow c x).appendItem c x r k h)) ∧
  (∀ (s : State) (c x : Nat) (u : State),
    s.attMay c x = true → (∀ va need w, (s.til c x).work ≠ .waitCount va need :: w) → s.attHeld c x = (none, u) →
    exec (.appendItem c x) s = .next u ∧ exec (.attendItem c x) s = .next u) ∧
  (∀ (s : State) (c x k h g : Nat) (r : StepRunRec) (u : State),
    s.attMay c x = true → (∀ va need w, (s.til c x).work ≠ .waitCount va need :: w) →
    s.attHeld c x = (some (r, k, h, some g), u) →
    exec (.attendItem c x) s = .next ((u.attState c 2 x).attendItem c x r h g)) ∧
  (∀ (s : State) (c x va need : Nat) (w : List Work),
    s.attMay c x = true → (s.til c x).work = .waitCount va need :: w → x ≠ 4 →
    exec (.attendItem c x) s = .next (s.attWait c x va need)) ∧
  (∀ (s : State) (r : Requester) (c x : Nat),
    s.mayWrite .stewardSeq r c = true → c < s.nClusters → s.fld (attReg c 0) 2 0 = 5 → (s.att c).ctx = some x →
    ∃ u, u = (s.setAtt c Att.idle).attState c 0 7 ∧ exec (.attResume r c) s =
      .next (if u.ctxState c x = 3 ∧ ((u.chansOf c x).any fun m => (u.chan c m).state == 4) = false then u.setCtxState c x 1 0 else u)) ∧
  (∀ (s : State) (c : Nat),
    c < s.nClusters → (s.til c 4).active = true → (s.til c 4).phase = 1 → (s.til c 4).aborted = false →
    fieldAt (s.til c 4).desc 0 1 = 0x20 → (s.til c 4).att.startAt + attMaxCt (s.til c 4).desc ≤ s.ct →
    (s.til c 4).att.phase = 2 → s.ctxIdle c 4 = true →
    exec (.attOverrun c) s = .next (((s.opDoneShare c 4).tilState c 0).attState c 0 7)) ∧
  (∀ (s : State) (r : Requester) (c : Nat),
    s.mayWrite .stewardSeq r c = true → c < s.nClusters → s.fld (attReg c 0) 2 0 ≠ 5 →
    exec (.attResume r c) s = .next (s.resumeLater c fun v => v.attHeld)) ∧
  (∀ (s : State) (c : Nat) (u : State),
    c < s.nClusters → (s.til c 4).active = true → (s.til c 4).phase = 1 → (s.til c 4).aborted = false →
    fieldAt (s.til c 4).desc 0 1 = 0x20 → (s.til c 4).att.startAt + attMaxCt (s.til c 4).desc ≤ s.ct →
    (s.til c 4).att.phase ≠ 2 ∨ s.ctxIdle c 4 = false →
    u = (s.setFld (attReg c 0) 31 28 3).orReg (attReg c 0) (2 ^ 27) →
    exec (.attOverrun c) s = .next ((u.raiseCl .attOverrun c (some 4) (8 * c + 2) 0 (u.opIndex c 4) 0).abortCtx c 4 6))

/-- Walks, fences, windows and zero-fill. A page walk for a live elastic context walks from its root (an attention
walk in a sequence region from the snapshot that the step took), counts itself and installs the leaf it finds where
that allows the access, unless a fence of that sequence is outstanding; a leaf that does not allow it, or no leaf,
is reported to its requester. A fence that the Steward issues drops every matching unlocked entry of the store and
of the micro-tables, counts itself and waits, and nothing else changes; with 16 outstanding it is ignored and
FENCE_BUSY is set. A mailbox FENCE waits while 16 are outstanding; for its own partition it issues one, for another
it is INVALID. The oldest fence retires once it is done, counts itself and completes its command. A window word is
written masked to its fields, and words other than word 0 change nothing else. A zero-fill zeroes, for each locked
window of the context, the pages of the Z leaves that its tables name inside it, and releases those windows. The
model's own choices it rests on: log entries 51, 52, 151, 175. -/
def Obligations.TranslationCommands : Prop :=
  (∀ (s : State) (r : Requester) (c x va : Nat) (right : Right) (n : Option Snap) (k : Nat × Nat) (w : (Leaf ⊕ XRes) × State) (u : State) (lf : Leaf) (e : Xl) (ga : Nat),
    s.ctxLive c x = true → x < 4 → va < 2 ^ 47 → n = s.snapAt r c va →
    (k = (n.map fun q => (2, q.root)).getD (1, s.rootOf c x)) → w = s.walkFrom r va 3 k.1 k.2 →
    u = State.walked w.2 → w.1 = .inl lf → e = leafXl lf ((s.ownerOf c).getD 7) (s.asidOf c x) va n false →
    e.answer va right = .ok ga →
    exec (.pageWalk r c x va right) s = .next (if u.fenced e then u else ({ u with tu := putStore u.tu e } : State).putMicro c e)) ∧
  (∀ (s : State) (r : Requester) (c x va : Nat) (right : Right) (n : Option Snap) (k : Nat × Nat) (w : (Leaf ⊕ XRes) × State) (u : State) (lf : Leaf) (e : Xl) (q : XRes),
    s.ctxLive c x = true → x < 4 → va < 2 ^ 47 → n = s.snapAt r c va →
    (k = (n.map fun q => (2, q.root)).getD (1, s.rootOf c x)) → w = s.walkFrom r va 3 k.1 k.2 →
    u = State.walked w.2 → w.1 = .inl lf → e = leafXl lf ((s.ownerOf c).getD 7) (s.asidOf c x) va n false →
    e.answer va right = q → (∀ ga, q ≠ .ok ga) →
    exec (.pageWalk r c x va right) s = .next (u.walkReport r c x va right n q)) ∧
  (∀ (s : State) (r : Requester) (c x va : Nat) (right : Right) (n : Option Snap) (k : Nat × Nat) (w : (Leaf ⊕ XRes) × State) (u : State) (q : XRes),
    s.ctxLive c x = true → x < 4 → va < 2 ^ 47 → n = s.snapAt r c va →
    (k = (n.map fun q => (2, q.root)).getD (1, s.rootOf c x)) → w = s.walkFrom r va 3 k.1 k.2 →
    u = State.walked w.2 → w.1 = .inr q →
    exec (.pageWalk r c x va right) s = .next (State.walkReport (if q = .invalid then u.pteInvalid r c x va else u) r c x va right n q)) ∧
  (∀ (s : State) (hi cmd : Nat),
    cmd = hi % 2 ^ 32 * 2 ^ 32 + s.rd (tuReg 0x10) → s.tu.fences.length < 16 →
    completes (.fenceIssue .steward hi) s fun t => t.tu.store = (s.tu.store.filter fun e => !fenceHits cmd e) ∧
      t.tu.micro = ((s.tu.micro.map fun (e : Nat × List Xl) => (e.1, e.2.filter fun e => !fenceHits cmd e)).filter fun e => !e.2.isEmpty) ∧
      t.tu.fences = s.tu.fences ++ [{ cmd := cmd, issue := s.ct, mb := none, users := s.fenceUsers cmd }] ∧
      t.regs = (s.countWrap (tuReg 0x18) 1).regs ∧ { t with regs := s.regs, tu := s.tu } = s) ∧
  (∀ (s : State) (hi : Nat),
    16 ≤ s.tu.fences.length → exec (.fenceIssue .steward hi) s = .next (s.orReg (tuReg 0) (2 ^ 9))) ∧
  (∀ (s : State) (ring idx : Nat), 16 ≤ s.tu.fences.length → exec (.fence ring idx) s = .next s) ∧
  (∀ (s : State) (ring idx : Nat) (k : Cmd),
    s.mbCmd ring idx 0x0A = some k → s.tu.fences.length < 16 → k.part = bits (k.arg 8 8) 3 2 →
    exec (.fence ring idx) s = .next ((s.begin_ ring idx).fenceIssue (k.arg 8 8) (some (ring, idx)))) ∧
  (∀ (s : State) (ring idx : Nat) (k : Cmd),
    s.mbCmd ring idx 0x0A = some k → s.tu.fences.length < 16 → k.part ≠ bits (k.arg 8 8) 3 2 →
    exec (.fence ring idx) s = .next ((s.begin_ ring idx).complete ring idx stInvalid 0 0)) ∧
  (∀ (s : State) (f : Fence) (l : List Fence),
    s.tu.fences = f :: l → s.fenceDone f = true →
    ∃ u, u = ({ s with tu := { s.tu with fences := l } } : State).countWrap (tuReg 0x1C) 1 ∧
      (f.mb = none → exec .fenceRetire s = .next u) ∧ (∀ r i, f.mb = some (r, i) → exec .fenceRetire s = .next (u.complete r i stOk 0 0))) ∧
  (∀ (s : State) (r : Requester) (c x w word v : Nat),
    s.mayWrite .stewardSeq r c = true → c < s.nClusters → x < 5 → w < 8 → 0 < word → word < 4 → s.regsWf = true →
    completes (.bbWindowWrite r c x w word v) s fun t => t.rd (bbReg c x w word) = bbStored word v % 2 ^ 32 ∧ onlyRegs s t [bbReg c x w word] ∧
      t.mem = s.mem ∧ t.tu = s.tu) ∧
  (∀ (s : State) (r : Requester) (c x w v : Nat),
    s.mayWrite .stewardSeq r c = true → c < s.nClusters → x < 5 → w < 8 →
    exec (.bbWindowWrite r c x w 0 v) s =
      .next (((s.wr (bbReg c x w 0) (bbStored 0 v)).scrubDrop c x w).scrubReserve c x w)) ∧
  (∀ (s : State) (c x : Nat) (l : List ScrubLock),
    (l = s.tu.scrub.filter fun e => e.locked && e.cluster == c && e.ctx == x) → l ≠ [] →
    ((s.rinses.any fun k => k.cluster == c && k.ctx == x && !k.swapped && !k.started) = false) →
    completes (.lpddr6ZeroFill c x) s fun t => ∃ u, u = l.foldl (fun s e => State.zeroWindow s .steward e) s ∧
      t = { u with tu := { u.tu with scrub := u.tu.scrub.filter fun e => !(e.locked && e.cluster == c && e.ctx == x) } }) ∧
  (∀ (s : State) (r : Requester) (e : ScrubLock),
    ∃ q, q = s.leaves r 3 1 e.root 0 ∧
      s.zeroWindow r e = { q.2 with mem := (q.1.1.filterMap fun l => s.zPage e.lo e.hi l.2).foldl (fun m p => m.zero p.1 p.2) q.2.mem })

/-- Minor frames and entries of the Brew Table. At a frame time a dispatcher that owes a state entry parks; one
whose next frame time has also passed skips the frame, counts it and raises FRAME_SKIP; one still busy postpones it
once, counts it and raises FRAME_SQUEEZE, and starts it once its start tick has come; otherwise the frame starts at
its start tick. With no table, a stopped dispatcher, invalid time or a time not yet reached nothing happens. A fired
entry advances the dispatcher and then has its own effect: a timed launch (none for an absent task, a slot conflict
where the timed context is taken, and for a step task only with a working sequencer and a built step), the release
of buffers and staged writes, a swap of a double buffer, a claim, a Taster test, a self-test slice, or a
publication, which is withheld and counted where the stream is not fresh, is another partition's, or its header is
unread. The model's own choices it rests on: log entries 57, 58, 59, 61. -/
def Obligations.MinorFrames : Prop :=
  (∀ (s : State) (p : Nat), (s.dsp p).table = none → exec (.minorFrameStart p) s = .next s) ∧
  (∀ (s : State) (p : Nat) (b : BrewTable),
    (s.dsp p).table = some b →
    4 ≤ p ∨ s.fld (btReg p 0) 3 0 = 0 ∨ (s.scopeStopped p = true ∧ s.resetStep p ≠ 8) ∨ bit (s.rd (tbReg 0)) 31 = false ∨ reached s.time (b.frameTime (s.dsp p).frameNo) = false →
    exec (.minorFrameStart p) s = .next s) ∧
  (∀ (s : State) (p : Nat) (b : BrewTable),
    (s.dsp p).table = some b → p < 4 → s.fld (btReg p 0) 3 0 ≠ 0 → s.scopeStopped p = false ∨ s.resetStep p = 8 →
    bit (s.rd (tbReg 0)) 31 = true → reached s.time (b.frameTime (s.dsp p).frameNo) = true → s.parkDue p = true →
    exec (.minorFrameStart p) s = .next (s.park p)) ∧
  (∀ (s : State) (p : Nat) (b : BrewTable),
    (s.dsp p).table = some b → p < 4 → s.fld (btReg p 0) 3 0 ≠ 0 → s.scopeStopped p = false ∨ s.resetStep p = 8 →
    bit (s.rd (tbReg 0)) 31 = true → reached s.time (b.frameTime (s.dsp p).frameNo) = true → s.parkDue p = false →
    reached s.time (b.frameTime ((s.dsp p).frameNo + 1)) = true →
    exec (.minorFrameStart p) s = .next (s.frameSkip p b)) ∧
  (∀ (s : State) (p : Nat) (b : BrewTable),
    (s.dsp p).table = some b → p < 4 → s.fld (btReg p 0) 3 0 ≠ 0 → s.scopeStopped p = false ∨ s.resetStep p = 8 →
    bit (s.rd (tbReg 0)) 31 = true → reached s.time (b.frameTime (s.dsp p).frameNo) = true → s.parkDue p = false →
    reached s.time (b.frameTime ((s.dsp p).frameNo + 1)) = false →
    s.tickOf (b.frameTime (s.dsp p).frameNo) < (s.dsp p).busyTill → (s.frameSqueeze p b).frameTickDue p b = none →
    exec (.minorFrameStart p) s = .next (s.frameSqueeze p b)) ∧
  (∀ (s : State) (p : Nat) (b : BrewTable) (t : Nat),
    (s.dsp p).table = some b → p < 4 → s.fld (btReg p 0) 3 0 ≠ 0 → s.scopeStopped p = false ∨ s.resetStep p = 8 →
    bit (s.rd (tbReg 0)) 31 = true → reached s.time (b.frameTime (s.dsp p).frameNo) = true → s.parkDue p = false →
    reached s.time (b.frameTime ((s.dsp p).frameNo + 1)) = false →
    s.tickOf (b.frameTime (s.dsp p).frameNo) < (s.dsp p).busyTill → (s.frameSqueeze p b).frameTickDue p b = some t →
    exec (.minorFrameStart p) s = .next ((s.frameSqueeze p b).frameGo p b t)) ∧
  (∀ (s : State) (p : Nat) (b : BrewTable) (t : Nat),
    (s.dsp p).table = some b → p < 4 → s.fld (btReg p 0) 3 0 ≠ 0 → s.scopeStopped p = false ∨ s.resetStep p = 8 →
    bit (s.rd (tbReg 0)) 31 = true → reached s.time (b.frameTime (s.dsp p).frameNo) = true → s.parkDue p = false →
    reached s.time (b.frameTime ((s.dsp p).frameNo + 1)) = false → t = s.tickOf (b.frameTime (s.dsp p).frameNo) →
    (s.dsp p).busyTill ≤ t → t ≤ s.ct → exec (.minorFrameStart p) s = .next (s.frameGo p b t)) ∧
  (∀ (s : State) (p : Nat) (e : BrewEntry),
    s.entryDue p 1 = some e → (afterEntry s p).timedRec p (e.arg0 % 256) = none →
    exec (.brewLaunch p) s = .next (afterEntry s p)) ∧
  (∀ (s : State) (p : Nat) (e : BrewEntry) (r : TaskRec) (c : Nat),
    s.entryDue p 1 = some e → (afterEntry s p).timedRec p (e.arg0 % 256) = some r →
    r.clusters.find? (fun c => ((afterEntry s p).ctx c 4).task.isSome) = some c →
    exec (.brewLaunch p) s = .next ((afterEntry s p).slotConflict p c 0)) ∧
  (∀ (s : State) (p : Nat) (e : BrewEntry) (r : TaskRec),
    s.entryDue p 1 = some e → (afterEntry s p).timedRec p (e.arg0 % 256) = some r →
    r.clusters.find? (fun c => ((afterEntry s p).ctx c 4).task.isSome) = none → r.step = false →
    exec (.brewLaunch p) s =
      .next ((afterEntry s p).timedLaunch p r ((s.dsp p).frameTick + e.offset) (bits e.arg1 29 0))) ∧
  (∀ (s : State) (p : Nat) (e : BrewEntry) (r : TaskRec),
    s.entryDue p 1 = some e → (afterEntry s p).timedRec p (e.arg0 % 256) = some r →
    r.clusters.find? (fun c => ((afterEntry s p).ctx c 4).task.isSome) = none → r.step = true →
    (afterEntry s p).stewardUp = false ∨ bit ((afterEntry s p).rd (seqCtl p 4)) 0 = false →
    exec (.brewLaunch p) s = .next (afterEntry s p)) ∧
  (∀ (s : State) (p : Nat) (e : BrewEntry) (r : TaskRec),
    s.entryDue p 1 = some e → (afterEntry s p).timedRec p (e.arg0 % 256) = some r →
    r.clusters.find? (fun c => ((afterEntry s p).ctx c 4).task.isSome) = none → r.step = true →
    (afterEntry s p).stewardUp = true → bit ((afterEntry s p).rd (seqCtl p 4)) 0 = true →
    ∃ b, b = (afterEntry s p).build p ∧ exec (.brewLaunch p) s =
      .next (if b.1 then b.2.timedLaunch p r ((s.dsp p).frameTick + e.offset) (bits e.arg1 29 0) else b.2)) ∧
  (∀ (s : State) (p : Nat) (e : BrewEntry),
    s.entryDue p 2 = some e →
    exec (.ingress p) s = .next ((bitList (bits e.arg0 25 0) 26).foldl (fun v n =>
      let v := if n < 20 then v.releaseBuf p n ((s.dsp p).frameTick + e.offset) else v
      if 16 ≤ n ∧ n < 20 then v else v.releaseStage p n ((s.dsp p).frameTick + e.offset) (((s.dsp p).frameTick + e.offset) + bits e.arg1 23 0 - 40)) (afterEntry s p))) ∧
  (∀ (s : State) (p : Nat) (e : BrewEntry) (a : Nat),
    s.entryDue p 3 = some e → a = btReg p (0x100 + 4 * (e.arg0 % 64)) →
    exec (.swap p) s = .next (if (Config.freeWord (afterEntry s p).fresh).getLsbD 0 then (afterEntry s p).draw.wrLate ((s.dsp p).frameTick + e.offset) a (1 - (afterEntry s p).rd a % 2)
      else (afterEntry s p).draw.ndTiming (some p))) ∧
  (∀ (s : State) (p : Nat) (e : BrewEntry) (d : Brew),
    s.entryDue p 4 = some e → d = (afterEntry s p).dsp p →
    exec (.claim p) s = .next (((afterEntry s p).setDsp p { d with claims := d.claims ++
      [{ clusters := (((afterEntry s p).timedRec p (e.arg0 % 256)).map (·.clusters)).getD [], arrays := bits e.arg0 15 8, engines := bits e.arg0 17 16,
         until_ := (s.dsp p).frameTick + e.offset + bits e.arg1 23 0 }] }).applyClaims p)) ∧
  (∀ (s : State) (p : Nat) (e : BrewEntry),
    s.entryDue p 5 = some e →
    exec (.taster p) s =
      .next (((afterEntry s p).setDsp p { (afterEntry s p).dsp p with taster := some ((s.dsp p).frameTick + e.offset), tasterRun := false, compared := [] }).applyClaims p)) ∧
  (∀ (s : State) (p : Nat) (e : BrewEntry) (k : Nat) (d : Brew),
    s.entryDue p 6 = some e → k = bits e.arg0 11 8 → d = (afterEntry s p).dsp p →
    exec (.selftest p) s = .next (((afterEntry s p).setDsp p { d with slices := d.slices ++
      [{ kind := k, unit := bits e.arg0 6 0, index := bits e.arg0 16 12, startAt := (s.dsp p).frameTick + e.offset + (testKind k).1,
         endAt := (s.dsp p).frameTick + e.offset + bits e.arg1 23 0, running := false }] }).applyClaims p)) ∧
  (∀ (s : State) (p : Nat) (e : BrewEntry) (u : State),
    s.entryDue p 7 = some e →
    u = (afterEntry s p).setDsp p { (afterEntry s p).dsp p with fresh := ((afterEntry s p).dsp p).fresh.filter (· != e.arg0 % 64) } →
    ((afterEntry s p).dsp p).fresh.contains (e.arg0 % 64) = false →
    exec (.publish p) s = .next (u.countUp (btReg p 0x20) 1)) ∧
  (∀ (s : State) (p : Nat) (e : BrewEntry) (r : StreamRec) (u v : State) (d : RdRes),
    s.entryDue p 7 = some e →
    u = (afterEntry s p).setDsp p { (afterEntry s p).dsp p with fresh := ((afterEntry s p).dsp p).fresh.filter (· != e.arg0 % 64) } →
    ((afterEntry s p).dsp p).fresh.contains (e.arg0 % 64) = true → u.streamOf (e.arg0 % 64) = some (p, r) →
    r.source = 0 → u.memRead .steward r.header 8 = (d, v) → d.err = none →
    exec (.publish p) s = .next (if (v.publish p r (leNat d.bytes) (u.timeAt ((s.dsp p).frameTick + e.offset))).1 then (v.publish p r (leNat d.bytes) (u.timeAt ((s.dsp p).frameTick + e.offset))).2 else (v.publish p r (leNat d.bytes) (u.timeAt ((s.dsp p).frameTick + e.offset))).2.countUp (btReg p 0x20) 1)) ∧
  (∀ (s : State) (p : Nat) (e : BrewEntry) (u : State),
    s.entryDue p 7 = some e →
    u = (afterEntry s p).setDsp p { (afterEntry s p).dsp p with fresh := ((afterEntry s p).dsp p).fresh.filter (· != e.arg0 % 64) } →
    (∀ q r, u.streamOf (e.arg0 % 64) = some (q, r) → q ≠ p ∨ r.source ≠ 0) →
    exec (.publish p) s = .next (u.countUp (btReg p 0x20) 1)) ∧
  (∀ (s : State) (p : Nat) (e : BrewEntry) (r : StreamRec) (u v : State) (d : RdRes),
    s.entryDue p 7 = some e →
    u = (afterEntry s p).setDsp p { (afterEntry s p).dsp p with fresh := ((afterEntry s p).dsp p).fresh.filter (· != e.arg0 % 64) } →
    ((afterEntry s p).dsp p).fresh.contains (e.arg0 % 64) = true → u.streamOf (e.arg0 % 64) = some (p, r) →
    r.source = 0 → u.memRead .steward r.header 8 = (d, v) → d.err ≠ none →
    exec (.publish p) s = .next (v.countUp (btReg p 0x20) 1))

/-- Timed tasks, staged writes and time-slotted packets. A timed task starts 24 ticks after its launch entry, on
every one of its clusters; one that has not ended at its END raises DEADLINE_MISS and is torn down. A write, a
signal or a set from a source to a partition in service enters that source's staging queue unless the queue is full;
at the end of injection what fitted the reserved slots is gone, and every entry that was released and did not fit is
counted. A packet whose path misses a router, or of no partition, leaves the router as it is; one for the local port
of a pass-through router is an unmapped access. A timed packet through a router that its slot table does not reserve
for it, or that meets another timed packet, is a SLOT_CONFLICT of that router; an elastic packet goes on, sets
ND_TIMING where it loses an arbitration to another elastic packet, and a slot entry of odd parity is a SLOT_CONFLICT
for it too. The model's own choices it rests on: log entries 59, 64, 65, 132, 173. -/
def Obligations.TimedTasksAndStaging : Prop :=
  (∀ (s : State) (p n : Nat) (k : Task),
    s.task n = some k → k.timed = true → k.part = p → k.started = false → k.ended = false → k.launchAt + 24 ≤ s.ct →
    exec (.timedTaskStart p n) s =
      .next (k.rcd.clusters.foldl (fun s c => (s.setCtxState c 4 7 0).modTil c 4 fun q => { q with active := true }) (s.modTask n fun k => { k with started := true }))) ∧
  (∀ (s : State) (p n : Nat) (k : Task),
    s.task n = some k → k.timed = true → k.part = p → k.ended = false → k.launchAt + 24 + k.endCt ≤ s.ct →
    exec (.deadlineMiss p n) s =
      .next ((s.raise .deadlineMiss p { ctx := 4, info0 := k.rcd.index, task := some n, cluster := k.rcd.clusters.head? }).teardownTask n)) ∧
  (∀ (s : State) (src p addr : Nat) (r : Requester) (tg kp : Bool) (l : List Byte),
    p < 4 → src < 26 → (s.prec p).active = true → stagedBytes (s.stage p src) + l.length ≤ 65536 →
    exec (.stagingEnqueue src p ⟨r, addr, tg, .write l, kp⟩) s =
      .next (s.setStage p src (s.stage p src ++ [⟨s.ct, ⟨r, addr, tg, .write l, kp⟩, none, false⟩]))) ∧
  (∀ (s : State) (src p addr : Nat) (r : Requester) (tg kp : Bool) (l : List Byte),
    65536 < stagedBytes (s.stage p src) + l.length →
    exec (.stagingEnqueue src p ⟨r, addr, tg, .write l, kp⟩) s = .next s) ∧
  (∀ (s : State) (src p addr : Nat) (r : Requester) (tg kp : Bool) (v : Nat),
    p < 4 → src < 26 → (s.prec p).active = true → stagedBytes (s.stage p src) + 8 ≤ 65536 →
    exec (.stagingEnqueue src p ⟨r, addr, tg, .signal v, kp⟩) s =
      .next (s.setStage p src (s.stage p src ++ [⟨s.ct, ⟨r, addr, tg, .signal v, kp⟩, none, false⟩]))) ∧
  (∀ (s : State) (src p addr : Nat) (r : Requester) (tg kp : Bool) (v : Nat),
    65536 < stagedBytes (s.stage p src) + 8 → exec (.stagingEnqueue src p ⟨r, addr, tg, .signal v, kp⟩) s = .next s) ∧
  (∀ (s : State) (src p addr : Nat) (r : Requester) (tg kp : Bool) (v : Nat),
    p < 4 → src < 26 → (s.prec p).active = true → stagedBytes (s.stage p src) + 8 ≤ 65536 →
    exec (.stagingEnqueue src p ⟨r, addr, tg, .set v, kp⟩) s =
      .next (s.setStage p src (s.stage p src ++ [⟨s.ct, ⟨r, addr, tg, .set v, kp⟩, none, false⟩]))) ∧
  (∀ (s : State) (src p addr : Nat) (r : Requester) (tg kp : Bool) (v : Nat),
    65536 < stagedBytes (s.stage p src) + 8 → exec (.stagingEnqueue src p ⟨r, addr, tg, .set v, kp⟩) s = .next s) ∧
  (∀ (s : State) (p src t stop : Nat),
    (s.dsp p).injecting.find? (fun e => e.1 == src) = some (src, t, stop) → stop ≤ s.ct →
    ∃ u q, u = s.setDsp p { s.dsp p with injecting := (s.dsp p).injecting.filter fun e => e.1 != src } ∧
      q = u.inject (u.injectSlots p (stagingRouter src) (2 * (t + 1)) (2 * stop)) (u.stage p src) ∧
      exec (.injectionStop p src) s = .next ((q.2.setStage p src q.1).countUp (btReg p 0x24) (q.1.filter (·.released)).length)) ∧
  (∀ (s : State) (router p : Nat) (r : Requester) (ga : Nat) (back : Bool) (timed : Bool) (rival : Option (Requester × Bool)),
    s.nocHop router r ga back = none ∨ 4 ≤ p → exec (.nocPacket router p r ga back timed rival) s = .next s) ∧
  (∀ (s : State) (router p i : Nat) (r : Requester) (ga : Nat) (back timed : Bool) (rival : Option (Requester × Bool)),
    s.nocHop router r ga back = some (i, 4) → p < 4 → router < 64 → s.nClusters ≤ router →
    exec (.nocPacket router p r ga back timed rival) s = .next ((s.raiseReq .addrUnmapped r (ga % 2 ^ 41)).answer r .error [])) ∧
  (∀ (s : State) (router p i o : Nat) (r : Requester) (ga : Nat) (back : Bool) (rival : Option (Requester × Bool)),
    s.nocHop router r ga back = some (i, o) → p < 4 → o ≠ 4 ∨ 64 ≤ router ∨ router < s.nClusters →
    (s.slotEntry router).2 = false ∨ slotReserves (s.slotEntry router).1 o i p = false ∨ rival.map (·.2) = some true →
    exec (.nocPacket router p r ga back true rival) s = .next (s.routerConflict p router o)) ∧
  (∀ (s : State) (router p i o : Nat) (r : Requester) (ga : Nat) (back : Bool) (rival : Option (Requester × Bool)),
    s.nocHop router r ga back = some (i, o) → p < 4 → o ≠ 4 ∨ 64 ≤ router ∨ router < s.nClusters →
    (s.slotEntry router).2 = true → slotReserves (s.slotEntry router).1 o i p = true → rival.map (·.2) ≠ some true →
    exec (.nocPacket router p r ga back true rival) s = .next s) ∧
  (∀ (s : State) (router p i o : Nat) (r : Requester) (ga : Nat) (back : Bool) (rival : Option (Requester × Bool)),
    s.nocHop router r ga back = some (i, o) → p < 4 → o ≠ 4 ∨ 64 ≤ router ∨ router < s.nClusters →
    (s.slotEntry router).2 = true → (∀ q, rival = some (q, false) → nocWins s.nocTick r q = true) →
    exec (.nocPacket router p r ga back false rival) s = .next s) ∧
  (∀ (s : State) (router p i o : Nat) (r : Requester) (ga : Nat) (back : Bool) (q : Requester),
    s.nocHop router r ga back = some (i, o) → p < 4 → o ≠ 4 ∨ 64 ≤ router ∨ router < s.nClusters →
    (s.slotEntry router).2 = true → nocWins s.nocTick r q = false →
    exec (.nocPacket router p r ga back false (some (q, false))) s = .next (s.ndTiming (some p))) ∧
  (∀ (s : State) (router p i o : Nat) (r : Requester) (ga : Nat) (back : Bool) (rival : Option (Requester × Bool)),
    s.nocHop router r ga back = some (i, o) → p < 4 → o ≠ 4 ∨ 64 ≤ router ∨ router < s.nClusters →
    (s.slotEntry router).2 = false → (∀ q, rival = some (q, false) → nocWins s.nocTick r q = true) →
    exec (.nocPacket router p r ga back false rival) s = .next (s.routerConflict p router o))

/-- Taster and self-test slices, claims and stream ages. Claims past their end are dropped. 320 ticks into a Taster
test every unit runs the golden set into its signature; at 448 each cluster of the partition compares once: every
unit whose signature is not the expected one is noted in CL_TASTER, raises TASTER_MISMATCH and is noted for
diagnosis. Outside those times neither command changes anything. A self-test slice whose unit is idle runs inside
its window; one that has run its length ends, one whose window is over is abandoned and counted. A unit never tested
within its interval is SELFTEST_OVERDUE, once. A stamp written by a producer of the partition publishes its stream;
every 50 microseconds of Urn time each stream whose age passes its bound is stale. The model's own choices it rests
on: log entries 60, 62, 63, 131, 161, 162. -/
def Obligations.TestsAndAges : Prop :=
  (∀ (s : State) (p : Nat) (d : Brew),
    d = s.dsp p → d.claims.any (fun k => decide (k.until_ ≤ s.ct)) = true →
    exec (.claimRelease p) s = .next ((s.setDsp p { d with claims := d.claims.filter fun k => decide (s.ct < k.until_) }).applyClaims p)) ∧
  (∀ (s : State) (p t : Nat) (errors : List UnitError),
    (s.dsp p).taster = some t → t + 320 ≤ s.ct → (s.dsp p).tasterRun = false →
    exec (.goldenTest p errors) s = .next (s.setDsp p { s.dsp p with tasterRun := true, signatures := s.goldenRun p errors })) ∧
  (∀ (s : State) (p : Nat) (errors : List UnitError),
    (∀ t, (s.dsp p).taster = some t → s.ct < t + 320 ∨ (s.dsp p).tasterRun = true) →
    exec (.goldenTest p errors) s = .next s) ∧
  (∀ (s : State) (p c t : Nat) (d : Brew) (units : List Nat) (u : State),
    d = s.dsp p → d.taster = some t → d.tasterRun = true → t + 448 ≤ s.ct → s.ownerOf c = some p → c < s.nClusters →
    d.compared.contains c = false → u = s.setDsp p { d with compared := d.compared ++ [c], lastTaster := s.time } →
    units = u.goldenBad p c →
    ∃ v w, v = (u.tasterNote c (s.goldenSet p) units).applyClaims p ∧
      w = { v with urn := { v.urn with diagnose := v.urn.diagnose ++ ((units.filter (· < 8)).map fun a => c * 8 + a).filter fun k => !v.urn.diagnose.contains k } } ∧
      exec (.tasterCompare p c) s = .next (units.foldl (fun x n => x.raise .tasterMismatch p { cluster := some c, unit := n, info0 := s.goldenSet p, info1 := c }) w)) ∧
  (∀ (s : State) (p c : Nat),
    (∀ t, (s.dsp p).taster = some t → (s.dsp p).tasterRun = false ∨ s.ct < t + 448 ∨ s.ownerOf c ≠ some p ∨ s.nClusters ≤ c ∨ (s.dsp p).compared.contains c = true) →
    exec (.tasterCompare p c) s = .next s) ∧
  (∀ (s : State) (p : Nat) (l : List SliceRec),
    l = modFirst (fun k => !k.running && decide (k.startAt ≤ s.ct) && decide (s.ct < k.endAt) && s.sliceMay k) (fun k => { k with running := true }) (s.dsp p).slices →
    exec (.selftestSlice p) s = .next (s.setDsp p { s.dsp p with slices := l })) ∧
  (∀ (s : State) (p : Nat) (f : Option Nat) (k : SliceRec),
    (s.dsp p).slices.find? (fun k => k.running && decide (k.startAt + (testKind k.kind).2.1 ≤ s.ct) && decide (s.ct ≤ k.endAt)) = some k →
    exec (.sliceEnd p f) s = .next (s.sliceDone p k f)) ∧
  (∀ (s : State) (p : Nat) (k : SliceRec),
    (s.dsp p).slices.find? (fun k => decide (k.endAt ≤ s.ct)) = some k →
    exec (.sliceAbandon p) s = .next (((s.setDsp p { s.dsp p with slices := (s.dsp p).slices.erase k }).countUp (btReg p 0x2C) 1).applyClaims p)) ∧
  (∀ (s : State) (p kind unit index : Nat) (v : UnitTest) (u : State),
    v = s.unitTest (testKey kind unit index) →
    u = s.setUnitTest (testKey kind unit index) { v with raised := true } → p < 4 → (s.prec p).active = true →
    s.testUnit p kind unit index = true → v.raised = false →
    ((s.rd (btReg p (0x40 + 4 * kind)) * 1000000000 : Nat) < toSigned 64 (s.time + 2 ^ 64 - (if v.doneAt = 0 then (s.dsp p).boot else v.doneAt) % 2 ^ 64)) →
    exec (.selftestOverdue p kind unit index) s = .next ((if bit (u.rd (btReg p 0x30)) 31 then u
      else u.wr (btReg p 0x30) (2 ^ 31 + kind * 2 ^ 17 + index * 2 ^ 12 + unit)).raise .selftestOverdue p { unit := unit, info0 := kind + 256 * index })) ∧
  (∀ (s : State) (r : Requester) (p stream q : Nat) (rcd : StreamRec),
    s.streamOf (stream % 64) = some (q, rcd) → p < 5 → s.mayPublish r p = true → q = p ∨ p = 4 → rcd.source = 1 →
    s.scopeStopped q = false →
    exec (.urnAgePub r p stream) s = .next (s.publish q rcd (s.rd64 (urnReg (0x40000 + 0x10 * p))) s.time).2) ∧
  (∀ (s : State), s.clock.urn % 50000 = 0 → exec .ageCheck s = .next (s.streams.foldl State.ageCheck1 s))

/-- Launching, suspending, continuing and killing tasks. A mailbox command that is not there does nothing, and
LAUNCH and a task-graph entry wait for room in the launch queue. With room, a LAUNCH of a stopped partition
completes ABORTED, one whose record is wrong INVALID, and any other enters the queue by priority. A task-graph entry
whose task is not live enters the same queue. A SUSPEND of a task whose KILL is in progress completes ABORTED.
SUSPEND, CONTINUE and KILL of a task that has no live instance are INVALID; otherwise SUSPEND marks every instance
and pre-empts its resident slots, CONTINUE clears the mark, KILL takes both its waiting launches and its instances
away. A launchable task takes a free slot on every one of its clusters under the next task number; with none
launchable, or no working Steward, nothing happens. The model's own choices it rests on: log entries 53, 130. -/
def Obligations.TaskCommands : Prop :=
  (∀ (s : State) (ring idx : Nat) (k : Cmd),
    s.mbCmd ring idx 0x04 = some k → s.launchQ.length < 64 → k.part < 4 →
    (s.begin_ ring idx).scopeStopped k.part = true →
    exec (.launch ring idx) s = .next ((s.begin_ ring idx).complete ring idx stAborted 0 0)) ∧
  (∀ (s : State) (ring idx : Nat) (k : Cmd),
    s.mbCmd ring idx 0x04 = some k → s.launchQ.length < 64 →
    4 ≤ k.part ∨ (s.begin_ ring idx).scopeStopped k.part = false → (s.begin_ ring idx).launchRec k = none →
    exec (.launch ring idx) s = .next ((s.begin_ ring idx).complete ring idx stInvalid 0 0)) ∧
  (∀ (s : State) (ring idx : Nat) (k : Cmd) (t : TaskRec),
    s.mbCmd ring idx 0x04 = some k → s.launchQ.length < 64 →
    4 ≤ k.part ∨ (s.begin_ ring idx).scopeStopped k.part = false → (s.begin_ ring idx).launchRec k = some t →
    exec (.launch ring idx) s = .next ((s.begin_ ring idx).enqueue { part := k.part, rcd := t, cmd := some (ring, idx) })) ∧
  (∀ (s : State) (p n i : Nat) (g : Program) (t : TaskRec),
    s.prog p = some g → g.graph[n]? = some i → g.tasks.find? (fun t => t.index == i && !t.timed) = some t →
    s.partRuns p = true → s.launchQ.length < 64 → s.taskLive p t.index = false → t.clusters ≠ [] →
    exec (.taskGraphLaunch p n) s = .next (s.enqueue { part := p, rcd := t, cmd := none })) ∧
  (∀ (s : State) (ring idx : Nat) (k : Cmd),
    s.mbCmd ring idx 0x05 = some k → (s.begin_ ring idx).killing k = true →
    exec (.suspend ring idx) s = .next ((s.begin_ ring idx).complete ring idx stAborted 0 0)) ∧
  (∀ (s : State) (ring idx : Nat) (k : Cmd),
    s.mbCmd ring idx 0x05 = some k → (s.begin_ ring idx).killing k = false →
    ((s.begin_ ring idx).named k).isEmpty = true →
    exec (.suspend ring idx) s = .next ((s.begin_ ring idx).complete ring idx stInvalid 0 0)) ∧
  (∀ (s : State) (ring idx : Nat) (k : Cmd) (l : List (Nat × Task)) (u : State),
    s.mbCmd ring idx 0x05 = some k → (s.begin_ ring idx).killing k = false → l = (s.begin_ ring idx).named k →
    l ≠ [] → (u = l.foldl (fun s e => s.modTask e.1 fun t => { t with suspended := true }) (s.begin_ ring idx)) →
    exec (.suspend ring idx) s = .next (((u.slotsOfTask k.part (k.arg 8 2)).foldl (fun v e => (v.slot e.1 e.2).ctx.elim v fun x => v.preempt e.1 x) u).settle)) ∧
  (∀ (s : State) (ring idx : Nat) (k : Cmd),
    s.mbCmd ring idx 0x06 = some k → ((s.begin_ ring idx).named k).isEmpty = true →
    exec (.cont ring idx) s = .next ((s.begin_ ring idx).complete ring idx stInvalid 0 0)) ∧
  (∀ (s : State) (ring idx : Nat) (k : Cmd) (l : List (Nat × Task)),
    s.mbCmd ring idx 0x06 = some k → l = (s.begin_ ring idx).named k → l ≠ [] →
    exec (.cont ring idx) s = .next (l.foldl (fun s e => s.modTask e.1 fun t => { t with suspended := false }) (s.begin_ ring idx)).settle) ∧
  (∀ (s : State) (ring idx : Nat) (k : Cmd),
    s.mbCmd ring idx 0x07 = some k → ((s.begin_ ring idx).named k).isEmpty = true →
    (((s.begin_ ring idx).launchQ.filter fun q => q.part == k.part && q.rcd.index == k.arg 8 2) = []) →
    exec (.kill ring idx) s = .next ((s.begin_ ring idx).complete ring idx stInvalid 0 0)) ∧
  (∀ (s : State) (ring idx : Nat) (k : Cmd),
    s.mbCmd ring idx 0x07 = some k →
    (((s.begin_ ring idx).named k).isEmpty = false ∨ ((s.begin_ ring idx).launchQ.filter fun q => q.part == k.part && q.rcd.index == k.arg 8 2) ≠ []) →
    exec (.kill ring idx) s = .next ((s.begin_ ring idx).killCmd ring idx k)) ∧
  (∀ (s : State) (q : QLaunch) (u v : State),
    s.stewardUp = true → s.launchable = some q →
    u = { s with launchQ := s.launchQ.erase q, nextTask := s.nextTask + 1, tasks := s.tasks ++ [(s.nextTask, taskOf q s.ct)] } →
    (v = if q.rcd.step then (u.setStep q.part { u.step_ q.part with task := some s.nextTask }).setSeqState q.part 2 else u) →
    exec .slotAllocate s =
      .next (q.rcd.clusters.foldl (fun v c => (v.freeSlotOf c).elim v fun n => v.takeSlot s.nextTask q.rcd c n) v)) ∧
  (∀ (s : State) (ring idx : Nat), s.mbCmd ring idx 0x04 = none → exec (.launch ring idx) s = .next s) ∧
  (∀ (s : State) (ring idx : Nat), s.mbCmd ring idx 0x05 = none → exec (.suspend ring idx) s = .next s) ∧
  (∀ (s : State) (ring idx : Nat), s.mbCmd ring idx 0x06 = none → exec (.cont ring idx) s = .next s) ∧
  (∀ (s : State) (ring idx : Nat), s.mbCmd ring idx 0x07 = none → exec (.kill ring idx) s = .next s) ∧
  (∀ (s : State) (ring idx : Nat), 64 ≤ s.launchQ.length → exec (.launch ring idx) s = .next s) ∧
  (∀ (s : State) (p n : Nat),
    s.prog p = none ∨ s.partRuns p = false ∨ 64 ≤ s.launchQ.length → exec (.taskGraphLaunch p n) s = .next s) ∧
  (∀ (s : State), s.stewardUp = false ∨ s.launchable = none → exec .slotAllocate s = .next s)

/-- Slots and contexts: swaps, saves, loads, teardowns and the tiler's choice. A ready slot is loaded into an empty
context by a working Steward; with none empty it evicts the victim that the rules choose. A context whose save is
ready leaves its slot holding its image, the slot that follows it is loaded, and a save with an uncorrectable tile
fails. A load ends once its channels fit: an image that cannot be read fails, any other context runs. The Steward
may load a slot that waits into an empty context, pre-empt a context (an empty one is left alone, one on the move is
marked) and tear down a context or a swapped-out slot; from anyone else, or for a place that does not fit, these
commands change nothing. After 2048 ticks of one context the sequencer may tile for the next one in order. The
model's own choices it rests on: log entries 53, 54, 139, 155, 156. -/
def Obligations.ContextCommands : Prop :=
  (∀ (s : State) (c n x : Nat),
    s.stewardUp = true → s.bestSlot c = some n → (List.range 4).find? (fun x => s.ctxState c x == 0) = some x →
    exec (.contextSwap c) s = .next (s.loadStart c x n false)) ∧
  (∀ (s : State) (c n x : Nat),
    s.bestSlot c = some n → (List.range 4).find? (fun x => s.ctxState c x == 0) = none → s.victim c n = some x →
    exec (.contextSwap c) s = .next (s.evict c x n)) ∧
  (∀ (s : State) (c : Nat),
    (s.bestSlot c = none ∨ ((List.range 4).find? (fun x => s.ctxState c x == 0) ≠ none ∧ s.stewardUp = false) ∨ ((List.range 4).find? (fun x => s.ctxState c x == 0) = none ∧ ∀ n, s.victim c n = none)) →
    exec (.contextSwap c) s = .next s) ∧
  (∀ (s : State) (c x n next since : Nat) (v : State),
    (s.ctx c x).move = some (next, since) → s.slotOf c x = some n → s.ctxState c x = 4 → s.saveReady c x = true →
    s.readTiles c (s.tilesOf c x) = (true, v) → exec (.stateImageSave c x) s = .next (v.saveFail c x)) ∧
  (∀ (s : State) (c x n next since : Nat) (u v : State),
    (s.ctx c x).move = some (next, since) → s.slotOf c x = some n → s.ctxState c x = 4 → s.saveReady c x = true →
    s.readTiles c (s.tilesOf c x) = (false, v) → u = v.saveSlot c x n →
    exec (.stateImageSave c x) s =
      .next (if next < 16 ∧ (u.slot c next).ctx = none ∧ (u.slot c next).task.isSome = true then u.loadStart c x next true else u).settle) ∧
  (∀ (s : State) (c x : Nat),
    (s.ctx c x).move = none ∨ s.slotOf c x = none ∨ s.ctxState c x ≠ 4 ∨ s.saveReady c x = false →
    exec (.stateImageSave c x) s = .next s) ∧
  (∀ (s : State) (r : Requester) (c x slot : Nat),
    r ≠ .steward ∨ s.nClusters ≤ c ∨ 4 ≤ x ∨ 16 ≤ slot ∨ s.ctxState c x ≠ 0 ∨ (s.slot c slot).task = none ∨ (s.slot c slot).ctx ≠ none →
    exec (.load r c x slot) s = .next s) ∧
  (∀ (s : State) (c x slot : Nat),
    c < s.nClusters → x < 4 → slot < 16 → s.ctxState c x = 0 → (s.slot c slot).task.isSome = true →
    (s.slot c slot).ctx = none → exec (.load .steward c x slot) s = .next (s.loadStart c x slot false)) ∧
  (∀ (s : State) (c x n since : Nat),
    (s.ctx c x).move = some (n, since) → s.ctxState c x = 5 → s.chansFit c n = true →
    (s.slot c n).started = false ∨ s.imageUe c n = false → exec (.loadComplete c x) s = .next (s.loadDone c x n)) ∧
  (∀ (s : State) (c x n since : Nat),
    (s.ctx c x).move = some (n, since) → s.ctxState c x = 5 → s.chansFit c n = true → (s.slot c n).started = true →
    s.imageUe c n = true →
    exec (.loadComplete c x) s = .next ((s.setCtx c x { s.ctx c x with move := none }).saveFail c x)) ∧
  (∀ (s : State) (c x : Nat),
    ((s.ctx c x).move = none ∨ s.ctxState c x ≠ 5 ∨ ∀ n, s.chansFit c n = false) →
    exec (.loadComplete c x) s = .next s) ∧
  (∀ (s : State) (c x : Nat),
    c < s.nClusters → x < 4 → s.ctxState c x = 1 ∨ s.ctxState c x = 2 ∨ s.ctxState c x = 3 →
    exec (.preempt .steward c x) s = .next (s.evict c x 16)) ∧
  (∀ (s : State) (c x : Nat),
    c < s.nClusters → x < 4 → 4 ≤ s.ctxState c x →
    exec (.preempt .steward c x) s = .next (s.orReg (ctxStatus c x) (2 ^ 31))) ∧
  (∀ (s : State) (c x : Nat), s.ctxState c x = 0 → exec (.preempt .steward c x) s = .next s) ∧
  (∀ (s : State) (r : Requester) (c x : Nat),
    r ≠ .steward ∨ s.nClusters ≤ c ∨ 4 ≤ x → exec (.preempt r c x) s = .next s) ∧
  (∀ (s : State) (c x slot : Nat),
    c < s.nClusters → x < 4 → slot < 16 → s.ctxState c x ≠ 0 → s.ctxState c x ≠ 6 →
    exec (.teardown .steward c x false slot) s = .next ((s.tearDown c x 5 6).dropShare c (s.ctx c x).task)) ∧
  (∀ (s : State) (c x slot : Nat),
    c < s.nClusters → x < 4 → slot < 16 → (s.slot c slot).task.isSome = true → (s.slot c slot).ctx = none →
    exec (.teardown .steward c x true slot) s = .next ((s.dropShare c (s.slot c slot).task).tearSlot c slot).settle) ∧
  (∀ (s : State) (r : Requester) (c x slot : Nat) (swapped : Bool),
    r ≠ .steward ∨ s.nClusters ≤ c ∨ 4 ≤ x ∨ 16 ≤ slot ∨ (swapped = true ∧ ((s.slot c slot).task = none ∨ (s.slot c slot).ctx ≠ none)) ∨ (swapped = false ∧ (s.ctxState c x = 0 ∨ s.ctxState c x = 6)) →
    exec (.teardown r c x swapped slot) s = .next s) ∧
  (∀ (s : State) (c : Nat),
    4 ≤ s.curCtx c ∨ s.ct < (s.ctx c (s.curCtx c)).tiler.emitted + 2048 ∨ s.nextCtx c (s.curCtx c) = none →
    exec (.tilerContextChange c) s = .next s) ∧
  (∀ (s : State) (c x : Nat),
    s.curCtx c < 4 → (s.ctx c (s.curCtx c)).tiler.emitted + 2048 ≤ s.ct → s.nextCtx c (s.curCtx c) = some x →
    exec (.tilerContextChange c) s = .next (s.tileFor c x))

/-- Watches, wakes, polls, signals and sets of words. A context that waits and may wait watches its word; one that
is held withdraws its watch; a wake takes itself off the list and makes a watching context read its word again. A
signal of a word of this chip adds to it, through the window of its requester, and answers; one of another chip is
sent, and one that no port can send answers an error and fails its task; one outside the window is a violation. The
Steward sets words. A wait outside the pool is polled every 256 ticks, and so is a word that a swapped-out slot
waits for; a context that does not wait, may not, or watches already is not. A mailbox SIGNAL or SET of a word that
the partition does not own is INVALID, and is carried out otherwise. The model's own choices it rests on: log
entries 55, 56. -/
def Obligations.SyncCommands : Prop :=
  (∀ (s : State) (c x : Nat),
    s.mayWait c x = true → (s.ctx c x).wait.isSome = true → (s.ctx c x).watching = false →
    exec (.watch c x) s = .next (s.watchNow c x)) ∧
  (∀ (s : State) (c x : Nat),
    (s.ctx c x).held = true → (s.ctx c x).watching = true → exec (.unwatch c x) s = .next (s.unwatch c x)) ∧
  (∀ (s : State) (c x addr ga v : Nat) (w : Watch) (u : State),
    s.wakes.find? (fun w => w.cluster == c && w.ctx == x && w.addr == s.normGa addr) = some w →
    (s.ctx c x).wait = some (ga, v) → (s.ctx c x).watching = true → ga = w.addr →
    u = { s with wakes := s.wakes.erase w } →
    exec (.wake c x addr) s = .next ((u.setCtx c x { u.ctx c x with watching := false }).watchNow c x)) ∧
  (∀ (s : State) (c x addr : Nat) (w : Watch),
    s.wakes.find? (fun w => w.cluster == c && w.ctx == x && w.addr == s.normGa addr) = some w →
    (s.ctx c x).wait = none → exec (.wake c x addr) s = .next { s with wakes := s.wakes.erase w }) ∧
  (∀ (s : State) (r : Requester) (addr inc a : Nat) (e : Option AccErr) (u : State),
    s.localOf addr = some a → s.reqWindowOk r addr 8 .atomic = true → s.signalLocal r a inc = (e, u) →
    exec (.syncSignal r addr inc) s = .next ((u.failTask r e).answer r (respOf r e) [])) ∧
  (∀ (s : State) (r : Requester) (addr inc a old : Nat) (u : State),
    s.localOf addr = some a → s.reqWindowOk r addr 8 .atomic = true →
    s.memAtomic r .add a (inc % 2 ^ 32) 0 = ((old, none), u) →
    exec (.syncSignal r addr inc) s = .next (((u.wakeAll (127 * 2 ^ 41 + a) ((old + inc % 2 ^ 32) % 2 ^ 64)).failTask r none).answer r (respOf r none) [])) ∧
  (∀ (s : State) (r : Requester) (addr inc : Nat),
    s.reqWindowOk r addr 8 .atomic = false → exec (.syncSignal r addr inc) s = .next (s.reqViolation r addr)) ∧
  (∀ (s : State) (r : Requester) (addr inc : Nat) (q : Option Nat × State),
    s.localOf addr = none → s.reqWindowOk r addr 8 .atomic = true →
    q = s.spSend r (r.ctx == some 4) { kind := kSignal, dest := addr / 2 ^ 41, len := 4, op := 0, tagged := false, addr := addr % 2 ^ 41, payload := leBytes 4 inc, cmd := none } →
    q.1 ≠ none → exec (.syncSignal r addr inc) s = .next q.2) ∧
  (∀ (s : State) (r : Requester) (addr inc : Nat) (q : Option Nat × State),
    s.localOf addr = none → s.reqWindowOk r addr 8 .atomic = true →
    q = s.spSend r (r.ctx == some 4) { kind := kSignal, dest := addr / 2 ^ 41, len := 4, op := 0, tagged := false, addr := addr % 2 ^ 41, payload := leBytes 4 inc, cmd := none } →
    q.1 = none → exec (.syncSignal r addr inc) s = .next ((q.2.failTask r (some .unmapped)).answer r .error [])) ∧
  (∀ (s : State) (addr v : Nat), exec (.syncSet addr v) s = .next (s.stewardWord addr v true none).2) ∧
  (∀ (s : State) (addr v a : Nat) (u : State),
    s.localOf addr = some a → s.memWrite .steward a (leBytes 8 v) = (none, u) → a % 8 = 0 →
    exec (.syncSet addr v) s = .next (u.wakeAll (127 * 2 ^ 41 + a) (v % 2 ^ 64))) ∧
  (∀ (s : State) (c x ga v a : Nat),
    x < 8 → (s.ctx c x).wait = some (ga, v) → s.mayWait c x = true → (s.ctx c x).watching = false → s.ct % 256 = 0 →
    s.poolWord ga = none ∨ s.sliceFull a = true → s.localOf ga = some a → (∀ b, s.poolWord ga = some b → b = a) →
    exec (.syncPoll c x) s = .next (s.pollWord c x a v)) ∧
  (∀ (s : State) (c x ga v : Nat),
    x < 8 → (s.ctx c x).wait = some (ga, v) → s.mayWait c x = true → (s.ctx c x).watching = false → s.ct % 256 = 0 →
    s.poolWord ga = none → s.localOf ga = none →
    exec (.syncPoll c x) s = .next ((s.countUp (clReg c 0xA0C) 1).watchNow c x)) ∧
  (∀ (s : State) (c x : Nat), 8 ≤ x → exec (.syncPoll c x) s = .next (s.pollSlot c (x - 8))) ∧
  (∀ (s : State) (c x : Nat),
    x < 8 → (s.ctx c x).wait = none ∨ s.mayWait c x = false ∨ (s.ctx c x).watching = true ∨ s.ct % 256 ≠ 0 →
    exec (.syncPoll c x) s = .next s) ∧
  (∀ (s : State) (c x : Nat),
    s.mayWait c x = false ∨ (s.ctx c x).wait = none ∨ (s.ctx c x).watching = true → exec (.watch c x) s = .next s) ∧
  (∀ (s : State) (c x : Nat),
    (s.ctx c x).held = false ∨ (s.ctx c x).watching = false → exec (.unwatch c x) s = .next s) ∧
  (∀ (s : State) (c x addr : Nat),
    s.wakes.find? (fun w => w.cluster == c && w.ctx == x && w.addr == s.normGa addr) = none →
    exec (.wake c x addr) s = .next s) ∧
  (∀ (s : State) (ring idx : Nat) (k : Cmd),
    s.mbCmd ring idx 0x0C = some k → k.arg 8 8 < 2 ^ 48 →
    (∀ a, (s.begin_ ring idx).localOf (k.arg 8 8) = some a → ((s.begin_ ring idx).poolWord (k.arg 8 8)).isSome = true ∧ (s.begin_ ring idx).memOwner a = some k.part) →
    exec (.signal ring idx) s = .next ((s.begin_ ring idx).stewardWord (k.arg 8 8) (k.arg 0x10 4) false (some (ring, idx))).2) ∧
  (∀ (s : State) (ring idx : Nat) (k : Cmd) (a : Nat),
    s.mbCmd ring idx 0x0C = some k → (s.begin_ ring idx).localOf (k.arg 8 8) = some a →
    (s.begin_ ring idx).memOwner a ≠ some k.part →
    exec (.signal ring idx) s = .next ((s.begin_ ring idx).complete ring idx stInvalid 0 0)) ∧
  (∀ (s : State) (ring idx : Nat) (k : Cmd),
    s.mbCmd ring idx 0x0D = some k → k.arg 8 8 < 2 ^ 48 →
    (∀ a, (s.begin_ ring idx).localOf (k.arg 8 8) = some a → ((s.begin_ ring idx).poolWord (k.arg 8 8)).isSome = true ∧ (s.begin_ ring idx).memOwner a = some k.part) →
    exec (.set ring idx) s = .next ((s.begin_ ring idx).stewardWord (k.arg 8 8) (k.arg 0x10 8) true (some (ring, idx))).2) ∧
  (∀ (s : State) (ring idx : Nat) (k : Cmd) (a : Nat),
    s.mbCmd ring idx 0x0D = some k → (s.begin_ ring idx).localOf (k.arg 8 8) = some a →
    (s.begin_ ring idx).memOwner a ≠ some k.part →
    exec (.set ring idx) s = .next ((s.begin_ ring idx).complete ring idx stInvalid 0 0)) ∧
  (∀ (s : State) (ring idx : Nat), s.mbCmd ring idx 0x0C = none → exec (.signal ring idx) s = .next s) ∧
  (∀ (s : State) (ring idx : Nat), s.mbCmd ring idx 0x0D = none → exec (.set ring idx) s = .next s)

/-- Seeds and the determinism counters. SEED is INVALID without a partition, refused when it names a step already
built, and held otherwise. ND_CLEAR is INVALID for a wrong partition or mask; it clears the timing counter for bit 0
and the value counter with its first record for bit 1, and completes OK. The Steward's writes of ST_DET_CTRL clear
the same registers, but for the events of the same tick, and nothing else; another requester's change nothing. -/
def Obligations.DeterminismCommands : Prop :=
  (∀ (s : State) (ring idx : Nat) (k : Cmd),
    s.mbCmd ring idx 0x09 = some k → 4 ≤ k.part →
    exec (.seed ring idx) s = .next ((s.begin_ ring idx).complete ring idx stInvalid 0 0)) ∧
  (∀ (s : State) (ring idx : Nat) (k : Cmd),
    s.mbCmd ring idx 0x09 = some k → k.part < 4 → 0 < k.arg 0x10 8 →
    k.arg 0x10 8 ≤ (s.begin_ ring idx).rd64 (stReg (0x2008 + 0x40 * k.part)) →
    exec (.seed ring idx) s = .next ((s.begin_ ring idx).complete ring idx stRefused 0 0)) ∧
  (∀ (s : State) (ring idx : Nat) (k : Cmd),
    s.mbCmd ring idx 0x09 = some k → k.part < 4 →
    k.arg 0x10 8 = 0 ∨ (s.begin_ ring idx).rd64 (stReg (0x2008 + 0x40 * k.part)) < k.arg 0x10 8 →
    exec (.seed ring idx) s = .next ((s.begin_ ring idx).hold
      { ring := ring, idx := idx, part := k.part, apply := k.arg 0x10 8, due := false, seed := some (k.arg 0x18 8), seq := 0, entry := [] })) ∧
  (∀ (s : State) (ring idx : Nat) (k : Cmd),
    s.mbCmd ring idx 0x0B = some k → 4 ≤ k.part ∨ 4 ≤ k.arg 8 8 →
    exec (.ndClear ring idx) s = .next ((s.begin_ ring idx).complete ring idx stInvalid 0 0)) ∧
  (∀ (s : State) (ring idx : Nat) (k : Cmd) (u : State),
    s.mbCmd ring idx 0x0B = some k → k.part < 4 → k.arg 8 8 < 4 →
    (u = if bit (k.arg 8 8) 0 then (s.begin_ ring idx).clearTiming k.part else (s.begin_ ring idx)) →
    exec (.ndClear ring idx) s = .next ((if bit (k.arg 8 8) 1 then u.clearValue k.part else u).complete ring idx stOk 0 0)) ∧
  (∀ (s : State) (p n : Nat),
    p < 4 → s.regsWf = true → (n = (s.now.nd.filter fun e => e.1 == p && e.2 == 0).length) →
    completes (.clrTiming .steward p) s fun t => t.rd (detReg p 8) = n % 2 ^ 32 ∧ t.rd (detReg p 0xC) = n / 2 ^ 32 % 2 ^ 32 ∧ onlyRegs s t [detReg p 8, detReg p 0xC]) ∧
  (∀ (s : State) (p v : Nat) (l : List (Nat × Nat)),
    p < 4 → s.regsWf = true → (l = s.now.nd.filter fun e => e.1 == p && e.2 != 0) →
    v = (l.head?.map Prod.snd).getD 0 →
    completes (.clrValue .steward p) s fun t => t.rd (detReg p 0x20) = v % 2 ^ 32 ∧ onlyRegs s t [detReg p 0x10, detReg p 0x14, detReg p 0x20] ∧
      t = (s.wr64 (detReg p 0x10) l.length).wr (detReg p 0x20) v) ∧
  (∀ (s : State) (r : Requester) (p : Nat), r ≠ .steward ∨ 4 ≤ p → exec (.clrTiming r p) s = .next s) ∧
  (∀ (s : State) (r : Requester) (p : Nat), r ≠ .steward ∨ 4 ≤ p → exec (.clrValue r p) s = .next s) ∧
  (∀ (s : State) (ring idx : Nat), s.mbCmd ring idx 0x09 = none → exec (.seed ring idx) s = .next s) ∧
  (∀ (s : State) (ring idx : Nat), s.mbCmd ring idx 0x0B = none → exec (.ndClear ring idx) s = .next s)

/-- Camera packets and frames, Ethernet frames, point buffers and strained inputs. At an enabled camera port of an
owner: a packet with a bad header or, for a data packet of the pipe's type, a bad CRC is an error that marks the
open frame; a packet of another channel or type, or of a type the port does not support, is skipped and counted; a
frame start opens a frame, cutting an open one short; a frame end marks it; data enters it. A frame whose lines are
all there without error completes, or overruns where its buffer in memory is not ready; any other that has ended is
dropped. A stamp offset written to a port of an owner changes that register. A frame at an enabled MAC goes to the
parser that its template names, is dropped there, or goes to the receive ring of partition S. A point buffer closes
at its time. A strained input reports each accepted level, counts pulses that are too short, ends a minimum
interval, and reports one active for too long. A port, parser or input that is not enabled, or a time that has not
come, leaves the state as it is. The model's own choices it rests on: log entries 69, 70, 71, 72, 73, 74. -/
def Obligations.IngestCommands : Prop :=
  (∀ (s : State) (i : Nat) (k : CsiPacket),
    s.pipeOn i = true → k.headerOk = false →
    exec (.csiPacket i k) s = .next (((s.orReg (ingReg i 0) (2 ^ 31)).raisePipe .ingCsiErr i).modFrame i fun f => { f with bad := true })) ∧
  (∀ (s : State) (i : Nat) (k : CsiPacket),
    s.pipeOn i = true → k.headerOk = true → k.vc ≠ s.fld (ingReg i 4) 26 23 →
    exec (.csiPacket i k) s = .next (s.countUp (ingReg i 0x78) 1)) ∧
  (∀ (s : State) (i : Nat) (k : CsiPacket),
    s.pipeOn i = true → k.headerOk = true → k.vc = s.fld (ingReg i 4) 26 23 → k.dt = 0 →
    exec (.csiPacket i k) s = .next (s.frameStart i k.vc)) ∧
  (∀ (s : State) (i : Nat) (k : CsiPacket),
    s.pipeOn i = true → k.headerOk = true → k.vc = s.fld (ingReg i 4) 26 23 → k.dt = 1 →
    exec (.csiPacket i k) s = .next (s.modFrame i fun f => { f with ended := true })) ∧
  (∀ (s : State) (i : Nat) (k : CsiPacket),
    s.pipeOn i = true → k.headerOk = true → k.vc = s.fld (ingReg i 4) 26 23 → 1 < k.dt → k.dt ≠ 0x12 →
    k.dt ≠ s.fld (ingReg i 4) 22 17 ∨ dtBits k.dt = 0 →
    exec (.csiPacket i k) s = .next (s.countUp (ingReg i 0x78) 1)) ∧
  (∀ (s : State) (i : Nat) (k : CsiPacket),
    s.pipeOn i = true → k.headerOk = true → k.vc = s.fld (ingReg i 4) 26 23 → 1 < k.dt →
    k.dt = 0x12 ∨ (k.dt = s.fld (ingReg i 4) 22 17 ∧ dtBits k.dt ≠ 0) → k.crcOk = false →
    exec (.csiPacket i k) s = .next (((s.orReg (ingReg i 0) (2 ^ 31)).raisePipe .ingCsiErr i).modFrame i fun f => { f with bad := true })) ∧
  (∀ (s : State) (i : Nat) (k : CsiPacket),
    s.pipeOn i = true → k.headerOk = true → k.vc = s.fld (ingReg i 4) 26 23 → 1 < k.dt →
    k.dt = 0x12 ∨ (k.dt = s.fld (ingReg i 4) 22 17 ∧ dtBits k.dt ≠ 0) → k.crcOk = true →
    exec (.csiPacket i k) s = .next (s.csiData i k)) ∧
  (∀ (s : State) (i vc : Nat),
    s.pipeOn i = true → vc = s.fld (ingReg i 4) 26 23 →
    exec (.frameStart i vc) s = .next ((if (s.pipe i).frame.isSome then s.frameDrop i else s).frameOpen i)) ∧
  (∀ (s : State) (i vc : Nat),
    s.pipeOn i = true → vc ≠ s.fld (ingReg i 4) 26 23 →
    exec (.frameStart i vc) s = .next (s.countUp (ingReg i 0x78) 1)) ∧
  (∀ (s : State) (i : Nat) (f : PipeFrame),
    (s.pipe i).frame = some f → s.pipeOn i = true → (s.pipeCfg i).h ≤ f.lines.length → f.bad = false →
    s.frameHeld i f = true → exec (.frameComplete i) s = .next (s.frameOverrun i)) ∧
  (∀ (s : State) (i : Nat),
    (∀ f, (s.pipe i).frame = some f → s.pipeOn i = false ∨ (f.lines.length < (s.pipeCfg i).h ∧ f.ended = false)) →
    exec (.frameComplete i) s = .next s) ∧
  (∀ (s : State) (i : Nat) (f : PipeFrame),
    (s.pipe i).frame = some f → s.pipeOn i = true → (s.pipeCfg i).h ≤ f.lines.length → f.bad = false →
    s.frameHeld i f = false → exec (.frameComplete i) s = .next (s.frameDone i f)) ∧
  (∀ (s : State) (i : Nat) (f : PipeFrame),
    (s.pipe i).frame = some f → s.pipeOn i = true → (s.pipeCfg i).h ≤ f.lines.length ∨ f.ended = true →
    f.lines.length < (s.pipeCfg i).h ∨ f.bad = true → exec (.frameComplete i) s = .next (s.frameDrop i)) ∧
  (∀ (s : State) (r : Requester) (i v : Nat),
    i < s.nCameras → (s.camOwner i).isSome = true → s.regsWf = true →
    completes (.ingStampOfs r i v) s fun t => t.rd (ingReg i 0x50) = v % 2 ^ 32 ∧ onlyRegs s { t with lateRegs := s.lateRegs } [ingReg i 0x50] ∧ t = s.wrLate s.ct (ingReg i 0x50) v) ∧
  (∀ (s : State) (r : Requester) (i v : Nat),
    s.nCameras ≤ i ∨ s.camOwner i = none → exec (.ingStampOfs r i v) s = .next s) ∧
  (∀ (s : State) (i : Nat) (k : CsiPacket), s.pipeOn i = false → exec (.csiPacket i k) s = .next s) ∧
  (∀ (s : State) (i k : Nat), s.pipeOn i = false → exec (.frameStart i k) s = .next s) ∧
  (∀ (s : State) (e age : Nat) (f : List Byte) (b : Bool) (u : State),
    e < 4 → bit (s.rd (macReg e 0)) 0 = true → 14 ≤ f.length → f.length ≤ 9216 → s.ethOwner e = none →
    s.stampFrame e false f age = (b, u) →
    exec (.ethFrame e f ⟨true, age⟩) s = .next ((u.rxPut e (b2n b * 8) 1024 f).send (.scIrq (5 + 2 * e)))) ∧
  (∀ (s : State) (e age : Nat) (f : List Byte),
    e < 4 → bit (s.rd (macReg e 0)) 0 = true → 14 ≤ f.length → f.length ≤ 9216 →
    exec (.ethFrame e f ⟨false, age⟩) s = .next ((s.rxPut e 4 1024 f).send (.scIrq (5 + 2 * e)))) ∧
  (∀ (s : State) (e age : Nat) (f : List Byte) (b : Bool) (u : State),
    e < 4 → bit (s.rd (macReg e 0)) 0 = true → 14 ≤ f.length → f.length ≤ 9216 → (s.ethOwner e).isSome = true →
    s.stampFrame e false f age = (b, u) →
    completes (.ethFrame e f ⟨true, age⟩) s fun t => (∀ d, parseFrame (s.template e) f = .take d → t = u.pointPacket e (s.timeAgo age) d) ∧
      (parseFrame (s.template e) f = .drop → t = u.parseDrop e) ∧
      (parseFrame (s.template e) f = .other → t = (u.rxPut e (b2n b * 8) 1024 f).send (.scIrq (5 + 2 * e)))) ∧
  (∀ (s : State) (e : Nat),
    (s.parser e).buf.isSome = true → (s.ethOwner e).isSome = true → reached s.time (s.closeAt e) = true →
    exec (.bufferClose e) s = .next (s.pointClose e 1)) ∧
  (∀ (s : State) (e age : Nat) (f : List Byte) (crc : Bool),
    4 ≤ e ∨ bit (s.rd (macReg e 0)) 0 = false ∨ f.length < 14 ∨ 9216 < f.length →
    exec (.ethFrame e f ⟨crc, age⟩) s = .next s) ∧
  (∀ (s : State) (e : Nat),
    (s.parser e).buf = none ∨ s.ethOwner e = none ∨ reached s.time (s.closeAt e) = false →
    exec (.bufferClose e) s = .next s) ∧
  (∀ (s : State) (n : Nat) (l : Bool), s.strOn n = false → exec (.strainerAccept n l) s = .next s) ∧
  (∀ (s : State) (n : Nat),
    (∀ a, (s.strain n).lastAt = some a → s.strOn n = false ∨ bit (s.rd (strReg n 0)) 1 = false ∨ (s.strain n).changes = 0 ∨ s.strNow n < a + s.minIv n) →
    exec (.minIvEnd n) s = .next s) ∧
  (∀ (s : State) (n : Nat),
    (∀ a, (s.strain n).activeAt = some a → s.strOn n = false ∨ s.maxAct n = 0 ∨ s.strNow n < a + s.maxAct n ∨ bit (s.rd (strReg n 8)) 30 = true) →
    exec (.strainerStuck n) s = .next s) ∧
  (∀ (s : State) (n : Nat) (l a : Bool),
    s.strOn n = true → a = (l != bit (s.rd (strReg n 0)) 0) → a ≠ (s.strain n).level →
    exec (.strainerAccept n l) s = .next (s.strAccept n a)) ∧
  (∀ (s : State) (n : Nat) (l a : Bool),
    s.strOn n = true → a = (l != bit (s.rd (strReg n 0)) 0) → a = (s.strain n).level →
    exec (.strainerAccept n l) s = .next (s.countUp (strReg n 0xC) 1)) ∧
  (∀ (s : State) (n a : Nat),
    (s.strain n).lastAt = some a → s.strOn n = true → bit (s.rd (strReg n 0)) 1 = true → (s.strain n).changes ≠ 0 →
    a + s.minIv n ≤ s.strNow n → exec (.minIvEnd n) s = .next (s.strIvEnd n)) ∧
  (∀ (s : State) (n a : Nat),
    (s.strain n).activeAt = some a → s.strOn n = true → s.maxAct n ≠ 0 → a + s.maxAct n ≤ s.strNow n →
    bit (s.rd (strReg n 8)) 30 = false →
    exec (.strainerStuck n) s = .next ((s.orReg (strReg n 8) (2 ^ 31 + 2 ^ 30)).raise .strainerStuck 7 { unit := n }))

/-- Steering, reading and checking the timebase; trigger generators. Only a requester that may steer the timebase
does so, a jump only in jump mode and a slew only in slew mode. A jump that the rules accept is owed to the offset,
sets VALID, counts itself and raises TB_JUMP; one they refuse leaves the time, notes the amount, counts itself and
raises TB_JUMP_REFUSED. A slew adds its amount to what remains. RATE is clamped to its limit, and a clamp raises
TB_RATE_CLAMP; TB_INCR sets the rate it stands for in mode 1. A read of TB_TIME_LO answers the time and latches the
high word and the raw snapshot; reads of the capture and stamp registers pop one entry. A generator that is due
fires; its pulse ends after its width; its control and configuration writes act on that generator alone. A check of
the clock that is out of bounds raises TB_STALL. What is not due, or names no generator, changes nothing. The
model's own choices it rests on: log entry 75. -/
def Obligations.TimebaseCommands : Prop :=
  (∀ (s : State) (r : Requester) (hi : Nat) (a : Int),
    tbMaySteer r = true → s.fld (tbReg 0x38) 1 0 = 0 → a = s.adjAmount hi → s.jumpOk a = true →
    exec (.jump r hi) s = .next (s.jumpApply a)) ∧
  (∀ (s : State) (r : Requester) (hi : Nat) (a : Int),
    tbMaySteer r = true → s.fld (tbReg 0x38) 1 0 = 0 → a = s.adjAmount hi → s.jumpOk a = false →
    exec (.jump r hi) s = .next ((((s.orReg (tbReg 0) (2 ^ 30)).wr64 (tbReg 0x4C) (ofSigned 64 a)).countUp (tbReg 0x58) 1).raise .tbJumpRefused 7 {})) ∧
  (∀ (s : State) (r : Requester) (hi : Nat),
    tbMaySteer r = true → s.fld (tbReg 0x38) 1 0 = 1 →
    completes (.slew r hi) s fun t => t.tb.rem = toSigned 64 (ofSigned 64 (s.tb.rem + s.adjAmount hi)) ∧ { t with tb := { t.tb with rem := s.tb.rem } } = s) ∧
  (∀ (s : State) (r : Requester) (v : Nat),
    tbMaySteer r = true → clampLim (toSigned 32 v) = toSigned 32 v → s.regsWf = true →
    completes (.tbRate r v) s fun t => t.rd (tbReg 0x28) = ofSigned 32 (toSigned 32 v) % 2 ^ 32 ∧ onlyRegs s t [tbReg 0x28]) ∧
  (∀ (s : State) (r : Requester) (v : Nat),
    tbMaySteer r = true → clampLim (toSigned 32 v) ≠ toSigned 32 v →
    exec (.tbRate r v) s = .next ((s.wr (tbReg 0x28) (ofSigned 32 (clampLim (toSigned 32 v)))).raise .tbRateClamp 7 {})) ∧
  (∀ (s : State) (r : Requester) (v : Nat),
    tbMaySteer r = true → bit (s.rd (tbReg 4)) 0 = true →
    exec (.tbIncr r v) s = .next ((s.wr (tbReg 0x2C) v).setRate (incrRate v))) ∧
  (∀ (s : State) (r : Requester),
    s.regsWf = true →
    completes (.tbTimeRead r) s fun t => t.resp = some ⟨r, .ok, leBytes 4 s.time⟩ ∧ t.rd (tbReg 0x18) = s.tb.raw % 2 ^ 32 ∧ t.tb = s.tb ∧ t.mem = s.mem) ∧
  (∀ (s : State) (r : Requester),
    completes (.tbPpsinRawHiRead r) s fun t => t.tb.pps = s.tb.pps.drop 1 ∧ t.mem = s.mem ∧ t.regs = s.regs) ∧
  (∀ (s : State) (r : Requester) (e : Nat) (d : Bool),
    s.tsFifo e d = [] → exec (.tbTsIdRead r e d) s = .next (s.answer r .ok (leBytes 4 0))) ∧
  (∀ (s : State) (r : Requester) (e : Nat) (d : Bool) (h : TsEntry) (l : List TsEntry),
    s.tsFifo e d = h :: l → exec (.tbTsIdRead r e d) s = .next ((s.setTsFifo e d l).answer r .ok (leBytes 4 h.id))) ∧
  (∀ (s : State) (g : Nat),
    g < 25 → bit (s.rd (genReg g 0x10)) 31 = true → reached s.time (s.gen g).next = true →
    exec (.triggerFire g) s = .next (s.genFire g)) ∧
  (∀ (s : State) (g e : Nat),
    (s.gen g).pulseEnd = some e → e ≤ s.tb.raw →
    exec (.pulseEnd g) s = .next (s.setGen g { s.gen g with pulseEnd := none })) ∧
  (∀ (s : State) (r : Requester) (g v : Nat), g < 25 → exec (.genEnable r g v) s = .next (s.genCtrl g v)) ∧
  (∀ (s : State) (r : Requester) (g off v : Nat),
    g < 25 → off = 0 ∨ off = 4 ∨ off = 8 ∨ off = 0xC → exec (.genCfgWrite r g off v) s = .next (s.genCfg g off v)) ∧
  (∀ (s : State) (r : Requester) (g off v : Nat),
    g < 25 → off = 0 ∨ off = 4 → s.regsWf = true →
    completes (.genCfgWrite r g off v) s fun t => t.rd (genReg g off) = v % 2 ^ 32 ∧ onlyRegs s t [genReg g off]) ∧
  (∀ (s : State) (m : Nat) (u : State),
    s.tb.checkAt + 1000000 ≤ s.clock.urn →
    u = { s with tb := { s.tb with checkAt := s.clock.urn, checkTime := s.time } } → 998000 ≤ m → m ≤ 1002000 →
    s.time ≠ s.tb.checkTime → exec (.clockCheck m) s = .next u) ∧
  (∀ (s : State) (m : Nat) (u : State),
    s.tb.checkAt + 1000000 ≤ s.clock.urn →
    u = { s with tb := { s.tb with checkAt := s.clock.urn, checkTime := s.time } } →
    m < 998000 ∨ 1002000 < m ∨ s.time = s.tb.checkTime →
    exec (.clockCheck m) s = .next (u.raise .tbStall 7 { info0 := m })) ∧
  (∀ (s : State) (r : Requester) (hi : Nat), tbMaySteer r = false → exec (.jump r hi) s = .next s) ∧
  (∀ (s : State) (r : Requester) (hi : Nat), tbMaySteer r = false → exec (.slew r hi) s = .next s) ∧
  (∀ (s : State) (r : Requester) (v : Nat), tbMaySteer r = false → exec (.tbRate r v) s = .next s) ∧
  (∀ (s : State) (r : Requester) (v : Nat), tbMaySteer r = false → exec (.tbIncr r v) s = .next s) ∧
  (∀ (s : State) (r : Requester) (hi : Nat), s.fld (tbReg 0x38) 1 0 ≠ 0 → exec (.jump r hi) s = .next s) ∧
  (∀ (s : State) (r : Requester) (hi : Nat), s.fld (tbReg 0x38) 1 0 ≠ 1 → exec (.slew r hi) s = .next s) ∧
  (∀ (s : State) (r : Requester) (v : Nat), bit (s.rd (tbReg 4)) 0 = false → exec (.tbIncr r v) s = .next s) ∧
  (∀ (s : State) (g : Nat),
    25 ≤ g ∨ bit (s.rd (genReg g 0x10)) 31 = false ∨ reached s.time (s.gen g).next = false →
    exec (.triggerFire g) s = .next s) ∧
  (∀ (s : State) (g : Nat), (∀ e, (s.gen g).pulseEnd = some e → s.tb.raw < e) → exec (.pulseEnd g) s = .next s) ∧
  (∀ (s : State) (r : Requester) (g v : Nat), 25 ≤ g → exec (.genEnable r g v) s = .next s) ∧
  (∀ (s : State) (r : Requester) (g off v : Nat),
    25 ≤ g ∨ off ∉ [0, 4, 8, 0xC] → exec (.genCfgWrite r g off v) s = .next s) ∧
  (∀ (s : State) (m : Nat), s.clock.urn < s.tb.checkAt + 1000000 → exec (.clockCheck m) s = .next s)

/-- Pins and resets. RESET_N asserted starts a device reset, and deasserted is only noted. The internal reset is
released once, while RESET_N is high and the device is not shut; a corrected OTP read raises CAD_OTP_CE and a lost
one shuts the device with ERR_OUT_N low. A PERST# event resets the endpoint alone: its state, its MSI-X bits and the
registers it names, and a hot reset or a link-down of a link that was up raises PE_LINK_DOWN. A fall of PWR_GOOD is
a device reset and takes ERR_OUT_N low. An active SAFE_IN raises SAFE_IN for each named partition, in its scope as
it stood, and puts it in its safe state; TEMP_ALERT_N shows its level. A PPS edge that the strained input reported
enters a FIFO of four with the time of its first sample, or is counted as lost. The model's own choices it rests on:
log entries 7, 107, 109, 128, 176. -/
def Obligations.PinsAndResets : Prop :=
  (∀ (s : State),
    exec (.resetN true) s = .next (State.deviceReset { s with power := { s.power with resetN := false } }) ∧
      exec (.resetN false) s = .next { s with power := { s.power with resetN := true } }) ∧
  (∀ (s : State) (straps : Nat),
    s.power.resetN = true → s.power.released = false → s.power.shut = false →
    exec (.internalResetRelease straps .clean) s = .next (s.releaseReset straps)) ∧
  (∀ (s : State) (straps : Nat),
    s.power.resetN = true → s.power.released = false → s.power.shut = false →
    exec (.internalResetRelease straps .corrected) s = .next ((s.releaseReset straps).raise .cadOtpCe 7 {})) ∧
  (∀ (s : State) (straps : Nat),
    s.power.resetN = true → s.power.released = false → s.power.shut = false →
    exec (.internalResetRelease straps .lost) s = .next { s with power := { s.power with shut := true, errLow := true } }) ∧
  (∀ (s : State) (straps : Nat) (otp : OtpRead),
    s.power.resetN = false ∨ s.power.released = true ∨ s.power.shut = true →
    exec (.internalResetRelease straps otp) s = .next s) ∧
  (∀ (s : State) (e : Nat) (u v : State),
    e < 4 → u = ((s.setFld (peReg 0) 7 0 0).wr (peReg 8) 0).wr (peReg 0xC) 0 →
    v = { u with st := { u.st with msixPend := 0, msixMask := 0 } } →
    exec (.perstN e) s = .next (if bit (s.rd (peReg 0)) 0 = true ∧ (e = 1 ∨ e = 2) then v.raise .peLinkDown 7 { info0 := e } else v)) ∧
  (∀ (s : State) (u : State),
    s.power.resetN = true → s.power.pwrGood = true →
    (u = if s.fld (urnReg 0xA018) 31 28 = 4 then { s with caddy := { s.caddy with flash := [] } } else s) →
    completes .pwrGoodFall s fun t => t.power.errLow = true ∧
      { t with power := { t.power with errLow := (State.deviceReset { u with power := { u.power with pwrGood := false } }).power.errLow } } =
        State.deviceReset { u with power := { u.power with pwrGood := false } }) ∧
  (∀ (s : State) (u : State),
    (s.strain 26).level = false → u = (s.setStrain 26 { s.strain 26 with level := true }).strReport 26 true →
    exec (.safeIn true) s = .next (((List.range 4).filter fun p => bit (u.rd (urnReg 0xC010)) p && (u.prec p).active).foldl
      (fun v p => v.safeInPart p) u).errUpdate) ∧
  (∀ (s : State) (b : Bool),
    b = false ∨ (s.strain 26).level = true →
    exec (.safeIn b) s = .next ((s.setStrain 26 { s.strain 26 with level := b }).strReport 26 b)) ∧
  (∀ (s : State) (b : Bool),
    exec (.tempAlertN b) s = .next ((s.setFld (pmReg 0x20) 31 31 (b2n b)).strReport 27 b) ∧
      onlyRegs s ((s.setFld (pmReg 0x20) 31 31 (b2n b)).strReport 27 b) [pmReg 0x20, strReg 27 8]) ∧
  (∀ (s : State) (e a : Nat) (rest : List Nat) (u : State),
    s.ppsStrain.edges = e :: rest → a = s.clock.ns - e →
    u = { s with strs := sparsePut Strain.idle s.strs 24 { s.ppsStrain with edges := rest } } → u.tb.pps.length < 4 →
    completes .ppsIn s fun t => t.tb.pps = s.tb.pps ++ [(u.timeAgo a, ofSigned 64 ((s.tb.raw : Int) - a))] ∧ { t with tb := s.tb } = u) ∧
  (∀ (s : State) (e a : Nat) (rest : List Nat) (u : State),
    s.ppsStrain.edges = e :: rest → a = s.clock.ns - e →
    u = { s with strs := sparsePut Strain.idle s.strs 24 { s.ppsStrain with edges := rest } } → 4 ≤ u.tb.pps.length →
    exec .ppsIn s = .next (u.countUp (tbReg 0x514) 1)) ∧
  (∀ (s : State), s.ppsStrain.edges = [] → exec .ppsIn s = .next s) ∧
  (∀ (s : State) (e : Nat), 4 ≤ e → exec (.perstN e) s = .next s) ∧
  (∀ (s : State), s.power.resetN = false ∨ s.power.pwrGood = false → exec .pwrGoodFall s = .next s)

/-- Packets at a Spout port. A packet at a port that is up, of the kind that its row names, is taken in, or held off
with nothing changed; any other changes nothing. Taking it in counts its bytes. A packet for another chip goes on; a
response for this one answers its request; a request for a partition that is stopped is answered with ERROR, and a
write, an atomic operation or a signal for one in service enters its staging queue. A link block whose CRC is good
and whose number is the expected one delivers its packets and expects the next number; a failed block asks for a
replay, the eighth in a row takes the link down, and blocks after it are ignored until the replay. A replay request
sends the held blocks again. CALIB measures the link, ARRIVE comes from a child, GO from the parent. The model's own
choices it rests on: log entries 77, 78, 79, 80, 84, 166. -/
def Obligations.SpoutPackets : Prop :=
  (∀ (s : State) (n k : Nat) (q : SpoutPacket) (i : Instr),
    (k, i) ∈
    [(kWrite, Instr.spoutWrite n q), (kRead, Instr.spoutRead n q), (kAtomic, Instr.spoutAtomic n q), (kSignal, Instr.spoutSignal n q),
     (kAck, Instr.ack n q), (kData, Instr.data n q), (kError, Instr.error n q)] →
    s.portUp n = true → q.kind = k → exec i s = .next (if (s.arrivePacket n q).1 then (s.arrivePacket n q).2 else s)) ∧
  (∀ (s : State) (n : Nat) (q : SpoutPacket) (u : State),
    u = s.count64Hold (spReg n 0x28) (16 + q.payload.length) →
    q.kind ∈ [kWrite, kRead, kAtomic, kSignal, kWatch, kWake, kAck, kData, kError] → q.dest ≠ 127 →
    q.dest ≠ u.selfId → s.arrivePacket n q = (true, u.transit n q)) ∧
  (∀ (s : State) (n : Nat) (q : SpoutPacket) (u : State),
    u = s.count64Hold (spReg n 0x28) (16 + q.payload.length) → q.kind ∈ [kAck, kData, kError] →
    q.dest = 127 ∨ q.dest = u.selfId → s.arrivePacket n q = (true, u.response n q)) ∧
  (∀ (s : State) (n p : Nat) (q : SpoutPacket) (u : State),
    u = s.count64Hold (spReg n 0x28) (16 + q.payload.length) → q.kind ∈ [kWrite, kAtomic, kSignal] →
    q.dest = 127 ∨ q.dest = u.selfId → u.masterPacket n q = false → u.bootRouting = false → u.spOwner n = some p →
    u.memOwner (homeOf (q.addr % 2 ^ 41)) = some p → u.scopeStopped p = true →
    s.arrivePacket n q = (true, u.spAnswer n q kError [])) ∧
  (∀ (s : State) (n p : Nat) (q : SpoutPacket) (u : State),
    u = s.count64Hold (spReg n 0x28) (16 + q.payload.length) → q.kind ∈ [kWrite, kAtomic, kSignal] →
    q.dest = 127 ∨ q.dest = u.selfId → u.masterPacket n q = false → u.bootRouting = false → u.spOwner n = some p →
    u.memOwner (homeOf (q.addr % 2 ^ 41)) = some p → u.scopeStopped p = false →
    (q.kind = kAtomic → (atomicOf q.atomicOp).isSome = true) → s.arrivePacket n q = u.spStage n (some p) q) ∧
  (∀ (s : State) (n : Nat) (b : LinkBlock) (u v : State),
    s.portUp n = true → (u = if 1 ≤ b.symbolErrors ∧ b.symbolErrors ≤ 5 then s.countUp (spReg n 0x14) 1 else s) →
    b.crcOk = true → b.symbolErrors ≤ 5 → b.seq = (s.port n).rxNext →
    (u.setPort n { s.port n with rxNext := ((s.port n).rxNext + 1) % 2 ^ 16, replaying := false, replays := 0 }).deliverAll n b.packets = (true, v) →
    exec (.linkBlock n b) s = .next v) ∧
  (∀ (s : State) (n : Nat) (b : LinkBlock) (u : State),
    s.portUp n = true → (u = if 1 ≤ b.symbolErrors ∧ b.symbolErrors ≤ 5 then s.countUp (spReg n 0x14) 1 else s) →
    (s.port n).replaying = true → b.seq ≠ (s.port n).rxNext → exec (.linkBlock n b) s = .next u) ∧
  (∀ (s : State) (n : Nat) (b : LinkBlock) (u : State),
    s.portUp n = true → (u = if 1 ≤ b.symbolErrors ∧ b.symbolErrors ≤ 5 then s.countUp (spReg n 0x14) 1 else s) →
    (s.port n).replaying = false ∨ b.seq = (s.port n).rxNext →
    b.crcOk = false ∨ 5 < b.symbolErrors ∨ b.seq ≠ (s.port n).rxNext → 8 ≤ (s.port n).replays + 1 →
    exec (.linkBlock n b) s = .next (u.linkDown n)) ∧
  (∀ (s : State) (n : Nat) (b : LinkBlock) (u : State),
    s.portUp n = true → (u = if 1 ≤ b.symbolErrors ∧ b.symbolErrors ≤ 5 then s.countUp (spReg n 0x14) 1 else s) →
    (s.port n).replaying = false ∨ b.seq = (s.port n).rxNext →
    b.crcOk = false ∨ 5 < b.symbolErrors ∨ b.seq ≠ (s.port n).rxNext → (s.port n).replays + 1 < 8 →
    exec (.linkBlock n b) s =
      .next ((u.setPort n { s.port n with replaying := true, replays := (s.port n).replays + 1 }).send (.replay n (s.port n).rxNext))) ∧
  (∀ (s : State) (n k : Nat),
    s.portUp n = true → (((s.port n).buf.dropWhile fun e => e.1 != k) ≠ []) →
    exec (.replayRequest n k) s = .next { s.countUp (spReg n 0x18) 1 with out := s.out ++ ((s.port n).buf.dropWhile fun e => e.1 != k).map fun e => .packet n e.2 }) ∧
  (∀ (s : State) (n : Nat) (q : SpoutPacket),
    s.portUp n = true → q.kind = kCalib → exec (.calib n q) s = .next (s.calib n q)) ∧
  (∀ (s : State) (n : Nat) (q : SpoutPacket),
    s.portUp n = true → q.kind = kCalib → q.atomicOp = 0 →
    exec (.calib n q) s = .next (s.spControl n kCalib 1 (leBytes 4 0))) ∧
  (∀ (s : State) (n : Nat) (q : SpoutPacket),
    s.portUp n = true → q.kind = kArrive → s.barChildren.contains n = true →
    exec (.arrive n q) s = .next (s.arriveIn n q)) ∧
  (∀ (s : State) (n : Nat) (q : SpoutPacket),
    s.portUp n = true → q.kind = kGo → n = s.barParent → exec (.go n q) s = .next (s.goIn n q)) ∧
  (∀ (s : State) (n k : Nat) (q : SpoutPacket) (i : Instr),
    (k, i) ∈
    [(kWrite, Instr.spoutWrite n q), (kRead, Instr.spoutRead n q), (kAtomic, Instr.spoutAtomic n q), (kSignal, Instr.spoutSignal n q),
     (kAck, Instr.ack n q), (kData, Instr.data n q), (kError, Instr.error n q)] →
    s.portUp n = false ∨ q.kind ≠ k → exec i s = .next s) ∧
  (∀ (s : State) (n : Nat) (b : LinkBlock), s.portUp n = false → exec (.linkBlock n b) s = .next s) ∧
  (∀ (s : State) (n k : Nat),
    (s.portUp n = false ∨ ((s.port n).buf.dropWhile fun e => e.1 != k) = []) → exec (.replayRequest n k) s = .next s) ∧
  (∀ (s : State) (n : Nat) (q : SpoutPacket), s.portUp n = false ∨ q.kind ≠ kCalib → exec (.calib n q) s = .next s) ∧
  (∀ (s : State) (n : Nat) (q : SpoutPacket),
    s.portUp n = false ∨ q.kind ≠ kArrive ∨ n ∉ s.barChildren → exec (.arrive n q) s = .next s) ∧
  (∀ (s : State) (n : Nat) (q : SpoutPacket),
    s.portUp n = false ∨ q.kind ≠ kGo ∨ n ≠ s.barParent → exec (.go n q) s = .next s)

/-- Spout links, barriers and timeouts. Training with a good lane group ends in calibration, and the port is up once
its peer is known; without one the port stays down. A failed attempt counts, and the third leaves the port down. A
peer whose identity or stepping does not match keeps the port down. A link down or a retrain starts training again.
ARM starts a barrier of the Steward, its start tick clears ARM and notes the time, and a barrier that does not start
in time is cleared and raised. A request without a response in time is raised and fails. CALIB exchanges are sent by
ports that are up, and their answer enters the mean of the last 256 trips. What comes to a port not in the state for
it, or before its time, changes nothing. The model's own choices it rests on: log entries 76, 81, 82, 83. -/
def Obligations.SpoutLinks : Prop :=
  (∀ (s : State) (n lanes c : Nat),
    s.spState n = 1 → s.spOn n = true → lanes % 16 ≠ 15 → lanes / 16 % 16 ≠ 15 →
    exec (.linkTraining n lanes c) s = .next (s.spStaysDown n)) ∧
  (∀ (s : State) (n lanes c : Nat) (u : State),
    s.spState n = 1 → s.spOn n = true → lanes % 16 = 15 ∨ lanes / 16 % 16 = 15 →
    u = ((((s.setFld (spReg n 0) 4 4 (b2n !(lanes % 16 == 15 && lanes / 16 % 16 == 15))).setFld (spReg n 0) 3 3 (b2n !(lanes % 16 == 15))).setFld (spReg n 0xC) 23 0 c).setSpState n 2) →
    exec (.linkTraining n lanes c) s = .next (if bit (u.rd (spReg n 0x10)) 31 then u.spUp n else u)) ∧
  (∀ (s : State) (n : Nat) (u : State),
    s.spState n = 1 ∨ s.spState n = 2 → s.spOn n = true →
    u = (s.setPort n { s.port n with attempts := (s.port n).attempts + 1 }).setSpState n 1 →
    exec (.trainingRetry n) s = .next (if 3 ≤ (s.port n).attempts + 1 then u.spStaysDown n else u)) ∧
  (∀ (s : State) (n peer port sys : Nat),
    s.spState n = 1 ∨ s.spState n = 2 → s.spOn n = true → (peer % 128 = s.selfId ∧ s.selfId ≠ 127) ∨ sys ≠ 0x21 →
    exec (.ident n peer port sys) s = .next ((s.setSpState n 4).raiseSp .spPeerMismatch n { info0 := peer, info1 := sys })) ∧
  (∀ (s : State) (n peer port : Nat) (u : State),
    s.spState n = 1 ∨ s.spState n = 2 → s.spOn n = true → peer % 128 ≠ s.selfId ∨ s.selfId = 127 →
    u = s.wr (spReg n 0x10) (2 ^ 31 + port % 4 * 2 ^ 8 + peer % 128) →
    exec (.ident n peer port 0x21) s = .next (if u.spState n = 2 then u.spUp n else u)) ∧
  (∀ (s : State) (n : Nat),
    s.portUp n = true →
    exec (.calibExchange n) s = .next ((s.setPort n { s.port n with calibAt := some s.ct16 }).spControl n kCalib 0 (leBytes 4 0))) ∧
  (∀ (s : State) (n : Nat), s.spState n = 2 ∨ s.spState n = 3 → exec (.linkDown n) s = .next (s.linkDown n)) ∧
  (∀ (s : State) (n : Nat), n < 4 → s.spOn n = true → exec (.retrain .steward n) s = .next (s.spTrain n)) ∧
  (∀ (s : State),
    s.armed = false →
    exec (.arm .steward) s = .next ((s.setArmed true).modBar fun b => { b with armedAt := s.clock.urn }).barTry) ∧
  (∀ (s : State) (t : Nat),
    s.sp.bar.startAt = some t → s.armed = true → t ≤ s.ct →
    exec .barrierStart s = .next (((s.setArmed false).wr64 (spGlob 0xC) s.time).modBar fun _ => Barrier.idle)) ∧
  (∀ (s : State),
    s.armed = true → s.sp.bar.startAt = none →
    s.sp.bar.armedAt + 1000000 * fieldAt (s.record 0x13 7) 0xA 2 ≤ s.clock.urn →
    exec .barrierTimeout s = .next ((((s.setArmed false).modBar fun _ => Barrier.idle).orReg (spGlob 4) (2 ^ 1)).raise .spBarrierTimeout (scopeOf ((List.range 4).findSome? s.spOwner)) {})) ∧
  (∀ (s : State) (tag : Nat) (q : SpReq),
    s.sp.reqs.find? (fun q => q.tag == tag) = some q → q.at_ + 1000 * fieldAt (s.record 0x13 7) 0xC 4 ≤ s.clock.urn →
    exec (.respTimeout tag) s = .next ((s.raise .spRespTimeout (scopeOf (s.partOf q.req))
      { req := q.req.index, ctx := q.req.ctx.getD 0xFF, unit := q.dest, info0 := q.addr % 2 ^ 32, info1 := q.addr / 2 ^ 32, cluster := q.req.cluster }).reqFail q)) ∧
  (∀ (s : State) (n lanes c : Nat), s.spState n ≠ 1 ∨ s.spOn n = false → exec (.linkTraining n lanes c) s = .next s) ∧
  (∀ (s : State) (n : Nat),
    s.spState n ≠ 1 ∧ s.spState n ≠ 2 ∨ s.spOn n = false → exec (.trainingRetry n) s = .next s) ∧
  (∀ (s : State) (n peer port sys : Nat),
    s.spState n ≠ 1 ∧ s.spState n ≠ 2 ∨ s.spOn n = false → exec (.ident n peer port sys) s = .next s) ∧
  (∀ (s : State) (n : Nat), s.portUp n = false → exec (.calibExchange n) s = .next s) ∧
  (∀ (s : State) (n : Nat), s.spState n ≠ 2 ∧ s.spState n ≠ 3 → exec (.linkDown n) s = .next s) ∧
  (∀ (s : State) (r : Requester) (n : Nat), r ≠ .steward ∨ 4 ≤ n ∨ s.spOn n = false → exec (.retrain r n) s = .next s) ∧
  (∀ (s : State) (r : Requester), r ≠ .steward ∨ s.armed = true → exec (.arm r) s = .next s) ∧
  (∀ (s : State),
    s.armed = false ∨ s.sp.bar.startAt ≠ none ∨ s.clock.urn < s.sp.bar.armedAt + 1000000 * fieldAt (s.record 0x13 7) 0xA 2 →
    exec .barrierTimeout s = .next s) ∧
  (∀ (s : State), (∀ t, s.sp.bar.startAt = some t → s.armed = false ∨ s.ct < t) → exec .barrierStart s = .next s) ∧
  (∀ (s : State) (tag : Nat),
    (∀ q, s.sp.reqs.find? (fun q => q.tag == tag) = some q → s.clock.urn < q.at_ + 1000 * fieldAt (s.record 0x13 7) 0xC 4) →
    exec (.respTimeout tag) s = .next s) ∧
  (∀ (s : State) (n t : Nat) (q : SpoutPacket) (l : List Nat),
    s.portUp n = true → q.kind = kCalib → q.atomicOp ≠ 0 → (s.port n).calibAt = some t →
    l = ((s.ct16 - t - leNat (q.payload.take 4)) :: (s.port n).trips).take 256 →
    exec (.calib n q) s = .next ((s.setPort n { s.port n with calibAt := none, trips := l }).setFld (spReg n 0xC) 23 0 (l.foldl (· + ·) 0 / l.length / 2)))

/-- The host's memory window, the command rings and their service. A posted write of the host through BAR2 lands in
LPDDR6 where the host is the master, or the device in recovery, and the channels are in service; it waits for
channels not in service, is discarded with the report that the host is not master otherwise, and past the end of
LPDDR6 is raised; a read answers the bytes, or is unsupported past the end. A host-service tick that is due visits
the eight rings in order. A ring is configured by its owner alone: with RESET it is reset, while disabled it is
stored, while enabled the write is ignored. A Program is loaded and firmware is staged once the memory they lie in
is in service, a reset of a partition that does not exist is INVALID, a generator is restarted by the owner of its
camera port alone, and NOP completes OK. The model's own choices it rests on: log entries 85, 86, 87, 88. -/
def Obligations.HostWindowAndRings : Prop :=
  (∀ (s : State) (o a : Nat) (l : List Byte),
    s.bar2Addr o l.length = some a → s.isMaster .pcie = true ∨ s.power.recovery = true → a + l.length ≤ lpddrTop →
    s.lpReady a l.length = true → exec (.bar2Write o l) s = .next (s.memWrite .pcie a l).2) ∧
  (∀ (s : State) (o a : Nat) (l : List Byte),
    s.bar2Addr o l.length = some a → s.isMaster .pcie = false → s.power.recovery = false →
    exec (.bar2Write o l) s = .next (s.notMaster .pcie)) ∧
  (∀ (s : State) (o a : Nat) (l : List Byte),
    s.bar2Addr o l.length = some a → s.isMaster .pcie = true ∨ s.power.recovery = true → lpddrTop < a + l.length →
    exec (.bar2Write o l) s = .next (s.raiseReq .addrUnmapped .pcie a)) ∧
  (∀ (s : State) (o a : Nat) (l : List Byte),
    s.bar2Addr o l.length = some a → s.isMaster .pcie = true ∨ s.power.recovery = true → a + l.length ≤ lpddrTop →
    s.lpReady a l.length = false → exec (.bar2Write o l) s = .next s) ∧
  (∀ (s : State) (o : Nat) (l : List Byte), s.bar2Addr o l.length = none → exec (.bar2Write o l) s = .next s) ∧
  (∀ (s : State) (o n : Nat), s.bar2Addr o n = none → exec (.bar2Read o n) s = .next s) ∧
  (∀ (s : State) (o a n : Nat),
    s.bar2Addr o n = some a → a + n ≤ lpddrTop → s.lpReady a n = false → exec (.bar2Read o n) s = .next s) ∧
  (∀ (s : State) (o a n : Nat) (d : RdRes) (u : State),
    s.bar2Addr o n = some a → a + n ≤ lpddrTop → s.lpReady a n = true → s.memRead .pcie a n = (d, u) →
    exec (.bar2Read o n) s = .next (u.answer .pcie (respOf .pcie d.err) (if d.err = some .locked then [] else d.bytes))) ∧
  (∀ (s : State) (o a n : Nat),
    s.bar2Addr o n = some a → lpddrTop < a + n →
    exec (.bar2Read o n) s = .next ((s.raiseReq .addrUnmapped .pcie a).answer .pcie .unsupported [])) ∧
  (∀ (s : State),
    s.stewardUp = true → s.st.lastTick + s.fld (stReg 0x5000) 9 0 * 1000 ≤ s.clock.ns →
    exec .hostServiceTick s =
      .next ((List.range 8).foldl (fun (v : State) n => v.visitRing n) { s.payOwed with st := { s.st with lastTick := s.clock.ns } }).payOwed) ∧
  (∀ (s : State),
    s.stewardUp = false ∨ s.clock.ns < s.st.lastTick + s.fld (stReg 0x5000) 9 0 * 1000 →
    exec .hostServiceTick s = .next s) ∧
  (∀ (s : State) (r : Requester) (n v : Nat),
    s.ownsRing r n = false ∨ 8 ≤ n →
    exec (.ringCfgWrite r n v) s = .next (s.notMaster r) ∧ exec (.ringReset r n) s = .next (s.notMaster r)) ∧
  (∀ (s : State) (r : Requester) (n : Nat),
    n < 8 → s.ownsRing r n = true → exec (.ringReset r n) s = .next (s.ringReset n)) ∧
  (∀ (s : State) (r : Requester) (n v : Nat),
    n < 8 → s.ownsRing r n = true → bit v 30 = true →
    exec (.ringCfgWrite r n v) s = .next ((s.wr (stReg (0x5028 + n * 0x10)) (setBits (setBits (v % 2 ^ 21) 15 14 0) 7 4 0)).ringReset n)) ∧
  (∀ (s : State) (r : Requester) (n v : Nat),
    n < 8 → s.ownsRing r n = true → bit v 30 = false → bit (s.rd (stReg (0x5028 + n * 0x10))) 31 = true →
    exec (.ringCfgWrite r n v) s = .next s) ∧
  (∀ (s : State) (r : Requester) (n v : Nat),
    n < 8 → s.ownsRing r n = true → bit v 30 = false → bit (s.rd (stReg (0x5028 + n * 0x10))) 31 = false →
    s.regsWf = true →
    completes (.ringCfgWrite r n v) s fun t => t.rd (stReg (0x5028 + n * 0x10)) = (setBits (setBits (v % 2 ^ 21) 15 14 0) 7 4 0 + bits v 31 31 * 2 ^ 31) % 2 ^ 32 ∧ onlyRegs s t [stReg (0x5028 + n * 0x10)]) ∧
  (∀ (s : State) (ring idx : Nat) (k : Cmd) (g : Program),
    s.mbCmd ring idx 0x03 = some k → s.lpReady (k.arg 8 6) (max 1 (k.arg 0x10 4)) = true →
    exec (.progLoad ring idx g) s = .next ((s.begin_ ring idx).loadProgram ring idx k g)) ∧
  (∀ (s : State) (ring idx : Nat) (k : Cmd) (v : SigVerdict),
    s.mbCmd ring idx 0x0F = some k → s.lpReady (k.arg 8 6) (max 1 (k.arg 0x10 4)) = true →
    exec (.fwStage ring idx v) s = .next ((s.begin_ ring idx).fwStage ring idx k v)) ∧
  (∀ (s : State) (ring idx : Nat) (k : Cmd),
    s.mbCmd ring idx 0x0E = some k → k.part ≤ 4 →
    exec (.partReset ring idx) s = .next (State.askUncounted { s.begin_ ring idx with urn := { (s.begin_ ring idx).urn with resets := (s.begin_ ring idx).urn.resets.filter fun e => e.1 != k.part } } k.part (some (ring, idx)))) ∧
  (∀ (s : State) (ring idx : Nat) (k : Cmd),
    s.mbCmd ring idx 0x0E = some k → 4 < k.part →
    exec (.partReset ring idx) s = .next ((s.begin_ ring idx).complete ring idx stInvalid 0 0)) ∧
  (∀ (s : State) (ring idx : Nat) (k : Cmd),
    s.mbCmd ring idx 0x10 = some k → 16 ≤ k.arg 8 8 →
    exec (.trigSet ring idx) s = .next ((s.begin_ ring idx).complete ring idx stInvalid 0 0)) ∧
  (∀ (s : State) (ring idx : Nat) (k : Cmd),
    s.mbCmd ring idx 0x10 = some k → k.arg 8 8 < 16 → (s.begin_ ring idx).camOwner (k.arg 8 8) ≠ some k.part →
    exec (.trigSet ring idx) s = .next ((s.begin_ ring idx).complete ring idx stDenied 0 0)) ∧
  (∀ (s : State) (ring idx : Nat) (k : Cmd),
    s.mbCmd ring idx 0x10 = some k → k.arg 8 8 < 16 → (s.begin_ ring idx).camOwner (k.arg 8 8) = some k.part →
    exec (.trigSet ring idx) s =
      .next (((s.begin_ ring idx).genRestart (k.arg 8 8) (k.arg 0x10 8) (k.arg 0x18 4) (k.arg 0x1C 4) (k.arg 0x20 4)).complete ring idx stOk 0 0)) ∧
  (∀ (s : State) (ring idx : Nat) (k : Cmd),
    s.mbCmd ring idx 0x11 = some k → exec (.nop ring idx) s = .next ((s.begin_ ring idx).complete ring idx stOk 0 0)) ∧
  (∀ (s : State) (ring idx : Nat) (g : Program),
    s.mbCmd ring idx 0x03 = none → exec (.progLoad ring idx g) s = .next s) ∧
  (∀ (s : State) (ring idx : Nat) (g : SigVerdict),
    s.mbCmd ring idx 0x0F = none → exec (.fwStage ring idx g) s = .next s) ∧
  (∀ (s : State) (ring idx : Nat), s.mbCmd ring idx 0x0E = none → exec (.partReset ring idx) s = .next s) ∧
  (∀ (s : State) (ring idx : Nat), s.mbCmd ring idx 0x10 = none → exec (.trigSet ring idx) s = .next s) ∧
  (∀ (s : State) (ring idx : Nat), s.mbCmd ring idx 0x11 = none → exec (.nop ring idx) s = .next s) ∧
  (∀ (s : State) (ring idx : Nat) (k : Cmd) (g : Program),
    s.mbCmd ring idx 0x03 = some k → s.lpReady (k.arg 8 6) (max 1 (k.arg 0x10 4)) = false →
    exec (.progLoad ring idx g) s = .next s) ∧
  (∀ (s : State) (ring idx : Nat) (k : Cmd) (g : SigVerdict),
    s.mbCmd ring idx 0x0F = some k → s.lpReady (k.arg 8 6) (max 1 (k.arg 0x10 4)) = false →
    exec (.fwStage ring idx g) s = .next s)

/-- The service complex, Ethernet transmission, UARTs and the PCI Express link. Partition S enables its cores, and
cores stay enabled. A core that is not enabled, or of a stopped partition S, accesses nothing. An access of an
enabled core outside its windows is refused and raised; a store of a core into a perception partition's compute
region enters staging queue 25 of that partition, or waits while that is full; a load from there is served at once,
an access to LPDDR6 goes through the L2, a cache-block operation acts on the L2, and an access to another chip is
sent. An enabled MAC sends the frame at the head of its transmit ring, stamped where it is a PTP event; a character
on an enabled UART interrupts partition S; the PCI Express link trains once it is out of reset. The model's own
choices it rests on: log entries 90, 91, 92, 147, 163. -/
def Obligations.ServiceComplexAndPorts : Prop :=
  (∀ (s : State) (h v : Nat),
    s.regsWf = true →
    completes (.harts (.hart h) v) s fun t => t = s.orReg (stReg 0x5108) (v % 256 / 2 * 2) ∧ onlyRegs s t [stReg 0x5108]) ∧
  (∀ (s : State) (h : Nat) (a : Access) (cache : Option CacheOp),
    8 ≤ h ∨ 3 ≤ s.recState 4 ∨ (h ≠ 0 ∧ bit (s.rd (stReg 0x5108)) h = false) →
    exec (.scAccess h a cache) s = .next s) ∧
  (∀ (s : State) (h : Nat) (a b : Access),
    h < 8 → s.recState 4 < 3 → h = 0 ∨ bit (s.rd (stReg 0x5108)) h = true → b = { a with req := .hart h } →
    s.swinOk a.addr (accessLen b) (accessRight b) = false →
    exec (.scAccess h a none) s = .next ((s.raiseReq .bbViolation (.hart h) a.addr).answer (.hart h) .error [])) ∧
  (∀ (s : State) (h : Nat) (a b : Access),
    h < 8 → s.recState 4 < 3 → h = 0 ∨ bit (s.rd (stReg 0x5108)) h = true → b = { a with req := .hart h } →
    s.swinOk a.addr (accessLen b) (accessRight b) = true → s.localOf a.addr = none →
    exec (.scAccess h a none) s = .next (s.sendAccess b)) ∧
  (∀ (s : State) (h x n p : Nat) (a b : Access),
    h < 8 → s.recState 4 < 3 → h = 0 ∨ bit (s.rd (stReg 0x5108)) h = true → b = { a with req := .hart h } →
    s.swinOk a.addr (accessLen b) (accessRight b) = true → s.localOf a.addr = some x → a.kind = .read n →
    s.computePart (homeOf x) = some p → exec (.scAccess h a none) s = .next (s.serveAccess x b)) ∧
  (∀ (s : State) (h x : Nat) (a b : Access),
    h < 8 → s.recState 4 < 3 → h = 0 ∨ bit (s.rd (stReg 0x5108)) h = true → b = { a with req := .hart h } →
    s.swinOk a.addr (accessLen b) (accessRight b) = true → s.localOf a.addr = some x →
    s.computePart (homeOf x) = none →
    exec (.scAccess h a none) s = .next (if x < lpddrTop then s.cached h x b else s.serveAccess x b)) ∧
  (∀ (s : State) (h x p : Nat) (a b : Access) (u : State) (l : List Byte),
    h < 8 → s.recState 4 < 3 → h = 0 ∨ bit (s.rd (stReg 0x5108)) h = true → b = { a with req := .hart h } →
    s.swinOk a.addr (accessLen b) (accessRight b) = true → s.localOf a.addr = some x → a.kind = .write l →
    s.computePart (homeOf x) = some p → s.stagePut p 25 b none = (true, u) →
    exec (.scAccess h a none) s = .next (u.answer (.hart h) .ok [])) ∧
  (∀ (s : State) (h x p : Nat) (a b : Access) (u : State) (v : Nat),
    h < 8 → s.recState 4 < 3 → h = 0 ∨ bit (s.rd (stReg 0x5108)) h = true → b = { a with req := .hart h } →
    s.swinOk a.addr (accessLen b) (accessRight b) = true → s.localOf a.addr = some x → a.kind = .signal v →
    s.computePart (homeOf x) = some p → s.stagePut p 25 b none = (true, u) →
    exec (.scAccess h a none) s = .next (u.answer (.hart h) .ok [])) ∧
  (∀ (s : State) (h x p : Nat) (a b : Access) (u : State) (v : Nat),
    h < 8 → s.recState 4 < 3 → h = 0 ∨ bit (s.rd (stReg 0x5108)) h = true → b = { a with req := .hart h } →
    s.swinOk a.addr (accessLen b) (accessRight b) = true → s.localOf a.addr = some x → a.kind = .set v →
    s.computePart (homeOf x) = some p → s.stagePut p 25 b none = (true, u) →
    exec (.scAccess h a none) s = .next (u.answer (.hart h) .ok [])) ∧
  (∀ (s : State) (h x p : Nat) (a b : Access) (u : State) (o : AtomicOp) (v w : Nat),
    h < 8 → s.recState 4 < 3 → h = 0 ∨ bit (s.rd (stReg 0x5108)) h = true → b = { a with req := .hart h } →
    s.swinOk a.addr (accessLen b) (accessRight b) = true → s.localOf a.addr = some x → a.kind = .atomic o v w →
    s.computePart (homeOf x) = some p → s.stagePut p 25 b none = (true, u) → exec (.scAccess h a none) s = .next u) ∧
  (∀ (s : State) (h x p : Nat) (a b : Access),
    h < 8 → s.recState 4 < 3 → h = 0 ∨ bit (s.rd (stReg 0x5108)) h = true → b = { a with req := .hart h } →
    s.swinOk a.addr (accessLen b) (accessRight b) = true → s.localOf a.addr = some x → (∀ n, a.kind ≠ .read n) →
    s.computePart (homeOf x) = some p → (s.stagePut p 25 b none).1 = false → exec (.scAccess h a none) s = .next s) ∧
  (∀ (s : State) (h x : Nat) (a b : Access) (op : CacheOp),
    h < 8 → s.recState 4 < 3 → h = 0 ∨ bit (s.rd (stReg 0x5108)) h = true → b = { a with req := .hart h } →
    s.swinOk a.addr (accessLen b) .write = true → s.localOf a.addr = some x →
    exec (.scAccess h a (some op)) s = .next ((s.l2Cbo op x (accessLen b)).answer (.hart h) .ok [])) ∧
  (∀ (s : State) (h : Nat) (a b : Access) (op : CacheOp),
    h < 8 → s.recState 4 < 3 → h = 0 ∨ bit (s.rd (stReg 0x5108)) h = true → b = { a with req := .hart h } →
    s.swinOk a.addr (accessLen b) .write = true → s.localOf a.addr = none →
    exec (.scAccess h a (some op)) s = .next (s.answer (.hart h) .ok [])) ∧
  (∀ (s : State) (h : Nat) (a b : Access) (op : CacheOp),
    h < 8 → s.recState 4 < 3 → h = 0 ∨ bit (s.rd (stReg 0x5108)) h = true → b = { a with req := .hart h } →
    s.swinOk a.addr (accessLen b) .write = false →
    exec (.scAccess h a (some op)) s = .next ((s.raiseReq .bbViolation (.hart h) a.addr).answer (.hart h) .error [])) ∧
  (∀ (s : State) (e : Nat),
    4 ≤ e ∨ bit (s.rd (macReg e 0)) 0 = false ∨ s.macHalt = true ∨ (s.macRing e true).2 = 0 ∨ s.lpReady (s.macRing e true).1 (16 * (s.macRing e true).2) = false →
    exec (.macTransmit e) s = .next s) ∧
  (∀ (s : State) (e : Nat) (w : State),
    e < 4 → bit (s.rd (macReg e 0)) 0 = true → s.macHalt = false → 0 < (s.macRing e true).2 →
    s.lpReady (s.macRing e true).1 (16 * (s.macRing e true).2) = true →
    s.txGather e (min (s.macRing e true).2 1024) 0 = (none, w) → exec (.macTransmit e) s = .next w) ∧
  (∀ (s : State) (e n : Nat) (f : List Byte) (b : Bool) (u w : State),
    e < 4 → bit (s.rd (macReg e 0)) 0 = true → s.macHalt = false → 0 < (s.macRing e true).2 →
    s.lpReady (s.macRing e true).1 (16 * (s.macRing e true).2) = true →
    s.txGather e (min (s.macRing e true).2 1024) 0 = (some (n, f), w) → w.stampFrame e true f 0 = (b, u) →
    ∃ v, v = (List.range n).foldl (fun v k => v.txDone e b k) u ∧ exec (.macTransmit e) s =
      .next (((v.setMac e { v.mac e with tx := ((v.mac e).tx + n) % (s.macRing e true).2 }).send (.frame e f)).send (.scIrq (6 + 2 * e)))) ∧
  (∀ (s : State) (u ch : Nat),
    u < 2 → bit (fieldAt (s.record 5 7) 1 1) u = true →
    exec (.uartReceive u ch) s = .next (s.send (.scIrq (22 + u)))) ∧
  (∀ (s : State) (w g : Nat),
    w = 1 ∨ w = 2 ∨ w = 4 ∨ w = 8 → g = 4 ∨ g = 5 → s.power.released = true → s.pmState ≤ 1 →
    completes (.pcieLinkTraining w g) s fun t => t = ((s.setFld (peReg 0) 7 4 w).setFld (peReg 0) 3 1 g).setFld (peReg 0) 0 0 1 ∧ onlyRegs s t [peReg 0]) ∧
  (∀ (s : State) (r : Requester) (v : Nat), (∀ h, r ≠ .hart h) → exec (.harts r v) s = .next s) ∧
  (∀ (s : State) (u ch : Nat),
    2 ≤ u ∨ bit (fieldAt (s.record 5 7) 1 1) u = false → exec (.uartReceive u ch) s = .next s) ∧
  (∀ (s : State) (w g : Nat),
    w ∉ [1, 2, 4, 8] ∨ g ∉ [4, 5] ∨ s.power.released = false ∨ 1 < s.pmState →
    exec (.pcieLinkTraining w g) s = .next s)

/-- LPDDR6 requests, write-backs, patrol, refresh and training. A request to local LPDDR6 whose channels are in
service decodes its first burst where it reads it, and is served; a corrected burst is written back once, counted
and raised. A refresh changes nothing. A report above the rated range, or an oscillator that has moved by more than
a 64th, sets its bit and is raised. A patrol pass is counted, and meets a burst with bad symbols as it would be
read. Training that succeeds with agreeing parts brings the channel into service with new oscillator values;
failing, it is raised: a partition in its reset goes out of service, and otherwise the device is shut. A request
elsewhere, or to a channel not in service, and every report of a channel not in service, change nothing. The model's
own choices it rests on: log entries 93, 94, 95, 96. -/
def Obligations.ExternalMemoryCommands : Prop :=
  (∀ (s : State) (x : Access) (b a : Nat),
    s.localOf x.addr = some a → a < lpddrTop → s.lpReady a (accSize x.kind) = true →
    exec (.lpddr6Request x b) s = .next ((if accDecodes x then s.burstDecode x.req a b else s).lpServe x a)) ∧
  (∀ (s : State) (c a : Nat),
    s.writeBack.find? (fun e => e.1 == c) = some (c, a) → s.fld (mcReg c 0) 3 0 = 2 →
    exec (.mcWriteBack c) s = .next ((State.countUp { s with writeBack := s.writeBack.erase (c, a) } (mcReg c 0x14) 1).raise .mcCe
      (scopeOf (s.chanOwner c)) { unit := c, info0 := a % 2 ^ 32, info1 := a / 2 ^ 32 })) ∧
  (∀ (s : State) (c b : Nat), exec (.refresh c b) s = .next s) ∧
  (∀ (s : State) (c v : Nat),
    s.fld (mcReg c 0) 3 0 = 2 →
    exec (.temperatureReportRead c v) s = .next (if Config.dramHot v then
      (s.setFld (mcReg c 0) 4 4 1).raise .mcDramHot (scopeOf (s.chanOwner c)) { unit := c, info0 := v % 2 ^ 32 } else s)) ∧
  (∀ (s : State) (c k n : Nat) (d : Int) (u : State),
    s.fld (mcReg c 0) 3 0 = 2 → k < 2 → d = (n : Int) - ((assoc s.dqs (2 * c + k)).getD 0 : Int) →
    u = s.setFld (mcReg c 0x24) 15 0 (ofSigned 16 d) →
    exec (.dqsOscillatorRead c k n) s = .next (if (assoc s.dqs (2 * c + k)).getD 0 < d.natAbs * 64 then
      (u.setFld (mcReg c 0) 5 5 1).raise .mcDrift (scopeOf (u.chanOwner c)) { unit := c, info0 := ofSigned 32 d } else u)) ∧
  (∀ (s : State) (c : Nat), s.fld (mcReg c 0) 3 0 = 2 → exec (.patrol c 0) s = .next (s.countUp (mcReg c 0x20) 1)) ∧
  (∀ (s : State) (c b cha : Nat),
    s.fld (mcReg c 0) 3 0 = 2 → b ≠ 0 → cha = (Config.freeWord s.fresh).toNat * 32 % s.chanBytes →
    exec (.patrol c b) s =
      .next (((s.chanLocal c cha).elim s fun a => State.patrolBurst { s with fresh := s.fresh + 1 } c cha a b).countUp (mcReg c 0x20) 1)) ∧
  (∀ (s : State) (c : Nat) (u : State),
    s.fld (mcReg c 0) 3 0 = 1 → c < s.nChannels →
    u = { s with fresh := s.fresh + 2, dqs := s.dqs.filter (fun e => e.1 / 2 != c) ++ [(2 * c, (Config.freeWord s.fresh).toNat % 65536), (2 * c + 1, (Config.freeWord (s.fresh + 1)).toNat % 65536)] } →
    exec (.channelTrainingEnd c true true) s = .next ((u.mcCfg c).setFld (mcReg c 0) 3 0 2)) ∧
  (∀ (s : State) (c p : Nat) (ok agree : Bool) (u : State),
    s.fld (mcReg c 0) 3 0 = 1 → c < s.nChannels → ok = false ∨ agree = false → u = s.setFld (mcReg c 0) 3 0 5 →
    u.chanOwner c = some p → (u.resetRec p).isSome = true →
    exec (.channelTrainingEnd c ok agree) s = .next ((u.raise .mcTrainFail p { unit := c }).outOfService p)) ∧
  (∀ (s : State) (c : Nat) (ok agree : Bool) (u : State),
    s.fld (mcReg c 0) 3 0 = 1 → c < s.nChannels → ok = false ∨ agree = false → u = s.setFld (mcReg c 0) 3 0 5 →
    (∀ p, u.chanOwner c = some p → u.resetRec p = none) →
    exec (.channelTrainingEnd c ok agree) s = .next (State.raise { u with power := { u.power with released := false, shut := true } } .mcTrainFail 7 { unit := c })) ∧
  (∀ (s : State) (x : Access) (b : Nat),
    (∀ a, s.localOf x.addr = some a → lpddrTop ≤ a ∨ s.lpReady a (accSize x.kind) = false) →
    exec (.lpddr6Request x b) s = .next s) ∧
  (∀ (s : State) (c : Nat),
    s.writeBack.find? (fun e => e.1 == c) = none ∨ s.fld (mcReg c 0) 3 0 ≠ 2 → exec (.mcWriteBack c) s = .next s) ∧
  (∀ (s : State) (c v : Nat), s.fld (mcReg c 0) 3 0 ≠ 2 → exec (.temperatureReportRead c v) s = .next s) ∧
  (∀ (s : State) (c k n : Nat), s.fld (mcReg c 0) 3 0 ≠ 2 ∨ 2 ≤ k → exec (.dqsOscillatorRead c k n) s = .next s) ∧
  (∀ (s : State) (c b : Nat), s.fld (mcReg c 0) 3 0 ≠ 2 → exec (.patrol c b) s = .next s) ∧
  (∀ (s : State) (c : Nat) (ok agree : Bool),
    s.fld (mcReg c 0) 3 0 ≠ 1 ∨ s.nChannels ≤ c → exec (.channelTrainingEnd c ok agree) s = .next s)

/-- Raising, acknowledging and escalating faults; safe states. A comparator difference or a report-path fault of a
lockstep pair is a mismatch. A raised fault of a scope raises its source; a DPP's mismatch aborts its job too, an
uncorrectable AER error is counted, and a failed boot test takes its partition out of service. Software may raise
its own sources in a scope that it may name, and is denied otherwise. A record is acknowledged by the Steward or the
master, one of scope S by partition S, and any other acknowledgement is denied. A pending Urgent record whose window
ends becomes Critical with a new window, a Critical one takes its urgent action. Correctable counts start again
every second. Safe states are entered for the causes that the rules name, by the Steward, the master or the Urn;
ERR_OUT_N returns at a 500 microsecond boundary when no condition holds. A missed Taster test is raised while its
dispatcher runs. Outside those conditions nothing changes. The model's own choices it rests on: log entries 99, 127. -/
def Obligations.FaultReporting : Prop :=
  (∀ (s : State) (pair g : Nat),
    s.isLockstep pair = true → pair < 32 → g < 3 → exec (.lockstepMismatch pair g) s = .next (s.mismatch pair g)) ∧
  (∀ (s : State) (pair : Nat),
    s.isLockstep pair = true → pair < 32 → exec (.reportPathFault pair) s = .next (s.mismatch pair 3)) ∧
  (∀ (s : State) (p : Nat) (b : BrewTable),
    (s.dsp p).table = some b → p < 4 → s.fld (btReg p 0) 3 0 = 2 ∨ s.fld (btReg p 0) 3 0 = 3 →
    s.scopeStopped p = false →
    (2 * b.minorNs + 1000000 : Nat) < toSigned 64 (s.time + 2 ^ 64 - (s.dsp p).lastTaster % 2 ^ 64) →
    exec (.tasterMissed p) s =
      .next (((s.setDsp p { s.dsp p with lastTaster := s.time }).orReg (urnReg 0xC014) (2 ^ p)).raise .tasterMissed p { unit := p })) ∧
  (∀ (s : State) (p k : Nat),
    p < 4 → (s.prec p).active = true → 1 ≤ k → k ≤ 5 → exec (.safeState p k) s = .next (s.safeState p k).errUpdate) ∧
  (∀ (s : State) (k : Nat), 1 ≤ k → k ≤ 5 → exec (.deviceSafeState k) s = .next (s.deviceSafe k).errUpdate) ∧
  (∀ (s : State) (m : Nat), exec (.urnSafeCmdParts .steward m) s = .next (s.safeParts m 3).errUpdate) ∧
  (∀ (s : State), exec (.urnSafeCmdDevice .steward) s = .next (s.deviceSafe 3).errUpdate) ∧
  (∀ (s : State) (r : Requester) (m : Nat),
    r ≠ .steward → exec (.urnSafeCmdParts r m) s = .next s ∧ exec (.urnSafeCmdDevice r) s = .next s) ∧
  (∀ (s : State) (r : Requester) (v : Nat),
    s.isMaster r = true →
    exec (.stSafeCmd r v) s = .next (if bit v 31 then (s.safeParts (v % 16) 3).deviceSafe 3 else s.safeParts (v % 16) 3).errUpdate) ∧
  (∀ (s : State) (r : Requester) (v : Nat), s.isMaster r = false → exec (.stSafeCmd r v) s = .next (s.notMaster r)) ∧
  (∀ (s : State) (u : State),
    s.urn.errFault = true → s.errCondition = false → s.clock.urn % 500000 = 0 →
    u = { s with urn := { s.urn with errFault := false } } →
    exec .errOutReturn s = .next (u.setFld (urnReg 0xC00C) 1 1 0)) ∧
  (∀ (s : State) (src : Src) (scope : Nat) (i : FaultInfo),
    scope < 5 ∨ scope = 7 → src ≠ .lsInjectFail ∨ 4 ≤ scope ∨ s.resetRec scope = none →
    src ≠ .dppMismatch ∨ s.nDpps ≤ i.unit → src ≠ .peAerUncor →
    exec (.faultRaise src scope i) s = .next (s.raise src scope i)) ∧
  (∀ (s : State) (scope : Nat) (i : FaultInfo),
    scope < 5 ∨ scope = 7 → i.unit < s.nDpps →
    exec (.faultRaise .dppMismatch scope i) s = .next ((s.raise .dppMismatch scope i).dppMismatch i.unit)) ∧
  (∀ (s : State) (scope : Nat) (i : FaultInfo),
    scope < 5 ∨ scope = 7 →
    exec (.faultRaise .peAerUncor scope i) s = .next ((s.raise .peAerUncor scope i).countUp (peReg 0x1C) 1)) ∧
  (∀ (s : State) (src : Src) (scope : Nat) (i : FaultInfo),
    scope = 5 ∨ scope = 6 ∨ 7 < scope → exec (.faultRaise src scope i) s = .next s) ∧
  (∀ (s : State) (scope : Nat) (i : FaultInfo),
    scope < 4 → (s.resetRec scope).isSome = true →
    exec (.faultRaise .lsInjectFail scope i) s = .next (((s.raise .lsInjectFail scope i).setFld (clReg (2 * (i.unit % 32) + 1) 0xB00) 10 0 (i.info0 % 2048)).outOfService scope)) ∧
  (∀ (s : State) (n : Nat) (q : PendRec) (u : State),
    s.dueRecord n (s.clock.urn + 1) = some q → q.rcd.sev = 3 →
    u = s.modPending q.rcd.seq (fun r => { r with sev := 4 }) (some (s.clock.urn + s.windowNs q.rcd.scope 4)) →
    exec (.windowExpiry n) s = .next (if u.scopeStopped q.rcd.scope then u else u.notify q.rcd.scope q.rcd.seq).errUpdate) ∧
  (∀ (s : State) (n : Nat) (q : PendRec),
    s.dueRecord n (s.clock.urn + 1) = some q → q.rcd.sev ≠ 3 →
    exec (.windowExpiry n) s = .next (s.urgentAction q.rcd).errUpdate) ∧
  (∀ (s : State) (n : Nat), s.dueRecord n (s.clock.urn + 1) = none → exec (.windowExpiry n) s = .next s) ∧
  (∀ (s : State), s.clock.urn / 1000000000 ≤ s.urn.secondNo → exec .urnSecond s = .next s) ∧
  (∀ (s : State),
    s.urn.secondNo < s.clock.urn / 1000000000 →
    completes .urnSecond s fun t => t.urn.second = [] ∧ t.urn.secondNo = s.clock.urn / 1000000000 ∧ t.regs = s.regs ∧ t.mem = s.mem) ∧
  (∀ (s : State) (r : Requester) (n : Nat),
    r = .steward ∨ s.isMaster r = true → exec (.fcAck r n) s = .next (s.ackRecord n)) ∧
  (∀ (s : State) (h n : Nat) (q : PendRec),
    s.urn.pending.find? (fun q => q.rcd.seq == n) = some q →
    exec (.fcAck (.hart h) n) s = .next (if q.rcd.scope = 4 then s.ackRecord n else s.swDenied)) ∧
  (∀ (s : State) (h n : Nat),
    s.urn.pending.find? (fun q => q.rcd.seq == n) = none → exec (.fcAck (.hart h) n) s = .next s) ∧
  (∀ (s : State) (r : Requester) (n : Nat),
    r ≠ .steward → s.isMaster r = false → (∀ h, r ≠ .hart h) → exec (.fcAck r n) s = .next s.swDenied) ∧
  (∀ (s : State) (r : Requester) (v : Nat),
    bits v 26 24 ≠ 5 ∧ bits v 26 24 ≠ 6 ∧ (r = .steward ∨ s.isMaster r = true ∨ (bits v 26 24 < 5 ∧ s.partOf r = some (bits v 26 24))) →
    exec (.fcSwRaise r v) s =
      .next (s.raise (.software (v % 256)) (bits v 26 24) { req := r.index, ctx := r.ctx.getD 0xFF, info0 := bits v 23 8 })) ∧
  (∀ (s : State) (r : Requester) (v : Nat),
    ¬ (bits v 26 24 ≠ 5 ∧ bits v 26 24 ≠ 6 ∧ (r = .steward ∨ s.isMaster r = true ∨ (bits v 26 24 < 5 ∧ s.partOf r = some (bits v 26 24)))) →
    exec (.fcSwRaise r v) s = .next s.swDenied) ∧
  (∀ (s : State) (pair g : Nat),
    s.isLockstep pair = false ∨ 32 ≤ pair ∨ 3 ≤ g → exec (.lockstepMismatch pair g) s = .next s) ∧
  (∀ (s : State) (pair : Nat), s.isLockstep pair = false ∨ 32 ≤ pair → exec (.reportPathFault pair) s = .next s) ∧
  (∀ (s : State) (p : Nat), (s.dsp p).table = none → exec (.tasterMissed p) s = .next s) ∧
  (∀ (s : State) (p : Nat) (b : BrewTable),
    (s.dsp p).table = some b →
    4 ≤ p ∨ (s.fld (btReg p 0) 3 0 ≠ 2 ∧ s.fld (btReg p 0) 3 0 ≠ 3) ∨ s.scopeStopped p = true ∨ toSigned 64 (s.time + 2 ^ 64 - (s.dsp p).lastTaster % 2 ^ 64) ≤ (2 * b.minorNs + 1000000 : Nat) →
    exec (.tasterMissed p) s = .next s) ∧
  (∀ (s : State) (p k : Nat), 4 ≤ p ∨ (s.prec p).active = false ∨ k = 0 ∨ 5 < k → exec (.safeState p k) s = .next s) ∧
  (∀ (s : State) (k : Nat), k = 0 ∨ 5 < k → exec (.deviceSafeState k) s = .next s) ∧
  (∀ (s : State),
    s.urn.errFault = false ∨ s.errCondition = true ∨ s.clock.urn % 500000 ≠ 0 → exec .errOutReturn s = .next s)

/-- Hang detection, heartbeats, resets and crash capture. A ready context that has made no progress for its limit, a
sequencer that has not written its watchdog, and an elastic task blocked for too long are hangs; a watchdog write
restarts it. A Steward whose heartbeat has not changed for 500 microseconds, or whose comparator differs, is raised
and held, and starts again 10 microseconds later; the Steward that finds the Urn's heartbeat unchanged asks for a
takeover. A reset of a partition goes through its steps in order, and one that takes longer than 2.5 s is raised.
Crash captures run one at a time in scope order, and one that does not end in 5 ms is closed as partial. A cluster
that waits for it is reset; a device reset happens once its record is captured. The last-resort sequencer takes over
for its four causes and, where configured, resets the device 10 ms later. Before its time, or without its condition,
none of these changes anything. The model's own choices it rests on: log entries 100, 101, 102, 103, 129. -/
def Obligations.HangsAndHeartbeats : Prop :=
  (∀ (s : State) (c x : Nat),
    x < 4 → c < s.nClusters → s.ctxState c x = 1 → (s.ctx c x).progressAt + s.rd (clReg c 0xB20) ≤ s.ct →
    exec (.hangContext c x) s = .next ((s.setCtx c x { s.ctx c x with progressAt := s.ct }).raiseCl .hangContext c (some x) (8 * c) x 0 0)) ∧
  (∀ (s : State) (c p : Nat),
    s.ownerOf c = some p → s.recState p = 0 → c < s.nClusters → s.wdogAt c + 2 ^ 20 ≤ s.ct →
    exec (.hangSequencer c) s = .next ((s.wdogRestart c).raiseCl .hangSequencer c none (8 * c) 0 0 0)) ∧
  (∀ (s : State) (r : Requester) (c : Nat), c < s.nClusters → exec (.clSeqWdog r c) s = .next (s.wdogRestart c)) ∧
  (∀ (s : State) (c n t at_ : Nat) (k : Task),
    (s.slot c n).task = some t → s.task t = some k → s.blockedFrom c n = some at_ → s.fld (stReg 0x6008) 15 0 ≠ 0 →
    k.hangRaised = false → at_ + 750000 * s.fld (stReg 0x6008) 15 0 < s.ct →
    exec (.hangTask c n) s =
      .next ((s.modTask t fun k => { k with hangRaised := true }).raise .hangTask k.part { info0 := k.rcd.index, task := some t, cluster := some c })) ∧
  (∀ (s : State),
    s.stewardUp = true → s.rd (urnReg 0xA00C) = s.urn.hbStewardSeen → s.urn.hbStewardAt + 500000 ≤ s.clock.urn →
    exec (.stewardHb false) s = .next (s.raise .stewardHb 7 {}).holdSteward) ∧
  (∀ (s : State),
    s.stewardUp = true → exec (.stewardHb true) s = .next (s.raise .stewardHb 7 { info0 := 1 }).holdSteward) ∧
  (∀ (s : State),
    s.stewardUp = true → s.rd (urnReg 0xA00C) ≠ s.urn.hbStewardSeen →
    exec (.stewardHb false) s = .next { s with urn := { s.urn with hbStewardSeen := s.rd (urnReg 0xA00C), hbStewardAt := s.clock.urn } }) ∧
  (∀ (s : State),
    s.stewardUp = true → s.urn.hbUrnAt + 1000000 ≤ s.clock.urn →
    exec .urnHbCheck s = .next (if s.regValue (urnReg 0xA010) = s.urn.hbUrnSeen then s.takeover 3
      else { s with urn := { s.urn with hbUrnSeen := s.regValue (urnReg 0xA010), hbUrnAt := s.clock.urn } })) ∧
  (∀ (s : State) (t : Nat),
    s.urn.stewardUpAt = some t → t ≤ s.clock.urn → exec .stewardRestart s = .next s.restartSteward) ∧
  (∀ (s : State) (p : Nat) (r : ResetRec) (u v : State),
    s.resetRec p = some r → p ≤ 4 → s.stewardUp = true → r.step = 1 → s.fld (urnReg 0xA018) 31 28 ≠ 3 →
    (u = if s.recState p = 0 then s.safeState p 1 else s) →
    (v = (u.setRecState p 2).modReset p fun r => { r with step := 2 }) →
    exec (.partitionReset p) s = .next (State.errUpdate { v with urn := { v.urn with captureQueue := v.urn.captureQueue.filter (fun q => q != p) ++ [p] } })) ∧
  (∀ (s : State) (p : Nat) (r : ResetRec),
    s.resetRec p = some r → p ≤ 4 → s.stewardUp = true → r.step = 3 →
    exec (.partitionReset p) s = .next ((s.drainPart p).modReset p fun r => { r with step := 4 })) ∧
  (∀ (s : State) (p : Nat) (r : ResetRec),
    s.resetRec p = some r → p ≤ 4 → s.stewardUp = true → r.step = 4 → s.safeInHolds p = false →
    s.fld (pmReg 0x20) 30 28 ≠ 3 → exec (.partitionReset p) s = .next (s.resetUnits p true)) ∧
  (∀ (s : State) (p : Nat) (r : ResetRec),
    s.resetRec p = some r → p ≤ 4 → s.stewardUp = true → r.step = 5 → s.chansReady p = true →
    exec (.partitionReset p) s = .next (s.modReset p fun r => { r with step := 6 })) ∧
  (∀ (s : State) (p : Nat) (r : ResetRec),
    s.resetRec p = some r → p ≤ 4 → s.stewardUp = true → r.step = 6 →
    exec (.partitionReset p) s = .next (s.bootTests p)) ∧
  (∀ (s : State) (p : Nat) (r : ResetRec),
    s.resetRec p = some r → p ≤ 4 → s.stewardUp = true → r.step = 7 →
    exec (.partitionReset p) s = .next (s.reloadProgram p)) ∧
  (∀ (s : State) (p : Nat) (r : ResetRec),
    s.resetRec p = some r → p < 5 → r.overrun = false → r.since + 2500000000 < s.clock.urn →
    exec (.resetOverrun p) s = .next ((s.modReset p fun r => { r with overrun := true }).raise .resetOverrun 7 { unit := p })) ∧
  (∀ (s : State) (n : Nat),
    s.urn.capture = none → s.urn.captureQueue.contains n = true →
    s.urn.captureQueue.all (fun q => decide (n ≤ q)) = true → s.urn.urnHeld = false →
    exec (.crashCapture n) s = .next { s with urn := { s.urn with capture := some (n, s.clock.urn) } }) ∧
  (∀ (s : State) (n t : Nat),
    s.urn.capture = some (n, t) → exec (.crashCapture n) s = .next ((s.captureEnd n false).afterCapture n)) ∧
  (∀ (s : State) (n t : Nat),
    s.urn.capture = some (n, t) → t + 5000000 ≤ s.clock.urn →
    exec .crashPartial s = .next (((s.captureEnd n true).raise .crashPartial n {}).afterCapture n)) ∧
  (∀ (s : State) (c : Nat) (u : State),
    s.urn.clusterQ.contains c = true →
    (u = { s with urn := { s.urn with clusterQ := s.urn.clusterQ.filter fun q => q != c } }) →
    exec (.clusterReset c) s = .next (u.clusterReset c)) ∧
  (∀ (s : State) (r : ResetRec), s.resetRec 7 = some r → r.step = 3 → exec .deviceReset s = .next s.deviceReset) ∧
  (∀ (s : State) (k : Nat), 1 ≤ k → k ≤ 4 → s.pmState < 3 → exec (.lastResortTakeover k) s = .next (s.takeover k)) ∧
  (∀ (s : State), exec (.pmLrsReq .steward 0x5A5A) s = .next (s.takeover 3)) ∧
  (∀ (s : State) (t : Nat),
    s.urn.takeoverAt = some t → bit (s.rd (pmReg 0x90004)) 0 = true → t + 10000000 ≤ s.clock.aon →
    exec .autoReset s = .next s.deviceReset) ∧
  (∀ (s : State) (c x : Nat),
    4 ≤ x ∨ s.nClusters ≤ c ∨ s.ctxState c x ≠ 1 ∨ s.ct < (s.ctx c x).progressAt + s.rd (clReg c 0xB20) →
    exec (.hangContext c x) s = .next s) ∧
  (∀ (s : State) (c : Nat), s.ownerOf c = none → exec (.hangSequencer c) s = .next s) ∧
  (∀ (s : State) (c p : Nat),
    s.ownerOf c = some p → s.recState p ≠ 0 ∨ s.nClusters ≤ c ∨ s.ct < s.wdogAt c + 2 ^ 20 →
    exec (.hangSequencer c) s = .next s) ∧
  (∀ (s : State) (r : Requester) (c : Nat), s.nClusters ≤ c → exec (.clSeqWdog r c) s = .next s) ∧
  (∀ (s : State) (c n : Nat),
    s.fld (stReg 0x6008) 15 0 = 0 ∨ (s.slot c n).task = none ∨ s.blockedFrom c n = none →
    exec (.hangTask c n) s = .next s) ∧
  (∀ (s : State) (c n t at_ : Nat) (k : Task),
    (s.slot c n).task = some t → s.task t = some k → s.blockedFrom c n = some at_ →
    k.hangRaised = true ∨ s.ct ≤ at_ + 750000 * s.fld (stReg 0x6008) 15 0 → exec (.hangTask c n) s = .next s) ∧
  (∀ (s : State) (b : Bool), s.stewardUp = false → exec (.stewardHb b) s = .next s) ∧
  (∀ (s : State),
    s.rd (urnReg 0xA00C) = s.urn.hbStewardSeen → s.clock.urn < s.urn.hbStewardAt + 500000 →
    exec (.stewardHb false) s = .next s) ∧
  (∀ (s : State), s.stewardUp = false ∨ s.clock.urn < s.urn.hbUrnAt + 1000000 → exec .urnHbCheck s = .next s) ∧
  (∀ (s : State), (∀ t, s.urn.stewardUpAt = some t → s.clock.urn < t) → exec .stewardRestart s = .next s) ∧
  (∀ (s : State) (p : Nat), s.resetRec p = none → exec (.partitionReset p) s = .next s) ∧
  (∀ (s : State) (p : Nat) (r : ResetRec),
    s.resetRec p = some r →
    4 < p ∨ s.stewardUp = false ∨ (r.step = 1 ∧ s.fld (urnReg 0xA018) 31 28 = 3) ∨ r.step = 0 ∨ r.step = 2 ∨ 7 < r.step ∨ (r.step = 4 ∧ (s.safeInHolds p = true ∨ s.fld (pmReg 0x20) 30 28 = 3)) ∨ (r.step = 5 ∧ s.chansReady p = false) →
    exec (.partitionReset p) s = .next s) ∧
  (∀ (s : State) (p : Nat),
    (∀ r, s.resetRec p = some r → 5 ≤ p ∨ r.overrun = true ∨ s.clock.urn ≤ r.since + 2500000000) →
    exec (.resetOverrun p) s = .next s) ∧
  (∀ (s : State) (n : Nat),
    s.urn.capture = none → (n ∉ s.urn.captureQueue ∨ (∃ q ∈ s.urn.captureQueue, q < n) ∨ s.urn.urnHeld = true) →
    exec (.crashCapture n) s = .next s) ∧
  (∀ (s : State) (n m t : Nat), s.urn.capture = some (m, t) → m ≠ n → exec (.crashCapture n) s = .next s) ∧
  (∀ (s : State), (∀ n t, s.urn.capture = some (n, t) → s.clock.urn < t + 5000000) → exec .crashPartial s = .next s) ∧
  (∀ (s : State) (c : Nat), c ∉ s.urn.clusterQ → exec (.clusterReset c) s = .next s) ∧
  (∀ (s : State), (∀ r, s.resetRec 7 = some r → r.step ≠ 3) → exec .deviceReset s = .next s) ∧
  (∀ (s : State) (k : Nat), k = 0 ∨ 4 < k ∨ 3 ≤ s.pmState → exec (.lastResortTakeover k) s = .next s) ∧
  (∀ (s : State) (r : Requester) (v : Nat), r ≠ .steward ∨ v ≠ 0x5A5A → exec (.pmLrsReq r v) s = .next s) ∧
  (∀ (s : State),
    (∀ t, s.urn.takeoverAt = some t → bit (s.rd (pmReg 0x90004)) 0 = false ∨ s.clock.aon < t + 10000000) →
    exec .autoReset s = .next s)

/-- Firmware switchover, confirmation and flash rewrite; recovery boot. Staged firmware takes over at the fallback
partition's first boundary at least 2 ms after staging, with no hot switch and no reset under way. New firmware that
has written its heartbeat confirms its start within 10 ms: it is measured, its alias keys are new, and its version
is in effect. Without a confirmation the banks are swapped back, the staged image is gone and FW_SWITCH_FAIL is
raised. A flash rewrite that compares equal puts the image into the boot flash, raises the security floor of a
committing image, and is idle again; one that does not changes nothing. None of them acts without its state, its
condition or its time. Every millisecond the recovery ROM reads the recovery record, and acts on one whose header is
valid. The model's own choices it rests on: log entries 104, 106, 108. -/
def Obligations.FirmwareAndRecovery : Prop :=
  (∀ (s : State) (n : Nat) (img : List Byte) (u : State),
    s.urn.fwStaged = some (n, img) → s.fwState = 1 → s.si.current ≠ [] →
    s.atBoundary (imgFallback s.si.current) = true → s.urn.fwStagedAt + 2000000 ≤ s.clock.urn → s.si.hotDev = false →
    s.si.hotPend.contains (imgFallback s.si.current) = false → s.urn.active = [] →
    u = (s.swapBanks img).setFld (urnReg 0xA018) 31 28 2 →
    exec .fwSwitchover s = .next { u with urn := { u.urn with fwSwitchAt := u.clock.urn, fwHb := false } }) ∧
  (∀ (s : State),
    s.fwState = 3 → s.urn.fwHb = true → s.clock.urn < s.urn.fwSwitchAt + 10000000 →
    completes (.confirm .steward) s fun t => t.caddy = { s.caddy with keyGen := s.caddy.keyGen + 1 } ∧ t.mem = s.mem ∧
      t.urn = { s.urn with fwStaged := none, fwVersion := Config.fwField s.caddy.image 1, fwSvn := Config.fwField s.caddy.image 2, fwCommit := Config.fwField s.caddy.image 3 != 0 }) ∧
  (∀ (s : State) (u : State),
    s.fwState = 2 ∨ s.fwState = 3 → s.urn.fwSwitchAt + 10000000 ≤ s.clock.urn →
    u = (s.swapBanks s.caddy.oldImage).setFld (urnReg 0xA018) 31 28 5 →
    exec .fwSwitchFail s = .next (State.raise { u with urn := { u.urn with fwStaged := none } } .fwSwitchFail 7 {})) ∧
  (∀ (s : State) (u v : State),
    s.fwState = 4 → u = { s with caddy := { s.caddy with flash := s.caddy.image, flashSig := ⟨true, true⟩ } } →
    (v = if s.urn.fwCommit then u.setFld (cadReg 0xC) 7 0 (max (s.fld (cadReg 0xC) 7 0) (min 128 s.urn.fwSvn)) else u) →
    exec (.flashRewriteEnd true) s = .next (v.setFld (urnReg 0xA018) 31 28 0)) ∧
  (∀ (s : State), exec (.flashRewriteEnd false) s = .next s) ∧
  (∀ (s : State) (v : SigVerdict) (u : State),
    s.power.recovery = true → s.power.pollAt + 1000000 ≤ s.clock.aon → s.lpReady 0 64 = true →
    u = { s with power := { s.power with pollAt := s.clock.aon } } →
    u.ldn 0 4 = 0x56524B48 ∧ u.ldn 8 1 ≤ 1 ∧ u.ldn 4 4 + 0x1000 ≤ 0x4000000 ∧ (u.mem.read 9 3 ++ u.mem.read 0x10 48).all (· == 0) = true →
    exec (.recoveryPoll v) s = .next (u.recoveryRecord v)) ∧
  (∀ (s : State) (v : SigVerdict) (u : State),
    s.power.recovery = true → s.power.pollAt + 1000000 ≤ s.clock.aon → s.lpReady 0 64 = true →
    u = { s with power := { s.power with pollAt := s.clock.aon } } →
    ¬ (u.ldn 0 4 = 0x56524B48 ∧ u.ldn 8 1 ≤ 1 ∧ u.ldn 4 4 + 0x1000 ≤ 0x4000000 ∧ (u.mem.read 9 3 ++ u.mem.read 0x10 48).all (· == 0) = true) →
    exec (.recoveryPoll v) s = .next u)

/-- Attestation, certificates, owners, floors and measurements. A mailbox command that is not there, or whose memory
is not in service, changes nothing. ATTEST needs an aligned report address and a healthy random number generator; it
reads the nonce, is refused where that cannot be read, writes the signed report and answers its length, 4141.
CERT_READ of a certificate that does not exist is INVALID; it writes at most the limit and answers the full length.
Owner records are enrolled and revoked once they can be read. SI_MIN_RAISE takes the next unused slot, refuses with
code 8 when none is left and with 7 a value that does not rise, and raises the two version registers that follow. An
extension waits with the digest in CAD_EXT_DATA, and one too many or of a register that its writer may not extend
only sets its bit. The failure of the generator clears TRNG_OK and is raised, its return sets TRNG_OK and changes
nothing else. The model's own choices it rests on: log entries 115, 116, 117, 118. -/
def Obligations.CaddyCommands : Prop :=
  (∀ (s : State) (ring idx : Nat) (k : Cmd),
    s.mbCmd ring idx 0x20 = some k → s.lpReady (k.arg 8 6) 64 = true → s.lpReady (k.arg 0x10 6) 4141 = true →
    k.arg 0x10 6 % 64 ≠ 0 → exec (.attest ring idx) s = .next ((s.begin_ ring idx).complete ring idx stInvalid 0 0)) ∧
  (∀ (s : State) (ring idx : Nat) (k : Cmd),
    s.mbCmd ring idx 0x20 = some k → s.lpReady (k.arg 8 6) 64 = true → s.lpReady (k.arg 0x10 6) 4141 = true →
    k.arg 0x10 6 % 64 = 0 → bit ((s.begin_ ring idx).rd (cadReg 4)) 0 = false →
    exec (.attest ring idx) s = .next ((s.begin_ ring idx).complete ring idx stRefused 9 0)) ∧
  (∀ (s : State) (ring idx : Nat) (k : Cmd) (n : RdRes) (u : State) (w : Option AccErr × State),
    s.mbCmd ring idx 0x20 = some k → s.lpReady (k.arg 8 6) 64 = true → s.lpReady (k.arg 0x10 6) 4141 = true →
    k.arg 0x10 6 % 64 = 0 → bit ((s.begin_ ring idx).rd (cadReg 4)) 0 = true →
    (s.begin_ ring idx).memRead .caddy (k.arg 8 6) 64 = (n, u) → n.err = none →
    w = (u.signedReport n.bytes).2.memWrite .caddy (k.arg 0x10 6) (u.signedReport n.bytes).1 →
    exec (.attest ring idx) s = .next (if w.1.isSome then w.2.refuseAny ring idx else w.2.complete ring idx stOk 0 4141)) ∧
  (∀ (s : State) (ring idx : Nat) (k : Cmd) (len put : Nat),
    s.mbCmd ring idx 0x21 = some k →
    (len = Config.certLength (k.arg 8 8) (if k.arg 8 8 < 2 then 0 else s.caddy.keyGen)) →
    put = min len (k.arg 0x18 4) → s.lpReady (k.arg 0x10 6) (max 1 put) = true → 4 ≤ k.arg 8 8 →
    exec (.certRead ring idx) s = .next ((s.begin_ ring idx).complete ring idx stInvalid 0 0)) ∧
  (∀ (s : State) (ring idx : Nat) (k : Cmd) (len put : Nat) (w : Option AccErr × State),
    s.mbCmd ring idx 0x21 = some k →
    (len = Config.certLength (k.arg 8 8) (if k.arg 8 8 < 2 then 0 else s.caddy.keyGen)) →
    put = min len (k.arg 0x18 4) → s.lpReady (k.arg 0x10 6) (max 1 put) = true → k.arg 8 8 < 4 →
    (w = (s.begin_ ring idx).memWrite .caddy (k.arg 0x10 6) ((List.range put).map fun i => Config.certByte (k.arg 8 8) (if k.arg 8 8 < 2 then 0 else s.caddy.keyGen) i)) →
    exec (.certRead ring idx) s = .next (if put = 0 then (s.begin_ ring idx).complete ring idx stOk 0 len else if w.1.isSome then w.2.refuseAny ring idx else w.2.complete ring idx stOk 0 len)) ∧
  (∀ (s : State) (ring idx : Nat) (k : Cmd) (v : SigVerdict),
    s.mbCmd ring idx 0x22 = some k → s.lpReady (k.arg 8 6) (0x840 + sigLen) = true →
    exec (.ownerEnrol ring idx v) s = .next ((s.begin_ ring idx).ownerCmd ring idx 1 k v)) ∧
  (∀ (s : State) (ring idx : Nat) (k : Cmd) (v : SigVerdict),
    s.mbCmd ring idx 0x23 = some k → s.lpReady (k.arg 8 6) (0x840 + sigLen) = true →
    exec (.ownerRevoke ring idx v) s = .next ((s.begin_ ring idx).ownerCmd ring idx 2 k v)) ∧
  (∀ (s : State) (ring idx : Nat) (k : Cmd) (n v : Nat),
    s.mbCmd ring idx 0x24 = some k → v = k.arg 8 4 →
    (List.range 8).find? (fun m => (s.begin_ ring idx).siMin m == 0) = some n → (s.begin_ ring idx).si.current ≠ [] →
    v ≠ 0 → v ≤ imgVersion (s.begin_ ring idx).si.current → (∀ m < 8, (s.begin_ ring idx).siMin m < v) →
    exec (.siMinRaise ring idx) s = .next (((((s.begin_ ring idx).wr (cadReg (0x10 + 4 * n)) v).wr (stReg 0x1010) (max ((s.begin_ ring idx).rd (stReg 0x1010)) v)).wr (stReg 0x100C) (max ((s.begin_ ring idx).rd (stReg 0x100C)) v)).complete ring idx stOk 0 0)) ∧
  (∀ (s : State) (ring idx : Nat) (k : Cmd),
    s.mbCmd ring idx 0x24 = some k → (∀ m < 8, (s.begin_ ring idx).siMin m ≠ 0) →
    exec (.siMinRaise ring idx) s = .next ((s.begin_ ring idx).complete ring idx stRefused 8 0)) ∧
  (∀ (s : State) (ring idx : Nat) (k : Cmd),
    s.mbCmd ring idx 0x24 = some k → (∃ m < 8, (s.begin_ ring idx).siMin m = 0) →
    ((s.begin_ ring idx).si.current = [] ∨ k.arg 8 4 = 0 ∨ imgVersion (s.begin_ ring idx).si.current < k.arg 8 4 ∨ ∃ m < 8, k.arg 8 4 ≤ (s.begin_ ring idx).siMin m) →
    exec (.siMinRaise ring idx) s = .next ((s.begin_ ring idx).complete ring idx stRefused 7 0)) ∧
  (∀ (s : State) (r : Requester) (v : Nat),
    mayExtend r (v % 8) = true → s.caddy.ext.length < 4 →
    exec (.cadExtCmd r v) s = .next (State.showExt { s with caddy := { s.caddy with ext := s.caddy.ext ++ [(v % 8, s.rdDigest (cadReg 0x340))] } })) ∧
  (∀ (s : State) (r : Requester) (v : Nat),
    mayExtend r (v % 8) = true → 4 ≤ s.caddy.ext.length →
    exec (.cadExtCmd r v) s = .next (s.orReg (cadReg 4) (2 ^ 30))) ∧
  (∀ (s : State) (r : Requester) (v : Nat),
    mayExtend r (v % 8) = false → exec (.cadExtCmd r v) s = .next (s.orReg (cadReg 4) (2 ^ 31))) ∧
  (∀ (s : State), exec .cadTrngFail s = .next (State.raise (s.setFld (cadReg 4) 0 0 0) .cadTrngFail 7 {})) ∧
  (∀ (s : State) (a : Nat),
    a ≠ cadReg 4 → s.regsWf = true →
    completes .trngOkReturn s fun t => bit (t.rd (cadReg 4)) 0 = true ∧ t.rd a = s.rd a ∧ t.mem = s.mem ∧ t.caddy = s.caddy) ∧
  (∀ (s : State) (ring idx : Nat), s.mbCmd ring idx 0x20 = none → exec (.attest ring idx) s = .next s) ∧
  (∀ (s : State) (ring idx : Nat), s.mbCmd ring idx 0x21 = none → exec (.certRead ring idx) s = .next s) ∧
  (∀ (s : State) (ring idx : Nat) (v : SigVerdict),
    s.mbCmd ring idx 0x22 = none → exec (.ownerEnrol ring idx v) s = .next s) ∧
  (∀ (s : State) (ring idx : Nat) (k : Cmd) (v : SigVerdict),
    s.mbCmd ring idx 0x22 = some k → s.lpReady (k.arg 8 6) (0x840 + sigLen) = false →
    exec (.ownerEnrol ring idx v) s = .next s) ∧
  (∀ (s : State) (ring idx : Nat) (v : SigVerdict),
    s.mbCmd ring idx 0x23 = none → exec (.ownerRevoke ring idx v) s = .next s) ∧
  (∀ (s : State) (ring idx : Nat) (k : Cmd) (v : SigVerdict),
    s.mbCmd ring idx 0x23 = some k → s.lpReady (k.arg 8 6) (0x840 + sigLen) = false →
    exec (.ownerRevoke ring idx v) s = .next s) ∧
  (∀ (s : State) (ring idx : Nat), s.mbCmd ring idx 0x24 = none → exec (.siMinRaise ring idx) s = .next s) ∧
  (∀ (s : State) (ring idx : Nat) (k : Cmd),
    s.mbCmd ring idx 0x20 = some k → s.lpReady (k.arg 8 6) 64 = false ∨ s.lpReady (k.arg 0x10 6) 4141 = false →
    exec (.attest ring idx) s = .next s) ∧
  (∀ (s : State) (ring idx : Nat) (k : Cmd) (n : RdRes) (u : State),
    s.mbCmd ring idx 0x20 = some k → s.lpReady (k.arg 8 6) 64 = true → s.lpReady (k.arg 0x10 6) 4141 = true →
    k.arg 0x10 6 % 64 = 0 → bit ((s.begin_ ring idx).rd (cadReg 4)) 0 = true →
    (s.begin_ ring idx).memRead .caddy (k.arg 8 6) 64 = (n, u) → n.err ≠ none →
    exec (.attest ring idx) s = .next (u.refuseAny ring idx)) ∧
  (∀ (s : State) (ring idx : Nat) (k : Cmd) (len put : Nat),
    s.mbCmd ring idx 0x21 = some k →
    (len = Config.certLength (k.arg 8 8) (if k.arg 8 8 < 2 then 0 else s.caddy.keyGen)) →
    put = min len (k.arg 0x18 4) → s.lpReady (k.arg 0x10 6) (max 1 put) = false →
    exec (.certRead ring idx) s = .next s) ∧
  (∀ (s : State),
    s.urn.fwStaged = none ∨ s.fwState ≠ 1 ∨ s.si.current = [] ∨ s.atBoundary (imgFallback s.si.current) = false ∨ s.clock.urn < s.urn.fwStagedAt + 2000000 ∨ s.si.hotDev = true ∨ s.si.hotPend.contains (imgFallback s.si.current) = true ∨ s.urn.active ≠ [] →
    exec .fwSwitchover s = .next s) ∧
  (∀ (s : State) (r : Requester),
    r ≠ .steward ∨ s.fwState ≠ 3 ∨ s.urn.fwHb = false ∨ s.urn.fwSwitchAt + 10000000 ≤ s.clock.urn →
    exec (.confirm r) s = .next s) ∧
  (∀ (s : State),
    (s.fwState ≠ 2 ∧ s.fwState ≠ 3) ∨ s.clock.urn < s.urn.fwSwitchAt + 10000000 → exec .fwSwitchFail s = .next s) ∧
  (∀ (s : State) (b : Bool), s.fwState ≠ 4 → exec (.flashRewriteEnd b) s = .next s) ∧
  (∀ (s : State) (v : SigVerdict),
    s.power.recovery = false ∨ s.clock.aon < s.power.pollAt + 1000000 ∨ s.lpReady 0 64 = false →
    exec (.recoveryPoll v) s = .next s)

/-- Power states: entry, exit, wake sources, alarm. STATE_ENTRY_COMPLETE ends a transition: an exit to Run returns
LPDDR6 and the Spout ports and boots the parked partitions; an entry completes once all its partitions are parked,
and a wake that came meanwhile starts the exit at once. A wake source that is enabled is noted with the first one
marked and starts the exit from a lower state, unless one is under way. PM_WAKE_REQ of the Watch partition is source
2 and the alarm, at equality of PM_RTC and PM_ALARM, is source 1. From Retain the exit continues when the switched
rails are in range; after 50 ms without them TIMEOUT is set and the device stays. After power-up everything starts
from its reset. The model's own choices it rests on: log entries 119, 120, 121. -/
def Obligations.PowerStates : Prop :=
  (∀ (s : State) (u : State),
    s.pmBusy = true → s.power.exiting = true → s.pmState ≠ 3 →
    u = ((s.setFld (pmReg 0) 3 0 0).setFld (pmReg 0) 7 4 0).leaveRefresh →
    exec .stateEntryComplete s = .next ((State.spoutsOn { u with power := { u.power with exiting := false } }).unpark u.power.parked)) ∧
  (∀ (s : State),
    s.pmBusy = true → s.power.exiting = false → s.pmTarget = 4 → exec .stateEntryComplete s = .next s.enterOff) ∧
  (∀ (s : State) (u : State),
    s.pmBusy = true → s.power.exiting = false → s.pmTarget ≠ 4 →
    (s.parkSet s.pmTarget).all (fun p => s.power.parked.contains p) = true → u = s.enterState s.pmTarget →
    exec .stateEntryComplete s = .next (if s.power.wake then State.startExit { u with power := { u.power with wake := false } } else u)) ∧
  (∀ (s : State),
    s.pmBusy = false ∨ (s.power.exiting = true ∧ s.pmState = 3) ∨ (s.power.exiting = false ∧ s.pmTarget ≠ 4 ∧ (s.parkSet s.pmTarget).all (fun p => s.power.parked.contains p) = false) →
    exec .stateEntryComplete s = .next s) ∧
  (∀ (s : State) (w : Nat),
    w < 4 → s.wakeEn w = true → s.power.resetN = true → s.power.shut = false → 1 ≤ s.pmState ∧ s.pmState ≤ 3 →
    s.pmBusy = false → exec (.wakeSource w) s = .next (s.wakeNote w).startExit) ∧
  (∀ (s : State) (w : Nat),
    w < 4 → s.wakeEn w = true → s.power.resetN = true → s.power.shut = false → s.pmBusy = true →
    s.power.exiting = false → 1 ≤ s.pmTarget ∧ s.pmTarget ≤ 3 →
    exec (.wakeSource w) s = .next (State.orReg { s.wakeNote w with power := { (s.wakeNote w).power with wake := true } } (pmReg 0) (2 ^ 30))) ∧
  (∀ (s : State) (w : Nat),
    4 ≤ w ∨ s.wakeEn w = false ∨ s.power.resetN = false ∨ s.power.shut = true ∨ (s.pmState = 0 ∧ s.pmBusy = false) ∨ (s.pmState = 0 ∧ s.power.exiting = true) →
    exec (.wakeSource w) s = .next s) ∧
  (∀ (s : State) (w : Nat),
    w < 4 → s.wakeEn w = true → s.power.resetN = true → s.power.shut = false → 1 ≤ s.pmState ∧ s.pmState ≤ 3 →
    s.pmBusy = true → s.power.exiting = true → exec (.wakeSource w) s = .next (s.wakeNote w)) ∧
  (∀ (s : State) (r : Requester), s.partOf r = some s.watchPart → exec (.pmWakeReq r) s = .next (s.wake 2)) ∧
  (∀ (s : State) (r : Requester), s.partOf r ≠ some s.watchPart → exec (.pmWakeReq r) s = .next s) ∧
  (∀ (s : State), s.clock.aon * 32768 / 1000000000 % 2 ^ 64 = s.rd64 (pmReg 0x18) → exec .alarm s = .next (s.wake 1)) ∧
  (∀ (s : State), s.clock.aon * 32768 / 1000000000 % 2 ^ 64 ≠ s.rd64 (pmReg 0x18) → exec .alarm s = .next s) ∧
  (∀ (s : State),
    s.pmState = 3 → s.power.exiting = true → s.power.railEn = true → bit (s.rd (pmReg 0xC0)) 31 = false →
    exec .switchedRailsInRange s = .next (s.setFld (pmReg 0xC0) 8 0 0x1FF).exitRetain) ∧
  (∀ (s : State),
    s.pmState ≠ 3 ∨ s.power.exiting = false ∨ s.power.railEn = false ∨ bit (s.rd (pmReg 0xC0)) 31 = true →
    exec .switchedRailsInRange s = .next s) ∧
  (∀ (s : State),
    s.pmState = 3 → s.power.exiting = true → s.power.railEn = true → s.power.railAt + 50000000 ≤ s.clock.aon →
    exec .railTimeout s = .next (State.orReg { s with power := { s.power with errLow := true } } (pmReg 0xC0) (2 ^ 31))) ∧
  (∀ (s : State),
    s.pmState ≠ 3 ∨ s.power.exiting = false ∨ s.power.railEn = false ∨ s.clock.aon < s.power.railAt + 50000000 →
    exec .railTimeout s = .next s) ∧
  (∀ (s : State) (n : Nat) (u : State),
    (u = if s.fld (urnReg 0xA018) 31 28 = 4 then { s with caddy := { s.caddy with flash := [] } } else s) →
    exec (.powerUp n) s = .next ((u.rebirth otpReg).wr (ckReg 0) (if 1000 ≤ n then 2 ^ 30 else 0)))

/-- Voltage scaling, temperatures, clocks, rails and general outputs. Voltage scaling runs where the Steward is up
and the device is in Run, Trim or Watch: the target is clamped to 650–850 mV and approached by at most 5 mV; a
readback more than 20 mV away or a PMBus error commands 850 mV and is raised. Otherwise it does nothing. A thermal
sample, of sixteen sensors, does nothing in Off and only level 4 in Retain; else it writes each sensor with its
validity, reports an invalid one, puts the highest valid temperature (at least 130 °C under an alert) into PM_TJ,
shuts the device down at 135 °C, and else applies the level, at least 1 with fewer than twelve valid sensors. A rail
that leaves its range clears its bit of PM_RAIL_STATUS and unlocks a PLL (which one is open). Of PM_GPIO_OUT a
requester changes exactly the outputs it owns. The model's own choices it rests on: log entries 122, 123, 124. -/
def Obligations.PowerMonitors : Prop :=
  (∀ (s : State) (rb : Option Nat) (target cmd : Nat),
    s.stewardUp = true → s.pmState ≤ 2 →
    target = (max 650 (min 850 ((Config.avsTarget [s.fresh] : Int) + s.avsMargin))).toNat →
    (cmd = if s.fld (pmReg 0x80) 15 0 = 0 then target else if s.fld (pmReg 0x80) 15 0 < target then min target (s.fld (pmReg 0x80) 15 0 + 5) else max target (s.fld (pmReg 0x80) 15 0 - 5)) →
    completes (.avs rb) s fun t => ((∃ v, rb = some v ∧ v ≤ cmd + 20 ∧ cmd ≤ v + 20) → t = State.setFld { s with fresh := s.fresh + 1 } (pmReg 0x80) 15 0 cmd) ∧
      ((∀ v, rb = some v → ¬ (v ≤ cmd + 20 ∧ cmd ≤ v + 20)) → t = State.raise (State.orReg (State.setFld { s with fresh := s.fresh + 1 } (pmReg 0x80) 15 0 850) (pmReg 0x80) (2 ^ 31)) .pmAvsFail 7 { info0 := cmd, info1 := rb.getD 0 })) ∧
  (∀ (s : State) (l : List Nat), s.pmState = 4 → exec (.thermalSample l) s = .next s) ∧
  (∀ (s : State) (l : List Nat) (t : Int),
    s.pmState = 3 → t = ((l.take 16).map tempOf).headD 0 →
    exec (.thermalSample l) s = .next (if 2160 ≤ t then s.thermalShutdown t else s)) ∧
  (∀ (s : State) (l : List Nat), s.pmState ≤ 2 → l.length < 16 → exec (.thermalSample l) s = .next s) ∧
  (∀ (s : State) (rb : Option Nat), s.stewardUp = false ∨ 2 < s.pmState → exec (.avs rb) s = .next s) ∧
  (∀ (s : State) (temps : List Nat) (l good : List Int) (tj : Int) (u : State),
    s.pmState ≤ 2 → l = (temps.take 16).map tempOf → l.length = 16 → good = l.filter (tempValid l) →
    (tj = (if bit (s.rd (pmReg 0x20)) 31 then max (if good.isEmpty then toSigned 16 (s.fld (pmReg 0x20) 15 0) else good.foldl max (good.headD 0)) 2080 else if good.isEmpty then toSigned 16 (s.fld (pmReg 0x20) 15 0) else good.foldl max (good.headD 0))) →
    (u = ((List.range 16).foldl (fun (u : State) (k : Nat) => if (l.map (tempValid l)).getD k false then u.wr (pmReg (0x40 + 4 * k)) (2 ^ 31 + ofSigned 16 (l.getD k 0)) else State.raise (u.wr (pmReg (0x40 + 4 * k)) (ofSigned 16 (l.getD k 0))) .pmSensorFail 7 { unit := k, info0 := ofSigned 16 (l.getD k 0) }) s).setFld (pmReg 0x20) 15 0 (ofSigned 16 tj)) →
    exec (.thermalSample temps) s = .next (if 2160 ≤ tj then u.thermalShutdown tj else u.thermalLevel (if good.length < 12 then max 1 (min 3 (levelOf (s.fld (pmReg 0x20) 30 28) tj)) else min 3 (levelOf (s.fld (pmReg 0x20) 30 28) tj)))) ∧
  (∀ (s : State) (n : Nat),
    s.pmState ≤ 2 → s.power.pwrGood = true → n < 9 →
    exec (.railOutOfRange n) s = .next ((State.setFld { s with fresh := s.fresh + 1 } (pmReg 0xC0) n n 0).pllUnlock ((Config.freeWord s.fresh).toNat % 16))) ∧
  (∀ (s : State) (n : Nat), 2 < s.pmState ∨ s.power.pwrGood = false ∨ 9 ≤ n → exec (.railOutOfRange n) s = .next s) ∧
  (∀ (s : State) (r : Requester) (v a : Nat),
    a ≠ pmReg 0xC4 → s.regsWf = true →
    completes (.pmGpioOut r v) s fun t => (∀ n < 24, bit (t.rd (pmReg 0xC4)) n = if s.gpioOut n && s.mayGpio r n then bit v n else bit (s.rd (pmReg 0xC4)) n) ∧ (∀ n < 32, 24 ≤ n → bit (t.rd (pmReg 0xC4)) n = bit (s.rd (pmReg 0xC4)) n) ∧ t.rd a = s.rd a ∧ { t with regs := s.regs } = s)

/-- A step runs the command at the front of the queue. A step of a state whose queue starts with a command is exec
of that command on the state whose queue is the rest, whatever that answers. The queue is the model's (log entry 1).
The model's own choices it rests on: log entry 1. -/
def Obligations.StepRunsFrontCommand : Prop :=
  ∀ (c : Instr) (s : State), step { s with pending := c :: s.pending } = exec c s

/-- With no command waiting one nanosecond passes. With an empty queue a step answers a next state with an empty
queue, whose always-on clock has advanced by 1 ns. Where no cluster share of a task ends by then, the Urn and
compute clocks and raw time have advanced by 1 too unless the device is in Retain or Off; memory is unchanged, and
so are the registers where no measurement extension waits. That an empty queue stands for one raw nanosecond is the
model's choice (log entry 1). The model's own choices it rests on: log entries 1, 3, 117, 167. -/
def Obligations.EmptyQueueIdles : Prop :=
  ∀ s : State, s.pending = [] → ∃ t, step s = .next t ∧ t.pending = [] ∧ t.clock.aon = s.clock.aon + 1 ∧
    ((∀ e ∈ s.ending, s.tick.ct < e.2.2.2) → t.mem = s.mem ∧
    t.clock = (if 3 ≤ s.pmState then { s.clock with aon := s.clock.aon + 1 } else ⟨s.clock.ns + 1, s.clock.urn + 1, s.clock.aon + 1⟩) ∧
    t.tb.raw = (if 3 ≤ s.pmState then s.tb.raw else s.tb.raw + 1) ∧ (s.caddy.ext = [] → t.regs = s.regs ∧ t.caddy = s.caddy))

/-- The recurrence of synthesised time, and that it never runs back. In one nanosecond of a powered timebase with no
command (and no cluster share of a task that ends in it), the accumulator takes RATE plus the slew share clamped to
500 ppm, the slew accumulator takes the share and carries one nanosecond into the remaining slew, and the offset
takes a jump that waits, modulo 2^64. So where no jump waits synthesised time, before it wraps, does not decrease
and advances by at most 2 ns. A power-up clears offset, accumulators and remaining slew. The model's own choices it
rests on: log entries 1, 75. -/
def Obligations.SynthesisedTimeAdvances : Prop :=
  ∀ (s t : State) (e q : Int), s.pending = [] → s.pmState < 3 → step s = .next t → (∀ e ∈ s.ending, s.tick.ct < e.2.2.2) →
    e = max (-549755813) (min 549755813 (toSigned 32 (s.rd (tbReg 0x28)) + s.tb.rem.sign * (s.fld (tbReg 0x3C) 29 0 : Nat))) →
    q = s.tb.sacc + (e - toSigned 32 (s.rd (tbReg 0x28))) →
    t.tb.raw = s.tb.raw + 1 ∧ t.tb.acc = s.tb.acc + e ∧ t.tb.offset = toSigned 64 (ofSigned 64 (s.tb.offset + s.tb.jump)) ∧ t.tb.jump = 0 ∧
    (2 ^ 40 ≤ q → t.tb.rem = s.tb.rem - 1 ∧ t.tb.sacc = if s.tb.rem - 1 = 0 then 0 else q - 2 ^ 40) ∧
    (q ≤ -(2 ^ 40) → t.tb.rem = s.tb.rem + 1 ∧ t.tb.sacc = if s.tb.rem + 1 = 0 then 0 else q + 2 ^ 40) ∧
    (-(2 ^ 40) < q ∧ q < 2 ^ 40 → t.tb.rem = s.tb.rem ∧ t.tb.sacc = if s.tb.rem = 0 then 0 else q) ∧
    (s.tb.jump = 0 → -(2 ^ 63) ≤ s.tb.offset ∧ s.tb.offset < 2 ^ 63 →
      s.tb.offset + s.tb.raw + s.tb.acc / 2 ^ 40 ≤ t.tb.offset + t.tb.raw + t.tb.acc / 2 ^ 40 ∧
      t.tb.offset + t.tb.raw + t.tb.acc / 2 ^ 40 ≤ s.tb.offset + s.tb.raw + s.tb.acc / 2 ^ 40 + 2) ∧
    ∀ n, completes (.powerUp n) s fun u => u.tb.raw = 0 ∧ u.tb.offset = 0 ∧ u.tb.acc = 0 ∧ u.tb.sacc = 0 ∧ u.tb.rem = 0

/-- Every command answers a next state and leaves the queue alone. For every command and every state exec answers a
next state, whose queue is the one it had: no command faults, is refused, or takes or adds a waiting command. The
model's own choices it rests on: log entry 2. -/
def Obligations.EveryCommandAnswersNextState : Prop :=
  ∀ (c : Instr) (s : State), completes c s fun t => t.pending = s.pending

/-- A queue of n commands is empty after n steps. From every state, as many steps as commands wait all answer next
states and leave the queue empty. The model's own choices it rests on: log entry 2. -/
def Obligations.QueueRunsEmpty : Prop :=
  ∀ s : State, ∃ t, core.run s.pending.length s = .next t ∧ State.pending t = []

/-- Every step keeps memory and the register store in canonical form. If the memory of a state lists addresses
strictly rising with no entry equal to what an unlisted address reads as, and its register store likewise lists no
register at its reset value, then so do the memory and the registers of the state after a step. The model's own
choices it rests on: log entries 4, 6. -/
def Obligations.StepKeepsCanonicalForms : Prop :=
  ∀ s t : State, s.mem.wf = true → s.regsWf = true → step s = .next t → t.mem.wf = true ∧ t.regsWf = true

/-- The state after reset is in canonical form. After reset memory and the register store are in canonical form and
list nothing, and no command waits. The model's own choices it rests on: log entries 5, 7. -/
def Obligations.ResetIsCanonical : Prop :=
  State.reset.mem.wf = true ∧ State.reset.regsWf = true ∧ State.reset.mem.cells = [] ∧ State.reset.regs = [] ∧ State.reset.pending = []

/-- Only passing time moves the always-on clock. A step moves the always-on clock by exactly 1 ns where no command
waits, back to 0 where the command at the front is a power-up, and not at all where it is any other command. The
model's own choices it rests on: log entries 1, 109. -/
def Obligations.AlwaysOnClock : Prop :=
  ∀ s t : State, step s = .next t →
    (s.pending = [] → t.clock.aon = s.clock.aon + 1) ∧ (∀ n rest, s.pending = .powerUp n :: rest → t.clock.aon = 0) ∧
    (∀ c rest, s.pending = c :: rest → (∀ n, c ≠ .powerUp n) → t.clock.aon = s.clock.aon)

/-- No command moves raw time. A command leaves the raw counter and the rate accumulator as they were, or both at 0
(the timebase domain was powered up or reset): nothing can set raw time to another value. The model's own choices it
rests on: log entries 1, 109. -/
def Obligations.RawTimeOnlyPasses : Prop :=
  ∀ (c : Instr) (s t : State), exec c s = .next t → (t.tb.raw = s.tb.raw ∧ t.tb.acc = s.tb.acc) ∨ (t.tb.raw = 0 ∧ t.tb.acc = 0)

/-- Registers after reset read as the spec states. After reset these registers read their stated reset values:
CL_ARR_WIDTH 32, CL_RINSE_STATUS with no context, CL_TILER_PWIDTH 0x20, CL_HANG_LIMIT 0x01000000, ARR_TILE_OWNER all
ones (no owner), MOV_STATUS with 32 entries free, ST_HS_PERIOD 100, TB_INCR 0x28000000, TB_JUMP_LIMIT 1,000,000, the
period and width of TB_GEN16, AUTO_DEV 1, URN_ERR_CFG and URN_SAFE_CFG; and every tag, TB_STATUS and FC_STATUS read
0. -/
def Obligations.ResetValues : Prop :=
  State.reset.rd (clReg 3 0x100) = 32 ∧
  State.reset.rd (clReg 3 0x318) = 7 * 2 ^ 24 ∧
  State.reset.rd (clReg 3 0x80C) = 0x20 ∧
  State.reset.rd (clReg 3 0xB20) = 0x01000000 ∧
  State.reset.rd (arrReg 3 2 8) = 0xFFFFFFFF ∧
  State.reset.rd (movReg 3 0) = 0x20 * 2 ^ 8 ∧
  State.reset.rd (stReg 0x5000) = 100 ∧
  State.reset.rd (tbReg 0x2C) = 0x28000000 ∧
  State.reset.rd (tbReg 0x48) = 1000000 ∧
  State.reset.rd (tbReg 0x308) = 1000000000 ∧
  State.reset.rd (tbReg 0x30C) = 100000000 ∧
  State.reset.rd (urnReg 0xA004) = 0x100 ∧
  State.reset.rd (urnReg 0xC008) = 0x600F ∧
  State.reset.rd (urnReg 0xC010) = 0xF ∧
  State.reset.rd (clReg 3 0xC04) = 0 ∧
  State.reset.rd (tbReg 0) = 0 ∧
  State.reset.rd (urnReg 0x8000) = 0

/-- Memory that was written reads as it was written. A write that completes stores its bytes, where no word it
covers in part holds an error and no later-served write of the same tick has its bytes: every byte outside it reads
as before, a read of the same bytes by any requester in a later tick gives what was written unless it is itself
withheld, and a read of the same scratchpad bytes in the same tick, the first to write there, gives what stood there
before the write. The model's own choices it rests on: log entries 25, 174. -/
def Obligations.BytesWrittenAreRead : Prop :=
  ∀ (s t : State) (r : Requester) (a : Nat) (l : List Byte), s.mem.wf = true → s.memWrite r a l = (none, t) →
    s.partWords a l.length = [] → (∀ i < l.length, s.servedLater r (a + i) = false) →
    t.mem.read a l.length = l ∧ (∀ b, b < a ∨ a + l.length ≤ b → t.mem.get b = s.mem.get b) ∧
    (∀ (u : State) (q : Requester), u.mem = t.mem → u.now.olds = [] → (u.memRead q a l.length).1.err = none → (u.memRead q a l.length).1.bytes = l) ∧
    (∀ (q : Requester) (c o : Nat), regionOf a = .scratch c o → s.now.olds = [] → (t.memRead q a l.length).1.err = none →
      (t.memRead q a l.length).1.bytes = s.mem.read a l.length)

/-- What a write does by access code. Bit by bit inside a field: RO and WO keep what the register holds, RW and an
unlocked RWL take the written bit, a locked RWL keeps its own, RW1C clears where a 1 is written unless hardware sets
the bit in the same tick, RW1S sets where a 1 is written. Bits outside the field keep theirs. -/
def Obligations.AccessCodes : Prop :=
  ∀ (locked : Bool) (now w v n : Nat) (f : RegField), f.lo ≤ f.hi →
    (f.acc = .ro ∨ f.acc = .wo → writeField locked now w v f = v) ∧ (f.acc = .rwl → locked = true → writeField locked now w v f = v) ∧
    (¬ (f.lo ≤ n ∧ n ≤ f.hi) → bit (writeField locked now w v f) n = bit v n) ∧
    (f.lo ≤ n ∧ n ≤ f.hi → f.acc = .rw ∨ (f.acc = .rwl ∧ locked = false) → bit (writeField locked now w v f) n = bit w n) ∧
    (f.lo ≤ n ∧ n ≤ f.hi → f.acc = .w1c → bit (writeField locked now w v f) n = (bit v n && (!bit w n || bit now n))) ∧
    (f.lo ≤ n ∧ n ≤ f.hi → f.acc = .w1s → bit (writeField locked now w v f) n = (bit v n || bit w n))

/-- Comparing two times gives the right answer within 2^63 ns. Two true times less than 2^63 ns apart, each known
modulo 2^64, compare as the true times do, whatever the counters' absolute values. -/
def Obligations.TimesCompareAcrossTheWrap : Prop :=
  ∀ a b : Nat, a < b + 2 ^ 63 → b < a + 2 ^ 63 → reached (b % 2 ^ 64) (a % 2 ^ 64) = decide (a ≤ b)

/-- Ticks and nanoseconds. Four nanoseconds are exactly three compute ticks, a nanosecond count converts to the
least tick count that is not less, and the tick count of a state is the number of whole ticks its clock has passed.
The model's own choices it rests on: log entry 3. -/
def Obligations.TicksAndNanoseconds : Prop :=
  ∀ (n : Nat) (s : State), nsToCt (4 * n) = 3 * n ∧ 3 * n ≤ 4 * nsToCt n ∧ (∀ m, 3 * n ≤ 4 * m → nsToCt n ≤ m) ∧ 4 * s.ct ≤ 3 * s.clock.ns ∧ 3 * s.clock.ns < 4 * (s.ct + 1)

/-- Who may command which power state, and when. A write of PM_STATE_CMD by the Steward, the controlling master or
partition S begins the transition where the current state permits the target and no transition is under way (Off
also during one); any other such write is ignored and sets PM_STATUS.CMD_IGNORED. Permitted are Run from Trim and
Watch, Trim from Run, Watch from Run and Trim with a WATCH_PART other than 0xFF, Retain from Run, Trim and Watch,
and Off from any state. A write by another requester does nothing. -/
def Obligations.PowerCommandsPermitted : Prop :=
  ∀ (s : State) (r : Requester),
    (¬ (r = .steward ∨ s.isMaster r = true ∨ ∃ h, r = .hart h) → exec (.pmStateRun r) s = .next s ∧ exec (.pmStateTrim r) s = .next s ∧ exec (.pmStateWatch r) s = .next s ∧
      exec (.pmStateRetain r) s = .next s ∧ exec (.pmStateOff r) s = .next s) ∧
    (r = .steward ∨ s.isMaster r = true ∨ (∃ h, r = .hart h) →
      exec (.pmStateRun r) s = .next (if (s.pmState = 1 ∨ s.pmState = 2) ∧ s.pmBusy = false then s.pmBegin 0 else s.orReg (pmReg 0) (2 ^ 31)) ∧
      exec (.pmStateTrim r) s = .next (if s.pmState = 0 ∧ s.pmBusy = false then s.pmBegin 1 else s.orReg (pmReg 0) (2 ^ 31)) ∧
      exec (.pmStateWatch r) s = .next (if (s.pmState = 0 ∨ s.pmState = 1) ∧ s.watchPart ≠ 0xFF ∧ s.pmBusy = false then s.pmBegin 2 else s.orReg (pmReg 0) (2 ^ 31)) ∧
      exec (.pmStateRetain r) s = .next (if s.pmState ≤ 2 ∧ s.pmBusy = false then s.pmBegin 3 else s.orReg (pmReg 0) (2 ^ 31)) ∧
      exec (.pmStateOff r) s = .next (s.pmBegin 4))

/-- A PLL that loses lock. When PLL n (0–15) loses lock, CK_STATUS shows it as unlocked and every other PLL as
before, and the fault CK_PLL_UNLOCK is raised with the PLL's number. -/
def Obligations.PllLossOfLock : Prop :=
  ∀ (s : State) (n : Nat), n < 16 → s.regsWf = true →
    ∃ u, exec (.ckPllUnlock n) s = .next (State.raise u .ckPllUnlock 7 { unit := n }) ∧ bit (u.rd (ckReg 0)) n = false ∧
      (∀ m < 16, m ≠ n → bit (u.rd (ckReg 0)) m = bit (s.rd (ckReg 0)) m) ∧ onlyRegs s u [ckReg 0]

/-- A raise while the pending table is full. The pending table holds 64 records: a raise at Deferred or Urgent in a
scope that is not stopped adds its record with the window of its severity while fewer are pending, and with no
window (it ends at once) while 64 are; one in a scope in its safe state, in reset or out of service adds none. -/
def Obligations.FullPendingTableHasNoWindow : Prop :=
  ∀ (s : State) (source scope sev action : Nat) (i : FaultInfo), sev = 3 ∨ sev = 4 →
    (s.scopeStopped scope = true → (s.raiseAt source scope sev action i).urn.pending = s.urn.pending) ∧
    (s.scopeStopped scope = false → ∃ r, r.source = source ∧ r.scope = scope ∧ r.sev = sev ∧ r.info = i ∧
      (s.raiseAt source scope sev action i).urn.pending =
        s.urn.pending ++ [{ rcd := r, expiry := some (s.clock.urn + (if s.urn.pending.length < 64 then s.windowNs scope sev else 0)) }])

/-- A cluster reset sets every tag empty; the tag registers show the tags. After a cluster is reset every one of its
8,192 slots is tagged empty. Bit j of CL_SLOT_TAGSn of a cluster that has an owner reads as 1 exactly when slot 32n
+ j is tagged full (an unowned cluster reads as 0). With no other change of a tag under way, a slot that is set full
or empty keeps its tag in the tick of the change and has the new one in the next tick, while every other slot of
every cluster keeps its tag. The model's own choices it rests on: log entry 133. -/
def Obligations.ClusterResetEmptiesTags : Prop :=
  ∀ (s : State) (c : Nat), c < 64 →
    (∀ slot < 8192, (s.resetCluster c).2.full c slot = false) ∧
    (∀ n < 256, ∀ j < 32, bit (s.regValue (clReg c (0xC00 + 4 * n))) j = ((s.ownerOf c).isSome && s.full c (32 * n + j))) ∧
    (s.tags = [] → ∀ slot < 8192, ∀ b, (∀ d other, (s.setTag c slot b).full d other = s.full d other) ∧
      ∀ k : Clock, State.ct { s with clock := k } = s.ct + 1 →
        State.full { s.setTag c slot b with clock := k } c slot = b ∧
        ∀ d other, d ≠ c ∨ other ≠ slot → State.full { s.setTag c slot b with clock := k } d other = s.full d other)

/-- A window never opens another partition's memory. Whatever the eight windows of a context hold, a cluster's
access to the scratchpad or accumulators of a cluster of another owner, to a pool bank or a group of chip-level
counters that is not allocated to its own partition, or to LPDDR6 that is not its own partition's, fails the check.
The model's own choices it rests on: log entry 26. -/
def Obligations.NoWindowOpensForeignMemory : Prop :=
  ∀ (s : State) (c x ga n a : Nat) (right : Right), s.localOf (s.normGa ga) = some a →
    (∀ d o, regionOf a = .scratch d o ∨ regionOf a = .accum d o → s.ownerOf d ≠ s.ownerOf c → s.windowOk c x ga n right = false) ∧
    (∀ o, regionOf a = .pool o → assoc s.poolBanks (o / 0x80000) ≠ s.ownerOf c → s.windowOk c x ga n right = false) ∧
    (∀ w, regionOf a = .chipCtr w → assoc s.ctrGroups (w / 16) ≠ s.ownerOf c → s.windowOk c x ga n right = false) ∧
    (regionOf a = .lpddr → (s.lpFind a).map Prod.fst ≠ s.ownerOf c → s.windowOk c x ga n right = false)

/-- A packed lane is its sublanes, each computed on its own. In the packed modes a 32-bit lane is four INT8 or two
BF16 sublanes: sublane i of the result is the operation on sublane i of each operand, and nothing else reaches it.
An INT8 sum, product or fused multiply-add is the exact result saturated once, a minimum or maximum is the lesser or
the greater. A BF16 sum, product or fused multiply-add of a, b and c is the exact result rounded once. What a
comparison and a selection answer is the model's choice (log entry 146). -/
def Obligations.PackedLanes : Prop :=
  (∀ (op : PackedOp) (x y z i : Nat), i < 4 →
    sublane 8 (packedLane true op x y z) i = packedInt8 op (sublane 8 x i) (sublane 8 y i) (sublane 8 z i)) ∧
  (∀ (op : PackedOp) (x y z i : Nat), i < 2 →
    sublane 16 (packedLane false op x y z) i = packedBf16 op (sublane 16 x i) (sublane 16 y i) (sublane 16 z i)) ∧
  (∀ x y z : Nat, toSigned 8 (packedInt8 .add x y z) = max (-128) (min 127 (toSigned 8 x + toSigned 8 y)) ∧
    toSigned 8 (packedInt8 .mul x y z) = max (-128) (min 127 (toSigned 8 x * toSigned 8 y)) ∧
    toSigned 8 (packedInt8 .fma x y z) = max (-128) (min 127 (toSigned 8 x * toSigned 8 y + toSigned 8 z)) ∧
    toSigned 8 (packedInt8 .min x y z) = min (toSigned 8 x) (toSigned 8 y) ∧ toSigned 8 (packedInt8 .max x y z) = max (toSigned 8 x) (toSigned 8 y)) ∧
  (∀ x y z : Nat, packedBf16 .add x y z = (roundFloat fmtBF16 false ((decodeFloat fmtBF16 x).add (decodeFloat fmtBF16 y))).code ∧
    packedBf16 .mul x y z = (roundFloat fmtBF16 false ((decodeFloat fmtBF16 x).mul (decodeFloat fmtBF16 y))).code ∧
    packedBf16 .fma x y z = (roundFloat fmtBF16 false (((decodeFloat fmtBF16 x).mul (decodeFloat fmtBF16 y)).add (decodeFloat fmtBF16 z))).code)
end

