-- ==== Sys2Proof/Laws/Sparse.lean ====
section
/-! SUPPORT. Laws of the sparse map in canonical form: writing keeps the form, and what a key reads as after a write. -/

namespace Sys2Proof.Machine

theorem sparsePut_keys {α : Type} [DecidableEq α] (d : α) (m : List (Nat × α)) (k : Nat) (v : α) (P : Nat → Prop)
    (hm : ∀ e ∈ m, P e.1) (hk : P k) : ∀ e ∈ sparsePut d m k v, P e.1 := by
  induction m with
  | nil => intro e he; simp only [sparsePut] at he; split at he <;> simp_all
  | cons a r ih =>
    obtain ⟨k', v'⟩ := a
    intro e he
    simp only [sparsePut] at he
    have hr : ∀ e ∈ r, P e.1 := fun e he => hm e (by simp [he])
    have hk' : P k' := hm (k', v') (by simp)
    split at he
    · split at he <;> simp only [List.mem_cons] at he <;> rcases he with rfl | he
      · exact hk'
      · exact hr e he
      · exact hk
      · rcases he with rfl | he
        · exact hk'
        · exact hr e he
    · split at he
      · split at he
        · exact hr e he
        · simp only [List.mem_cons] at he
          rcases he with rfl | he
          · exact hk
          · exact hr e he
      · simp only [List.mem_cons] at he
        rcases he with rfl | he
        · exact hk'
        · exact ih hr e he

theorem sparsePut_wf {α : Type} [DecidableEq α] (d : Nat → α) (m : List (Nat × α)) (k : Nat) (v : α)
    (h : sparseWf d m = true) : sparseWf d (sparsePut (d k) m k v) = true := by
  induction m with
  | nil => simp only [sparsePut]; split <;> simp_all [sparseWf]
  | cons a r ih =>
    obtain ⟨k', v'⟩ := a
    simp only [sparseWf, Bool.and_eq_true, decide_eq_true_eq, List.all_eq_true] at h
    obtain ⟨⟨h1, h2⟩, h3⟩ := h
    simp only [sparsePut]
    split
    · split <;> (try simp only [sparseWf, Bool.and_eq_true, decide_eq_true_eq, List.all_eq_true])
      · exact ⟨⟨h1, h2⟩, h3⟩
      · refine ⟨⟨‹_›, ?_⟩, ⟨h1, h2⟩, h3⟩
        intro e he
        simp only [List.mem_cons] at he
        rcases he with rfl | he
        · assumption
        · exact Nat.lt_trans ‹_› (h2 e he)
    · split
      · subst_vars
        split <;> (try simp only [sparseWf, Bool.and_eq_true, decide_eq_true_eq, List.all_eq_true])
        · exact h3
        · exact ⟨⟨‹_›, h2⟩, h3⟩
      · simp only [sparseWf, Bool.and_eq_true, decide_eq_true_eq, List.all_eq_true]
        exact ⟨⟨h1, sparsePut_keys _ _ _ _ (k' < ·) h2 (by omega)⟩, ih h3⟩

theorem filter_wf {α : Type} [DecidableEq α] (d d' : Nat → α) (m : List (Nat × α)) (p : Nat × α → Bool)
    (h : sparseWf d m = true) (hd : ∀ e ∈ m, p e = true → d' e.1 = d e.1) : sparseWf d' (m.filter p) = true := by
  induction m with
  | nil => rfl
  | cons a r ih =>
    obtain ⟨k', v'⟩ := a
    simp only [sparseWf, Bool.and_eq_true, decide_eq_true_eq, List.all_eq_true] at h
    obtain ⟨⟨h1, h2⟩, h3⟩ := h
    have ih := ih h3 (fun e he => hd e (by simp [he]))
    simp only [List.filter_cons]
    split
    · simp only [sparseWf, Bool.and_eq_true, decide_eq_true_eq, List.all_eq_true]
      have hh := hd (k', v') (by simp) ‹_›
      simp only at hh
      refine ⟨⟨by rw [hh]; exact h1, fun e he => h2 e (List.mem_filter.1 he |>.1)⟩, ih⟩
    · exact ih

/-- A key that is not written reads as before. -/
theorem sparseGet_put_other {α : Type} [DecidableEq α] (d e : α) (m : List (Nat × α)) (k j : Nat) (v : α) (h : j ≠ k) :
    sparseGet e (sparsePut d m k v) j = sparseGet e m j := by
  induction m with
  | nil =>
    simp only [sparsePut]
    split
    · rfl
    · simp [sparseGet, Ne.symm h]
  | cons a r ih =>
    obtain ⟨k', v'⟩ := a
    simp only [sparsePut]
    split
    · split
      · rfl
      · simp [sparseGet, Ne.symm h]
    · split
      · subst_vars
        split
        · simp [sparseGet, Ne.symm h]
        · simp [sparseGet, Ne.symm h]
      · simp only [sparseGet, ih]

/-- A key that is written with a value other than its default reads as that value. -/
theorem sparseGet_put_ne {α : Type} [DecidableEq α] (d e : α) (m : List (Nat × α)) (k : Nat) (v : α) (h : v ≠ d) :
    sparseGet e (sparsePut d m k v) k = v := by
  induction m with
  | nil => simp [sparsePut, sparseGet, h]
  | cons a r ih =>
    obtain ⟨k', v'⟩ := a
    simp only [sparsePut, h, if_false]
    split
    · simp [sparseGet]
    · split
      · simp [sparseGet]
      · rename_i h1 h2
        simp only [sparseGet, Ne.symm h2, if_false, ih]

/-- A key below every listed key reads as its default. -/
theorem sparseGet_below {α : Type} (d : α) (m : List (Nat × α)) (k : Nat) (h : ∀ e ∈ m, k < e.1) : sparseGet d m k = d := by
  induction m with
  | nil => rfl
  | cons a r ih =>
    obtain ⟨k', v'⟩ := a
    have h1 : k < k' := h (k', v') (by simp)
    have h2 : k' ≠ k := by omega
    simp only [sparseGet, h2, if_false]
    exact ih fun e he => h e (by simp [he])

/-- In canonical form, a key that is written reads as the value written. -/
theorem sparseGet_put_same {α : Type} [DecidableEq α] (d : Nat → α) (m : List (Nat × α)) (k : Nat) (v : α)
    (h : sparseWf d m = true) : sparseGet (d k) (sparsePut (d k) m k v) k = v := by
  by_cases hv : v = d k
  · subst hv
    induction m with
    | nil => simp [sparsePut, sparseGet]
    | cons a r ih =>
      obtain ⟨k', v'⟩ := a
      simp only [sparseWf, Bool.and_eq_true, decide_eq_true_eq, List.all_eq_true] at h
      obtain ⟨⟨_, h2⟩, h3⟩ := h
      simp only [sparsePut, if_true]
      split
      · rename_i hk
        refine sparseGet_below _ _ _ fun e he => ?_
        simp only [List.mem_cons] at he
        rcases he with rfl | he
        · exact hk
        · exact Nat.lt_trans hk (h2 e he)
      · split
        · rename_i hk
          exact sparseGet_below _ _ _ fun e he => hk ▸ h2 e he
        · rename_i h4 h5
          simp only [sparseGet, Ne.symm h5, if_false]
          exact ih h3
  · exact sparseGet_put_ne _ _ _ _ _ hv

/-- Dropping a range leaves the keys outside it as they were. -/
theorem sparseGet_drop_other {α : Type} (d : α) (m : List (Nat × α)) (lo hi k : Nat) (h : k < lo ∨ hi ≤ k) :
    sparseGet d (sparseDrop m lo hi) k = sparseGet d m k := by
  induction m with
  | nil => rfl
  | cons a r ih =>
    obtain ⟨k', v'⟩ := a
    simp only [sparseDrop, List.filter_cons] at ih ⊢
    split
    · simp only [sparseGet, ih]
    · rename_i hp
      have : k' ≠ k := by
        simp at hp
        omega
      simp only [sparseGet, this, if_false, ih]

end Sys2Proof.Machine
end

