-- ==== Sys2Proof/Laws/Memory.lean ====
section
/-! SUPPORT. Laws of memory: every memory operation keeps the canonical form, a byte read after a write to it is the byte
written, and a write leaves every other byte as it was. -/

namespace Sys2Proof.Machine

theorem Memory.put_wf (m : Memory) (a : Nat) (v : Byte) (h : m.wf = true) : (m.put a v).wf = true :=
  sparsePut_wf m.unlisted m.cells a v h

theorem Memory.write_wf (l : List Byte) (m : Memory) (a : Nat) (h : m.wf = true) : (m.write a l).wf = true := by
  induction l generalizing m a with
  | nil => exact h
  | cons b r ih => exact ih _ _ (Memory.put_wf m a b h)


/-- Outside a zero-filled range an unlisted byte reads as before. -/
theorem Memory.unlisted_zero (m : Memory) (lo n a : Nat) (ha : a < lo ∨ lo + n ≤ a) :
    (m.zero lo n).unlisted a = m.unlisted a := by
  have one : ∀ r : LostRange,
      (([{ r with hi := min r.hi lo }, { r with lo := max r.lo (lo + n) }].filter
          fun (q : LostRange) => decide (q.lo < q.hi)).find? fun q => decide (q.lo ≤ a) && decide (a < q.hi)).map (·.epoch)
        = if r.lo ≤ a ∧ a < r.hi then some r.epoch else none := by
    rintro ⟨rl, rh, re⟩
    simp only [List.filter_cons, List.filter_nil]
    by_cases h : rl ≤ a ∧ a < rh
    · rcases ha with ha | ha
      · have h1 : rl < min rh lo := by omega
        have h2 : a < min rh lo := by omega
        simp [h1, h2, h]
      · have h1 : max rl (lo + n) < rh := by omega
        have h2 : ¬ a < min rh lo := by omega
        have h3 : max rl (lo + n) ≤ a := by omega
        by_cases h4 : rl < min rh lo <;> simp only [h1, h, h2, h3, h4, decide_true, decide_false, if_true,
          List.find?_cons, Bool.and_false, Bool.and_true, Option.map_some, and_self] ; simp [h3, h.2]
    · have h5 : ¬ (rl ≤ a ∧ a < min rh lo) := by omega
      have h6 : ¬ (max rl (lo + n) ≤ a ∧ a < rh) := by omega
      simp only [h, if_false, Option.map_eq_none_iff, List.find?_eq_none]
      intro q hq
      have : q = ⟨rl, min rh lo, re⟩ ∨ q = ⟨max rl (lo + n), rh, re⟩ := by
        split at hq <;> split at hq <;> simp_all
      rcases this with rfl | rfl <;> simp only [Bool.and_eq_true, decide_eq_true_eq] <;> assumption
  have key : ∀ L : List LostRange,
      ((L.flatMap fun (r : LostRange) => [{ r with hi := min r.hi lo }, { r with lo := max r.lo (lo + n) }].filter
          fun q => decide (q.lo < q.hi)).find? fun r => decide (r.lo ≤ a) && decide (a < r.hi)).map (·.epoch)
        = (L.find? fun r => decide (r.lo ≤ a) && decide (a < r.hi)).map (·.epoch) := by
    intro L
    induction L with
    | nil => rfl
    | cons r R ih =>
      have h1 := one r
      rw [List.flatMap_cons, List.find?_append, List.find?_cons]
      by_cases h : r.lo ≤ a ∧ a < r.hi
      · rw [if_pos h] at h1
        obtain ⟨q, hq, he⟩ := Option.map_eq_some_iff.1 h1
        simp [hq, he, h]
      · rw [if_neg h, Option.map_eq_none_iff] at h1
        rw [h1]
        have : (decide (r.lo ≤ a) && decide (a < r.hi)) = false := by simpa using h
        simp only [this, Option.none_or, ih]
  have := key m.lost
  simp only [Memory.unlisted, Memory.zero]
  revert this
  generalize List.find? _ (List.flatMap _ _) = x
  generalize List.find? _ m.lost = y
  intro h
  cases x <;> cases y <;> simp_all

theorem Memory.zero_wf (m : Memory) (lo n : Nat) (h : m.wf = true) : (m.zero lo n).wf = true := by
  have hz : (m.zero lo n).cells = m.cells.filter fun e => !(decide (lo ≤ e.1) && decide (e.1 < lo + n)) := rfl
  rw [Memory.wf, hz]
  refine filter_wf _ _ _ _ h fun e _ hp => Memory.unlisted_zero m lo n e.1 ?_
  simp at hp
  omega

theorem Memory.wf_iff (m n : Memory) (hc : n.cells = m.cells) (hl : n.lost = m.lost) : m.wf = true → n.wf = true := by
  obtain ⟨c, l, b, a⟩ := m; obtain ⟨c', l', b', a'⟩ := n
  simp only at hc hl; subst hc; subst hl; exact id

theorem zeros_wf (f : Nat → Nat × Nat) (l : List Nat) (m : Memory) (h : m.wf = true) :
    (l.foldl (fun m b => m.zero (f b).1 (f b).2) m).wf = true := by
  induction l generalizing m with
  | nil => exact h
  | cons a r ih => exact ih _ (Memory.zero_wf _ _ _ h)

theorem Memory.lost_wf (m : Memory) (lo n e : Nat) (bad) (h : m.wf = true) :
    ({ m with lost := (m.zero lo n).lost ++ [({ lo := lo, hi := lo + n, epoch := e } : LostRange)], cells := (m.zero lo n).cells, bad := bad } : Memory).wf = true := by
  have hz : (m.zero lo n).cells = m.cells.filter fun e => !(decide (lo ≤ e.1) && decide (e.1 < lo + n)) := rfl
  rw [Memory.wf]
  simp only [hz]
  refine filter_wf _ _ _ _ h fun c _ hp => ?_
  have hc : c.1 < lo ∨ lo + n ≤ c.1 := by
    simp at hp
    omega
  rw [← Memory.unlisted_zero m lo n c.1 hc]
  simp only [Memory.unlisted, List.find?_append]
  have : (decide (lo ≤ c.1) && decide (c.1 < lo + n)) = false := by
    simp
    omega
  simp only [List.find?_cons, this, List.find?_nil, Option.or_none]

theorem Memory.keepLow_wf (m : Memory) (top : Nat) (bad an) (h : m.wf = true) :
    ({ m with cells := m.cells.filter fun c => decide (c.1 < top), lost := m.lost.filter fun r => decide (r.lo < top), bad := bad, anchors := an } : Memory).wf = true := by
  refine filter_wf _ _ _ _ h fun c _ hp => ?_
  have hc : c.1 < top := by simpa using hp
  simp only [Memory.unlisted, List.find?_filter]
  congr 2
  funext r
  by_cases h1 : r.lo ≤ c.1
  · have : r.lo < top := by omega
    simp [this]
  · simp [h1]

/-- A byte that is not written reads as before. -/
theorem Memory.get_put_other (m : Memory) (a b : Nat) (v : Byte) (h : b ≠ a) : (m.put a v).get b = m.get b :=
  sparseGet_put_other _ _ _ _ _ _ h

/-- A byte that is written reads as the byte written. -/
theorem Memory.get_put_same (m : Memory) (a : Nat) (v : Byte) (h : m.wf = true) : (m.put a v).get a = v :=
  sparseGet_put_same m.unlisted _ _ _ h

/-- A store leaves every byte outside it as it was. -/
theorem Memory.get_write_other (l : List Byte) (m : Memory) (a b : Nat) (h : b < a ∨ a + l.length ≤ b) :
    (m.write a l).get b = m.get b := by
  induction l generalizing m a with
  | nil => rfl
  | cons x r ih =>
    simp only [List.length_cons] at h
    rw [Memory.write, ih _ _ (by omega), Memory.get_put_other _ _ _ _ (by omega)]

/-- A byte inside a store reads as the byte stored. -/
theorem Memory.get_write_same (l : List Byte) (m : Memory) (a i : Nat) (hi : i < l.length) (h : m.wf = true) :
    (m.write a l).get (a + i) = l[i] := by
  induction l generalizing m a i with
  | nil => exact absurd hi (Nat.not_lt_zero _)
  | cons x r ih =>
    rw [Memory.write]
    cases i with
    | zero =>
      rw [Memory.get_write_other _ _ _ _ (by omega)]
      exact Memory.get_put_same _ _ _ h
    | succ n =>
      have := ih (m.put a x) (a + 1) n (by simpa using hi) (Memory.put_wf _ _ _ h)
      rw [show a + (n + 1) = a + 1 + n by omega, this]
      rfl

/-- A range read after it is stored gives the bytes stored. -/
theorem Memory.read_write_same (l : List Byte) (m : Memory) (a : Nat) (h : m.wf = true) :
    (m.write a l).read a l.length = l := by
  apply List.ext_getElem
  · simp [Memory.read]
  · intro i h1 h2
    simp only [Memory.read, List.getElem_map, List.getElem_range]
    exact Memory.get_write_same l m a i h2 h

/-- Outside a zero-filled range every byte reads as before. -/
theorem Memory.get_zero_other (m : Memory) (lo n a : Nat) (ha : a < lo ∨ lo + n ≤ a) : (m.zero lo n).get a = m.get a := by
  rw [Memory.get, Memory.unlisted_zero m lo n a ha]
  exact sparseGet_drop_other _ _ _ _ _ ha

end Sys2Proof.Machine
end

