-- ==== Sys2Proof/Laws/Access.lean ====
section
/-! SUPPORT. Accesses to on-chip memory in a tick in which nobody else uses its banks. -/

namespace Sys2Proof.Machine
/-- The record of the present tick is of the present tick. -/
theorem State.now_at (s : State) : s.now.at_ = s.ct := by
  unfold State.now
  split
  · assumption
  · rfl

/-- A record of the present tick is the one kept. -/
theorem State.now_set (s : State) (P : TickRec) (h : P.at_ = s.ct) : State.now { s with ports := P } = P := if_pos h

/-- Keeping old bytes changes no use of a port. -/
theorem State.uses_olds (s : State) (l : List (Nat × Byte)) : (State.now { s with ports := { s.now with olds := l } }).uses = s.now.uses :=
  (congrArg TickRec.uses (State.now_set s { s.now with olds := l } (State.now_at s))).trans rfl

/-- A port that only this requester has used in the tick costs nobody anything (R111). -/
theorem State.usePort_mine (s : State) (u : PortUse) (h : ∀ v ∈ s.now.uses, v.req = u.req) (he : u.elastic = true) :
    s.usePort u = { s with ports := { s.now with uses := s.now.uses ++ [u] } } := by
  have e : (s.now.uses.filter fun v => v.bank == u.bank && v.wr == u.wr && v.req != u.req) = [] := by
    rw [List.filter_eq_nil_iff]
    intro v hv
    simp [h v hv]
  unfold State.usePort
  simp [e, he, b2n]

/-- The same for several banks. -/
theorem State.usePorts_mine (r : Requester) (a n : Nat) (wr : Bool) (k : Nat × Nat) (hx : r.ctx ≠ some 4) (l : List Nat) (s : State) (h : ∀ v ∈ s.now.uses, v.req = r.key) :
    ∃ P : TickRec, l.foldl (fun s b => s.usePort ⟨b, wr, r.ctx != some 4, k.1, k.2, r.key, a, a + n⟩) s = { s with ports := P } ∧
      (State.now { s with ports := P }).olds = s.now.olds ∧ (∀ v ∈ (State.now { s with ports := P }).uses, v.req = r.key) := by
  induction l generalizing s with
  | nil => exact ⟨s.ports, rfl, rfl, h⟩
  | cons b l ih =>
    have e := State.usePort_mine s ⟨b, wr, r.ctx != some 4, k.1, k.2, r.key, a, a + n⟩ h (by simp [hx])
    rw [List.foldl_cons, e]
    have hn : s.now.at_ = s.ct := by
      unfold State.now
      split
      · assumption
      · rfl
    have hm : (State.now { s with ports := { s.now with uses := s.now.uses ++ [⟨b, wr, r.ctx != some 4, k.1, k.2, r.key, a, a + n⟩] } }) =
        { s.now with uses := s.now.uses ++ [⟨b, wr, r.ctx != some 4, k.1, k.2, r.key, a, a + n⟩] } := by
      conv => lhs; unfold State.now
      exact if_pos hn
    obtain ⟨P, e1, e2, e3⟩ := ih { s with ports := { s.now with uses := s.now.uses ++ [⟨b, wr, r.ctx != some 4, k.1, k.2, r.key, a, a + n⟩] } } (by
      rw [hm]
      intro v hv
      rcases List.mem_append.1 hv with hv | hv
      · exact h v hv
      · rw [List.mem_singleton.1 hv])
    refine ⟨P, e1, ?_, e3⟩
    rw [hm] at e2
    exact e2

/-- The ports of an access in a tick in which only its requester has used ports: the record of the tick alone changes. -/
theorem State.wantPorts_mine (s : State) (r : Requester) (a n : Nat) (wr : Bool) (hx : r.ctx ≠ some 4) (h : ∀ v ∈ s.now.uses, v.req = r.key) :
    ∃ P : TickRec, s.wantPorts r a n wr = { s with ports := P } ∧
      (State.now { s with ports := P }).olds = s.now.olds ∧ (∀ v ∈ (State.now { s with ports := P }).uses, v.req = r.key) :=
  State.usePorts_mine r a n wr _ hx _ s h

/-- What a write stores does not depend on the error words. -/
theorem Memory.write_bad (l : List Byte) : ∀ (m : Memory) (b : List (Nat × Bool)) (a : Nat), (({ m with bad := b } : Memory).write a l).cells = (m.write a l).cells := by
  induction l with
  | nil => intros; rfl
  | cons x r ih => intro m b a; exact ih (m.put a x) b (a + 1)

/-- The record of the tick does not say what is populated. -/
theorem State.unitPresent_ports (s : State) (P : TickRec) (a : Nat) : State.unitPresent { s with ports := P } a = s.unitPresent a := by
  have e1 : State.nClusters { s with ports := P } = s.nClusters := rfl
  have e2 : ∀ k u, State.hasUnit { s with ports := P } k u = s.hasUnit k u := fun _ _ => rfl
  unfold State.unitPresent
  simp only [e1, e2]

/-- The record of the tick does not say what is mapped. -/
theorem State.mapped_ports (s : State) (P : TickRec) (a n : Nat) : State.mapped { s with ports := P } a n = s.mapped a n := by
  have e1 : ∀ a, State.lpFind { s with ports := P } a = s.lpFind a := fun _ => rfl
  have e2 : State.nClusters { s with ports := P } = s.nClusters := rfl
  have e3 : ∀ a, State.isLockstep { s with ports := P } a = s.isLockstep a := fun _ => rfl
  unfold State.mapped
  simp only [State.unitPresent_ports, e1, e2, e3]

/-- A read of an error-free on-chip word in a tick in which nobody else uses its bank gives its bytes and changes the record of the tick alone. -/
theorem State.memRead_clean (s : State) (r : Requester) (a : Nat) (hx : r.ctx ≠ some 4) (h0 : ∀ u ∈ s.now.uses, u.req = r.key) (hb : s.now.olds = [])
    (h4 : s.mapped a 8 = true) (h8 : s.rinseLocked a 8 = false) (h9 : s.errWords a 8 = []) (hlp : ¬ a < lpddrTop) :
    ∃ P : TickRec, s.memRead r a 8 = (⟨s.mem.read a 8, none⟩, { s with ports := P }) ∧ (∀ v ∈ (State.now { s with ports := P }).uses, v.req = r.key) := by
  obtain ⟨P, e1, e2, e3⟩ := State.wantPorts_mine s r a 8 false hx h0
  refine ⟨P, ?_, e3⟩
  unfold State.memRead
  simp only [h4, h8, Bool.not_false, Bool.and_self, if_true, e1]
  unfold State.memFetch
  have x1 : State.mapped { s with ports := P } a 8 = true := (State.mapped_ports s P a 8).trans h4
  have x2 : State.rinseLocked { s with ports := P } a 8 = false := h8
  have x3 : State.errWords { s with ports := P } a 8 = [] := h9
  have x4 : State.rowBytes { s with ports := P } a 8 = s.mem.read a 8 := by
    unfold State.rowBytes
    rw [e2, hb]
    rfl
  simp only [x1, x2, x3, x4, hlp, Bool.not_true, Bool.false_eq_true, if_false, List.foldl_nil, List.any_nil]

/-- A write of an error-free on-chip word in such a tick stores its bytes and changes memory and the record of the tick alone. -/
theorem State.memWrite_clean (s : State) (r : Requester) (a : Nat) (l : List Byte) (hn : l.length = 8) (hx : r.ctx ≠ some 4) (h0 : ∀ u ∈ s.now.uses, u.req = r.key)
    (h4 : s.mapped a 8 = true) (h8 : s.rinseLocked a 8 = false) (h9 : s.errWords a 8 = []) (hlp : ¬ a < lpddrTop) :
    ∃ (Q : TickRec) (b : List (Nat × Bool)), s.memWrite r a l = (none, { s with ports := Q, mem := ({ s.mem with bad := b } : Memory).write a l }) := by
  have hs : ∀ b, s.servedLater r b = false := by
    intro b
    unfold State.servedLater
    rw [List.any_eq_false]
    intro u hu
    simp [h0 u hu]
  have x3 : s.partWords a 8 = [] := by
    unfold State.partWords
    rw [h9]
    rfl
  have hn' : s.now.at_ = s.ct := by
    unfold State.now
    split
    · assumption
    · rfl
  have x5 : ∃ P', s.keepRow a 8 = { s with ports := P' } ∧ (∀ u ∈ (State.now { s with ports := P' }).uses, u.req = r.key) := by
    unfold State.keepRow
    split
    · refine ⟨_, rfl, ?_⟩
      intro u hu
      rw [State.uses_olds] at hu
      exact h0 u hu
    · exact ⟨s.ports, rfl, h0⟩
  obtain ⟨P', y1, y2⟩ := x5
  obtain ⟨Q, z1, -, -⟩ := State.wantPorts_mine { s with ports := P' } r a 8 true hx y2
  unfold State.memWrite
  simp only [hn, h4, h8, x3, Bool.not_true, Bool.false_eq_true, if_false, List.foldl_nil, List.any_nil, hlp, y1, z1]
  have hi : ∀ b, inUe [] b = false := fun _ => rfl
  have ho : (List.range 8).all (fun i => !inUe [] (a + i) && !s.servedLater r (a + i)) = true := by
    simp [hi, hs]
  rw [if_pos ho]
  exact ⟨_, _, rfl⟩

/-- An atomic on an error-free on-chip word in such a tick answers the word and stores the new one. -/
theorem State.memAtomic_clean (s : State) (r : Requester) (op : AtomicOp) (a v e : Nat) (hx : r.ctx ≠ some 4) (h0 : ∀ u ∈ s.now.uses, u.req = r.key) (hb : s.now.olds = [])
    (hl : atomicLen op = 8) (hf : op ≠ .fadd) (h4 : s.mapped a 8 = true) (h5 : a % 8 = 0) (h6 : placeAtomic op (regionOf a) = true) (h8 : s.rinseLocked a 8 = false)
    (h9 : s.errWords a 8 = []) (hlp : ¬ a < lpddrTop) :
    ∃ (P : TickRec) (b : List (Nat × Bool)), s.memAtomic r op a v e =
      ((s.ldn a 8, none), { s with ports := P, mem := ({ s.mem with bad := b } : Memory).write a (leBytes 8 (atomicNew op (s.ldn a 8) v e)) }) := by
  obtain ⟨P, hr, e3⟩ := State.memRead_clean s r a hx h0 hb h4 h8 h9 hlp
  obtain ⟨Q, m, z1⟩ := State.memWrite_clean { s with ports := P } r a (leBytes 8 (atomicNew op (s.ldn a 8) v e)) (by simp [leBytes]) hx e3 ((State.mapped_ports s P a 8).trans h4) h8 h9 hlp
  refine ⟨Q, m, ?_⟩
  unfold State.memAtomic
  rw [if_neg (fun q => hf q.1)]
  simp only [hl, hf, if_false, h4, h5, h6, Bool.not_true, bne_self_eq_false, Bool.or_self, Bool.false_eq_true, h8, hr]
  rw [show leNat (s.mem.read a 8) = s.ldn a 8 from rfl, z1]

/-! ## What the use of a bank port leaves in place -/

/-- From `s` to `t` memory, the clocks and the old bytes of the tick (R108) are unchanged. -/
structure TickKept (s t : State) : Prop where
  mem : t.mem = s.mem
  clock : t.clock = s.clock
  olds : t.now.olds = s.now.olds

theorem TickKept.refl (s : State) : TickKept s s := ⟨rfl, rfl, rfl⟩

theorem TickKept.trans {s t u : State} (h : TickKept s t) (k : TickKept t u) : TickKept s u :=
  ⟨k.mem.trans h.mem, k.clock.trans h.clock, k.olds.trans h.olds⟩

theorem TickKept.foldl {α : Type} (f : State → α → State) (hf : ∀ s a, TickKept s (f s a)) (l : List α) (s : State) : TickKept s (l.foldl f s) := by
  induction l generalizing s with
  | nil => exact TickKept.refl s
  | cons a l ih => exact (hf s a).trans (ih _)

/-- A record of the tick with the same old bytes. -/
theorem TickKept.ports (s : State) (P : TickRec) (h : P.at_ = s.ct) (ho : P.olds = s.now.olds) : TickKept s { s with ports := P } :=
  ⟨rfl, rfl, (congrArg TickRec.olds (State.now_set s P h)).trans ho⟩

/-- ND_TIMING of a partition (R325). -/
theorem State.ndTiming_tickKept (s : State) (p : Option Nat) : TickKept s (s.ndTiming p) := by
  unfold State.ndTiming
  split
  · split
    · exact TickKept.trans (t := s.count64Hold _ 1) ⟨rfl, rfl, rfl⟩ (TickKept.ports _ _ (State.now_at _) rfl)
    · exact TickKept.refl s
  · exact TickKept.refl s

/-- A loss at a port is counted (R111). -/
theorem State.portLoss_tickKept (s : State) (b n : Nat) : TickKept s (s.portLoss b n) := by
  unfold State.portLoss
  split
  · exact TickKept.trans (t := s.countUp _ n) ⟨rfl, rfl, rfl⟩ (TickKept.foldl _ (fun s _ => State.ndTiming_tickKept s _) _ _)
  · exact TickKept.foldl _ (fun s _ => State.ndTiming_tickKept s _) _ _

/-- A use of a port changes counters, the Rinse and the record of the tick alone (R111). -/
theorem State.usePort_tickKept (s : State) (u : PortUse) : TickKept s (s.usePort u) := by
  have loss : ∀ n, TickKept s (if n = 0 then s else s.portLoss u.bank n) := by
    intro n
    split
    · exact TickKept.refl s
    · exact State.portLoss_tickKept s _ _
  have late : ∀ (c : Bool) (v : State), TickKept s v → TickKept s (if c then v.displace u.bank else v) := by
    intro c v h
    cases c
    · exact h
    · exact h.trans ⟨rfl, rfl, rfl⟩
  have use : ∀ v : State, TickKept s v → TickKept s { v with ports := { v.now with uses := v.now.uses ++ [u] } } :=
    fun v h => h.trans (TickKept.ports v _ (State.now_at v) rfl)
  exact use _ (late _ _ (loss _))

/-- The ports of an access (R111). -/
theorem State.wantPorts_tickKept (s : State) (r : Requester) (a n : Nat) (wr : Bool) : TickKept s (s.wantPorts r a n wr) :=
  TickKept.foldl _ (fun s _ => State.usePort_tickKept s _) _ s

/-- A read that completes gives the bytes of its rows as they stood before the writes of the tick (R108). -/
theorem State.memRead_bytes (s : State) (r : Requester) (a n : Nat) (h : (s.memRead r a n).1.err = none) :
    (s.memRead r a n).1.bytes = s.rowBytes a n := by
  have fetch : ∀ u : State, TickKept s u → (u.memFetch r a n).1.err = none → (u.memFetch r a n).1.bytes = s.rowBytes a n := by
    intro u hu h
    unfold State.memFetch at h ⊢
    split at h
    · cases h
    · next h1 =>
      rw [if_neg h1]
      split at h
      · cases h
      · next h2 =>
        rw [if_neg h2]
        dsimp only at h ⊢
        split at h
        · cases h
        · next h3 =>
          rw [if_neg h3]
          show u.rowBytes a n = s.rowBytes a n
          unfold State.rowBytes
          rw [hu.olds, hu.mem]
  unfold State.memRead at h ⊢
  split at h
  · next h1 => rw [if_pos h1]; exact fetch _ (State.wantPorts_tickKept s r a n false) h
  · next h1 => rw [if_neg h1]; exact fetch _ (TickKept.refl s) h

/-- In a tick in which nothing has been written the rows read as memory holds them. -/
theorem State.rowBytes_clean (s : State) (a n : Nat) (h : s.now.olds = []) : s.rowBytes a n = s.mem.read a n := by
  unfold State.rowBytes
  rw [h]
  rfl

/-- The old byte kept for an address. -/
theorem assoc_rows (f : Nat → Byte) (a i : Nat) : ∀ l : List Nat, i ∈ l → assoc (l.map fun k => (a + k, f k)) (a + i) = some (f i) := by
  intro l
  induction l with
  | nil => intro h; cases h
  | cons k l ih =>
    intro h
    show (if a + k = a + i then some (f k) else assoc (l.map _) (a + i)) = _
    split
    · next e => rw [show k = i by omega]
    · next e =>
      refine ih ((List.mem_cons.1 h).resolve_left ?_)
      rintro rfl
      exact e rfl

/-- What a write without an error word in its part words does: it stores its bytes, and in a scratchpad the tick keeps the row's bytes from
before (R108, R111, R112). -/
theorem State.memWrite_stores (s t : State) (r : Requester) (a : Nat) (l : List Byte) (h : s.memWrite r a l = (none, t)) (hp : s.partWords a l.length = [])
    (hl : ∀ i < l.length, s.servedLater r (a + i) = false) :
    (∃ bad, t.mem = ({ s.mem with bad := bad } : Memory).write a l) ∧
    (s.now.olds = [] → (∃ c o, regionOf a = .scratch c o) → t.rowBytes a l.length = s.mem.read a l.length) := by
  have hi : ∀ b, inUe [] b = false := fun _ => rfl
  have ho : (List.range l.length).all (fun i => !inUe [] (a + i) && !s.servedLater r (a + i)) = true := by
    rw [List.all_eq_true]
    intro i hm
    rw [hi, hl i (List.mem_range.1 hm)]
    rfl
  unfold State.memWrite at h
  dsimp only at h
  rw [hp] at h
  simp only [List.foldl_nil, List.any_nil, Bool.false_eq_true, if_false] at h
  simp only [ho, if_true] at h
  split at h
  · cases h
  · split at h
    · cases h
    · cases h
      refine ⟨⟨_, rfl⟩, fun hn hr => ?_⟩
      obtain ⟨c, o, hr⟩ := hr
      have hlp : ¬ a < lpddrTop := by
        intro q
        unfold regionOf at hr
        rw [if_pos q] at hr
        cases hr
      have hk : s.keepRow a l.length =
          { s with ports := { s.now with olds := (List.range l.length).map fun i => (a + i, s.mem.get (a + i)) } } := by
        unfold State.keepRow
        rw [hr]
        dsimp only
        rw [hn]
        have : (List.range l.length).filter (fun i => (assoc ([] : List (Nat × Byte)) (a + i)).isNone) = List.range l.length :=
          List.filter_eq_self.2 fun _ _ => rfl
        rw [this]
        rfl
      rw [if_neg hlp, hk]
      generalize hu : State.wantPorts { s with ports := { s.now with olds := (List.range l.length).map fun i => (a + i, s.mem.get (a + i)) } } r a l.length true = u
      have hold : u.now.olds = (List.range l.length).map fun i => (a + i, s.mem.get (a + i)) := by
        rw [← hu, (State.wantPorts_tickKept _ r a l.length true).olds]
        exact congrArg TickRec.olds (State.now_set s { s.now with olds := (List.range l.length).map fun i => (a + i, s.mem.get (a + i)) } (State.now_at s))
      have hold' : ∀ m : Memory, (State.now { u with mem := m }).olds = (List.range l.length).map fun i => (a + i, s.mem.get (a + i)) := fun _ => hold
      unfold State.rowBytes
      rw [hold']
      dsimp only
      split
      · next he =>
        have : l.length = 0 := by simpa using he
        rw [this]
        rfl
      · unfold Memory.read
        apply List.map_congr_left
        intro i hm
        rw [assoc_rows (fun k => s.mem.get (a + k)) a i _ hm]
        rfl

end Sys2Proof.Machine
end

