-- ==== Sys2Proof/Laws/State.lean ====
section
/-! SUPPORT. What each named update of the state leaves as it was (one fact per field, all of them simp lemmas), and what a
register reads as after it is written. -/

namespace Sys2Proof.Machine

/-- `wr` changes only `regs`. -/
@[simp] theorem State.wr_fields (s : State) (a v : Nat) :
    (s.wr a v).pending = s.pending ∧ (s.wr a v).clock = s.clock ∧ (s.wr a v).hiLatch = s.hiLatch ∧
    (s.wr a v).mem = s.mem ∧ (s.wr a v).arrs = s.arrs ∧ (s.wr a v).vecs = s.vecs ∧ (s.wr a v).kstore = s.kstore ∧
    (s.wr a v).movs = s.movs ∧ (s.wr a v).ctxs = s.ctxs ∧ (s.wr a v).slots = s.slots ∧ (s.wr a v).tasks = s.tasks ∧
    (s.wr a v).nextTask = s.nextTask ∧ (s.wr a v).launchQ = s.launchQ ∧ (s.wr a v).programs = s.programs ∧
    (s.wr a v).rinses = s.rinses ∧ (s.wr a v).watches = s.watches ∧ (s.wr a v).brew = s.brew ∧
    (s.wr a v).staging = s.staging ∧ (s.wr a v).streams = s.streams ∧ (s.wr a v).tests = s.tests ∧
    (s.wr a v).urn = s.urn ∧ (s.wr a v).si = s.si ∧ (s.wr a v).tb = s.tb ∧ (s.wr a v).st = s.st ∧
    (s.wr a v).dpps = s.dpps ∧ (s.wr a v).atts = s.atts ∧ (s.wr a v).steps = s.steps ∧ (s.wr a v).tu = s.tu ∧
    (s.wr a v).macHalt = s.macHalt ∧ (s.wr a v).poolBanks = s.poolBanks ∧ (s.wr a v).ctrGroups = s.ctrGroups ∧
    (s.wr a v).sp = s.sp ∧ (s.wr a v).pipes = s.pipes ∧ (s.wr a v).parsers = s.parsers ∧ (s.wr a v).strs = s.strs ∧
    (s.wr a v).repairs = s.repairs ∧ (s.wr a v).wakes = s.wakes ∧ (s.wr a v).caddy = s.caddy ∧
    (s.wr a v).power = s.power ∧ (s.wr a v).macs = s.macs ∧ (s.wr a v).writeBack = s.writeBack ∧
    (s.wr a v).dqs = s.dqs ∧ (s.wr a v).booted = s.booted ∧ (s.wr a v).nextProg = s.nextProg ∧
    (s.wr a v).resp = s.resp ∧ (s.wr a v).out = s.out ∧ (s.wr a v).hwSet = s.hwSet ∧
    (s.wr a v).lateRegs = s.lateRegs ∧ (s.wr a v).tags = s.tags ∧ (s.wr a v).ports = s.ports ∧
    (s.wr a v).spBack = s.spBack ∧ (s.wr a v).owed = s.owed ∧ (s.wr a v).colMaps = s.colMaps ∧ (s.wr a v).l2 = s.l2 ∧
    (s.wr a v).ending = s.ending ∧ (s.wr a v).fresh = s.fresh := by
  repeat (first | exact rfl | refine ⟨rfl, ?_⟩)

/-- `resetRegs` changes only `regs`. -/
@[simp] theorem State.resetRegs_fields (s : State) (lo hi : Nat) :
    (s.resetRegs lo hi).pending = s.pending ∧ (s.resetRegs lo hi).clock = s.clock ∧
    (s.resetRegs lo hi).hiLatch = s.hiLatch ∧ (s.resetRegs lo hi).mem = s.mem ∧ (s.resetRegs lo hi).arrs = s.arrs ∧
    (s.resetRegs lo hi).vecs = s.vecs ∧ (s.resetRegs lo hi).kstore = s.kstore ∧ (s.resetRegs lo hi).movs = s.movs ∧
    (s.resetRegs lo hi).ctxs = s.ctxs ∧ (s.resetRegs lo hi).slots = s.slots ∧ (s.resetRegs lo hi).tasks = s.tasks ∧
    (s.resetRegs lo hi).nextTask = s.nextTask ∧ (s.resetRegs lo hi).launchQ = s.launchQ ∧
    (s.resetRegs lo hi).programs = s.programs ∧ (s.resetRegs lo hi).rinses = s.rinses ∧
    (s.resetRegs lo hi).watches = s.watches ∧ (s.resetRegs lo hi).brew = s.brew ∧
    (s.resetRegs lo hi).staging = s.staging ∧ (s.resetRegs lo hi).streams = s.streams ∧
    (s.resetRegs lo hi).tests = s.tests ∧ (s.resetRegs lo hi).urn = s.urn ∧ (s.resetRegs lo hi).si = s.si ∧
    (s.resetRegs lo hi).tb = s.tb ∧ (s.resetRegs lo hi).st = s.st ∧ (s.resetRegs lo hi).dpps = s.dpps ∧
    (s.resetRegs lo hi).atts = s.atts ∧ (s.resetRegs lo hi).steps = s.steps ∧ (s.resetRegs lo hi).tu = s.tu ∧
    (s.resetRegs lo hi).macHalt = s.macHalt ∧ (s.resetRegs lo hi).poolBanks = s.poolBanks ∧
    (s.resetRegs lo hi).ctrGroups = s.ctrGroups ∧ (s.resetRegs lo hi).sp = s.sp ∧
    (s.resetRegs lo hi).pipes = s.pipes ∧ (s.resetRegs lo hi).parsers = s.parsers ∧
    (s.resetRegs lo hi).strs = s.strs ∧ (s.resetRegs lo hi).repairs = s.repairs ∧
    (s.resetRegs lo hi).wakes = s.wakes ∧ (s.resetRegs lo hi).caddy = s.caddy ∧ (s.resetRegs lo hi).power = s.power ∧
    (s.resetRegs lo hi).macs = s.macs ∧ (s.resetRegs lo hi).writeBack = s.writeBack ∧
    (s.resetRegs lo hi).dqs = s.dqs ∧ (s.resetRegs lo hi).booted = s.booted ∧
    (s.resetRegs lo hi).nextProg = s.nextProg ∧ (s.resetRegs lo hi).resp = s.resp ∧ (s.resetRegs lo hi).out = s.out ∧
    (s.resetRegs lo hi).hwSet = s.hwSet ∧ (s.resetRegs lo hi).lateRegs = s.lateRegs ∧
    (s.resetRegs lo hi).tags = s.tags ∧ (s.resetRegs lo hi).ports = s.ports ∧ (s.resetRegs lo hi).spBack = s.spBack ∧
    (s.resetRegs lo hi).owed = s.owed ∧ (s.resetRegs lo hi).colMaps = s.colMaps ∧ (s.resetRegs lo hi).l2 = s.l2 ∧
    (s.resetRegs lo hi).ending = s.ending ∧ (s.resetRegs lo hi).fresh = s.fresh := by
  repeat (first | exact rfl | refine ⟨rfl, ?_⟩)

/-- `stn` changes only `mem`. -/
@[simp] theorem State.stn_fields (s : State) (a n v : Nat) :
    (s.stn a n v).pending = s.pending ∧ (s.stn a n v).clock = s.clock ∧ (s.stn a n v).regs = s.regs ∧
    (s.stn a n v).hiLatch = s.hiLatch ∧ (s.stn a n v).arrs = s.arrs ∧ (s.stn a n v).vecs = s.vecs ∧
    (s.stn a n v).kstore = s.kstore ∧ (s.stn a n v).movs = s.movs ∧ (s.stn a n v).ctxs = s.ctxs ∧
    (s.stn a n v).slots = s.slots ∧ (s.stn a n v).tasks = s.tasks ∧ (s.stn a n v).nextTask = s.nextTask ∧
    (s.stn a n v).launchQ = s.launchQ ∧ (s.stn a n v).programs = s.programs ∧ (s.stn a n v).rinses = s.rinses ∧
    (s.stn a n v).watches = s.watches ∧ (s.stn a n v).brew = s.brew ∧ (s.stn a n v).staging = s.staging ∧
    (s.stn a n v).streams = s.streams ∧ (s.stn a n v).tests = s.tests ∧ (s.stn a n v).urn = s.urn ∧
    (s.stn a n v).si = s.si ∧ (s.stn a n v).tb = s.tb ∧ (s.stn a n v).st = s.st ∧ (s.stn a n v).dpps = s.dpps ∧
    (s.stn a n v).atts = s.atts ∧ (s.stn a n v).steps = s.steps ∧ (s.stn a n v).tu = s.tu ∧
    (s.stn a n v).macHalt = s.macHalt ∧ (s.stn a n v).poolBanks = s.poolBanks ∧
    (s.stn a n v).ctrGroups = s.ctrGroups ∧ (s.stn a n v).sp = s.sp ∧ (s.stn a n v).pipes = s.pipes ∧
    (s.stn a n v).parsers = s.parsers ∧ (s.stn a n v).strs = s.strs ∧ (s.stn a n v).repairs = s.repairs ∧
    (s.stn a n v).wakes = s.wakes ∧ (s.stn a n v).caddy = s.caddy ∧ (s.stn a n v).power = s.power ∧
    (s.stn a n v).macs = s.macs ∧ (s.stn a n v).writeBack = s.writeBack ∧ (s.stn a n v).dqs = s.dqs ∧
    (s.stn a n v).booted = s.booted ∧ (s.stn a n v).nextProg = s.nextProg ∧ (s.stn a n v).resp = s.resp ∧
    (s.stn a n v).out = s.out ∧ (s.stn a n v).hwSet = s.hwSet ∧ (s.stn a n v).lateRegs = s.lateRegs ∧
    (s.stn a n v).tags = s.tags ∧ (s.stn a n v).ports = s.ports ∧ (s.stn a n v).spBack = s.spBack ∧
    (s.stn a n v).owed = s.owed ∧ (s.stn a n v).colMaps = s.colMaps ∧ (s.stn a n v).l2 = s.l2 ∧
    (s.stn a n v).ending = s.ending ∧ (s.stn a n v).fresh = s.fresh := by
  repeat (first | exact rfl | refine ⟨rfl, ?_⟩)

/-- `stb` changes only `mem`. -/
@[simp] theorem State.stb_fields (s : State) (a : Nat) (l : List Byte) :
    (s.stb a l).pending = s.pending ∧ (s.stb a l).clock = s.clock ∧ (s.stb a l).regs = s.regs ∧
    (s.stb a l).hiLatch = s.hiLatch ∧ (s.stb a l).arrs = s.arrs ∧ (s.stb a l).vecs = s.vecs ∧
    (s.stb a l).kstore = s.kstore ∧ (s.stb a l).movs = s.movs ∧ (s.stb a l).ctxs = s.ctxs ∧
    (s.stb a l).slots = s.slots ∧ (s.stb a l).tasks = s.tasks ∧ (s.stb a l).nextTask = s.nextTask ∧
    (s.stb a l).launchQ = s.launchQ ∧ (s.stb a l).programs = s.programs ∧ (s.stb a l).rinses = s.rinses ∧
    (s.stb a l).watches = s.watches ∧ (s.stb a l).brew = s.brew ∧ (s.stb a l).staging = s.staging ∧
    (s.stb a l).streams = s.streams ∧ (s.stb a l).tests = s.tests ∧ (s.stb a l).urn = s.urn ∧ (s.stb a l).si = s.si ∧
    (s.stb a l).tb = s.tb ∧ (s.stb a l).st = s.st ∧ (s.stb a l).dpps = s.dpps ∧ (s.stb a l).atts = s.atts ∧
    (s.stb a l).steps = s.steps ∧ (s.stb a l).tu = s.tu ∧ (s.stb a l).macHalt = s.macHalt ∧
    (s.stb a l).poolBanks = s.poolBanks ∧ (s.stb a l).ctrGroups = s.ctrGroups ∧ (s.stb a l).sp = s.sp ∧
    (s.stb a l).pipes = s.pipes ∧ (s.stb a l).parsers = s.parsers ∧ (s.stb a l).strs = s.strs ∧
    (s.stb a l).repairs = s.repairs ∧ (s.stb a l).wakes = s.wakes ∧ (s.stb a l).caddy = s.caddy ∧
    (s.stb a l).power = s.power ∧ (s.stb a l).macs = s.macs ∧ (s.stb a l).writeBack = s.writeBack ∧
    (s.stb a l).dqs = s.dqs ∧ (s.stb a l).booted = s.booted ∧ (s.stb a l).nextProg = s.nextProg ∧
    (s.stb a l).resp = s.resp ∧ (s.stb a l).out = s.out ∧ (s.stb a l).hwSet = s.hwSet ∧
    (s.stb a l).lateRegs = s.lateRegs ∧ (s.stb a l).tags = s.tags ∧ (s.stb a l).ports = s.ports ∧
    (s.stb a l).spBack = s.spBack ∧ (s.stb a l).owed = s.owed ∧ (s.stb a l).colMaps = s.colMaps ∧
    (s.stb a l).l2 = s.l2 ∧ (s.stb a l).ending = s.ending ∧ (s.stb a l).fresh = s.fresh := by
  repeat (first | exact rfl | refine ⟨rfl, ?_⟩)

/-- `setAnchor` changes only `mem`. -/
@[simp] theorem State.setAnchor_fields (s : State) (a v : Nat) :
    (s.setAnchor a v).pending = s.pending ∧ (s.setAnchor a v).clock = s.clock ∧ (s.setAnchor a v).regs = s.regs ∧
    (s.setAnchor a v).hiLatch = s.hiLatch ∧ (s.setAnchor a v).arrs = s.arrs ∧ (s.setAnchor a v).vecs = s.vecs ∧
    (s.setAnchor a v).kstore = s.kstore ∧ (s.setAnchor a v).movs = s.movs ∧ (s.setAnchor a v).ctxs = s.ctxs ∧
    (s.setAnchor a v).slots = s.slots ∧ (s.setAnchor a v).tasks = s.tasks ∧ (s.setAnchor a v).nextTask = s.nextTask ∧
    (s.setAnchor a v).launchQ = s.launchQ ∧ (s.setAnchor a v).programs = s.programs ∧
    (s.setAnchor a v).rinses = s.rinses ∧ (s.setAnchor a v).watches = s.watches ∧ (s.setAnchor a v).brew = s.brew ∧
    (s.setAnchor a v).staging = s.staging ∧ (s.setAnchor a v).streams = s.streams ∧
    (s.setAnchor a v).tests = s.tests ∧ (s.setAnchor a v).urn = s.urn ∧ (s.setAnchor a v).si = s.si ∧
    (s.setAnchor a v).tb = s.tb ∧ (s.setAnchor a v).st = s.st ∧ (s.setAnchor a v).dpps = s.dpps ∧
    (s.setAnchor a v).atts = s.atts ∧ (s.setAnchor a v).steps = s.steps ∧ (s.setAnchor a v).tu = s.tu ∧
    (s.setAnchor a v).macHalt = s.macHalt ∧ (s.setAnchor a v).poolBanks = s.poolBanks ∧
    (s.setAnchor a v).ctrGroups = s.ctrGroups ∧ (s.setAnchor a v).sp = s.sp ∧ (s.setAnchor a v).pipes = s.pipes ∧
    (s.setAnchor a v).parsers = s.parsers ∧ (s.setAnchor a v).strs = s.strs ∧ (s.setAnchor a v).repairs = s.repairs ∧
    (s.setAnchor a v).wakes = s.wakes ∧ (s.setAnchor a v).caddy = s.caddy ∧ (s.setAnchor a v).power = s.power ∧
    (s.setAnchor a v).macs = s.macs ∧ (s.setAnchor a v).writeBack = s.writeBack ∧ (s.setAnchor a v).dqs = s.dqs ∧
    (s.setAnchor a v).booted = s.booted ∧ (s.setAnchor a v).nextProg = s.nextProg ∧ (s.setAnchor a v).resp = s.resp ∧
    (s.setAnchor a v).out = s.out ∧ (s.setAnchor a v).hwSet = s.hwSet ∧ (s.setAnchor a v).lateRegs = s.lateRegs ∧
    (s.setAnchor a v).tags = s.tags ∧ (s.setAnchor a v).ports = s.ports ∧ (s.setAnchor a v).spBack = s.spBack ∧
    (s.setAnchor a v).owed = s.owed ∧ (s.setAnchor a v).colMaps = s.colMaps ∧ (s.setAnchor a v).l2 = s.l2 ∧
    (s.setAnchor a v).ending = s.ending ∧ (s.setAnchor a v).fresh = s.fresh := by
  repeat (first | exact rfl | refine ⟨rfl, ?_⟩)

/-- `setArr` changes only `arrs`. -/
@[simp] theorem State.setArr_fields (s : State) (c a : Nat) (v : Arr) :
    (s.setArr c a v).pending = s.pending ∧ (s.setArr c a v).clock = s.clock ∧ (s.setArr c a v).regs = s.regs ∧
    (s.setArr c a v).hiLatch = s.hiLatch ∧ (s.setArr c a v).mem = s.mem ∧ (s.setArr c a v).vecs = s.vecs ∧
    (s.setArr c a v).kstore = s.kstore ∧ (s.setArr c a v).movs = s.movs ∧ (s.setArr c a v).ctxs = s.ctxs ∧
    (s.setArr c a v).slots = s.slots ∧ (s.setArr c a v).tasks = s.tasks ∧ (s.setArr c a v).nextTask = s.nextTask ∧
    (s.setArr c a v).launchQ = s.launchQ ∧ (s.setArr c a v).programs = s.programs ∧
    (s.setArr c a v).rinses = s.rinses ∧ (s.setArr c a v).watches = s.watches ∧ (s.setArr c a v).brew = s.brew ∧
    (s.setArr c a v).staging = s.staging ∧ (s.setArr c a v).streams = s.streams ∧ (s.setArr c a v).tests = s.tests ∧
    (s.setArr c a v).urn = s.urn ∧ (s.setArr c a v).si = s.si ∧ (s.setArr c a v).tb = s.tb ∧
    (s.setArr c a v).st = s.st ∧ (s.setArr c a v).dpps = s.dpps ∧ (s.setArr c a v).atts = s.atts ∧
    (s.setArr c a v).steps = s.steps ∧ (s.setArr c a v).tu = s.tu ∧ (s.setArr c a v).macHalt = s.macHalt ∧
    (s.setArr c a v).poolBanks = s.poolBanks ∧ (s.setArr c a v).ctrGroups = s.ctrGroups ∧ (s.setArr c a v).sp = s.sp ∧
    (s.setArr c a v).pipes = s.pipes ∧ (s.setArr c a v).parsers = s.parsers ∧ (s.setArr c a v).strs = s.strs ∧
    (s.setArr c a v).repairs = s.repairs ∧ (s.setArr c a v).wakes = s.wakes ∧ (s.setArr c a v).caddy = s.caddy ∧
    (s.setArr c a v).power = s.power ∧ (s.setArr c a v).macs = s.macs ∧ (s.setArr c a v).writeBack = s.writeBack ∧
    (s.setArr c a v).dqs = s.dqs ∧ (s.setArr c a v).booted = s.booted ∧ (s.setArr c a v).nextProg = s.nextProg ∧
    (s.setArr c a v).resp = s.resp ∧ (s.setArr c a v).out = s.out ∧ (s.setArr c a v).hwSet = s.hwSet ∧
    (s.setArr c a v).lateRegs = s.lateRegs ∧ (s.setArr c a v).tags = s.tags ∧ (s.setArr c a v).ports = s.ports ∧
    (s.setArr c a v).spBack = s.spBack ∧ (s.setArr c a v).owed = s.owed ∧ (s.setArr c a v).colMaps = s.colMaps ∧
    (s.setArr c a v).l2 = s.l2 ∧ (s.setArr c a v).ending = s.ending ∧ (s.setArr c a v).fresh = s.fresh := by
  repeat (first | exact rfl | refine ⟨rfl, ?_⟩)

/-- `setVec` changes only `vecs`. -/
@[simp] theorem State.setVec_fields (s : State) (c e : Nat) (v : Vec) :
    (s.setVec c e v).pending = s.pending ∧ (s.setVec c e v).clock = s.clock ∧ (s.setVec c e v).regs = s.regs ∧
    (s.setVec c e v).hiLatch = s.hiLatch ∧ (s.setVec c e v).mem = s.mem ∧ (s.setVec c e v).arrs = s.arrs ∧
    (s.setVec c e v).kstore = s.kstore ∧ (s.setVec c e v).movs = s.movs ∧ (s.setVec c e v).ctxs = s.ctxs ∧
    (s.setVec c e v).slots = s.slots ∧ (s.setVec c e v).tasks = s.tasks ∧ (s.setVec c e v).nextTask = s.nextTask ∧
    (s.setVec c e v).launchQ = s.launchQ ∧ (s.setVec c e v).programs = s.programs ∧
    (s.setVec c e v).rinses = s.rinses ∧ (s.setVec c e v).watches = s.watches ∧ (s.setVec c e v).brew = s.brew ∧
    (s.setVec c e v).staging = s.staging ∧ (s.setVec c e v).streams = s.streams ∧ (s.setVec c e v).tests = s.tests ∧
    (s.setVec c e v).urn = s.urn ∧ (s.setVec c e v).si = s.si ∧ (s.setVec c e v).tb = s.tb ∧
    (s.setVec c e v).st = s.st ∧ (s.setVec c e v).dpps = s.dpps ∧ (s.setVec c e v).atts = s.atts ∧
    (s.setVec c e v).steps = s.steps ∧ (s.setVec c e v).tu = s.tu ∧ (s.setVec c e v).macHalt = s.macHalt ∧
    (s.setVec c e v).poolBanks = s.poolBanks ∧ (s.setVec c e v).ctrGroups = s.ctrGroups ∧ (s.setVec c e v).sp = s.sp ∧
    (s.setVec c e v).pipes = s.pipes ∧ (s.setVec c e v).parsers = s.parsers ∧ (s.setVec c e v).strs = s.strs ∧
    (s.setVec c e v).repairs = s.repairs ∧ (s.setVec c e v).wakes = s.wakes ∧ (s.setVec c e v).caddy = s.caddy ∧
    (s.setVec c e v).power = s.power ∧ (s.setVec c e v).macs = s.macs ∧ (s.setVec c e v).writeBack = s.writeBack ∧
    (s.setVec c e v).dqs = s.dqs ∧ (s.setVec c e v).booted = s.booted ∧ (s.setVec c e v).nextProg = s.nextProg ∧
    (s.setVec c e v).resp = s.resp ∧ (s.setVec c e v).out = s.out ∧ (s.setVec c e v).hwSet = s.hwSet ∧
    (s.setVec c e v).lateRegs = s.lateRegs ∧ (s.setVec c e v).tags = s.tags ∧ (s.setVec c e v).ports = s.ports ∧
    (s.setVec c e v).spBack = s.spBack ∧ (s.setVec c e v).owed = s.owed ∧ (s.setVec c e v).colMaps = s.colMaps ∧
    (s.setVec c e v).l2 = s.l2 ∧ (s.setVec c e v).ending = s.ending ∧ (s.setVec c e v).fresh = s.fresh := by
  repeat (first | exact rfl | refine ⟨rfl, ?_⟩)

/-- `setChan` changes only `movs`. -/
@[simp] theorem State.setChan_fields (s : State) (c n : Nat) (v : MovChan) :
    (s.setChan c n v).pending = s.pending ∧ (s.setChan c n v).clock = s.clock ∧ (s.setChan c n v).regs = s.regs ∧
    (s.setChan c n v).hiLatch = s.hiLatch ∧ (s.setChan c n v).mem = s.mem ∧ (s.setChan c n v).arrs = s.arrs ∧
    (s.setChan c n v).vecs = s.vecs ∧ (s.setChan c n v).kstore = s.kstore ∧ (s.setChan c n v).ctxs = s.ctxs ∧
    (s.setChan c n v).slots = s.slots ∧ (s.setChan c n v).tasks = s.tasks ∧ (s.setChan c n v).nextTask = s.nextTask ∧
    (s.setChan c n v).launchQ = s.launchQ ∧ (s.setChan c n v).programs = s.programs ∧
    (s.setChan c n v).rinses = s.rinses ∧ (s.setChan c n v).watches = s.watches ∧ (s.setChan c n v).brew = s.brew ∧
    (s.setChan c n v).staging = s.staging ∧ (s.setChan c n v).streams = s.streams ∧
    (s.setChan c n v).tests = s.tests ∧ (s.setChan c n v).urn = s.urn ∧ (s.setChan c n v).si = s.si ∧
    (s.setChan c n v).tb = s.tb ∧ (s.setChan c n v).st = s.st ∧ (s.setChan c n v).dpps = s.dpps ∧
    (s.setChan c n v).atts = s.atts ∧ (s.setChan c n v).steps = s.steps ∧ (s.setChan c n v).tu = s.tu ∧
    (s.setChan c n v).macHalt = s.macHalt ∧ (s.setChan c n v).poolBanks = s.poolBanks ∧
    (s.setChan c n v).ctrGroups = s.ctrGroups ∧ (s.setChan c n v).sp = s.sp ∧ (s.setChan c n v).pipes = s.pipes ∧
    (s.setChan c n v).parsers = s.parsers ∧ (s.setChan c n v).strs = s.strs ∧ (s.setChan c n v).repairs = s.repairs ∧
    (s.setChan c n v).wakes = s.wakes ∧ (s.setChan c n v).caddy = s.caddy ∧ (s.setChan c n v).power = s.power ∧
    (s.setChan c n v).macs = s.macs ∧ (s.setChan c n v).writeBack = s.writeBack ∧ (s.setChan c n v).dqs = s.dqs ∧
    (s.setChan c n v).booted = s.booted ∧ (s.setChan c n v).nextProg = s.nextProg ∧ (s.setChan c n v).resp = s.resp ∧
    (s.setChan c n v).out = s.out ∧ (s.setChan c n v).hwSet = s.hwSet ∧ (s.setChan c n v).lateRegs = s.lateRegs ∧
    (s.setChan c n v).tags = s.tags ∧ (s.setChan c n v).ports = s.ports ∧ (s.setChan c n v).spBack = s.spBack ∧
    (s.setChan c n v).owed = s.owed ∧ (s.setChan c n v).colMaps = s.colMaps ∧ (s.setChan c n v).l2 = s.l2 ∧
    (s.setChan c n v).ending = s.ending ∧ (s.setChan c n v).fresh = s.fresh := by
  repeat (first | exact rfl | refine ⟨rfl, ?_⟩)

/-- `setCtx` changes only `ctxs`. -/
@[simp] theorem State.setCtx_fields (s : State) (c x : Nat) (v : Ctx) :
    (s.setCtx c x v).pending = s.pending ∧ (s.setCtx c x v).clock = s.clock ∧ (s.setCtx c x v).regs = s.regs ∧
    (s.setCtx c x v).hiLatch = s.hiLatch ∧ (s.setCtx c x v).mem = s.mem ∧ (s.setCtx c x v).arrs = s.arrs ∧
    (s.setCtx c x v).vecs = s.vecs ∧ (s.setCtx c x v).kstore = s.kstore ∧ (s.setCtx c x v).movs = s.movs ∧
    (s.setCtx c x v).slots = s.slots ∧ (s.setCtx c x v).tasks = s.tasks ∧ (s.setCtx c x v).nextTask = s.nextTask ∧
    (s.setCtx c x v).launchQ = s.launchQ ∧ (s.setCtx c x v).programs = s.programs ∧
    (s.setCtx c x v).rinses = s.rinses ∧ (s.setCtx c x v).watches = s.watches ∧ (s.setCtx c x v).brew = s.brew ∧
    (s.setCtx c x v).staging = s.staging ∧ (s.setCtx c x v).streams = s.streams ∧ (s.setCtx c x v).tests = s.tests ∧
    (s.setCtx c x v).urn = s.urn ∧ (s.setCtx c x v).si = s.si ∧ (s.setCtx c x v).tb = s.tb ∧
    (s.setCtx c x v).st = s.st ∧ (s.setCtx c x v).dpps = s.dpps ∧ (s.setCtx c x v).atts = s.atts ∧
    (s.setCtx c x v).steps = s.steps ∧ (s.setCtx c x v).tu = s.tu ∧ (s.setCtx c x v).macHalt = s.macHalt ∧
    (s.setCtx c x v).poolBanks = s.poolBanks ∧ (s.setCtx c x v).ctrGroups = s.ctrGroups ∧ (s.setCtx c x v).sp = s.sp ∧
    (s.setCtx c x v).pipes = s.pipes ∧ (s.setCtx c x v).parsers = s.parsers ∧ (s.setCtx c x v).strs = s.strs ∧
    (s.setCtx c x v).repairs = s.repairs ∧ (s.setCtx c x v).wakes = s.wakes ∧ (s.setCtx c x v).caddy = s.caddy ∧
    (s.setCtx c x v).power = s.power ∧ (s.setCtx c x v).macs = s.macs ∧ (s.setCtx c x v).writeBack = s.writeBack ∧
    (s.setCtx c x v).dqs = s.dqs ∧ (s.setCtx c x v).booted = s.booted ∧ (s.setCtx c x v).nextProg = s.nextProg ∧
    (s.setCtx c x v).resp = s.resp ∧ (s.setCtx c x v).out = s.out ∧ (s.setCtx c x v).hwSet = s.hwSet ∧
    (s.setCtx c x v).lateRegs = s.lateRegs ∧ (s.setCtx c x v).tags = s.tags ∧ (s.setCtx c x v).ports = s.ports ∧
    (s.setCtx c x v).spBack = s.spBack ∧ (s.setCtx c x v).owed = s.owed ∧ (s.setCtx c x v).colMaps = s.colMaps ∧
    (s.setCtx c x v).l2 = s.l2 ∧ (s.setCtx c x v).ending = s.ending ∧ (s.setCtx c x v).fresh = s.fresh := by
  repeat (first | exact rfl | refine ⟨rfl, ?_⟩)

/-- `setSlot` changes only `slots`. -/
@[simp] theorem State.setSlot_fields (s : State) (c n : Nat) (v : Slot) :
    (s.setSlot c n v).pending = s.pending ∧ (s.setSlot c n v).clock = s.clock ∧ (s.setSlot c n v).regs = s.regs ∧
    (s.setSlot c n v).hiLatch = s.hiLatch ∧ (s.setSlot c n v).mem = s.mem ∧ (s.setSlot c n v).arrs = s.arrs ∧
    (s.setSlot c n v).vecs = s.vecs ∧ (s.setSlot c n v).kstore = s.kstore ∧ (s.setSlot c n v).movs = s.movs ∧
    (s.setSlot c n v).ctxs = s.ctxs ∧ (s.setSlot c n v).tasks = s.tasks ∧ (s.setSlot c n v).nextTask = s.nextTask ∧
    (s.setSlot c n v).launchQ = s.launchQ ∧ (s.setSlot c n v).programs = s.programs ∧
    (s.setSlot c n v).rinses = s.rinses ∧ (s.setSlot c n v).watches = s.watches ∧ (s.setSlot c n v).brew = s.brew ∧
    (s.setSlot c n v).staging = s.staging ∧ (s.setSlot c n v).streams = s.streams ∧
    (s.setSlot c n v).tests = s.tests ∧ (s.setSlot c n v).urn = s.urn ∧ (s.setSlot c n v).si = s.si ∧
    (s.setSlot c n v).tb = s.tb ∧ (s.setSlot c n v).st = s.st ∧ (s.setSlot c n v).dpps = s.dpps ∧
    (s.setSlot c n v).atts = s.atts ∧ (s.setSlot c n v).steps = s.steps ∧ (s.setSlot c n v).tu = s.tu ∧
    (s.setSlot c n v).macHalt = s.macHalt ∧ (s.setSlot c n v).poolBanks = s.poolBanks ∧
    (s.setSlot c n v).ctrGroups = s.ctrGroups ∧ (s.setSlot c n v).sp = s.sp ∧ (s.setSlot c n v).pipes = s.pipes ∧
    (s.setSlot c n v).parsers = s.parsers ∧ (s.setSlot c n v).strs = s.strs ∧ (s.setSlot c n v).repairs = s.repairs ∧
    (s.setSlot c n v).wakes = s.wakes ∧ (s.setSlot c n v).caddy = s.caddy ∧ (s.setSlot c n v).power = s.power ∧
    (s.setSlot c n v).macs = s.macs ∧ (s.setSlot c n v).writeBack = s.writeBack ∧ (s.setSlot c n v).dqs = s.dqs ∧
    (s.setSlot c n v).booted = s.booted ∧ (s.setSlot c n v).nextProg = s.nextProg ∧ (s.setSlot c n v).resp = s.resp ∧
    (s.setSlot c n v).out = s.out ∧ (s.setSlot c n v).hwSet = s.hwSet ∧ (s.setSlot c n v).lateRegs = s.lateRegs ∧
    (s.setSlot c n v).tags = s.tags ∧ (s.setSlot c n v).ports = s.ports ∧ (s.setSlot c n v).spBack = s.spBack ∧
    (s.setSlot c n v).owed = s.owed ∧ (s.setSlot c n v).colMaps = s.colMaps ∧ (s.setSlot c n v).l2 = s.l2 ∧
    (s.setSlot c n v).ending = s.ending ∧ (s.setSlot c n v).fresh = s.fresh := by
  repeat (first | exact rfl | refine ⟨rfl, ?_⟩)

/-- `modTask` changes only `tasks`. -/
@[simp] theorem State.modTask_fields (s : State) (t : Nat) (f : Task → Task) :
    (s.modTask t f).pending = s.pending ∧ (s.modTask t f).clock = s.clock ∧ (s.modTask t f).regs = s.regs ∧
    (s.modTask t f).hiLatch = s.hiLatch ∧ (s.modTask t f).mem = s.mem ∧ (s.modTask t f).arrs = s.arrs ∧
    (s.modTask t f).vecs = s.vecs ∧ (s.modTask t f).kstore = s.kstore ∧ (s.modTask t f).movs = s.movs ∧
    (s.modTask t f).ctxs = s.ctxs ∧ (s.modTask t f).slots = s.slots ∧ (s.modTask t f).nextTask = s.nextTask ∧
    (s.modTask t f).launchQ = s.launchQ ∧ (s.modTask t f).programs = s.programs ∧ (s.modTask t f).rinses = s.rinses ∧
    (s.modTask t f).watches = s.watches ∧ (s.modTask t f).brew = s.brew ∧ (s.modTask t f).staging = s.staging ∧
    (s.modTask t f).streams = s.streams ∧ (s.modTask t f).tests = s.tests ∧ (s.modTask t f).urn = s.urn ∧
    (s.modTask t f).si = s.si ∧ (s.modTask t f).tb = s.tb ∧ (s.modTask t f).st = s.st ∧
    (s.modTask t f).dpps = s.dpps ∧ (s.modTask t f).atts = s.atts ∧ (s.modTask t f).steps = s.steps ∧
    (s.modTask t f).tu = s.tu ∧ (s.modTask t f).macHalt = s.macHalt ∧ (s.modTask t f).poolBanks = s.poolBanks ∧
    (s.modTask t f).ctrGroups = s.ctrGroups ∧ (s.modTask t f).sp = s.sp ∧ (s.modTask t f).pipes = s.pipes ∧
    (s.modTask t f).parsers = s.parsers ∧ (s.modTask t f).strs = s.strs ∧ (s.modTask t f).repairs = s.repairs ∧
    (s.modTask t f).wakes = s.wakes ∧ (s.modTask t f).caddy = s.caddy ∧ (s.modTask t f).power = s.power ∧
    (s.modTask t f).macs = s.macs ∧ (s.modTask t f).writeBack = s.writeBack ∧ (s.modTask t f).dqs = s.dqs ∧
    (s.modTask t f).booted = s.booted ∧ (s.modTask t f).nextProg = s.nextProg ∧ (s.modTask t f).resp = s.resp ∧
    (s.modTask t f).out = s.out ∧ (s.modTask t f).hwSet = s.hwSet ∧ (s.modTask t f).lateRegs = s.lateRegs ∧
    (s.modTask t f).tags = s.tags ∧ (s.modTask t f).ports = s.ports ∧ (s.modTask t f).spBack = s.spBack ∧
    (s.modTask t f).owed = s.owed ∧ (s.modTask t f).colMaps = s.colMaps ∧ (s.modTask t f).l2 = s.l2 ∧
    (s.modTask t f).ending = s.ending ∧ (s.modTask t f).fresh = s.fresh := by
  repeat (first | exact rfl | refine ⟨rfl, ?_⟩)

/-- `setDsp` changes only `brew`. -/
@[simp] theorem State.setDsp_fields (s : State) (p : Nat) (v : Brew) :
    (s.setDsp p v).pending = s.pending ∧ (s.setDsp p v).clock = s.clock ∧ (s.setDsp p v).regs = s.regs ∧
    (s.setDsp p v).hiLatch = s.hiLatch ∧ (s.setDsp p v).mem = s.mem ∧ (s.setDsp p v).arrs = s.arrs ∧
    (s.setDsp p v).vecs = s.vecs ∧ (s.setDsp p v).kstore = s.kstore ∧ (s.setDsp p v).movs = s.movs ∧
    (s.setDsp p v).ctxs = s.ctxs ∧ (s.setDsp p v).slots = s.slots ∧ (s.setDsp p v).tasks = s.tasks ∧
    (s.setDsp p v).nextTask = s.nextTask ∧ (s.setDsp p v).launchQ = s.launchQ ∧ (s.setDsp p v).programs = s.programs ∧
    (s.setDsp p v).rinses = s.rinses ∧ (s.setDsp p v).watches = s.watches ∧ (s.setDsp p v).staging = s.staging ∧
    (s.setDsp p v).streams = s.streams ∧ (s.setDsp p v).tests = s.tests ∧ (s.setDsp p v).urn = s.urn ∧
    (s.setDsp p v).si = s.si ∧ (s.setDsp p v).tb = s.tb ∧ (s.setDsp p v).st = s.st ∧ (s.setDsp p v).dpps = s.dpps ∧
    (s.setDsp p v).atts = s.atts ∧ (s.setDsp p v).steps = s.steps ∧ (s.setDsp p v).tu = s.tu ∧
    (s.setDsp p v).macHalt = s.macHalt ∧ (s.setDsp p v).poolBanks = s.poolBanks ∧
    (s.setDsp p v).ctrGroups = s.ctrGroups ∧ (s.setDsp p v).sp = s.sp ∧ (s.setDsp p v).pipes = s.pipes ∧
    (s.setDsp p v).parsers = s.parsers ∧ (s.setDsp p v).strs = s.strs ∧ (s.setDsp p v).repairs = s.repairs ∧
    (s.setDsp p v).wakes = s.wakes ∧ (s.setDsp p v).caddy = s.caddy ∧ (s.setDsp p v).power = s.power ∧
    (s.setDsp p v).macs = s.macs ∧ (s.setDsp p v).writeBack = s.writeBack ∧ (s.setDsp p v).dqs = s.dqs ∧
    (s.setDsp p v).booted = s.booted ∧ (s.setDsp p v).nextProg = s.nextProg ∧ (s.setDsp p v).resp = s.resp ∧
    (s.setDsp p v).out = s.out ∧ (s.setDsp p v).hwSet = s.hwSet ∧ (s.setDsp p v).lateRegs = s.lateRegs ∧
    (s.setDsp p v).tags = s.tags ∧ (s.setDsp p v).ports = s.ports ∧ (s.setDsp p v).spBack = s.spBack ∧
    (s.setDsp p v).owed = s.owed ∧ (s.setDsp p v).colMaps = s.colMaps ∧ (s.setDsp p v).l2 = s.l2 ∧
    (s.setDsp p v).ending = s.ending ∧ (s.setDsp p v).fresh = s.fresh := by
  repeat (first | exact rfl | refine ⟨rfl, ?_⟩)

/-- `setStage` changes only `staging`. -/
@[simp] theorem State.setStage_fields (s : State) (p q : Nat) (v : List Staged) :
    (s.setStage p q v).pending = s.pending ∧ (s.setStage p q v).clock = s.clock ∧ (s.setStage p q v).regs = s.regs ∧
    (s.setStage p q v).hiLatch = s.hiLatch ∧ (s.setStage p q v).mem = s.mem ∧ (s.setStage p q v).arrs = s.arrs ∧
    (s.setStage p q v).vecs = s.vecs ∧ (s.setStage p q v).kstore = s.kstore ∧ (s.setStage p q v).movs = s.movs ∧
    (s.setStage p q v).ctxs = s.ctxs ∧ (s.setStage p q v).slots = s.slots ∧ (s.setStage p q v).tasks = s.tasks ∧
    (s.setStage p q v).nextTask = s.nextTask ∧ (s.setStage p q v).launchQ = s.launchQ ∧
    (s.setStage p q v).programs = s.programs ∧ (s.setStage p q v).rinses = s.rinses ∧
    (s.setStage p q v).watches = s.watches ∧ (s.setStage p q v).brew = s.brew ∧
    (s.setStage p q v).streams = s.streams ∧ (s.setStage p q v).tests = s.tests ∧ (s.setStage p q v).urn = s.urn ∧
    (s.setStage p q v).si = s.si ∧ (s.setStage p q v).tb = s.tb ∧ (s.setStage p q v).st = s.st ∧
    (s.setStage p q v).dpps = s.dpps ∧ (s.setStage p q v).atts = s.atts ∧ (s.setStage p q v).steps = s.steps ∧
    (s.setStage p q v).tu = s.tu ∧ (s.setStage p q v).macHalt = s.macHalt ∧
    (s.setStage p q v).poolBanks = s.poolBanks ∧ (s.setStage p q v).ctrGroups = s.ctrGroups ∧
    (s.setStage p q v).sp = s.sp ∧ (s.setStage p q v).pipes = s.pipes ∧ (s.setStage p q v).parsers = s.parsers ∧
    (s.setStage p q v).strs = s.strs ∧ (s.setStage p q v).repairs = s.repairs ∧ (s.setStage p q v).wakes = s.wakes ∧
    (s.setStage p q v).caddy = s.caddy ∧ (s.setStage p q v).power = s.power ∧ (s.setStage p q v).macs = s.macs ∧
    (s.setStage p q v).writeBack = s.writeBack ∧ (s.setStage p q v).dqs = s.dqs ∧
    (s.setStage p q v).booted = s.booted ∧ (s.setStage p q v).nextProg = s.nextProg ∧
    (s.setStage p q v).resp = s.resp ∧ (s.setStage p q v).out = s.out ∧ (s.setStage p q v).hwSet = s.hwSet ∧
    (s.setStage p q v).lateRegs = s.lateRegs ∧ (s.setStage p q v).tags = s.tags ∧ (s.setStage p q v).ports = s.ports ∧
    (s.setStage p q v).spBack = s.spBack ∧ (s.setStage p q v).owed = s.owed ∧ (s.setStage p q v).colMaps = s.colMaps ∧
    (s.setStage p q v).l2 = s.l2 ∧ (s.setStage p q v).ending = s.ending ∧ (s.setStage p q v).fresh = s.fresh := by
  repeat (first | exact rfl | refine ⟨rfl, ?_⟩)

/-- `send` changes only `out`. -/
@[simp] theorem State.send_fields (s : State) (o : Out) :
    (s.send o).pending = s.pending ∧ (s.send o).clock = s.clock ∧ (s.send o).regs = s.regs ∧
    (s.send o).hiLatch = s.hiLatch ∧ (s.send o).mem = s.mem ∧ (s.send o).arrs = s.arrs ∧ (s.send o).vecs = s.vecs ∧
    (s.send o).kstore = s.kstore ∧ (s.send o).movs = s.movs ∧ (s.send o).ctxs = s.ctxs ∧ (s.send o).slots = s.slots ∧
    (s.send o).tasks = s.tasks ∧ (s.send o).nextTask = s.nextTask ∧ (s.send o).launchQ = s.launchQ ∧
    (s.send o).programs = s.programs ∧ (s.send o).rinses = s.rinses ∧ (s.send o).watches = s.watches ∧
    (s.send o).brew = s.brew ∧ (s.send o).staging = s.staging ∧ (s.send o).streams = s.streams ∧
    (s.send o).tests = s.tests ∧ (s.send o).urn = s.urn ∧ (s.send o).si = s.si ∧ (s.send o).tb = s.tb ∧
    (s.send o).st = s.st ∧ (s.send o).dpps = s.dpps ∧ (s.send o).atts = s.atts ∧ (s.send o).steps = s.steps ∧
    (s.send o).tu = s.tu ∧ (s.send o).macHalt = s.macHalt ∧ (s.send o).poolBanks = s.poolBanks ∧
    (s.send o).ctrGroups = s.ctrGroups ∧ (s.send o).sp = s.sp ∧ (s.send o).pipes = s.pipes ∧
    (s.send o).parsers = s.parsers ∧ (s.send o).strs = s.strs ∧ (s.send o).repairs = s.repairs ∧
    (s.send o).wakes = s.wakes ∧ (s.send o).caddy = s.caddy ∧ (s.send o).power = s.power ∧ (s.send o).macs = s.macs ∧
    (s.send o).writeBack = s.writeBack ∧ (s.send o).dqs = s.dqs ∧ (s.send o).booted = s.booted ∧
    (s.send o).nextProg = s.nextProg ∧ (s.send o).resp = s.resp ∧ (s.send o).hwSet = s.hwSet ∧
    (s.send o).lateRegs = s.lateRegs ∧ (s.send o).tags = s.tags ∧ (s.send o).ports = s.ports ∧
    (s.send o).spBack = s.spBack ∧ (s.send o).owed = s.owed ∧ (s.send o).colMaps = s.colMaps ∧ (s.send o).l2 = s.l2 ∧
    (s.send o).ending = s.ending ∧ (s.send o).fresh = s.fresh := by
  repeat (first | exact rfl | refine ⟨rfl, ?_⟩)

/-- `answer` changes only `resp`. -/
@[simp] theorem State.answer_fields (s : State) (q : Requester) (st : RespStatus) (d : List Byte) :
    (s.answer q st d).pending = s.pending ∧ (s.answer q st d).clock = s.clock ∧ (s.answer q st d).regs = s.regs ∧
    (s.answer q st d).hiLatch = s.hiLatch ∧ (s.answer q st d).mem = s.mem ∧ (s.answer q st d).arrs = s.arrs ∧
    (s.answer q st d).vecs = s.vecs ∧ (s.answer q st d).kstore = s.kstore ∧ (s.answer q st d).movs = s.movs ∧
    (s.answer q st d).ctxs = s.ctxs ∧ (s.answer q st d).slots = s.slots ∧ (s.answer q st d).tasks = s.tasks ∧
    (s.answer q st d).nextTask = s.nextTask ∧ (s.answer q st d).launchQ = s.launchQ ∧
    (s.answer q st d).programs = s.programs ∧ (s.answer q st d).rinses = s.rinses ∧
    (s.answer q st d).watches = s.watches ∧ (s.answer q st d).brew = s.brew ∧ (s.answer q st d).staging = s.staging ∧
    (s.answer q st d).streams = s.streams ∧ (s.answer q st d).tests = s.tests ∧ (s.answer q st d).urn = s.urn ∧
    (s.answer q st d).si = s.si ∧ (s.answer q st d).tb = s.tb ∧ (s.answer q st d).st = s.st ∧
    (s.answer q st d).dpps = s.dpps ∧ (s.answer q st d).atts = s.atts ∧ (s.answer q st d).steps = s.steps ∧
    (s.answer q st d).tu = s.tu ∧ (s.answer q st d).macHalt = s.macHalt ∧ (s.answer q st d).poolBanks = s.poolBanks ∧
    (s.answer q st d).ctrGroups = s.ctrGroups ∧ (s.answer q st d).sp = s.sp ∧ (s.answer q st d).pipes = s.pipes ∧
    (s.answer q st d).parsers = s.parsers ∧ (s.answer q st d).strs = s.strs ∧ (s.answer q st d).repairs = s.repairs ∧
    (s.answer q st d).wakes = s.wakes ∧ (s.answer q st d).caddy = s.caddy ∧ (s.answer q st d).power = s.power ∧
    (s.answer q st d).macs = s.macs ∧ (s.answer q st d).writeBack = s.writeBack ∧ (s.answer q st d).dqs = s.dqs ∧
    (s.answer q st d).booted = s.booted ∧ (s.answer q st d).nextProg = s.nextProg ∧ (s.answer q st d).out = s.out ∧
    (s.answer q st d).hwSet = s.hwSet ∧ (s.answer q st d).lateRegs = s.lateRegs ∧ (s.answer q st d).tags = s.tags ∧
    (s.answer q st d).ports = s.ports ∧ (s.answer q st d).spBack = s.spBack ∧ (s.answer q st d).owed = s.owed ∧
    (s.answer q st d).colMaps = s.colMaps ∧ (s.answer q st d).l2 = s.l2 ∧ (s.answer q st d).ending = s.ending ∧
    (s.answer q st d).fresh = s.fresh := by
  repeat (first | exact rfl | refine ⟨rfl, ?_⟩)

/-- `draw` changes only `fresh`. -/
@[simp] theorem State.draw_fields (s : State) :
    (s.draw).pending = s.pending ∧ (s.draw).clock = s.clock ∧ (s.draw).regs = s.regs ∧ (s.draw).hiLatch = s.hiLatch ∧
    (s.draw).mem = s.mem ∧ (s.draw).arrs = s.arrs ∧ (s.draw).vecs = s.vecs ∧ (s.draw).kstore = s.kstore ∧
    (s.draw).movs = s.movs ∧ (s.draw).ctxs = s.ctxs ∧ (s.draw).slots = s.slots ∧ (s.draw).tasks = s.tasks ∧
    (s.draw).nextTask = s.nextTask ∧ (s.draw).launchQ = s.launchQ ∧ (s.draw).programs = s.programs ∧
    (s.draw).rinses = s.rinses ∧ (s.draw).watches = s.watches ∧ (s.draw).brew = s.brew ∧
    (s.draw).staging = s.staging ∧ (s.draw).streams = s.streams ∧ (s.draw).tests = s.tests ∧ (s.draw).urn = s.urn ∧
    (s.draw).si = s.si ∧ (s.draw).tb = s.tb ∧ (s.draw).st = s.st ∧ (s.draw).dpps = s.dpps ∧ (s.draw).atts = s.atts ∧
    (s.draw).steps = s.steps ∧ (s.draw).tu = s.tu ∧ (s.draw).macHalt = s.macHalt ∧ (s.draw).poolBanks = s.poolBanks ∧
    (s.draw).ctrGroups = s.ctrGroups ∧ (s.draw).sp = s.sp ∧ (s.draw).pipes = s.pipes ∧ (s.draw).parsers = s.parsers ∧
    (s.draw).strs = s.strs ∧ (s.draw).repairs = s.repairs ∧ (s.draw).wakes = s.wakes ∧ (s.draw).caddy = s.caddy ∧
    (s.draw).power = s.power ∧ (s.draw).macs = s.macs ∧ (s.draw).writeBack = s.writeBack ∧ (s.draw).dqs = s.dqs ∧
    (s.draw).booted = s.booted ∧ (s.draw).nextProg = s.nextProg ∧ (s.draw).resp = s.resp ∧ (s.draw).out = s.out ∧
    (s.draw).hwSet = s.hwSet ∧ (s.draw).lateRegs = s.lateRegs ∧ (s.draw).tags = s.tags ∧ (s.draw).ports = s.ports ∧
    (s.draw).spBack = s.spBack ∧ (s.draw).owed = s.owed ∧ (s.draw).colMaps = s.colMaps ∧ (s.draw).l2 = s.l2 ∧
    (s.draw).ending = s.ending := by
  repeat (first | exact rfl | refine ⟨rfl, ?_⟩)

@[simp] theorem State.rd_stn (s : State) (a n v : Nat) (r : Nat) : (s.stn a n v).rd r = s.rd r := rfl
@[simp] theorem State.rd_stb (s : State) (a : Nat) (l : List Byte) (r : Nat) : (s.stb a l).rd r = s.rd r := rfl
@[simp] theorem State.rd_setAnchor (s : State) (a v : Nat) (r : Nat) : (s.setAnchor a v).rd r = s.rd r := rfl
@[simp] theorem State.rd_setArr (s : State) (c a : Nat) (v : Arr) (r : Nat) : (s.setArr c a v).rd r = s.rd r := rfl
@[simp] theorem State.rd_setVec (s : State) (c e : Nat) (v : Vec) (r : Nat) : (s.setVec c e v).rd r = s.rd r := rfl
@[simp] theorem State.rd_setChan (s : State) (c n : Nat) (v : MovChan) (r : Nat) : (s.setChan c n v).rd r = s.rd r := rfl
@[simp] theorem State.rd_setCtx (s : State) (c x : Nat) (v : Ctx) (r : Nat) : (s.setCtx c x v).rd r = s.rd r := rfl
@[simp] theorem State.rd_setSlot (s : State) (c n : Nat) (v : Slot) (r : Nat) : (s.setSlot c n v).rd r = s.rd r := rfl
@[simp] theorem State.rd_modTask (s : State) (t : Nat) (f : Task → Task) (r : Nat) : (s.modTask t f).rd r = s.rd r := rfl
@[simp] theorem State.rd_setDsp (s : State) (p : Nat) (v : Brew) (r : Nat) : (s.setDsp p v).rd r = s.rd r := rfl
@[simp] theorem State.rd_setStage (s : State) (p q : Nat) (v : List Staged) (r : Nat) : (s.setStage p q v).rd r = s.rd r := rfl
@[simp] theorem State.rd_send (s : State) (o : Out) (r : Nat) : (s.send o).rd r = s.rd r := rfl
@[simp] theorem State.rd_answer (s : State) (q : Requester) (st : RespStatus) (d : List Byte) (r : Nat) : (s.answer q st d).rd r = s.rd r := rfl
@[simp] theorem State.rd_draw (s : State)  (r : Nat) : (s.draw).rd r = s.rd r := rfl

/-- A register that is not written reads as before. -/
theorem State.rd_wr_other (s : State) (a v b : Nat) (h : b ≠ a) : (s.wr a v).rd b = s.rd b := by
  unfold State.rd
  exact congrArg _ (sparseGet_put_other _ _ _ _ _ _ h)

/-- A register that is written reads as the value written, cut to 32 bits. -/
theorem State.rd_wr_same (s : State) (a v : Nat) (h : s.regsWf = true) : (s.wr a v).rd a = v % 2 ^ 32 := by
  have := sparseGet_put_same regReset s.regs a (BitVec.ofNat 32 v) h
  show (sparseGet (regReset a) (sparsePut (regReset a) s.regs a (BitVec.ofNat 32 v)) a).toNat = _
  rw [this]
  simp

/-- A register's value fits 32 bits. -/
theorem State.rd_lt (s : State) (a : Nat) : s.rd a < 2 ^ 32 := BitVec.isLt _

/-- Writing a register keeps the canonical form of the register store. -/
theorem State.wr_regsWf (s : State) (a v : Nat) (h : s.regsWf = true) : (s.wr a v).regsWf = true := sparsePut_wf _ _ _ _ h

/-- A field written leaves every other register as it was. -/
theorem State.rd_setFld_other (s : State) (a hi lo v b : Nat) (h : b ≠ a) : (s.setFld a hi lo v).rd b = s.rd b :=
  State.rd_wr_other _ _ _ _ h

/-- A register whose field is written reads as its old value with that field replaced. -/
theorem State.rd_setFld_same (s : State) (a hi lo v : Nat) (h : s.regsWf = true) :
    (s.setFld a hi lo v).rd a = setBits (s.rd a) hi lo v % 2 ^ 32 := State.rd_wr_same _ _ _ h

/-! A register write leaves every unit as it was. -/

@[simp] theorem State.arr_wr (s : State) (r v c a : Nat) : (s.wr r v).arr c a = s.arr c a := rfl
@[simp] theorem State.vec_wr (s : State) (r v c e : Nat) : (s.wr r v).vec c e = s.vec c e := rfl
@[simp] theorem State.chan_wr (s : State) (r v c n : Nat) : (s.wr r v).chan c n = s.chan c n := rfl
@[simp] theorem State.ctx_wr (s : State) (r v c x : Nat) : (s.wr r v).ctx c x = s.ctx c x := rfl
@[simp] theorem State.slot_wr (s : State) (r v c n : Nat) : (s.wr r v).slot c n = s.slot c n := rfl
@[simp] theorem State.task_wr (s : State) (r v t : Nat) : (s.wr r v).task t = s.task t := rfl
@[simp] theorem State.dsp_wr (s : State) (r v p : Nat) : (s.wr r v).dsp p = s.dsp p := rfl

/-- An array record set to anything but the idle record reads as set. -/
theorem State.arr_setArr (s : State) (c a : Nat) (v : Arr) (h : v ≠ Arr.idle) : (s.setArr c a v).arr c a = v :=
  sparseGet_put_ne _ _ _ _ _ h
/-- An engine record set to anything but the idle record reads as set. -/
theorem State.vec_setVec (s : State) (c e : Nat) (v : Vec) (h : v ≠ Vec.idle) : (s.setVec c e v).vec c e = v :=
  sparseGet_put_ne _ _ _ _ _ h
/-- A channel record set to anything but the idle record reads as set. -/
theorem State.chan_setChan (s : State) (c n : Nat) (v : MovChan) (h : v ≠ MovChan.idle) : (s.setChan c n v).chan c n = v :=
  sparseGet_put_ne _ _ _ _ _ h
/-- A context record set to anything but the empty record reads as set. -/
theorem State.ctx_setCtx (s : State) (c x : Nat) (v : Ctx) (h : v ≠ Ctx.empty) : (s.setCtx c x v).ctx c x = v :=
  sparseGet_put_ne _ _ _ _ _ h
/-- A slot record set to anything but the free record reads as set. -/
theorem State.slot_setSlot (s : State) (c n : Nat) (v : Slot) (h : v ≠ Slot.free) : (s.setSlot c n v).slot c n = v :=
  sparseGet_put_ne _ _ _ _ _ h

end Sys2Proof.Machine
end

