-- ==== Sys2Proof/Laws/Frames.lean ====
section
/-! SUPPORT. The frames of the named updates: what a register write, a field write and a store of bytes leave as they were. -/

namespace Sys2Proof.Machine

/-- Nothing changes from a state to itself. -/
theorem onlyRegs_refl (s : State) (l : List Nat) : onlyRegs s s l := ⟨fun _ _ => rfl, fun _ h => .inl h, fun _ h => .inl h, rfl⟩

/-- A register written changes that register alone. -/
theorem onlyRegs_wr (s : State) (a v : Nat) : onlyRegs s (s.wr a v) [a] :=
  ⟨fun b hb => State.rd_wr_other s a v b (by simpa using hb), fun _ h => .inl h, fun _ h => .inl h, rfl⟩

/-- A field written changes its register alone. -/
theorem onlyRegs_setFld (s : State) (a hi lo v : Nat) : onlyRegs s (s.setFld a hi lo v) [a] := onlyRegs_wr s a _

/-- Bits set in a register change that register alone. -/
theorem onlyRegs_orReg (s : State) (a m : Nat) : onlyRegs s (s.orReg a m) [a] := by
  refine ⟨fun b hb => State.rd_wr_other s a _ b (by simpa using hb), fun e he => ?_, fun _ h => .inl h, rfl⟩
  rcases List.mem_cons.mp he with rfl | he
  · exact .inr (by simp)
  · exact .inl (List.mem_filter.mp he).1

/-- A register written by a Brew Table entry changes that register alone. -/
theorem onlyRegs_wrLate (s : State) (k a v : Nat) : onlyRegs s (s.wrLate k a v) [a] := by
  refine ⟨fun b hb => State.rd_wr_other s a _ b (by simpa using hb), fun _ h => .inl h, fun e he => ?_, rfl⟩
  unfold State.wrLate at he
  dsimp only at he
  split at he
  · exact .inl he
  · rcases List.mem_cons.mp he with rfl | he
    · exact .inr (by simp)
    · exact .inl (List.mem_filter.mp he).1

/-- A counter advanced changes that register alone. -/
theorem onlyRegs_countUp (s : State) (a n : Nat) : onlyRegs s (s.countUp a n) [a] := onlyRegs_wr s a _

/-- Two changes of registers, one after the other. -/
theorem onlyRegs_trans {s t u : State} {l m : List Nat} (h : onlyRegs s t l) (k : onlyRegs t u m) : onlyRegs s u (l ++ m) := by
  obtain ⟨h1, h2, h3, h4⟩ := h
  obtain ⟨k1, k2, k3, k4⟩ := k
  refine ⟨fun a ha => ?_, fun e he => ?_, fun e he => ?_, ?_⟩
  · simp only [List.mem_append, not_or] at ha
    exact (k1 a ha.2).trans (h1 a ha.1)
  · rcases k2 e he with he | he
    · exact (h2 e he).imp id fun q => List.mem_append_left _ q
    · exact .inr (List.mem_append_right _ he)
  · rcases k3 e he with he | he
    · exact (h3 e he).imp id fun q => List.mem_append_left _ q
    · exact .inr (List.mem_append_right _ he)
  · have e : { u with regs := s.regs, hwSet := s.hwSet, lateRegs := s.lateRegs } =
        { { u with regs := t.regs, hwSet := t.hwSet, lateRegs := t.lateRegs } with regs := s.regs, hwSet := s.hwSet, lateRegs := s.lateRegs } := rfl
    rw [e, k4]
    exact h4

/-- A pair written changes its two registers alone. -/
theorem onlyRegs_wr64 (s : State) (a v : Nat) : onlyRegs s (s.wr64 a v) [a, a + 4] :=
  onlyRegs_trans (onlyRegs_wr s a _) (onlyRegs_wr _ (a + 4) _)

/-- Bytes stored change those bytes alone. -/
theorem onlyBytes_stb (s : State) (a : Nat) (l : List Byte) : onlyBytes s (s.stb a l) a l.length :=
  ⟨fun b hb => Memory.get_write_other l s.mem a b hb, rfl⟩

end Sys2Proof.Machine
end

