-- ==== Sys2Proof/Laws/Kept.lean ====
section
/-! SUPPORT. What every effect of a command leaves in place, as one relation between two states, and how the relation is
carried through a conditional, a loop, a pair and an update. -/

namespace Sys2Proof.Machine

/-- Raw time and the accumulator are those of `a` (a jump moves the offset alone). -/
abbrev Tb.same (a b : Tb) : Prop := b.raw = a.raw ∧ b.acc = a.acc

/-- Raw time and the accumulator restarted at 0. -/
abbrev Tb.zero (b : Tb) : Prop := b.raw = 0 ∧ b.acc = 0

/-- From `s` to `t` the queue of waiting commands and the always-on clock are unchanged, the canonical forms of memory and of
the register store survive, and raw time and the accumulator are unchanged or both restarted at 0. -/
structure Kept (s t : State) : Prop where
  pending : t.pending = s.pending
  aon : t.clock.aon = s.clock.aon
  mem : s.mem.wf = true → t.mem.wf = true
  regs : s.regsWf = true → t.regsWf = true
  time : s.tb.same t.tb ∨ t.tb.zero


variable {s t u : State}

theorem Kept.refl (s : State) : Kept s s := ⟨rfl, rfl, id, id, .inl ⟨rfl, rfl⟩⟩
theorem Kept.timeStep (h : Kept s t) (hb : t.tb.same u.tb) : s.tb.same u.tb ∨ u.tb.zero := by
  obtain ⟨h1, h2⟩ := hb
  rcases h.time with ⟨a, b⟩ | ⟨a, b⟩
  · exact .inl ⟨h1.trans a, h2.trans b⟩
  · exact .inr ⟨h1.trans a, h2.trans b⟩

theorem Kept.ite {c : Prop} [Decidable c] {a b : State} (ha : Kept s a) (hb : Kept s b) : Kept s (if c then a else b) := by
  split <;> assumption

theorem Kept.iteSnd {α : Type} {c : Prop} [Decidable c] {a b : α × State} (ha : Kept s a.2) (hb : Kept s b.2) :
    Kept s (if c then a else b).2 := by
  split <;> assumption

theorem Kept.ite_of {c : Prop} [Decidable c] {a b : State} (ha : Kept b a) (hb : Kept s b) : Kept s (if c then a else b) := by
  split
  · refine ⟨ha.pending.trans hb.pending, ha.aon.trans hb.aon, ha.mem ∘ hb.mem, ha.regs ∘ hb.regs, ?_⟩
    rcases ha.time with h | h
    · exact hb.timeStep h
    · exact .inr h
  · exact hb

theorem Kept.foldl {α : Type} (f : State → α → State) (hf : ∀ t a, Kept s t → Kept s (f t a)) (l : List α) (h : Kept s t) :
    Kept s (l.foldl f t) := by
  induction l generalizing t with
  | nil => exact h
  | cons a r ih => exact ih (hf _ _ h)

theorem Kept.upd {t : State} {hiLatch' arrs' vecs' kstore' movs' ctxs' slots' tasks' nextTask' launchQ' programs'
      rinses' watches' brew' staging' streams' tests' urn' si' tb' st' dpps' atts' steps' tu' macHalt' poolBanks'
      ctrGroups' sp' pipes' parsers' strs' repairs' wakes' caddy' power' macs' writeBack' dqs' booted' nextProg' resp'
      out' hwSet' lateRegs' tags' ports' spBack' owed' colMaps' l2' ending' fresh'} (h : Kept s t)
    (hb : t.tb.same tb') :
    Kept s ⟨t.pending, t.clock, t.regs, hiLatch', t.mem, arrs', vecs', kstore', movs', ctxs', slots', tasks',
      nextTask', launchQ', programs', rinses', watches', brew', staging', streams', tests', urn', si', tb', st',
      dpps', atts', steps', tu', macHalt', poolBanks', ctrGroups', sp', pipes', parsers', strs', repairs', wakes',
      caddy', power', macs', writeBack', dqs', booted', nextProg', resp', out', hwSet', lateRegs', tags', ports',
      spBack', owed', colMaps', l2', ending', fresh'⟩ :=
  ⟨h.pending, h.aon, h.mem, h.regs, h.timeStep hb⟩
theorem Kept.updMem {t : State} {hiLatch' mem' arrs' vecs' kstore' movs' ctxs' slots' tasks' nextTask' launchQ'
      programs' rinses' watches' brew' staging' streams' tests' urn' si' st' dpps' atts' steps' tu' macHalt'
      poolBanks' ctrGroups' sp' pipes' parsers' strs' repairs' wakes' caddy' power' macs' writeBack' dqs' booted'
      nextProg' resp' out' hwSet' lateRegs' tags' ports' spBack' owed' colMaps' l2' ending' fresh'} (h : Kept s t)
    (hm : t.mem.wf = true → mem'.wf = true) :
    Kept s ⟨t.pending, t.clock, t.regs, hiLatch', mem', arrs', vecs', kstore', movs', ctxs', slots', tasks',
      nextTask', launchQ', programs', rinses', watches', brew', staging', streams', tests', urn', si', t.tb, st',
      dpps', atts', steps', tu', macHalt', poolBanks', ctrGroups', sp', pipes', parsers', strs', repairs', wakes',
      caddy', power', macs', writeBack', dqs', booted', nextProg', resp', out', hwSet', lateRegs', tags', ports',
      spBack', owed', colMaps', l2', ending', fresh'⟩ :=
  ⟨h.pending, h.aon, fun w => hm (h.mem w), h.regs, h.time⟩
theorem Kept.updRegs {t : State} {regs' hiLatch' arrs' vecs' kstore' movs' ctxs' slots' tasks' nextTask' launchQ'
      programs' rinses' watches' brew' staging' streams' tests' urn' si' st' dpps' atts' steps' tu' macHalt'
      poolBanks' ctrGroups' sp' pipes' parsers' strs' repairs' wakes' caddy' power' macs' writeBack' dqs' booted'
      nextProg' resp' out' hwSet' lateRegs' tags' ports' spBack' owed' colMaps' l2' ending' fresh'} (h : Kept s t)
    (hm : t.regsWf = true → sparseWf regReset regs' = true) :
    Kept s ⟨t.pending, t.clock, regs', hiLatch', t.mem, arrs', vecs', kstore', movs', ctxs', slots', tasks',
      nextTask', launchQ', programs', rinses', watches', brew', staging', streams', tests', urn', si', t.tb, st',
      dpps', atts', steps', tu', macHalt', poolBanks', ctrGroups', sp', pipes', parsers', strs', repairs', wakes',
      caddy', power', macs', writeBack', dqs', booted', nextProg', resp', out', hwSet', lateRegs', tags', ports',
      spBack', owed', colMaps', l2', ending', fresh'⟩ :=
  ⟨h.pending, h.aon, h.mem, fun w => hm (h.regs w), h.time⟩

theorem Kept.foldlSnd {α β : Type} (f : β × State → α → β × State) (hf : ∀ t a, Kept s t.2 → Kept s (f t a).2) (l : List α)
    {t : β × State} (h : Kept s t.2) : Kept s (l.foldl f t).2 := by
  induction l generalizing t with
  | nil => exact h
  | cons a r ih => exact ih (hf _ _ h)
theorem Kept.foldlSnd2 {α β γ : Type} (f : β × γ × State → α → β × γ × State) (hf : ∀ t a, Kept s t.2.2 → Kept s (f t a).2.2)
    (l : List α) {t : β × γ × State} (h : Kept s t.2.2) : Kept s (l.foldl f t).2.2 := by
  induction l generalizing t with
  | nil => exact h
  | cons a r ih => exact ih (hf _ _ h)
theorem Kept.foldlFst {α β : Type} (f : State × β → α → State × β) (hf : ∀ t a, Kept s t.1 → Kept s (f t a).1)
    (l : List α) {t : State × β} (h : Kept s t.1) : Kept s (l.foldl f t).1 := by
  induction l generalizing t with
  | nil => exact h
  | cons a r ih => exact ih (hf _ _ h)

theorem Kept.zeroUpd {t : State} {lo n} (h : Kept s t) : Kept s { t with mem := t.mem.zero lo n } :=
  Kept.updMem h fun w => Memory.zero_wf _ _ _ w
theorem Kept.healUpd {t : State} {w} (h : Kept s t) : Kept s { t with mem := t.mem.heal w } :=
  Kept.updMem h (Memory.wf_iff _ _ rfl rfl)

theorem Kept.snd_mk {α : Type} {a : α} (h : Kept s t) : Kept s (a, t).2 := h
theorem Kept.snd2_mk {α β : Type} {a : α} {b : β} (h : Kept s t) : Kept s (a, b, t).2.2 := h

end Sys2Proof.Machine
end

