-- ==== Sys2Proof/Laws/KeptOps.lean ====
section
/-! SUPPORT. One lemma per effect (`<name>_kept`): the effect keeps what `Kept` says. This file:
the named operations, counters, rings, faults, timebase, register reads, memory accesses and links. -/

namespace Sys2Proof.Machine

variable {s₀ s₁ : State}

theorem State.wr_kept {a v} (h : Kept s₀ s₁) : Kept s₀ (State.wr s₁ a v) := Kept.updRegs h fun w => sparsePut_wf _ _ _ _ w
theorem State.setFld_kept {a hi lo v} (h : Kept s₀ s₁) : Kept s₀ (State.setFld s₁ a hi lo v) := by
  unfold State.setFld
  try dsimp only
  with_reducible repeat' first | exact h | apply State.wr_kept
theorem State.resetReg_kept {a} (h : Kept s₀ s₁) : Kept s₀ (State.resetReg s₁ a) := by
  unfold State.resetReg
  try dsimp only
  with_reducible repeat' first | exact h | apply State.wr_kept
theorem State.resetRegs_kept {lo hi} (h : Kept s₀ s₁) : Kept s₀ (State.resetRegs s₁ lo hi) :=
  Kept.updRegs h fun w => filter_wf _ _ _ _ w fun _ _ _ => rfl
theorem State.countUp_kept {a n} (h : Kept s₀ s₁) : Kept s₀ (State.countUp s₁ a n) := by
  unfold State.countUp
  try dsimp only
  with_reducible repeat' first | exact h | apply State.wr_kept
theorem State.countWrap_kept {a n} (h : Kept s₀ s₁) : Kept s₀ (State.countWrap s₁ a n) := by
  unfold State.countWrap
  try dsimp only
  with_reducible repeat' first | exact h | apply State.wr_kept
theorem State.wr64_kept {a v} (h : Kept s₀ s₁) : Kept s₀ (State.wr64 s₁ a v) := by
  unfold State.wr64
  try dsimp only
  with_reducible repeat' first | exact h | apply State.wr_kept
theorem State.count64_kept {a n} (h : Kept s₀ s₁) : Kept s₀ (State.count64 s₁ a n) := by
  unfold State.count64
  try dsimp only
  with_reducible repeat' first | exact h | apply State.wr64_kept
theorem State.count64Hold_kept {a n} (h : Kept s₀ s₁) : Kept s₀ (State.count64Hold s₁ a n) := by
  unfold State.count64Hold
  try dsimp only
  with_reducible repeat' first | exact h | apply State.wr64_kept
theorem State.orReg_kept {a m} (h : Kept s₀ s₁) : Kept s₀ (State.orReg s₁ a m) := by
  unfold State.orReg
  try dsimp only
  with_reducible repeat' first
    | exact h | apply State.wr_kept | refine Kept.ite ?_ ?_ | split | refine Kept.upd ?_ ⟨rfl, rfl⟩
theorem State.wrLate_kept {t a v} (h : Kept s₀ s₁) : Kept s₀ (State.wrLate s₁ t a v) := by
  unfold State.wrLate
  try dsimp only
  with_reducible repeat' first
    | exact h | apply State.wr_kept | refine Kept.ite ?_ ?_ | split | refine Kept.upd ?_ ⟨rfl, rfl⟩
theorem State.stn_kept {a n v} (h : Kept s₀ s₁) : Kept s₀ (State.stn s₁ a n v) := Kept.updMem h fun w => Memory.write_wf _ _ _ w
theorem State.stb_kept {a l} (h : Kept s₀ s₁) : Kept s₀ (State.stb s₁ a l) := Kept.updMem h fun w => Memory.write_wf _ _ _ w
theorem State.setAnchor_kept {a v} (h : Kept s₀ s₁) : Kept s₀ (State.setAnchor s₁ a v) := Kept.updMem h id
theorem State.setArr_kept {c a v} (h : Kept s₀ s₁) : Kept s₀ (State.setArr s₁ c a v) := by
  unfold State.setArr
  try dsimp only
  with_reducible repeat' first | exact h | refine Kept.ite ?_ ?_ | split | refine Kept.upd ?_ ⟨rfl, rfl⟩
theorem State.setVec_kept {c e v} (h : Kept s₀ s₁) : Kept s₀ (State.setVec s₁ c e v) := by
  unfold State.setVec
  try dsimp only
  with_reducible repeat' first | exact h | refine Kept.ite ?_ ?_ | split | refine Kept.upd ?_ ⟨rfl, rfl⟩
theorem State.setChan_kept {c n v} (h : Kept s₀ s₁) : Kept s₀ (State.setChan s₁ c n v) := by
  unfold State.setChan
  try dsimp only
  with_reducible repeat' first | exact h | refine Kept.ite ?_ ?_ | split | refine Kept.upd ?_ ⟨rfl, rfl⟩
theorem State.setCtx_kept {c x v} (h : Kept s₀ s₁) : Kept s₀ (State.setCtx s₁ c x v) := by
  unfold State.setCtx
  try dsimp only
  with_reducible repeat' first | exact h | refine Kept.ite ?_ ?_ | split | refine Kept.upd ?_ ⟨rfl, rfl⟩
theorem State.setSlot_kept {c n v} (h : Kept s₀ s₁) : Kept s₀ (State.setSlot s₁ c n v) := by
  unfold State.setSlot
  try dsimp only
  with_reducible repeat' first | exact h | refine Kept.ite ?_ ?_ | split | refine Kept.upd ?_ ⟨rfl, rfl⟩
theorem State.modTask_kept {t f} (h : Kept s₀ s₁) : Kept s₀ (State.modTask s₁ t f) := by
  unfold State.modTask
  try dsimp only
  with_reducible repeat' first | exact h | refine Kept.ite ?_ ?_ | split | refine Kept.upd ?_ ⟨rfl, rfl⟩
theorem State.setDsp_kept {p v} (h : Kept s₀ s₁) : Kept s₀ (State.setDsp s₁ p v) := by
  unfold State.setDsp
  try dsimp only
  with_reducible repeat' first | exact h | refine Kept.ite ?_ ?_ | split | refine Kept.upd ?_ ⟨rfl, rfl⟩
theorem State.setStage_kept {p src v} (h : Kept s₀ s₁) : Kept s₀ (State.setStage s₁ p src v) := by
  unfold State.setStage
  try dsimp only
  with_reducible repeat' first | exact h | refine Kept.ite ?_ ?_ | split | refine Kept.upd ?_ ⟨rfl, rfl⟩
theorem State.send_kept {o} (h : Kept s₀ s₁) : Kept s₀ (State.send s₁ o) := by
  unfold State.send
  try dsimp only
  with_reducible repeat' first | exact h | refine Kept.ite ?_ ?_ | split | refine Kept.upd ?_ ⟨rfl, rfl⟩
theorem State.answer_kept {r st d} (h : Kept s₀ s₁) : Kept s₀ (State.answer s₁ r st d) := by
  unfold State.answer
  try dsimp only
  with_reducible repeat' first | exact h | refine Kept.ite ?_ ?_ | split | refine Kept.upd ?_ ⟨rfl, rfl⟩
theorem State.draw_kept (h : Kept s₀ s₁) : Kept s₀ (State.draw s₁) := by
  unfold State.draw
  try dsimp only
  with_reducible repeat' first | exact h | refine Kept.ite ?_ ?_ | split | refine Kept.upd ?_ ⟨rfl, rfl⟩
theorem State.judge_kept {key data v} (h : Kept s₀ s₁) : Kept s₀ (State.judge s₁ key data v).2 := by
  unfold State.judge
  try dsimp only
  with_reducible repeat' first | exact h | refine Kept.ite ?_ ?_ | split | refine Kept.upd ?_ ⟨rfl, rfl⟩
theorem State.judge_kept' {key data v} {r₀ u₀} (hq : State.judge s₁ key data v = (r₀, u₀)) (h : Kept s₀ s₁) : Kept s₀ u₀ := by
  have := @State.judge_kept s₀ s₁ key data v h
  rw [hq] at this
  exact this
theorem State.keepTag_kept {c slot b} (h : Kept s₀ s₁) : Kept s₀ (State.keepTag s₁ c slot b) := by
  unfold State.keepTag
  try dsimp only
  with_reducible repeat' first | exact h | apply State.wr_kept
theorem State.settleTags_kept (h : Kept s₀ s₁) : Kept s₀ (State.settleTags s₁) := by
  unfold State.settleTags
  try dsimp only
  with_reducible repeat' first
    | exact h | apply State.keepTag_kept | refine Kept.foldl _ (fun _ _ _ => ?_) _ ?_
    | refine Kept.foldlSnd _ (fun _ _ _ => ?_) _ ?_ | assumption | refine Kept.ite ?_ ?_ | split
    | refine Kept.upd ?_ ⟨rfl, rfl⟩
theorem State.changeTags_kept {t} (h : Kept s₀ s₁) : Kept s₀ (State.changeTags s₁ t) := by
  unfold State.changeTags
  try dsimp only
  with_reducible repeat' first
    | exact h | apply State.settleTags_kept | refine Kept.ite ?_ ?_ | split | refine Kept.upd ?_ ⟨rfl, rfl⟩
theorem State.setTag_kept {c slot b} (h : Kept s₀ s₁) : Kept s₀ (State.setTag s₁ c slot b) := by
  unfold State.setTag
  try dsimp only
  with_reducible repeat' first | exact h | apply State.changeTags_kept
theorem State.setTags_kept {c first n b} (h : Kept s₀ s₁) : Kept s₀ (State.setTags s₁ c first n b) := by
  unfold State.setTags
  try dsimp only
  with_reducible repeat' first | exact h | apply State.changeTags_kept
theorem State.setTileSat_kept {c a t b} (h : Kept s₀ s₁) : Kept s₀ (State.setTileSat s₁ c a t b) := by
  unfold State.setTileSat
  try dsimp only
  with_reducible repeat' first | exact h | apply State.wr_kept
theorem State.arithSat_kept {c} (h : Kept s₀ s₁) : Kept s₀ (State.arithSat s₁ c) := by
  unfold State.arithSat
  try dsimp only
  with_reducible repeat' first | exact h | apply State.orReg_kept | apply State.setFld_kept
theorem State.arithOut_kept {c ovf nan} (h : Kept s₀ s₁) : Kept s₀ (State.arithOut s₁ c ovf nan) := by
  unfold State.arithOut
  try dsimp only
  with_reducible repeat' first | exact h | apply State.orReg_kept
theorem State.arithSpecial_kept {c b} (h : Kept s₀ s₁) : Kept s₀ (State.arithSpecial s₁ c b) := by
  unfold State.arithSpecial
  try dsimp only
  with_reducible repeat' first | exact h | apply State.orReg_kept
theorem State.eccNote_kept {r ue unit row word} (h : Kept s₀ s₁) : Kept s₀ (State.eccNote s₁ r ue unit row word) := by
  unfold State.eccNote
  try dsimp only
  with_reducible repeat' first | exact h | apply State.orReg_kept | apply State.wr_kept | refine Kept.ite ?_ ?_
theorem State.setTileOwner_kept {c a t v} (h : Kept s₀ s₁) : Kept s₀ (State.setTileOwner s₁ c a t v) := by
  unfold State.setTileOwner
  try dsimp only
  with_reducible repeat' first | exact h | apply State.setFld_kept
theorem State.setCtxState_kept {c x st cause} (h : Kept s₀ s₁) : Kept s₀ (State.setCtxState s₁ c x st cause) := by
  unfold State.setCtxState
  try dsimp only
  with_reducible repeat' first | exact h | apply State.setFld_kept | apply State.setCtx_kept
theorem State.progress_kept {c x} (h : Kept s₀ s₁) : Kept s₀ (State.progress s₁ c x) := by
  unfold State.progress
  try dsimp only
  with_reducible repeat' first | exact h | apply State.setCtx_kept
theorem State.started_kept {c x} (h : Kept s₀ s₁) : Kept s₀ (State.started s₁ c x) := by
  unfold State.started
  try dsimp only
  with_reducible repeat' first
    | exact h | apply State.progress_kept | apply State.setCtxState_kept | refine Kept.ite ?_ ?_
theorem State.mcBytes_kept {a n wr} (h : Kept s₀ s₁) : Kept s₀ (State.mcBytes s₁ a n wr) := by
  unfold State.mcBytes
  try dsimp only
  with_reducible repeat' first
    | exact h | apply State.count64_kept | refine Kept.foldl _ (fun _ _ _ => ?_) _ ?_
    | refine Kept.foldlSnd _ (fun _ _ _ => ?_) _ ?_ | assumption | refine Kept.ite ?_ ?_ | split
theorem State.stewardPut_kept {a l} (h : Kept s₀ s₁) : Kept s₀ (State.stewardPut s₁ a l) := by
  unfold State.stewardPut
  try dsimp only
  with_reducible repeat' first | exact h | refine Kept.ite ?_ ?_ | refine Kept.upd ?_ ⟨rfl, rfl⟩
  exact Kept.updMem h fun w => Memory.write_wf _ _ _ (Memory.wf_iff _ _ rfl rfl w)
theorem State.setRing_kept {n v} (h : Kept s₀ s₁) : Kept s₀ (State.setRing s₁ n v) := by
  unfold State.setRing
  try dsimp only
  with_reducible repeat' first | exact h | refine Kept.ite ?_ ?_ | split | refine Kept.upd ?_ ⟨rfl, rfl⟩
theorem State.ringCount_kept {ring} (h : Kept s₀ s₁) : Kept s₀ (State.ringCount s₁ ring) := by
  unfold State.ringCount
  try dsimp only
  with_reducible repeat' first | exact h | apply State.setFld_kept
theorem State.complete_kept {ring idx status code result} (h : Kept s₀ s₁) : Kept s₀ (State.complete s₁ ring idx status code result) := by
  unfold State.complete
  try dsimp only
  with_reducible repeat' first
    | exact h | apply State.ringCount_kept | apply State.setRing_kept | apply State.stewardPut_kept
    | refine Kept.ite ?_ ?_ | split | refine Kept.upd ?_ ⟨rfl, rfl⟩
theorem State.msix_kept {v} (h : Kept s₀ s₁) : Kept s₀ (State.msix s₁ v) := by
  unfold State.msix
  try dsimp only
  with_reducible repeat' first
    | exact h | apply State.send_kept | refine Kept.ite ?_ ?_ | split | refine Kept.upd ?_ ⟨rfl, rfl⟩
theorem State.begin__kept {ring idx} (h : Kept s₀ s₁) : Kept s₀ (State.begin_ s₁ ring idx) := by
  unfold State.begin_
  try dsimp only
  with_reducible repeat' first | exact h | refine Kept.ite ?_ ?_ | split | refine Kept.upd ?_ ⟨rfl, rfl⟩
theorem State.mbox_kept {ring idx opcode f} (h : Kept s₀ s₁) (hf : ∀ k t, Kept s₀ t → Kept s₀ (f k t)) :
    Kept s₀ (State.mbox s₁ ring idx opcode f) := by
  unfold State.mbox
  split
  · exact hf _ _ (State.begin__kept h)
  · exact h
theorem State.setDpp_kept {d v} (h : Kept s₀ s₁) : Kept s₀ (State.setDpp s₁ d v) := by
  unfold State.setDpp
  try dsimp only
  with_reducible repeat' first | exact h | refine Kept.ite ?_ ?_ | split | refine Kept.upd ?_ ⟨rfl, rfl⟩
theorem State.setAtt_kept {c v} (h : Kept s₀ s₁) : Kept s₀ (State.setAtt s₁ c v) := by
  unfold State.setAtt
  try dsimp only
  with_reducible repeat' first | exact h | refine Kept.ite ?_ ?_ | split | refine Kept.upd ?_ ⟨rfl, rfl⟩
theorem State.setStep_kept {p v} (h : Kept s₀ s₁) : Kept s₀ (State.setStep s₁ p v) := by
  unfold State.setStep
  try dsimp only
  with_reducible repeat' first | exact h | refine Kept.ite ?_ ?_ | split | refine Kept.upd ?_ ⟨rfl, rfl⟩
theorem State.abortArr_kept {c a x cause} (h : Kept s₀ s₁) : Kept s₀ (State.abortArr s₁ c a x cause) := by
  unfold State.abortArr
  try dsimp only
  with_reducible repeat' first
    | exact h | apply State.setArr_kept | apply State.setFld_kept | apply State.countUp_kept | apply State.orReg_kept
    | refine Kept.ite ?_ ?_
theorem State.abortArrs_kept {c x cause} (h : Kept s₀ s₁) : Kept s₀ (State.abortArrs s₁ c x cause) := by
  unfold State.abortArrs
  try dsimp only
  with_reducible repeat' first
    | exact h | apply State.abortArr_kept | refine Kept.foldl _ (fun _ _ _ => ?_) _ ?_
    | refine Kept.foldlSnd _ (fun _ _ _ => ?_) _ ?_ | assumption
theorem State.abortVecs_kept {c x} (h : Kept s₀ s₁) : Kept s₀ (State.abortVecs s₁ c x) := by
  unfold State.abortVecs
  try dsimp only
  with_reducible repeat' first
    | exact h | apply State.setVec_kept | refine Kept.foldl _ (fun _ _ _ => ?_) _ ?_
    | refine Kept.foldlSnd _ (fun _ _ _ => ?_) _ ?_ | assumption
theorem State.abortChan_kept {c n} (h : Kept s₀ s₁) : Kept s₀ (State.abortChan s₁ c n) := by
  unfold State.abortChan
  try dsimp only
  with_reducible repeat' first | exact h | apply State.setChan_kept | refine Kept.ite ?_ ?_
theorem State.abortChans_kept {c x} (h : Kept s₀ s₁) : Kept s₀ (State.abortChans s₁ c x) := by
  unfold State.abortChans
  try dsimp only
  with_reducible repeat' first
    | exact h | apply State.abortChan_kept | refine Kept.foldl _ (fun _ _ _ => ?_) _ ?_
    | refine Kept.foldlSnd _ (fun _ _ _ => ?_) _ ?_ | assumption
theorem State.abortAtt_kept {c x} (h : Kept s₀ s₁) : Kept s₀ (State.abortAtt s₁ c x) := by
  unfold State.abortAtt
  try dsimp only
  with_reducible repeat' first
    | exact h | apply State.setAtt_kept | apply State.wr_kept | apply State.setFld_kept | refine Kept.ite ?_ ?_
theorem State.abortDpps_kept {c x} (h : Kept s₀ s₁) : Kept s₀ (State.abortDpps s₁ c x) := by
  unfold State.abortDpps
  try dsimp only
  with_reducible repeat' first
    | exact h | apply State.setDpp_kept | refine Kept.foldl _ (fun _ _ _ => ?_) _ ?_
    | refine Kept.foldlSnd _ (fun _ _ _ => ?_) _ ?_ | assumption
theorem State.untile_kept {c x} (h : Kept s₀ s₁) : Kept s₀ (State.untile s₁ c x) := by
  unfold State.untile
  try dsimp only
  with_reducible repeat' first | exact h | apply State.setFld_kept | refine Kept.ite ?_ ?_
theorem State.abortTiler_kept {c x cause} (h : Kept s₀ s₁) : Kept s₀ (State.abortTiler s₁ c x cause) := by
  unfold State.abortTiler
  try dsimp only
  with_reducible repeat' first | exact h | apply State.untile_kept | apply State.setCtx_kept | refine Kept.ite ?_ ?_
theorem State.abortUnits_kept {c x arrCause cause} (h : Kept s₀ s₁) : Kept s₀ (State.abortUnits s₁ c x arrCause cause) := by
  unfold State.abortUnits
  try dsimp only
  with_reducible repeat' first
    | exact h | apply State.abortTiler_kept | apply State.abortDpps_kept | apply State.abortAtt_kept
    | apply State.abortChans_kept | apply State.abortVecs_kept | apply State.abortArrs_kept
theorem State.freeSlot_kept {c n} (h : Kept s₀ s₁) : Kept s₀ (State.freeSlot s₁ c n) := by
  unfold State.freeSlot
  try dsimp only
  with_reducible repeat' first | exact h | apply State.wr_kept | apply State.setSlot_kept
theorem State.scrubMove_kept {c x a3 locked} (h : Kept s₀ s₁) : Kept s₀ (State.scrubMove s₁ c x a3 locked) := by
  unfold State.scrubMove
  try dsimp only
  with_reducible repeat' first | exact h | refine Kept.ite ?_ ?_ | split | refine Kept.upd ?_ ⟨rfl, rfl⟩
theorem State.lockScrub_kept {c x} (h : Kept s₀ s₁) : Kept s₀ (State.lockScrub s₁ c x) := State.scrubMove_kept h
theorem State.lockSlotScrub_kept {c n} (h : Kept s₀ s₁) : Kept s₀ (State.lockSlotScrub s₁ c n) := by
  unfold State.lockSlotScrub
  try dsimp only
  with_reducible repeat' first | exact h | refine Kept.ite ?_ ?_ | split | refine Kept.upd ?_ ⟨rfl, rfl⟩
theorem State.tearDown_kept {c x arrCause cause} (h : Kept s₀ s₁) : Kept s₀ (State.tearDown s₁ c x arrCause cause) := by
  unfold State.tearDown
  try dsimp only
  with_reducible repeat' first
    | exact h | apply State.abortUnits_kept | apply State.setCtx_kept | apply State.setCtxState_kept
    | apply State.lockScrub_kept | refine Kept.ite ?_ ?_ | split | refine Kept.upd ?_ ⟨rfl, rfl⟩
theorem State.tearSlot_kept {c n} (h : Kept s₀ s₁) : Kept s₀ (State.tearSlot s₁ c n) := by
  unfold State.tearSlot
  try dsimp only
  with_reducible repeat' first
    | exact h | apply State.lockSlotScrub_kept | apply State.freeSlot_kept | refine Kept.ite ?_ ?_ | split
    | refine Kept.upd ?_ ⟨rfl, rfl⟩
theorem State.endTimedCtx_kept {c} (h : Kept s₀ s₁) : Kept s₀ (State.endTimedCtx s₁ c) := by
  unfold State.endTimedCtx
  try dsimp only
  with_reducible repeat' first
    | exact h | apply State.abortUnits_kept | apply State.setCtxState_kept | apply State.setCtx_kept
theorem State.teardownTask_kept {t} (h : Kept s₀ s₁) : Kept s₀ (State.teardownTask s₁ t) := by
  unfold State.teardownTask
  try dsimp only
  with_reducible repeat' first
    | exact h | apply State.modTask_kept | apply State.endTimedCtx_kept | apply State.tearDown_kept
    | apply State.tearSlot_kept | apply State.setFld_kept | apply State.setStep_kept | apply State.complete_kept
    | refine Kept.foldl _ (fun _ _ _ => ?_) _ ?_ | refine Kept.foldlSnd _ (fun _ _ _ => ?_) _ ?_ | assumption
    | refine Kept.ite ?_ ?_ | split
theorem State.abortCtx_kept {c x cause} (h : Kept s₀ s₁) : Kept s₀ (State.abortCtx s₁ c x cause) := by
  unfold State.abortCtx
  try dsimp only
  with_reducible repeat' first
    | exact h | apply State.abortTiler_kept | apply State.teardownTask_kept | apply State.abortUnits_kept
    | refine Kept.ite ?_ ?_ | split
theorem State.dppMismatch_kept {d} (h : Kept s₀ s₁) : Kept s₀ (State.dppMismatch s₁ d) := by
  unfold State.dppMismatch
  try dsimp only
  with_reducible repeat' first
    | exact h | apply State.orReg_kept | apply State.abortCtx_kept | refine Kept.ite ?_ ?_ | split
theorem State.settle_kept (h : Kept s₀ s₁) : Kept s₀ (State.settle s₁) := by
  unfold State.settle
  try dsimp only
  with_reducible repeat' first
    | exact h | apply State.complete_kept | refine Kept.foldl _ (fun _ _ _ => ?_) _ ?_
    | refine Kept.foldlSnd _ (fun _ _ _ => ?_) _ ?_ | assumption
theorem State.abortPart_kept {p} (h : Kept s₀ s₁) : Kept s₀ (State.abortPart s₁ p) := by
  unfold State.abortPart
  try dsimp only
  with_reducible repeat' first
    | exact h | apply State.teardownTask_kept | apply State.complete_kept | refine Kept.foldl _ (fun _ _ _ => ?_) _ ?_
    | refine Kept.foldlSnd _ (fun _ _ _ => ?_) _ ?_ | assumption | refine Kept.ite ?_ ?_ | split
    | refine Kept.upd ?_ ⟨rfl, rfl⟩
theorem State.stopDispatcher_kept {p} (h : Kept s₀ s₁) : Kept s₀ (State.stopDispatcher s₁ p) := by
  unfold State.stopDispatcher
  try dsimp only
  with_reducible repeat' first
    | exact h | apply State.setDsp_kept | apply State.setArr_kept | apply State.setVec_kept | apply State.setFld_kept
    | refine Kept.foldl _ (fun _ _ _ => ?_) _ ?_ | refine Kept.foldlSnd _ (fun _ _ _ => ?_) _ ?_ | assumption
theorem State.staleStreams_kept {p} (h : Kept s₀ s₁) : Kept s₀ (State.staleStreams s₁ p) := by
  unfold State.staleStreams
  try dsimp only
  with_reducible repeat' first
    | exact h | apply State.stewardPut_kept | refine Kept.foldl _ (fun _ _ _ => ?_) _ ?_
    | refine Kept.foldlSnd _ (fun _ _ _ => ?_) _ ?_ | assumption | refine Kept.ite ?_ ?_ | split
theorem State.safeState_kept {p cause} (h : Kept s₀ s₁) : Kept s₀ (State.safeState s₁ p cause) := by
  unfold State.safeState
  try dsimp only
  with_reducible repeat' first
    | exact h | apply State.stopDispatcher_kept | apply State.abortPart_kept | apply State.staleStreams_kept
    | apply State.setFld_kept | apply State.orReg_kept | refine Kept.ite ?_ ?_
theorem State.deviceSafe_kept {cause} (h : Kept s₀ s₁) : Kept s₀ (State.deviceSafe s₁ cause) := by
  unfold State.deviceSafe
  try dsimp only
  with_reducible repeat' first
    | exact h | apply State.complete_kept | apply State.setFld_kept | apply State.safeState_kept
    | apply State.orReg_kept | refine Kept.foldl _ (fun _ _ _ => ?_) _ ?_
    | refine Kept.foldlSnd _ (fun _ _ _ => ?_) _ ?_ | assumption | refine Kept.ite ?_ ?_ | split
    | refine Kept.upd ?_ ⟨rfl, rfl⟩
theorem State.setRecState_kept {scope v} (h : Kept s₀ s₁) : Kept s₀ (State.setRecState s₁ scope v) := by
  unfold State.setRecState
  try dsimp only
  with_reducible repeat' first | exact h | apply State.setFld_kept
theorem State.notify_kept {scope seq} (h : Kept s₀ s₁) : Kept s₀ (State.notify s₁ scope seq) := by
  unfold State.notify
  try dsimp only
  with_reducible repeat' first | exact h | apply State.msix_kept | apply State.send_kept | refine Kept.ite ?_ ?_
theorem State.logRecord_kept {r} (h : Kept s₀ s₁) : Kept s₀ (State.logRecord s₁ r) := by
  unfold State.logRecord
  try dsimp only
  with_reducible repeat' first
    | exact h | apply State.wr_kept | apply State.orReg_kept | refine Kept.ite ?_ ?_ | split
    | refine Kept.upd ?_ ⟨rfl, rfl⟩
theorem State.latchFirst_kept {scope r} (h : Kept s₀ s₁) : Kept s₀ (State.latchFirst s₁ scope r) := by
  unfold State.latchFirst
  try dsimp only
  with_reducible repeat' first | exact h | apply State.orReg_kept | apply State.wr_kept | refine Kept.ite ?_ ?_
theorem State.showPending_kept (h : Kept s₀ s₁) : Kept s₀ (State.showPending s₁) := by
  unfold State.showPending
  try dsimp only
  with_reducible repeat' first | exact h | apply State.setFld_kept
theorem State.modRecord_kept {seq f} (h : Kept s₀ s₁) : Kept s₀ (State.modRecord s₁ seq f) := by
  unfold State.modRecord
  try dsimp only
  with_reducible repeat' first | exact h | refine Kept.ite ?_ ?_ | split | refine Kept.upd ?_ ⟨rfl, rfl⟩
theorem State.askReset_kept {scope source seq} (h : Kept s₀ s₁) : Kept s₀ (State.askReset s₁ scope source seq) := by
  unfold State.askReset
  try dsimp only
  with_reducible repeat' first | exact h | refine Kept.ite ?_ ?_ | split | refine Kept.upd ?_ ⟨rfl, rfl⟩
theorem State.actAtOnce_kept {scope sev source seq} (h : Kept s₀ s₁) : Kept s₀ (State.actAtOnce s₁ scope sev source seq) := by
  unfold State.actAtOnce
  try dsimp only
  with_reducible repeat' first
    | exact h | apply State.askReset_kept | apply State.safeState_kept | apply State.deviceSafe_kept
    | refine Kept.ite ?_ ?_
theorem State.errUpdate_kept (h : Kept s₀ s₁) : Kept s₀ (State.errUpdate s₁) := by
  unfold State.errUpdate
  try dsimp only
  with_reducible repeat' first
    | exact h | apply State.setFld_kept | refine Kept.ite ?_ ?_ | split | refine Kept.upd ?_ ⟨rfl, rfl⟩
theorem State.raiseAt_kept {source scope sev action i} (h : Kept s₀ s₁) : Kept s₀ (State.raiseAt s₁ source scope sev action i) := by
  unfold State.raiseAt
  try dsimp only
  with_reducible repeat' first
    | exact h | apply State.logRecord_kept | apply State.notify_kept | apply State.latchFirst_kept
    | apply State.showPending_kept | apply State.errUpdate_kept | apply State.actAtOnce_kept | refine Kept.ite ?_ ?_
    | split | refine Kept.upd ?_ ⟨rfl, rfl⟩
theorem State.raise_kept {src scope i} (h : Kept s₀ s₁) : Kept s₀ (State.raise s₁ src scope i) := by
  unfold State.raise
  try dsimp only
  with_reducible repeat' first
    | exact h | apply State.countUp_kept | apply State.raiseAt_kept | refine Kept.ite ?_ ?_ | split
    | refine Kept.upd ?_ ⟨rfl, rfl⟩
theorem State.raiseCl_kept {src c x req unit i0 i1} (h : Kept s₀ s₁) : Kept s₀ (State.raiseCl s₁ src c x req unit i0 i1) := by
  unfold State.raiseCl
  try dsimp only
  with_reducible repeat' first | exact h | apply State.raise_kept
theorem State.raiseReq_kept {src r addr} (h : Kept s₀ s₁) : Kept s₀ (State.raiseReq s₁ src r addr) := by
  unfold State.raiseReq
  try dsimp only
  with_reducible repeat' first | exact h | apply State.raise_kept
theorem State.alignFirst_kept {p} (h : Kept s₀ s₁) : Kept s₀ (State.alignFirst s₁ p) := by
  unfold State.alignFirst
  try dsimp only
  with_reducible repeat' first | exact h | apply State.setDsp_kept | refine Kept.ite ?_ ?_ | split
theorem State.jumpApply_kept {a} (h : Kept s₀ s₁) : Kept s₀ (State.jumpApply s₁ a) := by
  unfold State.jumpApply
  try dsimp only
  with_reducible repeat' first
    | exact h | apply State.alignFirst_kept | apply State.countUp_kept | apply State.orReg_kept
    | apply State.raise_kept | refine Kept.foldl _ (fun _ _ _ => ?_) _ ?_
    | refine Kept.foldlSnd _ (fun _ _ _ => ?_) _ ?_ | assumption | refine Kept.ite ?_ ?_ | split
    | refine Kept.upd ?_ ⟨rfl, rfl⟩
theorem State.jumpRefuse_kept {a} (h : Kept s₀ s₁) : Kept s₀ (State.jumpRefuse s₁ a) := by
  unfold State.jumpRefuse
  try dsimp only
  with_reducible repeat' first
    | exact h | apply State.wr64_kept | apply State.orReg_kept | apply State.raise_kept | apply State.countUp_kept
theorem execJump_kept {r hi} (h : Kept s₀ s₁) : ∃ t₀, execJump r hi s₁ = .next t₀ ∧ Kept s₀ t₀ := by
  unfold execJump
  refine ⟨_, rfl, ?_⟩
  try dsimp only
  with_reducible repeat' first
    | exact h | apply State.jumpApply_kept | apply State.jumpRefuse_kept | refine Kept.ite ?_ ?_
theorem execSlew_kept {r hi} (h : Kept s₀ s₁) : ∃ t₀, execSlew r hi s₁ = .next t₀ ∧ Kept s₀ t₀ := by
  unfold execSlew
  refine ⟨_, rfl, ?_⟩
  try dsimp only
  with_reducible repeat' first | exact h | refine Kept.ite ?_ ?_ | split | refine Kept.upd ?_ ⟨rfl, rfl⟩
theorem State.setRate_kept {v} (h : Kept s₀ s₁) : Kept s₀ (State.setRate s₁ v) := by
  unfold State.setRate
  try dsimp only
  with_reducible repeat' first | exact h | apply State.wr_kept | apply State.raise_kept | refine Kept.ite ?_ ?_
theorem execTbRate_kept {r value} (h : Kept s₀ s₁) : ∃ t₀, execTbRate r value s₁ = .next t₀ ∧ Kept s₀ t₀ := by
  unfold execTbRate
  refine ⟨_, rfl, ?_⟩
  try dsimp only
  with_reducible repeat' first | exact h | apply State.setRate_kept | refine Kept.ite ?_ ?_
theorem execTbIncr_kept {r value} (h : Kept s₀ s₁) : ∃ t₀, execTbIncr r value s₁ = .next t₀ ∧ Kept s₀ t₀ := by
  unfold execTbIncr
  refine ⟨_, rfl, ?_⟩
  try dsimp only
  with_reducible repeat' first | exact h | apply State.setRate_kept | apply State.wr_kept | refine Kept.ite ?_ ?_
theorem State.latchHi_kept {hiAddr v} (h : Kept s₀ s₁) : Kept s₀ (State.latchHi s₁ hiAddr v) := by
  unfold State.latchHi
  try dsimp only
  with_reducible repeat' first | exact h | refine Kept.ite ?_ ?_ | split | refine Kept.upd ?_ ⟨rfl, rfl⟩
theorem State.tbTimeRead_kept (h : Kept s₀ s₁) : Kept s₀ (State.tbTimeRead s₁) := by
  unfold State.tbTimeRead
  try dsimp only
  with_reducible repeat' first | exact h | apply State.wr64_kept | apply State.latchHi_kept
theorem execTbTimeRead_kept {r} (h : Kept s₀ s₁) : ∃ t₀, execTbTimeRead r s₁ = .next t₀ ∧ Kept s₀ t₀ := by
  unfold execTbTimeRead
  refine ⟨_, rfl, ?_⟩
  try dsimp only
  with_reducible repeat' first | exact h | apply State.answer_kept | apply State.tbTimeRead_kept
theorem State.takeHi_kept {hiAddr live} (h : Kept s₀ s₁) : Kept s₀ (State.takeHi s₁ hiAddr live).2 := by
  unfold State.takeHi
  try dsimp only
  with_reducible repeat' first | exact h | refine Kept.ite ?_ ?_ | split | refine Kept.upd ?_ ⟨rfl, rfl⟩
theorem State.takeHi_kept' {hiAddr live} {r₀ u₀} (hq : State.takeHi s₁ hiAddr live = (r₀, u₀)) (h : Kept s₀ s₁) : Kept s₀ u₀ := by
  have := @State.takeHi_kept s₀ s₁ hiAddr live h
  rw [hq] at this
  exact this
theorem State.ppsRawHiRead_kept (h : Kept s₀ s₁) : Kept s₀ (State.ppsRawHiRead s₁).2 := by
  unfold State.ppsRawHiRead
  try dsimp only
  with_reducible repeat' first
    | exact h | apply State.takeHi_kept | refine State.takeHi_kept' ‹_› ?_ | refine Kept.ite ?_ ?_ | split
    | refine Kept.upd ?_ ⟨rfl, rfl⟩
theorem State.ppsRawHiRead_kept' {r₀ u₀} (hq : State.ppsRawHiRead s₁ = (r₀, u₀)) (h : Kept s₀ s₁) : Kept s₀ u₀ := by
  have := @State.ppsRawHiRead_kept s₀ s₁  h
  rw [hq] at this
  exact this
theorem execTbPpsinRawHiRead_kept {r} (h : Kept s₀ s₁) : ∃ t₀, execTbPpsinRawHiRead r s₁ = .next t₀ ∧ Kept s₀ t₀ := by
  unfold execTbPpsinRawHiRead
  refine ⟨_, rfl, ?_⟩
  try dsimp only
  with_reducible repeat' first | exact h | apply State.answer_kept | apply State.ppsRawHiRead_kept
theorem State.setTsFifo_kept {e eg l} (h : Kept s₀ s₁) : Kept s₀ (State.setTsFifo s₁ e eg l) := by
  unfold State.setTsFifo
  try dsimp only
  with_reducible repeat' first | exact h | refine Kept.ite ?_ ?_ | split | refine Kept.upd ?_ ⟨rfl, rfl⟩
theorem State.tsIdRead_kept {e eg} (h : Kept s₀ s₁) : Kept s₀ (State.tsIdRead s₁ e eg).2 := by
  unfold State.tsIdRead
  try dsimp only
  with_reducible repeat' first | exact h | apply State.setTsFifo_kept | refine Kept.ite ?_ ?_ | split
theorem State.tsIdRead_kept' {e eg} {r₀ u₀} (hq : State.tsIdRead s₁ e eg = (r₀, u₀)) (h : Kept s₀ s₁) : Kept s₀ u₀ := by
  have := @State.tsIdRead_kept s₀ s₁ e eg h
  rw [hq] at this
  exact this
theorem execTbTsIdRead_kept {r e egress} (h : Kept s₀ s₁) : ∃ t₀, execTbTsIdRead r e egress s₁ = .next t₀ ∧ Kept s₀ t₀ := by
  unfold execTbTsIdRead
  refine ⟨_, rfl, ?_⟩
  try dsimp only
  with_reducible repeat' first | exact h | apply State.answer_kept | apply State.tsIdRead_kept
theorem State.tsPush_kept {e eg t} (h : Kept s₀ s₁) : Kept s₀ (State.tsPush s₁ e eg t) := by
  unfold State.tsPush
  try dsimp only
  with_reducible repeat' first
    | exact h | apply State.raise_kept | apply State.orReg_kept | apply State.send_kept | apply State.setTsFifo_kept
    | refine Kept.ite ?_ ?_
theorem State.ppsPush_kept {age} (h : Kept s₀ s₁) : Kept s₀ (State.ppsPush s₁ age) := by
  unfold State.ppsPush
  try dsimp only
  with_reducible repeat' first
    | exact h | apply State.countUp_kept | refine Kept.ite ?_ ?_ | split | refine Kept.upd ?_ ⟨rfl, rfl⟩
theorem execPpsIn_kept (h : Kept s₀ s₁) : ∃ t₀, execPpsIn s₁ = .next t₀ ∧ Kept s₀ t₀ := by
  unfold execPpsIn
  refine ⟨_, rfl, ?_⟩
  try dsimp only
  with_reducible repeat' first
    | exact h | apply State.ppsPush_kept | refine Kept.ite ?_ ?_ | split | refine Kept.upd ?_ ⟨rfl, rfl⟩
theorem State.setGen_kept {g v} (h : Kept s₀ s₁) : Kept s₀ (State.setGen s₁ g v) := by
  unfold State.setGen
  try dsimp only
  with_reducible repeat' first | exact h | refine Kept.ite ?_ ?_ | split | refine Kept.upd ?_ ⟨rfl, rfl⟩
theorem State.genIrq_kept {g} (h : Kept s₀ s₁) : Kept s₀ (State.genIrq s₁ g) := by
  unfold State.genIrq
  try dsimp only
  with_reducible repeat' first | exact h | apply State.send_kept | apply State.msix_kept | refine Kept.ite ?_ ?_
theorem State.genFire_kept {g} (h : Kept s₀ s₁) : Kept s₀ (State.genFire s₁ g) := by
  unfold State.genFire
  try dsimp only
  with_reducible repeat' first
    | exact h | apply State.genIrq_kept | apply State.wr64_kept | apply State.setFld_kept | apply State.setGen_kept
    | apply State.countUp_kept | refine Kept.ite ?_ ?_
theorem execTriggerFire_kept {g} (h : Kept s₀ s₁) : ∃ t₀, execTriggerFire g s₁ = .next t₀ ∧ Kept s₀ t₀ := by
  unfold execTriggerFire
  refine ⟨_, rfl, ?_⟩
  try dsimp only
  with_reducible repeat' first | exact h | apply State.genFire_kept | refine Kept.ite ?_ ?_
theorem execPulseEnd_kept {g} (h : Kept s₀ s₁) : ∃ t₀, execPulseEnd g s₁ = .next t₀ ∧ Kept s₀ t₀ := by
  unfold execPulseEnd
  refine ⟨_, rfl, ?_⟩
  try dsimp only
  with_reducible repeat' first | exact h | apply State.setGen_kept | refine Kept.ite ?_ ?_ | split
theorem State.genCtrl_kept {g value} (h : Kept s₀ s₁) : Kept s₀ (State.genCtrl s₁ g value) := by
  unfold State.genCtrl
  try dsimp only
  with_reducible repeat' first
    | exact h | apply State.wr_kept | apply State.setGen_kept | apply State.orReg_kept | refine Kept.ite ?_ ?_
theorem execGenEnable_kept {_r g value} (h : Kept s₀ s₁) : ∃ t₀, execGenEnable _r g value s₁ = .next t₀ ∧ Kept s₀ t₀ := by
  unfold execGenEnable
  refine ⟨_, rfl, ?_⟩
  try dsimp only
  with_reducible repeat' first | exact h | apply State.genCtrl_kept | refine Kept.ite ?_ ?_
theorem State.genCfg_kept {g off value} (h : Kept s₀ s₁) : Kept s₀ (State.genCfg s₁ g off value) := by
  unfold State.genCfg
  try dsimp only
  with_reducible repeat' first | exact h | apply State.wr_kept | apply State.setFld_kept | refine Kept.ite ?_ ?_
theorem execGenCfgWrite_kept {_r g off value} (h : Kept s₀ s₁) : ∃ t₀, execGenCfgWrite _r g off value s₁ = .next t₀ ∧ Kept s₀ t₀ := by
  unfold execGenCfgWrite
  refine ⟨_, rfl, ?_⟩
  try dsimp only
  with_reducible repeat' first | exact h | apply State.genCfg_kept | refine Kept.ite ?_ ?_
theorem State.genRestart_kept {g first period width ctrl} (h : Kept s₀ s₁) : Kept s₀ (State.genRestart s₁ g first period width ctrl) := by
  unfold State.genRestart
  try dsimp only
  with_reducible repeat' first
    | exact h | apply State.setFld_kept | apply State.genCtrl_kept | apply State.wr_kept | apply State.wr64_kept
theorem execClockCheck_kept {measured} (h : Kept s₀ s₁) : ∃ t₀, execClockCheck measured s₁ = .next t₀ ∧ Kept s₀ t₀ := by
  unfold execClockCheck
  refine ⟨_, rfl, ?_⟩
  try dsimp only
  with_reducible repeat' first
    | exact h | apply State.raise_kept | refine Kept.ite ?_ ?_ | split | refine Kept.upd ?_ ⟨rfl, rfl⟩
theorem State.readReg_kept {a} (h : Kept s₀ s₁) : Kept s₀ (State.readReg s₁ a).2 := by
  unfold State.readReg
  try dsimp only
  with_reducible repeat' first
    | exact h | apply State.tbTimeRead_kept | apply State.ppsRawHiRead_kept | apply State.tsIdRead_kept
    | apply State.latchHi_kept | apply State.takeHi_kept | refine State.ppsRawHiRead_kept' ‹_› ?_
    | refine State.tsIdRead_kept' ‹_› ?_ | refine State.takeHi_kept' ‹_› ?_ | refine Kept.ite ?_ ?_ | split
theorem State.readReg_kept' {a} {r₀ u₀} (hq : State.readReg s₁ a = (r₀, u₀)) (h : Kept s₀ s₁) : Kept s₀ u₀ := by
  have := @State.readReg_kept s₀ s₁ a h
  rw [hq] at this
  exact this
theorem State.ndNote_kept {p w} (h : Kept s₀ s₁) : Kept s₀ (State.ndNote s₁ p w) := by
  unfold State.ndNote
  try dsimp only
  with_reducible repeat' first | exact h | refine Kept.ite ?_ ?_ | split | refine Kept.upd ?_ ⟨rfl, rfl⟩
theorem State.ndTiming_kept {p} (h : Kept s₀ s₁) : Kept s₀ (State.ndTiming s₁ p) := by
  unfold State.ndTiming
  try dsimp only
  with_reducible repeat' first
    | exact h | apply State.ndNote_kept | apply State.count64Hold_kept | refine Kept.ite ?_ ?_ | split
theorem State.portLoss_kept {bank n} (h : Kept s₀ s₁) : Kept s₀ (State.portLoss s₁ bank n) := by
  unfold State.portLoss
  try dsimp only
  with_reducible repeat' first
    | exact h | apply State.ndTiming_kept | apply State.countUp_kept | refine Kept.foldl _ (fun _ _ _ => ?_) _ ?_
    | refine Kept.foldlSnd _ (fun _ _ _ => ?_) _ ?_ | assumption | refine Kept.ite ?_ ?_
theorem State.displace_kept {bank} (h : Kept s₀ s₁) : Kept s₀ (State.displace s₁ bank) := by
  unfold State.displace
  try dsimp only
  with_reducible repeat' first | exact h | refine Kept.ite ?_ ?_ | split | refine Kept.upd ?_ ⟨rfl, rfl⟩
theorem State.usePort_kept {u} (h : Kept s₀ s₁) : Kept s₀ (State.usePort s₁ u) := by
  unfold State.usePort
  try dsimp only
  with_reducible repeat' first
    | exact h | apply State.portLoss_kept | apply State.displace_kept | refine Kept.ite ?_ ?_ | split
    | refine Kept.upd ?_ ⟨rfl, rfl⟩
theorem State.usePorts_kept {r a n wr rank} (h : Kept s₀ s₁) : Kept s₀ (State.usePorts s₁ r a n wr rank) := by
  unfold State.usePorts
  try dsimp only
  with_reducible repeat' first
    | exact h | apply State.usePort_kept | refine Kept.foldl _ (fun _ _ _ => ?_) _ ?_
    | refine Kept.foldlSnd _ (fun _ _ _ => ?_) _ ?_ | assumption
theorem State.wantPorts_kept {r a n wr} (h : Kept s₀ s₁) : Kept s₀ (State.wantPorts s₁ r a n wr) := by
  unfold State.wantPorts
  try dsimp only
  with_reducible repeat' first | exact h | apply State.usePorts_kept
theorem State.keepRow_kept {a n} (h : Kept s₀ s₁) : Kept s₀ (State.keepRow s₁ a n) := by
  unfold State.keepRow
  try dsimp only
  with_reducible repeat' first | exact h | refine Kept.ite ?_ ?_ | split | refine Kept.upd ?_ ⟨rfl, rfl⟩
theorem State.mcNote_kept {c cha kind patrol symbol} (h : Kept s₀ s₁) : Kept s₀ (State.mcNote s₁ c cha kind patrol symbol) := by
  unfold State.mcNote
  try dsimp only
  with_reducible repeat' first | exact h | apply State.wr_kept | apply State.orReg_kept | refine Kept.ite ?_ ?_
theorem State.owesBack_kept {w} (h : Kept s₀ s₁) : Kept s₀ (State.owesBack s₁ w) := by
  unfold State.owesBack
  try dsimp only
  with_reducible repeat' first | exact h | refine Kept.ite ?_ ?_ | split | refine Kept.upd ?_ ⟨rfl, rfl⟩
theorem State.eccHit_kept {r e} (h : Kept s₀ s₁) : Kept s₀ (State.eccHit s₁ r e) := by
  unfold State.eccHit
  try dsimp only
  with_reducible repeat' first
    | exact h | apply State.eccNote_kept | apply State.owesBack_kept | apply State.countUp_kept
    | apply State.raise_kept | apply State.mcNote_kept | refine Kept.ite ?_ ?_ | split
theorem State.memFetch_kept {r a n} (h : Kept s₀ s₁) : Kept s₀ (State.memFetch s₁ r a n).2 := by
  unfold State.memFetch
  try dsimp only
  with_reducible repeat' first
    | exact h | apply State.raiseReq_kept | apply State.eccHit_kept | apply State.mcBytes_kept
    | refine Kept.foldl _ (fun _ _ _ => ?_) _ ?_ | refine Kept.foldlSnd _ (fun _ _ _ => ?_) _ ?_ | assumption
    | refine Kept.ite ?_ ?_ | split
theorem State.memFetch_kept' {r a n} {r₀ u₀} (hq : State.memFetch s₁ r a n = (r₀, u₀)) (h : Kept s₀ s₁) : Kept s₀ u₀ := by
  have := @State.memFetch_kept s₀ s₁ r a n h
  rw [hq] at this
  exact this
theorem State.memRead_kept {r a n} (h : Kept s₀ s₁) : Kept s₀ (State.memRead s₁ r a n).2 := by
  unfold State.memRead
  try dsimp only
  with_reducible repeat' first
    | exact h | apply State.memFetch_kept | apply State.wantPorts_kept | refine State.memFetch_kept' ‹_› ?_
    | refine Kept.ite ?_ ?_
theorem State.memRead_kept' {r a n} {r₀ u₀} (hq : State.memRead s₁ r a n = (r₀, u₀)) (h : Kept s₀ s₁) : Kept s₀ u₀ := by
  have := @State.memRead_kept s₀ s₁ r a n h
  rw [hq] at this
  exact this
theorem State.payOwed_kept (h : Kept s₀ s₁) : Kept s₀ (State.payOwed s₁) := by
  unfold State.payOwed
  try dsimp only
  with_reducible repeat' first
    | exact h | apply State.raise_kept | refine Kept.foldl _ (fun _ _ _ => ?_) _ ?_
    | refine Kept.foldlSnd _ (fun _ _ _ => ?_) _ ?_ | assumption | refine Kept.ite ?_ ?_ | split
    | refine Kept.upd ?_ ⟨rfl, rfl⟩
theorem Memory.writeIf_wf (m : Memory) (f : Nat → Bool) (a : Nat) (l : List Byte) (h : m.wf = true) : (m.writeIf f a l).wf = true := by
  unfold Memory.writeIf
  generalize l.zipIdx = q
  induction q generalizing m with
  | nil => exact h
  | cons e r ih =>
    refine ih _ ?_
    show Memory.wf (if _ then _ else _) = true
    split
    · exact Memory.put_wf _ _ _ h
    · exact h
theorem State.memWrite_kept {r a l} (h : Kept s₀ s₁) : Kept s₀ (State.memWrite s₁ r a l).2 := by
  unfold State.memWrite
  extract_lets n part err s2 ok src m m2 s3
  have h2 : Kept s₀ s2 := Kept.foldl _ (fun _ _ h => State.eccHit_kept h) _ h
  have h3 : Kept s₀ s3 := by
    show Kept s₀ (if a < lpddrTop then _ else _)
    exact Kept.ite (State.mcBytes_kept h2) (State.wantPorts_kept (State.keepRow_kept h2))
  have hm : s2.mem.wf = true → m2.wf = true := by
    intro w
    show Memory.wf (if _ then _ else _) = true
    have w' : m.wf = true := Memory.wf_iff _ _ rfl rfl w
    split
    · exact Memory.write_wf _ _ _ w'
    · exact Memory.writeIf_wf _ _ _ _ w'
  clear_value s3 m2
  split
  · exact State.raiseReq_kept h
  · split
    · exact State.raiseReq_kept h
    · exact ⟨h3.pending, h3.aon, fun w => hm (h2.mem w), h3.regs, h3.time⟩
theorem State.memWrite_kept' {r a l} {r₀ u₀} (hq : State.memWrite s₁ r a l = (r₀, u₀)) (h : Kept s₀ s₁) : Kept s₀ u₀ := by
  have := @State.memWrite_kept s₀ s₁ r a l h
  rw [hq] at this
  exact this
theorem State.ndValue_kept {p src r} (h : Kept s₀ s₁) : Kept s₀ (State.ndValue s₁ p src r) := by
  unfold State.ndValue
  try dsimp only
  with_reducible repeat' first
    | exact h | apply State.wr_kept | apply State.ndNote_kept | apply State.count64Hold_kept | refine Kept.ite ?_ ?_
    | split
theorem State.memAtomic_kept {r op a operand expected} (h : Kept s₀ s₁) : Kept s₀ (State.memAtomic s₁ r op a operand expected).2 := by
  unfold State.memAtomic
  try dsimp only
  with_reducible repeat' first
    | exact h | apply State.raiseReq_kept | apply State.memRead_kept | apply State.ndValue_kept
    | apply State.memWrite_kept | refine State.memRead_kept' ‹_› ?_ | refine State.memWrite_kept' ‹_› ?_
    | refine Kept.ite ?_ ?_ | split
theorem State.memAtomic_kept' {r op a operand expected} {r₀ u₀} (hq : State.memAtomic s₁ r op a operand expected = (r₀, u₀)) (h : Kept s₀ s₁) : Kept s₀ u₀ := by
  have := @State.memAtomic_kept s₀ s₁ r op a operand expected h
  rw [hq] at this
  exact this
theorem afterRead_kept {α : Type} {r : RdRes × State} {err : AccErr → State → α × State} {ok : List Byte → State → α × State}
    (h : Kept s₀ r.2) (he : ∀ e u, Kept s₀ u → Kept s₀ (err e u).2) (ho : ∀ d u, Kept s₀ u → Kept s₀ (ok d u).2) :
    Kept s₀ (afterRead r err ok).2 := by
  unfold afterRead
  split
  · exact he _ _ h
  · exact ho _ _ h
theorem afterWrite_kept {α : Type} {w : Option AccErr × State} {err : AccErr → State → α × State} {ok : State → α × State}
    (h : Kept s₀ w.2) (he : ∀ e u, Kept s₀ u → Kept s₀ (err e u).2) (ho : ∀ u, Kept s₀ u → Kept s₀ (ok u).2) :
    Kept s₀ (afterWrite w err ok).2 := by
  unfold afterWrite
  split
  · exact he _ _ h
  · exact ho _ h
theorem State.setPort_kept {n v} (h : Kept s₀ s₁) : Kept s₀ (State.setPort s₁ n v) := by
  unfold State.setPort
  try dsimp only
  with_reducible repeat' first | exact h | refine Kept.ite ?_ ?_ | split | refine Kept.upd ?_ ⟨rfl, rfl⟩
theorem State.transmit_kept {n pkt} (h : Kept s₀ s₁) : Kept s₀ (State.transmit s₁ n pkt) := by
  unfold State.transmit
  try dsimp only
  with_reducible repeat' first
    | exact h | apply State.setPort_kept | apply State.send_kept | apply State.count64Hold_kept
theorem State.originate_kept {pkt} (h : Kept s₀ s₁) : Kept s₀ (State.originate s₁ pkt) := by
  unfold State.originate
  try dsimp only
  with_reducible repeat' first | exact h | apply State.transmit_kept | refine Kept.ite ?_ ?_ | split
theorem State.spSend_kept {r timed q} (h : Kept s₀ s₁) : Kept s₀ (State.spSend s₁ r timed q).2 := by
  unfold State.spSend
  try dsimp only
  with_reducible repeat' first
    | exact h | apply State.raiseReq_kept | apply State.abortCtx_kept | apply State.transmit_kept
    | refine Kept.ite ?_ ?_ | split | refine Kept.upd ?_ ⟨rfl, rfl⟩
theorem State.spSend_kept' {r timed q} {r₀ u₀} (hq : State.spSend s₁ r timed q = (r₀, u₀)) (h : Kept s₀ s₁) : Kept s₀ u₀ := by
  have := @State.spSend_kept s₀ s₁ r timed q h
  rw [hq] at this
  exact this
theorem State.clearTiming_kept {p} (h : Kept s₀ s₁) : Kept s₀ (State.clearTiming s₁ p) := by
  unfold State.clearTiming
  try dsimp only
  with_reducible repeat' first | exact h | apply State.wr64_kept
theorem State.clearValue_kept {p} (h : Kept s₀ s₁) : Kept s₀ (State.clearValue s₁ p) := by
  unfold State.clearValue
  try dsimp only
  with_reducible repeat' first | exact h | apply State.wr_kept | apply State.wr64_kept
theorem execClrTiming_kept {r p} (h : Kept s₀ s₁) : ∃ t₀, execClrTiming r p s₁ = .next t₀ ∧ Kept s₀ t₀ := by
  unfold execClrTiming
  refine ⟨_, rfl, ?_⟩
  try dsimp only
  with_reducible repeat' first | exact h | apply State.clearTiming_kept | refine Kept.ite ?_ ?_
theorem execClrValue_kept {r p} (h : Kept s₀ s₁) : ∃ t₀, execClrValue r p s₁ = .next t₀ ∧ Kept s₀ t₀ := by
  unfold execClrValue
  refine ⟨_, rfl, ?_⟩
  try dsimp only
  with_reducible repeat' first | exact h | apply State.clearValue_kept | refine Kept.ite ?_ ?_
theorem State.ndClear_kept {ring idx k} (h : Kept s₀ s₁) : Kept s₀ (State.ndClear s₁ ring idx k) := by
  unfold State.ndClear
  try dsimp only
  with_reducible repeat' first
    | exact h | apply State.complete_kept | apply State.clearTiming_kept | apply State.clearValue_kept
    | refine Kept.ite ?_ ?_
theorem execNdClear_kept {ring idx} (h : Kept s₀ s₁) : ∃ t₀, execNdClear ring idx s₁ = .next t₀ ∧ Kept s₀ t₀ := by
  unfold execNdClear
  refine ⟨_, rfl, ?_⟩
  try dsimp only
  with_reducible repeat' first
    | exact h | refine State.mbox_kept ?_ (fun _ _ _ => ?_) | assumption | apply State.ndClear_kept
theorem State.hold_kept {a1} (h : Kept s₀ s₁) : Kept s₀ (State.hold s₁ a1) := by
  unfold State.hold
  try dsimp only
  with_reducible repeat' first | exact h | refine Kept.ite ?_ ?_ | split | refine Kept.upd ?_ ⟨rfl, rfl⟩
theorem State.seedCmd_kept {ring idx k} (h : Kept s₀ s₁) : Kept s₀ (State.seedCmd s₁ ring idx k) := by
  unfold State.seedCmd
  try dsimp only
  with_reducible repeat' first | exact h | apply State.complete_kept | apply State.hold_kept | refine Kept.ite ?_ ?_
theorem execSeed_kept {ring idx} (h : Kept s₀ s₁) : ∃ t₀, execSeed ring idx s₁ = .next t₀ ∧ Kept s₀ t₀ := by
  unfold execSeed
  refine ⟨_, rfl, ?_⟩
  try dsimp only
  with_reducible repeat' first
    | exact h | refine State.mbox_kept ?_ (fun _ _ _ => ?_) | assumption | apply State.seedCmd_kept
theorem State.walkFrom_kept {r va a2 a3 a4} (h : Kept s₀ s₁) : Kept s₀ (State.walkFrom s₁ r va a2 a3 a4).2 := by
  induction a2 generalizing s₁ a3 a4 with
  | zero => exact h
  | succ n ih =>
    have hm : Kept s₀ (s₁.memRead r (a4 + 8 * tableIndex a3 va) 8).2 := State.memRead_kept h
    simp only [State.walkFrom]
    split
    · exact hm
    · exact hm
    · split
      · exact hm
      · split
        · exact hm
        · split
          · exact hm
          · exact ih hm
theorem State.putMicro_kept {c e} (h : Kept s₀ s₁) : Kept s₀ (State.putMicro s₁ c e) := by
  unfold State.putMicro
  try dsimp only
  with_reducible repeat' first | exact h | refine Kept.ite ?_ ?_ | split | refine Kept.upd ?_ ⟨rfl, rfl⟩
theorem State.pteInvalid_kept {r c x va} (h : Kept s₀ s₁) : Kept s₀ (State.pteInvalid s₁ r c x va) := by
  unfold State.pteInvalid
  try dsimp only
  with_reducible repeat' first | exact h | apply State.raiseCl_kept
theorem State.walked_kept (h : Kept s₀ s₁) : Kept s₀ (State.walked s₁) := by
  unfold State.walked
  try dsimp only
  with_reducible repeat' first | exact h | apply State.count64_kept
theorem State.install_kept {c e va right} (h : Kept s₀ s₁) : Kept s₀ (State.install s₁ c e va right).2 := by
  unfold State.install
  try dsimp only
  with_reducible repeat' first
    | exact h | apply State.putMicro_kept | refine Kept.ite ?_ ?_ | split | refine Kept.upd ?_ ⟨rfl, rfl⟩
theorem State.walk_kept {r c x va right snap} (h : Kept s₀ s₁) : Kept s₀ (State.walk s₁ r c x va right snap).2 := by
  unfold State.walk
  extract_lets start w t
  have hw : Kept s₀ t := State.walked_kept (State.walkFrom_kept h)
  clear_value t
  split
  · exact State.install_kept hw
  · exact Kept.snd_mk (Kept.ite (State.pteInvalid_kept hw) hw)
theorem State.walk_kept' {r c x va right snap} {r₀ u₀} (hq : State.walk s₁ r c x va right snap = (r₀, u₀)) (h : Kept s₀ s₁) : Kept s₀ u₀ := by
  have := @State.walk_kept s₀ s₁ r c x va right snap h
  rw [hq] at this
  exact this
theorem State.xlate_kept {r c x va right snap} (h : Kept s₀ s₁) : Kept s₀ (State.xlate s₁ r c x va right snap).2 := by
  unfold State.xlate
  try dsimp only
  with_reducible repeat' first
    | exact h | apply State.putMicro_kept | apply State.walk_kept | refine State.walk_kept' ‹_› ?_
    | refine Kept.ite ?_ ?_ | split | refine Kept.upd ?_ ⟨rfl, rfl⟩
theorem State.xlate_kept' {r c x va right snap} {r₀ u₀} (hq : State.xlate s₁ r c x va right snap = (r₀, u₀)) (h : Kept s₀ s₁) : Kept s₀ u₀ := by
  have := @State.xlate_kept s₀ s₁ r c x va right snap h
  rw [hq] at this
  exact this
theorem State.xlAbort_kept {r c x va q} (h : Kept s₀ s₁) : Kept s₀ (State.xlAbort s₁ r c x va q) := by
  unfold State.xlAbort
  try dsimp only
  with_reducible repeat' first
    | exact h | apply State.abortCtx_kept | apply State.raiseCl_kept | refine Kept.ite ?_ ?_ | split
theorem State.bbViolation_kept {r c x ga} (h : Kept s₀ s₁) : Kept s₀ (State.bbViolation s₁ r c x ga) := by
  unfold State.bbViolation
  try dsimp only
  with_reducible repeat' first | exact h | apply State.abortCtx_kept | apply State.raiseCl_kept
theorem State.farRead_kept {r ga} (h : Kept s₀ s₁) : Kept s₀ (State.farRead s₁ r ga) := by
  unfold State.farRead
  try dsimp only
  with_reducible repeat' first | exact h | apply State.raiseReq_kept | refine Kept.ite ?_ ?_
theorem State.farWrite_kept {r c x ga l} (h : Kept s₀ s₁) : Kept s₀ (State.farWrite s₁ r c x ga l).2 := by
  unfold State.farWrite
  try dsimp only
  with_reducible repeat' first
    | exact h | apply State.spSend_kept | apply State.abortCtx_kept | refine State.spSend_kept' ‹_› ?_
    | refine Kept.foldl _ (fun _ _ _ => ?_) _ ?_ | refine Kept.foldlSnd _ (fun _ _ _ => ?_) _ ?_ | assumption
    | refine Kept.ite ?_ ?_ | split
theorem State.farWrite_kept' {r c x ga l} {r₀ u₀} (hq : State.farWrite s₁ r c x ga l = (r₀, u₀)) (h : Kept s₀ s₁) : Kept s₀ u₀ := by
  have := @State.farWrite_kept s₀ s₁ r c x ga l h
  rw [hq] at this
  exact this
theorem State.ctxRead1_kept {r c x va n snap} (h : Kept s₀ s₁) : Kept s₀ (State.ctxRead1 s₁ r c x va n snap).2 := by
  unfold State.ctxRead1
  try dsimp only
  with_reducible repeat' first
    | exact h | apply State.abortCtx_kept | apply State.xlate_kept | apply State.bbViolation_kept
    | apply State.memRead_kept | apply State.farRead_kept | apply State.xlAbort_kept | refine State.xlate_kept' ‹_› ?_
    | refine State.memRead_kept' ‹_› ?_ | refine Kept.ite ?_ ?_ | split
theorem State.ctxRead1_kept' {r c x va n snap} {r₀ u₀} (hq : State.ctxRead1 s₁ r c x va n snap = (r₀, u₀)) (h : Kept s₀ s₁) : Kept s₀ u₀ := by
  have := @State.ctxRead1_kept s₀ s₁ r c x va n snap h
  rw [hq] at this
  exact this
theorem State.ctxRead_kept {r c x va n} (h : Kept s₀ s₁) : Kept s₀ (State.ctxRead s₁ r c x va n).2 := by
  unfold State.ctxRead
  try dsimp only
  with_reducible repeat' first
    | exact h | apply State.ctxRead1_kept | refine State.ctxRead1_kept' ‹_› ?_
    | refine Kept.foldl _ (fun _ _ _ => ?_) _ ?_ | refine Kept.foldlSnd _ (fun _ _ _ => ?_) _ ?_ | assumption
    | refine Kept.ite ?_ ?_ | split
theorem State.ctxRead_kept' {r c x va n} {r₀ u₀} (hq : State.ctxRead s₁ r c x va n = (r₀, u₀)) (h : Kept s₀ s₁) : Kept s₀ u₀ := by
  have := @State.ctxRead_kept s₀ s₁ r c x va n h
  rw [hq] at this
  exact this
theorem State.ctxWrite1_kept {r c x va l} (h : Kept s₀ s₁) : Kept s₀ (State.ctxWrite1 s₁ r c x va l).2 := by
  unfold State.ctxWrite1
  try dsimp only
  with_reducible repeat' first
    | exact h | apply State.abortCtx_kept | apply State.xlate_kept | apply State.bbViolation_kept
    | apply State.memWrite_kept | apply State.farWrite_kept | apply State.xlAbort_kept
    | refine State.xlate_kept' ‹_› ?_ | refine State.memWrite_kept' ‹_› ?_ | refine State.farWrite_kept' ‹_› ?_
    | refine Kept.ite ?_ ?_ | split
theorem State.ctxWrite1_kept' {r c x va l} {r₀ u₀} (hq : State.ctxWrite1 s₁ r c x va l = (r₀, u₀)) (h : Kept s₀ s₁) : Kept s₀ u₀ := by
  have := @State.ctxWrite1_kept s₀ s₁ r c x va l h
  rw [hq] at this
  exact this
theorem State.ctxWrite_kept {r c x va l} (h : Kept s₀ s₁) : Kept s₀ (State.ctxWrite s₁ r c x va l).2 := by
  unfold State.ctxWrite
  try dsimp only
  with_reducible repeat' first
    | exact h | apply State.ctxWrite1_kept | refine State.ctxWrite1_kept' ‹_› ?_
    | refine Kept.foldl _ (fun _ _ _ => ?_) _ ?_ | refine Kept.foldlSnd _ (fun _ _ _ => ?_) _ ?_ | assumption
    | refine Kept.ite ?_ ?_ | split
theorem State.ctxWrite_kept' {r c x va l} {r₀ u₀} (hq : State.ctxWrite s₁ r c x va l = (r₀, u₀)) (h : Kept s₀ s₁) : Kept s₀ u₀ := by
  have := @State.ctxWrite_kept s₀ s₁ r c x va l h
  rw [hq] at this
  exact this
theorem State.fenceIssue_kept {cmd mb} (h : Kept s₀ s₁) : Kept s₀ (State.fenceIssue s₁ cmd mb) := by
  unfold State.fenceIssue
  try dsimp only
  with_reducible repeat' first
    | exact h | apply State.orReg_kept | apply State.countWrap_kept | refine Kept.ite ?_ ?_ | split
    | refine Kept.upd ?_ ⟨rfl, rfl⟩
theorem execFenceIssue_kept {r hi} (h : Kept s₀ s₁) : ∃ t₀, execFenceIssue r hi s₁ = .next t₀ ∧ Kept s₀ t₀ := by
  unfold execFenceIssue
  refine ⟨_, rfl, ?_⟩
  try dsimp only
  with_reducible repeat' first | exact h | apply State.fenceIssue_kept | refine Kept.ite ?_ ?_
theorem State.fenceRetire_kept {f} (h : Kept s₀ s₁) : Kept s₀ (State.fenceRetire s₁ f) := by
  unfold State.fenceRetire
  try dsimp only
  with_reducible repeat' first
    | exact h | apply State.countWrap_kept | apply State.complete_kept | refine Kept.ite ?_ ?_ | split
    | refine Kept.upd ?_ ⟨rfl, rfl⟩
theorem execFenceRetire_kept (h : Kept s₀ s₁) : ∃ t₀, execFenceRetire s₁ = .next t₀ ∧ Kept s₀ t₀ := by
  unfold execFenceRetire
  refine ⟨_, rfl, ?_⟩
  try dsimp only
  with_reducible repeat' first | exact h | apply State.fenceRetire_kept | refine Kept.ite ?_ ?_ | split
theorem execFence_kept {ring idx} (h : Kept s₀ s₁) : ∃ t₀, execFence ring idx s₁ = .next t₀ ∧ Kept s₀ t₀ := by
  unfold execFence
  refine ⟨_, rfl, ?_⟩
  try dsimp only
  with_reducible repeat' first
    | exact h | refine State.mbox_kept ?_ (fun _ _ _ => ?_) | assumption | apply State.fenceIssue_kept
    | apply State.complete_kept | refine Kept.ite ?_ ?_
theorem State.leaves_kept {r a1 a2 a3 a4} (h : Kept s₀ s₁) : Kept s₀ (State.leaves s₁ r a1 a2 a3 a4).2 := by
  induction a1 generalizing s₁ a2 a3 a4 with
  | zero => exact h
  | succ n ih =>
    unfold State.leaves
    refine Kept.foldlSnd _ (fun t i ht => ?_) _ h
    have hm : Kept s₀ (t.2.memRead r (a3 + 8 * i) 8).2 := State.memRead_kept ht
    dsimp only
    split
    · exact hm
    · split
      · exact hm
      · split
        · exact hm
        · split
          · exact hm
          · exact ih hm
theorem State.lockTask_kept {p t} (h : Kept s₀ s₁) : Kept s₀ (State.lockTask s₁ p t).2 := by
  unfold State.lockTask
  extract_lets q
  have hq : Kept s₀ q.2 := State.leaves_kept h
  clear_value q
  split
  · exact hq
  · split
    · exact Kept.snd_mk (Kept.upd hq ⟨rfl, rfl⟩)
    · exact hq
theorem State.lockProgram_kept {p g} (h : Kept s₀ s₁) : Kept s₀ (State.lockProgram s₁ p g).2 := by
  unfold State.lockProgram
  refine Kept.foldlSnd _ (fun t q ht => ?_) _ h
  split
  · exact ht
  · exact State.lockTask_kept ht
theorem State.lockProgram_kept' {p g} {r₀ u₀} (hq : State.lockProgram s₁ p g = (r₀, u₀)) (h : Kept s₀ s₁) : Kept s₀ u₀ := by
  have := @State.lockProgram_kept s₀ s₁ p g h
  rw [hq] at this
  exact this
theorem State.unlock_kept {p} (h : Kept s₀ s₁) : Kept s₀ (State.unlock s₁ p) := by
  unfold State.unlock
  try dsimp only
  with_reducible repeat' first | exact h | refine Kept.ite ?_ ?_ | split | refine Kept.upd ?_ ⟨rfl, rfl⟩
theorem pagesZero_wf (l : List (Nat × Nat)) (m : Memory) (h : m.wf = true) : (l.foldl (fun m p => m.zero p.1 p.2) m).wf = true := by
  induction l generalizing m with
  | nil => exact h
  | cons a r ih => exact ih _ (Memory.zero_wf _ _ _ h)
theorem State.zeroWindow_kept {r e} (h : Kept s₀ s₁) : Kept s₀ (State.zeroWindow s₁ r e) := by
  unfold State.zeroWindow
  exact Kept.updMem (State.leaves_kept h) fun w => pagesZero_wf _ _ w
theorem execLpddr6ZeroFill_kept {c x} (h : Kept s₀ s₁) : ∃ t₀, execLpddr6ZeroFill c x s₁ = .next t₀ ∧ Kept s₀ t₀ := by
  unfold execLpddr6ZeroFill
  refine ⟨_, rfl, ?_⟩
  try dsimp only
  with_reducible repeat' first
    | exact h | apply State.zeroWindow_kept | refine Kept.foldl _ (fun _ _ _ => ?_) _ ?_
    | refine Kept.foldlSnd _ (fun _ _ _ => ?_) _ ?_ | assumption | refine Kept.ite ?_ ?_ | split
    | refine Kept.upd ?_ ⟨rfl, rfl⟩
theorem State.scrubDrop_kept {c x w} (h : Kept s₀ s₁) : Kept s₀ (State.scrubDrop s₁ c x w) := by
  unfold State.scrubDrop
  try dsimp only
  with_reducible repeat' first | exact h | refine Kept.ite ?_ ?_ | split | refine Kept.upd ?_ ⟨rfl, rfl⟩
theorem State.scrubReserve_kept {c x w} (h : Kept s₀ s₁) : Kept s₀ (State.scrubReserve s₁ c x w) := by
  unfold State.scrubReserve
  generalize s₁.scrubAsk c x w = q
  cases q with
  | none => exact h
  | some e =>
    show Kept s₀ (if 256 ≤ s₁.tu.scrub.length then _ else _)
    split
    · exact State.raiseCl_kept (State.setFld_kept h)
    · exact Kept.upd h ⟨rfl, rfl⟩
theorem State.bbWrite_kept {c x w word value} (h : Kept s₀ s₁) : Kept s₀ (State.bbWrite s₁ c x w word value) := by
  unfold State.bbWrite
  try dsimp only
  with_reducible repeat' first
    | exact h | apply State.wr_kept | apply State.scrubReserve_kept | apply State.scrubDrop_kept
    | refine Kept.ite ?_ ?_
theorem execBbWindowWrite_kept {r c x w word value} (h : Kept s₀ s₁) : ∃ t₀, execBbWindowWrite r c x w word value s₁ = .next t₀ ∧ Kept s₀ t₀ := by
  unfold execBbWindowWrite
  refine ⟨_, rfl, ?_⟩
  try dsimp only
  with_reducible repeat' first | exact h | apply State.bbWrite_kept | refine Kept.ite ?_ ?_
theorem State.issued_kept {c a x} (h : Kept s₀ s₁) : Kept s₀ (State.issued s₁ c a x) := by
  unfold State.issued
  try dsimp only
  with_reducible repeat' first
    | exact h | apply State.ndTiming_kept | apply State.setArr_kept | apply State.started_kept | refine Kept.ite ?_ ?_
theorem State.tilerFlag_kept {c x f} (h : Kept s₀ s₁) : Kept s₀ (State.tilerFlag s₁ c x f) := by
  unfold State.tilerFlag
  try dsimp only
  with_reducible repeat' first | exact h | apply State.setCtx_kept | refine Kept.ite ?_ ?_
theorem State.modHead_kept {c a x f} (h : Kept s₀ s₁) : Kept s₀ (State.modHead s₁ c a x f) := by
  unfold State.modHead
  try dsimp only
  with_reducible repeat' first | exact h | apply State.setArr_kept
theorem State.instrInvalid_kept {c a x i} (h : Kept s₀ s₁) : Kept s₀ (State.instrInvalid s₁ c a x i) := by
  unfold State.instrInvalid
  try dsimp only
  with_reducible repeat' first
    | exact h | apply State.raiseCl_kept | apply State.setFld_kept | apply State.abortCtx_kept
theorem State.accBound_kept {c a x i} (h : Kept s₀ s₁) : Kept s₀ (State.accBound s₁ c a x i) := by
  unfold State.accBound
  try dsimp only
  with_reducible repeat' first
    | exact h | apply State.raiseCl_kept | apply State.modHead_kept | apply State.tilerFlag_kept
    | apply State.abortCtx_kept | refine Kept.ite ?_ ?_
theorem State.readSlots_kept {r c rank runs} (h : Kept s₀ s₁) : Kept s₀ (State.readSlots s₁ r c rank runs).2 := by
  unfold State.readSlots
  refine Kept.foldlSnd _ (fun t q ht => ?_) _ h
  cases t.1 with
  | some e => exact ht
  | none =>
    refine Kept.snd_mk (State.memFetch_kept ?_)
    cases rank with
    | none => exact ht
    | some k => exact State.usePorts_kept ht
theorem State.readSlots_kept' {r c rank runs} {r₀ u₀} (hq : State.readSlots s₁ r c rank runs = (r₀, u₀)) (h : Kept s₀ s₁) : Kept s₀ u₀ := by
  have := @State.readSlots_kept s₀ s₁ r c rank runs h
  rw [hq] at this
  exact this
theorem State.ramp_kept {c a} (h : Kept s₀ s₁) : Kept s₀ (State.ramp s₁ c a) := by
  unfold State.ramp
  try dsimp only
  with_reducible repeat' first | exact h | apply State.countUp_kept | refine Kept.ite ?_ ?_
theorem State.issueCheck_kept {c a x i} (h : Kept s₀ s₁) : Kept s₀ (State.issueCheck s₁ c a x i).2 := by
  unfold State.issueCheck
  split
  · exact State.instrInvalid_kept h
  · split
    · exact State.accBound_kept h
    · split
      · exact State.bbViolation_kept h
      · extract_lets rd
        have hr : Kept s₀ rd.2 := State.readSlots_kept h
        clear_value rd
        split
        · exact hr
        · split
          · refine Kept.snd_mk ?_
            have h2 : Kept s₀ (if i.op = 3 then rd.2.ramp c a else rd.2) := Kept.ite (State.ramp_kept hr) hr
            exact Kept.ite (State.countUp_kept (State.orReg_kept (State.setFld_kept (State.abortCtx_kept h2)))) (State.setFld_kept (State.abortCtx_kept h2))
          · exact State.abortCtx_kept hr
theorem State.issueCheck_kept' {c a x i} {r₀ u₀} (hq : State.issueCheck s₁ c a x i = (r₀, u₀)) (h : Kept s₀ s₁) : Kept s₀ u₀ := by
  have := @State.issueCheck_kept s₀ s₁ c a x i h
  rw [hq] at this
  exact this
theorem State.issueWith_kept {c a x op f} (h : Kept s₀ s₁) (hf : ∀ i t, Kept s₀ t → Kept s₀ (f i t)) :
    Kept s₀ (State.issueWith s₁ c a x op f) := by
  unfold State.issueWith
  dsimp only
  split
  · exact h
  · split
    · split
      · exact hf _ _ (State.issued_kept (State.issueCheck_kept h))
      · exact State.issueCheck_kept h
    · exact h
theorem State.lateData_kept {c unit late} (h : Kept s₀ s₁) : Kept s₀ (State.lateData s₁ c unit late) := by
  unfold State.lateData
  try dsimp only
  with_reducible repeat' first
    | exact h | apply State.orReg_kept | apply State.countUp_kept | apply State.modTask_kept
    | apply State.raiseCl_kept | refine Kept.ite ?_ ?_ | split
theorem State.slotConflict_kept {p c unit} (h : Kept s₀ s₁) : Kept s₀ (State.slotConflict s₁ p c unit) := by
  unfold State.slotConflict
  try dsimp only
  with_reducible repeat' first
    | exact h | apply State.orReg_kept | apply State.countUp_kept | apply State.raiseCl_kept
theorem State.timedWait_kept {c a} (h : Kept s₀ s₁) : Kept s₀ (State.timedWait s₁ c a) := by
  unfold State.timedWait
  try dsimp only
  with_reducible repeat' first
    | exact h | apply State.modHead_kept | apply State.lateData_kept | apply State.slotConflict_kept
    | refine Kept.ite ?_ ?_ | split
theorem State.place_kept {c u} (h : Kept s₀ s₁) : Kept s₀ (State.place s₁ c u) := by
  unfold State.place
  try dsimp only
  with_reducible repeat' first | exact h | apply State.setCtx_kept
theorem State.putTile_kept {c a t l} (h : Kept s₀ s₁) : Kept s₀ (State.putTile s₁ c a t l) := by
  unfold State.putTile
  exact Kept.updMem (Kept.foldl _ (fun _ _ h => State.stn_kept h) _ h) (Memory.wf_iff _ _ rfl rfl)
theorem State.putAnchors_kept {c a t l} (h : Kept s₀ s₁) : Kept s₀ (State.putAnchors s₁ c a t l) := by
  unfold State.putAnchors
  try dsimp only
  with_reducible repeat' first
    | exact h | apply State.setAnchor_kept | refine Kept.foldl _ (fun _ _ _ => ?_) _ ?_
    | refine Kept.foldlSnd _ (fun _ _ _ => ?_) _ ?_ | assumption
theorem State.readTile_kept {r c a t} (h : Kept s₀ s₁) : Kept s₀ (State.readTile s₁ r c a t).2 := by
  unfold State.readTile
  exact Kept.snd_mk (State.memRead_kept h)
theorem State.readTile_kept' {r c a t} {r₀ u₀} (hq : State.readTile s₁ r c a t = (r₀, u₀)) (h : Kept s₀ s₁) : Kept s₀ u₀ := by
  have := @State.readTile_kept s₀ s₁ r c a t h
  rw [hq] at this
  exact this
theorem State.tileUe_kept {c a x} (h : Kept s₀ s₁) : Kept s₀ (State.tileUe s₁ c a x) := by
  unfold State.tileUe
  try dsimp only
  with_reducible repeat' first | exact h | apply State.setFld_kept | apply State.abortCtx_kept
theorem State.occupy_kept {c a t n} (h : Kept s₀ s₁) : Kept s₀ (State.occupy s₁ c a t n) := by
  unfold State.occupy
  try dsimp only
  with_reducible repeat' first | exact h | apply State.setArr_kept

end Sys2Proof.Machine
end

