-- ==== Sys2Proof/Laws/KeptCluster.lean ====
section
/-! SUPPORT. One lemma per effect (`<name>_kept`): the effect keeps what `Kept` says. This file:
translation, movers, arrays and the vector engines. -/

namespace Sys2Proof.Machine

variable {s₀ s₁ : State}

theorem State.setTileSet_kept {c a t} (h : Kept s₀ s₁) : Kept s₀ (State.setTileSet s₁ c a t) := by
  unfold State.setTileSet
  try dsimp only
  with_reducible repeat' first | exact h | apply State.setArr_kept
theorem State.panelDo_kept {c a i} (h : Kept s₀ s₁) : Kept s₀ (State.panelDo s₁ c a i) := by
  unfold State.panelDo
  try dsimp only
  with_reducible repeat' first
    | exact h | apply State.setArr_kept | apply State.changeTags_kept | refine Kept.foldl _ (fun _ _ _ => ?_) _ ?_
    | refine Kept.foldlSnd _ (fun _ _ _ => ?_) _ ?_ | assumption | refine Kept.ite ?_ ?_
theorem execPanel_kept {c a x} (h : Kept s₀ s₁) : ∃ t₀, execPanel c a x s₁ = .next t₀ ∧ Kept s₀ t₀ := by
  unfold execPanel
  refine ⟨_, rfl, ?_⟩
  try dsimp only
  with_reducible repeat' first
    | exact h | refine State.issueWith_kept ?_ (fun _ _ _ => ?_) | assumption | apply State.panelDo_kept
theorem State.anchorDo_kept {c a i} (h : Kept s₀ s₁) : Kept s₀ (State.anchorDo s₁ c a i) := by
  unfold State.anchorDo
  try dsimp only
  with_reducible repeat' first
    | exact h | apply State.putTile_kept | apply State.putAnchors_kept | apply State.setTileSat_kept
    | apply State.occupy_kept | apply State.setTileSet_kept
theorem execAnchor_kept {c a x} (h : Kept s₀ s₁) : ∃ t₀, execAnchor c a x s₁ = .next t₀ ∧ Kept s₀ t₀ := by
  unfold execAnchor
  refine ⟨_, rfl, ?_⟩
  try dsimp only
  with_reducible repeat' first
    | exact h | refine State.issueWith_kept ?_ (fun _ _ _ => ?_) | assumption | apply State.anchorDo_kept
theorem State.saveDo_kept {c a i} (h : Kept s₀ s₁) : Kept s₀ (State.saveDo s₁ c a i) := by
  unfold State.saveDo
  try dsimp only
  with_reducible repeat' first
    | exact h | apply State.readTile_kept | apply State.tileUe_kept | apply State.memWrite_kept
    | apply State.occupy_kept | apply State.changeTags_kept | refine State.readTile_kept' ‹_› ?_
    | refine State.memWrite_kept' ‹_› ?_ | refine Kept.ite ?_ ?_
theorem execSave_kept {c a x} (h : Kept s₀ s₁) : ∃ t₀, execSave c a x s₁ = .next t₀ ∧ Kept s₀ t₀ := by
  unfold execSave
  refine ⟨_, rfl, ?_⟩
  try dsimp only
  with_reducible repeat' first
    | exact h | refine State.issueWith_kept ?_ (fun _ _ _ => ?_) | assumption | apply State.saveDo_kept
theorem State.loadImage_kept {c a t l} (h : Kept s₀ s₁) : Kept s₀ (State.loadImage s₁ c a t l) := by
  unfold State.loadImage
  try dsimp only
  with_reducible repeat' first
    | exact h | apply State.putTile_kept | apply State.putAnchors_kept | apply State.setTileSet_kept
    | apply State.setTileSat_kept
theorem execRestore_kept {c a x} (h : Kept s₀ s₁) : ∃ t₀, execRestore c a x s₁ = .next t₀ ∧ Kept s₀ t₀ := by
  unfold execRestore
  refine ⟨_, rfl, ?_⟩
  try dsimp only
  with_reducible repeat' first
    | exact h | refine State.issueWith_kept ?_ (fun _ _ _ => ?_) | assumption | apply State.occupy_kept
    | apply State.loadImage_kept
theorem State.passDo_kept {c a i} (h : Kept s₀ s₁) : Kept s₀ (State.passDo s₁ c a i) := by
  unfold State.passDo
  try dsimp only
  with_reducible repeat' first
    | exact h | apply State.readTile_kept | apply State.countUp_kept | apply State.orReg_kept
    | apply State.tileUe_kept | apply State.ramp_kept | apply State.setArr_kept | refine State.readTile_kept' ‹_› ?_
    | refine Kept.ite ?_ ?_ | split
theorem execPass_kept {c a x} (h : Kept s₀ s₁) : ∃ t₀, execPass c a x s₁ = .next t₀ ∧ Kept s₀ t₀ := by
  unfold execPass
  refine ⟨_, rfl, ?_⟩
  try dsimp only
  with_reducible repeat' first
    | exact h | apply State.timedWait_kept | apply State.issueCheck_kept
    | refine State.issueWith_kept ?_ (fun _ _ _ => ?_) | assumption | apply State.passDo_kept
    | refine State.issueCheck_kept' ‹_› ?_ | refine Kept.ite ?_ ?_ | split
theorem State.reportSat_kept {c a x t} (h : Kept s₀ s₁) : Kept s₀ (State.reportSat s₁ c a x t) := by
  unfold State.reportSat
  try dsimp only
  with_reducible repeat' first
    | exact h | apply State.tilerFlag_kept | apply State.arithSat_kept | apply State.setTileSat_kept
    | apply State.raiseCl_kept
theorem State.commitDo_kept {c a p} (h : Kept s₀ s₁) : Kept s₀ (State.commitDo s₁ c a p) := by
  unfold State.commitDo
  try dsimp only
  with_reducible repeat' first
    | exact h | apply State.setArr_kept | apply State.putTile_kept | apply State.reportSat_kept
    | apply State.setTags_kept | apply State.progress_kept | apply State.count64_kept
    | refine Kept.foldl _ (fun _ _ _ => ?_) _ ?_ | refine Kept.foldlSnd _ (fun _ _ _ => ?_) _ ?_ | assumption
    | refine Kept.ite ?_ ?_
theorem execPassCommit_kept {c a} (h : Kept s₀ s₁) : ∃ t₀, execPassCommit c a s₁ = .next t₀ ∧ Kept s₀ t₀ := by
  unfold execPassCommit
  refine ⟨_, rfl, ?_⟩
  try dsimp only
  with_reducible repeat' first | exact h | apply State.commitDo_kept | refine Kept.ite ?_ ?_ | split
theorem State.drainDo_kept {c a i} (h : Kept s₀ s₁) : Kept s₀ (State.drainDo s₁ c a i) := by
  unfold State.drainDo
  try dsimp only
  with_reducible repeat' first
    | exact h | apply State.readTile_kept | apply State.tileUe_kept | apply State.memWrite_kept
    | apply State.tilerFlag_kept | apply State.arithOut_kept | apply State.setArr_kept | apply State.setVec_kept
    | refine State.readTile_kept' ‹_› ?_ | refine State.memWrite_kept' ‹_› ?_
    | refine Kept.foldl _ (fun _ _ _ => ?_) _ ?_ | refine Kept.foldlSnd _ (fun _ _ _ => ?_) _ ?_ | assumption
    | refine Kept.ite ?_ ?_
theorem execDrain_kept {c a x} (h : Kept s₀ s₁) : ∃ t₀, execDrain c a x s₁ = .next t₀ ∧ Kept s₀ t₀ := by
  unfold execDrain
  refine ⟨_, rfl, ?_⟩
  try dsimp only
  with_reducible repeat' first
    | exact h | refine State.issueWith_kept ?_ (fun _ _ _ => ?_) | assumption | apply State.drainDo_kept
theorem execDrainComplete_kept {c a} (h : Kept s₀ s₁) : ∃ t₀, execDrainComplete c a s₁ = .next t₀ ∧ Kept s₀ t₀ := by
  unfold execDrainComplete
  refine ⟨_, rfl, ?_⟩
  try dsimp only
  with_reducible repeat' first
    | exact h | apply State.progress_kept | apply State.setTags_kept | apply State.setArr_kept | refine Kept.ite ?_ ?_
    | split
theorem State.mergeDo_kept {c a i} (h : Kept s₀ s₁) : Kept s₀ (State.mergeDo s₁ c a i) := by
  unfold State.mergeDo
  try dsimp only
  with_reducible repeat' first
    | exact h | apply State.readTile_kept | apply State.tileUe_kept | apply State.abortCtx_kept
    | apply State.raiseCl_kept | apply State.putTile_kept | apply State.setArr_kept
    | refine State.readTile_kept' ‹_› ?_ | refine Kept.ite ?_ ?_
theorem execMerge_kept {c a x} (h : Kept s₀ s₁) : ∃ t₀, execMerge c a x s₁ = .next t₀ ∧ Kept s₀ t₀ := by
  unfold execMerge
  refine ⟨_, rfl, ?_⟩
  try dsimp only
  with_reducible repeat' first
    | exact h | refine State.issueWith_kept ?_ (fun _ _ _ => ?_) | assumption | apply State.mergeDo_kept
theorem execMergeComplete_kept {c a} (h : Kept s₀ s₁) : ∃ t₀, execMergeComplete c a s₁ = .next t₀ ∧ Kept s₀ t₀ := by
  unfold execMergeComplete
  refine ⟨_, rfl, ?_⟩
  try dsimp only
  with_reducible repeat' first
    | exact h | apply State.progress_kept | apply State.setArr_kept | apply State.reportSat_kept
    | refine Kept.ite ?_ ?_ | split
theorem execPassAbort_kept {c a x cause} (h : Kept s₀ s₁) : ∃ t₀, execPassAbort c a x cause s₁ = .next t₀ ∧ Kept s₀ t₀ := by
  unfold execPassAbort
  refine ⟨_, rfl, ?_⟩
  try dsimp only
  with_reducible repeat' first
    | exact h | apply State.abortArr_kept | apply State.abortCtx_kept | refine Kept.ite ?_ ?_
theorem State.accWrite_kept {r c a t e value be} (h : Kept s₀ s₁) : Kept s₀ (State.accWrite s₁ r c a t e value be).2 := by
  rw [State.accWrite]
  refine Kept.iteSnd (State.raiseReq_kept h) (Kept.iteSnd ?_ (Kept.snd_mk (State.raise_kept h)))
  have hw : Kept s₀ (if be % 256 = 255 then ((none, s₁) : Option AccErr × State)
      else ((s₁.memFetch r (accAddr c a t e) 8).1.err, (s₁.memFetch r (accAddr c a t e) 8).2)).2 :=
    Kept.iteSnd h (Kept.snd_mk (State.memFetch_kept h))
  dsimp only
  generalize (if be % 256 = 255 then ((none, s₁) : Option AccErr × State)
      else ((s₁.memFetch r (accAddr c a t e) 8).1.err, (s₁.memFetch r (accAddr c a t e) 8).2)) = v at hw ⊢
  exact Kept.iteSnd hw (State.memWrite_kept hw)
theorem State.accWrite_kept' {r c a t e value be} {r₀ u₀} (hq : State.accWrite s₁ r c a t e value be = (r₀, u₀)) (h : Kept s₀ s₁) : Kept s₀ u₀ := by
  have := @State.accWrite_kept s₀ s₁ r c a t e value be h
  rw [hq] at this
  exact this
theorem execArrCtrlStop_kept {_r c a value} (h : Kept s₀ s₁) : ∃ t₀, execArrCtrlStop _r c a value s₁ = .next t₀ ∧ Kept s₀ t₀ := by
  unfold execArrCtrlStop
  refine ⟨_, rfl, ?_⟩
  try dsimp only
  with_reducible repeat' first | exact h | apply State.wr_kept | refine Kept.ite ?_ ?_
theorem execArrTileOwnerWrite_kept {_r c a value} (h : Kept s₀ s₁) : ∃ t₀, execArrTileOwnerWrite _r c a value s₁ = .next t₀ ∧ Kept s₀ t₀ := by
  unfold execArrTileOwnerWrite
  refine ⟨_, rfl, ?_⟩
  try dsimp only
  with_reducible repeat' first | exact h | apply State.wr_kept | refine Kept.ite ?_ ?_
theorem State.vecEnd_kept {c e} (h : Kept s₀ s₁) : Kept s₀ (State.vecEnd s₁ c e) := by
  unfold State.vecEnd
  try dsimp only
  with_reducible repeat' first
    | exact h | apply State.progress_kept | apply State.count64_kept | apply State.setVec_kept | refine Kept.ite ?_ ?_
    | split
theorem State.kernelInvalid_kept {c e x kernel} (h : Kept s₀ s₁) : Kept s₀ (State.kernelInvalid s₁ c e x kernel) := by
  unfold State.kernelInvalid
  try dsimp only
  with_reducible repeat' first
    | exact h | apply State.orReg_kept | apply State.abortCtx_kept | apply State.raiseCl_kept
theorem State.vecStart_kept {c e} (h : Kept s₀ s₁) : Kept s₀ (State.vecStart s₁ c e) := by
  unfold State.vecStart
  try dsimp only
  with_reducible repeat' first
    | exact h | apply State.ndTiming_kept | apply State.setVec_kept | apply State.kernelInvalid_kept
    | apply State.started_kept | refine Kept.ite ?_ ?_ | split
theorem execVecStep_kept {c e} (h : Kept s₀ s₁) : ∃ t₀, execVecStep c e s₁ = .next t₀ ∧ Kept s₀ t₀ := by
  unfold execVecStep
  refine ⟨_, rfl, ?_⟩
  try dsimp only
  with_reducible repeat' first | exact h | apply State.vecEnd_kept | apply State.vecStart_kept | refine Kept.ite ?_ ?_
theorem execVecChainWrite_kept {r c e off value} (h : Kept s₀ s₁) : ∃ t₀, execVecChainWrite r c e off value s₁ = .next t₀ ∧ Kept s₀ t₀ := by
  unfold execVecChainWrite
  refine ⟨_, rfl, ?_⟩
  try dsimp only
  with_reducible repeat' first | exact h | apply State.wr_kept | refine Kept.ite ?_ ?_
theorem State.failTask_kept {r e} (h : Kept s₀ s₁) : Kept s₀ (State.failTask s₁ r e) := by
  unfold State.failTask
  try dsimp only
  with_reducible repeat' first | exact h | apply State.abortCtx_kept | refine Kept.ite ?_ ?_ | split
theorem State.reqViolation_kept {r ga} (h : Kept s₀ s₁) : Kept s₀ (State.reqViolation s₁ r ga) := by
  unfold State.reqViolation
  try dsimp only
  with_reducible repeat' first
    | exact h | apply State.answer_kept | apply State.bbViolation_kept | apply State.raiseReq_kept
    | refine Kept.ite ?_ ?_ | split
theorem execAccWrite_kept {r c a t e value be} (h : Kept s₀ s₁) : ∃ t₀, execAccWrite r c a t e value be s₁ = .next t₀ ∧ Kept s₀ t₀ := by
  unfold execAccWrite
  refine ⟨_, rfl, ?_⟩
  try dsimp only
  with_reducible repeat' first
    | exact h | apply State.accWrite_kept | apply State.failTask_kept | apply State.reqViolation_kept
    | refine State.accWrite_kept' ‹_› ?_ | refine Kept.ite ?_ ?_
theorem execCorrectionWriteBack_kept {c bank} (h : Kept s₀ s₁) : ∃ t₀, execCorrectionWriteBack c bank s₁ = .next t₀ ∧ Kept s₀ t₀ := by
  unfold execCorrectionWriteBack
  refine ⟨_, rfl, ?_⟩
  split
  · refine Kept.ite h (Kept.updMem h fun w => ?_)
    split
    · exact w
    · exact Memory.wf_iff _ _ rfl rfl w
  · exact h
theorem State.reqAtomic_kept {r op a operand expected} (h : Kept s₀ s₁) : Kept s₀ (State.reqAtomic s₁ r op a operand expected).2 := by
  unfold State.reqAtomic
  try dsimp only
  with_reducible repeat' first
    | exact h | apply State.wr64_kept | apply State.raiseReq_kept | apply State.memAtomic_kept
    | refine State.memAtomic_kept' ‹_› ?_ | refine Kept.ite ?_ ?_ | split
theorem State.reqAtomic_kept' {r op a operand expected} {r₀ u₀} (hq : State.reqAtomic s₁ r op a operand expected = (r₀, u₀)) (h : Kept s₀ s₁) : Kept s₀ u₀ := by
  have := @State.reqAtomic_kept s₀ s₁ r op a operand expected h
  rw [hq] at this
  exact this
theorem State.atomicReq_kept {r op a operand expected} (h : Kept s₀ s₁) : Kept s₀ (State.atomicReq s₁ r op a operand expected) := by
  unfold State.atomicReq
  try dsimp only
  with_reducible repeat' first
    | exact h | apply State.reqViolation_kept | apply State.reqAtomic_kept | apply State.answer_kept
    | apply State.failTask_kept | refine State.reqAtomic_kept' ‹_› ?_ | refine Kept.ite ?_ ?_
theorem execPoolAtomic_kept {r op addr operand expected} (h : Kept s₀ s₁) : ∃ t₀, execPoolAtomic r op addr operand expected s₁ = .next t₀ ∧ Kept s₀ t₀ := by
  unfold execPoolAtomic
  refine ⟨_, rfl, ?_⟩
  try dsimp only
  with_reducible repeat' first | exact h | apply State.atomicReq_kept | refine Kept.ite ?_ ?_
theorem execWorkCounterFetch_kept {r addr inc} (h : Kept s₀ s₁) : ∃ t₀, execWorkCounterFetch r addr inc s₁ = .next t₀ ∧ Kept s₀ t₀ := by
  unfold execWorkCounterFetch
  refine ⟨_, rfl, ?_⟩
  try dsimp only
  with_reducible repeat' first | exact h | apply State.atomicReq_kept
theorem State.tagCmd_kept {c slot b} (h : Kept s₀ s₁) : Kept s₀ (State.tagCmd s₁ c slot b) := by
  unfold State.tagCmd
  try dsimp only
  with_reducible repeat' first | exact h | apply State.changeTags_kept
theorem execSetFull_kept {r c slot} (h : Kept s₀ s₁) : ∃ t₀, execSetFull r c slot s₁ = .next t₀ ∧ Kept s₀ t₀ := by
  unfold execSetFull
  refine ⟨_, rfl, ?_⟩
  try dsimp only
  with_reducible repeat' first | exact h | apply State.tagCmd_kept | refine Kept.ite ?_ ?_
theorem execSetEmpty_kept {r c slot} (h : Kept s₀ s₁) : ∃ t₀, execSetEmpty r c slot s₁ = .next t₀ ∧ Kept s₀ t₀ := by
  unfold execSetEmpty
  refine ⟨_, rfl, ?_⟩
  try dsimp only
  with_reducible repeat' first | exact h | apply State.tagCmd_kept | refine Kept.ite ?_ ?_
theorem State.rinseTile_kept {c a t} (h : Kept s₀ s₁) : Kept s₀ (State.rinseTile s₁ c a t) := by
  unfold State.rinseTile
  exact State.setTileOwner_kept (State.setTileSat_kept (State.setArr_kept (Kept.updMem h fun w =>
    Memory.wf_iff (s₁.mem.zero (accAddr c a t 0) 0x2000) _ rfl rfl (Memory.zero_wf _ _ _ w))))
theorem State.rinseEnd_kept {k} (h : Kept s₀ s₁) : Kept s₀ (State.rinseEnd s₁ k) := by
  unfold State.rinseEnd
  try dsimp only
  with_reducible repeat' first
    | exact h | apply State.freeSlot_kept | apply State.settle_kept | apply State.setCtxState_kept
    | apply State.setCtx_kept | refine Kept.ite ?_ ?_ | split | refine Kept.upd ?_ ⟨rfl, rfl⟩
theorem State.emptyRegion_kept {k v} (h : Kept s₀ s₁) : Kept s₀ (State.emptyRegion s₁ k v) := by
  unfold State.emptyRegion
  try dsimp only
  with_reducible repeat' first | exact h | apply State.changeTags_kept | refine Kept.ite ?_ ?_
theorem State.rinseStart_kept {k} (h : Kept s₀ s₁) : Kept s₀ (State.rinseStart s₁ k) := by
  unfold State.rinseStart
  try dsimp only
  with_reducible repeat' first
    | exact h | apply State.rinseTile_kept | apply State.emptyRegion_kept | apply State.rinseEnd_kept
    | refine Kept.foldl _ (fun _ _ _ => ?_) _ ?_ | refine Kept.foldlSnd _ (fun _ _ _ => ?_) _ ?_ | assumption
    | refine Kept.ite ?_ ?_ | split | refine Kept.upd ?_ ⟨rfl, rfl⟩ | refine Kept.zeroUpd ?_
theorem execRinseScrub_kept {c x} (h : Kept s₀ s₁) : ∃ t₀, execRinseScrub c x s₁ = .next t₀ ∧ Kept s₀ t₀ := by
  unfold execRinseScrub
  refine ⟨_, rfl, ?_⟩
  try dsimp only
  with_reducible repeat' first | exact h | apply State.rinseStart_kept | refine Kept.ite ?_ ?_ | split
theorem execRinseRegionDone_kept {c x w} (h : Kept s₀ s₁) : ∃ t₀, execRinseRegionDone c x w s₁ = .next t₀ ∧ Kept s₀ t₀ := by
  unfold execRinseRegionDone
  refine ⟨_, rfl, ?_⟩
  try dsimp only
  with_reducible repeat' first
    | exact h | apply State.rinseEnd_kept | refine Kept.ite ?_ ?_ | split | refine Kept.upd ?_ ⟨rfl, rfl⟩
theorem State.movFault_kept {c n entry cause side va} (h : Kept s₀ s₁) : Kept s₀ (State.movFault s₁ c n entry cause side va) := by
  unfold State.movFault
  try dsimp only
  with_reducible repeat' first
    | exact h | apply State.setChan_kept | apply State.orReg_kept | apply State.wr_kept | refine Kept.ite ?_ ?_
theorem State.descInvalid_kept {c n entry side va} (h : Kept s₀ s₁) : Kept s₀ (State.descInvalid s₁ c n entry side va) := by
  unfold State.descInvalid
  try dsimp only
  with_reducible repeat' first
    | exact h | apply State.movFault_kept | apply State.abortCtx_kept | apply State.raiseCl_kept
theorem execMovDescWrite_kept {r c e word value} (h : Kept s₀ s₁) : ∃ t₀, execMovDescWrite r c e word value s₁ = .next t₀ ∧ Kept s₀ t₀ := by
  unfold execMovDescWrite
  refine ⟨_, rfl, ?_⟩
  try dsimp only
  with_reducible repeat' first | exact h | apply State.wr_kept | refine Kept.ite ?_ ?_
theorem State.movPush_kept {c n e} (h : Kept s₀ s₁) : Kept s₀ (State.movPush s₁ c n e) := by
  unfold State.movPush
  try dsimp only
  with_reducible repeat' first
    | exact h | apply State.orReg_kept | apply State.descInvalid_kept | apply State.setChan_kept
    | refine Kept.ite ?_ ?_
theorem execMovPush_kept {r c n e} (h : Kept s₀ s₁) : ∃ t₀, execMovPush r c n e s₁ = .next t₀ ∧ Kept s₀ t₀ := by
  unfold execMovPush
  refine ⟨_, rfl, ?_⟩
  try dsimp only
  with_reducible repeat' first | exact h | apply State.movPush_kept | refine Kept.ite ?_ ?_
theorem execMovAbort_kept {r c n} (h : Kept s₀ s₁) : ∃ t₀, execMovAbort r c n s₁ = .next t₀ ∧ Kept s₀ t₀ := by
  unfold execMovAbort
  refine ⟨_, rfl, ?_⟩
  try dsimp only
  with_reducible repeat' first | exact h | apply State.abortChan_kept | refine Kept.ite ?_ ?_
theorem State.resumeLater_kept {c unit} (h : Kept s₀ s₁) : Kept s₀ (State.resumeLater s₁ c unit) := by
  unfold State.resumeLater
  try dsimp only
  with_reducible repeat' first
    | exact h | apply State.stewardPut_kept | apply State.setSlot_kept | refine Kept.ite ?_ ?_ | split
theorem State.movResume_kept {c n} (h : Kept s₀ s₁) : Kept s₀ (State.movResume s₁ c n) := by
  unfold State.movResume
  try dsimp only
  with_reducible repeat' first
    | exact h | apply State.setChan_kept | apply State.setCtxState_kept | apply State.resumeLater_kept
    | refine Kept.ite ?_ ?_
theorem execMovResume_kept {r c n} (h : Kept s₀ s₁) : ∃ t₀, execMovResume r c n s₁ = .next t₀ ∧ Kept s₀ t₀ := by
  unfold execMovResume
  refine ⟨_, rfl, ?_⟩
  try dsimp only
  with_reducible repeat' first | exact h | apply State.movResume_kept | refine Kept.ite ?_ ?_
theorem execMovCtxBind_kept {r c n x} (h : Kept s₀ s₁) : ∃ t₀, execMovCtxBind r c n x s₁ = .next t₀ ∧ Kept s₀ t₀ := by
  unfold execMovCtxBind
  refine ⟨_, rfl, ?_⟩
  try dsimp only
  with_reducible repeat' first | exact h | apply State.setFld_kept | refine Kept.ite ?_ ?_
theorem State.refill_kept {c n} (h : Kept s₀ s₁) : Kept s₀ (State.refill s₁ c n) := by
  unfold State.refill
  try dsimp only
  with_reducible repeat' first | exact h | apply State.setChan_kept | refine Kept.ite ?_ ?_
theorem execTokenRefill_kept {c} (h : Kept s₀ s₁) : ∃ t₀, execTokenRefill c s₁ = .next t₀ ∧ Kept s₀ t₀ := by
  unfold execTokenRefill
  refine ⟨_, rfl, ?_⟩
  try dsimp only
  with_reducible repeat' first
    | exact h | apply State.refill_kept | refine Kept.foldl _ (fun _ _ _ => ?_) _ ?_
    | refine Kept.foldlSnd _ (fun _ _ _ => ?_) _ ?_ | assumption | refine Kept.ite ?_ ?_
theorem State.block_kept {c x cause} (h : Kept s₀ s₁) : Kept s₀ (State.block s₁ c x cause) := by
  unfold State.block
  try dsimp only
  with_reducible repeat' first | exact h | apply State.setCtxState_kept | refine Kept.ite ?_ ?_
theorem State.setWaitRegs_kept {c x ga exp} (h : Kept s₀ s₁) : Kept s₀ (State.setWaitRegs s₁ c x ga exp) := by
  unfold State.setWaitRegs
  try dsimp only
  with_reducible repeat' first | exact h | apply State.wr64_kept
theorem State.beginWait_kept {c x ga exp} (h : Kept s₀ s₁) : Kept s₀ (State.beginWait s₁ c x ga exp) := by
  unfold State.beginWait
  try dsimp only
  with_reducible repeat' first
    | exact h | apply State.abortCtx_kept | apply State.raiseCl_kept | apply State.setWaitRegs_kept
    | apply State.setCtx_kept | refine Kept.ite ?_ ?_
theorem State.waitDone_kept {c x} (h : Kept s₀ s₁) : Kept s₀ (State.waitDone s₁ c x) := by
  unfold State.waitDone
  try dsimp only
  with_reducible repeat' first
    | exact h | apply State.setWaitRegs_kept | apply State.setCtx_kept | apply State.setCtxState_kept
    | apply State.setSlot_kept | apply State.beginWait_kept | refine Kept.ite ?_ ?_ | split
theorem State.waitRead_kept {c x a} (h : Kept s₀ s₁) : Kept s₀ (State.waitRead s₁ c x a).2 := by
  unfold State.waitRead
  try dsimp only
  with_reducible repeat' first
    | exact h | apply State.memRead_kept | apply State.abortCtx_kept | refine State.memRead_kept' ‹_› ?_
    | refine Kept.ite ?_ ?_ | split
theorem State.waitRead_kept' {c x a} {r₀ u₀} (hq : State.waitRead s₁ c x a = (r₀, u₀)) (h : Kept s₀ s₁) : Kept s₀ u₀ := by
  have := @State.waitRead_kept s₀ s₁ c x a h
  rw [hq] at this
  exact this
theorem State.watchNow_kept {c x} (h : Kept s₀ s₁) : Kept s₀ (State.watchNow s₁ c x) := by
  unfold State.watchNow
  try dsimp only
  with_reducible repeat' first
    | exact h | apply State.setCtx_kept | apply State.setCtxState_kept | apply State.waitRead_kept
    | apply State.waitDone_kept | apply State.spSend_kept | apply State.abortCtx_kept
    | refine State.waitRead_kept' ‹_› ?_ | refine State.spSend_kept' ‹_› ?_ | refine Kept.ite ?_ ?_ | split
    | refine Kept.upd ?_ ⟨rfl, rfl⟩
theorem execWatch_kept {c x} (h : Kept s₀ s₁) : ∃ t₀, execWatch c x s₁ = .next t₀ ∧ Kept s₀ t₀ := by
  unfold execWatch
  refine ⟨_, rfl, ?_⟩
  try dsimp only
  with_reducible repeat' first | exact h | apply State.watchNow_kept | refine Kept.ite ?_ ?_
theorem State.unwatch_kept {c x} (h : Kept s₀ s₁) : Kept s₀ (State.unwatch s₁ c x) := by
  unfold State.unwatch
  try dsimp only
  with_reducible repeat' first
    | exact h | apply State.setCtx_kept | apply State.spSend_kept | refine State.spSend_kept' ‹_› ?_
    | refine Kept.ite ?_ ?_ | split | refine Kept.upd ?_ ⟨rfl, rfl⟩
theorem execUnwatch_kept {c x} (h : Kept s₀ s₁) : ∃ t₀, execUnwatch c x s₁ = .next t₀ ∧ Kept s₀ t₀ := by
  unfold execUnwatch
  refine ⟨_, rfl, ?_⟩
  try dsimp only
  with_reducible repeat' first | exact h | apply State.unwatch_kept | refine Kept.ite ?_ ?_
theorem State.setReady_kept {c n b} (h : Kept s₀ s₁) : Kept s₀ (State.setReady s₁ c n b) := by
  unfold State.setReady
  try dsimp only
  with_reducible repeat' first | exact h | apply State.wr_kept
theorem State.slotWait_kept {c n a3} (h : Kept s₀ s₁) : Kept s₀ (State.slotWait s₁ c n a3) := by
  induction a3 generalizing s₁ with
  | zero => exact h
  | succ k ih =>
    unfold State.slotWait
    extract_lets v
    split
    · split
      · exact State.setReady_kept (State.setSlot_kept h)
      · exact ih (State.setSlot_kept h)
    · split
      · extract_lets q
        have hq : Kept s₀ q.2 := State.memRead_kept h
        clear_value q
        exact Kept.ite (ih (State.setSlot_kept hq)) (Kept.ite (Kept.upd hq ⟨rfl, rfl⟩) hq)
      · exact Kept.upd (State.spSend_kept h) ⟨rfl, rfl⟩
theorem State.slotFire_kept {w n value} (h : Kept s₀ s₁) : Kept s₀ (State.slotFire s₁ w n value) := by
  unfold State.slotFire
  try dsimp only
  with_reducible repeat' first
    | exact h | apply State.slotWait_kept | apply State.setSlot_kept | refine Kept.ite ?_ ?_ | split
    | refine Kept.upd ?_ ⟨rfl, rfl⟩
theorem State.wakeAll_kept {ga value} (h : Kept s₀ s₁) : Kept s₀ (State.wakeAll s₁ ga value) := by
  unfold State.wakeAll
  try dsimp only
  with_reducible repeat' first
    | exact h | apply State.slotFire_kept | apply State.originate_kept | refine Kept.foldl _ (fun _ _ _ => ?_) _ ?_
    | refine Kept.foldlSnd _ (fun _ _ _ => ?_) _ ?_ | assumption | refine Kept.ite ?_ ?_ | split
    | refine Kept.upd ?_ ⟨rfl, rfl⟩
theorem State.signalLocal_kept {r a inc} (h : Kept s₀ s₁) : Kept s₀ (State.signalLocal s₁ r a inc).2 := by
  unfold State.signalLocal
  try dsimp only
  with_reducible repeat' first
    | exact h | apply State.memAtomic_kept | apply State.wakeAll_kept | refine State.memAtomic_kept' ‹_› ?_
    | refine Kept.ite ?_ ?_ | split
theorem State.signalLocal_kept' {r a inc} {r₀ u₀} (hq : State.signalLocal s₁ r a inc = (r₀, u₀)) (h : Kept s₀ s₁) : Kept s₀ u₀ := by
  have := @State.signalLocal_kept s₀ s₁ r a inc h
  rw [hq] at this
  exact this
theorem State.setLocal_kept {r a value} (h : Kept s₀ s₁) : Kept s₀ (State.setLocal s₁ r a value).2 := by
  unfold State.setLocal
  try dsimp only
  with_reducible repeat' first
    | exact h | apply State.memWrite_kept | apply State.wakeAll_kept | apply State.raiseReq_kept
    | refine State.memWrite_kept' ‹_› ?_ | refine Kept.ite ?_ ?_ | split
theorem State.setLocal_kept' {r a value} {r₀ u₀} (hq : State.setLocal s₁ r a value = (r₀, u₀)) (h : Kept s₀ s₁) : Kept s₀ u₀ := by
  have := @State.setLocal_kept s₀ s₁ r a value h
  rw [hq] at this
  exact this
theorem State.unitSignal_kept {r c x id} (h : Kept s₀ s₁) : Kept s₀ (State.unitSignal s₁ r c x id) := by
  unfold State.unitSignal
  try dsimp only
  with_reducible repeat' first
    | exact h | apply State.abortCtx_kept | apply State.raiseCl_kept | apply State.bbViolation_kept
    | apply State.signalLocal_kept | refine State.signalLocal_kept' ‹_› ?_ | refine Kept.ite ?_ ?_ | split
theorem State.stewardWord_kept {ga v set cmd} (h : Kept s₀ s₁) : Kept s₀ (State.stewardWord s₁ ga v set cmd).2 := by
  unfold State.stewardWord
  try dsimp only
  with_reducible repeat' first
    | exact h | apply State.setLocal_kept | apply State.signalLocal_kept | apply State.complete_kept
    | apply State.spSend_kept | refine State.setLocal_kept' ‹_› ?_ | refine State.signalLocal_kept' ‹_› ?_
    | refine State.spSend_kept' ‹_› ?_ | refine Kept.ite ?_ ?_ | split
theorem State.stewardWord_kept' {ga v set cmd} {r₀ u₀} (hq : State.stewardWord s₁ ga v set cmd = (r₀, u₀)) (h : Kept s₀ s₁) : Kept s₀ u₀ := by
  have := @State.stewardWord_kept s₀ s₁ ga v set cmd h
  rw [hq] at this
  exact this
theorem execSyncSignal_kept {r addr inc} (h : Kept s₀ s₁) : ∃ t₀, execSyncSignal r addr inc s₁ = .next t₀ ∧ Kept s₀ t₀ := by
  unfold execSyncSignal
  refine ⟨_, rfl, ?_⟩
  try dsimp only
  with_reducible repeat' first
    | exact h | apply State.reqViolation_kept | apply State.signalLocal_kept | apply State.answer_kept
    | apply State.failTask_kept | apply State.spSend_kept | refine State.signalLocal_kept' ‹_› ?_
    | refine State.spSend_kept' ‹_› ?_ | refine Kept.ite ?_ ?_ | split
theorem execSyncSet_kept {addr value} (h : Kept s₀ s₁) : ∃ t₀, execSyncSet addr value s₁ = .next t₀ ∧ Kept s₀ t₀ := by
  unfold execSyncSet
  refine ⟨_, rfl, ?_⟩
  try dsimp only
  with_reducible repeat' first | exact h | apply State.stewardWord_kept
theorem State.mbWord_kept {ring idx k set} (h : Kept s₀ s₁) : Kept s₀ (State.mbWord s₁ ring idx k set) := by
  unfold State.mbWord
  try dsimp only
  with_reducible repeat' first
    | exact h | apply State.complete_kept | apply State.stewardWord_kept | refine State.stewardWord_kept' ‹_› ?_
    | refine Kept.ite ?_ ?_
theorem execSignal_kept {ring idx} (h : Kept s₀ s₁) : ∃ t₀, execSignal ring idx s₁ = .next t₀ ∧ Kept s₀ t₀ := by
  unfold execSignal
  refine ⟨_, rfl, ?_⟩
  try dsimp only
  with_reducible repeat' first
    | exact h | refine State.mbox_kept ?_ (fun _ _ _ => ?_) | assumption | apply State.mbWord_kept
theorem execSet_kept {ring idx} (h : Kept s₀ s₁) : ∃ t₀, execSet ring idx s₁ = .next t₀ ∧ Kept s₀ t₀ := by
  unfold execSet
  refine ⟨_, rfl, ?_⟩
  try dsimp only
  with_reducible repeat' first
    | exact h | refine State.mbox_kept ?_ (fun _ _ _ => ?_) | assumption | apply State.mbWord_kept
theorem execWake_kept {c x addr} (h : Kept s₀ s₁) : ∃ t₀, execWake c x addr s₁ = .next t₀ ∧ Kept s₀ t₀ := by
  unfold execWake
  refine ⟨_, rfl, ?_⟩
  try dsimp only
  with_reducible repeat' first
    | exact h | apply State.watchNow_kept | apply State.setCtx_kept | refine Kept.ite ?_ ?_ | split
    | refine Kept.upd ?_ ⟨rfl, rfl⟩
theorem State.pollWord_kept {c x a exp} (h : Kept s₀ s₁) : Kept s₀ (State.pollWord s₁ c x a exp) := by
  unfold State.pollWord
  try dsimp only
  with_reducible repeat' first
    | exact h | apply State.waitRead_kept | apply State.countUp_kept | apply State.waitDone_kept
    | refine State.waitRead_kept' ‹_› ?_ | refine Kept.ite ?_ ?_ | split
theorem State.pollSlot_kept {c n} (h : Kept s₀ s₁) : Kept s₀ (State.pollSlot s₁ c n) := by
  unfold State.pollSlot
  try dsimp only
  with_reducible repeat' first
    | exact h | apply State.slotWait_kept | apply State.countUp_kept | refine Kept.ite ?_ ?_
theorem execSyncPoll_kept {c x} (h : Kept s₀ s₁) : ∃ t₀, execSyncPoll c x s₁ = .next t₀ ∧ Kept s₀ t₀ := by
  unfold execSyncPoll
  refine ⟨_, rfl, ?_⟩
  try dsimp only
  with_reducible repeat' first
    | exact h | apply State.pollSlot_kept | apply State.pollWord_kept | apply State.watchNow_kept
    | apply State.countUp_kept | refine Kept.ite ?_ ?_ | split
theorem State.pfWrite_kept {p l} (h : Kept s₀ s₁) : Kept s₀ (State.pfWrite s₁ p l) := by
  unfold State.pfWrite
  try dsimp only
  with_reducible repeat' first
    | exact h | apply State.wr_kept | apply State.memWrite_kept | apply State.signalLocal_kept | apply State.msix_kept
    | refine State.memWrite_kept' ‹_› ?_ | refine State.signalLocal_kept' ‹_› ?_ | refine Kept.ite ?_ ?_ | split
theorem State.pfRecord_kept {p l} (h : Kept s₀ s₁) : Kept s₀ (State.pfRecord s₁ p l) := by
  unfold State.pfRecord
  try dsimp only
  with_reducible repeat' first
    | exact h | apply State.pfWrite_kept | apply State.countUp_kept | apply State.orReg_kept | refine Kept.ite ?_ ?_
    | split | refine Kept.upd ?_ ⟨rfl, rfl⟩
theorem State.pfDrain_kept {p n} (h : Kept s₀ s₁) : Kept s₀ (State.pfDrain s₁ p n) := by
  induction n generalizing s₁ with
  | zero => exact h
  | succ n ih =>
    unfold State.pfDrain
    split
    · split
      · exact h
      · exact ih (State.pfWrite_kept (Kept.upd h ⟨rfl, rfl⟩))
    · exact h
theorem State.pageFault_kept {r c x va cause level snap} (h : Kept s₀ s₁) : Kept s₀ (State.pageFault s₁ r c x va cause level snap) := by
  unfold State.pageFault
  try dsimp only
  with_reducible repeat' first | exact h | apply State.pfRecord_kept | refine Kept.ite ?_ ?_ | split
theorem State.enqueue_kept {q} (h : Kept s₀ s₁) : Kept s₀ (State.enqueue s₁ q) := by
  unfold State.enqueue
  try dsimp only
  with_reducible repeat' first | exact h | refine Kept.ite ?_ ?_ | split | refine Kept.upd ?_ ⟨rfl, rfl⟩
theorem State.launchCmd_kept {ring idx k} (h : Kept s₀ s₁) : Kept s₀ (State.launchCmd s₁ ring idx k) := by
  unfold State.launchCmd
  try dsimp only
  with_reducible repeat' first
    | exact h | apply State.complete_kept | apply State.enqueue_kept | refine Kept.ite ?_ ?_ | split
theorem execLaunch_kept {ring idx} (h : Kept s₀ s₁) : ∃ t₀, execLaunch ring idx s₁ = .next t₀ ∧ Kept s₀ t₀ := by
  unfold execLaunch
  refine ⟨_, rfl, ?_⟩
  try dsimp only
  with_reducible repeat' first
    | exact h | refine State.mbox_kept ?_ (fun _ _ _ => ?_) | assumption | apply State.launchCmd_kept
    | refine Kept.ite ?_ ?_
theorem execTaskGraphLaunch_kept {p entry} (h : Kept s₀ s₁) : ∃ t₀, execTaskGraphLaunch p entry s₁ = .next t₀ ∧ Kept s₀ t₀ := by
  unfold execTaskGraphLaunch
  refine ⟨_, rfl, ?_⟩
  try dsimp only
  with_reducible repeat' first | exact h | apply State.enqueue_kept | refine Kept.ite ?_ ?_ | split
theorem State.clearArea_kept {c n} (h : Kept s₀ s₁) : Kept s₀ (State.clearArea s₁ c n) := by
  unfold State.clearArea
  try dsimp only
  with_reducible repeat' first
    | exact h | refine Kept.ite ?_ ?_ | split | refine Kept.upd ?_ ⟨rfl, rfl⟩ | refine Kept.zeroUpd ?_
theorem State.takeSlot_kept {t rcd c n} (h : Kept s₀ s₁) : Kept s₀ (State.takeSlot s₁ t rcd c n) := by
  unfold State.takeSlot
  try dsimp only
  with_reducible repeat' first
    | exact h | apply State.wr_kept | apply State.clearArea_kept | apply State.slotWait_kept
    | apply State.setSlot_kept
theorem State.setSeqState_kept {p v} (h : Kept s₀ s₁) : Kept s₀ (State.setSeqState s₁ p v) := by
  unfold State.setSeqState
  try dsimp only
  with_reducible repeat' first | exact h | apply State.setFld_kept
theorem execSlotAllocate_kept (h : Kept s₀ s₁) : ∃ t₀, execSlotAllocate s₁ = .next t₀ ∧ Kept s₀ t₀ := by
  unfold execSlotAllocate
  refine ⟨_, rfl, ?_⟩
  try dsimp only
  with_reducible repeat' first
    | exact h | apply State.setSeqState_kept | apply State.setStep_kept | apply State.takeSlot_kept
    | refine Kept.foldl _ (fun _ _ _ => ?_) _ ?_ | refine Kept.foldlSnd _ (fun _ _ _ => ?_) _ ?_ | assumption
    | refine Kept.ite ?_ ?_ | split | refine Kept.upd ?_ ⟨rfl, rfl⟩
theorem State.dropDetect_kept {c x} (h : Kept s₀ s₁) : Kept s₀ (State.dropDetect s₁ c x) := by
  unfold State.dropDetect
  try dsimp only
  with_reducible repeat' first
    | exact h | apply State.abortChans_kept | apply State.abortDpps_kept | apply State.setCtx_kept
theorem State.evict_kept {c x next} (h : Kept s₀ s₁) : Kept s₀ (State.evict s₁ c x next) := by
  unfold State.evict
  try dsimp only
  with_reducible repeat' first
    | exact h | apply State.unwatch_kept | apply State.setChan_kept | apply State.setFld_kept
    | apply State.dropDetect_kept | apply State.setCtxState_kept | apply State.setCtx_kept
    | refine Kept.foldl _ (fun _ _ _ => ?_) _ ?_ | refine Kept.foldlSnd _ (fun _ _ _ => ?_) _ ?_ | assumption
    | refine Kept.ite ?_ ?_
theorem State.loadStart_kept {c x n swap} (h : Kept s₀ s₁) : Kept s₀ (State.loadStart s₁ c x n swap) := by
  unfold State.loadStart
  try dsimp only
  with_reducible repeat' first
    | exact h | apply State.setSlot_kept | apply State.setReady_kept | apply State.setCtxState_kept
    | apply State.setCtx_kept | refine Kept.ite ?_ ?_ | split | refine Kept.upd ?_ ⟨rfl, rfl⟩
theorem execContextSwap_kept {c} (h : Kept s₀ s₁) : ∃ t₀, execContextSwap c s₁ = .next t₀ ∧ Kept s₀ t₀ := by
  unfold execContextSwap
  refine ⟨_, rfl, ?_⟩
  try dsimp only
  with_reducible repeat' first
    | exact h | apply State.loadStart_kept | apply State.evict_kept | refine Kept.ite ?_ ?_ | split
theorem State.readTiles_kept {c tiles} (h : Kept s₀ s₁) : Kept s₀ (State.readTiles s₁ c tiles).2 := by
  unfold State.readTiles
  exact Kept.foldlSnd _ (fun _ _ ht => Kept.snd_mk (State.readTile_kept ht)) _ h
theorem State.readTiles_kept' {c tiles} {r₀ u₀} (hq : State.readTiles s₁ c tiles = (r₀, u₀)) (h : Kept s₀ s₁) : Kept s₀ u₀ := by
  have := @State.readTiles_kept s₀ s₁ c tiles h
  rw [hq] at this
  exact this
theorem State.reclaim_kept {c x} (h : Kept s₀ s₁) : Kept s₀ (State.reclaim s₁ c x) := by
  unfold State.reclaim
  try dsimp only
  with_reducible repeat' first
    | exact h | apply State.setArr_kept | apply State.setCtx_kept | refine Kept.foldl _ (fun _ _ _ => ?_) _ ?_
    | refine Kept.foldlSnd _ (fun _ _ _ => ?_) _ ?_ | assumption
theorem State.saveFail_kept {c x} (h : Kept s₀ s₁) : Kept s₀ (State.saveFail s₁ c x) := by
  unfold State.saveFail
  try dsimp only
  with_reducible repeat' first
    | exact h | apply State.raiseCl_kept | apply State.teardownTask_kept | apply State.tearDown_kept
    | refine Kept.ite ?_ ?_ | split
theorem State.swapBuf_kept {c images} (h : Kept s₀ s₁) : Kept s₀ (State.swapBuf s₁ c images) := by
  unfold State.swapBuf
  try dsimp only
  with_reducible repeat' first
    | exact h | apply State.setTags_kept | apply State.memWrite_kept | refine State.memWrite_kept' ‹_› ?_
    | refine Kept.foldl _ (fun _ _ _ => ?_) _ ?_ | refine Kept.foldlSnd _ (fun _ _ _ => ?_) _ ?_ | assumption
theorem State.saveSlot_kept {c x n} (h : Kept s₀ s₁) : Kept s₀ (State.saveSlot s₁ c x n) := by
  unfold State.saveSlot
  try dsimp only
  with_reducible repeat' first
    | exact h | apply State.reclaim_kept | apply State.memWrite_kept | apply State.swapBuf_kept
    | apply State.setTileOwner_kept | apply State.setFld_kept | apply State.setAtt_kept | apply State.setChan_kept
    | apply State.setSlot_kept | apply State.untile_kept | apply State.setCtxState_kept | apply State.setCtx_kept
    | apply State.scrubMove_kept | apply State.tearSlot_kept | apply State.raiseCl_kept | apply State.slotWait_kept
    | refine State.memWrite_kept' ‹_› ?_ | refine Kept.foldl _ (fun _ _ _ => ?_) _ ?_
    | refine Kept.foldlSnd _ (fun _ _ _ => ?_) _ ?_ | assumption | refine Kept.ite ?_ ?_
theorem execStateImageSave_kept {c x} (h : Kept s₀ s₁) : ∃ t₀, execStateImageSave c x s₁ = .next t₀ ∧ Kept s₀ t₀ := by
  unfold execStateImageSave
  refine ⟨_, rfl, ?_⟩
  try dsimp only
  with_reducible repeat' first
    | exact h | apply State.readTiles_kept | apply State.saveFail_kept | apply State.saveSlot_kept
    | apply State.loadStart_kept | apply State.settle_kept | refine State.readTiles_kept' ‹_› ?_
    | refine Kept.ite ?_ ?_ | split
theorem State.firstLoad_kept {c x r} (h : Kept s₀ s₁) : Kept s₀ (State.firstLoad s₁ c x r) := by
  unfold State.firstLoad
  try dsimp only
  with_reducible repeat' first
    | exact h | apply State.wr_kept | apply State.wr64_kept | apply State.bbWrite_kept | apply State.setTileOwner_kept
    | apply State.setCtx_kept | refine Kept.foldl _ (fun _ _ _ => ?_) _ ?_
    | refine Kept.foldlSnd _ (fun _ _ _ => ?_) _ ?_ | assumption | refine Kept.ite ?_ ?_
theorem State.restoreTiles_kept {c x area count} (h : Kept s₀ s₁) : Kept s₀ (State.restoreTiles s₁ c x area count) := by
  unfold State.restoreTiles
  try dsimp only
  with_reducible repeat' first
    | exact h | apply State.setTileOwner_kept | apply State.loadImage_kept | apply State.setCtx_kept
    | refine Kept.foldl _ (fun _ _ _ => ?_) _ ?_ | refine Kept.foldlSnd _ (fun _ _ _ => ?_) _ ?_ | assumption
    | refine Kept.ite ?_ ?_
theorem State.restoreChan_kept {c x resume v} (h : Kept s₀ s₁) : Kept s₀ (State.restoreChan s₁ c x resume v) := by
  unfold State.restoreChan
  try dsimp only
  with_reducible repeat' first
    | exact h | apply State.wr_kept | apply State.setFld_kept | apply State.setChan_kept
    | refine Kept.foldl _ (fun _ _ _ => ?_) _ ?_ | refine Kept.foldlSnd _ (fun _ _ _ => ?_) _ ?_ | assumption
    | refine Kept.ite ?_ ?_ | split
theorem State.reload_kept {c x n} (h : Kept s₀ s₁) : Kept s₀ (State.reload s₁ c x n) := by
  unfold State.reload
  try dsimp only
  with_reducible repeat' first
    | exact h | apply State.bbWrite_kept | apply State.wr_kept | apply State.swapBuf_kept | apply State.setCtx_kept
    | apply State.restoreTiles_kept | apply State.restoreChan_kept | apply State.setFld_kept | apply State.setAtt_kept
    | apply State.setSlot_kept | apply State.beginWait_kept | refine Kept.foldl _ (fun _ _ _ => ?_) _ ?_
    | refine Kept.foldlSnd _ (fun _ _ _ => ?_) _ ?_ | assumption | refine Kept.ite ?_ ?_ | split
    | refine Kept.upd ?_ ⟨rfl, rfl⟩
theorem State.loadDone_kept {c x n} (h : Kept s₀ s₁) : Kept s₀ (State.loadDone s₁ c x n) := by
  unfold State.loadDone
  try dsimp only
  with_reducible repeat' first
    | exact h | apply State.firstLoad_kept | apply State.reload_kept | apply State.setSlot_kept
    | apply State.countUp_kept | apply State.setCtx_kept | apply State.ndTiming_kept | apply State.wr_kept
    | apply State.settle_kept | apply State.setCtxState_kept | refine Kept.ite ?_ ?_ | split
theorem execLoad_kept {r c x slot} (h : Kept s₀ s₁) : ∃ t₀, execLoad r c x slot s₁ = .next t₀ ∧ Kept s₀ t₀ := by
  unfold execLoad
  refine ⟨_, rfl, ?_⟩
  try dsimp only
  with_reducible repeat' first | exact h | apply State.loadStart_kept | refine Kept.ite ?_ ?_
theorem execLoadComplete_kept {c x} (h : Kept s₀ s₁) : ∃ t₀, execLoadComplete c x s₁ = .next t₀ ∧ Kept s₀ t₀ := by
  unfold execLoadComplete
  refine ⟨_, rfl, ?_⟩
  try dsimp only
  with_reducible repeat' first
    | exact h | apply State.saveFail_kept | apply State.setCtx_kept | apply State.loadDone_kept
    | refine Kept.ite ?_ ?_ | split
theorem State.preempt_kept {c x} (h : Kept s₀ s₁) : Kept s₀ (State.preempt s₁ c x) := by
  unfold State.preempt
  try dsimp only
  with_reducible repeat' first
    | exact h | apply State.evict_kept | apply State.orReg_kept | refine Kept.ite ?_ ?_ | split
theorem execPreempt_kept {r c x} (h : Kept s₀ s₁) : ∃ t₀, execPreempt r c x s₁ = .next t₀ ∧ Kept s₀ t₀ := by
  unfold execPreempt
  refine ⟨_, rfl, ?_⟩
  try dsimp only
  with_reducible repeat' first | exact h | apply State.preempt_kept | refine Kept.ite ?_ ?_
theorem State.dropShare_kept {c t} (h : Kept s₀ s₁) : Kept s₀ (State.dropShare s₁ c t) := by
  unfold State.dropShare
  try dsimp only
  with_reducible repeat' first
    | exact h | apply State.modTask_kept | apply State.complete_kept | refine Kept.ite ?_ ?_ | split
theorem execTeardown_kept {r c x swapped slot} (h : Kept s₀ s₁) : ∃ t₀, execTeardown r c x swapped slot s₁ = .next t₀ ∧ Kept s₀ t₀ := by
  unfold execTeardown
  refine ⟨_, rfl, ?_⟩
  try dsimp only
  with_reducible repeat' first
    | exact h | apply State.settle_kept | apply State.tearSlot_kept | apply State.dropShare_kept
    | apply State.tearDown_kept | refine Kept.ite ?_ ?_
theorem State.suspendCmd_kept {ring idx k} (h : Kept s₀ s₁) : Kept s₀ (State.suspendCmd s₁ ring idx k) := by
  unfold State.suspendCmd
  try dsimp only
  with_reducible repeat' first
    | exact h | apply State.complete_kept | apply State.modTask_kept | apply State.preempt_kept
    | apply State.settle_kept | refine Kept.foldl _ (fun _ _ _ => ?_) _ ?_
    | refine Kept.foldlSnd _ (fun _ _ _ => ?_) _ ?_ | assumption | refine Kept.ite ?_ ?_ | split
theorem execSuspend_kept {ring idx} (h : Kept s₀ s₁) : ∃ t₀, execSuspend ring idx s₁ = .next t₀ ∧ Kept s₀ t₀ := by
  unfold execSuspend
  refine ⟨_, rfl, ?_⟩
  try dsimp only
  with_reducible repeat' first
    | exact h | refine State.mbox_kept ?_ (fun _ _ _ => ?_) | assumption | apply State.suspendCmd_kept
theorem execCont_kept {ring idx} (h : Kept s₀ s₁) : ∃ t₀, execCont ring idx s₁ = .next t₀ ∧ Kept s₀ t₀ := by
  unfold execCont
  refine ⟨_, rfl, ?_⟩
  try dsimp only
  with_reducible repeat' first
    | exact h | refine State.mbox_kept ?_ (fun _ _ _ => ?_) | assumption | apply State.complete_kept
    | apply State.settle_kept | apply State.modTask_kept | refine Kept.foldl _ (fun _ _ _ => ?_) _ ?_
    | refine Kept.foldlSnd _ (fun _ _ _ => ?_) _ ?_ | assumption | refine Kept.ite ?_ ?_
theorem State.killCmd_kept {ring idx k} (h : Kept s₀ s₁) : Kept s₀ (State.killCmd s₁ ring idx k) := by
  unfold State.killCmd
  try dsimp only
  with_reducible repeat' first
    | exact h | apply State.complete_kept | apply State.settle_kept | apply State.teardownTask_kept
    | refine Kept.foldl _ (fun _ _ _ => ?_) _ ?_ | refine Kept.foldlSnd _ (fun _ _ _ => ?_) _ ?_ | assumption
    | refine Kept.ite ?_ ?_ | split | refine Kept.upd ?_ ⟨rfl, rfl⟩
theorem execKill_kept {ring idx} (h : Kept s₀ s₁) : ∃ t₀, execKill ring idx s₁ = .next t₀ ∧ Kept s₀ t₀ := by
  unfold execKill
  refine ⟨_, rfl, ?_⟩
  try dsimp only
  with_reducible repeat' first
    | exact h | refine State.mbox_kept ?_ (fun _ _ _ => ?_) | assumption | apply State.killCmd_kept
theorem State.tileFor_kept {c x} (h : Kept s₀ s₁) : Kept s₀ (State.tileFor s₁ c x) := by
  unfold State.tileFor
  try dsimp only
  with_reducible repeat' first | exact h | apply State.setFld_kept | apply State.setCtx_kept
theorem execTilerContextChange_kept {c} (h : Kept s₀ s₁) : ∃ t₀, execTilerContextChange c s₁ = .next t₀ ∧ Kept s₀ t₀ := by
  unfold execTilerContextChange
  refine ⟨_, rfl, ?_⟩
  try dsimp only
  with_reducible repeat' first | exact h | apply State.tileFor_kept | refine Kept.ite ?_ ?_ | split
theorem State.movMiss_kept {c n x entry side va q} (h : Kept s₀ s₁) : Kept s₀ (State.movMiss s₁ c n x entry side va q) := by
  unfold State.movMiss
  try dsimp only
  with_reducible repeat' first
    | exact h | apply State.raiseCl_kept | apply State.movFault_kept | apply State.pageFault_kept
    | apply State.setChan_kept | apply State.setCtxState_kept | apply State.abortCtx_kept | refine Kept.ite ?_ ?_
    | split
theorem State.reachGa_kept {c x va n right} (h : Kept s₀ s₁) : Kept s₀ (State.reachGa s₁ c x va n right).2 := by
  unfold State.reachGa
  try dsimp only
  with_reducible repeat' first
    | exact h | apply State.abortCtx_kept | apply State.xlate_kept | apply State.bbViolation_kept
    | apply State.movMiss_kept | refine State.xlate_kept' ‹_› ?_ | refine Kept.ite ?_ ?_ | split
theorem State.reachGa_kept' {c x va n right} {r₀ u₀} (hq : State.reachGa s₁ c x va n right = (r₀, u₀)) (h : Kept s₀ s₁) : Kept s₀ u₀ := by
  have := @State.reachGa_kept s₀ s₁ c x va n right h
  rw [hq] at this
  exact this
theorem State.reachVa_kept {c x va n right} (h : Kept s₀ s₁) : Kept s₀ (State.reachVa s₁ c x va n right).2 := by
  unfold State.reachVa
  try dsimp only
  with_reducible repeat' first
    | exact h | apply State.reachGa_kept | apply State.abortCtx_kept | apply State.farRead_kept
    | refine State.reachGa_kept' ‹_› ?_ | refine Kept.ite ?_ ?_ | split
theorem State.reachVa_kept' {c x va n right} {r₀ u₀} (hq : State.reachVa s₁ c x va n right = (r₀, u₀)) (h : Kept s₀ s₁) : Kept s₀ u₀ := by
  have := @State.reachVa_kept s₀ s₁ c x va n right h
  rw [hq] at this
  exact this
theorem State.xRead_kept {c x va n} (h : Kept s₀ s₁) : Kept s₀ (State.xRead s₁ c x va n).2 := by
  unfold State.xRead
  try dsimp only
  with_reducible repeat' first
    | exact h | apply State.reachVa_kept | apply State.memRead_kept | apply State.abortCtx_kept
    | refine State.reachVa_kept' ‹_› ?_ | refine State.memRead_kept' ‹_› ?_
    | refine Kept.foldl _ (fun _ _ _ => ?_) _ ?_ | refine Kept.foldlSnd _ (fun _ _ _ => ?_) _ ?_ | assumption
    | refine Kept.ite ?_ ?_ | split
theorem State.xRead_kept' {c x va n} {r₀ u₀} (hq : State.xRead s₁ c x va n = (r₀, u₀)) (h : Kept s₀ s₁) : Kept s₀ u₀ := by
  have := @State.xRead_kept s₀ s₁ c x va n h
  rw [hq] at this
  exact this
theorem State.xReads_kept {c x l} (h : Kept s₀ s₁) : Kept s₀ (State.xReads s₁ c x l).2 := by
  unfold State.xReads
  try dsimp only
  with_reducible repeat' first
    | exact h | apply State.xRead_kept | refine State.xRead_kept' ‹_› ?_ | refine Kept.foldl _ (fun _ _ _ => ?_) _ ?_
    | refine Kept.foldlSnd _ (fun _ _ _ => ?_) _ ?_ | assumption | refine Kept.ite ?_ ?_ | split
theorem State.xReads_kept' {c x l} {r₀ u₀} (hq : State.xReads s₁ c x l = (r₀, u₀)) (h : Kept s₀ s₁) : Kept s₀ u₀ := by
  have := @State.xReads_kept s₀ s₁ c x l h
  rw [hq] at this
  exact this
theorem State.xWrite_kept {c x va l} (h : Kept s₀ s₁) : Kept s₀ (State.xWrite s₁ c x va l).2 := by
  unfold State.xWrite
  try dsimp only
  with_reducible repeat' first
    | exact h | apply State.reachGa_kept | apply State.farWrite_kept | apply State.memWrite_kept
    | apply State.abortCtx_kept | refine State.reachGa_kept' ‹_› ?_ | refine State.farWrite_kept' ‹_› ?_
    | refine State.memWrite_kept' ‹_› ?_ | refine Kept.foldl _ (fun _ _ _ => ?_) _ ?_
    | refine Kept.foldlSnd _ (fun _ _ _ => ?_) _ ?_ | assumption | refine Kept.ite ?_ ?_ | split
theorem State.xWrite_kept' {c x va l} {r₀ u₀} (hq : State.xWrite s₁ c x va l = (r₀, u₀)) (h : Kept s₀ s₁) : Kept s₀ u₀ := by
  have := @State.xWrite_kept s₀ s₁ c x va l h
  rw [hq] at this
  exact this
theorem State.xWrites_kept {c x l} (h : Kept s₀ s₁) : Kept s₀ (State.xWrites s₁ c x l).2 := by
  unfold State.xWrites
  try dsimp only
  with_reducible repeat' first
    | exact h | apply State.xWrite_kept | refine State.xWrite_kept' ‹_› ?_
    | refine Kept.foldl _ (fun _ _ _ => ?_) _ ?_ | refine Kept.foldlSnd _ (fun _ _ _ => ?_) _ ?_ | assumption
    | refine Kept.ite ?_ ?_ | split
theorem State.xWrites_kept' {c x l} {r₀ u₀} (hq : State.xWrites s₁ c x l = (r₀, u₀)) (h : Kept s₀ s₁) : Kept s₀ u₀ := by
  have := @State.xWrites_kept s₀ s₁ c x l h
  rw [hq] at this
  exact this
theorem State.setItem_kept {c x v} (h : Kept s₀ s₁) : Kept s₀ (State.setItem s₁ c x v) := by
  unfold State.setItem
  try dsimp only
  with_reducible repeat' first | exact h | apply State.wr_kept
theorem State.modTil_kept {c x f} (h : Kept s₀ s₁) : Kept s₀ (State.modTil s₁ c x f) := by
  unfold State.modTil
  try dsimp only
  with_reducible repeat' first | exact h | apply State.setCtx_kept
theorem State.tilState_kept {c v} (h : Kept s₀ s₁) : Kept s₀ (State.tilState s₁ c v) := by
  unfold State.tilState
  try dsimp only
  with_reducible repeat' first | exact h | apply State.setFld_kept
theorem State.descRefused_kept {c x} (h : Kept s₀ s₁) : Kept s₀ (State.descRefused s₁ c x) := by
  unfold State.descRefused
  try dsimp only
  with_reducible repeat' first | exact h | apply State.abortCtx_kept | apply State.raiseCl_kept
theorem State.arenaFault_kept {c x} (h : Kept s₀ s₁) : Kept s₀ (State.arenaFault s₁ c x) := by
  unfold State.arenaFault
  try dsimp only
  with_reducible repeat' first | exact h | apply State.abortCtx_kept | apply State.raiseCl_kept
theorem State.tilerTake_kept {c x} (h : Kept s₀ s₁) : Kept s₀ (State.tilerTake s₁ c x) := by
  unfold State.tilerTake
  try dsimp only
  with_reducible repeat' first | exact h | apply State.tileFor_kept | refine Kept.ite ?_ ?_
theorem State.tilerChan_kept {c x} (h : Kept s₀ s₁) : Kept s₀ (State.tilerChan s₁ c x).2 := by
  unfold State.tilerChan
  try dsimp only
  with_reducible repeat' first | exact h | apply State.setFld_kept | refine Kept.ite ?_ ?_ | split
theorem State.tilerChan_kept' {c x} {r₀ u₀} (hq : State.tilerChan s₁ c x = (r₀, u₀)) (h : Kept s₀ s₁) : Kept s₀ u₀ := by
  have := @State.tilerChan_kept s₀ s₁ c x h
  rw [hq] at this
  exact this
theorem State.readOp_kept {c x} (h : Kept s₀ s₁) : Kept s₀ (State.readOp s₁ c x).2 := by
  unfold State.readOp
  try dsimp only
  with_reducible repeat' first
    | exact h | apply State.descRefused_kept | apply State.modTil_kept | apply State.tilerChan_kept
    | apply State.xRead_kept | refine State.tilerChan_kept' ‹_› ?_ | refine State.xRead_kept' ‹_› ?_
    | refine Kept.ite ?_ ?_ | split
theorem State.readOp_kept' {c x} {r₀ u₀} (hq : State.readOp s₁ c x = (r₀, u₀)) (h : Kept s₀ s₁) : Kept s₀ u₀ := by
  have := @State.readOp_kept s₀ s₁ c x h
  rw [hq] at this
  exact this
theorem State.nextItem_kept {c x total wctr dist} (h : Kept s₀ s₁) : Kept s₀ (State.nextItem s₁ c x total wctr dist).2.2 := by
  unfold State.nextItem
  try dsimp only
  with_reducible repeat' first
    | exact h | apply State.modTil_kept | apply State.bbViolation_kept | apply State.memAtomic_kept
    | apply State.abortCtx_kept | refine State.memAtomic_kept' ‹_› ?_ | refine Kept.ite ?_ ?_ | split
theorem State.nextItem_kept' {c x total wctr dist} {r₀ r₁ u₀} (hq : State.nextItem s₁ c x total wctr dist = (r₀, r₁, u₀)) (h : Kept s₀ s₁) : Kept s₀ u₀ := by
  have := @State.nextItem_kept s₀ s₁ c x total wctr dist h
  rw [hq] at this
  exact this
theorem State.opStart_kept {c x l total work} (h : Kept s₀ s₁) : Kept s₀ (State.opStart s₁ c x l total work) := by
  unfold State.opStart
  try dsimp only
  with_reducible repeat' first
    | exact h | apply State.modTil_kept | apply State.setFld_kept | apply State.setItem_kept
theorem State.opDoneShare_kept {c x} (h : Kept s₀ s₁) : Kept s₀ (State.opDoneShare s₁ c x) := by
  unfold State.opDoneShare
  try dsimp only
  with_reducible repeat' first | exact h | apply State.modTil_kept | apply State.setItem_kept
theorem State.itemEnd_kept {c x} (h : Kept s₀ s₁) : Kept s₀ (State.itemEnd s₁ c x) := by
  unfold State.itemEnd
  try dsimp only
  with_reducible repeat' first | exact h | apply State.modTil_kept | apply State.setItem_kept
theorem State.inSpecial_kept {c x b} (h : Kept s₀ s₁) : Kept s₀ (State.inSpecial s₁ c x b) := by
  unfold State.inSpecial
  try dsimp only
  with_reducible repeat' first | exact h | apply State.modTil_kept | apply State.arithSpecial_kept
theorem State.outFlags_kept {c x ovf nan} (h : Kept s₀ s₁) : Kept s₀ (State.outFlags s₁ c x ovf nan) := by
  unfold State.outFlags
  try dsimp only
  with_reducible repeat' first | exact h | apply State.modTil_kept | apply State.arithOut_kept
theorem State.addSteps_kept {c x kernel ct} (h : Kept s₀ s₁) : Kept s₀ (State.addSteps s₁ c x kernel ct) := by
  unfold State.addSteps
  try dsimp only
  with_reducible repeat' first | exact h | apply State.setVec_kept
theorem State.taskTable_kept {c} (h : Kept s₀ s₁) : Kept s₀ (State.taskTable s₁ c) := by
  unfold State.taskTable
  try dsimp only
  with_reducible repeat' first | exact h | apply State.setFld_kept
theorem State.timedEnd_kept {k} (h : Kept s₀ s₁) : Kept s₀ (State.timedEnd s₁ k) := by
  unfold State.timedEnd
  try dsimp only
  with_reducible repeat' first
    | exact h | apply State.ndTiming_kept | apply State.setDsp_kept | refine Kept.ite ?_ ?_ | split
theorem State.shareEnd_kept {c x} (h : Kept s₀ s₁) : Kept s₀ (State.shareEnd s₁ c x) := by
  unfold State.shareEnd
  try dsimp only
  with_reducible repeat' first
    | exact h | apply State.untile_kept | apply State.modTil_kept | apply State.modTask_kept
    | apply State.endTimedCtx_kept | apply State.tearDown_kept | apply State.timedEnd_kept | apply State.complete_kept
    | refine Kept.ite ?_ ?_ | split
theorem State.shareOver_kept {c x} (h : Kept s₀ s₁) : Kept s₀ (State.shareOver s₁ c x) := by
  unfold State.shareOver
  try dsimp only
  with_reducible repeat' first
    | exact h | apply State.untile_kept | apply State.modTil_kept | apply State.shareEnd_kept | refine Kept.ite ?_ ?_
    | split | refine Kept.upd ?_ ⟨rfl, rfl⟩
theorem State.endDue_kept (h : Kept s₀ s₁) : Kept s₀ (State.endDue s₁) := by
  unfold State.endDue
  try dsimp only
  with_reducible repeat' first
    | exact h | apply State.shareEnd_kept | refine Kept.foldl _ (fun _ _ _ => ?_) _ ?_
    | refine Kept.foldlSnd _ (fun _ _ _ => ?_) _ ?_ | assumption | refine Kept.ite ?_ ?_ | split
    | refine Kept.upd ?_ ⟨rfl, rfl⟩
theorem State.writeWord_kept {c x} (h : Kept s₀ s₁) : Kept s₀ (State.writeWord s₁ c x) := by
  unfold State.writeWord
  try dsimp only
  with_reducible repeat' first
    | exact h | apply State.ctxWrite_kept | refine State.ctxWrite_kept' ‹_› ?_ | refine Kept.ite ?_ ?_
theorem State.completionWord_kept {c x} (h : Kept s₀ s₁) : Kept s₀ (State.completionWord s₁ c x) := by
  unfold State.completionWord
  try dsimp only
  with_reducible repeat' first
    | exact h | apply State.taskTable_kept | apply State.setItem_kept | apply State.modTil_kept
    | apply State.writeWord_kept | apply State.unitSignal_kept | apply State.setFld_kept | apply State.shareOver_kept
    | refine Kept.ite ?_ ?_
theorem execCompletionWord_kept {c x} (h : Kept s₀ s₁) : ∃ t₀, execCompletionWord c x s₁ = .next t₀ ∧ Kept s₀ t₀ := by
  unfold execCompletionWord
  refine ⟨_, rfl, ?_⟩
  try dsimp only
  with_reducible repeat' first | exact h | apply State.completionWord_kept | refine Kept.ite ?_ ?_
theorem State.attNote_kept {c cause va} (h : Kept s₀ s₁) : Kept s₀ (State.attNote s₁ c cause va) := by
  unfold State.attNote
  try dsimp only
  with_reducible repeat' first | exact h | apply State.wr64_kept | apply State.orReg_kept | apply State.setFld_kept
theorem State.attState_kept {c st x} (h : Kept s₀ s₁) : Kept s₀ (State.attState s₁ c st x) := by
  unfold State.attState
  try dsimp only
  with_reducible repeat' first | exact h | apply State.setFld_kept
theorem State.attFail_kept {c x va snap q} (h : Kept s₀ s₁) : Kept s₀ (State.attFail s₁ c x va snap q) := by
  unfold State.attFail
  try dsimp only
  with_reducible repeat' first
    | exact h | apply State.raiseCl_kept | apply State.setAtt_kept | apply State.attState_kept
    | apply State.attNote_kept | apply State.pageFault_kept | apply State.setCtxState_kept | apply State.abortCtx_kept
    | refine Kept.ite ?_ ?_ | split
theorem State.attMemFail_kept {c x va e} (h : Kept s₀ s₁) : Kept s₀ (State.attMemFail s₁ c x va e) := by
  unfold State.attMemFail
  try dsimp only
  with_reducible repeat' first
    | exact h | apply State.abortCtx_kept | apply State.attNote_kept | refine Kept.ite ?_ ?_
theorem State.attGa_kept {c x snap va n right} (h : Kept s₀ s₁) : Kept s₀ (State.attGa s₁ c x snap va n right).2 := by
  unfold State.attGa
  try dsimp only
  with_reducible repeat' first
    | exact h | apply State.abortCtx_kept | apply State.xlate_kept | apply State.bbViolation_kept
    | apply State.attFail_kept | refine State.xlate_kept' ‹_› ?_ | refine Kept.ite ?_ ?_ | split
theorem State.attGa_kept' {c x snap va n right} {r₀ u₀} (hq : State.attGa s₁ c x snap va n right = (r₀, u₀)) (h : Kept s₀ s₁) : Kept s₀ u₀ := by
  have := @State.attGa_kept s₀ s₁ c x snap va n right h
  rw [hq] at this
  exact this
theorem State.attReach_kept {c x snap va n right} (h : Kept s₀ s₁) : Kept s₀ (State.attReach s₁ c x snap va n right).2 := by
  unfold State.attReach
  try dsimp only
  with_reducible repeat' first
    | exact h | apply State.attGa_kept | apply State.abortCtx_kept | apply State.farRead_kept
    | refine State.attGa_kept' ‹_› ?_ | refine Kept.ite ?_ ?_ | split
theorem State.attReach_kept' {c x snap va n right} {r₀ u₀} (hq : State.attReach s₁ c x snap va n right = (r₀, u₀)) (h : Kept s₀ s₁) : Kept s₀ u₀ := by
  have := @State.attReach_kept s₀ s₁ c x snap va n right h
  rw [hq] at this
  exact this
theorem State.attRead_kept {c x snap va n} (h : Kept s₀ s₁) : Kept s₀ (State.attRead s₁ c x snap va n).2 := by
  unfold State.attRead
  try dsimp only
  with_reducible repeat' first
    | exact h | apply State.attReach_kept | apply State.memRead_kept | apply State.attMemFail_kept
    | refine State.attReach_kept' ‹_› ?_ | refine State.memRead_kept' ‹_› ?_
    | refine Kept.foldl _ (fun _ _ _ => ?_) _ ?_ | refine Kept.foldlSnd _ (fun _ _ _ => ?_) _ ?_ | assumption
    | refine Kept.ite ?_ ?_ | split
theorem State.attRead_kept' {c x snap va n} {r₀ u₀} (hq : State.attRead s₁ c x snap va n = (r₀, u₀)) (h : Kept s₀ s₁) : Kept s₀ u₀ := by
  have := @State.attRead_kept s₀ s₁ c x snap va n h
  rw [hq] at this
  exact this
theorem State.attReads_kept {c x snap l} (h : Kept s₀ s₁) : Kept s₀ (State.attReads s₁ c x snap l).2 := by
  unfold State.attReads
  try dsimp only
  with_reducible repeat' first
    | exact h | apply State.attRead_kept | refine State.attRead_kept' ‹_› ?_
    | refine Kept.foldl _ (fun _ _ _ => ?_) _ ?_ | refine Kept.foldlSnd _ (fun _ _ _ => ?_) _ ?_ | assumption
    | refine Kept.ite ?_ ?_ | split
theorem State.attReads_kept' {c x snap l} {r₀ u₀} (hq : State.attReads s₁ c x snap l = (r₀, u₀)) (h : Kept s₀ s₁) : Kept s₀ u₀ := by
  have := @State.attReads_kept s₀ s₁ c x snap l h
  rw [hq] at this
  exact this
theorem State.attWrite_kept {c x snap va l} (h : Kept s₀ s₁) : Kept s₀ (State.attWrite s₁ c x snap va l).2 := by
  unfold State.attWrite
  try dsimp only
  with_reducible repeat' first
    | exact h | apply State.attGa_kept | apply State.farWrite_kept | apply State.memWrite_kept
    | apply State.attMemFail_kept | refine State.attGa_kept' ‹_› ?_ | refine State.farWrite_kept' ‹_› ?_
    | refine State.memWrite_kept' ‹_› ?_ | refine Kept.foldl _ (fun _ _ _ => ?_) _ ?_
    | refine Kept.foldlSnd _ (fun _ _ _ => ?_) _ ?_ | assumption | refine Kept.ite ?_ ?_ | split
theorem State.attWrite_kept' {c x snap va l} {r₀ u₀} (hq : State.attWrite s₁ c x snap va l = (r₀, u₀)) (h : Kept s₀ s₁) : Kept s₀ u₀ := by
  have := @State.attWrite_kept s₀ s₁ c x snap va l h
  rw [hq] at this
  exact this
theorem State.attWrites_kept {c x snap l} (h : Kept s₀ s₁) : Kept s₀ (State.attWrites s₁ c x snap l).2 := by
  unfold State.attWrites
  try dsimp only
  with_reducible repeat' first
    | exact h | apply State.attWrite_kept | refine State.attWrite_kept' ‹_› ?_
    | refine Kept.foldl _ (fun _ _ _ => ?_) _ ?_ | refine Kept.foldlSnd _ (fun _ _ _ => ?_) _ ?_ | assumption
    | refine Kept.ite ?_ ?_ | split
theorem State.attWrites_kept' {c x snap l} {r₀ u₀} (hq : State.attWrites s₁ c x snap l = (r₀, u₀)) (h : Kept s₀ s₁) : Kept s₀ u₀ := by
  have := @State.attWrites_kept s₀ s₁ c x snap l h
  rw [hq] at this
  exact this
theorem State.walkReport_kept {r c x va right snap q} (h : Kept s₀ s₁) : Kept s₀ (State.walkReport s₁ r c x va right snap q) := by
  unfold State.walkReport
  try dsimp only
  with_reducible repeat' first
    | exact h | apply State.movMiss_kept | apply State.attFail_kept | apply State.xlAbort_kept | refine Kept.ite ?_ ?_
    | split
theorem execPageWalk_kept {r c x va right} (h : Kept s₀ s₁) : ∃ t₀, execPageWalk r c x va right s₁ = .next t₀ ∧ Kept s₀ t₀ := by
  unfold execPageWalk
  refine ⟨_, rfl, ?_⟩
  try dsimp only
  with_reducible repeat' first
    | exact h | apply State.walk_kept | apply State.walkReport_kept | refine State.walk_kept' ‹_› ?_
    | refine Kept.ite ?_ ?_
theorem State.partBytes_kept {c x o q} (h : Kept s₀ s₁) : Kept s₀ (State.partBytes s₁ c x o q).2 := by
  unfold State.partBytes
  try dsimp only
  with_reducible repeat' first
    | exact h | refine afterRead_kept ?_ (fun _ _ _ => ?_) (fun _ _ _ => ?_) | assumption | apply State.memRead_kept
    | apply State.abortCtx_kept | apply State.xReads_kept | refine State.memRead_kept' ‹_› ?_
    | refine State.xReads_kept' ‹_› ?_ | refine Kept.ite ?_ ?_ | split
theorem State.partBytes_kept' {c x o q} {r₀ u₀} (hq : State.partBytes s₁ c x o q = (r₀, u₀)) (h : Kept s₀ s₁) : Kept s₀ u₀ := by
  have := @State.partBytes_kept s₀ s₁ c x o q h
  rw [hq] at this
  exact this
theorem State.engineWrite_kept {c x slot l} (h : Kept s₀ s₁) : Kept s₀ (State.engineWrite s₁ c x slot l).2 := by
  unfold State.engineWrite
  try dsimp only
  with_reducible repeat' first
    | exact h | refine afterWrite_kept ?_ (fun _ _ _ => ?_) (fun _ _ => ?_) | assumption | apply State.memWrite_kept
    | apply State.abortCtx_kept | apply State.bbViolation_kept | refine State.memWrite_kept' ‹_› ?_
    | refine Kept.ite ?_ ?_ | split
theorem State.engineWrite_kept' {c x slot l} {r₀ u₀} (hq : State.engineWrite s₁ c x slot l = (r₀, u₀)) (h : Kept s₀ s₁) : Kept s₀ u₀ := by
  have := @State.engineWrite_kept s₀ s₁ c x slot l h
  rw [hq] at this
  exact this

end Sys2Proof.Machine
end

