-- ==== Sys2Proof/Laws/KeptTiler.lean ====
section
/-! SUPPORT. One lemma per effect (`<name>_kept`): the effect keeps what `Kept` says. This file:
the tilers, their kernels and attention. -/

namespace Sys2Proof.Machine

variable {s₀ s₁ : State}

theorem State.boundsSlots_kept {c x slot n f} (h : Kept s₀ s₁) : Kept s₀ (State.boundsSlots s₁ c x slot n f).2 := by
  unfold State.boundsSlots
  try dsimp only
  with_reducible repeat' first
    | exact h | apply State.engineWrite_kept | refine State.engineWrite_kept' ‹_› ?_
    | refine Kept.foldl _ (fun _ _ _ => ?_) _ ?_ | refine Kept.foldlSnd _ (fun _ _ _ => ?_) _ ?_ | assumption
    | refine Kept.ite ?_ ?_ | split
theorem State.boundsSlots_kept' {c x slot n f} {r₀ u₀} (hq : State.boundsSlots s₁ c x slot n f = (r₀, u₀)) (h : Kept s₀ s₁) : Kept s₀ u₀ := by
  have := @State.boundsSlots_kept s₀ s₁ c x slot n f h
  rw [hq] at this
  exact this
theorem State.boundsPart_kept {c x slot n p l q} (h : Kept s₀ s₁) : Kept s₀ (State.boundsPart s₁ c x slot n p l q).2 := by
  unfold State.boundsPart
  try dsimp only
  with_reducible repeat' first
    | exact h | apply State.partBytes_kept | apply State.boundsSlots_kept | apply State.inSpecial_kept
    | refine State.partBytes_kept' ‹_› ?_ | refine State.boundsSlots_kept' ‹_› ?_ | refine Kept.ite ?_ ?_ | split
theorem State.boundsPart_kept' {c x slot n p l q} {r₀ u₀} (hq : State.boundsPart s₁ c x slot n p l q = (r₀, u₀)) (h : Kept s₀ s₁) : Kept s₀ u₀ := by
  have := @State.boundsPart_kept s₀ s₁ c x slot n p l q h
  rw [hq] at this
  exact this
theorem State.boundsJob_kept {c x slot n p l} (h : Kept s₀ s₁) : Kept s₀ (State.boundsJob s₁ c x slot n p l).2 := by
  unfold State.boundsJob
  try dsimp only
  with_reducible repeat' first
    | exact h | apply State.kernelInvalid_kept | apply State.boundsSlots_kept | apply State.addSteps_kept
    | refine State.boundsSlots_kept' ‹_› ?_ | refine Kept.ite ?_ ?_ | split
theorem State.boundsJob_kept' {c x slot n p l} {r₀ u₀} (hq : State.boundsJob s₁ c x slot n p l = (r₀, u₀)) (h : Kept s₀ s₁) : Kept s₀ u₀ := by
  have := @State.boundsJob_kept s₀ s₁ c x slot n p l h
  rw [hq] at this
  exact this
theorem State.windowJob_kept {c x slot t ch ta u p l it} (h : Kept s₀ s₁) : Kept s₀ (State.windowJob s₁ c x slot t ch ta u p l it).2 := by
  unfold State.windowJob
  try dsimp only
  with_reducible repeat' first
    | exact h | apply State.bbViolation_kept | refine afterRead_kept ?_ (fun _ _ _ => ?_) (fun _ _ _ => ?_)
    | assumption | apply State.memRead_kept | apply State.abortCtx_kept | apply State.engineWrite_kept
    | apply State.addSteps_kept | apply State.count64_kept | refine State.memRead_kept' ‹_› ?_
    | refine State.engineWrite_kept' ‹_› ?_ | refine Kept.ite ?_ ?_ | split
theorem State.windowJob_kept' {c x slot t ch ta u p l it} {r₀ u₀} (hq : State.windowJob s₁ c x slot t ch ta u p l it = (r₀, u₀)) (h : Kept s₀ s₁) : Kept s₀ u₀ := by
  have := @State.windowJob_kept s₀ s₁ c x slot t ch ta u p l it h
  rw [hq] at this
  exact this
theorem State.diagJob_kept {c x slot ch part p l it} (h : Kept s₀ s₁) : Kept s₀ (State.diagJob s₁ c x slot ch part p l it).2 := by
  unfold State.diagJob
  try dsimp only
  with_reducible repeat' first
    | exact h | apply State.xReads_kept | apply State.engineWrite_kept | refine State.xReads_kept' ‹_› ?_
    | refine State.engineWrite_kept' ‹_› ?_ | refine Kept.ite ?_ ?_ | split
theorem State.diagJob_kept' {c x slot ch part p l it} {r₀ u₀} (hq : State.diagJob s₁ c x slot ch part p l it = (r₀, u₀)) (h : Kept s₀ s₁) : Kept s₀ u₀ := by
  have := @State.diagJob_kept s₀ s₁ c x slot ch part p l it h
  rw [hq] at this
  exact this
theorem State.nibbleJob_kept {c x slot slots base str first n kv} (h : Kept s₀ s₁) : Kept s₀ (State.nibbleJob s₁ c x slot slots base str first n kv).2 := by
  unfold State.nibbleJob
  try dsimp only
  with_reducible repeat' first
    | exact h | apply State.xReads_kept | apply State.engineWrite_kept | refine State.xReads_kept' ‹_› ?_
    | refine State.engineWrite_kept' ‹_› ?_ | refine Kept.ite ?_ ?_ | split
theorem State.nibbleJob_kept' {c x slot slots base str first n kv} {r₀ u₀} (hq : State.nibbleJob s₁ c x slot slots base str first n kv = (r₀, u₀)) (h : Kept s₀ s₁) : Kept s₀ u₀ := by
  have := @State.nibbleJob_kept s₀ s₁ c x slot slots base str first n kv h
  rw [hq] at this
  exact this
theorem State.nibbles_kept {c x slot t ch isB p l it} (h : Kept s₀ s₁) : Kept s₀ (State.nibbles s₁ c x slot t ch isB p l it).2 := by
  unfold State.nibbles
  try dsimp only
  with_reducible repeat' first
    | exact h | apply State.nibbleJob_kept | refine State.nibbleJob_kept' ‹_› ?_ | refine Kept.ite ?_ ?_ | split
theorem State.nibbles_kept' {c x slot t ch isB p l it} {r₀ u₀} (hq : State.nibbles s₁ c x slot t ch isB p l it = (r₀, u₀)) (h : Kept s₀ s₁) : Kept s₀ u₀ := by
  have := @State.nibbles_kept s₀ s₁ c x slot t ch isB p l it h
  rw [hq] at this
  exact this
theorem State.popWork_kept {c x} (h : Kept s₀ s₁) : Kept s₀ (State.popWork s₁ c x) := by
  unfold State.popWork
  try dsimp only
  with_reducible repeat' first | exact h | apply State.modTil_kept
theorem State.tilerPush_kept {c x d} (h : Kept s₀ s₁) : Kept s₀ (State.tilerPush s₁ c x d).2 := by
  unfold State.tilerPush
  try dsimp only
  with_reducible repeat' first
    | exact h | apply State.tilerChan_kept | apply State.wr_kept | apply State.movPush_kept
    | refine State.tilerChan_kept' ‹_› ?_ | refine Kept.foldl _ (fun _ _ _ => ?_) _ ?_
    | refine Kept.foldlSnd _ (fun _ _ _ => ?_) _ ?_ | assumption | refine Kept.ite ?_ ?_ | split
theorem State.tilerPush_kept' {c x d} {r₀ u₀} (hq : State.tilerPush s₁ c x d = (r₀, u₀)) (h : Kept s₀ s₁) : Kept s₀ u₀ := by
  have := @State.tilerPush_kept s₀ s₁ c x d h
  rw [hq] at this
  exact this
theorem State.writeChain_kept {c x} (h : Kept s₀ s₁) : Kept s₀ (State.writeChain s₁ c x) := by
  unfold State.writeChain
  try dsimp only
  with_reducible repeat' first
    | exact h | apply State.wr_kept | refine Kept.foldl _ (fun _ _ _ => ?_) _ ?_
    | refine Kept.foldlSnd _ (fun _ _ _ => ?_) _ ?_ | assumption
theorem State.farAdd_kept {r c x ga} (h : Kept s₀ s₁) : Kept s₀ (State.farAdd s₁ r c x ga).2 := by
  unfold State.farAdd
  try dsimp only
  with_reducible repeat' first
    | exact h | apply State.spSend_kept | apply State.abortCtx_kept | refine State.spSend_kept' ‹_› ?_
    | refine Kept.ite ?_ ?_ | split
theorem State.farAdd_kept' {r c x ga} {r₀ u₀} (hq : State.farAdd s₁ r c x ga = (r₀, u₀)) (h : Kept s₀ s₁) : Kept s₀ u₀ := by
  have := @State.farAdd_kept s₀ s₁ r c x ga h
  rw [hq] at this
  exact this
theorem State.emit1_kept {c x w} (h : Kept s₀ s₁) : Kept s₀ (State.emit1 s₁ c x w).2 := by
  unfold State.emit1
  try dsimp only
  with_reducible repeat' first
    | exact h | apply State.setArr_kept | apply State.place_kept | apply State.tilerPush_kept
    | apply State.boundsSlots_kept | apply State.boundsPart_kept | apply State.boundsJob_kept
    | apply State.diagJob_kept | apply State.nibbles_kept | apply State.setFld_kept | apply State.writeChain_kept
    | apply State.setTags_kept | apply State.reachGa_kept | apply State.farAdd_kept | apply State.memAtomic_kept
    | apply State.abortCtx_kept | apply State.wakeAll_kept | apply State.addSteps_kept
    | refine State.tilerPush_kept' ‹_› ?_ | refine State.boundsSlots_kept' ‹_› ?_
    | refine State.boundsPart_kept' ‹_› ?_ | refine State.boundsJob_kept' ‹_› ?_ | refine State.diagJob_kept' ‹_› ?_
    | refine State.nibbles_kept' ‹_› ?_ | refine State.reachGa_kept' ‹_› ?_ | refine State.farAdd_kept' ‹_› ?_
    | refine State.memAtomic_kept' ‹_› ?_ | refine Kept.ite ?_ ?_ | split
theorem State.emit_kept {c x a3} (h : Kept s₀ s₁) : Kept s₀ (State.emit s₁ c x a3) := by
  induction a3 generalizing s₁ with
  | zero => exact h
  | succ n ih =>
  unfold State.emit
  try dsimp only
  with_reducible repeat' first
    | exact h | apply ih | apply State.emit1_kept | apply State.popWork_kept | refine Kept.ite ?_ ?_ | split
theorem State.opRow_kept {c x op} {k : OpKind} (h : Kept s₀ s₁) (hs : ∀ t i, Kept s₀ t → Kept s₀ (k.start t i))
    (hg : ∀ t, Kept s₀ t → Kept s₀ (k.go t)) : Kept s₀ (State.opRow s₁ c x op k) := by
  unfold State.opRow
  split
  · exact h
  · extract_lets t q l u q2
    have ht : Kept s₀ t := State.tilerTake_kept h
    have hu : Kept s₀ u := State.emit_kept ht
    have hq2 : Kept s₀ q2.2.2 := State.nextItem_kept hu
    split
    · have hq : Kept s₀ q.2 := State.readOp_kept ht
      clear_value q
      split
      · exact hq
      · extract_lets v share
        have hu : Kept s₀ v := State.tilState_kept (State.modTil_kept hq)
        clear_value v
        exact Kept.ite (State.descRefused_kept hu) (Kept.ite (State.arenaFault_kept hu) (State.opStart_kept hu))
    · clear_value q2
      refine Kept.ite hu (Kept.ite (hg _ hu) ?_)
      split
      · exact hq2
      · exact Kept.ite (State.tilState_kept (State.taskTable_kept (hs _ _ (State.setItem_kept hq2)))) hq2
      · exact Kept.ite (State.tilState_kept (State.opDoneShare_kept hq2)) hq2
    · exact ht
theorem State.itemStart_kept {c x i} (h : Kept s₀ s₁) : Kept s₀ (State.itemStart s₁ c x i) := by
  unfold State.itemStart
  try dsimp only
  with_reducible repeat' first
    | exact h | apply State.setFld_kept | apply State.modTil_kept | refine Kept.ite ?_ ?_ | split
theorem State.itemGo_kept {c x} (h : Kept s₀ s₁) : Kept s₀ (State.itemGo s₁ c x) := by
  unfold State.itemGo
  try dsimp only
  with_reducible repeat' first
    | exact h | apply State.taskTable_kept | apply State.itemEnd_kept | apply State.modTil_kept
    | refine Kept.ite ?_ ?_
theorem execMatmul_kept {c x} (h : Kept s₀ s₁) : ∃ t₀, execMatmul c x s₁ = .next t₀ ∧ Kept s₀ t₀ :=
  ⟨_, rfl, State.opRow_kept h (fun _ _ ht => State.itemStart_kept ht) (fun _ ht => State.itemGo_kept ht)⟩
theorem execConv2d_kept {c x} (h : Kept s₀ s₁) : ∃ t₀, execConv2d c x s₁ = .next t₀ ∧ Kept s₀ t₀ :=
  ⟨_, rfl, State.opRow_kept h (fun _ _ ht => State.itemStart_kept ht) (fun _ ht => State.itemGo_kept ht)⟩
theorem execDwconv2d_kept {c x} (h : Kept s₀ s₁) : ∃ t₀, execDwconv2d c x s₁ = .next t₀ ∧ Kept s₀ t₀ :=
  ⟨_, rfl, State.opRow_kept h (fun _ _ ht => State.itemStart_kept ht) (fun _ ht => State.itemGo_kept ht)⟩
theorem execGroupconv2d_kept {c x} (h : Kept s₀ s₁) : ∃ t₀, execGroupconv2d c x s₁ = .next t₀ ∧ Kept s₀ t₀ :=
  ⟨_, rfl, State.opRow_kept h (fun _ _ ht => State.itemStart_kept ht) (fun _ ht => State.itemGo_kept ht)⟩
theorem execWindow_kept {c x} (h : Kept s₀ s₁) : ∃ t₀, execWindow c x s₁ = .next t₀ ∧ Kept s₀ t₀ := by
  unfold execWindow
  refine ⟨_, rfl, ?_⟩
  try dsimp only
  with_reducible repeat' first
    | exact h | apply State.windowJob_kept | apply State.kernelInvalid_kept | apply State.popWork_kept
    | refine State.windowJob_kept' ‹_› ?_ | refine Kept.ite ?_ ?_ | split
theorem State.tilerWait_kept {c x va need} (h : Kept s₀ s₁) : Kept s₀ (State.tilerWait s₁ c x va need) := by
  unfold State.tilerWait
  try dsimp only
  with_reducible repeat' first
    | exact h | apply State.reachGa_kept | apply State.tilState_kept | apply State.modTil_kept
    | apply State.watchNow_kept | apply State.beginWait_kept | refine State.reachGa_kept' ‹_› ?_
    | refine Kept.ite ?_ ?_ | split
theorem execPhase2Item_kept {c x} (h : Kept s₀ s₁) : ∃ t₀, execPhase2Item c x s₁ = .next t₀ ∧ Kept s₀ t₀ := by
  unfold execPhase2Item
  refine ⟨_, rfl, ?_⟩
  try dsimp only
  with_reducible repeat' first
    | exact h | apply State.tilerWait_kept | apply State.emit_kept | refine Kept.ite ?_ ?_ | split
theorem execCountWordRead_kept {c} (h : Kept s₀ s₁) : ∃ t₀, execCountWordRead c s₁ = .next t₀ ∧ Kept s₀ t₀ := by
  unfold execCountWordRead
  refine ⟨_, rfl, ?_⟩
  try dsimp only
  with_reducible repeat' first
    | exact h | apply State.attRead_kept | apply State.xRead_kept | apply State.popWork_kept
    | apply State.lateData_kept | refine State.attRead_kept' ‹_› ?_ | refine State.xRead_kept' ‹_› ?_
    | refine Kept.ite ?_ ?_ | split
theorem State.arrFlush_kept {c x arrays} (h : Kept s₀ s₁) : Kept s₀ (State.arrFlush s₁ c x arrays) := by
  unfold State.arrFlush
  try dsimp only
  with_reducible repeat' first
    | exact h | apply State.setArr_kept | refine Kept.foldl _ (fun _ _ _ => ?_) _ ?_
    | refine Kept.foldlSnd _ (fun _ _ _ => ?_) _ ?_ | assumption | refine Kept.ite ?_ ?_
theorem execArrFlush_kept {r c x arrays} (h : Kept s₀ s₁) : ∃ t₀, execArrFlush r c x arrays s₁ = .next t₀ ∧ Kept s₀ t₀ := by
  unfold execArrFlush
  refine ⟨_, rfl, ?_⟩
  try dsimp only
  with_reducible repeat' first | exact h | apply State.arrFlush_kept | refine Kept.ite ?_ ?_
theorem State.fallback_kept {c x} (h : Kept s₀ s₁) : Kept s₀ (State.fallback s₁ c x) := by
  unfold State.fallback
  try dsimp only
  with_reducible repeat' first
    | exact h | apply State.abortCtx_kept | apply State.modTil_kept | apply State.countUp_kept
    | apply State.arenaFault_kept | apply State.tilState_kept | apply State.itemStart_kept
    | refine Kept.foldl _ (fun _ _ _ => ?_) _ ?_ | refine Kept.foldlSnd _ (fun _ _ _ => ?_) _ ?_ | assumption
    | refine Kept.ite ?_ ?_
theorem execSplitKFallback_kept {c x} (h : Kept s₀ s₁) : ∃ t₀, execSplitKFallback c x s₁ = .next t₀ ∧ Kept s₀ t₀ := by
  unfold execSplitKFallback
  refine ⟨_, rfl, ?_⟩
  try dsimp only
  with_reducible repeat' first
    | exact h | apply State.tilState_kept | apply State.abortChans_kept | apply State.arrFlush_kept
    | apply State.fallback_kept | refine Kept.ite ?_ ?_
theorem State.rowItem_kept {c x kernel} (h : Kept s₀ s₁) : Kept s₀ (State.rowItem s₁ c x kernel) := by
  unfold State.rowItem
  try dsimp only
  with_reducible repeat' first
    | exact h | apply State.kernelInvalid_kept | apply State.xReads_kept | apply State.xWrites_kept
    | apply State.itemEnd_kept | apply State.addSteps_kept | apply State.outFlags_kept
    | refine State.xReads_kept' ‹_› ?_ | refine State.xWrites_kept' ‹_› ?_ | refine Kept.ite ?_ ?_ | split
theorem execElemwise_kept {c x} (h : Kept s₀ s₁) : ∃ t₀, execElemwise c x s₁ = .next t₀ ∧ Kept s₀ t₀ :=
  ⟨_, rfl, State.opRow_kept h (fun _ _ ht => ht) (fun _ ht => State.rowItem_kept ht)⟩
theorem execLayernorm_kept {c x} (h : Kept s₀ s₁) : ∃ t₀, execLayernorm c x s₁ = .next t₀ ∧ Kept s₀ t₀ :=
  ⟨_, rfl, State.opRow_kept h (fun _ _ ht => ht) (fun _ ht => State.rowItem_kept ht)⟩
theorem execRmsnorm_kept {c x} (h : Kept s₀ s₁) : ∃ t₀, execRmsnorm c x s₁ = .next t₀ ∧ Kept s₀ t₀ :=
  ⟨_, rfl, State.opRow_kept h (fun _ _ ht => ht) (fun _ ht => State.rowItem_kept ht)⟩
theorem execSoftmax_kept {c x} (h : Kept s₀ s₁) : ∃ t₀, execSoftmax c x s₁ = .next t₀ ∧ Kept s₀ t₀ :=
  ⟨_, rfl, State.opRow_kept h (fun _ _ ht => ht) (fun _ ht => State.rowItem_kept ht)⟩
theorem execReduce_kept {c x} (h : Kept s₀ s₁) : ∃ t₀, execReduce c x s₁ = .next t₀ ∧ Kept s₀ t₀ :=
  ⟨_, rfl, State.opRow_kept h (fun _ _ ht => ht) (fun _ ht => State.rowItem_kept ht)⟩
theorem execCast_kept {c x} (h : Kept s₀ s₁) : ∃ t₀, execCast c x s₁ = .next t₀ ∧ Kept s₀ t₀ :=
  ⟨_, rfl, State.opRow_kept h (fun _ _ ht => ht) (fun _ ht => State.rowItem_kept ht)⟩
theorem State.boundsItem_kept {c x} (h : Kept s₀ s₁) : Kept s₀ (State.boundsItem s₁ c x) := by
  unfold State.boundsItem
  try dsimp only
  with_reducible repeat' first
    | exact h | apply State.kernelInvalid_kept | apply State.xReads_kept | apply State.xWrite_kept
    | apply State.itemEnd_kept | apply State.addSteps_kept | apply State.inSpecial_kept
    | refine State.xReads_kept' ‹_› ?_ | refine State.xWrite_kept' ‹_› ?_ | refine Kept.ite ?_ ?_ | split
theorem execBounds_kept {c x} (h : Kept s₀ s₁) : ∃ t₀, execBounds c x s₁ = .next t₀ ∧ Kept s₀ t₀ :=
  ⟨_, rfl, State.opRow_kept h (fun _ _ ht => ht) (fun _ ht => State.boundsItem_kept ht)⟩
theorem State.pixelRun_kept {c x l fmt b y q n} (h : Kept s₀ s₁) : Kept s₀ (State.pixelRun s₁ c x l fmt b y q n).2 := by
  unfold State.pixelRun
  try dsimp only
  with_reducible repeat' first | exact h | apply State.xRead_kept
theorem State.pixelRun_kept' {c x l fmt b y q n} {r₀ u₀} (hq : State.pixelRun s₁ c x l fmt b y q n = (r₀, u₀)) (h : Kept s₀ s₁) : Kept s₀ u₀ := by
  have := @State.pixelRun_kept s₀ s₁ c x l fmt b y q n h
  rw [hq] at this
  exact this
theorem State.poolTaps_kept {c x l b p} (h : Kept s₀ s₁) : Kept s₀ (State.poolTaps s₁ c x l b p).2 := by
  unfold State.poolTaps
  try dsimp only
  with_reducible repeat' first
    | exact h | apply State.pixelRun_kept | refine State.pixelRun_kept' ‹_› ?_
    | refine Kept.foldl _ (fun _ _ _ => ?_) _ ?_ | refine Kept.foldlSnd _ (fun _ _ _ => ?_) _ ?_ | assumption
    | refine Kept.ite ?_ ?_ | split
theorem State.poolTaps_kept' {c x l b p} {r₀ u₀} (hq : State.poolTaps s₁ c x l b p = (r₀, u₀)) (h : Kept s₀ s₁) : Kept s₀ u₀ := by
  have := @State.poolTaps_kept s₀ s₁ c x l b p h
  rw [hq] at this
  exact this
theorem State.chainData_kept {c x l} (h : Kept s₀ s₁) : Kept s₀ (State.chainData s₁ c x l).2 := by
  unfold State.chainData
  try dsimp only
  with_reducible repeat' first
    | exact h | apply State.bbViolation_kept | apply State.readSlots_kept | apply State.abortCtx_kept
    | refine State.readSlots_kept' ‹_› ?_ | refine Kept.ite ?_ ?_ | split
theorem State.chainData_kept' {c x l} {r₀ u₀} (hq : State.chainData s₁ c x l = (r₀, u₀)) (h : Kept s₀ s₁) : Kept s₀ u₀ := by
  have := @State.chainData_kept s₀ s₁ c x l h
  rw [hq] at this
  exact this
theorem State.pixelsOut_kept {c x kernel l b out} (h : Kept s₀ s₁) : Kept s₀ (State.pixelsOut s₁ c x kernel l b out) := by
  unfold State.pixelsOut
  try dsimp only
  with_reducible repeat' first
    | exact h | apply State.chainData_kept | apply State.xWrites_kept | apply State.itemEnd_kept
    | apply State.addSteps_kept | apply State.outFlags_kept | refine State.chainData_kept' ‹_› ?_
    | refine State.xWrites_kept' ‹_› ?_ | refine Kept.ite ?_ ?_
theorem State.poolItem_kept {c x kernel} (h : Kept s₀ s₁) : Kept s₀ (State.poolItem s₁ c x kernel) := by
  unfold State.poolItem
  try dsimp only
  with_reducible repeat' first
    | exact h | apply State.kernelInvalid_kept | apply State.poolTaps_kept | apply State.pixelsOut_kept
    | refine State.poolTaps_kept' ‹_› ?_ | refine Kept.foldl _ (fun _ _ _ => ?_) _ ?_
    | refine Kept.foldlSnd _ (fun _ _ _ => ?_) _ ?_ | assumption | refine Kept.ite ?_ ?_ | split
theorem execPoolMax_kept {c x} (h : Kept s₀ s₁) : ∃ t₀, execPoolMax c x s₁ = .next t₀ ∧ Kept s₀ t₀ :=
  ⟨_, rfl, State.opRow_kept h (fun _ _ ht => ht) (fun _ ht => State.poolItem_kept ht)⟩
theorem execPoolAvg_kept {c x} (h : Kept s₀ s₁) : ∃ t₀, execPoolAvg c x s₁ = .next t₀ ∧ Kept s₀ t₀ :=
  ⟨_, rfl, State.opRow_kept h (fun _ _ ht => ht) (fun _ ht => State.poolItem_kept ht)⟩
theorem State.resizeItem_kept {c x} (h : Kept s₀ s₁) : Kept s₀ (State.resizeItem s₁ c x) := by
  unfold State.resizeItem
  try dsimp only
  with_reducible repeat' first
    | exact h | apply State.kernelInvalid_kept | apply State.pixelRun_kept | apply State.pixelsOut_kept
    | refine State.pixelRun_kept' ‹_› ?_ | refine Kept.foldl _ (fun _ _ _ => ?_) _ ?_
    | refine Kept.foldlSnd _ (fun _ _ _ => ?_) _ ?_ | assumption | refine Kept.ite ?_ ?_ | split
theorem execResize_kept {c x} (h : Kept s₀ s₁) : ∃ t₀, execResize c x s₁ = .next t₀ ∧ Kept s₀ t₀ :=
  ⟨_, rfl, State.opRow_kept h (fun _ _ ht => ht) (fun _ ht => State.resizeItem_kept ht)⟩
theorem execCopy_kept {c x} (h : Kept s₀ s₁) : ∃ t₀, execCopy c x s₁ = .next t₀ ∧ Kept s₀ t₀ :=
  ⟨_, rfl, State.opRow_kept h (fun _ _ ht => by dsimp only [copyKind]; exact State.modTil_kept ht) (fun _ ht => State.itemEnd_kept ht)⟩
theorem execCensus_kept {c x} (h : Kept s₀ s₁) : ∃ t₀, execCensus c x s₁ = .next t₀ ∧ Kept s₀ t₀ :=
  ⟨_, rfl, State.opRow_kept h (fun _ _ ht => by dsimp only [copyKind]; exact State.modTil_kept ht) (fun _ ht => State.itemEnd_kept ht)⟩
theorem State.detTake_kept {d j b} (h : Kept s₀ s₁) : Kept s₀ (State.detTake s₁ d j b).2 := by
  unfold State.detTake
  try dsimp only
  with_reducible repeat' first
    | exact h | refine afterRead_kept ?_ (fun _ _ _ => ?_) (fun _ _ _ => ?_) | assumption | apply State.memRead_kept
    | apply State.abortCtx_kept | apply State.setTags_kept | refine State.memRead_kept' ‹_› ?_
    | refine Kept.foldl _ (fun _ _ _ => ?_) _ ?_ | refine Kept.foldlSnd _ (fun _ _ _ => ?_) _ ?_ | assumption
    | refine Kept.ite ?_ ?_ | split
theorem State.detTake_kept' {d j b} {r₀ u₀} (hq : State.detTake s₁ d j b = (r₀, u₀)) (h : Kept s₀ s₁) : Kept s₀ u₀ := by
  have := @State.detTake_kept s₀ s₁ d j b h
  rw [hq] at this
  exact this
theorem State.dppRead_kept {d} (h : Kept s₀ s₁) : Kept s₀ (State.dppRead s₁ d) := by
  unfold State.dppRead
  try dsimp only
  with_reducible repeat' first
    | exact h | apply State.detTake_kept | apply State.setDpp_kept | refine State.detTake_kept' ‹_› ?_
    | refine Kept.foldl _ (fun _ _ _ => ?_) _ ?_ | refine Kept.foldlSnd _ (fun _ _ _ => ?_) _ ?_ | assumption
    | refine Kept.ite ?_ ?_ | split
theorem State.dppRoom_kept {d} (h : Kept s₀ s₁) : Kept s₀ (State.dppRoom s₁ d) := by
  unfold State.dppRoom
  try dsimp only
  with_reducible repeat' first
    | exact h | apply State.setCtxState_kept | refine Kept.foldl _ (fun _ _ _ => ?_) _ ?_
    | refine Kept.foldlSnd _ (fun _ _ _ => ?_) _ ?_ | assumption | refine Kept.ite ?_ ?_
theorem execDppJobStart_kept {d} (h : Kept s₀ s₁) : ∃ t₀, execDppJobStart d s₁ = .next t₀ ∧ Kept s₀ t₀ := by
  unfold execDppJobStart
  refine ⟨_, rfl, ?_⟩
  try dsimp only
  with_reducible repeat' first
    | exact h | apply State.dppRead_kept | apply State.dppRoom_kept | apply State.setDpp_kept | refine Kept.ite ?_ ?_
    | split
theorem State.dppEnd_kept {d r} (h : Kept s₀ s₁) : Kept s₀ (State.dppEnd s₁ d r) := by
  unfold State.dppEnd
  try dsimp only
  with_reducible repeat' first
    | exact h | apply State.setDpp_kept | apply State.countUp_kept | apply State.wr_kept | apply State.orReg_kept
    | apply State.memWrite_kept | apply State.setTags_kept | refine State.memWrite_kept' ‹_› ?_
    | refine Kept.ite ?_ ?_
theorem State.dppSignal_kept {d r} (h : Kept s₀ s₁) : Kept s₀ (State.dppSignal s₁ d r) := by
  unfold State.dppSignal
  try dsimp only
  with_reducible repeat' first | exact h | apply State.setDpp_kept | apply State.modTil_kept
theorem execDppJobEnd_kept {d} (h : Kept s₀ s₁) : ∃ t₀, execDppJobEnd d s₁ = .next t₀ ∧ Kept s₀ t₀ := by
  unfold execDppJobEnd
  refine ⟨_, rfl, ?_⟩
  try dsimp only
  with_reducible repeat' first
    | exact h | apply State.dppRead_kept | apply State.dppEnd_kept | apply State.dppSignal_kept
    | refine Kept.ite ?_ ?_ | split
theorem execDppTBound_kept {d} (h : Kept s₀ s₁) : ∃ t₀, execDppTBound d s₁ = .next t₀ ∧ Kept s₀ t₀ := by
  unfold execDppTBound
  refine ⟨_, rfl, ?_⟩
  try dsimp only
  with_reducible repeat' first
    | exact h | apply State.dppRead_kept | apply State.dppEnd_kept | apply State.dppSignal_kept
    | refine Kept.ite ?_ ?_ | split
theorem State.dppQueue_kept {d j} (h : Kept s₀ s₁) : Kept s₀ (State.dppQueue s₁ d j) := by
  unfold State.dppQueue
  try dsimp only
  with_reducible repeat' first | exact h | apply State.ndTiming_kept | apply State.setDpp_kept | refine Kept.ite ?_ ?_
theorem State.detectHand_kept {c x} (h : Kept s₀ s₁) : Kept s₀ (State.detectHand s₁ c x) := by
  unfold State.detectHand
  try dsimp only
  with_reducible repeat' first
    | exact h | apply State.slotConflict_kept | apply State.block_kept | apply State.modTil_kept
    | apply State.popWork_kept | apply State.dppQueue_kept | refine Kept.ite ?_ ?_ | split
theorem State.detectGo_kept {c x} (h : Kept s₀ s₁) : Kept s₀ (State.detectGo s₁ c x) := by
  unfold State.detectGo
  try dsimp only
  with_reducible repeat' first
    | exact h | apply State.modTil_kept | apply State.setItem_kept | refine Kept.ite ?_ ?_ | split
theorem execDetect_kept {c x} (h : Kept s₀ s₁) : ∃ t₀, execDetect c x s₁ = .next t₀ ∧ Kept s₀ t₀ := by
  unfold execDetect
  refine ⟨_, rfl, ?_⟩
  extract_lets t
  have ht : Kept s₀ t := State.opRow_kept h (fun _ _ ht => ht) (fun _ ht => State.detectGo_kept ht)
  clear_value t
  exact Kept.ite (State.detectHand_kept ht) ht
theorem State.putSeq_kept {p q l} (h : Kept s₀ s₁) : Kept s₀ (State.putSeq s₁ p q l) := by
  unfold State.putSeq
  try dsimp only
  with_reducible repeat' first
    | exact h | apply State.wr_kept | refine Kept.foldl _ (fun _ _ _ => ?_) _ ?_
    | refine Kept.foldlSnd _ (fun _ _ _ => ?_) _ ?_ | assumption
theorem State.seqReject_kept {p q ring idx} (h : Kept s₀ s₁) : Kept s₀ (State.seqReject s₁ p q ring idx) := by
  unfold State.seqReject
  try dsimp only
  with_reducible repeat' first | exact h | apply State.complete_kept | apply State.raise_kept
theorem State.seqSet_kept {ring idx k} (h : Kept s₀ s₁) : Kept s₀ (State.seqSet s₁ ring idx k) := by
  unfold State.seqSet
  try dsimp only
  with_reducible repeat' first
    | exact h | apply State.complete_kept | apply State.seqReject_kept | apply State.hold_kept | refine Kept.ite ?_ ?_
theorem execSeqSet_kept {ring idx} (h : Kept s₀ s₁) : ∃ t₀, execSeqSet ring idx s₁ = .next t₀ ∧ Kept s₀ t₀ := by
  unfold execSeqSet
  refine ⟨_, rfl, ?_⟩
  try dsimp only
  with_reducible repeat' first
    | exact h | refine State.mbox_kept ?_ (fun _ _ _ => ?_) | assumption | apply State.seqSet_kept
theorem State.applyOne_kept {a1} (h : Kept s₀ s₁) : Kept s₀ (State.applyOne s₁ a1) := by
  unfold State.applyOne
  try dsimp only
  with_reducible repeat' first
    | exact h | apply State.complete_kept | apply State.wr64_kept | apply State.putSeq_kept
    | apply State.seqReject_kept | refine Kept.ite ?_ ?_ | split | refine Kept.upd ?_ ⟨rfl, rfl⟩
theorem State.applyHeld_kept {p n} (h : Kept s₀ s₁) : Kept s₀ (State.applyHeld s₁ p n) := by
  unfold State.applyHeld
  try dsimp only
  with_reducible repeat' first
    | exact h | apply State.applyOne_kept | refine Kept.foldl _ (fun _ _ _ => ?_) _ ?_
    | refine Kept.foldlSnd _ (fun _ _ _ => ?_) _ ?_ | assumption | refine Kept.ite ?_ ?_ | split
    | refine Kept.upd ?_ ⟨rfl, rfl⟩
theorem State.applyDue_kept {p} (h : Kept s₀ s₁) : Kept s₀ (State.applyDue s₁ p) := by
  unfold State.applyDue
  try dsimp only
  with_reducible repeat' first
    | exact h | apply State.applyOne_kept | refine Kept.foldl _ (fun _ _ _ => ?_) _ ?_
    | refine Kept.foldlSnd _ (fun _ _ _ => ?_) _ ?_ | assumption
theorem State.seqFull_kept {p q} (h : Kept s₀ s₁) : Kept s₀ (State.seqFull s₁ p q) := by
  unfold State.seqFull
  try dsimp only
  with_reducible repeat' first | exact h | apply State.wr_kept | apply State.raise_kept | apply State.countUp_kept
theorem State.built_kept {p b} (h : Kept s₀ s₁) : Kept s₀ (State.built s₁ p b) := by
  unfold State.built
  try dsimp only
  with_reducible repeat' first
    | exact h | apply State.setStep_kept | apply State.setSeqState_kept | apply State.setFld_kept
theorem BuildAcc.fold_kept (f : BuildAcc → Nat → BuildAcc) (hf : ∀ b n, Kept s₀ b.s → Kept s₀ (f b n).s) (l : List Nat) {b : BuildAcc}
    (h : Kept s₀ b.s) : Kept s₀ (l.foldl f b).s := by
  induction l generalizing b with
  | nil => exact h
  | cons a r ih => exact ih (hf _ _ h)
theorem decodeRun_kept {p b q} (h : Kept s₀ b.s) : Kept s₀ (decodeRun p b q).s := by
  unfold decodeRun
  dsimp only
  split
  · exact h
  · split
    · exact State.seqFull_kept h
    · split
      · exact State.setFld_kept h
      · exact h
theorem promptRun_kept {p b q} (h : Kept s₀ b.s) : Kept s₀ (promptRun p b q).s := by
  unfold promptRun
  dsimp only
  split
  · exact h
  · split
    · exact h
    · exact State.setFld_kept h
theorem decodeLoop_kept {p b} (h : Kept s₀ b.s) : Kept s₀ (decodeLoop p b).s := by
  unfold decodeLoop
  exact BuildAcc.fold_kept _ (fun _ _ hb => decodeRun_kept hb) _ h
theorem promptLoop_kept {p b} (h : Kept s₀ b.s) : Kept s₀ (promptLoop p b).s := by
  unfold promptLoop
  exact BuildAcc.fold_kept _ (fun _ _ hb => promptRun_kept hb) _ h
theorem BuildAcc.stop_kept {b : BuildAcc} {x} (h : Kept s₀ b.s) : Kept s₀ ({ b with stop := x } : BuildAcc).s := h
theorem State.buildRuns_kept {p} (h : Kept s₀ s₁) : Kept s₀ (State.buildRuns s₁ p).s := by
  unfold State.buildRuns
  exact promptLoop_kept (BuildAcc.stop_kept (decodeLoop_kept (b := { s := s₁, rows := 0, runs := [], stop := false }) h))
theorem BuildAcc.write_kept {b : BuildAcc} {p n} (h : Kept s₀ b.s) : Kept s₀ (b.write p n).2 := State.memWrite_kept h
theorem State.build_kept {p} (h : Kept s₀ s₁) : Kept s₀ (State.build s₁ p).2 := by
  unfold State.build
  exact Kept.snd_mk (Kept.ite (BuildAcc.write_kept (State.buildRuns_kept (State.applyHeld_kept (State.wr64_kept h))))
    (State.built_kept (BuildAcc.write_kept (State.buildRuns_kept (State.applyHeld_kept (State.wr64_kept h))))))
theorem State.build_kept' {p} {r₀ u₀} (hq : State.build s₁ p = (r₀, u₀)) (h : Kept s₀ s₁) : Kept s₀ u₀ := by
  have := @State.build_kept s₀ s₁ p h
  rw [hq] at this
  exact this
theorem execStepBuild_kept {p} (h : Kept s₀ s₁) : ∃ t₀, execStepBuild p s₁ = .next t₀ ∧ Kept s₀ t₀ := by
  unfold execStepBuild
  refine ⟨_, rfl, ?_⟩
  try dsimp only
  with_reducible repeat' first
    | exact h | apply State.build_kept | apply State.complete_kept | refine State.build_kept' ‹_› ?_
    | refine Kept.ite ?_ ?_ | split | refine Kept.upd ?_ ⟨rfl, rfl⟩
theorem State.acceptedOf_kept {p runs} (h : Kept s₀ s₁) : Kept s₀ (State.acceptedOf s₁ p runs).2 := by
  unfold State.acceptedOf
  try dsimp only
  with_reducible repeat' first
    | exact h | apply State.memRead_kept | refine State.memRead_kept' ‹_› ?_
    | refine Kept.foldl _ (fun _ _ _ => ?_) _ ?_ | refine Kept.foldlSnd _ (fun _ _ _ => ?_) _ ?_ | assumption
    | refine Kept.ite ?_ ?_ | split
theorem State.acceptedOf_kept' {p runs} {r₀ u₀} (hq : State.acceptedOf s₁ p runs = (r₀, u₀)) (h : Kept s₀ s₁) : Kept s₀ u₀ := by
  have := @State.acceptedOf_kept s₀ s₁ p runs h
  rw [hq] at this
  exact this
theorem State.commitRun_kept {p r a} (h : Kept s₀ s₁) : Kept s₀ (State.commitRun s₁ p r a) := by
  unfold State.commitRun
  try dsimp only
  with_reducible repeat' first | exact h | apply State.wr_kept | apply State.setFld_kept | refine Kept.ite ?_ ?_
theorem State.commit_kept {p} (h : Kept s₀ s₁) : Kept s₀ (State.commit s₁ p) := by
  unfold State.commit
  try dsimp only
  with_reducible repeat' first
    | exact h | apply State.acceptedOf_kept | apply State.commitRun_kept | refine State.acceptedOf_kept' ‹_› ?_
    | refine Kept.foldl _ (fun _ _ _ => ?_) _ ?_ | refine Kept.foldlSnd _ (fun _ _ _ => ?_) _ ?_ | assumption
    | refine Kept.ite ?_ ?_ | split
theorem execStepCommit_kept {p} (h : Kept s₀ s₁) : ∃ t₀, execStepCommit p s₁ = .next t₀ ∧ Kept s₀ t₀ := by
  unfold execStepCommit
  refine ⟨_, rfl, ?_⟩
  try dsimp only
  with_reducible repeat' first
    | exact h | apply State.commit_kept | apply State.applyDue_kept | apply State.setSeqState_kept
    | apply State.setStep_kept | refine Kept.ite ?_ ?_ | split
theorem State.attLevel_kept {c x l} (h : Kept s₀ s₁) : Kept s₀ (State.attLevel s₁ c x l).2 := by
  unfold State.attLevel
  try dsimp only
  with_reducible repeat' first
    | exact h | apply State.ctxRead_kept | refine State.ctxRead_kept' ‹_› ?_
    | refine Kept.foldl _ (fun _ _ _ => ?_) _ ?_ | refine Kept.foldlSnd _ (fun _ _ _ => ?_) _ ?_ | assumption
    | refine Kept.ite ?_ ?_ | split
theorem State.attLevel_kept' {c x l} {r₀ u₀} (hq : State.attLevel s₁ c x l = (r₀, u₀)) (h : Kept s₀ s₁) : Kept s₀ u₀ := by
  have := @State.attLevel_kept s₀ s₁ c x l h
  rw [hq] at this
  exact this
theorem State.attRuns_kept {c x} (h : Kept s₀ s₁) : Kept s₀ (State.attRuns s₁ c x).2 := by
  unfold State.attRuns
  try dsimp only
  with_reducible repeat' first
    | exact h | apply State.attRead_kept | apply State.attReads_kept | refine State.attRead_kept' ‹_› ?_
    | refine State.attReads_kept' ‹_› ?_ | refine Kept.ite ?_ ?_ | split
theorem State.attRuns_kept' {c x} {r₀ u₀} (hq : State.attRuns s₁ c x = (r₀, u₀)) (h : Kept s₀ s₁) : Kept s₀ u₀ := by
  have := @State.attRuns_kept s₀ s₁ c x h
  rw [hq] at this
  exact this
theorem State.appendItem_kept {c x r k a5} (h : Kept s₀ s₁) : Kept s₀ (State.appendItem s₁ c x r k a5) := by
  unfold State.appendItem
  try dsimp only
  with_reducible repeat' first
    | exact h | apply State.attReads_kept | apply State.attWrites_kept | apply State.attReach_kept
    | apply State.memAtomic_kept | apply State.attMemFail_kept | apply State.itemEnd_kept | apply State.attState_kept
    | apply State.wakeAll_kept | refine State.attReads_kept' ‹_› ?_ | refine State.attWrites_kept' ‹_› ?_
    | refine State.attReach_kept' ‹_› ?_ | refine State.memAtomic_kept' ‹_› ?_ | refine Kept.ite ?_ ?_ | split
theorem State.kvPage_kept {c x r a4 p n} (h : Kept s₀ s₁) : Kept s₀ (State.kvPage s₁ c x r a4 p n).2 := by
  unfold State.kvPage
  try dsimp only
  with_reducible repeat' first
    | exact h | apply State.attReads_kept | refine State.attReads_kept' ‹_› ?_ | refine Kept.ite ?_ ?_ | split
theorem State.kvPage_kept' {c x r a4 p n} {r₀ u₀} (hq : State.kvPage s₁ c x r a4 p n = (r₀, u₀)) (h : Kept s₀ s₁) : Kept s₀ u₀ := by
  have := @State.kvPage_kept s₀ s₁ c x r a4 p n h
  rw [hq] at this
  exact this
theorem State.kvBlock_kept {c x r a4 b} (h : Kept s₀ s₁) : Kept s₀ (State.kvBlock s₁ c x r a4 b).2 := by
  unfold State.kvBlock
  try dsimp only
  with_reducible repeat' first
    | exact h | apply State.kvPage_kept | refine State.kvPage_kept' ‹_› ?_
    | refine Kept.foldl _ (fun _ _ _ => ?_) _ ?_ | refine Kept.foldlSnd _ (fun _ _ _ => ?_) _ ?_ | assumption
    | refine Kept.ite ?_ ?_ | split
theorem State.kvBlock_kept' {c x r a4 b} {r₀ u₀} (hq : State.kvBlock s₁ c x r a4 b = (r₀, u₀)) (h : Kept s₀ s₁) : Kept s₀ u₀ := by
  have := @State.kvBlock_kept s₀ s₁ c x r a4 b h
  rw [hq] at this
  exact this
theorem State.attLoad_kept {c x n} (h : Kept s₀ s₁) : Kept s₀ (State.attLoad s₁ c x n).2 := by
  unfold State.attLoad
  try dsimp only
  with_reducible repeat' first
    | exact h | apply State.bbViolation_kept | refine afterRead_kept ?_ (fun _ _ _ => ?_) (fun _ _ _ => ?_)
    | assumption | apply State.memRead_kept | apply State.attMemFail_kept | refine State.memRead_kept' ‹_› ?_
    | refine Kept.ite ?_ ?_ | split
theorem State.attLoad_kept' {c x n} {r₀ u₀} (hq : State.attLoad s₁ c x n = (r₀, u₀)) (h : Kept s₀ s₁) : Kept s₀ u₀ := by
  have := @State.attLoad_kept s₀ s₁ c x n h
  rw [hq] at this
  exact this
theorem State.attStore_kept {c x rows} (h : Kept s₀ s₁) : Kept s₀ (State.attStore s₁ c x rows).2 := by
  unfold State.attStore
  try dsimp only
  with_reducible repeat' first
    | exact h | apply State.bbViolation_kept | refine afterWrite_kept ?_ (fun _ _ _ => ?_) (fun _ _ => ?_)
    | assumption | apply State.memWrite_kept | apply State.attMemFail_kept | refine State.memWrite_kept' ‹_› ?_
    | refine Kept.ite ?_ ?_ | split
theorem State.attStore_kept' {c x rows} {r₀ u₀} (hq : State.attStore s₁ c x rows = (r₀, u₀)) (h : Kept s₀ s₁) : Kept s₀ u₀ := by
  have := @State.attStore_kept s₀ s₁ c x rows h
  rw [hq] at this
  exact this
theorem State.attBlock_kept {c x last rows b g} (h : Kept s₀ s₁) : Kept s₀ (State.attBlock s₁ c x last rows b g) := by
  unfold State.attBlock
  try dsimp only
  with_reducible repeat' first
    | exact h | apply State.attStore_kept | apply State.countUp_kept | apply State.count64_kept
    | apply State.inSpecial_kept | apply State.outFlags_kept | apply State.modTil_kept
    | refine State.attStore_kept' ‹_› ?_ | refine Kept.ite ?_ ?_
theorem State.attQRow_kept {c x row a4} (h : Kept s₀ s₁) : Kept s₀ (State.attQRow s₁ c x row a4).2 := by
  unfold State.attQRow
  try dsimp only
  with_reducible repeat' first | exact h | apply State.attReads_kept
theorem State.attQRow_kept' {c x row a4} {r₀ u₀} (hq : State.attQRow s₁ c x row a4 = (r₀, u₀)) (h : Kept s₀ s₁) : Kept s₀ u₀ := by
  have := @State.attQRow_kept s₀ s₁ c x row a4 h
  rw [hq] at this
  exact this
theorem State.attStage_kept {c x r pairs} (h : Kept s₀ s₁) : Kept s₀ (State.attStage s₁ c x r pairs).2 := by
  unfold State.attStage
  try dsimp only
  with_reducible repeat' first
    | exact h | apply State.attQRow_kept | apply State.attStore_kept | apply State.modTil_kept
    | refine State.attQRow_kept' ‹_› ?_ | refine State.attStore_kept' ‹_› ?_
    | refine Kept.foldl _ (fun _ _ _ => ?_) _ ?_ | refine Kept.foldlSnd _ (fun _ _ _ => ?_) _ ?_ | assumption
    | refine Kept.ite ?_ ?_ | split
theorem State.attStage_kept' {c x r pairs} {r₀ u₀} (hq : State.attStage s₁ c x r pairs = (r₀, u₀)) (h : Kept s₀ s₁) : Kept s₀ u₀ := by
  have := @State.attStage_kept s₀ s₁ c x r pairs h
  rw [hq] at this
  exact this
theorem State.attShow_kept {c x} (h : Kept s₀ s₁) : Kept s₀ (State.attShow s₁ c x) := by
  unfold State.attShow
  try dsimp only
  with_reducible repeat' first | exact h | apply State.wr_kept
theorem State.attFinish_kept {c x r pairs rows} (h : Kept s₀ s₁) : Kept s₀ (State.attFinish s₁ c x r pairs rows) := by
  unfold State.attFinish
  try dsimp only
  with_reducible repeat' first
    | exact h | apply State.attWrites_kept | apply State.modTil_kept | apply State.outFlags_kept
    | apply State.attShow_kept | apply State.itemEnd_kept | apply State.attState_kept | apply State.addSteps_kept
    | refine State.attWrites_kept' ‹_› ?_ | refine Kept.ite ?_ ?_
theorem State.attendItem_kept {c x r a4 g} (h : Kept s₀ s₁) : Kept s₀ (State.attendItem s₁ c x r a4 g) := by
  unfold State.attendItem
  try dsimp only
  with_reducible repeat' first
    | exact h | apply State.attStage_kept | apply State.attLoad_kept | apply State.attShow_kept
    | apply State.kvBlock_kept | apply State.attBlock_kept | apply State.attFinish_kept
    | refine State.attStage_kept' ‹_› ?_ | refine State.attLoad_kept' ‹_› ?_ | refine State.kvBlock_kept' ‹_› ?_
    | refine Kept.foldl _ (fun _ _ _ => ?_) _ ?_ | refine Kept.foldlSnd _ (fun _ _ _ => ?_) _ ?_ | assumption
    | refine Kept.ite ?_ ?_ | split
theorem State.attStart_kept {c x} (h : Kept s₀ s₁) : Kept s₀ (State.attStart s₁ c x) := by
  unfold State.attStart
  try dsimp only
  with_reducible repeat' first
    | exact h | apply State.readOp_kept | apply State.tilState_kept | apply State.modTil_kept
    | apply State.descRefused_kept | apply State.arenaFault_kept | apply State.kernelInvalid_kept
    | apply State.attLevel_kept | apply State.opStart_kept | refine State.readOp_kept' ‹_› ?_
    | refine State.attLevel_kept' ‹_› ?_ | refine Kept.ite ?_ ?_ | split
theorem State.attOpen_kept {c x} (h : Kept s₀ s₁) : Kept s₀ (State.attOpen s₁ c x) := by
  unfold State.attOpen
  try dsimp only
  with_reducible repeat' first
    | exact h | apply State.attRuns_kept | apply State.modTil_kept | refine State.attRuns_kept' ‹_› ?_
    | refine Kept.ite ?_ ?_ | split
theorem State.attNext_kept {c x} (h : Kept s₀ s₁) : Kept s₀ (State.attNext s₁ c x) := by
  unfold State.attNext
  try dsimp only
  with_reducible repeat' first
    | exact h | apply State.attRuns_kept | apply State.nextItem_kept | apply State.modTil_kept | apply State.wr_kept
    | apply State.attState_kept | apply State.attShow_kept | apply State.tilState_kept | apply State.setItem_kept
    | refine State.attRuns_kept' ‹_› ?_ | refine State.nextItem_kept' ‹_› ?_ | refine Kept.ite ?_ ?_ | split
theorem execAttnStep_kept {c x} (h : Kept s₀ s₁) : ∃ t₀, execAttnStep c x s₁ = .next t₀ ∧ Kept s₀ t₀ := by
  unfold execAttnStep
  refine ⟨_, rfl, ?_⟩
  try dsimp only
  with_reducible repeat' first
    | exact h | apply State.tilerTake_kept | apply State.attStart_kept | apply State.attOpen_kept
    | apply State.attNext_kept | apply State.tilState_kept | apply State.opDoneShare_kept | refine Kept.ite ?_ ?_
    | split
theorem State.attHeld_kept {c x} (h : Kept s₀ s₁) : Kept s₀ (State.attHeld s₁ c x).2 := by
  unfold State.attHeld
  try dsimp only
  with_reducible repeat' first
    | exact h | apply State.attRuns_kept | refine State.attRuns_kept' ‹_› ?_ | refine Kept.ite ?_ ?_ | split
theorem State.attHeld_kept' {c x} {r₀ u₀} (hq : State.attHeld s₁ c x = (r₀, u₀)) (h : Kept s₀ s₁) : Kept s₀ u₀ := by
  have := @State.attHeld_kept s₀ s₁ c x h
  rw [hq] at this
  exact this
theorem execAppendItem_kept {c x} (h : Kept s₀ s₁) : ∃ t₀, execAppendItem c x s₁ = .next t₀ ∧ Kept s₀ t₀ := by
  unfold execAppendItem
  refine ⟨_, rfl, ?_⟩
  try dsimp only
  with_reducible repeat' first
    | exact h | apply State.attHeld_kept | apply State.appendItem_kept | apply State.attShow_kept
    | apply State.attState_kept | refine State.attHeld_kept' ‹_› ?_ | refine Kept.ite ?_ ?_ | split
theorem State.attWait_kept {c x va need} (h : Kept s₀ s₁) : Kept s₀ (State.attWait s₁ c x va need) := by
  unfold State.attWait
  try dsimp only
  with_reducible repeat' first
    | exact h | apply State.attReach_kept | apply State.attState_kept | apply State.tilState_kept
    | apply State.modTil_kept | apply State.watchNow_kept | apply State.beginWait_kept
    | refine State.attReach_kept' ‹_› ?_ | refine Kept.ite ?_ ?_ | split
theorem execAttendItem_kept {c x} (h : Kept s₀ s₁) : ∃ t₀, execAttendItem c x s₁ = .next t₀ ∧ Kept s₀ t₀ := by
  unfold execAttendItem
  refine ⟨_, rfl, ?_⟩
  try dsimp only
  with_reducible repeat' first
    | exact h | apply State.attWait_kept | apply State.attHeld_kept | apply State.attendItem_kept
    | apply State.attState_kept | refine State.attHeld_kept' ‹_› ?_ | refine Kept.ite ?_ ?_ | split
theorem State.attResume_kept {c} (h : Kept s₀ s₁) : Kept s₀ (State.attResume s₁ c) := by
  unfold State.attResume
  try dsimp only
  with_reducible repeat' first
    | exact h | apply State.attState_kept | apply State.setAtt_kept | apply State.setCtxState_kept
    | refine Kept.ite ?_ ?_ | split
theorem execAttResume_kept {r c} (h : Kept s₀ s₁) : ∃ t₀, execAttResume r c s₁ = .next t₀ ∧ Kept s₀ t₀ := by
  unfold execAttResume
  refine ⟨_, rfl, ?_⟩
  try dsimp only
  with_reducible repeat' first
    | exact h | apply State.attResume_kept | apply State.resumeLater_kept | refine Kept.ite ?_ ?_
theorem execAttOverrun_kept {c} (h : Kept s₀ s₁) : ∃ t₀, execAttOverrun c s₁ = .next t₀ ∧ Kept s₀ t₀ := by
  unfold execAttOverrun
  refine ⟨_, rfl, ?_⟩
  try dsimp only
  with_reducible repeat' first
    | exact h | apply State.attState_kept | apply State.tilState_kept | apply State.opDoneShare_kept
    | apply State.orReg_kept | apply State.setFld_kept | apply State.abortCtx_kept | apply State.raiseCl_kept
    | refine Kept.ite ?_ ?_
theorem State.acceptOne_kept {c x step r k} (h : Kept s₀ s₁) : Kept s₀ (State.acceptOne s₁ c x step r k).2 := by
  unfold State.acceptOne
  try dsimp only
  with_reducible repeat' first
    | exact h | apply State.xReads_kept | apply State.xWrites_kept | refine State.xReads_kept' ‹_› ?_
    | refine State.xWrites_kept' ‹_› ?_ | refine Kept.ite ?_ ?_ | split
theorem State.acceptOne_kept' {c x step r k} {r₀ u₀} (hq : State.acceptOne s₁ c x step r k = (r₀, u₀)) (h : Kept s₀ s₁) : Kept s₀ u₀ := by
  have := @State.acceptOne_kept s₀ s₁ c x step r k h
  rw [hq] at this
  exact this
theorem State.acceptItem_kept {c x} (h : Kept s₀ s₁) : Kept s₀ (State.acceptItem s₁ c x) := by
  unfold State.acceptItem
  try dsimp only
  with_reducible repeat' first
    | exact h | apply State.kernelInvalid_kept | apply State.xRead_kept | apply State.xReads_kept
    | apply State.acceptOne_kept | apply State.itemEnd_kept | apply State.addSteps_kept
    | refine State.xRead_kept' ‹_› ?_ | refine State.xReads_kept' ‹_› ?_ | refine State.acceptOne_kept' ‹_› ?_
    | refine Kept.foldl _ (fun _ _ _ => ?_) _ ?_ | refine Kept.foldlSnd _ (fun _ _ _ => ?_) _ ?_ | assumption
    | refine Kept.ite ?_ ?_ | split
theorem execAccept_kept {c x} (h : Kept s₀ s₁) : ∃ t₀, execAccept c x s₁ = .next t₀ ∧ Kept s₀ t₀ :=
  ⟨_, rfl, State.opRow_kept h (fun _ _ ht => ht) (fun _ ht => State.acceptItem_kept ht)⟩
theorem State.setPipe_kept {i v} (h : Kept s₀ s₁) : Kept s₀ (State.setPipe s₁ i v) := by
  unfold State.setPipe
  try dsimp only
  with_reducible repeat' first | exact h | refine Kept.ite ?_ ?_ | split | refine Kept.upd ?_ ⟨rfl, rfl⟩
theorem State.setParser_kept {e v} (h : Kept s₀ s₁) : Kept s₀ (State.setParser s₁ e v) := by
  unfold State.setParser
  try dsimp only
  with_reducible repeat' first | exact h | refine Kept.ite ?_ ?_ | split | refine Kept.upd ?_ ⟨rfl, rfl⟩
theorem State.setStrain_kept {n v} (h : Kept s₀ s₁) : Kept s₀ (State.setStrain s₁ n v) := by
  unfold State.setStrain
  try dsimp only
  with_reducible repeat' first | exact h | refine Kept.ite ?_ ?_ | split | refine Kept.upd ?_ ⟨rfl, rfl⟩
theorem State.showRing_kept {reg r writing} (h : Kept s₀ s₁) : Kept s₀ (State.showRing s₁ reg r writing) := by
  unfold State.showRing
  try dsimp only
  with_reducible repeat' first | exact h | apply State.setFld_kept
theorem State.raisePipe_kept {src i} (h : Kept s₀ s₁) : Kept s₀ (State.raisePipe s₁ src i) := by
  unfold State.raisePipe
  try dsimp only
  with_reducible repeat' first | exact h | apply State.raise_kept
theorem State.modFrame_kept {i f} (h : Kept s₀ s₁) : Kept s₀ (State.modFrame s₁ i f) := by
  unfold State.modFrame
  try dsimp only
  with_reducible repeat' first | exact h | apply State.setPipe_kept
theorem State.pipeState_kept {i v} (h : Kept s₀ s₁) : Kept s₀ (State.pipeState s₁ i v) := by
  unfold State.pipeState
  try dsimp only
  with_reducible repeat' first | exact h | apply State.setFld_kept
theorem State.frameDrop_kept {i} (h : Kept s₀ s₁) : Kept s₀ (State.frameDrop s₁ i) := by
  unfold State.frameDrop
  try dsimp only
  with_reducible repeat' first
    | exact h | apply State.raisePipe_kept | apply State.pipeState_kept | apply State.countUp_kept
    | apply State.showRing_kept | apply State.setPipe_kept
theorem State.frameOpen_kept {i} (h : Kept s₀ s₁) : Kept s₀ (State.frameOpen s₁ i) := by
  unfold State.frameOpen
  try dsimp only
  with_reducible repeat' first
    | exact h | apply State.raisePipe_kept | apply State.countUp_kept | apply State.orReg_kept
    | apply State.setPipe_kept | apply State.pipeState_kept | apply State.showRing_kept | apply State.wr64_kept
    | refine Kept.ite ?_ ?_ | split
theorem State.frameStart_kept {i vc} (h : Kept s₀ s₁) : Kept s₀ (State.frameStart s₁ i vc) := by
  unfold State.frameStart
  try dsimp only
  with_reducible repeat' first
    | exact h | apply State.countUp_kept | apply State.frameOpen_kept | apply State.frameDrop_kept
    | refine Kept.ite ?_ ?_
theorem execFrameStart_kept {i vc} (h : Kept s₀ s₁) : ∃ t₀, execFrameStart i vc s₁ = .next t₀ ∧ Kept s₀ t₀ := by
  unfold execFrameStart
  refine ⟨_, rfl, ?_⟩
  try dsimp only
  with_reducible repeat' first | exact h | apply State.frameStart_kept | refine Kept.ite ?_ ?_
theorem State.stagePut_kept {p src a reply} (h : Kept s₀ s₁) : Kept s₀ (State.stagePut s₁ p src a reply).2 := by
  unfold State.stagePut
  try dsimp only
  with_reducible repeat' first | exact h | apply State.setStage_kept | refine Kept.ite ?_ ?_ | split
theorem State.stagePut_kept' {p src a reply} {r₀ u₀} (hq : State.stagePut s₁ p src a reply = (r₀, u₀)) (h : Kept s₀ s₁) : Kept s₀ u₀ := by
  have := @State.stagePut_kept s₀ s₁ p src a reply h
  rw [hq] at this
  exact this
theorem State.frameOverrun_kept {i} (h : Kept s₀ s₁) : Kept s₀ (State.frameOverrun s₁ i) := by
  unfold State.frameOverrun
  try dsimp only
  with_reducible repeat' first
    | exact h | apply State.pipeState_kept | apply State.frameDrop_kept | apply State.raisePipe_kept
    | apply State.orReg_kept
theorem State.packStrip_kept {i n} (h : Kept s₀ s₁) : Kept s₀ (State.packStrip s₁ i n) := by
  unfold State.packStrip
  try dsimp only
  with_reducible repeat' first
    | exact h | apply State.stagePut_kept | apply State.setPipe_kept | apply State.frameOverrun_kept
    | refine State.stagePut_kept' ‹_› ?_ | refine Kept.foldl _ (fun _ _ _ => ?_) _ ?_
    | refine Kept.foldlSnd _ (fun _ _ _ => ?_) _ ?_ | assumption | refine Kept.ite ?_ ?_ | split
theorem State.packReady_kept {i a2} (h : Kept s₀ s₁) : Kept s₀ (State.packReady s₁ i a2) := by
  induction a2 generalizing s₁ with
  | zero => exact h
  | succ n ih =>
  unfold State.packReady
  try dsimp only
  with_reducible repeat' first | exact h | apply ih | apply State.packStrip_kept | refine Kept.ite ?_ ?_ | split
theorem State.csiData_kept {i pkt} (h : Kept s₀ s₁) : Kept s₀ (State.csiData s₁ i pkt) := by
  unfold State.csiData
  try dsimp only
  with_reducible repeat' first
    | exact h | apply State.modFrame_kept | apply State.packReady_kept | refine Kept.ite ?_ ?_
theorem State.csiPacket_kept {i pkt} (h : Kept s₀ s₁) : Kept s₀ (State.csiPacket s₁ i pkt) := by
  unfold State.csiPacket
  try dsimp only
  with_reducible repeat' first
    | exact h | apply State.modFrame_kept | apply State.raisePipe_kept | apply State.orReg_kept
    | apply State.countUp_kept | apply State.frameStart_kept | apply State.csiData_kept | refine Kept.ite ?_ ?_
theorem execCsiPacket_kept {i pkt} (h : Kept s₀ s₁) : ∃ t₀, execCsiPacket i pkt s₁ = .next t₀ ∧ Kept s₀ t₀ := by
  unfold execCsiPacket
  refine ⟨_, rfl, ?_⟩
  try dsimp only
  with_reducible repeat' first | exact h | apply State.csiPacket_kept | refine Kept.ite ?_ ?_
theorem State.frameDone_kept {i f} (h : Kept s₀ s₁) : Kept s₀ (State.frameDone s₁ i f) := by
  unfold State.frameDone
  try dsimp only
  with_reducible repeat' first
    | exact h | apply State.memWrite_kept | apply State.pipeState_kept | apply State.countUp_kept
    | apply State.showRing_kept | apply State.setPipe_kept | refine State.memWrite_kept' ‹_› ?_
    | refine Kept.ite ?_ ?_
theorem execFrameComplete_kept {i} (h : Kept s₀ s₁) : ∃ t₀, execFrameComplete i s₁ = .next t₀ ∧ Kept s₀ t₀ := by
  unfold execFrameComplete
  refine ⟨_, rfl, ?_⟩
  try dsimp only
  with_reducible repeat' first
    | exact h | apply State.frameOverrun_kept | apply State.frameDone_kept | apply State.frameDrop_kept
    | refine Kept.ite ?_ ?_ | split
theorem execIngStampOfs_kept {_r i value} (h : Kept s₀ s₁) : ∃ t₀, execIngStampOfs _r i value s₁ = .next t₀ ∧ Kept s₀ t₀ := by
  unfold execIngStampOfs
  refine ⟨_, rfl, ?_⟩
  try dsimp only
  with_reducible repeat' first | exact h | apply State.wrLate_kept | refine Kept.ite ?_ ?_
theorem State.pointOpen_kept {e t0} (h : Kept s₀ s₁) : Kept s₀ (State.pointOpen s₁ e t0) := by
  unfold State.pointOpen
  try dsimp only
  with_reducible repeat' first
    | exact h | apply State.showRing_kept | apply State.setParser_kept | refine Kept.ite ?_ ?_ | split
theorem State.pointClose_kept {e flag} (h : Kept s₀ s₁) : Kept s₀ (State.pointClose s₁ e flag) := by
  unfold State.pointClose
  try dsimp only
  with_reducible repeat' first
    | exact h | apply State.memWrite_kept | apply State.showRing_kept | apply State.setParser_kept
    | refine State.memWrite_kept' ‹_› ?_ | refine Kept.ite ?_ ?_ | split
theorem State.pointAdd_kept {e tPkt d k} (h : Kept s₀ s₁) : Kept s₀ (State.pointAdd s₁ e tPkt d k) := by
  unfold State.pointAdd
  try dsimp only
  with_reducible repeat' first
    | exact h | apply State.pointOpen_kept | apply State.countUp_kept | apply State.setParser_kept
    | apply State.pointClose_kept | refine Kept.ite ?_ ?_ | split
theorem State.pointPacket_kept {e tPkt d} (h : Kept s₀ s₁) : Kept s₀ (State.pointPacket s₁ e tPkt d) := by
  unfold State.pointPacket
  try dsimp only
  with_reducible repeat' first
    | exact h | apply State.countUp_kept | apply State.pointClose_kept | apply State.pointAdd_kept
    | apply State.setParser_kept | refine Kept.foldl _ (fun _ _ _ => ?_) _ ?_
    | refine Kept.foldlSnd _ (fun _ _ _ => ?_) _ ?_ | assumption | refine Kept.ite ?_ ?_
theorem State.parseDrop_kept {e} (h : Kept s₀ s₁) : Kept s₀ (State.parseDrop s₁ e) := by
  unfold State.parseDrop
  try dsimp only
  with_reducible repeat' first | exact h | apply State.raise_kept | apply State.countUp_kept | apply State.orReg_kept
theorem execBufferClose_kept {e} (h : Kept s₀ s₁) : ∃ t₀, execBufferClose e s₁ = .next t₀ ∧ Kept s₀ t₀ := by
  unfold execBufferClose
  refine ⟨_, rfl, ?_⟩
  try dsimp only
  with_reducible repeat' first | exact h | apply State.pointClose_kept | refine Kept.ite ?_ ?_
theorem State.releaseBuf_kept {p n t} (h : Kept s₀ s₁) : Kept s₀ (State.releaseBuf s₁ p n t) := by
  unfold State.releaseBuf
  try dsimp only
  with_reducible repeat' first
    | exact h | apply State.setPipe_kept | apply State.setParser_kept | apply State.wrLate_kept
    | refine Kept.ite ?_ ?_ | split
theorem State.strReport_kept {n b} (h : Kept s₀ s₁) : Kept s₀ (State.strReport s₁ n b) := by
  unfold State.strReport
  try dsimp only
  with_reducible repeat' first | exact h | apply State.setFld_kept
theorem State.strAccept_kept {n active} (h : Kept s₀ s₁) : Kept s₀ (State.strAccept s₁ n active) := by
  unfold State.strAccept
  try dsimp only
  with_reducible repeat' first
    | exact h | apply State.setFld_kept | apply State.setStrain_kept | apply State.strReport_kept
    | apply State.countUp_kept | refine Kept.ite ?_ ?_
theorem execStrainerAccept_kept {n level} (h : Kept s₀ s₁) : ∃ t₀, execStrainerAccept n level s₁ = .next t₀ ∧ Kept s₀ t₀ := by
  unfold execStrainerAccept
  refine ⟨_, rfl, ?_⟩
  try dsimp only
  with_reducible repeat' first
    | exact h | apply State.countUp_kept | apply State.strAccept_kept | refine Kept.ite ?_ ?_
theorem State.strIvEnd_kept {n} (h : Kept s₀ s₁) : Kept s₀ (State.strIvEnd s₁ n) := by
  unfold State.strIvEnd
  try dsimp only
  with_reducible repeat' first
    | exact h | apply State.countUp_kept | apply State.strReport_kept | apply State.setStrain_kept
    | refine Kept.ite ?_ ?_
theorem execMinIvEnd_kept {n} (h : Kept s₀ s₁) : ∃ t₀, execMinIvEnd n s₁ = .next t₀ ∧ Kept s₀ t₀ := by
  unfold execMinIvEnd
  refine ⟨_, rfl, ?_⟩
  try dsimp only
  with_reducible repeat' first | exact h | apply State.strIvEnd_kept | refine Kept.ite ?_ ?_ | split
theorem execStrainerStuck_kept {n} (h : Kept s₀ s₁) : ∃ t₀, execStrainerStuck n s₁ = .next t₀ ∧ Kept s₀ t₀ := by
  unfold execStrainerStuck
  refine ⟨_, rfl, ?_⟩
  try dsimp only
  with_reducible repeat' first
    | exact h | apply State.raise_kept | apply State.orReg_kept | refine Kept.ite ?_ ?_ | split
theorem State.modStream_kept {n f} (h : Kept s₀ s₁) : Kept s₀ (State.modStream s₁ n f) := by
  unfold State.modStream
  try dsimp only
  with_reducible repeat' first | exact h | refine Kept.ite ?_ ?_ | split | refine Kept.upd ?_ ⟨rfl, rfl⟩
theorem State.takeStreams_kept {p b keep} (h : Kept s₀ s₁) : Kept s₀ (State.takeStreams s₁ p b keep) := by
  unfold State.takeStreams
  try dsimp only
  with_reducible repeat' first | exact h | refine Kept.ite ?_ ?_ | split | refine Kept.upd ?_ ⟨rfl, rfl⟩
theorem State.bootDispatcher_kept {p} (h : Kept s₀ s₁) : Kept s₀ (State.bootDispatcher s₁ p) := by
  unfold State.bootDispatcher
  try dsimp only
  with_reducible repeat' first
    | exact h | apply State.resetRegs_kept | apply State.setDsp_kept | apply State.setFld_kept
    | apply State.takeStreams_kept | refine Kept.ite ?_ ?_
theorem State.switchTable_kept {p} (h : Kept s₀ s₁) : Kept s₀ (State.switchTable s₁ p) := by
  unfold State.switchTable
  try dsimp only
  with_reducible repeat' first
    | exact h | apply State.setDsp_kept | apply State.setFld_kept | apply State.takeStreams_kept
theorem State.applyClaims_kept {p} (h : Kept s₀ s₁) : Kept s₀ (State.applyClaims s₁ p) := by
  unfold State.applyClaims
  try dsimp only
  with_reducible repeat' first
    | exact h | apply State.setArr_kept | apply State.setVec_kept | refine Kept.foldl _ (fun _ _ _ => ?_) _ ?_
    | refine Kept.foldlSnd _ (fun _ _ _ => ?_) _ ?_ | assumption
theorem State.park_kept {p} (h : Kept s₀ s₁) : Kept s₀ (State.park s₁ p) := by
  unfold State.park
  try dsimp only
  with_reducible repeat' first
    | exact h | apply State.abortPart_kept | apply State.stopDispatcher_kept | refine Kept.ite ?_ ?_ | split
    | refine Kept.upd ?_ ⟨rfl, rfl⟩
theorem State.frameSkip_kept {p b} (h : Kept s₀ s₁) : Kept s₀ (State.frameSkip s₁ p b) := by
  unfold State.frameSkip
  try dsimp only
  with_reducible repeat' first
    | exact h | apply State.setDsp_kept | apply State.raise_kept | apply State.orReg_kept | apply State.countUp_kept
theorem State.frameSqueeze_kept {p b} (h : Kept s₀ s₁) : Kept s₀ (State.frameSqueeze s₁ p b) := by
  unfold State.frameSqueeze
  try dsimp only
  with_reducible repeat' first
    | exact h | apply State.setFld_kept | apply State.setDsp_kept | apply State.raise_kept | apply State.orReg_kept
    | apply State.countUp_kept | refine Kept.ite ?_ ?_
theorem State.closeScope_kept {p} (h : Kept s₀ s₁) : Kept s₀ (State.closeScope s₁ p) := by
  unfold State.closeScope
  try dsimp only
  with_reducible repeat' first
    | exact h | apply State.showPending_kept | refine Kept.ite ?_ ?_ | split | refine Kept.upd ?_ ⟨rfl, rfl⟩
theorem State.endReset_kept {p} (h : Kept s₀ s₁) : Kept s₀ (State.endReset s₁ p) := by
  unfold State.endReset
  try dsimp only
  with_reducible repeat' first
    | exact h | apply State.closeScope_kept | apply State.setRecState_kept | apply State.setFld_kept
    | apply State.complete_kept | refine Kept.foldl _ (fun _ _ _ => ?_) _ ?_
    | refine Kept.foldlSnd _ (fun _ _ _ => ?_) _ ?_ | assumption | refine Kept.ite ?_ ?_ | split
    | refine Kept.upd ?_ ⟨rfl, rfl⟩
theorem State.frameGo_kept {p b t} (h : Kept s₀ s₁) : Kept s₀ (State.frameGo s₁ p b t) := by
  unfold State.frameGo
  try dsimp only
  with_reducible repeat' first
    | exact h | apply State.setDsp_kept | apply State.setFld_kept | apply State.wr64_kept | apply State.endReset_kept
    | refine Kept.ite ?_ ?_ | split | refine Kept.upd ?_ ⟨rfl, rfl⟩
theorem State.minorFrame_kept {p b} (h : Kept s₀ s₁) : Kept s₀ (State.minorFrame s₁ p b) := by
  unfold State.minorFrame
  try dsimp only
  with_reducible repeat' first
    | exact h | apply State.park_kept | apply State.frameSkip_kept | apply State.frameSqueeze_kept
    | apply State.frameGo_kept | refine Kept.ite ?_ ?_ | split
theorem execMinorFrameStart_kept {p} (h : Kept s₀ s₁) : ∃ t₀, execMinorFrameStart p s₁ = .next t₀ ∧ Kept s₀ t₀ := by
  unfold execMinorFrameStart
  refine ⟨_, rfl, ?_⟩
  try dsimp only
  with_reducible repeat' first | exact h | apply State.minorFrame_kept | refine Kept.ite ?_ ?_ | split
theorem State.fire_kept {p action f} (h : Kept s₀ s₁) (hf : ∀ e n t, Kept s₀ t → Kept s₀ (f e n t)) :
    Kept s₀ (State.fire s₁ p action f) := by
  unfold State.fire
  split
  · exact h
  · exact hf _ _ _ (State.setFld_kept (State.setDsp_kept h))
theorem State.timedLaunch_kept {p r t endCt} (h : Kept s₀ s₁) : Kept s₀ (State.timedLaunch s₁ p r t endCt) := by
  unfold State.timedLaunch
  try dsimp only
  with_reducible repeat' first
    | exact h | apply State.setSeqState_kept | apply State.setStep_kept | apply State.setCtx_kept
    | apply State.modTil_kept | apply State.firstLoad_kept | refine Kept.foldl _ (fun _ _ _ => ?_) _ ?_
    | refine Kept.foldlSnd _ (fun _ _ _ => ?_) _ ?_ | assumption | refine Kept.ite ?_ ?_ | split
    | refine Kept.upd ?_ ⟨rfl, rfl⟩
theorem execBrewLaunch_kept {p} (h : Kept s₀ s₁) : ∃ t₀, execBrewLaunch p s₁ = .next t₀ ∧ Kept s₀ t₀ := by
  unfold execBrewLaunch
  refine ⟨_, rfl, ?_⟩
  try dsimp only
  with_reducible repeat' first
    | exact h | refine State.fire_kept ?_ (fun _ _ _ _ => ?_) | assumption | apply State.slotConflict_kept
    | apply State.build_kept | apply State.timedLaunch_kept | refine State.build_kept' ‹_› ?_ | refine Kept.ite ?_ ?_
    | split
theorem execTimedTaskStart_kept {p task} (h : Kept s₀ s₁) : ∃ t₀, execTimedTaskStart p task s₁ = .next t₀ ∧ Kept s₀ t₀ := by
  unfold execTimedTaskStart
  refine ⟨_, rfl, ?_⟩
  try dsimp only
  with_reducible repeat' first
    | exact h | apply State.modTask_kept | apply State.modTil_kept | apply State.setCtxState_kept
    | refine Kept.foldl _ (fun _ _ _ => ?_) _ ?_ | refine Kept.foldlSnd _ (fun _ _ _ => ?_) _ ?_ | assumption
    | refine Kept.ite ?_ ?_ | split
theorem execDeadlineMiss_kept {p task} (h : Kept s₀ s₁) : ∃ t₀, execDeadlineMiss p task s₁ = .next t₀ ∧ Kept s₀ t₀ := by
  unfold execDeadlineMiss
  refine ⟨_, rfl, ?_⟩
  try dsimp only
  with_reducible repeat' first
    | exact h | apply State.teardownTask_kept | apply State.raise_kept | refine Kept.ite ?_ ?_ | split
theorem State.releaseStage_kept {p src t stop} (h : Kept s₀ s₁) : Kept s₀ (State.releaseStage s₁ p src t stop) := by
  unfold State.releaseStage
  try dsimp only
  with_reducible repeat' first | exact h | apply State.setStage_kept | apply State.setDsp_kept | refine Kept.ite ?_ ?_
theorem execIngress_kept {p} (h : Kept s₀ s₁) : ∃ t₀, execIngress p s₁ = .next t₀ ∧ Kept s₀ t₀ := by
  unfold execIngress
  refine ⟨_, rfl, ?_⟩
  try dsimp only
  with_reducible repeat' first
    | exact h | refine State.fire_kept ?_ (fun _ _ _ _ => ?_) | assumption | apply State.releaseBuf_kept
    | apply State.releaseStage_kept | refine Kept.foldl _ (fun _ _ _ => ?_) _ ?_
    | refine Kept.foldlSnd _ (fun _ _ _ => ?_) _ ?_ | assumption | refine Kept.ite ?_ ?_
theorem execStagingEnqueue_kept {src p a} (h : Kept s₀ s₁) : ∃ t₀, execStagingEnqueue src p a s₁ = .next t₀ ∧ Kept s₀ t₀ := by
  unfold execStagingEnqueue
  refine ⟨_, rfl, ?_⟩
  try dsimp only
  with_reducible repeat' first
    | exact h | apply State.stagePut_kept | refine State.stagePut_kept' ‹_› ?_ | refine Kept.ite ?_ ?_
theorem execSwap_kept {p} (h : Kept s₀ s₁) : ∃ t₀, execSwap p s₁ = .next t₀ ∧ Kept s₀ t₀ := by
  unfold execSwap
  refine ⟨_, rfl, ?_⟩
  try dsimp only
  with_reducible repeat' first
    | exact h | refine State.fire_kept ?_ (fun _ _ _ _ => ?_) | assumption | apply State.wrLate_kept
    | apply State.draw_kept | apply State.ndTiming_kept | refine Kept.ite ?_ ?_
theorem execClaim_kept {p} (h : Kept s₀ s₁) : ∃ t₀, execClaim p s₁ = .next t₀ ∧ Kept s₀ t₀ := by
  unfold execClaim
  refine ⟨_, rfl, ?_⟩
  try dsimp only
  with_reducible repeat' first
    | exact h | refine State.fire_kept ?_ (fun _ _ _ _ => ?_) | assumption | apply State.applyClaims_kept
    | apply State.setDsp_kept
theorem execClaimRelease_kept {p} (h : Kept s₀ s₁) : ∃ t₀, execClaimRelease p s₁ = .next t₀ ∧ Kept s₀ t₀ := by
  unfold execClaimRelease
  refine ⟨_, rfl, ?_⟩
  try dsimp only
  with_reducible repeat' first
    | exact h | apply State.applyClaims_kept | apply State.setDsp_kept | refine Kept.ite ?_ ?_
theorem execTaster_kept {p} (h : Kept s₀ s₁) : ∃ t₀, execTaster p s₁ = .next t₀ ∧ Kept s₀ t₀ := by
  unfold execTaster
  refine ⟨_, rfl, ?_⟩
  try dsimp only
  with_reducible repeat' first
    | exact h | refine State.fire_kept ?_ (fun _ _ _ _ => ?_) | assumption | apply State.applyClaims_kept
    | apply State.setDsp_kept
theorem execGoldenTest_kept {p errors} (h : Kept s₀ s₁) : ∃ t₀, execGoldenTest p errors s₁ = .next t₀ ∧ Kept s₀ t₀ := by
  unfold execGoldenTest
  refine ⟨_, rfl, ?_⟩
  try dsimp only
  with_reducible repeat' first | exact h | apply State.setDsp_kept | refine Kept.ite ?_ ?_ | split
theorem State.tasterNote_kept {c set units} (h : Kept s₀ s₁) : Kept s₀ (State.tasterNote s₁ c set units) := by
  unfold State.tasterNote
  try dsimp only
  with_reducible repeat' first
    | exact h | apply State.countWrap_kept | apply State.setFld_kept | apply State.orReg_kept | apply State.wr_kept
    | refine Kept.foldl _ (fun _ _ _ => ?_) _ ?_ | refine Kept.foldlSnd _ (fun _ _ _ => ?_) _ ?_ | assumption
    | refine Kept.ite ?_ ?_

end Sys2Proof.Machine
end

