-- ==== Sys2Proof/Laws/KeptChip.lean ====
section
/-! SUPPORT. One lemma per effect (`<name>_kept`): the effect keeps what `Kept` says. This file:
the Brew Table, ingest, detection, safety, stops and recovery. -/

namespace Sys2Proof.Machine

variable {s₀ s₁ : State}

theorem execTasterCompare_kept {p c} (h : Kept s₀ s₁) : ∃ t₀, execTasterCompare p c s₁ = .next t₀ ∧ Kept s₀ t₀ := by
  unfold execTasterCompare
  refine ⟨_, rfl, ?_⟩
  try dsimp only
  with_reducible repeat' first
    | exact h | apply State.setDsp_kept | apply State.applyClaims_kept | apply State.tasterNote_kept
    | apply State.raise_kept | refine Kept.foldl _ (fun _ _ _ => ?_) _ ?_
    | refine Kept.foldlSnd _ (fun _ _ _ => ?_) _ ?_ | assumption | refine Kept.ite ?_ ?_ | split
    | refine Kept.upd ?_ ⟨rfl, rfl⟩
theorem State.setUnitTest_kept {k v} (h : Kept s₀ s₁) : Kept s₀ (State.setUnitTest s₁ k v) := by
  unfold State.setUnitTest
  try dsimp only
  with_reducible repeat' first | exact h | refine Kept.ite ?_ ?_ | split | refine Kept.upd ?_ ⟨rfl, rfl⟩
theorem execSelftest_kept {p} (h : Kept s₀ s₁) : ∃ t₀, execSelftest p s₁ = .next t₀ ∧ Kept s₀ t₀ := by
  unfold execSelftest
  refine ⟨_, rfl, ?_⟩
  try dsimp only
  with_reducible repeat' first
    | exact h | refine State.fire_kept ?_ (fun _ _ _ _ => ?_) | assumption | apply State.applyClaims_kept
    | apply State.setDsp_kept
theorem execSelftestSlice_kept {p} (h : Kept s₀ s₁) : ∃ t₀, execSelftestSlice p s₁ = .next t₀ ∧ Kept s₀ t₀ := by
  unfold execSelftestSlice
  refine ⟨_, rfl, ?_⟩
  try dsimp only
  with_reducible repeat' first | exact h | apply State.setDsp_kept
theorem State.sliceDone_kept {p k failAt} (h : Kept s₀ s₁) : Kept s₀ (State.sliceDone s₁ p k failAt) := by
  unfold State.sliceDone
  try dsimp only
  with_reducible repeat' first
    | exact h | apply State.setDsp_kept | apply State.setUnitTest_kept | apply State.applyClaims_kept
    | apply State.countUp_kept | apply State.raise_kept | refine Kept.ite ?_ ?_ | split
    | refine Kept.upd ?_ ⟨rfl, rfl⟩
theorem execSliceEnd_kept {p failAt} (h : Kept s₀ s₁) : ∃ t₀, execSliceEnd p failAt s₁ = .next t₀ ∧ Kept s₀ t₀ := by
  unfold execSliceEnd
  refine ⟨_, rfl, ?_⟩
  try dsimp only
  with_reducible repeat' first | exact h | apply State.sliceDone_kept | refine Kept.ite ?_ ?_ | split
theorem execSliceAbandon_kept {p} (h : Kept s₀ s₁) : ∃ t₀, execSliceAbandon p s₁ = .next t₀ ∧ Kept s₀ t₀ := by
  unfold execSliceAbandon
  refine ⟨_, rfl, ?_⟩
  try dsimp only
  with_reducible repeat' first
    | exact h | apply State.applyClaims_kept | apply State.countUp_kept | apply State.setDsp_kept
    | refine Kept.ite ?_ ?_ | split
theorem execSelftestOverdue_kept {p kind unit index} (h : Kept s₀ s₁) : ∃ t₀, execSelftestOverdue p kind unit index s₁ = .next t₀ ∧ Kept s₀ t₀ := by
  unfold execSelftestOverdue
  refine ⟨_, rfl, ?_⟩
  try dsimp only
  with_reducible repeat' first
    | exact h | apply State.setUnitTest_kept | apply State.wr_kept | apply State.raise_kept | refine Kept.ite ?_ ?_
theorem State.publish_kept {p r stamp at_} (h : Kept s₀ s₁) : Kept s₀ (State.publish s₁ p r stamp at_).2 := by
  unfold State.publish
  try dsimp only
  with_reducible repeat' first
    | exact h | apply State.memRead_kept | apply State.memWrite_kept | apply State.modStream_kept
    | apply State.raise_kept | refine State.memRead_kept' ‹_› ?_ | refine State.memWrite_kept' ‹_› ?_
    | refine Kept.ite ?_ ?_ | split
theorem State.publish_kept' {p r stamp at_} {r₀ u₀} (hq : State.publish s₁ p r stamp at_ = (r₀, u₀)) (h : Kept s₀ s₁) : Kept s₀ u₀ := by
  have := @State.publish_kept s₀ s₁ p r stamp at_ h
  rw [hq] at this
  exact this
theorem execPublish_kept {p} (h : Kept s₀ s₁) : ∃ t₀, execPublish p s₁ = .next t₀ ∧ Kept s₀ t₀ := by
  unfold execPublish
  refine ⟨_, rfl, ?_⟩
  try dsimp only
  with_reducible repeat' first
    | exact h | refine State.fire_kept ?_ (fun _ _ _ _ => ?_) | assumption | apply State.countUp_kept
    | apply State.setDsp_kept | apply State.memRead_kept | apply State.publish_kept
    | refine State.memRead_kept' ‹_› ?_ | refine State.publish_kept' ‹_› ?_ | refine Kept.ite ?_ ?_ | split
theorem execUrnAgePub_kept {r p stream} (h : Kept s₀ s₁) : ∃ t₀, execUrnAgePub r p stream s₁ = .next t₀ ∧ Kept s₀ t₀ := by
  unfold execUrnAgePub
  refine ⟨_, rfl, ?_⟩
  try dsimp only
  with_reducible repeat' first
    | exact h | apply State.publish_kept | refine State.publish_kept' ‹_› ?_ | refine Kept.ite ?_ ?_ | split
theorem State.ageCheck1_kept {e} (h : Kept s₀ s₁) : Kept s₀ (State.ageCheck1 s₁ e) := by
  unfold State.ageCheck1
  try dsimp only
  with_reducible repeat' first
    | exact h | apply State.raise_kept | apply State.modStream_kept | refine Kept.ite ?_ ?_ | split
theorem execAgeCheck_kept (h : Kept s₀ s₁) : ∃ t₀, execAgeCheck s₁ = .next t₀ ∧ Kept s₀ t₀ := by
  unfold execAgeCheck
  refine ⟨_, rfl, ?_⟩
  try dsimp only
  with_reducible repeat' first
    | exact h | apply State.ageCheck1_kept | refine Kept.foldl _ (fun _ _ _ => ?_) _ ?_
    | refine Kept.foldlSnd _ (fun _ _ _ => ?_) _ ?_ | assumption | refine Kept.ite ?_ ?_
theorem State.routerConflict_kept {p r o} (h : Kept s₀ s₁) : Kept s₀ (State.routerConflict s₁ p r o) := by
  unfold State.routerConflict
  try dsimp only
  with_reducible repeat' first | exact h | apply State.raise_kept | apply State.orReg_kept | apply State.countUp_kept
theorem execNocPacket_kept {router p r ga back timed rival} (h : Kept s₀ s₁) : ∃ t₀, execNocPacket router p r ga back timed rival s₁ = .next t₀ ∧ Kept s₀ t₀ := by
  unfold execNocPacket
  refine ⟨_, rfl, ?_⟩
  try dsimp only
  with_reducible repeat' first
    | exact h | apply State.answer_kept | apply State.raiseReq_kept | apply State.routerConflict_kept
    | apply State.ndTiming_kept | refine Kept.ite ?_ ?_ | split
theorem State.setSpState_kept {n v} (h : Kept s₀ s₁) : Kept s₀ (State.setSpState s₁ n v) := by
  unfold State.setSpState
  try dsimp only
  with_reducible repeat' first | exact h | apply State.setFld_kept
theorem State.raiseSp_kept {src n i} (h : Kept s₀ s₁) : Kept s₀ (State.raiseSp s₁ src n i) := by
  unfold State.raiseSp
  try dsimp only
  with_reducible repeat' first | exact h | apply State.raise_kept
theorem State.pieceDone_kept {c n tag data} (h : Kept s₀ s₁) : Kept s₀ (State.pieceDone s₁ c n tag data) := by
  unfold State.pieceDone
  try dsimp only
  with_reducible repeat' first | exact h | apply State.setChan_kept
theorem State.reqFail_kept {q} (h : Kept s₀ s₁) : Kept s₀ (State.reqFail s₁ q) := by
  unfold State.reqFail
  try dsimp only
  with_reducible repeat' first
    | exact h | apply State.complete_kept | apply State.abortCtx_kept | apply State.answer_kept
    | refine Kept.ite ?_ ?_ | split | refine Kept.upd ?_ ⟨rfl, rfl⟩
theorem State.watchReply_kept {q value kept} (h : Kept s₀ s₁) : Kept s₀ (State.watchReply s₁ q value kept) := by
  unfold State.watchReply
  try dsimp only
  with_reducible repeat' first
    | exact h | apply State.waitDone_kept | apply State.unwatch_kept | apply State.setCtx_kept
    | apply State.slotFire_kept | refine Kept.foldl _ (fun _ _ _ => ?_) _ ?_
    | refine Kept.foldlSnd _ (fun _ _ _ => ?_) _ ?_ | assumption | refine Kept.ite ?_ ?_ | split
theorem State.reqDone_kept {q pkt} (h : Kept s₀ s₁) : Kept s₀ (State.reqDone s₁ q pkt) := by
  unfold State.reqDone
  try dsimp only
  with_reducible repeat' first
    | exact h | apply State.complete_kept | apply State.pieceDone_kept | apply State.watchReply_kept
    | apply State.answer_kept | refine Kept.ite ?_ ?_ | split | refine Kept.upd ?_ ⟨rfl, rfl⟩
theorem State.response_kept {n pkt} (h : Kept s₀ s₁) : Kept s₀ (State.response s₁ n pkt) := by
  unfold State.response
  try dsimp only
  with_reducible repeat' first
    | exact h | apply State.countUp_kept | apply State.reqFail_kept | apply State.reqDone_kept | refine Kept.ite ?_ ?_
    | split
theorem execRespTimeout_kept {tag} (h : Kept s₀ s₁) : ∃ t₀, execRespTimeout tag s₁ = .next t₀ ∧ Kept s₀ t₀ := by
  unfold execRespTimeout
  refine ⟨_, rfl, ?_⟩
  try dsimp only
  with_reducible repeat' first
    | exact h | apply State.reqFail_kept | apply State.raise_kept | refine Kept.ite ?_ ?_ | split
theorem State.spDiscard_kept {n} (h : Kept s₀ s₁) : Kept s₀ (State.spDiscard s₁ n) := by
  unfold State.spDiscard
  try dsimp only
  with_reducible repeat' first
    | exact h | apply State.countUp_kept | apply State.setPort_kept | apply State.reqFail_kept
    | refine Kept.foldl _ (fun _ _ _ => ?_) _ ?_ | refine Kept.foldlSnd _ (fun _ _ _ => ?_) _ ?_ | assumption
theorem State.spTrain_kept {n} (h : Kept s₀ s₁) : Kept s₀ (State.spTrain s₁ n) := by
  unfold State.spTrain
  try dsimp only
  with_reducible repeat' first
    | exact h | apply State.wr_kept | apply State.spDiscard_kept | apply State.setSpState_kept
theorem State.spStaysDown_kept {n} (h : Kept s₀ s₁) : Kept s₀ (State.spStaysDown s₁ n) := by
  unfold State.spStaysDown
  try dsimp only
  with_reducible repeat' first | exact h | apply State.raiseSp_kept | apply State.setSpState_kept
theorem State.linkDown_kept {n} (h : Kept s₀ s₁) : Kept s₀ (State.linkDown s₁ n) := by
  unfold State.linkDown
  try dsimp only
  with_reducible repeat' first | exact h | apply State.spTrain_kept | apply State.raiseSp_kept
theorem execLinkDown_kept {n} (h : Kept s₀ s₁) : ∃ t₀, execLinkDown n s₁ = .next t₀ ∧ Kept s₀ t₀ := by
  unfold execLinkDown
  refine ⟨_, rfl, ?_⟩
  try dsimp only
  with_reducible repeat' first | exact h | apply State.linkDown_kept | refine Kept.ite ?_ ?_
theorem execRetrain_kept {r n} (h : Kept s₀ s₁) : ∃ t₀, execRetrain r n s₁ = .next t₀ ∧ Kept s₀ t₀ := by
  unfold execRetrain
  refine ⟨_, rfl, ?_⟩
  try dsimp only
  with_reducible repeat' first | exact h | apply State.spTrain_kept | refine Kept.ite ?_ ?_
theorem State.spUp_kept {n} (h : Kept s₀ s₁) : Kept s₀ (State.spUp s₁ n) := by
  unfold State.spUp
  try dsimp only
  with_reducible repeat' first
    | exact h | apply State.setSpState_kept | apply State.raiseSp_kept | refine Kept.ite ?_ ?_
theorem execLinkTraining_kept {n lanes calib} (h : Kept s₀ s₁) : ∃ t₀, execLinkTraining n lanes calib s₁ = .next t₀ ∧ Kept s₀ t₀ := by
  unfold execLinkTraining
  refine ⟨_, rfl, ?_⟩
  try dsimp only
  with_reducible repeat' first
    | exact h | apply State.spStaysDown_kept | apply State.setFld_kept | apply State.setSpState_kept
    | apply State.spUp_kept | refine Kept.ite ?_ ?_
theorem execTrainingRetry_kept {n} (h : Kept s₀ s₁) : ∃ t₀, execTrainingRetry n s₁ = .next t₀ ∧ Kept s₀ t₀ := by
  unfold execTrainingRetry
  refine ⟨_, rfl, ?_⟩
  try dsimp only
  with_reducible repeat' first
    | exact h | apply State.setSpState_kept | apply State.setPort_kept | apply State.spStaysDown_kept
    | refine Kept.ite ?_ ?_
theorem execIdent_kept {n peer port sys} (h : Kept s₀ s₁) : ∃ t₀, execIdent n peer port sys s₁ = .next t₀ ∧ Kept s₀ t₀ := by
  unfold execIdent
  refine ⟨_, rfl, ?_⟩
  try dsimp only
  with_reducible repeat' first
    | exact h | apply State.raiseSp_kept | apply State.setSpState_kept | apply State.wr_kept | apply State.spUp_kept
    | refine Kept.ite ?_ ?_
theorem State.spoutLoad_kept (h : Kept s₀ s₁) : Kept s₀ (State.spoutLoad s₁) := by
  unfold State.spoutLoad
  try dsimp only
  with_reducible repeat' first
    | exact h | apply State.wr_kept | apply State.spTrain_kept | apply State.raiseSp_kept
    | refine Kept.foldl _ (fun _ _ _ => ?_) _ ?_ | refine Kept.foldlSnd _ (fun _ _ _ => ?_) _ ?_ | assumption
    | refine Kept.ite ?_ ?_
theorem State.spControl_kept {n kind op data} (h : Kept s₀ s₁) : Kept s₀ (State.spControl s₁ n kind op data) := by
  unfold State.spControl
  try dsimp only
  with_reducible repeat' first | exact h | apply State.transmit_kept | refine Kept.ite ?_ ?_
theorem execCalibExchange_kept {n} (h : Kept s₀ s₁) : ∃ t₀, execCalibExchange n s₁ = .next t₀ ∧ Kept s₀ t₀ := by
  unfold execCalibExchange
  refine ⟨_, rfl, ?_⟩
  try dsimp only
  with_reducible repeat' first
    | exact h | apply State.spControl_kept | apply State.setPort_kept | refine Kept.ite ?_ ?_
theorem State.calib_kept {n pkt} (h : Kept s₀ s₁) : Kept s₀ (State.calib s₁ n pkt) := by
  unfold State.calib
  try dsimp only
  with_reducible repeat' first
    | exact h | apply State.spControl_kept | apply State.setPort_kept | apply State.setFld_kept
    | refine Kept.foldl _ (fun _ _ _ => ?_) _ ?_ | refine Kept.foldlSnd _ (fun _ _ _ => ?_) _ ?_ | assumption
    | refine Kept.ite ?_ ?_ | split
theorem execCalib_kept {n pkt} (h : Kept s₀ s₁) : ∃ t₀, execCalib n pkt s₁ = .next t₀ ∧ Kept s₀ t₀ := by
  unfold execCalib
  refine ⟨_, rfl, ?_⟩
  try dsimp only
  with_reducible repeat' first | exact h | apply State.calib_kept | refine Kept.ite ?_ ?_
theorem State.modBar_kept {f} (h : Kept s₀ s₁) : Kept s₀ (State.modBar s₁ f) := by
  unfold State.modBar
  try dsimp only
  with_reducible repeat' first | exact h | refine Kept.ite ?_ ?_ | split | refine Kept.upd ?_ ⟨rfl, rfl⟩
theorem State.setArmed_kept {b} (h : Kept s₀ s₁) : Kept s₀ (State.setArmed s₁ b) := by
  unfold State.setArmed
  try dsimp only
  with_reducible repeat' first | exact h | apply State.setFld_kept
theorem State.barTry_kept (h : Kept s₀ s₁) : Kept s₀ (State.barTry s₁) := by
  unfold State.barTry
  try dsimp only
  with_reducible repeat' first
    | exact h | apply State.spControl_kept | apply State.modBar_kept | refine Kept.foldl _ (fun _ _ _ => ?_) _ ?_
    | refine Kept.foldlSnd _ (fun _ _ _ => ?_) _ ?_ | assumption | refine Kept.ite ?_ ?_
theorem execArm_kept {r} (h : Kept s₀ s₁) : ∃ t₀, execArm r s₁ = .next t₀ ∧ Kept s₀ t₀ := by
  unfold execArm
  refine ⟨_, rfl, ?_⟩
  try dsimp only
  with_reducible repeat' first
    | exact h | apply State.barTry_kept | apply State.modBar_kept | apply State.setArmed_kept | refine Kept.ite ?_ ?_
theorem State.arriveIn_kept {n pkt} (h : Kept s₀ s₁) : Kept s₀ (State.arriveIn s₁ n pkt) := by
  unfold State.arriveIn
  try dsimp only
  with_reducible repeat' first | exact h | apply State.barTry_kept | apply State.modBar_kept
theorem execArrive_kept {n pkt} (h : Kept s₀ s₁) : ∃ t₀, execArrive n pkt s₁ = .next t₀ ∧ Kept s₀ t₀ := by
  unfold execArrive
  refine ⟨_, rfl, ?_⟩
  try dsimp only
  with_reducible repeat' first | exact h | apply State.arriveIn_kept | refine Kept.ite ?_ ?_
theorem State.goIn_kept {n pkt} (h : Kept s₀ s₁) : Kept s₀ (State.goIn s₁ n pkt) := by
  unfold State.goIn
  try dsimp only
  with_reducible repeat' first
    | exact h | apply State.orReg_kept | apply State.spControl_kept | apply State.modBar_kept
    | refine Kept.foldl _ (fun _ _ _ => ?_) _ ?_ | refine Kept.foldlSnd _ (fun _ _ _ => ?_) _ ?_ | assumption
    | refine Kept.ite ?_ ?_
theorem execGo_kept {n pkt} (h : Kept s₀ s₁) : ∃ t₀, execGo n pkt s₁ = .next t₀ ∧ Kept s₀ t₀ := by
  unfold execGo
  refine ⟨_, rfl, ?_⟩
  try dsimp only
  with_reducible repeat' first | exact h | apply State.goIn_kept | refine Kept.ite ?_ ?_
theorem execBarrierStart_kept (h : Kept s₀ s₁) : ∃ t₀, execBarrierStart s₁ = .next t₀ ∧ Kept s₀ t₀ := by
  unfold execBarrierStart
  refine ⟨_, rfl, ?_⟩
  try dsimp only
  with_reducible repeat' first
    | exact h | apply State.modBar_kept | apply State.wr64_kept | apply State.setArmed_kept | refine Kept.ite ?_ ?_
    | split
theorem execBarrierTimeout_kept (h : Kept s₀ s₁) : ∃ t₀, execBarrierTimeout s₁ = .next t₀ ∧ Kept s₀ t₀ := by
  unfold execBarrierTimeout
  refine ⟨_, rfl, ?_⟩
  try dsimp only
  with_reducible repeat' first
    | exact h | apply State.raise_kept | apply State.orReg_kept | apply State.modBar_kept | apply State.setArmed_kept
    | refine Kept.ite ?_ ?_
theorem State.wrDigest_kept {a d} (h : Kept s₀ s₁) : Kept s₀ (State.wrDigest s₁ a d) := by
  unfold State.wrDigest
  try dsimp only
  with_reducible repeat' first
    | exact h | apply State.wr_kept | refine Kept.foldl _ (fun _ _ _ => ?_) _ ?_
    | refine Kept.foldlSnd _ (fun _ _ _ => ?_) _ ?_ | assumption
theorem State.extendMr_kept {n d} (h : Kept s₀ s₁) : Kept s₀ (State.extendMr s₁ n d) := by
  unfold State.extendMr
  try dsimp only
  with_reducible repeat' first | exact h | apply State.wrDigest_kept
theorem State.setRecord_kept {type scope l} (h : Kept s₀ s₁) : Kept s₀ (State.setRecord s₁ type scope l) := by
  unfold State.setRecord
  try dsimp only
  with_reducible repeat' first | exact h | refine Kept.ite ?_ ?_ | split | refine Kept.upd ?_ ⟨rfl, rfl⟩
theorem State.takeRecords_kept {types scope} (h : Kept s₀ s₁) : Kept s₀ (State.takeRecords s₁ types scope) := by
  unfold State.takeRecords
  try dsimp only
  with_reducible repeat' first
    | exact h | apply State.setRecord_kept | refine Kept.foldl _ (fun _ _ _ => ?_) _ ?_
    | refine Kept.foldlSnd _ (fun _ _ _ => ?_) _ ?_ | assumption
theorem State.applySev_kept {scope} (h : Kept s₀ s₁) : Kept s₀ (State.applySev s₁ scope) := by
  unfold State.applySev
  try dsimp only
  with_reducible repeat' first | exact h | refine Kept.ite ?_ ?_ | split | refine Kept.upd ?_ ⟨rfl, rfl⟩
theorem State.applySlots_kept {p} (h : Kept s₀ s₁) : Kept s₀ (State.applySlots s₁ p) := by
  unfold State.applySlots
  try dsimp only
  with_reducible repeat' first
    | exact h | apply State.wr_kept | refine Kept.foldl _ (fun _ _ _ => ?_) _ ?_
    | refine Kept.foldlSnd _ (fun _ _ _ => ?_) _ ?_ | assumption | refine Kept.ite ?_ ?_
theorem State.showSi_kept (h : Kept s₀ s₁) : Kept s₀ (State.showSi s₁) := by
  unfold State.showSi
  try dsimp only
  with_reducible repeat' first | exact h | apply State.setFld_kept | apply State.wr_kept | apply State.wrDigest_kept
theorem State.takeCold_kept {p} (h : Kept s₀ s₁) : Kept s₀ (State.takeCold s₁ p) := by
  unfold State.takeCold
  try dsimp only
  with_reducible repeat' first
    | exact h | apply State.takeRecords_kept | refine Kept.foldl _ (fun _ _ _ => ?_) _ ?_
    | refine Kept.foldlSnd _ (fun _ _ _ => ?_) _ ?_ | assumption | refine Kept.ite ?_ ?_ | split
    | refine Kept.upd ?_ ⟨rfl, rfl⟩
theorem State.wipeCluster_kept {c} (h : Kept s₀ s₁) : Kept s₀ (State.wipeCluster s₁ c) := by
  unfold State.wipeCluster
  extract_lets m m2 repair s2 s3 s4
  have hm : s₁.mem.wf = true → m2.wf = true := fun w =>
    Memory.wf_iff m _ rfl rfl (Memory.zero_wf _ _ _ (Memory.zero_wf _ _ _ w))
  have h2 : Kept s₀ s2 := State.resetRegs_kept (Kept.updMem h hm)
  have h4 : Kept s₀ s4 := Kept.foldl _ (fun _ _ h => State.wr_kept h) _ (State.wr_kept h2)
  clear_value s4
  exact Kept.upd h4 ⟨rfl, rfl⟩
theorem State.repairColumn_kept {c a col} (h : Kept s₀ s₁) : Kept s₀ (State.repairColumn s₁ c a col).2 := by
  unfold State.repairColumn
  try dsimp only
  with_reducible repeat' first
    | exact h | apply State.setFld_kept | apply State.wr_kept | refine Kept.ite ?_ ?_ | split
theorem State.repairColumn_kept' {c a col} {r₀ u₀} (hq : State.repairColumn s₁ c a col = (r₀, u₀)) (h : Kept s₀ s₁) : Kept s₀ u₀ := by
  have := @State.repairColumn_kept s₀ s₁ c a col h
  rw [hq] at this
  exact this
theorem State.applyRepairs_kept {c} (h : Kept s₀ s₁) : Kept s₀ (State.applyRepairs s₁ c).2 := by
  unfold State.applyRepairs
  try dsimp only
  with_reducible repeat' first
    | exact h | apply State.repairColumn_kept | apply State.setFld_kept | refine State.repairColumn_kept' ‹_› ?_
    | refine Kept.foldl _ (fun _ _ _ => ?_) _ ?_ | refine Kept.foldlSnd _ (fun _ _ _ => ?_) _ ?_ | assumption
    | refine Kept.ite ?_ ?_ | split
theorem State.applyRepairs_kept' {c} {r₀ u₀} (hq : State.applyRepairs s₁ c = (r₀, u₀)) (h : Kept s₀ s₁) : Kept s₀ u₀ := by
  have := @State.applyRepairs_kept s₀ s₁ c h
  rw [hq] at this
  exact this
theorem State.showWidth_kept {c} (h : Kept s₀ s₁) : Kept s₀ (State.showWidth s₁ c) := by
  unfold State.showWidth
  try dsimp only
  with_reducible repeat' first | exact h | apply State.wr_kept
theorem State.resetCluster_kept {c} (h : Kept s₀ s₁) : Kept s₀ (State.resetCluster s₁ c).2 := by
  unfold State.resetCluster
  try dsimp only
  with_reducible repeat' first
    | exact h | apply State.applyRepairs_kept | apply State.wipeCluster_kept | apply State.setFld_kept
    | apply State.showWidth_kept | apply State.orReg_kept | refine State.applyRepairs_kept' ‹_› ?_
    | refine Kept.ite ?_ ?_ | split
theorem State.resetCluster_kept' {c} {r₀ u₀} (hq : State.resetCluster s₁ c = (r₀, u₀)) (h : Kept s₀ s₁) : Kept s₀ u₀ := by
  have := @State.resetCluster_kept s₀ s₁ c h
  rw [hq] at this
  exact this
theorem State.resetClusters_kept {l} (h : Kept s₀ s₁) : Kept s₀ (State.resetClusters s₁ l).2 := by
  unfold State.resetClusters
  try dsimp only
  with_reducible repeat' first
    | exact h | apply State.resetCluster_kept | apply State.showWidth_kept | refine State.resetCluster_kept' ‹_› ?_
    | refine Kept.foldl _ (fun _ _ _ => ?_) _ ?_ | refine Kept.foldlSnd _ (fun _ _ _ => ?_) _ ?_ | assumption
theorem State.resetClusters_kept' {l} {r₀ u₀} (hq : State.resetClusters s₁ l = (r₀, u₀)) (h : Kept s₀ s₁) : Kept s₀ u₀ := by
  have := @State.resetClusters_kept s₀ s₁ l h
  rw [hq] at this
  exact this
theorem State.mcCfg_kept {ch} (h : Kept s₀ s₁) : Kept s₀ (State.mcCfg s₁ ch) := by
  unfold State.mcCfg
  try dsimp only
  with_reducible repeat' first | exact h | apply State.wr_kept | refine Kept.ite ?_ ?_ | split
theorem State.freePool_kept {p} (h : Kept s₀ s₁) : Kept s₀ (State.freePool s₁ p) := by
  unfold State.freePool
  extract_lets mine s2 groups s3
  have h2 : Kept s₀ s2 := Kept.updMem h fun w => zeros_wf (fun b => (poolBase + b * 0x80000, 0x80000)) _ _ w
  clear_value s2
  exact Kept.upd (Kept.updMem h2 fun w => zeros_wf (fun g => (chipCtrBase + g * 128, 128)) _ _ w) ⟨rfl, rfl⟩
theorem State.loadRwl_kept {a w} (h : Kept s₀ s₁) : Kept s₀ (State.loadRwl s₁ a w) := by
  unfold State.loadRwl
  try dsimp only
  with_reducible repeat' first
    | exact h | apply State.wr_kept | refine Kept.foldl _ (fun _ _ _ => ?_) _ ?_
    | refine Kept.foldlSnd _ (fun _ _ _ => ?_) _ ?_ | assumption | refine Kept.ite ?_ ?_ | split
theorem State.loadSensors_kept {p} (h : Kept s₀ s₁) : Kept s₀ (State.loadSensors s₁ p) := by
  unfold State.loadSensors
  try dsimp only
  with_reducible repeat' first
    | exact h | apply State.loadRwl_kept | apply State.genRestart_kept | refine Kept.foldl _ (fun _ _ _ => ?_) _ ?_
    | refine Kept.foldlSnd _ (fun _ _ _ => ?_) _ ?_ | assumption | refine Kept.ite ?_ ?_
theorem State.resetPorts_kept {p} (h : Kept s₀ s₁) : Kept s₀ (State.resetPorts s₁ p) := by
  unfold State.resetPorts
  try dsimp only
  with_reducible repeat' first
    | exact h | apply State.setFld_kept | apply State.resetRegs_kept | refine Kept.foldl _ (fun _ _ _ => ?_) _ ?_
    | refine Kept.foldlSnd _ (fun _ _ _ => ?_) _ ?_ | assumption | refine Kept.ite ?_ ?_ | split
    | refine Kept.upd ?_ ⟨rfl, rfl⟩
theorem State.trainPorts_kept {p} (h : Kept s₀ s₁) : Kept s₀ (State.trainPorts s₁ p) := by
  unfold State.trainPorts
  try dsimp only
  with_reducible repeat' first
    | exact h | apply State.spTrain_kept | refine Kept.foldl _ (fun _ _ _ => ?_) _ ?_
    | refine Kept.foldlSnd _ (fun _ _ _ => ?_) _ ?_ | assumption | refine Kept.ite ?_ ?_
theorem State.gateFreed_kept (h : Kept s₀ s₁) : Kept s₀ (State.gateFreed s₁) := by
  unfold State.gateFreed
  try dsimp only
  with_reducible repeat' first
    | exact h | apply State.resetRegs_kept | refine Kept.foldl _ (fun _ _ _ => ?_) _ ?_
    | refine Kept.foldlSnd _ (fun _ _ _ => ?_) _ ?_ | assumption | refine Kept.ite ?_ ?_ | split
    | refine Kept.upd ?_ ⟨rfl, rfl⟩
theorem State.clearPart_kept {p} (h : Kept s₀ s₁) : Kept s₀ (State.clearPart s₁ p) := by
  unfold State.clearPart
  try dsimp only
  with_reducible repeat' first
    | exact h | apply State.unlock_kept | apply State.resetRegs_kept | apply State.wrDigest_kept
    | refine Kept.ite ?_ ?_ | split | refine Kept.upd ?_ ⟨rfl, rfl⟩
theorem State.fullBist_kept {p} (h : Kept s₀ s₁) : Kept s₀ (State.fullBist s₁ p) := by
  unfold State.fullBist
  try dsimp only
  with_reducible repeat' first
    | exact h | apply State.draw_kept | apply State.orReg_kept | refine Kept.foldl _ (fun _ _ _ => ?_) _ ?_
    | refine Kept.foldlSnd _ (fun _ _ _ => ?_) _ ?_ | assumption | refine Kept.ite ?_ ?_ | split
    | refine Kept.upd ?_ ⟨rfl, rfl⟩
theorem State.comparatorTest_kept {p} (h : Kept s₀ s₁) : Kept s₀ (State.comparatorTest s₁ p) := by
  unfold State.comparatorTest
  try dsimp only
  with_reducible repeat' first
    | exact h | apply State.orReg_kept | refine Kept.foldl _ (fun _ _ _ => ?_) _ ?_
    | refine Kept.foldlSnd _ (fun _ _ _ => ?_) _ ?_ | assumption
theorem State.sBanks_kept {p} (h : Kept s₀ s₁) : Kept s₀ (State.sBanks s₁ p) := by
  unfold State.sBanks
  try dsimp only
  with_reducible repeat' first | exact h | refine Kept.ite ?_ ?_ | split | refine Kept.upd ?_ ⟨rfl, rfl⟩
theorem State.fillStore_kept {c kernels} (h : Kept s₀ s₁) : Kept s₀ (State.fillStore s₁ c kernels) := by
  unfold State.fillStore
  try dsimp only
  with_reducible repeat' first
    | exact h | apply State.wr_kept | refine Kept.ite ?_ ?_ | split | refine Kept.upd ?_ ⟨rfl, rfl⟩
theorem State.placeProgram_kept {p g} (h : Kept s₀ s₁) : Kept s₀ (State.placeProgram s₁ p g) := by
  unfold State.placeProgram
  try dsimp only
  with_reducible repeat' first
    | exact h | apply State.wr_kept | apply State.fillStore_kept | apply State.setFld_kept | apply State.wr64_kept
    | refine Kept.foldl _ (fun _ _ _ => ?_) _ ?_ | refine Kept.foldlSnd _ (fun _ _ _ => ?_) _ ?_ | assumption
    | refine Kept.ite ?_ ?_ | split | refine Kept.upd ?_ ⟨rfl, rfl⟩
theorem State.takeHot_kept {p} (h : Kept s₀ s₁) : Kept s₀ (State.takeHot s₁ p) := by
  unfold State.takeHot
  try dsimp only
  with_reducible repeat' first
    | exact h | apply State.applySlots_kept | apply State.applySev_kept | apply State.takeRecords_kept
    | refine Kept.ite ?_ ?_
theorem State.startProgram_kept {p g hash u e} (hu : State.startProgram s₁ p g hash = (some u, e)) (h : Kept s₀ s₁) : Kept s₀ u := by
  unfold State.startProgram at hu
  dsimp only at hu
  generalize hq : State.lockProgram _ _ _ = q at hu
  have hk := State.lockProgram_kept' hq (State.placeProgram_kept (State.takeHot_kept h))
  simp only [Prod.mk.injEq] at hu
  obtain ⟨h1, -⟩ := hu
  split at h1
  · cases h1
  · cases h1
    exact State.bootDispatcher_kept (State.extendMr_kept hk)
theorem State.takeAll_kept {p} (h : Kept s₀ s₁) : Kept s₀ (State.takeAll s₁ p) := by
  unfold State.takeAll
  try dsimp only
  with_reducible repeat' first
    | exact h | apply State.takeHot_kept | apply State.takeCold_kept | refine Kept.ite ?_ ?_
theorem State.notMaster_kept {r} (h : Kept s₀ s₁) : Kept s₀ (State.notMaster s₁ r) := by
  unfold State.notMaster
  try dsimp only
  with_reducible repeat' first | exact h | apply State.raise_kept | apply State.orReg_kept | refine Kept.ite ?_ ?_
theorem State.mismatch_kept {k group} (h : Kept s₀ s₁) : Kept s₀ (State.mismatch s₁ k group) := by
  unfold State.mismatch
  try dsimp only
  with_reducible repeat' first
    | exact h | apply State.setFld_kept | apply State.countUp_kept | apply State.orReg_kept
    | apply State.abortArrs_kept | apply State.teardownTask_kept | apply State.raise_kept
    | refine Kept.foldl _ (fun _ _ _ => ?_) _ ?_ | refine Kept.foldlSnd _ (fun _ _ _ => ?_) _ ?_ | assumption
    | refine Kept.ite ?_ ?_
theorem execLockstepMismatch_kept {pair group} (h : Kept s₀ s₁) : ∃ t₀, execLockstepMismatch pair group s₁ = .next t₀ ∧ Kept s₀ t₀ := by
  unfold execLockstepMismatch
  refine ⟨_, rfl, ?_⟩
  try dsimp only
  with_reducible repeat' first | exact h | apply State.mismatch_kept | refine Kept.ite ?_ ?_
theorem execReportPathFault_kept {pair} (h : Kept s₀ s₁) : ∃ t₀, execReportPathFault pair s₁ = .next t₀ ∧ Kept s₀ t₀ := by
  unfold execReportPathFault
  refine ⟨_, rfl, ?_⟩
  try dsimp only
  with_reducible repeat' first | exact h | apply State.mismatch_kept | refine Kept.ite ?_ ?_
theorem execTasterMissed_kept {p} (h : Kept s₀ s₁) : ∃ t₀, execTasterMissed p s₁ = .next t₀ ∧ Kept s₀ t₀ := by
  unfold execTasterMissed
  refine ⟨_, rfl, ?_⟩
  try dsimp only
  with_reducible repeat' first
    | exact h | apply State.raise_kept | apply State.orReg_kept | apply State.setDsp_kept | refine Kept.ite ?_ ?_
    | split
theorem execSafeState_kept {p cause} (h : Kept s₀ s₁) : ∃ t₀, execSafeState p cause s₁ = .next t₀ ∧ Kept s₀ t₀ := by
  unfold execSafeState
  refine ⟨_, rfl, ?_⟩
  try dsimp only
  with_reducible repeat' first
    | exact h | apply State.errUpdate_kept | apply State.safeState_kept | refine Kept.ite ?_ ?_
theorem execDeviceSafeState_kept {cause} (h : Kept s₀ s₁) : ∃ t₀, execDeviceSafeState cause s₁ = .next t₀ ∧ Kept s₀ t₀ := by
  unfold execDeviceSafeState
  refine ⟨_, rfl, ?_⟩
  try dsimp only
  with_reducible repeat' first
    | exact h | apply State.errUpdate_kept | apply State.deviceSafe_kept | refine Kept.ite ?_ ?_
theorem State.safeParts_kept {parts cause} (h : Kept s₀ s₁) : Kept s₀ (State.safeParts s₁ parts cause) := by
  unfold State.safeParts
  try dsimp only
  with_reducible repeat' first
    | exact h | apply State.safeState_kept | refine Kept.foldl _ (fun _ _ _ => ?_) _ ?_
    | refine Kept.foldlSnd _ (fun _ _ _ => ?_) _ ?_ | assumption
theorem execUrnSafeCmdParts_kept {r parts} (h : Kept s₀ s₁) : ∃ t₀, execUrnSafeCmdParts r parts s₁ = .next t₀ ∧ Kept s₀ t₀ := by
  unfold execUrnSafeCmdParts
  refine ⟨_, rfl, ?_⟩
  try dsimp only
  with_reducible repeat' first
    | exact h | apply State.errUpdate_kept | apply State.safeParts_kept | refine Kept.ite ?_ ?_
theorem execUrnSafeCmdDevice_kept {r} (h : Kept s₀ s₁) : ∃ t₀, execUrnSafeCmdDevice r s₁ = .next t₀ ∧ Kept s₀ t₀ := by
  unfold execUrnSafeCmdDevice
  refine ⟨_, rfl, ?_⟩
  try dsimp only
  with_reducible repeat' first
    | exact h | apply State.errUpdate_kept | apply State.deviceSafe_kept | refine Kept.ite ?_ ?_
theorem execStSafeCmd_kept {r value} (h : Kept s₀ s₁) : ∃ t₀, execStSafeCmd r value s₁ = .next t₀ ∧ Kept s₀ t₀ := by
  unfold execStSafeCmd
  refine ⟨_, rfl, ?_⟩
  try dsimp only
  with_reducible repeat' first
    | exact h | apply State.safeParts_kept | apply State.errUpdate_kept | apply State.deviceSafe_kept
    | apply State.notMaster_kept | refine Kept.ite ?_ ?_
theorem State.safeInPart_kept {p} (h : Kept s₀ s₁) : Kept s₀ (State.safeInPart s₁ p) := by
  unfold State.safeInPart
  try dsimp only
  with_reducible repeat' first
    | exact h | apply State.safeState_kept | apply State.raise_kept | apply State.setFld_kept | refine Kept.ite ?_ ?_
theorem execSafeIn_kept {active} (h : Kept s₀ s₁) : ∃ t₀, execSafeIn active s₁ = .next t₀ ∧ Kept s₀ t₀ := by
  unfold execSafeIn
  refine ⟨_, rfl, ?_⟩
  try dsimp only
  with_reducible repeat' first
    | exact h | apply State.strReport_kept | apply State.setStrain_kept | apply State.errUpdate_kept
    | apply State.safeInPart_kept | refine Kept.foldl _ (fun _ _ _ => ?_) _ ?_
    | refine Kept.foldlSnd _ (fun _ _ _ => ?_) _ ?_ | assumption | refine Kept.ite ?_ ?_
theorem execErrOutReturn_kept (h : Kept s₀ s₁) : ∃ t₀, execErrOutReturn s₁ = .next t₀ ∧ Kept s₀ t₀ := by
  unfold execErrOutReturn
  refine ⟨_, rfl, ?_⟩
  try dsimp only
  with_reducible repeat' first
    | exact h | apply State.setFld_kept | refine Kept.ite ?_ ?_ | split | refine Kept.upd ?_ ⟨rfl, rfl⟩
theorem State.modReset_kept {p f} (h : Kept s₀ s₁) : Kept s₀ (State.modReset s₁ p f) := by
  unfold State.modReset
  try dsimp only
  with_reducible repeat' first | exact h | refine Kept.ite ?_ ?_ | split | refine Kept.upd ?_ ⟨rfl, rfl⟩
theorem State.dropReset_kept {p} (h : Kept s₀ s₁) : Kept s₀ (State.dropReset s₁ p) := by
  unfold State.dropReset
  try dsimp only
  with_reducible repeat' first
    | exact h | apply State.complete_kept | refine Kept.foldl _ (fun _ _ _ => ?_) _ ?_
    | refine Kept.foldlSnd _ (fun _ _ _ => ?_) _ ?_ | assumption | refine Kept.ite ?_ ?_ | split
    | refine Kept.upd ?_ ⟨rfl, rfl⟩
theorem State.outOfService_kept {p} (h : Kept s₀ s₁) : Kept s₀ (State.outOfService s₁ p) := by
  unfold State.outOfService
  try dsimp only
  with_reducible repeat' first
    | exact h | apply State.stopDispatcher_kept | apply State.raise_kept | apply State.setRecState_kept
    | apply State.dropReset_kept | apply State.abortPart_kept | apply State.orReg_kept | apply State.deviceSafe_kept
    | apply State.errUpdate_kept | refine Kept.ite ?_ ?_
theorem execFaultRaise_kept {src scope info} (h : Kept s₀ s₁) : ∃ t₀, execFaultRaise src scope info s₁ = .next t₀ ∧ Kept s₀ t₀ := by
  unfold execFaultRaise
  refine ⟨_, rfl, ?_⟩
  try dsimp only
  with_reducible repeat' first
    | exact h | apply State.raise_kept | apply State.outOfService_kept | apply State.setFld_kept
    | apply State.dppMismatch_kept | apply State.countUp_kept | refine Kept.ite ?_ ?_
theorem State.modPending_kept {seq f expiry} (h : Kept s₀ s₁) : Kept s₀ (State.modPending s₁ seq f expiry) := by
  unfold State.modPending
  try dsimp only
  with_reducible repeat' first
    | exact h | apply State.modRecord_kept | refine Kept.ite ?_ ?_ | split | refine Kept.upd ?_ ⟨rfl, rfl⟩
theorem State.urgentAction_kept {r} (h : Kept s₀ s₁) : Kept s₀ (State.urgentAction s₁ r) := by
  unfold State.urgentAction
  try dsimp only
  with_reducible repeat' first
    | exact h | apply State.modPending_kept | apply State.actAtOnce_kept | apply State.notify_kept
    | apply State.teardownTask_kept | refine Kept.ite ?_ ?_ | split | refine Kept.upd ?_ ⟨rfl, rfl⟩
theorem State.escalate_kept {q} (h : Kept s₀ s₁) : Kept s₀ (State.escalate s₁ q) := by
  unfold State.escalate
  try dsimp only
  with_reducible repeat' first
    | exact h | apply State.errUpdate_kept | apply State.modPending_kept | apply State.notify_kept
    | apply State.urgentAction_kept | refine Kept.ite ?_ ?_
theorem execWindowExpiry_kept {seq} (h : Kept s₀ s₁) : ∃ t₀, execWindowExpiry seq s₁ = .next t₀ ∧ Kept s₀ t₀ := by
  unfold execWindowExpiry
  refine ⟨_, rfl, ?_⟩
  try dsimp only
  with_reducible repeat' first | exact h | apply State.escalate_kept | refine Kept.ite ?_ ?_ | split
theorem execUrnSecond_kept (h : Kept s₀ s₁) : ∃ t₀, execUrnSecond s₁ = .next t₀ ∧ Kept s₀ t₀ := by
  unfold execUrnSecond
  refine ⟨_, rfl, ?_⟩
  try dsimp only
  with_reducible repeat' first | exact h | refine Kept.ite ?_ ?_ | split | refine Kept.upd ?_ ⟨rfl, rfl⟩
theorem State.swDenied_kept (h : Kept s₀ s₁) : Kept s₀ (State.swDenied s₁) := by
  unfold State.swDenied
  try dsimp only
  with_reducible repeat' first | exact h | apply State.orReg_kept
theorem State.ackRecord_kept {seq} (h : Kept s₀ s₁) : Kept s₀ (State.ackRecord s₁ seq) := by
  unfold State.ackRecord
  try dsimp only
  with_reducible repeat' first
    | exact h | apply State.escalate_kept | apply State.modRecord_kept | apply State.showPending_kept
    | refine Kept.ite ?_ ?_ | split | refine Kept.upd ?_ ⟨rfl, rfl⟩
theorem execFcAck_kept {r seq} (h : Kept s₀ s₁) : ∃ t₀, execFcAck r seq s₁ = .next t₀ ∧ Kept s₀ t₀ := by
  unfold execFcAck
  refine ⟨_, rfl, ?_⟩
  try dsimp only
  with_reducible repeat' first
    | exact h | apply State.ackRecord_kept | apply State.swDenied_kept | refine Kept.ite ?_ ?_ | split
theorem execFcSwRaise_kept {r value} (h : Kept s₀ s₁) : ∃ t₀, execFcSwRaise r value s₁ = .next t₀ ∧ Kept s₀ t₀ := by
  unfold execFcSwRaise
  refine ⟨_, rfl, ?_⟩
  try dsimp only
  with_reducible repeat' first | exact h | apply State.raise_kept | apply State.swDenied_kept | refine Kept.ite ?_ ?_
theorem execHangContext_kept {c x} (h : Kept s₀ s₁) : ∃ t₀, execHangContext c x s₁ = .next t₀ ∧ Kept s₀ t₀ := by
  unfold execHangContext
  refine ⟨_, rfl, ?_⟩
  try dsimp only
  with_reducible repeat' first | exact h | apply State.raiseCl_kept | apply State.setCtx_kept | refine Kept.ite ?_ ?_
theorem State.wdogRestart_kept {c} (h : Kept s₀ s₁) : Kept s₀ (State.wdogRestart s₁ c) := by
  unfold State.wdogRestart
  try dsimp only
  with_reducible repeat' first | exact h | refine Kept.ite ?_ ?_ | split | refine Kept.upd ?_ ⟨rfl, rfl⟩
theorem execHangSequencer_kept {c} (h : Kept s₀ s₁) : ∃ t₀, execHangSequencer c s₁ = .next t₀ ∧ Kept s₀ t₀ := by
  unfold execHangSequencer
  refine ⟨_, rfl, ?_⟩
  try dsimp only
  with_reducible repeat' first
    | exact h | apply State.raiseCl_kept | apply State.wdogRestart_kept | refine Kept.ite ?_ ?_ | split
theorem execClSeqWdog_kept {_r c} (h : Kept s₀ s₁) : ∃ t₀, execClSeqWdog _r c s₁ = .next t₀ ∧ Kept s₀ t₀ := by
  unfold execClSeqWdog
  refine ⟨_, rfl, ?_⟩
  try dsimp only
  with_reducible repeat' first | exact h | apply State.wdogRestart_kept | refine Kept.ite ?_ ?_
theorem execHangTask_kept {c slot} (h : Kept s₀ s₁) : ∃ t₀, execHangTask c slot s₁ = .next t₀ ∧ Kept s₀ t₀ := by
  unfold execHangTask
  refine ⟨_, rfl, ?_⟩
  try dsimp only
  with_reducible repeat' first
    | exact h | apply State.raise_kept | apply State.modTask_kept | refine Kept.ite ?_ ?_ | split
theorem State.holdSteward_kept (h : Kept s₀ s₁) : Kept s₀ (State.holdSteward s₁) := by
  unfold State.holdSteward
  try dsimp only
  with_reducible repeat' first
    | exact h | apply State.countUp_kept | apply State.errUpdate_kept | apply State.deviceSafe_kept
    | refine Kept.ite ?_ ?_ | split | refine Kept.upd ?_ ⟨rfl, rfl⟩
theorem execStewardHb_kept {mismatch} (h : Kept s₀ s₁) : ∃ t₀, execStewardHb mismatch s₁ = .next t₀ ∧ Kept s₀ t₀ := by
  unfold execStewardHb
  refine ⟨_, rfl, ?_⟩
  try dsimp only
  with_reducible repeat' first
    | exact h | apply State.holdSteward_kept | apply State.raise_kept | refine Kept.ite ?_ ?_ | split
    | refine Kept.upd ?_ ⟨rfl, rfl⟩
theorem State.restartSteward_kept (h : Kept s₀ s₁) : Kept s₀ (State.restartSteward s₁) := by
  unfold State.restartSteward
  try dsimp only
  with_reducible repeat' first
    | exact h | apply State.complete_kept | apply State.setFld_kept | apply State.showSi_kept
    | refine Kept.foldl _ (fun _ _ _ => ?_) _ ?_ | refine Kept.foldlSnd _ (fun _ _ _ => ?_) _ ?_ | assumption
    | refine Kept.ite ?_ ?_ | split | refine Kept.upd ?_ ⟨rfl, rfl⟩
theorem execStewardRestart_kept (h : Kept s₀ s₁) : ∃ t₀, execStewardRestart s₁ = .next t₀ ∧ Kept s₀ t₀ := by
  unfold execStewardRestart
  refine ⟨_, rfl, ?_⟩
  try dsimp only
  with_reducible repeat' first | exact h | apply State.restartSteward_kept | refine Kept.ite ?_ ?_ | split
theorem State.crashCopy_kept {scope slot number} (h : Kept s₀ s₁) : Kept s₀ (State.crashCopy s₁ scope slot number) := by
  unfold State.crashCopy
  try dsimp only
  with_reducible repeat' first | exact h | apply State.stewardPut_kept | refine Kept.ite ?_ ?_
theorem State.captureEnd_kept {scope cut} (h : Kept s₀ s₁) : Kept s₀ (State.captureEnd s₁ scope cut) := by
  unfold State.captureEnd
  try dsimp only
  with_reducible repeat' first
    | exact h | apply State.wr_kept | apply State.crashCopy_kept | refine Kept.ite ?_ ?_ | split
    | refine Kept.upd ?_ ⟨rfl, rfl⟩
theorem State.afterCapture_kept {p} (h : Kept s₀ s₁) : Kept s₀ (State.afterCapture s₁ p) := by
  unfold State.afterCapture
  try dsimp only
  with_reducible repeat' first
    | exact h | apply State.setRecState_kept | apply State.modReset_kept | apply State.dropReset_kept
    | apply State.outOfService_kept | refine Kept.ite ?_ ?_ | split | refine Kept.upd ?_ ⟨rfl, rfl⟩
theorem execCrashCapture_kept {scope} (h : Kept s₀ s₁) : ∃ t₀, execCrashCapture scope s₁ = .next t₀ ∧ Kept s₀ t₀ := by
  unfold execCrashCapture
  refine ⟨_, rfl, ?_⟩
  try dsimp only
  with_reducible repeat' first
    | exact h | apply State.afterCapture_kept | apply State.captureEnd_kept | refine Kept.ite ?_ ?_ | split
    | refine Kept.upd ?_ ⟨rfl, rfl⟩
theorem execCrashPartial_kept (h : Kept s₀ s₁) : ∃ t₀, execCrashPartial s₁ = .next t₀ ∧ Kept s₀ t₀ := by
  unfold execCrashPartial
  refine ⟨_, rfl, ?_⟩
  try dsimp only
  with_reducible repeat' first
    | exact h | apply State.afterCapture_kept | apply State.raise_kept | apply State.captureEnd_kept
    | refine Kept.ite ?_ ?_ | split
theorem State.repairFailed_kept {c} (h : Kept s₀ s₁) : Kept s₀ (State.repairFailed s₁ c) := by
  unfold State.repairFailed
  try dsimp only
  with_reducible repeat' first | exact h | apply State.raise_kept
theorem State.clusterReset_kept {c} (h : Kept s₀ s₁) : Kept s₀ (State.clusterReset s₁ c) := by
  unfold State.clusterReset
  try dsimp only
  with_reducible repeat' first
    | exact h | apply State.teardownTask_kept | apply State.resetClusters_kept | apply State.applyClaims_kept
    | apply State.repairFailed_kept | refine State.resetClusters_kept' ‹_› ?_
    | refine Kept.foldl _ (fun _ _ _ => ?_) _ ?_ | refine Kept.foldlSnd _ (fun _ _ _ => ?_) _ ?_ | assumption
    | refine Kept.ite ?_ ?_ | split
theorem execClusterReset_kept {c} (h : Kept s₀ s₁) : ∃ t₀, execClusterReset c s₁ = .next t₀ ∧ Kept s₀ t₀ := by
  unfold execClusterReset
  refine ⟨_, rfl, ?_⟩
  try dsimp only
  with_reducible repeat' first
    | exact h | apply State.clusterReset_kept | refine Kept.ite ?_ ?_ | split | refine Kept.upd ?_ ⟨rfl, rfl⟩
theorem State.ringReset_kept {n} (h : Kept s₀ s₁) : Kept s₀ (State.ringReset s₁ n) := by
  unfold State.ringReset
  try dsimp only
  with_reducible repeat' first
    | exact h | apply State.setFld_kept | apply State.setRing_kept | refine Kept.ite ?_ ?_ | split
    | refine Kept.upd ?_ ⟨rfl, rfl⟩
theorem State.abortCmds_kept {p} (h : Kept s₀ s₁) : Kept s₀ (State.abortCmds s₁ p) := by
  unfold State.abortCmds
  try dsimp only
  with_reducible repeat' first
    | exact h | apply State.complete_kept | refine Kept.foldl _ (fun _ _ _ => ?_) _ ?_
    | refine Kept.foldlSnd _ (fun _ _ _ => ?_) _ ?_ | assumption | refine Kept.ite ?_ ?_ | split
    | refine Kept.upd ?_ ⟨rfl, rfl⟩
theorem State.drainPart_kept {p} (h : Kept s₀ s₁) : Kept s₀ (State.drainPart s₁ p) := by
  unfold State.drainPart
  try dsimp only
  with_reducible repeat' first
    | exact h | apply State.abortCmds_kept | apply State.abortPart_kept | apply State.setChan_kept
    | refine Kept.foldl _ (fun _ _ _ => ?_) _ ?_ | refine Kept.foldlSnd _ (fun _ _ _ => ?_) _ ?_ | assumption
    | refine Kept.ite ?_ ?_ | split | refine Kept.upd ?_ ⟨rfl, rfl⟩
theorem State.resetS_kept (h : Kept s₀ s₁) : Kept s₀ (State.resetS s₁) := by
  unfold State.resetS
  try dsimp only
  with_reducible repeat' first
    | exact h | apply State.wr_kept | apply State.ringReset_kept | refine Kept.foldl _ (fun _ _ _ => ?_) _ ?_
    | refine Kept.foldlSnd _ (fun _ _ _ => ?_) _ ?_ | assumption | refine Kept.ite ?_ ?_ | split
    | refine Kept.upd ?_ ⟨rfl, rfl⟩
theorem State.beginTraining_kept {p} (h : Kept s₀ s₁) : Kept s₀ (State.beginTraining s₁ p) := by
  unfold State.beginTraining
  extract_lets chans s2
  have h2 : Kept s₀ s2 := Kept.foldl _ (fun _ _ h => State.setFld_kept (State.mcCfg_kept (State.resetRegs_kept
    (State.resetRegs_kept (Kept.upd h ⟨rfl, rfl⟩))))) _ h
  clear_value s2
  cases s2.lpSet p with
  | none => exact h2
  | some q =>
    exact State.draw_kept (Kept.updMem h2 fun w => by
      have := Memory.lost_wf s2.mem q.base (q.chans.length * s2.chanBytes) s2.fresh
        (s2.mem.zero q.base (q.base + q.chans.length * s2.chanBytes - q.base)).bad w
      simpa using this)
theorem State.resetUnits_kept {p train} (h : Kept s₀ s₁) : Kept s₀ (State.resetUnits s₁ p train) := by
  unfold State.resetUnits
  try dsimp only
  with_reducible repeat' first
    | exact h | apply State.clearPart_kept | apply State.freePool_kept | apply State.resetPorts_kept
    | apply State.resetS_kept | apply State.trainPorts_kept | apply State.gateFreed_kept | apply State.takeAll_kept
    | apply State.resetClusters_kept | apply State.outOfService_kept | apply State.repairFailed_kept
    | apply State.beginTraining_kept | apply State.showSi_kept | apply State.modReset_kept
    | refine State.resetClusters_kept' ‹_› ?_ | refine Kept.ite ?_ ?_ | split
theorem State.bootTests_kept {p} (h : Kept s₀ s₁) : Kept s₀ (State.bootTests s₁ p) := by
  unfold State.bootTests
  try dsimp only
  with_reducible repeat' first
    | exact h | apply State.fullBist_kept | apply State.resetClusters_kept | apply State.outOfService_kept
    | apply State.repairFailed_kept | apply State.modReset_kept | apply State.sBanks_kept
    | apply State.loadSensors_kept | apply State.comparatorTest_kept | refine State.resetClusters_kept' ‹_› ?_
    | refine Kept.ite ?_ ?_ | split
theorem State.heldState_kept {p} (h : Kept s₀ s₁) : Kept s₀ (State.heldState s₁ p) := by
  unfold State.heldState
  try dsimp only
  with_reducible repeat' first
    | exact h | apply State.raise_kept | apply State.setRecState_kept | apply State.dropReset_kept
theorem State.reloadProgram_kept {p} (h : Kept s₀ s₁) : Kept s₀ (State.reloadProgram s₁ p) := by
  unfold State.reloadProgram
  split
  · extract_lets s2 inside
    have h2 : Kept s₀ s2 := Kept.upd h ⟨rfl, rfl⟩
    clear_value inside s2
    refine Kept.ite (State.heldState_kept h2) ?_
    split
    · next hq =>
      have ht := State.startProgram_kept hq h2
      exact Kept.ite (State.modReset_kept ht) (State.endReset_kept ht)
    · exact State.heldState_kept (State.raise_kept h2)
    · exact State.heldState_kept h2
  · exact State.endReset_kept h
theorem State.askUncounted_kept {p cmd} (h : Kept s₀ s₁) : Kept s₀ (State.askUncounted s₁ p cmd) := by
  unfold State.askUncounted
  try dsimp only
  with_reducible repeat' first
    | exact h | apply State.modReset_kept | refine Kept.ite ?_ ?_ | split | refine Kept.upd ?_ ⟨rfl, rfl⟩
theorem execPartitionReset_kept {p} (h : Kept s₀ s₁) : ∃ t₀, execPartitionReset p s₁ = .next t₀ ∧ Kept s₀ t₀ := by
  unfold execPartitionReset
  refine ⟨_, rfl, ?_⟩
  try dsimp only
  with_reducible repeat' first
    | exact h | apply State.safeState_kept | apply State.modReset_kept | apply State.setRecState_kept
    | apply State.errUpdate_kept | apply State.drainPart_kept | apply State.resetUnits_kept
    | apply State.bootTests_kept | apply State.reloadProgram_kept | refine Kept.ite ?_ ?_ | split
    | refine Kept.upd ?_ ⟨rfl, rfl⟩
theorem execResetOverrun_kept {p} (h : Kept s₀ s₁) : ∃ t₀, execResetOverrun p s₁ = .next t₀ ∧ Kept s₀ t₀ := by
  unfold execResetOverrun
  refine ⟨_, rfl, ?_⟩
  try dsimp only
  with_reducible repeat' first
    | exact h | apply State.raise_kept | apply State.modReset_kept | refine Kept.ite ?_ ?_ | split
theorem State.partReset_kept {ring idx k} (h : Kept s₀ s₁) : Kept s₀ (State.partReset s₁ ring idx k) := by
  unfold State.partReset
  try dsimp only
  with_reducible repeat' first
    | exact h | apply State.complete_kept | apply State.askUncounted_kept | refine Kept.ite ?_ ?_ | split
    | refine Kept.upd ?_ ⟨rfl, rfl⟩
theorem execPartReset_kept {ring idx} (h : Kept s₀ s₁) : ∃ t₀, execPartReset ring idx s₁ = .next t₀ ∧ Kept s₀ t₀ := by
  unfold execPartReset
  refine ⟨_, rfl, ?_⟩
  try dsimp only
  with_reducible repeat' first
    | exact h | refine State.mbox_kept ?_ (fun _ _ _ => ?_) | assumption | apply State.partReset_kept
theorem State.rebirth_pending {s : State} {keep} : (s.rebirth keep).pending = s.pending := rfl
theorem State.rebirth_regs {s : State} {keep} (h : s.regsWf = true) : (s.rebirth keep).regsWf = true := by
  unfold State.rebirth
  refine (State.wr_kept (State.wr_kept (Kept.refl _))).regs ?_
  exact filter_wf _ _ _ _ h fun _ _ _ => rfl
theorem State.deviceReset_kept (h : Kept s₀ s₁) : Kept s₀ (State.deviceReset s₁) := by
  unfold State.deviceReset
  exact State.draw_kept ⟨h.pending, h.aon, fun _ => rfl, fun w => State.rebirth_regs (h.regs w), .inr ⟨rfl, rfl⟩⟩
theorem execDeviceReset_kept (h : Kept s₀ s₁) : ∃ t₀, execDeviceReset s₁ = .next t₀ ∧ Kept s₀ t₀ := by
  unfold execDeviceReset
  refine ⟨_, rfl, ?_⟩
  try dsimp only
  with_reducible repeat' first | exact h | apply State.deviceReset_kept | refine Kept.ite ?_ ?_ | split
theorem execResetN_kept {asserted} (h : Kept s₀ s₁) : ∃ t₀, execResetN asserted s₁ = .next t₀ ∧ Kept s₀ t₀ := by
  unfold execResetN
  refine ⟨_, rfl, ?_⟩
  try dsimp only
  with_reducible repeat' first
    | exact h | apply State.deviceReset_kept | refine Kept.ite ?_ ?_ | split | refine Kept.upd ?_ ⟨rfl, rfl⟩
theorem execPwrGoodFall_kept (h : Kept s₀ s₁) : ∃ t₀, execPwrGoodFall s₁ = .next t₀ ∧ Kept s₀ t₀ := by
  unfold execPwrGoodFall
  refine ⟨_, rfl, ?_⟩
  try dsimp only
  with_reducible repeat' first
    | exact h | apply State.deviceReset_kept | refine Kept.ite ?_ ?_ | split | refine Kept.upd ?_ ⟨rfl, rfl⟩
theorem State.fwFailed_kept {code} (h : Kept s₀ s₁) : Kept s₀ (State.fwFailed s₁ code) := by
  unfold State.fwFailed
  try dsimp only
  with_reducible repeat' first | exact h | apply State.raise_kept | refine Kept.ite ?_ ?_
theorem State.deviceRecords_kept (h : Kept s₀ s₁) : Kept s₀ (State.deviceRecords s₁) := by
  unfold State.deviceRecords
  try dsimp only
  with_reducible repeat' first
    | exact h | apply State.applySev_kept | apply State.takeRecords_kept | apply State.wr_kept
    | apply State.genRestart_kept | apply State.spoutLoad_kept | refine Kept.foldl _ (fun _ _ _ => ?_) _ ?_
    | refine Kept.foldlSnd _ (fun _ _ _ => ?_) _ ?_ | assumption | refine Kept.ite ?_ ?_ | split
    | refine Kept.upd ?_ ⟨rfl, rfl⟩
theorem State.bootParts_kept (h : Kept s₀ s₁) : Kept s₀ (State.bootParts s₁) := by
  unfold State.bootParts
  try dsimp only
  with_reducible repeat' first
    | exact h | apply State.takeAll_kept | apply State.gateFreed_kept | apply State.fullBist_kept
    | apply State.resetClusters_kept | apply State.outOfService_kept | apply State.repairFailed_kept
    | apply State.setRecState_kept | apply State.sBanks_kept | apply State.loadSensors_kept
    | apply State.comparatorTest_kept | refine State.resetClusters_kept' ‹_› ?_
    | refine Kept.foldl _ (fun _ _ _ => ?_) _ ?_ | refine Kept.foldlSnd _ (fun _ _ _ => ?_) _ ?_ | assumption
    | refine Kept.ite ?_ ?_ | split
theorem State.newChallenge_kept (h : Kept s₀ s₁) : Kept s₀ (State.newChallenge s₁) := by
  unfold State.newChallenge
  try dsimp only
  with_reducible repeat' first
    | exact h | apply State.wrDigest_kept | refine Kept.ite ?_ ?_ | split | refine Kept.upd ?_ ⟨rfl, rfl⟩
theorem State.stewardBoot_kept (h : Kept s₀ s₁) : Kept s₀ (State.stewardBoot s₁) := by
  unfold State.stewardBoot
  try dsimp only
  with_reducible repeat' first
    | exact h | apply State.setFld_kept | apply State.spTrain_kept | apply State.wr_kept | apply State.extendMr_kept
    | apply State.bootParts_kept | apply State.deviceRecords_kept | apply State.draw_kept | apply State.wr64_kept
    | apply State.raiseAt_kept | apply State.showSi_kept | refine Kept.foldl _ (fun _ _ _ => ?_) _ ?_
    | refine Kept.foldlSnd _ (fun _ _ _ => ?_) _ ?_ | assumption | refine Kept.ite ?_ ?_ | split
    | refine Kept.upd ?_ ⟨rfl, rfl⟩
theorem State.commitSvn_kept {commit svn} (h : Kept s₀ s₁) : Kept s₀ (State.commitSvn s₁ commit svn) := by
  unfold State.commitSvn
  try dsimp only
  with_reducible repeat' first | exact h | apply State.setFld_kept | refine Kept.ite ?_ ?_
theorem State.bootFrom_kept {img source} (h : Kept s₀ s₁) : Kept s₀ (State.bootFrom s₁ img source) := by
  unfold State.bootFrom
  try dsimp only
  with_reducible repeat' first
    | exact h | apply State.commitSvn_kept | apply State.wr_kept | apply State.extendMr_kept | apply State.setFld_kept
    | apply State.stewardBoot_kept | apply State.raise_kept | refine Kept.ite ?_ ?_ | split
    | refine Kept.upd ?_ ⟨rfl, rfl⟩
theorem State.recoveryBoot_kept (h : Kept s₀ s₁) : Kept s₀ (State.recoveryBoot s₁) := by
  unfold State.recoveryBoot
  try dsimp only
  with_reducible repeat' first
    | exact h | apply State.setFld_kept | refine Kept.ite ?_ ?_ | split | refine Kept.upd ?_ ⟨rfl, rfl⟩
theorem State.releaseReset_kept {straps} (h : Kept s₀ s₁) : Kept s₀ (State.releaseReset s₁ straps) := by
  unfold State.releaseReset
  try dsimp only
  with_reducible repeat' first
    | exact h | apply State.wr_kept | apply State.setFld_kept | apply State.newChallenge_kept
    | apply State.extendMr_kept | apply State.bootFrom_kept | apply State.recoveryBoot_kept
    | apply State.fwFailed_kept | refine Kept.ite ?_ ?_ | split | refine Kept.upd ?_ ⟨rfl, rfl⟩
theorem execInternalResetRelease_kept {straps otp} (h : Kept s₀ s₁) : ∃ t₀, execInternalResetRelease straps otp s₁ = .next t₀ ∧ Kept s₀ t₀ := by
  unfold execInternalResetRelease
  refine ⟨_, rfl, ?_⟩
  try dsimp only
  with_reducible repeat' first
    | exact h | apply State.releaseReset_kept | apply State.raise_kept | refine Kept.ite ?_ ?_ | split
    | refine Kept.upd ?_ ⟨rfl, rfl⟩
theorem State.recoveryRecord_kept {v} (h : Kept s₀ s₁) : Kept s₀ (State.recoveryRecord s₁ v) := by
  unfold State.recoveryRecord
  try dsimp only
  with_reducible repeat' first
    | exact h | apply State.judge_kept | apply State.fwFailed_kept | apply State.setFld_kept | apply State.stn_kept
    | apply State.bootFrom_kept | refine State.judge_kept' ‹_› ?_ | refine Kept.ite ?_ ?_ | split
    | refine Kept.upd ?_ ⟨rfl, rfl⟩
theorem execRecoveryPoll_kept {verdict} (h : Kept s₀ s₁) : ∃ t₀, execRecoveryPoll verdict s₁ = .next t₀ ∧ Kept s₀ t₀ := by
  unfold execRecoveryPoll
  refine ⟨_, rfl, ?_⟩
  try dsimp only
  with_reducible repeat' first
    | exact h | apply State.recoveryRecord_kept | refine Kept.ite ?_ ?_ | split | refine Kept.upd ?_ ⟨rfl, rfl⟩
theorem execChannelTrainingEnd_kept {ch ok agree} (h : Kept s₀ s₁) : ∃ t₀, execChannelTrainingEnd ch ok agree s₁ = .next t₀ ∧ Kept s₀ t₀ := by
  unfold execChannelTrainingEnd
  refine ⟨_, rfl, ?_⟩
  try dsimp only
  with_reducible repeat' first
    | exact h | apply State.setFld_kept | apply State.mcCfg_kept | apply State.outOfService_kept
    | apply State.raise_kept | refine Kept.ite ?_ ?_ | split | refine Kept.upd ?_ ⟨rfl, rfl⟩
theorem State.takeover_kept {cause} (h : Kept s₀ s₁) : Kept s₀ (State.takeover s₁ cause) := by
  unfold State.takeover
  try dsimp only
  with_reducible repeat' first
    | exact h | apply State.wr_kept | apply State.setFld_kept | apply State.orReg_kept | apply State.abortPart_kept
    | apply State.stopDispatcher_kept | apply State.crashCopy_kept | apply State.deviceSafe_kept
    | refine Kept.foldl _ (fun _ _ _ => ?_) _ ?_ | refine Kept.foldlSnd _ (fun _ _ _ => ?_) _ ?_ | assumption
    | refine Kept.ite ?_ ?_ | split | refine Kept.upd ?_ ⟨rfl, rfl⟩
theorem execLastResortTakeover_kept {cause} (h : Kept s₀ s₁) : ∃ t₀, execLastResortTakeover cause s₁ = .next t₀ ∧ Kept s₀ t₀ := by
  unfold execLastResortTakeover
  refine ⟨_, rfl, ?_⟩
  try dsimp only
  with_reducible repeat' first | exact h | apply State.takeover_kept | refine Kept.ite ?_ ?_
theorem execPmLrsReq_kept {r value} (h : Kept s₀ s₁) : ∃ t₀, execPmLrsReq r value s₁ = .next t₀ ∧ Kept s₀ t₀ := by
  unfold execPmLrsReq
  refine ⟨_, rfl, ?_⟩
  try dsimp only
  with_reducible repeat' first | exact h | apply State.takeover_kept | refine Kept.ite ?_ ?_
theorem execUrnHbCheck_kept (h : Kept s₀ s₁) : ∃ t₀, execUrnHbCheck s₁ = .next t₀ ∧ Kept s₀ t₀ := by
  unfold execUrnHbCheck
  refine ⟨_, rfl, ?_⟩
  try dsimp only
  with_reducible repeat' first
    | exact h | apply State.takeover_kept | refine Kept.ite ?_ ?_ | split | refine Kept.upd ?_ ⟨rfl, rfl⟩
theorem execAutoReset_kept (h : Kept s₀ s₁) : ∃ t₀, execAutoReset s₁ = .next t₀ ∧ Kept s₀ t₀ := by
  unfold execAutoReset
  refine ⟨_, rfl, ?_⟩
  try dsimp only
  with_reducible repeat' first | exact h | apply State.deviceReset_kept | refine Kept.ite ?_ ?_ | split
theorem State.fwStage_kept {ring idx k v} (h : Kept s₀ s₁) : Kept s₀ (State.fwStage s₁ ring idx k v) := by
  unfold State.fwStage
  try dsimp only
  with_reducible repeat' first
    | exact h | apply State.complete_kept | apply State.memRead_kept | apply State.judge_kept
    | apply State.fwFailed_kept | apply State.setFld_kept | refine State.memRead_kept' ‹_› ?_
    | refine State.judge_kept' ‹_› ?_ | refine Kept.ite ?_ ?_ | split | refine Kept.upd ?_ ⟨rfl, rfl⟩
theorem execFwStage_kept {ring idx verdict} (h : Kept s₀ s₁) : ∃ t₀, execFwStage ring idx verdict s₁ = .next t₀ ∧ Kept s₀ t₀ := by
  unfold execFwStage
  refine ⟨_, rfl, ?_⟩
  try dsimp only
  with_reducible repeat' first
    | exact h | refine State.mbox_kept ?_ (fun _ _ _ => ?_) | assumption | apply State.fwStage_kept
    | refine Kept.ite ?_ ?_ | split
theorem State.swapBanks_kept {img} (h : Kept s₀ s₁) : Kept s₀ (State.swapBanks s₁ img) := by
  unfold State.swapBanks
  try dsimp only
  with_reducible repeat' first | exact h | refine Kept.ite ?_ ?_ | split | refine Kept.upd ?_ ⟨rfl, rfl⟩
theorem execFwSwitchover_kept (h : Kept s₀ s₁) : ∃ t₀, execFwSwitchover s₁ = .next t₀ ∧ Kept s₀ t₀ := by
  unfold execFwSwitchover
  refine ⟨_, rfl, ?_⟩
  try dsimp only
  with_reducible repeat' first
    | exact h | apply State.setFld_kept | apply State.swapBanks_kept | refine Kept.ite ?_ ?_ | split
    | refine Kept.upd ?_ ⟨rfl, rfl⟩
theorem execConfirm_kept {r} (h : Kept s₀ s₁) : ∃ t₀, execConfirm r s₁ = .next t₀ ∧ Kept s₀ t₀ := by
  unfold execConfirm
  refine ⟨_, rfl, ?_⟩
  try dsimp only
  with_reducible repeat' first
    | exact h | apply State.setFld_kept | apply State.extendMr_kept | apply State.wrDigest_kept
    | refine Kept.ite ?_ ?_ | split | refine Kept.upd ?_ ⟨rfl, rfl⟩
theorem execFwSwitchFail_kept (h : Kept s₀ s₁) : ∃ t₀, execFwSwitchFail s₁ = .next t₀ ∧ Kept s₀ t₀ := by
  unfold execFwSwitchFail
  refine ⟨_, rfl, ?_⟩
  try dsimp only
  with_reducible repeat' first
    | exact h | apply State.setFld_kept | apply State.swapBanks_kept | apply State.raise_kept | refine Kept.ite ?_ ?_
    | split | refine Kept.upd ?_ ⟨rfl, rfl⟩
theorem execFlashRewriteEnd_kept {matchOk} (h : Kept s₀ s₁) : ∃ t₀, execFlashRewriteEnd matchOk s₁ = .next t₀ ∧ Kept s₀ t₀ := by
  unfold execFlashRewriteEnd
  refine ⟨_, rfl, ?_⟩
  try dsimp only
  with_reducible repeat' first
    | exact h | apply State.commitSvn_kept | apply State.setFld_kept | refine Kept.ite ?_ ?_ | split
    | refine Kept.upd ?_ ⟨rfl, rfl⟩
theorem State.scramble_kept {b n} (h : Kept s₀ s₁) : Kept s₀ (State.scramble s₁ b n) :=
  Kept.updMem h fun w => Memory.write_wf _ _ _ w
theorem State.burstCorrected_kept {c cha a patrol} (h : Kept s₀ s₁) : Kept s₀ (State.burstCorrected s₁ c cha a patrol) := by
  unfold State.burstCorrected
  try dsimp only
  with_reducible repeat' first
    | exact h | apply State.mcNote_kept | refine Kept.ite ?_ ?_ | split | refine Kept.upd ?_ ⟨rfl, rfl⟩
theorem State.burstLost_kept {a} (h : Kept s₀ s₁) : Kept s₀ (State.burstLost s₁ a) := Kept.updMem h (Memory.wf_iff _ _ rfl rfl)
theorem State.retryGood_kept {r c cha a} (h : Kept s₀ s₁) : Kept s₀ (State.retryGood s₁ r c cha a) := by
  unfold State.retryGood
  try dsimp only
  with_reducible repeat' first
    | exact h | apply State.raise_kept | apply State.countUp_kept | apply State.mcNote_kept | refine Kept.ite ?_ ?_
    | split | refine Kept.upd ?_ ⟨rfl, rfl⟩
theorem State.burstDecode_kept {r a badSymbols} (h : Kept s₀ s₁) : Kept s₀ (State.burstDecode s₁ r a badSymbols) := by
  unfold State.burstDecode
  try dsimp only
  with_reducible repeat' first
    | exact h | apply State.retryGood_kept | apply State.burstLost_kept | apply State.burstCorrected_kept
    | apply State.scramble_kept | refine Kept.ite ?_ ?_ | split | refine Kept.upd ?_ ⟨rfl, rfl⟩
theorem State.lpServe_kept {x a} (h : Kept s₀ s₁) : Kept s₀ (State.lpServe s₁ x a) := by
  unfold State.lpServe
  try dsimp only
  with_reducible repeat' first
    | exact h | apply State.reqViolation_kept | apply State.memRead_kept | apply State.answer_kept
    | apply State.failTask_kept | apply State.memWrite_kept | apply State.atomicReq_kept | apply State.raiseReq_kept
    | refine State.memRead_kept' ‹_› ?_ | refine State.memWrite_kept' ‹_› ?_ | refine Kept.ite ?_ ?_ | split
theorem execLpddr6Request_kept {x badSymbols} (h : Kept s₀ s₁) : ∃ t₀, execLpddr6Request x badSymbols s₁ = .next t₀ ∧ Kept s₀ t₀ := by
  unfold execLpddr6Request
  refine ⟨_, rfl, ?_⟩
  try dsimp only
  with_reducible repeat' first
    | exact h | apply State.lpServe_kept | apply State.burstDecode_kept | refine Kept.ite ?_ ?_ | split
theorem execMcWriteBack_kept {ch} (h : Kept s₀ s₁) : ∃ t₀, execMcWriteBack ch s₁ = .next t₀ ∧ Kept s₀ t₀ := by
  unfold execMcWriteBack
  refine ⟨_, rfl, ?_⟩
  try dsimp only
  with_reducible repeat' first
    | exact h | apply State.raise_kept | apply State.countUp_kept | refine Kept.ite ?_ ?_ | split
    | refine Kept.upd ?_ ⟨rfl, rfl⟩
theorem execRefresh_kept {_ch _bank} (h : Kept s₀ s₁) : ∃ t₀, execRefresh _ch _bank s₁ = .next t₀ ∧ Kept s₀ t₀ := by
  unfold execRefresh
  refine ⟨_, rfl, ?_⟩
  try dsimp only
  with_reducible repeat' first | exact h
theorem execTemperatureReportRead_kept {ch report} (h : Kept s₀ s₁) : ∃ t₀, execTemperatureReportRead ch report s₁ = .next t₀ ∧ Kept s₀ t₀ := by
  unfold execTemperatureReportRead
  refine ⟨_, rfl, ?_⟩
  try dsimp only
  with_reducible repeat' first | exact h | apply State.raise_kept | apply State.setFld_kept | refine Kept.ite ?_ ?_
theorem execDqsOscillatorRead_kept {ch rank count} (h : Kept s₀ s₁) : ∃ t₀, execDqsOscillatorRead ch rank count s₁ = .next t₀ ∧ Kept s₀ t₀ := by
  unfold execDqsOscillatorRead
  refine ⟨_, rfl, ?_⟩
  try dsimp only
  with_reducible repeat' first | exact h | apply State.setFld_kept | apply State.raise_kept | refine Kept.ite ?_ ?_
theorem State.patrolBurst_kept {c cha a badSymbols} (h : Kept s₀ s₁) : Kept s₀ (State.patrolBurst s₁ c cha a badSymbols) := by
  unfold State.patrolBurst
  try dsimp only
  with_reducible repeat' first
    | exact h | apply State.raise_kept | apply State.countUp_kept | apply State.mcNote_kept
    | apply State.burstLost_kept | apply State.burstCorrected_kept | apply State.scramble_kept | refine Kept.ite ?_ ?_
    | split | refine Kept.upd ?_ ⟨rfl, rfl⟩
theorem execPatrol_kept {ch badSymbols} (h : Kept s₀ s₁) : ∃ t₀, execPatrol ch badSymbols s₁ = .next t₀ ∧ Kept s₀ t₀ := by
  unfold execPatrol
  refine ⟨_, rfl, ?_⟩
  try dsimp only
  with_reducible repeat' first
    | exact h | apply State.patrolBurst_kept | apply State.countUp_kept | refine Kept.ite ?_ ?_ | split
    | refine Kept.upd ?_ ⟨rfl, rfl⟩
theorem State.siEnd_kept {ring idx code} (h : Kept s₀ s₁) : Kept s₀ (State.siEnd s₁ ring idx code) := by
  unfold State.siEnd
  try dsimp only
  with_reducible repeat' first | exact h | apply State.complete_kept | apply State.setFld_kept
theorem State.siAccept_kept {ring idx img} (h : Kept s₀ s₁) : Kept s₀ (State.siAccept s₁ ring idx img) := by
  unfold State.siAccept
  try dsimp only
  with_reducible repeat' first
    | exact h | apply State.setFld_kept | refine Kept.ite ?_ ?_ | split | refine Kept.upd ?_ ⟨rfl, rfl⟩
theorem State.siFail_kept {ring idx img code} (h : Kept s₀ s₁) : Kept s₀ (State.siFail s₁ ring idx img code) := by
  unfold State.siFail
  try dsimp only
  with_reducible repeat' first | exact h | apply State.raise_kept | apply State.siEnd_kept | refine Kept.ite ?_ ?_
theorem State.siChecked_kept {ring idx img edOk mlOk} (h : Kept s₀ s₁) : Kept s₀ (State.siChecked s₁ ring idx img edOk mlOk) := by
  unfold State.siChecked
  try dsimp only
  with_reducible repeat' first
    | exact h | apply State.judge_kept | apply State.siAccept_kept | apply State.siFail_kept
    | refine State.judge_kept' ‹_› ?_ | refine Kept.ite ?_ ?_
theorem execSiSubmit_kept {ring idx edOk mlOk} (h : Kept s₀ s₁) : ∃ t₀, execSiSubmit ring idx edOk mlOk s₁ = .next t₀ ∧ Kept s₀ t₀ := by
  unfold execSiSubmit
  refine ⟨_, rfl, ?_⟩
  try dsimp only
  with_reducible repeat' first
    | exact h | apply State.begin__kept | apply State.siEnd_kept | apply State.siChecked_kept
    | apply State.memRead_kept | refine State.memRead_kept' ‹_› ?_ | refine Kept.ite ?_ ?_ | split
theorem State.takeHotDevice_kept (h : Kept s₀ s₁) : Kept s₀ (State.takeHotDevice s₁) := by
  unfold State.takeHotDevice
  try dsimp only
  with_reducible repeat' first
    | exact h | apply State.takeRecords_kept | apply State.applySev_kept | apply State.spoutLoad_kept
    | refine Kept.ite ?_ ?_ | split | refine Kept.upd ?_ ⟨rfl, rfl⟩
theorem State.markSwitch_kept (h : Kept s₀ s₁) : Kept s₀ (State.markSwitch s₁) := by
  unfold State.markSwitch
  try dsimp only
  with_reducible repeat' first | exact h | apply State.wr64_kept

end Sys2Proof.Machine
end

