-- ==== Sys2Proof/Laws/KeptHost.lean ====
section
/-! SUPPORT. One lemma per effect (`<name>_kept`): the effect keeps what `Kept` says. This file:
boot, the Safety Island, the caddy, power, the host side, register writes and running movers. -/

namespace Sys2Proof.Machine

variable {s₀ s₁ : State}

theorem State.firstSets_kept (h : Kept s₀ s₁) : Kept s₀ (State.firstSets s₁) := by
  unfold State.firstSets
  try dsimp only
  with_reducible repeat' first
    | exact h | apply State.setRecord_kept | apply State.mcCfg_kept | apply State.gateFreed_kept
    | refine Kept.foldl _ (fun _ _ _ => ?_) _ ?_ | refine Kept.foldlSnd _ (fun _ _ _ => ?_) _ ?_ | assumption
    | refine Kept.ite ?_ ?_ | split | refine Kept.upd ?_ ⟨rfl, rfl⟩
theorem State.adopt_kept {img revoked} (h : Kept s₀ s₁) : Kept s₀ (State.adopt s₁ img revoked) := by
  unfold State.adopt
  try dsimp only
  with_reducible repeat' first
    | exact h | apply State.extendMr_kept | apply State.setFld_kept | apply State.firstSets_kept
    | apply State.takeHot_kept | apply State.markSwitch_kept | apply State.takeHotDevice_kept
    | apply State.showSi_kept | refine Kept.foldl _ (fun _ _ _ => ?_) _ ?_
    | refine Kept.foldlSnd _ (fun _ _ _ => ?_) _ ?_ | assumption | refine Kept.ite ?_ ?_ | split
    | refine Kept.upd ?_ ⟨rfl, rfl⟩
theorem execImageAcceptance_kept (h : Kept s₀ s₁) : ∃ t₀, execImageAcceptance s₁ = .next t₀ ∧ Kept s₀ t₀ := by
  unfold execImageAcceptance
  refine ⟨_, rfl, ?_⟩
  try dsimp only
  with_reducible repeat' first
    | exact h | apply State.wr_kept | apply State.siEnd_kept | apply State.adopt_kept | refine Kept.ite ?_ ?_ | split
theorem execHotSwitch_kept {p} (h : Kept s₀ s₁) : ∃ t₀, execHotSwitch p s₁ = .next t₀ ∧ Kept s₀ t₀ := by
  unfold execHotSwitch
  refine ⟨_, rfl, ?_⟩
  try dsimp only
  with_reducible repeat' first
    | exact h | apply State.switchTable_kept | apply State.applySlots_kept | apply State.applySev_kept
    | apply State.takeRecords_kept | apply State.takeHotDevice_kept | apply State.showSi_kept
    | apply State.markSwitch_kept | refine Kept.ite ?_ ?_ | split | refine Kept.upd ?_ ⟨rfl, rfl⟩
theorem execSiRevert_kept {ring idx} (h : Kept s₀ s₁) : ∃ t₀, execSiRevert ring idx s₁ = .next t₀ ∧ Kept s₀ t₀ := by
  unfold execSiRevert
  refine ⟨_, rfl, ?_⟩
  try dsimp only
  with_reducible repeat' first
    | exact h | refine State.mbox_kept ?_ (fun _ _ _ => ?_) | assumption | apply State.siEnd_kept
    | apply State.adopt_kept | refine Kept.ite ?_ ?_
theorem State.refuseAny_kept {ring idx} (h : Kept s₀ s₁) : Kept s₀ (State.refuseAny s₁ ring idx) := by
  unfold State.refuseAny
  try dsimp only
  with_reducible repeat' first
    | exact h | apply State.complete_kept | refine Kept.ite ?_ ?_ | split | refine Kept.upd ?_ ⟨rfl, rfl⟩
theorem State.signedReport_kept {nonce} (h : Kept s₀ s₁) : Kept s₀ (State.signedReport s₁ nonce).2 := by
  unfold State.signedReport
  try dsimp only
  with_reducible repeat' first | exact h | refine Kept.ite ?_ ?_ | split | refine Kept.upd ?_ ⟨rfl, rfl⟩
theorem State.signedReport_kept' {nonce} {r₀ u₀} (hq : State.signedReport s₁ nonce = (r₀, u₀)) (h : Kept s₀ s₁) : Kept s₀ u₀ := by
  have := @State.signedReport_kept s₀ s₁ nonce h
  rw [hq] at this
  exact this
theorem execAttest_kept {ring idx} (h : Kept s₀ s₁) : ∃ t₀, execAttest ring idx s₁ = .next t₀ ∧ Kept s₀ t₀ := by
  unfold execAttest
  refine ⟨_, rfl, ?_⟩
  try dsimp only
  with_reducible repeat' first
    | exact h | apply State.begin__kept | apply State.complete_kept | apply State.memRead_kept
    | apply State.refuseAny_kept | apply State.signedReport_kept | apply State.memWrite_kept
    | refine State.memRead_kept' ‹_› ?_ | refine State.signedReport_kept' ‹_› ?_ | refine State.memWrite_kept' ‹_› ?_
    | refine Kept.ite ?_ ?_ | split
theorem execCertRead_kept {ring idx} (h : Kept s₀ s₁) : ∃ t₀, execCertRead ring idx s₁ = .next t₀ ∧ Kept s₀ t₀ := by
  unfold execCertRead
  refine ⟨_, rfl, ?_⟩
  try dsimp only
  with_reducible repeat' first
    | exact h | apply State.begin__kept | apply State.complete_kept | apply State.memWrite_kept
    | apply State.refuseAny_kept | refine State.memWrite_kept' ‹_› ?_ | refine Kept.ite ?_ ?_ | split
theorem State.setOwner_kept {slot v} (h : Kept s₀ s₁) : Kept s₀ (State.setOwner s₁ slot v) := by
  unfold State.setOwner
  try dsimp only
  with_reducible repeat' first | exact h | apply State.setFld_kept
theorem State.enrol_kept {l} (h : Kept s₀ s₁) : Kept s₀ (State.enrol s₁ l) := by
  unfold State.enrol
  try dsimp only
  with_reducible repeat' first
    | exact h | apply State.setFld_kept | apply State.setOwner_kept | refine Kept.ite ?_ ?_ | split
    | refine Kept.upd ?_ ⟨rfl, rfl⟩
theorem State.ownerCmd_kept {ring idx op k v} (h : Kept s₀ s₁) : Kept s₀ (State.ownerCmd s₁ ring idx op k v) := by
  unfold State.ownerCmd
  try dsimp only
  with_reducible repeat' first
    | exact h | apply State.memRead_kept | apply State.judge_kept | apply State.complete_kept
    | apply State.newChallenge_kept | apply State.enrol_kept | apply State.setOwner_kept | apply State.raise_kept
    | refine State.memRead_kept' ‹_› ?_ | refine State.judge_kept' ‹_› ?_ | refine Kept.ite ?_ ?_
theorem State.ownerRun_kept {ring idx opcode op v} (h : Kept s₀ s₁) : Kept s₀ (State.ownerRun s₁ ring idx opcode op v) := by
  unfold State.ownerRun
  try dsimp only
  with_reducible repeat' first
    | exact h | apply State.ownerCmd_kept | apply State.begin__kept | refine Kept.ite ?_ ?_ | split
theorem execOwnerEnrol_kept {ring idx verdict} (h : Kept s₀ s₁) : ∃ t₀, execOwnerEnrol ring idx verdict s₁ = .next t₀ ∧ Kept s₀ t₀ := by
  unfold execOwnerEnrol
  refine ⟨_, rfl, ?_⟩
  try dsimp only
  with_reducible repeat' first | exact h | apply State.ownerRun_kept
theorem execOwnerRevoke_kept {ring idx verdict} (h : Kept s₀ s₁) : ∃ t₀, execOwnerRevoke ring idx verdict s₁ = .next t₀ ∧ Kept s₀ t₀ := by
  unfold execOwnerRevoke
  refine ⟨_, rfl, ?_⟩
  try dsimp only
  with_reducible repeat' first | exact h | apply State.ownerRun_kept
theorem execSiMinRaise_kept {ring idx} (h : Kept s₀ s₁) : ∃ t₀, execSiMinRaise ring idx s₁ = .next t₀ ∧ Kept s₀ t₀ := by
  unfold execSiMinRaise
  refine ⟨_, rfl, ?_⟩
  try dsimp only
  with_reducible repeat' first
    | exact h | refine State.mbox_kept ?_ (fun _ _ _ => ?_) | assumption | apply State.complete_kept
    | apply State.wr_kept | refine Kept.ite ?_ ?_ | split
theorem State.showExt_kept (h : Kept s₀ s₁) : Kept s₀ (State.showExt s₁) := by
  unfold State.showExt
  try dsimp only
  with_reducible repeat' first | exact h | apply State.setFld_kept
theorem execCadExtCmd_kept {r value} (h : Kept s₀ s₁) : ∃ t₀, execCadExtCmd r value s₁ = .next t₀ ∧ Kept s₀ t₀ := by
  unfold execCadExtCmd
  refine ⟨_, rfl, ?_⟩
  try dsimp only
  with_reducible repeat' first
    | exact h | apply State.orReg_kept | apply State.showExt_kept | refine Kept.ite ?_ ?_ | split
    | refine Kept.upd ?_ ⟨rfl, rfl⟩
theorem State.applyExt_kept (h : Kept s₀ s₁) : Kept s₀ (State.applyExt s₁) := by
  unfold State.applyExt
  try dsimp only
  with_reducible repeat' first
    | exact h | apply State.showExt_kept | apply State.extendMr_kept | refine Kept.ite ?_ ?_ | split
    | refine Kept.upd ?_ ⟨rfl, rfl⟩
theorem execCadTrngFail_kept (h : Kept s₀ s₁) : ∃ t₀, execCadTrngFail s₁ = .next t₀ ∧ Kept s₀ t₀ := by
  unfold execCadTrngFail
  refine ⟨_, rfl, ?_⟩
  try dsimp only
  with_reducible repeat' first | exact h | apply State.raise_kept | apply State.setFld_kept
theorem execTrngOkReturn_kept (h : Kept s₀ s₁) : ∃ t₀, execTrngOkReturn s₁ = .next t₀ ∧ Kept s₀ t₀ := by
  unfold execTrngOkReturn
  refine ⟨_, rfl, ?_⟩
  try dsimp only
  with_reducible repeat' first | exact h | apply State.orReg_kept
theorem State.pmBegin_kept {target} (h : Kept s₀ s₁) : Kept s₀ (State.pmBegin s₁ target) := by
  unfold State.pmBegin
  try dsimp only
  with_reducible repeat' first
    | exact h | apply State.setFld_kept | apply State.park_kept | refine Kept.foldl _ (fun _ _ _ => ?_) _ ?_
    | refine Kept.foldlSnd _ (fun _ _ _ => ?_) _ ?_ | assumption | refine Kept.ite ?_ ?_ | split
    | refine Kept.upd ?_ ⟨rfl, rfl⟩
theorem State.pmCommand_kept {r target} (h : Kept s₀ s₁) : Kept s₀ (State.pmCommand s₁ r target) := by
  unfold State.pmCommand
  try dsimp only
  with_reducible repeat' first | exact h | apply State.pmBegin_kept | apply State.orReg_kept | refine Kept.ite ?_ ?_
theorem execPmStateRun_kept {r} (h : Kept s₀ s₁) : ∃ t₀, execPmStateRun r s₁ = .next t₀ ∧ Kept s₀ t₀ := by
  unfold execPmStateRun
  refine ⟨_, rfl, ?_⟩
  try dsimp only
  with_reducible repeat' first | exact h | apply State.pmCommand_kept
theorem execPmStateTrim_kept {r} (h : Kept s₀ s₁) : ∃ t₀, execPmStateTrim r s₁ = .next t₀ ∧ Kept s₀ t₀ := by
  unfold execPmStateTrim
  refine ⟨_, rfl, ?_⟩
  try dsimp only
  with_reducible repeat' first | exact h | apply State.pmCommand_kept
theorem execPmStateWatch_kept {r} (h : Kept s₀ s₁) : ∃ t₀, execPmStateWatch r s₁ = .next t₀ ∧ Kept s₀ t₀ := by
  unfold execPmStateWatch
  refine ⟨_, rfl, ?_⟩
  try dsimp only
  with_reducible repeat' first | exact h | apply State.pmCommand_kept
theorem execPmStateRetain_kept {r} (h : Kept s₀ s₁) : ∃ t₀, execPmStateRetain r s₁ = .next t₀ ∧ Kept s₀ t₀ := by
  unfold execPmStateRetain
  refine ⟨_, rfl, ?_⟩
  try dsimp only
  with_reducible repeat' first | exact h | apply State.pmCommand_kept
theorem execPmStateOff_kept {r} (h : Kept s₀ s₁) : ∃ t₀, execPmStateOff r s₁ = .next t₀ ∧ Kept s₀ t₀ := by
  unfold execPmStateOff
  refine ⟨_, rfl, ?_⟩
  try dsimp only
  with_reducible repeat' first | exact h | apply State.pmCommand_kept
theorem State.bootParked_kept {p} (h : Kept s₀ s₁) : Kept s₀ (State.bootParked s₁ p) := by
  unfold State.bootParked
  try dsimp only
  with_reducible repeat' first
    | exact h | apply State.askUncounted_kept | apply State.resetUnits_kept | apply State.setRecState_kept
    | apply State.wr_kept | refine Kept.foldl _ (fun _ _ _ => ?_) _ ?_ | refine Kept.foldlSnd _ (fun _ _ _ => ?_) _ ?_
    | assumption
theorem State.unpark_kept {l} (h : Kept s₀ s₁) : Kept s₀ (State.unpark s₁ l) := by
  unfold State.unpark
  try dsimp only
  with_reducible repeat' first
    | exact h | apply State.bootParked_kept | refine Kept.foldl _ (fun _ _ _ => ?_) _ ?_
    | refine Kept.foldlSnd _ (fun _ _ _ => ?_) _ ?_ | assumption | refine Kept.ite ?_ ?_ | split
    | refine Kept.upd ?_ ⟨rfl, rfl⟩
theorem State.selfRefresh_kept {l} (h : Kept s₀ s₁) : Kept s₀ (State.selfRefresh s₁ l) := by
  unfold State.selfRefresh
  try dsimp only
  with_reducible repeat' first
    | exact h | apply State.setFld_kept | refine Kept.foldl _ (fun _ _ _ => ?_) _ ?_
    | refine Kept.foldlSnd _ (fun _ _ _ => ?_) _ ?_ | assumption | refine Kept.ite ?_ ?_
theorem State.leaveRefresh_kept (h : Kept s₀ s₁) : Kept s₀ (State.leaveRefresh s₁) := by
  unfold State.leaveRefresh
  try dsimp only
  with_reducible repeat' first
    | exact h | apply State.setFld_kept | refine Kept.foldl _ (fun _ _ _ => ?_) _ ?_
    | refine Kept.foldlSnd _ (fun _ _ _ => ?_) _ ?_ | assumption | refine Kept.ite ?_ ?_
theorem State.spoutsOff_kept (h : Kept s₀ s₁) : Kept s₀ (State.spoutsOff s₁) := by
  unfold State.spoutsOff
  try dsimp only
  with_reducible repeat' first
    | exact h | apply State.wr_kept | apply State.setPort_kept | apply State.spDiscard_kept
    | refine Kept.foldl _ (fun _ _ _ => ?_) _ ?_ | refine Kept.foldlSnd _ (fun _ _ _ => ?_) _ ?_ | assumption
theorem State.spoutsOn_kept (h : Kept s₀ s₁) : Kept s₀ (State.spoutsOn s₁) := by
  unfold State.spoutsOn
  try dsimp only
  with_reducible repeat' first
    | exact h | apply State.spTrain_kept | refine Kept.foldl _ (fun _ _ _ => ?_) _ ?_
    | refine Kept.foldlSnd _ (fun _ _ _ => ?_) _ ?_ | assumption
theorem State.cosySave_kept (h : Kept s₀ s₁) : Kept s₀ (State.cosySave s₁) := by
  unfold State.cosySave
  try dsimp only
  with_reducible repeat' first | exact h | refine Kept.ite ?_ ?_ | split | refine Kept.upd ?_ ⟨rfl, rfl⟩
theorem State.retained_kept (h : Kept s₀ s₁) : Kept s₀ (State.retained s₁) :=
  ⟨h.pending, h.aon, fun w => Memory.keepLow_wf _ _ _ _ (h.mem w), fun w => State.rebirth_regs (h.regs w), .inr ⟨rfl, rfl⟩⟩
theorem State.remeasure_kept {t s} (h : Kept s₀ t) : Kept s₀ (State.remeasure t s) := by
  unfold State.remeasure
  exact Kept.ite (State.extendMr_kept (State.newChallenge_kept (State.extendMr_kept h)))
    (State.extendMr_kept (State.extendMr_kept (State.newChallenge_kept (State.extendMr_kept h))))
theorem State.exitRetain_kept (h : Kept s₀ s₁) : Kept s₀ (State.exitRetain s₁) := by
  unfold State.exitRetain
  extract_lets t1 t2 t3
  have h1 : Kept s₀ t1 := State.remeasure_kept (Kept.foldl _ (fun _ _ h => State.wr_kept h) _ (State.retained_kept h))
  clear_value t1
  have h2 : Kept s₀ t2 := Kept.foldl _ (fun _ _ h => State.setFld_kept h) _ h1
  clear_value t2
  exact State.showSi_kept (State.unpark_kept (State.spoutsOn_kept (State.setFld_kept (State.setFld_kept (State.setFld_kept h2)))))
theorem State.startExit_kept (h : Kept s₀ s₁) : Kept s₀ (State.startExit s₁) := by
  unfold State.startExit
  try dsimp only
  with_reducible repeat' first
    | exact h | apply State.setFld_kept | refine Kept.ite ?_ ?_ | split | refine Kept.upd ?_ ⟨rfl, rfl⟩
theorem State.wakeNote_kept {w} (h : Kept s₀ s₁) : Kept s₀ (State.wakeNote s₁ w) := by
  unfold State.wakeNote
  try dsimp only
  with_reducible repeat' first
    | exact h | apply State.orReg_kept | apply State.setFld_kept | refine Kept.ite ?_ ?_ | split
    | refine Kept.upd ?_ ⟨rfl, rfl⟩
theorem State.wake_kept {w} (h : Kept s₀ s₁) : Kept s₀ (State.wake s₁ w) := by
  unfold State.wake
  try dsimp only
  with_reducible repeat' first
    | exact h | apply State.wakeNote_kept | apply State.orReg_kept | apply State.startExit_kept
    | refine Kept.ite ?_ ?_ | split | refine Kept.upd ?_ ⟨rfl, rfl⟩
theorem execWakeSource_kept {w} (h : Kept s₀ s₁) : ∃ t₀, execWakeSource w s₁ = .next t₀ ∧ Kept s₀ t₀ := by
  unfold execWakeSource
  refine ⟨_, rfl, ?_⟩
  try dsimp only
  with_reducible repeat' first | exact h | apply State.wake_kept
theorem execPmWakeReq_kept {r} (h : Kept s₀ s₁) : ∃ t₀, execPmWakeReq r s₁ = .next t₀ ∧ Kept s₀ t₀ := by
  unfold execPmWakeReq
  refine ⟨_, rfl, ?_⟩
  try dsimp only
  with_reducible repeat' first | exact h | apply State.wake_kept | refine Kept.ite ?_ ?_
theorem execAlarm_kept (h : Kept s₀ s₁) : ∃ t₀, execAlarm s₁ = .next t₀ ∧ Kept s₀ t₀ := by
  unfold execAlarm
  refine ⟨_, rfl, ?_⟩
  try dsimp only
  with_reducible repeat' first | exact h | apply State.wake_kept | refine Kept.ite ?_ ?_
theorem State.enterOff_kept (h : Kept s₀ s₁) : Kept s₀ (State.enterOff s₁) := by
  unfold State.enterOff
  try dsimp only
  with_reducible repeat' first
    | exact h | apply State.setFld_kept | refine Kept.ite ?_ ?_ | split | refine Kept.upd ?_ ⟨rfl, rfl⟩
theorem State.enterState_kept {target} (h : Kept s₀ s₁) : Kept s₀ (State.enterState s₁ target) := by
  unfold State.enterState
  try dsimp only
  with_reducible repeat' first
    | exact h | apply State.setFld_kept | apply State.spoutsOff_kept | apply State.selfRefresh_kept
    | apply State.unpark_kept | apply State.cosySave_kept | refine Kept.ite ?_ ?_ | split
    | refine Kept.upd ?_ ⟨rfl, rfl⟩
theorem execStateEntryComplete_kept (h : Kept s₀ s₁) : ∃ t₀, execStateEntryComplete s₁ = .next t₀ ∧ Kept s₀ t₀ := by
  unfold execStateEntryComplete
  refine ⟨_, rfl, ?_⟩
  try dsimp only
  with_reducible repeat' first
    | exact h | apply State.leaveRefresh_kept | apply State.setFld_kept | apply State.unpark_kept
    | apply State.spoutsOn_kept | apply State.enterOff_kept | apply State.enterState_kept | apply State.startExit_kept
    | refine Kept.ite ?_ ?_ | split | refine Kept.upd ?_ ⟨rfl, rfl⟩
theorem State.pllUnlock_kept {n} (h : Kept s₀ s₁) : Kept s₀ (State.pllUnlock s₁ n) := by
  unfold State.pllUnlock
  try dsimp only
  with_reducible repeat' first | exact h | apply State.raise_kept | apply State.orReg_kept | apply State.setFld_kept
theorem execCkPllUnlock_kept {n} (h : Kept s₀ s₁) : ∃ t₀, execCkPllUnlock n s₁ = .next t₀ ∧ Kept s₀ t₀ := by
  unfold execCkPllUnlock
  refine ⟨_, rfl, ?_⟩
  try dsimp only
  with_reducible repeat' first | exact h | apply State.pllUnlock_kept | refine Kept.ite ?_ ?_
theorem execRailOutOfRange_kept {rail} (h : Kept s₀ s₁) : ∃ t₀, execRailOutOfRange rail s₁ = .next t₀ ∧ Kept s₀ t₀ := by
  unfold execRailOutOfRange
  refine ⟨_, rfl, ?_⟩
  try dsimp only
  with_reducible repeat' first
    | exact h | apply State.pllUnlock_kept | apply State.setFld_kept | refine Kept.ite ?_ ?_ | split
    | refine Kept.upd ?_ ⟨rfl, rfl⟩
theorem execSwitchedRailsInRange_kept (h : Kept s₀ s₁) : ∃ t₀, execSwitchedRailsInRange s₁ = .next t₀ ∧ Kept s₀ t₀ := by
  unfold execSwitchedRailsInRange
  refine ⟨_, rfl, ?_⟩
  try dsimp only
  with_reducible repeat' first
    | exact h | apply State.exitRetain_kept | apply State.setFld_kept | refine Kept.ite ?_ ?_
theorem execRailTimeout_kept (h : Kept s₀ s₁) : ∃ t₀, execRailTimeout s₁ = .next t₀ ∧ Kept s₀ t₀ := by
  unfold execRailTimeout
  refine ⟨_, rfl, ?_⟩
  try dsimp only
  with_reducible repeat' first
    | exact h | apply State.orReg_kept | refine Kept.ite ?_ ?_ | split | refine Kept.upd ?_ ⟨rfl, rfl⟩
theorem execAvs_kept {readback} (h : Kept s₀ s₁) : ∃ t₀, execAvs readback s₁ = .next t₀ ∧ Kept s₀ t₀ := by
  unfold execAvs
  refine ⟨_, rfl, ?_⟩
  try dsimp only
  with_reducible repeat' first
    | exact h | apply State.setFld_kept | apply State.raise_kept | apply State.orReg_kept | refine Kept.ite ?_ ?_
    | split | refine Kept.upd ?_ ⟨rfl, rfl⟩
theorem State.thermalShutdown_kept {tj} (h : Kept s₀ s₁) : Kept s₀ (State.thermalShutdown s₁ tj) := by
  unfold State.thermalShutdown
  try dsimp only
  with_reducible repeat' first
    | exact h | apply State.enterOff_kept | apply State.wr_kept | refine Kept.ite ?_ ?_ | split
    | refine Kept.upd ?_ ⟨rfl, rfl⟩
theorem State.thermalLevel_kept {l} (h : Kept s₀ s₁) : Kept s₀ (State.thermalLevel s₁ l) := by
  unfold State.thermalLevel
  try dsimp only
  with_reducible repeat' first
    | exact h | apply State.setFld_kept | apply State.countUp_kept | apply State.raise_kept
    | apply State.safeState_kept | refine Kept.foldl _ (fun _ _ _ => ?_) _ ?_
    | refine Kept.foldlSnd _ (fun _ _ _ => ?_) _ ?_ | assumption | refine Kept.ite ?_ ?_ | split
    | refine Kept.upd ?_ ⟨rfl, rfl⟩
theorem execThermalSample_kept {temps} (h : Kept s₀ s₁) : ∃ t₀, execThermalSample temps s₁ = .next t₀ ∧ Kept s₀ t₀ := by
  unfold execThermalSample
  refine ⟨_, rfl, ?_⟩
  try dsimp only
  with_reducible repeat' first
    | exact h | apply State.thermalShutdown_kept | apply State.wr_kept | apply State.raise_kept
    | apply State.setFld_kept | apply State.thermalLevel_kept | refine Kept.foldl _ (fun _ _ _ => ?_) _ ?_
    | refine Kept.foldlSnd _ (fun _ _ _ => ?_) _ ?_ | assumption | refine Kept.ite ?_ ?_
theorem execTempAlertN_kept {active} (h : Kept s₀ s₁) : ∃ t₀, execTempAlertN active s₁ = .next t₀ ∧ Kept s₀ t₀ := by
  unfold execTempAlertN
  refine ⟨_, rfl, ?_⟩
  try dsimp only
  with_reducible repeat' first | exact h | apply State.strReport_kept | apply State.setFld_kept
theorem execPmGpioOut_kept {r value} (h : Kept s₀ s₁) : ∃ t₀, execPmGpioOut r value s₁ = .next t₀ ∧ Kept s₀ t₀ := by
  unfold execPmGpioOut
  refine ⟨_, rfl, ?_⟩
  try dsimp only
  with_reducible repeat' first
    | exact h | apply State.setFld_kept | refine Kept.foldl _ (fun _ _ _ => ?_) _ ?_
    | refine Kept.foldlSnd _ (fun _ _ _ => ?_) _ ?_ | assumption | refine Kept.ite ?_ ?_
theorem State.takeEntry_kept {n i} (h : Kept s₀ s₁) : Kept s₀ (State.takeEntry s₁ n i) := by
  unfold State.takeEntry
  try dsimp only
  with_reducible repeat' first
    | exact h | apply State.memRead_kept | apply State.ringCount_kept | apply State.complete_kept
    | apply State.begin__kept | refine State.memRead_kept' ‹_› ?_ | refine Kept.ite ?_ ?_ | split
    | refine Kept.upd ?_ ⟨rfl, rfl⟩
theorem State.takeEntries_kept {n prod} (h : Kept s₀ s₁) : Kept s₀ (State.takeEntries s₁ n prod) := by
  unfold State.takeEntries
  try dsimp only
  with_reducible repeat' first
    | exact h | apply State.memRead_kept | apply State.takeEntry_kept | apply State.stewardPut_kept
    | apply State.setRing_kept | refine State.memRead_kept' ‹_› ?_ | refine Kept.foldl _ (fun _ _ _ => ?_) _ ?_
    | refine Kept.foldlSnd _ (fun _ _ _ => ?_) _ ?_ | assumption | refine Kept.ite ?_ ?_
theorem State.visitRing_kept {n} (h : Kept s₀ s₁) : Kept s₀ (State.visitRing s₁ n) := by
  unfold State.visitRing
  try dsimp only
  with_reducible repeat' first
    | exact h | apply State.setRing_kept | apply State.stewardPut_kept | apply State.msix_kept | apply State.send_kept
    | apply State.memRead_kept | apply State.raise_kept | apply State.orReg_kept | apply State.takeEntries_kept
    | refine State.memRead_kept' ‹_› ?_ | refine Kept.ite ?_ ?_
theorem execHostServiceTick_kept (h : Kept s₀ s₁) : ∃ t₀, execHostServiceTick s₁ = .next t₀ ∧ Kept s₀ t₀ := by
  unfold execHostServiceTick
  refine ⟨_, rfl, ?_⟩
  try dsimp only
  with_reducible repeat' first
    | exact h | apply State.payOwed_kept | apply State.visitRing_kept | refine Kept.foldl _ (fun _ _ _ => ?_) _ ?_
    | refine Kept.foldlSnd _ (fun _ _ _ => ?_) _ ?_ | assumption | refine Kept.ite ?_ ?_ | split
    | refine Kept.upd ?_ ⟨rfl, rfl⟩
theorem execNop_kept {ring idx} (h : Kept s₀ s₁) : ∃ t₀, execNop ring idx s₁ = .next t₀ ∧ Kept s₀ t₀ := by
  unfold execNop
  refine ⟨_, rfl, ?_⟩
  try dsimp only
  with_reducible repeat' first
    | exact h | refine State.mbox_kept ?_ (fun _ _ _ => ?_) | assumption | apply State.complete_kept
theorem execTrigSet_kept {ring idx} (h : Kept s₀ s₁) : ∃ t₀, execTrigSet ring idx s₁ = .next t₀ ∧ Kept s₀ t₀ := by
  unfold execTrigSet
  refine ⟨_, rfl, ?_⟩
  try dsimp only
  with_reducible repeat' first
    | exact h | refine State.mbox_kept ?_ (fun _ _ _ => ?_) | assumption | apply State.complete_kept
    | apply State.genRestart_kept | refine Kept.ite ?_ ?_
theorem execRingCfgWrite_kept {r n value} (h : Kept s₀ s₁) : ∃ t₀, execRingCfgWrite r n value s₁ = .next t₀ ∧ Kept s₀ t₀ := by
  unfold execRingCfgWrite
  refine ⟨_, rfl, ?_⟩
  try dsimp only
  with_reducible repeat' first
    | exact h | apply State.notMaster_kept | apply State.ringReset_kept | apply State.wr_kept | refine Kept.ite ?_ ?_
theorem execRingReset_kept {r n} (h : Kept s₀ s₁) : ∃ t₀, execRingReset r n s₁ = .next t₀ ∧ Kept s₀ t₀ := by
  unfold execRingReset
  refine ⟨_, rfl, ?_⟩
  try dsimp only
  with_reducible repeat' first
    | exact h | apply State.ringReset_kept | apply State.notMaster_kept | refine Kept.ite ?_ ?_
theorem execBar2Write_kept {offset bytes} (h : Kept s₀ s₁) : ∃ t₀, execBar2Write offset bytes s₁ = .next t₀ ∧ Kept s₀ t₀ := by
  unfold execBar2Write
  refine ⟨_, rfl, ?_⟩
  try dsimp only
  with_reducible repeat' first
    | exact h | apply State.notMaster_kept | apply State.raiseReq_kept | apply State.memWrite_kept
    | refine State.memWrite_kept' ‹_› ?_ | refine Kept.ite ?_ ?_ | split
theorem execBar2Read_kept {offset len} (h : Kept s₀ s₁) : ∃ t₀, execBar2Read offset len s₁ = .next t₀ ∧ Kept s₀ t₀ := by
  unfold execBar2Read
  refine ⟨_, rfl, ?_⟩
  try dsimp only
  with_reducible repeat' first
    | exact h | apply State.answer_kept | apply State.raiseReq_kept | apply State.memRead_kept
    | refine State.memRead_kept' ‹_› ?_ | refine Kept.ite ?_ ?_ | split
theorem execPerstN_kept {event} (h : Kept s₀ s₁) : ∃ t₀, execPerstN event s₁ = .next t₀ ∧ Kept s₀ t₀ := by
  unfold execPerstN
  refine ⟨_, rfl, ?_⟩
  try dsimp only
  with_reducible repeat' first
    | exact h | apply State.wr_kept | apply State.setFld_kept | apply State.raise_kept | refine Kept.ite ?_ ?_ | split
    | refine Kept.upd ?_ ⟨rfl, rfl⟩
theorem execPcieLinkTraining_kept {width speed} (h : Kept s₀ s₁) : ∃ t₀, execPcieLinkTraining width speed s₁ = .next t₀ ∧ Kept s₀ t₀ := by
  unfold execPcieLinkTraining
  refine ⟨_, rfl, ?_⟩
  try dsimp only
  with_reducible repeat' first | exact h | apply State.setFld_kept | refine Kept.ite ?_ ?_
theorem State.setReload_kept {p addr len a4} (h : Kept s₀ s₁) : Kept s₀ (State.setReload s₁ p addr len a4) := by
  unfold State.setReload
  try dsimp only
  with_reducible repeat' first | exact h | refine Kept.ite ?_ ?_ | split | refine Kept.upd ?_ ⟨rfl, rfl⟩
theorem State.loadProgram_kept {ring idx k g} (h : Kept s₀ s₁) : Kept s₀ (State.loadProgram s₁ ring idx k g) := by
  unfold State.loadProgram
  try dsimp only
  with_reducible repeat' first
    | exact h | apply State.complete_kept | apply State.memRead_kept | apply State.refuseAny_kept
    | apply State.raise_kept | apply State.askUncounted_kept | apply State.setReload_kept
    | refine State.startProgram_kept ‹_› ?_ | apply State.closeScope_kept | apply State.setRecState_kept
    | refine State.memRead_kept' ‹_› ?_ | refine State.startProgram_kept' ‹_› ?_ | refine Kept.ite ?_ ?_ | split
    | refine Kept.upd ?_ ⟨rfl, rfl⟩
theorem execProgLoad_kept {ring idx prog} (h : Kept s₀ s₁) : ∃ t₀, execProgLoad ring idx prog s₁ = .next t₀ ∧ Kept s₀ t₀ := by
  unfold execProgLoad
  refine ⟨_, rfl, ?_⟩
  try dsimp only
  with_reducible repeat' first
    | exact h | apply State.loadProgram_kept | apply State.begin__kept | refine Kept.ite ?_ ?_ | split
theorem execHarts_kept {r value} (h : Kept s₀ s₁) : ∃ t₀, execHarts r value s₁ = .next t₀ ∧ Kept s₀ t₀ := by
  unfold execHarts
  refine ⟨_, rfl, ?_⟩
  try dsimp only
  with_reducible repeat' first | exact h | apply State.orReg_kept | refine Kept.ite ?_ ?_ | split
theorem execUartReceive_kept {u _ch} (h : Kept s₀ s₁) : ∃ t₀, execUartReceive u _ch s₁ = .next t₀ ∧ Kept s₀ t₀ := by
  unfold execUartReceive
  refine ⟨_, rfl, ?_⟩
  try dsimp only
  with_reducible repeat' first | exact h | apply State.send_kept | refine Kept.ite ?_ ?_
theorem State.setMac_kept {e v} (h : Kept s₀ s₁) : Kept s₀ (State.setMac s₁ e v) := by
  unfold State.setMac
  try dsimp only
  with_reducible repeat' first | exact h | refine Kept.ite ?_ ?_ | split | refine Kept.upd ?_ ⟨rfl, rfl⟩
theorem State.stampFrame_kept {e egress f age} (h : Kept s₀ s₁) : Kept s₀ (State.stampFrame s₁ e egress f age).2 := by
  unfold State.stampFrame
  try dsimp only
  with_reducible repeat' first | exact h | apply State.tsPush_kept | refine Kept.ite ?_ ?_ | split
theorem State.stampFrame_kept' {e egress f age} {r₀ u₀} (hq : State.stampFrame s₁ e egress f age = (r₀, u₀)) (h : Kept s₀ s₁) : Kept s₀ u₀ := by
  have := @State.stampFrame_kept s₀ s₁ e egress f age h
  rw [hq] at this
  exact this
theorem State.rxPut_kept {e flags a3 a4} (h : Kept s₀ s₁) : Kept s₀ (State.rxPut s₁ e flags a3 a4) := by
  induction a3 generalizing s₁ a4 with
  | zero => exact h
  | succ n ih =>
  unfold State.rxPut
  try dsimp only
  with_reducible repeat' first
    | exact h | apply ih | apply State.memRead_kept | apply State.memWrite_kept | apply State.setMac_kept
    | refine Kept.ite ?_ ?_
theorem execEthFrame_kept {e frame ethInfo} (h : Kept s₀ s₁) : ∃ t₀, execEthFrame e frame ethInfo s₁ = .next t₀ ∧ Kept s₀ t₀ := by
  unfold execEthFrame
  refine ⟨_, rfl, ?_⟩
  try dsimp only
  with_reducible repeat' first
    | exact h | apply State.stampFrame_kept | apply State.pointPacket_kept | apply State.parseDrop_kept
    | apply State.send_kept | apply State.rxPut_kept | refine State.stampFrame_kept' ‹_› ?_ | refine Kept.ite ?_ ?_
    | split
theorem State.txGather_kept {e a1 k} (h : Kept s₀ s₁) : Kept s₀ (State.txGather s₁ e a1 k).2 := by
  induction a1 generalizing s₁ k with
  | zero => exact h
  | succ n ih =>
    rw [State.txGather]
    exact Kept.iteSnd (State.memRead_kept h) (Kept.iteSnd (Kept.snd_mk (State.memRead_kept (State.memRead_kept h)))
      (Kept.snd_mk (ih (State.memRead_kept (State.memRead_kept h)))))
theorem State.txGather_kept' {e a1 k} {r₀ u₀} (hq : State.txGather s₁ e a1 k = (r₀, u₀)) (h : Kept s₀ s₁) : Kept s₀ u₀ := by
  have := @State.txGather_kept s₀ s₁ e a1 k h
  rw [hq] at this
  exact this
theorem State.txDone_kept {e stamped k} (h : Kept s₀ s₁) : Kept s₀ (State.txDone s₁ e stamped k) := by
  unfold State.txDone
  try dsimp only
  with_reducible repeat' first | exact h | apply State.memRead_kept | apply State.memWrite_kept
theorem execMacTransmit_kept {e} (h : Kept s₀ s₁) : ∃ t₀, execMacTransmit e s₁ = .next t₀ ∧ Kept s₀ t₀ := by
  unfold execMacTransmit
  refine ⟨_, rfl, ?_⟩
  try dsimp only
  with_reducible repeat' first
    | exact h | apply State.txGather_kept | apply State.stampFrame_kept | apply State.txDone_kept
    | apply State.send_kept | apply State.setMac_kept | refine State.txGather_kept' ‹_› ?_
    | refine State.stampFrame_kept' ‹_› ?_ | refine Kept.foldl _ (fun _ _ _ => ?_) _ ?_
    | refine Kept.foldlSnd _ (fun _ _ _ => ?_) _ ?_ | assumption | refine Kept.ite ?_ ?_ | split
theorem State.after_kept {o} (_h : Kept s₀ s₁) (ho : ∃ t, o = .next t ∧ Kept s₀ t) : Kept s₀ (State.after s₁ o) := by
  obtain ⟨t, rfl, ht⟩ := ho
  exact ht
theorem State.codeWrite_kept {r a w} (h : Kept s₀ s₁) : Kept s₀ (State.codeWrite s₁ r a w) := by
  unfold State.codeWrite
  try dsimp only
  with_reducible repeat' first | exact h | apply State.wr_kept | refine Kept.ite ?_ ?_ | split
theorem State.clWrite_kept {r c o w} (h : Kept s₀ s₁) : Kept s₀ (State.clWrite s₁ r c o w) := by
  unfold State.clWrite
  try dsimp only
  with_reducible repeat' first
    | exact h | apply State.codeWrite_kept | apply State.setFld_kept | apply State.after_kept | apply execSetFull_kept
    | apply execSetEmpty_kept | apply execBbWindowWrite_kept | apply execArrFlush_kept | apply execPreempt_kept
    | apply execLoad_kept | apply execTeardown_kept | apply execClSeqWdog_kept | refine Kept.ite ?_ ?_ | split
theorem State.movWrite_kept {r c o w} (h : Kept s₀ s₁) : Kept s₀ (State.movWrite s₁ r c o w) := by
  unfold State.movWrite
  try dsimp only
  with_reducible repeat' first
    | exact h | apply State.after_kept | apply execMovCtxBind_kept | apply execMovResume_kept
    | apply execMovAbort_kept | apply execMovPush_kept | apply execMovDescWrite_kept | apply State.codeWrite_kept
    | refine Kept.ite ?_ ?_
theorem State.clusterWrite_kept {r a w} (h : Kept s₀ s₁) : Kept s₀ (State.clusterWrite s₁ r a w) := by
  unfold State.clusterWrite
  try dsimp only
  with_reducible repeat' first
    | exact h | apply State.clWrite_kept | apply State.after_kept | apply execArrCtrlStop_kept
    | apply execArrTileOwnerWrite_kept | apply State.codeWrite_kept | apply execVecChainWrite_kept
    | apply State.movWrite_kept | apply execAttResume_kept | refine Kept.ite ?_ ?_ | split
theorem State.stWrite_kept {r o w} (h : Kept s₀ s₁) : Kept s₀ (State.stWrite s₁ r o w) := by
  unfold State.stWrite
  try dsimp only
  with_reducible repeat' first
    | exact h | apply State.after_kept | apply execClrTiming_kept | apply execClrValue_kept
    | apply execRingCfgWrite_kept | apply State.codeWrite_kept | apply State.notMaster_kept | apply execHarts_kept
    | apply execFcAck_kept | apply execFcSwRaise_kept | apply execStSafeCmd_kept | refine Kept.ite ?_ ?_
theorem State.tbWrite_kept {r o w} (h : Kept s₀ s₁) : Kept s₀ (State.tbWrite s₁ r o w) := by
  unfold State.tbWrite
  try dsimp only
  with_reducible repeat' first
    | exact h | apply State.after_kept | apply execTbRate_kept | apply execTbIncr_kept | apply execJump_kept
    | apply execSlew_kept | apply State.codeWrite_kept | apply State.setFld_kept | apply execGenCfgWrite_kept
    | apply execGenEnable_kept | refine Kept.ite ?_ ?_ | split | refine Kept.upd ?_ ⟨rfl, rfl⟩
theorem State.pmWrite_kept {r o w} (h : Kept s₀ s₁) : Kept s₀ (State.pmWrite s₁ r o w) := by
  unfold State.pmWrite
  try dsimp only
  with_reducible repeat' first
    | exact h | apply State.after_kept | apply execPmStateRun_kept | apply execPmStateTrim_kept
    | apply execPmStateWatch_kept | apply execPmStateRetain_kept | apply execPmStateOff_kept
    | apply execPmWakeReq_kept | apply execPmGpioOut_kept | apply execPmLrsReq_kept | apply State.codeWrite_kept
    | refine Kept.ite ?_ ?_ | split
theorem State.devWrite_kept {r a w} (h : Kept s₀ s₁) : Kept s₀ (State.devWrite s₁ r a w) := by
  unfold State.devWrite
  try dsimp only
  with_reducible repeat' first
    | exact h | apply State.stWrite_kept | apply State.tbWrite_kept | apply State.wr_kept | apply State.after_kept
    | apply execFenceIssue_kept | apply State.pfDrain_kept | apply State.codeWrite_kept | apply execIngStampOfs_kept
    | apply execArm_kept | apply execRetrain_kept | apply State.pmWrite_kept | refine Kept.ite ?_ ?_ | split
theorem State.bar2BaseWrite_kept {r a w} (h : Kept s₀ s₁) : Kept s₀ (State.bar2BaseWrite s₁ r a w) := by
  unfold State.bar2BaseWrite
  try dsimp only
  with_reducible repeat' first | exact h | apply State.codeWrite_kept | refine Kept.ite ?_ ?_
theorem State.urnWrite_kept {r o w} (h : Kept s₀ s₁) : Kept s₀ (State.urnWrite s₁ r o w) := by
  unfold State.urnWrite
  try dsimp only
  with_reducible repeat' first
    | exact h | apply State.after_kept | apply execFcAck_kept | apply execFcSwRaise_kept | apply State.wr_kept
    | apply execConfirm_kept | apply execUrnSafeCmdParts_kept | apply execUrnSafeCmdDevice_kept
    | apply execUrnAgePub_kept | apply State.codeWrite_kept | refine Kept.ite ?_ ?_ | split
    | refine Kept.upd ?_ ⟨rfl, rfl⟩
theorem State.cadWrite_kept {r o w} (h : Kept s₀ s₁) : Kept s₀ (State.cadWrite s₁ r o w) := by
  unfold State.cadWrite
  try dsimp only
  with_reducible repeat' first
    | exact h | apply State.after_kept | apply execCadExtCmd_kept | apply State.wr_kept | apply State.orReg_kept
    | apply State.codeWrite_kept | refine Kept.ite ?_ ?_
theorem State.writeReg_kept {r a value} (h : Kept s₀ s₁) : Kept s₀ (State.writeReg s₁ r a value) := by
  unfold State.writeReg
  try dsimp only
  with_reducible repeat' first
    | exact h | apply State.clusterWrite_kept | apply State.bar2BaseWrite_kept | apply State.devWrite_kept
    | apply State.urnWrite_kept | apply State.cadWrite_kept | refine Kept.ite ?_ ?_
theorem State.regWrite_kept {r addr width value} (h : Kept s₀ s₁) : Kept s₀ (State.regWrite s₁ r addr width value).2 := by
  unfold State.regWrite
  try dsimp only
  with_reducible repeat' first
    | exact h | apply State.orReg_kept | apply State.writeReg_kept | apply State.raiseReq_kept | refine Kept.ite ?_ ?_
    | split
theorem State.regWrite_kept' {r addr width value} {r₀ u₀} (hq : State.regWrite s₁ r addr width value = (r₀, u₀)) (h : Kept s₀ s₁) : Kept s₀ u₀ := by
  have := @State.regWrite_kept s₀ s₁ r addr width value h
  rw [hq] at this
  exact this
theorem State.regRead_kept {r addr width} (h : Kept s₀ s₁) : Kept s₀ (State.regRead s₁ r addr width).2 := by
  unfold State.regRead
  try dsimp only
  with_reducible repeat' first
    | exact h | apply State.readReg_kept | apply State.raiseReq_kept | refine State.readReg_kept' ‹_› ?_
    | refine Kept.ite ?_ ?_ | split
theorem State.regRead_kept' {r addr width} {r₀ u₀} (hq : State.regRead s₁ r addr width = (r₀, u₀)) (h : Kept s₀ s₁) : Kept s₀ u₀ := by
  have := @State.regRead_kept s₀ s₁ r addr width h
  rw [hq] at this
  exact this
theorem State.accBytes_kept {r c o l} (h : Kept s₀ s₁) : Kept s₀ (State.accBytes s₁ r c o l).2 := by
  rw [State.accBytes]
  exact Kept.foldlSnd _ (fun _ _ ht => Kept.snd_mk (State.accWrite_kept ht)) _ h
theorem State.accBytes_kept' {r c o l} {r₀ u₀} (hq : State.accBytes s₁ r c o l = (r₀, u₀)) (h : Kept s₀ s₁) : Kept s₀ u₀ := by
  have := @State.accBytes_kept s₀ s₁ r c o l h
  rw [hq] at this
  exact this
theorem State.localWrite_kept {r addr l} (h : Kept s₀ s₁) : Kept s₀ (State.localWrite s₁ r addr l).2 := by
  unfold State.localWrite
  try dsimp only
  with_reducible repeat' first
    | exact h | apply State.regWrite_kept | apply State.accBytes_kept | apply State.raiseReq_kept
    | apply State.memWrite_kept | refine State.regWrite_kept' ‹_› ?_ | refine State.accBytes_kept' ‹_› ?_
    | refine State.memWrite_kept' ‹_› ?_ | refine Kept.ite ?_ ?_ | split
theorem State.localWrite_kept' {r addr l} {r₀ u₀} (hq : State.localWrite s₁ r addr l = (r₀, u₀)) (h : Kept s₀ s₁) : Kept s₀ u₀ := by
  have := @State.localWrite_kept s₀ s₁ r addr l h
  rw [hq] at this
  exact this
theorem State.localRead_kept {r addr n} (h : Kept s₀ s₁) : Kept s₀ (State.localRead s₁ r addr n).2 := by
  unfold State.localRead
  try dsimp only
  with_reducible repeat' first
    | exact h | apply State.regRead_kept | apply State.memRead_kept | refine State.regRead_kept' ‹_› ?_
    | refine State.memRead_kept' ‹_› ?_ | refine Kept.ite ?_ ?_ | split
theorem State.localRead_kept' {r addr n} {r₀ u₀} (hq : State.localRead s₁ r addr n = (r₀, u₀)) (h : Kept s₀ s₁) : Kept s₀ u₀ := by
  have := @State.localRead_kept s₀ s₁ r addr n h
  rw [hq] at this
  exact this
theorem State.denied_kept {r ga} (h : Kept s₀ s₁) : Kept s₀ (State.denied s₁ r ga) := by
  unfold State.denied
  try dsimp only
  with_reducible repeat' first
    | exact h | apply State.answer_kept | apply State.raiseReq_kept | apply State.reqViolation_kept
    | refine Kept.ite ?_ ?_ | split
theorem State.wrote_kept {r st} (h : Kept s₀ s₁) : Kept s₀ (State.wrote s₁ r st) := by
  unfold State.wrote
  try dsimp only
  with_reducible repeat' first | exact h | apply State.answer_kept | refine Kept.ite ?_ ?_
theorem State.regRequest_kept {r addr width value} (h : Kept s₀ s₁) : Kept s₀ (State.regRequest s₁ r addr width value) := by
  unfold State.regRequest
  try dsimp only
  with_reducible repeat' first
    | exact h | apply State.stagePut_kept | apply State.wrote_kept | apply State.regWrite_kept
    | apply State.failTask_kept | refine State.stagePut_kept' ‹_› ?_ | refine State.regWrite_kept' ‹_› ?_
    | refine Kept.ite ?_ ?_ | split
theorem execRegisterWrite_kept {r addr width value} (h : Kept s₀ s₁) : ∃ t₀, execRegisterWrite r addr width value s₁ = .next t₀ ∧ Kept s₀ t₀ := by
  unfold execRegisterWrite
  refine ⟨_, rfl, ?_⟩
  try dsimp only
  with_reducible repeat' first
    | exact h | apply State.notMaster_kept | apply State.denied_kept | apply State.regRequest_kept
    | refine Kept.ite ?_ ?_
theorem execCounterLowRead_kept {r addr} (h : Kept s₀ s₁) : ∃ t₀, execCounterLowRead r addr s₁ = .next t₀ ∧ Kept s₀ t₀ := by
  unfold execCounterLowRead
  refine ⟨_, rfl, ?_⟩
  try dsimp only
  with_reducible repeat' first
    | exact h | apply State.denied_kept | apply State.regRead_kept | apply State.answer_kept
    | apply State.failTask_kept | refine State.regRead_kept' ‹_› ?_ | refine Kept.ite ?_ ?_
theorem State.tagRange_kept {x n b} (h : Kept s₀ s₁) : Kept s₀ (State.tagRange s₁ x n b) := by
  unfold State.tagRange
  try dsimp only
  with_reducible repeat' first
    | exact h | apply State.setTag_kept | refine Kept.foldl _ (fun _ _ _ => ?_) _ ?_
    | refine Kept.foldlSnd _ (fun _ _ _ => ?_) _ ?_ | assumption
theorem State.access_kept {x a} (h : Kept s₀ s₁) : Kept s₀ (State.access s₁ x a).2 := by
  unfold State.access
  try dsimp only
  with_reducible repeat' first
    | exact h | apply State.localRead_kept | apply State.tagRange_kept | apply State.localWrite_kept
    | apply State.reqAtomic_kept | apply State.signalLocal_kept | apply State.setLocal_kept
    | refine State.localRead_kept' ‹_› ?_ | refine State.localWrite_kept' ‹_› ?_ | refine State.reqAtomic_kept' ‹_› ?_
    | refine State.signalLocal_kept' ‹_› ?_ | refine State.setLocal_kept' ‹_› ?_ | refine Kept.ite ?_ ?_ | split
theorem State.access_kept' {x a} {r₀ u₀} (hq : State.access s₁ x a = (r₀, u₀)) (h : Kept s₀ s₁) : Kept s₀ u₀ := by
  have := @State.access_kept s₀ s₁ x a h
  rw [hq] at this
  exact this
theorem State.spAnswer_kept {n q kind data} (h : Kept s₀ s₁) : Kept s₀ (State.spAnswer s₁ n q kind data) := by
  unfold State.spAnswer
  try dsimp only
  with_reducible repeat' first
    | exact h | apply State.transmit_kept | apply State.originate_kept | refine Kept.ite ?_ ?_
theorem State.spReply_kept {n q data err} (h : Kept s₀ s₁) : Kept s₀ (State.spReply s₁ n q data err) := by
  unfold State.spReply
  try dsimp only
  with_reducible repeat' first | exact h | apply State.spAnswer_kept | refine Kept.ite ?_ ?_
theorem State.perform_kept {e} (h : Kept s₀ s₁) : Kept s₀ (State.perform s₁ e) := by
  unfold State.perform
  try dsimp only
  with_reducible repeat' first
    | exact h | apply State.access_kept | apply State.spReply_kept | apply State.answer_kept
    | refine State.access_kept' ‹_› ?_ | refine Kept.ite ?_ ?_ | split
theorem State.inject_kept {cap a2} (h : Kept s₀ s₁) : Kept s₀ (State.inject s₁ cap a2).2 := by
  induction a2 generalizing s₁ cap with
  | nil => exact h
  | cons a l ih =>
  unfold State.inject
  try dsimp only
  with_reducible repeat' first | exact h | apply ih | apply State.perform_kept | split
theorem execInjectionStop_kept {p src} (h : Kept s₀ s₁) : ∃ t₀, execInjectionStop p src s₁ = .next t₀ ∧ Kept s₀ t₀ := by
  unfold execInjectionStop
  refine ⟨_, rfl, ?_⟩
  try dsimp only
  with_reducible repeat' first
    | exact h | apply State.setDsp_kept | apply State.inject_kept | apply State.countUp_kept
    | apply State.setStage_kept | refine State.inject_kept' ‹_› ?_ | refine Kept.ite ?_ ?_ | split
theorem State.spReject_kept {n q} (h : Kept s₀ s₁) : Kept s₀ (State.spReject s₁ n q) := by
  unfold State.spReject
  try dsimp only
  with_reducible repeat' first | exact h | apply State.spAnswer_kept | apply State.raiseSp_kept
theorem State.spStage_kept {n p q} (h : Kept s₀ s₁) : Kept s₀ (State.spStage s₁ n p q).2 := by
  unfold State.spStage
  try dsimp only
  with_reducible repeat' first
    | exact h | apply State.perform_kept | apply State.stagePut_kept | refine State.stagePut_kept' ‹_› ?_
    | refine Kept.ite ?_ ?_ | split
theorem State.spStage_kept' {n p q} {r₀ u₀} (hq : State.spStage s₁ n p q = (r₀, u₀)) (h : Kept s₀ s₁) : Kept s₀ u₀ := by
  have := @State.spStage_kept s₀ s₁ n p q h
  rw [hq] at this
  exact this
theorem State.spServe_kept {n q} (h : Kept s₀ s₁) : Kept s₀ (State.spServe s₁ n q).2 := by
  unfold State.spServe
  try dsimp only
  with_reducible repeat' first
    | exact h | apply State.access_kept | apply State.spReply_kept | refine State.access_kept' ‹_› ?_
    | refine Kept.ite ?_ ?_ | split
theorem State.spServe_kept' {n q} {r₀ u₀} (hq : State.spServe s₁ n q = (r₀, u₀)) (h : Kept s₀ s₁) : Kept s₀ u₀ := by
  have := @State.spServe_kept s₀ s₁ n q h
  rw [hq] at this
  exact this
theorem State.masterIn_kept {n q} (h : Kept s₀ s₁) : Kept s₀ (State.masterIn s₁ n q).2 := by
  unfold State.masterIn
  try dsimp only
  with_reducible repeat' first
    | exact h | apply State.spServe_kept | apply State.spStage_kept | refine State.spServe_kept' ‹_› ?_
    | refine State.spStage_kept' ‹_› ?_ | refine Kept.ite ?_ ?_ | split
theorem State.masterIn_kept' {n q} {r₀ u₀} (hq : State.masterIn s₁ n q = (r₀, u₀)) (h : Kept s₀ s₁) : Kept s₀ u₀ := by
  have := @State.masterIn_kept s₀ s₁ n q h
  rw [hq] at this
  exact this
theorem State.spWatch_kept {n q} (h : Kept s₀ s₁) : Kept s₀ (State.spWatch s₁ n q).2 := by
  unfold State.spWatch
  try dsimp only
  with_reducible repeat' first
    | exact h | apply State.spReject_kept | apply State.memRead_kept | apply State.spReply_kept
    | refine State.memRead_kept' ‹_› ?_ | refine Kept.ite ?_ ?_ | split | refine Kept.upd ?_ ⟨rfl, rfl⟩
theorem State.spWatch_kept' {n q} {r₀ u₀} (hq : State.spWatch s₁ n q = (r₀, u₀)) (h : Kept s₀ s₁) : Kept s₀ u₀ := by
  have := @State.spWatch_kept s₀ s₁ n q h
  rw [hq] at this
  exact this
theorem State.spWake_kept {q} (h : Kept s₀ s₁) : Kept s₀ (State.spWake s₁ q) := by
  unfold State.spWake
  try dsimp only
  with_reducible repeat' first
    | exact h | apply State.spSend_kept | refine State.spSend_kept' ‹_› ?_ | refine Kept.ite ?_ ?_ | split
    | refine Kept.upd ?_ ⟨rfl, rfl⟩
theorem State.spDrop_kept {n} (h : Kept s₀ s₁) : Kept s₀ (State.spDrop s₁ n) := by
  unfold State.spDrop
  try dsimp only
  with_reducible repeat' first | exact h | apply State.countUp_kept
theorem State.spRequest_kept {n q} (h : Kept s₀ s₁) : Kept s₀ (State.spRequest s₁ n q).2 := by
  unfold State.spRequest
  try dsimp only
  with_reducible repeat' first
    | exact h | apply State.masterIn_kept | apply State.spDrop_kept | apply State.spWake_kept
    | apply State.spReject_kept | apply State.spAnswer_kept | apply State.spWatch_kept | apply State.spServe_kept
    | apply State.spStage_kept | refine State.masterIn_kept' ‹_› ?_ | refine State.spWatch_kept' ‹_› ?_
    | refine State.spServe_kept' ‹_› ?_ | refine State.spStage_kept' ‹_› ?_ | refine Kept.ite ?_ ?_ | split
theorem State.spRequest_kept' {n q} {r₀ u₀} (hq : State.spRequest s₁ n q = (r₀, u₀)) (h : Kept s₀ s₁) : Kept s₀ u₀ := by
  have := @State.spRequest_kept s₀ s₁ n q h
  rw [hq] at this
  exact this
theorem State.transit_kept {n q} (h : Kept s₀ s₁) : Kept s₀ (State.transit s₁ n q) := by
  unfold State.transit
  try dsimp only
  with_reducible repeat' first
    | exact h | apply State.spDrop_kept | apply State.raiseReq_kept | apply State.spAnswer_kept
    | apply State.raiseSp_kept | apply State.transmit_kept | refine Kept.ite ?_ ?_ | split
theorem State.spBlock_kept {n q} (h : Kept s₀ s₁) : Kept s₀ (State.spBlock s₁ n q) := by
  unfold State.spBlock
  try dsimp only
  with_reducible repeat' first
    | exact h | apply State.calib_kept | apply State.arriveIn_kept | apply State.goIn_kept | refine Kept.ite ?_ ?_
theorem State.arrivePacket_kept {n q} (h : Kept s₀ s₁) : Kept s₀ (State.arrivePacket s₁ n q).2 := by
  unfold State.arrivePacket
  try dsimp only
  with_reducible repeat' first
    | exact h | apply State.count64Hold_kept | apply State.spBlock_kept | apply State.spDrop_kept
    | apply State.transit_kept | apply State.response_kept | apply State.spRequest_kept
    | refine State.spRequest_kept' ‹_› ?_ | refine Kept.ite ?_ ?_ | split
theorem State.arrivePacket_kept' {n q} {r₀ u₀} (hq : State.arrivePacket s₁ n q = (r₀, u₀)) (h : Kept s₀ s₁) : Kept s₀ u₀ := by
  have := @State.arrivePacket_kept s₀ s₁ n q h
  rw [hq] at this
  exact this
theorem State.spArrival_kept {n kind q} (h : Kept s₀ s₁) : Kept s₀ (State.spArrival s₁ n kind q) := by
  unfold State.spArrival
  try dsimp only
  with_reducible repeat' first
    | exact h | apply State.arrivePacket_kept | refine State.arrivePacket_kept' ‹_› ?_ | refine Kept.ite ?_ ?_
theorem State.deliverAll_kept {n l} (h : Kept s₀ s₁) : Kept s₀ (State.deliverAll s₁ n l).2 := by
  unfold State.deliverAll
  try dsimp only
  with_reducible repeat' first
    | exact h | apply State.arrivePacket_kept | refine State.arrivePacket_kept' ‹_› ?_
    | refine Kept.foldl _ (fun _ _ _ => ?_) _ ?_ | refine Kept.foldlSnd _ (fun _ _ _ => ?_) _ ?_ | assumption
    | refine Kept.ite ?_ ?_ | split
theorem State.deliverAll_kept' {n l} {r₀ u₀} (hq : State.deliverAll s₁ n l = (r₀, u₀)) (h : Kept s₀ s₁) : Kept s₀ u₀ := by
  have := @State.deliverAll_kept s₀ s₁ n l h
  rw [hq] at this
  exact this
theorem State.linkBlock_kept {n b} (h : Kept s₀ s₁) : Kept s₀ (State.linkBlock s₁ n b) := by
  unfold State.linkBlock
  try dsimp only
  with_reducible repeat' first
    | exact h | apply State.countUp_kept | apply State.setPort_kept | apply State.deliverAll_kept
    | apply State.linkDown_kept | apply State.send_kept | refine State.deliverAll_kept' ‹_› ?_ | refine Kept.ite ?_ ?_
theorem execLinkBlock_kept {n b} (h : Kept s₀ s₁) : ∃ t₀, execLinkBlock n b s₁ = .next t₀ ∧ Kept s₀ t₀ := by
  unfold execLinkBlock
  refine ⟨_, rfl, ?_⟩
  try dsimp only
  with_reducible repeat' first | exact h | apply State.linkBlock_kept | refine Kept.ite ?_ ?_
theorem execReplayRequest_kept {n seq} (h : Kept s₀ s₁) : ∃ t₀, execReplayRequest n seq s₁ = .next t₀ ∧ Kept s₀ t₀ := by
  unfold execReplayRequest
  refine ⟨_, rfl, ?_⟩
  try dsimp only
  with_reducible repeat' first
    | exact h | apply State.countUp_kept | refine Kept.ite ?_ ?_ | split | refine Kept.upd ?_ ⟨rfl, rfl⟩
theorem execSpoutWrite_kept {n pkt} (h : Kept s₀ s₁) : ∃ t₀, execSpoutWrite n pkt s₁ = .next t₀ ∧ Kept s₀ t₀ := by
  unfold execSpoutWrite
  refine ⟨_, rfl, ?_⟩
  try dsimp only
  with_reducible repeat' first | exact h | apply State.spArrival_kept
theorem execSpoutRead_kept {n pkt} (h : Kept s₀ s₁) : ∃ t₀, execSpoutRead n pkt s₁ = .next t₀ ∧ Kept s₀ t₀ := by
  unfold execSpoutRead
  refine ⟨_, rfl, ?_⟩
  try dsimp only
  with_reducible repeat' first | exact h | apply State.spArrival_kept
theorem execSpoutAtomic_kept {n pkt} (h : Kept s₀ s₁) : ∃ t₀, execSpoutAtomic n pkt s₁ = .next t₀ ∧ Kept s₀ t₀ := by
  unfold execSpoutAtomic
  refine ⟨_, rfl, ?_⟩
  try dsimp only
  with_reducible repeat' first | exact h | apply State.spArrival_kept
theorem execSpoutSignal_kept {n pkt} (h : Kept s₀ s₁) : ∃ t₀, execSpoutSignal n pkt s₁ = .next t₀ ∧ Kept s₀ t₀ := by
  unfold execSpoutSignal
  refine ⟨_, rfl, ?_⟩
  try dsimp only
  with_reducible repeat' first | exact h | apply State.spArrival_kept
theorem execAck_kept {n pkt} (h : Kept s₀ s₁) : ∃ t₀, execAck n pkt s₁ = .next t₀ ∧ Kept s₀ t₀ := by
  unfold execAck
  refine ⟨_, rfl, ?_⟩
  try dsimp only
  with_reducible repeat' first | exact h | apply State.spArrival_kept
theorem execData_kept {n pkt} (h : Kept s₀ s₁) : ∃ t₀, execData n pkt s₁ = .next t₀ ∧ Kept s₀ t₀ := by
  unfold execData
  refine ⟨_, rfl, ?_⟩
  try dsimp only
  with_reducible repeat' first | exact h | apply State.spArrival_kept
theorem execError_kept {n pkt} (h : Kept s₀ s₁) : ∃ t₀, execError n pkt s₁ = .next t₀ ∧ Kept s₀ t₀ := by
  unfold execError
  refine ⟨_, rfl, ?_⟩
  try dsimp only
  with_reducible repeat' first | exact h | apply State.spArrival_kept
theorem State.sendAccess_kept {a} (h : Kept s₀ s₁) : Kept s₀ (State.sendAccess s₁ a) := by
  unfold State.sendAccess
  try dsimp only
  with_reducible repeat' first
    | exact h | apply State.spSend_kept | apply State.answer_kept | apply State.failTask_kept
    | refine State.spSend_kept' ‹_› ?_ | refine Kept.ite ?_ ?_ | split
theorem State.serveAccess_kept {x a} (h : Kept s₀ s₁) : Kept s₀ (State.serveAccess s₁ x a) := by
  unfold State.serveAccess
  try dsimp only
  with_reducible repeat' first
    | exact h | apply State.access_kept | apply State.answer_kept | apply State.failTask_kept
    | refine State.access_kept' ‹_› ?_ | refine Kept.ite ?_ ?_
theorem execRemoteAccess_kept {a} (h : Kept s₀ s₁) : ∃ t₀, execRemoteAccess a s₁ = .next t₀ ∧ Kept s₀ t₀ := by
  unfold execRemoteAccess
  refine ⟨_, rfl, ?_⟩
  try dsimp only
  with_reducible repeat' first
    | exact h | apply State.reqViolation_kept | apply State.serveAccess_kept | apply State.sendAccess_kept
    | refine Kept.ite ?_ ?_ | split
theorem State.l2Evict_kept {a} (h : Kept s₀ s₁) : Kept s₀ (State.l2Evict s₁ a) := by
  unfold State.l2Evict
  try dsimp only
  with_reducible repeat' first
    | exact h | apply State.localWrite_kept | refine State.localWrite_kept' ‹_› ?_ | refine Kept.ite ?_ ?_ | split
    | refine Kept.upd ?_ ⟨rfl, rfl⟩
theorem State.l2Room_kept (h : Kept s₀ s₁) : Kept s₀ (State.l2Room s₁) := by
  unfold State.l2Room
  try dsimp only
  with_reducible repeat' first
    | exact h | apply State.l2Evict_kept | apply State.draw_kept | refine Kept.ite ?_ ?_ | split
theorem State.l2Fill_kept {a1 a} (h : Kept s₀ s₁) : Kept s₀ (State.l2Fill s₁ a1 a).2 := by
  unfold State.l2Fill
  try dsimp only
  with_reducible repeat' first
    | exact h | apply State.localRead_kept | apply State.l2Room_kept | refine State.localRead_kept' ‹_› ?_
    | refine Kept.ite ?_ ?_ | split | refine Kept.upd ?_ ⟨rfl, rfl⟩
theorem State.l2Fill_kept' {a1 a} {r₀ u₀} (hq : State.l2Fill s₁ a1 a = (r₀, u₀)) (h : Kept s₀ s₁) : Kept s₀ u₀ := by
  have := @State.l2Fill_kept s₀ s₁ a1 a h
  rw [hq] at this
  exact this
theorem State.l2FillAll_kept {a1 a n} (h : Kept s₀ s₁) : Kept s₀ (State.l2FillAll s₁ a1 a n).2 := by
  unfold State.l2FillAll
  try dsimp only
  with_reducible repeat' first
    | exact h | apply State.l2Fill_kept | refine State.l2Fill_kept' ‹_› ?_
    | refine Kept.foldl _ (fun _ _ _ => ?_) _ ?_ | refine Kept.foldlSnd _ (fun _ _ _ => ?_) _ ?_ | assumption
    | refine Kept.ite ?_ ?_ | split
theorem State.l2FillAll_kept' {a1 a n} {r₀ u₀} (hq : State.l2FillAll s₁ a1 a n = (r₀, u₀)) (h : Kept s₀ s₁) : Kept s₀ u₀ := by
  have := @State.l2FillAll_kept s₀ s₁ a1 a n h
  rw [hq] at this
  exact this
theorem State.l2Put_kept {a l} (h : Kept s₀ s₁) : Kept s₀ (State.l2Put s₁ a l) := by
  unfold State.l2Put
  try dsimp only
  with_reducible repeat' first | exact h | refine Kept.ite ?_ ?_ | split | refine Kept.upd ?_ ⟨rfl, rfl⟩
theorem State.l2Clean_kept {lines} (h : Kept s₀ s₁) : Kept s₀ (State.l2Clean s₁ lines) := by
  unfold State.l2Clean
  try dsimp only
  with_reducible repeat' first
    | exact h | apply State.localWrite_kept | refine State.localWrite_kept' ‹_› ?_
    | refine Kept.foldl _ (fun _ _ _ => ?_) _ ?_ | refine Kept.foldlSnd _ (fun _ _ _ => ?_) _ ?_ | assumption
    | refine Kept.ite ?_ ?_ | split | refine Kept.upd ?_ ⟨rfl, rfl⟩
theorem State.l2Drop_kept {lines} (h : Kept s₀ s₁) : Kept s₀ (State.l2Drop s₁ lines) := by
  unfold State.l2Drop
  try dsimp only
  with_reducible repeat' first | exact h | refine Kept.ite ?_ ?_ | split | refine Kept.upd ?_ ⟨rfl, rfl⟩
theorem State.l2Cbo_kept {op a n} (h : Kept s₀ s₁) : Kept s₀ (State.l2Cbo s₁ op a n) := by
  unfold State.l2Cbo
  try dsimp only
  with_reducible repeat' first
    | exact h | apply State.l2Drop_kept | apply State.l2Clean_kept | refine Kept.ite ?_ ?_ | split
theorem State.cached_kept {a1 x a} (h : Kept s₀ s₁) : Kept s₀ (State.cached s₁ a1 x a) := by
  unfold State.cached
  try dsimp only
  with_reducible repeat' first
    | exact h | apply State.l2FillAll_kept | apply State.answer_kept | apply State.l2Put_kept
    | apply State.serveAccess_kept | apply State.l2Cbo_kept | refine State.l2FillAll_kept' ‹_› ?_
    | refine Kept.ite ?_ ?_ | split
theorem execScAccess_kept {a0 a cache} (h : Kept s₀ s₁) : ∃ t₀, execScAccess a0 a cache s₁ = .next t₀ ∧ Kept s₀ t₀ := by
  unfold execScAccess
  refine ⟨_, rfl, ?_⟩
  try dsimp only
  with_reducible repeat' first
    | exact h | apply State.answer_kept | apply State.l2Cbo_kept | apply State.raiseReq_kept
    | apply State.sendAccess_kept | apply State.stagePut_kept | apply State.serveAccess_kept | apply State.cached_kept
    | refine State.stagePut_kept' ‹_› ?_ | refine Kept.ite ?_ ?_ | split
theorem State.movWindow_kept {c n x e side va ga} (h : Kept s₀ s₁) : Kept s₀ (State.movWindow s₁ c n x e side va ga) := by
  unfold State.movWindow
  try dsimp only
  with_reducible repeat' first | exact h | apply State.bbViolation_kept | apply State.movFault_kept
theorem State.sideParts_kept {c n x e side loc a len right} (h : Kept s₀ s₁) : Kept s₀ (State.sideParts s₁ c n x e side loc a len right).2 := by
  unfold State.sideParts
  try dsimp only
  with_reducible repeat' first
    | exact h | apply State.movWindow_kept | apply State.descInvalid_kept | apply State.xlate_kept
    | apply State.movMiss_kept | refine State.xlate_kept' ‹_› ?_ | refine Kept.foldl _ (fun _ _ _ => ?_) _ ?_
    | refine Kept.foldlSnd _ (fun _ _ _ => ?_) _ ?_ | assumption | refine Kept.ite ?_ ?_ | split
theorem State.sideParts_kept' {c n x e side loc a len right} {r₀ u₀} (hq : State.sideParts s₁ c n x e side loc a len right = (r₀, u₀)) (h : Kept s₀ s₁) : Kept s₀ u₀ := by
  have := @State.sideParts_kept s₀ s₁ c n x e side loc a len right h
  rw [hq] at this
  exact this
theorem State.keySet_kept {c n x g full} (h : Kept s₀ s₁) : Kept s₀ (State.keySet s₁ c n x g full) := by
  unfold State.keySet
  try dsimp only
  with_reducible repeat' first
    | exact h | apply State.setTag_kept | apply State.spSend_kept | refine State.spSend_kept' ‹_› ?_
    | refine Kept.ite ?_ ?_ | split
theorem State.readParts_kept {c n x check l} (h : Kept s₀ s₁) : Kept s₀ (State.readParts s₁ c n x check l).2 := by
  unfold State.readParts
  try dsimp only
  with_reducible repeat' first
    | exact h | apply State.localRead_kept | apply State.spSend_kept | refine State.localRead_kept' ‹_› ?_
    | refine State.spSend_kept' ‹_› ?_ | refine Kept.foldl _ (fun _ _ _ => ?_) _ ?_
    | refine Kept.foldlSnd _ (fun _ _ _ => ?_) _ ?_ | assumption | refine Kept.ite ?_ ?_ | split
theorem State.readParts_kept' {c n x check l} {r₀ u₀} (hq : State.readParts s₁ c n x check l = (r₀, u₀)) (h : Kept s₀ s₁) : Kept s₀ u₀ := by
  have := @State.readParts_kept s₀ s₁ c n x check l h
  rw [hq] at this
  exact this
theorem State.movWait_kept {c n x st} (h : Kept s₀ s₁) : Kept s₀ (State.movWait s₁ c n x st) := by
  unfold State.movWait
  try dsimp only
  with_reducible repeat' first
    | exact h | apply State.block_kept | apply State.setChan_kept | apply State.lateData_kept | refine Kept.ite ?_ ?_
theorem State.issuePiece_kept {c n x e} (h : Kept s₀ s₁) : Kept s₀ (State.issuePiece s₁ c n x e) := by
  unfold State.issuePiece
  try dsimp only
  with_reducible repeat' first
    | exact h | apply State.setChan_kept | apply State.sideParts_kept | apply State.descInvalid_kept
    | apply State.movWait_kept | apply State.readParts_kept | apply State.abortCtx_kept | apply State.started_kept
    | refine State.sideParts_kept' ‹_› ?_ | refine State.readParts_kept' ‹_› ?_ | refine Kept.ite ?_ ?_ | split
theorem State.tryPiece_kept {c n} (h : Kept s₀ s₁) : Kept s₀ (State.tryPiece s₁ c n).2 := by
  unfold State.tryPiece
  try dsimp only
  with_reducible repeat' first | exact h | apply State.issuePiece_kept | refine Kept.ite ?_ ?_ | split
theorem State.tryPiece_kept' {c n} {r₀ u₀} (hq : State.tryPiece s₁ c n = (r₀, u₀)) (h : Kept s₀ s₁) : Kept s₀ u₀ := by
  have := @State.tryPiece_kept s₀ s₁ c n h
  rw [hq] at this
  exact this
theorem State.pieceNoted_kept {c n net} (h : Kept s₀ s₁) : Kept s₀ (State.pieceNoted s₁ c n net) := by
  unfold State.pieceNoted
  try dsimp only
  with_reducible repeat' first
    | exact h | apply State.place_kept | refine Kept.ite ?_ ?_ | split | refine Kept.upd ?_ ⟨rfl, rfl⟩
theorem State.pieceLost_kept {c n} (h : Kept s₀ s₁) : Kept s₀ (State.pieceLost s₁ c n) := by
  unfold State.pieceLost
  try dsimp only
  with_reducible repeat' first
    | exact h | apply State.ndTiming_kept | refine Kept.ite ?_ ?_ | split | refine Kept.upd ?_ ⟨rfl, rfl⟩
theorem execMoverPieceIssue_kept {c n} (h : Kept s₀ s₁) : ∃ t₀, execMoverPieceIssue c n s₁ = .next t₀ ∧ Kept s₀ t₀ := by
  unfold execMoverPieceIssue
  refine ⟨_, rfl, ?_⟩
  try dsimp only
  with_reducible repeat' first
    | exact h | apply State.tryPiece_kept | apply State.pieceNoted_kept | apply State.pieceLost_kept
    | refine State.tryPiece_kept' ‹_› ?_ | refine Kept.ite ?_ ?_ | split
theorem State.setProgress_kept {c e v} (h : Kept s₀ s₁) : Kept s₀ (State.setProgress s₁ c e v) := by
  unfold State.setProgress
  try dsimp only
  with_reducible repeat' first | exact h | apply State.wr_kept
theorem State.writeSides_kept {c n x l} (h : Kept s₀ s₁) : Kept s₀ (State.writeSides s₁ c n x l).2 := by
  unfold State.writeSides
  try dsimp only
  with_reducible repeat' first
    | exact h | apply State.localWrite_kept | refine State.localWrite_kept' ‹_› ?_
    | refine Kept.foldl _ (fun _ _ _ => ?_) _ ?_ | refine Kept.foldlSnd _ (fun _ _ _ => ?_) _ ?_ | assumption
    | refine Kept.ite ?_ ?_ | split
theorem State.writeSides_kept' {c n x l} {r₀ u₀} (hq : State.writeSides s₁ c n x l = (r₀, u₀)) (h : Kept s₀ s₁) : Kept s₀ u₀ := by
  have := @State.writeSides_kept s₀ s₁ c n x l h
  rw [hq] at this
  exact this
theorem State.sendSides_kept {c n x l} (h : Kept s₀ s₁) : Kept s₀ (State.sendSides s₁ c n x l).2 := by
  unfold State.sendSides
  try dsimp only
  with_reducible repeat' first
    | exact h | apply State.spSend_kept | refine State.spSend_kept' ‹_› ?_
    | refine Kept.foldl _ (fun _ _ _ => ?_) _ ?_ | refine Kept.foldlSnd _ (fun _ _ _ => ?_) _ ?_ | assumption
    | refine Kept.ite ?_ ?_ | split
theorem State.sendSides_kept' {c n x l} {r₀ u₀} (hq : State.sendSides s₁ c n x l = (r₀, u₀)) (h : Kept s₀ s₁) : Kept s₀ u₀ := by
  have := @State.sendSides_kept s₀ s₁ c n x l h
  rw [hq] at this
  exact this
theorem State.deliverCensus_kept {c n x d q xs} (h : Kept s₀ s₁) : Kept s₀ (State.deliverCensus s₁ c n x d q xs).2 := by
  unfold State.deliverCensus
  try dsimp only
  with_reducible repeat' first
    | exact h | apply State.setChan_kept | apply State.localWrite_kept | refine State.localWrite_kept' ‹_› ?_
    | refine Kept.ite ?_ ?_ | split
theorem State.deliverCensus_kept' {c n x d q xs} {r₀ u₀} (hq : State.deliverCensus s₁ c n x d q xs = (r₀, u₀)) (h : Kept s₀ s₁) : Kept s₀ u₀ := by
  have := @State.deliverCensus_kept s₀ s₁ c n x d q xs h
  rw [hq] at this
  exact this
theorem State.pieceLanded_kept {c n x q o} (h : Kept s₀ s₁) : Kept s₀ (State.pieceLanded s₁ c n x q o) := by
  unfold State.pieceLanded
  try dsimp only
  with_reducible repeat' first
    | exact h | apply State.keySet_kept | apply State.setTag_kept | apply State.count64_kept
    | apply State.countUp_kept | apply State.setProgress_kept | apply State.progress_kept | apply State.setChan_kept
    | refine Kept.foldl _ (fun _ _ _ => ?_) _ ?_ | refine Kept.foldlSnd _ (fun _ _ _ => ?_) _ ?_ | assumption
    | refine Kept.ite ?_ ?_ | split
theorem State.dropPiece_kept {c n} (h : Kept s₀ s₁) : Kept s₀ (State.dropPiece s₁ c n) := by
  unfold State.dropPiece
  try dsimp only
  with_reducible repeat' first | exact h | apply State.setChan_kept | refine Kept.ite ?_ ?_
theorem State.deliverPiece_kept {c n q} (h : Kept s₀ s₁) : Kept s₀ (State.deliverPiece s₁ c n q) := by
  unfold State.deliverPiece
  try dsimp only
  with_reducible repeat' first
    | exact h | apply State.dropPiece_kept | apply State.abortCtx_kept | apply State.movFault_kept
    | apply State.sendSides_kept | apply State.setChan_kept | apply State.writeSides_kept
    | apply State.deliverCensus_kept | apply State.pieceLanded_kept | refine State.sendSides_kept' ‹_› ?_
    | refine State.writeSides_kept' ‹_› ?_ | refine State.deliverCensus_kept' ‹_› ?_ | refine Kept.ite ?_ ?_ | split
theorem execPieceDelivery_kept {c n} (h : Kept s₀ s₁) : ∃ t₀, execPieceDelivery c n s₁ = .next t₀ ∧ Kept s₀ t₀ := by
  unfold execPieceDelivery
  refine ⟨_, rfl, ?_⟩
  try dsimp only
  with_reducible repeat' first | exact h | apply State.deliverPiece_kept | refine Kept.ite ?_ ?_ | split
theorem execTimedPieceRelease_kept {c n staged} (h : Kept s₀ s₁) : ∃ t₀, execTimedPieceRelease c n staged s₁ = .next t₀ ∧ Kept s₀ t₀ := by
  unfold execTimedPieceRelease
  refine ⟨_, rfl, ?_⟩
  try dsimp only
  with_reducible repeat' first
    | exact h | apply State.deliverPiece_kept | apply State.lateData_kept | apply State.setChan_kept
    | refine Kept.ite ?_ ?_ | split
theorem State.retire_kept {c n e} (h : Kept s₀ s₁) : Kept s₀ (State.retire s₁ c n e) := by
  unfold State.retire
  try dsimp only
  with_reducible repeat' first
    | exact h | apply State.keySet_kept | apply State.countWrap_kept | apply State.setChan_kept
    | apply State.unitSignal_kept | apply State.setProgress_kept | refine Kept.foldl _ (fun _ _ _ => ?_) _ ?_
    | refine Kept.foldlSnd _ (fun _ _ _ => ?_) _ ?_ | assumption
theorem execDescriptorRetire_kept {c n} (h : Kept s₀ s₁) : ∃ t₀, execDescriptorRetire c n s₁ = .next t₀ ∧ Kept s₀ t₀ := by
  unfold execDescriptorRetire
  refine ⟨_, rfl, ?_⟩
  try dsimp only
  with_reducible repeat' first | exact h | apply State.retire_kept | refine Kept.ite ?_ ?_ | split

end Sys2Proof.Machine
end

