-- ==== Sys2Proof/WellFormed.lean ====
section
/-! DEFINITION. Which commands are well formed: every operand names a unit the chip has (R14, R15) or is a value its
field can hold. Each check has its own name; `WellFormed` is the conjunction the command's row calls for. A command
that is not well formed names nothing on the chip; no meaning depends on this file. -/

namespace Sys2Proof

/-! ## Values of a field -/

def isNibble (n : Nat) : Bool := decide (n < 16)
def isByte (n : Nat) : Bool := decide (n < 2 ^ 8)
def isHalf (n : Nat) : Bool := decide (n < 2 ^ 16)
def isWord (n : Nat) : Bool := decide (n < 2 ^ 32)
def isDouble (n : Nat) : Bool := decide (n < 2 ^ 64)
/-- An access width the register file accepts or refuses by R9: 1 to 8 bytes. -/
def isWidth (n : Nat) : Bool := decide (1 ≤ n ∧ n ≤ 8)
/-- A 41-bit local address. -/
def isLocal (n : Nat) : Bool := decide (n < 2 ^ 41)
/-- A 48-bit global address. -/
def isGlobal (n : Nat) : Bool := decide (n < 2 ^ 48)
/-- A 47-bit virtual address (R246). -/
def isVirtual (n : Nat) : Bool := decide (n < 2 ^ 47)
/-- A range of BAR2 (R391). -/
def isBar2 (offset len : Nat) : Bool := decide (offset + len ≤ 2 ^ 34)

/-! ## Units of the chip -/

def isCluster (c : Nat) : Bool := decide (c < 64)
def isArray (a : Nat) : Bool := decide (a < 8)
def isContext (x : Nat) : Bool := decide (x < 5)
/-- A context, or slot n as 8 + n. -/
def isContextOrSlot (x : Nat) : Bool := isContext x || (decide (8 ≤ x) && decide (x < 24))
def isTile (t : Nat) : Bool := decide (t < 8)
def isElement (e : Nat) : Bool := decide (e < 1024)
def isEngine (e : Nat) : Bool := decide (e < 2)
def isBank (b : Nat) : Bool := decide (b < 32)
def isScratchSlot (n : Nat) : Bool := decide (n < 8192)
def isWindow (w : Nat) : Bool := decide (w < 8)
def isWindowWord (w : Nat) : Bool := decide (w < 4)
def isMovChannel (n : Nat) : Bool := decide (n < 16)
def isEntry (e : Nat) : Bool := decide (e < 32)
def isDescWord (w : Nat) : Bool := decide (w < 16)
/-- A context a Mover channel is bound to: 0 to 4, or 7 for none (R137). -/
def isBinding (x : Nat) : Bool := decide (x < 5) || x == 7
def isChainOffset (off : Nat) : Bool := decide (off < 0x200 ∧ off % 4 = 0)
def isPart (p : Nat) : Bool := decide (p < 4)
/-- A partition that publishes: perception 0 to 3 or S (R287). -/
def isPublisher (p : Nat) : Bool := decide (p < 5)
def isStream (n : Nat) : Bool := decide (n < 64)
def isStagingSource (n : Nat) : Bool := decide (n < 26)
def isDpp (d : Nat) : Bool := decide (d < 4)
def isTaskSlot (n : Nat) : Bool := decide (n < 16)
def isRing (n : Nat) : Bool := decide (n < 8)
def isRouter (n : Nat) : Bool := decide (n < 96)
def isPipe (i : Nat) : Bool := decide (i < 16)
def isMac (e : Nat) : Bool := decide (e < 4)
def isStrainer (n : Nat) : Bool := decide (n < 31)
def isGenerator (g : Nat) : Bool := decide (g < 25)
def isGenOffset (off : Nat) : Bool := decide (off = 0 ∨ off = 4 ∨ off = 8 ∨ off = 0xC)
def isPort (n : Nat) : Bool := decide (n < 4)
def isChip (n : Nat) : Bool := decide (n < 128)
def isChannel (n : Nat) : Bool := decide (n < 16)
def isDramBank (n : Nat) : Bool := decide (n < 32)
def isRank (n : Nat) : Bool := decide (n < 2)
def isPair (n : Nat) : Bool := decide (n < 32)
def isGroup (n : Nat) : Bool := decide (n < 3)
def isHart (n : Nat) : Bool := decide (n < 8)
def isUart (n : Nat) : Bool := decide (n < 2)
def isPll (n : Nat) : Bool := decide (n < 16)
def isRail (n : Nat) : Bool := decide (n < 9)
def isEntryNo (n : Nat) : Bool := decide (n < 256)

/-! ## Codes -/

def isAbortCause (n : Nat) : Bool := decide (1 ≤ n ∧ n ≤ 5)
def isSafeCause (n : Nat) : Bool := decide (1 ≤ n ∧ n ≤ 5)
def isTakeoverCause (n : Nat) : Bool := decide (1 ≤ n ∧ n ≤ 4)
/-- A fault scope: partition 0 to 3, S as 4, the device as 7. -/
def isScope (n : Nat) : Bool := decide (n < 5) || n == 7
def isCrashScope (n : Nat) : Bool := decide (n < 5) || n == 7
def isTestKind (n : Nat) : Bool := decide (n < 8)
def isStraps (n : Nat) : Bool := decide (n < 8)
def isPerstEvent (n : Nat) : Bool := decide (n < 4)
def isWakeSource (n : Nat) : Bool := decide (n < 4)
def isLinkWidth (n : Nat) : Bool := [1, 2, 4, 8].contains n
def isLinkSpeed (n : Nat) : Bool := [4, 5].contains n
def isVirtualChannel (n : Nat) : Bool := decide (n < 16)
def isTempReport (n : Nat) : Bool := decide (n < 8)
def isSymbolCount (n : Nat) : Bool := decide (n ≤ 36)
def isSequence (n : Nat) : Bool := decide (n < 2 ^ 16)
def isLatency (n : Nat) : Bool := decide (n < 2 ^ 24)

/-! ## Requesters, accesses and packets -/

/-- A requester of the chip (Table 05-3). -/
def isRequester : Requester → Bool
  | .sequencer c => isCluster c
  | .array c a x => isCluster c && isArray a && isContext x
  | .engine c e x => isCluster c && isEngine e && isContext x
  | .mover c n x => isCluster c && isMovChannel n && isBinding x
  | .attention c x => isCluster c && isContext x
  | .tiler c x => isCluster c && isContext x
  | .swapUnit c => isCluster c
  | .steward => true
  | .urn => true
  | .caddy => true
  | .pcie => true
  | .hart h => isHart h
  | .spout n => isPort n
  | .pipe i => isPipe i
  | .parser e => isMac e
  | .dpp d => isDpp d
  | .sliceRinse n => decide (n < 64)
  | .jtag => true

/-- Bytes written, between one and a piece of 4 KiB. -/
def isBytes (bytes : List Byte) : Bool := decide (1 ≤ bytes.length ∧ bytes.length ≤ 4096)

/-- What an access does fits its request (R19, R128, R306). -/
def isKind : AccessKind → Bool
  | .read len => decide (1 ≤ len ∧ len ≤ 4096)
  | .write bytes => isBytes bytes
  | .atomic _ operand expected => isDouble operand && isDouble expected
  | .signal inc => isWord inc
  | .set value => isDouble value

/-- A request (R19). -/
def isAccess (a : Access) : Bool := isRequester a.req && isGlobal a.addr && isKind a.kind

/-- A Spout packet's fields fit their places (Table 17-3). -/
def isPacket (k : SpoutPacket) : Bool :=
  isNibble k.kind && isNibble k.cls && isNibble k.vc && isByte k.ttl && isChip k.dest && isChip k.src && isHalf k.req &&
    isHalf k.len && isByte k.atomicOp && isGlobal k.addr && isHalf k.tag && decide (k.payload.length ≤ 4096)

/-- A link block (R366). -/
def isBlock (b : LinkBlock) : Bool := isSequence b.seq && b.packets.all isPacket

/-- A golden test's faulty byte: the unit exists and the change is one (R438). -/
def isUnitError (e : UnitError) : Bool := isCluster e.cluster && decide (e.unit < 11) && decide (e.xor ≠ 0)

/-- A CSI-2 packet (R334). -/
def isCsi (k : CsiPacket) : Bool := decide (k.dt < 64) && isVirtualChannel k.vc && decide (k.payload.length < 2 ^ 16)

/-! ## The commands -/

/-- A command is well formed: every operand names a unit the chip has or fits its field. -/
def WellFormed : Instr → Bool
  | .registerWrite r addr width value => isRequester r && isLocal addr && isWidth width && isDouble value
  | .counterLowRead r addr => isRequester r && isLocal addr
  | .siSubmit ring _ _ _ => isRing ring
  | .imageAcceptance => true
  | .hotSwitch p => isPart p
  | .siRevert ring _ => isRing ring
  | .panel c a x => isCluster c && isArray a && isContext x
  | .anchor c a x => isCluster c && isArray a && isContext x
  | .pass c a x => isCluster c && isArray a && isContext x
  | .passCommit c a => isCluster c && isArray a
  | .drain c a x => isCluster c && isArray a && isContext x
  | .drainComplete c a => isCluster c && isArray a
  | .save c a x => isCluster c && isArray a && isContext x
  | .restore c a x => isCluster c && isArray a && isContext x
  | .merge c a x => isCluster c && isArray a && isContext x
  | .mergeComplete c a => isCluster c && isArray a
  | .passAbort c a x cause => isCluster c && isArray a && isContext x && isAbortCause cause
  | .accWrite r c a t e value be => isRequester r && isCluster c && isArray a && isTile t && isElement e && isDouble value && isByte be
  | .arrCtrlStop r c a value => isRequester r && isCluster c && isArray a && isWord value
  | .arrTileOwnerWrite r c a value => isRequester r && isCluster c && isArray a && isWord value
  | .vecStep c e => isCluster c && isEngine e
  | .vecChainWrite r c e off value => isRequester r && isCluster c && isEngine e && isChainOffset off && isWord value
  | .correctionWriteBack c bank => isCluster c && isBank bank
  | .remoteAccess a => isAccess a
  | .poolAtomic r _ addr operand expected => isRequester r && isLocal addr && isDouble operand && isDouble expected
  | .workCounterFetch r addr inc => isRequester r && isLocal addr && isWord inc
  | .setFull r c slot => isRequester r && isCluster c && isScratchSlot slot
  | .setEmpty r c slot => isRequester r && isCluster c && isScratchSlot slot
  | .rinseScrub c x => isCluster c && isContext x
  | .rinseRegionDone c x w => isCluster c && isContext x && isWindow w
  | .movDescWrite r c e word value => isRequester r && isCluster c && isEntry e && isDescWord word && isWord value
  | .movPush r c n e => isRequester r && isCluster c && isMovChannel n && isEntry e
  | .movAbort r c n => isRequester r && isCluster c && isMovChannel n
  | .movResume r c n => isRequester r && isCluster c && isMovChannel n
  | .movCtxBind r c n x => isRequester r && isCluster c && isMovChannel n && isBinding x
  | .moverPieceIssue c n => isCluster c && isMovChannel n
  | .pieceDelivery c n => isCluster c && isMovChannel n
  | .timedPieceRelease c n _ => isCluster c && isMovChannel n
  | .descriptorRetire c n => isCluster c && isMovChannel n
  | .tokenRefill c => isCluster c
  | .matmul c x => isCluster c && isContext x
  | .conv2d c x => isCluster c && isContext x
  | .dwconv2d c x => isCluster c && isContext x
  | .groupconv2d c x => isCluster c && isContext x
  | .poolMax c x => isCluster c && isContext x
  | .poolAvg c x => isCluster c && isContext x
  | .resize c x => isCluster c && isContext x
  | .attnStep c x => isCluster c && isContext x
  | .accept c x => isCluster c && isContext x
  | .detect c x => isCluster c && isContext x
  | .elemwise c x => isCluster c && isContext x
  | .layernorm c x => isCluster c && isContext x
  | .rmsnorm c x => isCluster c && isContext x
  | .softmax c x => isCluster c && isContext x
  | .reduce c x => isCluster c && isContext x
  | .cast c x => isCluster c && isContext x
  | .bounds c x => isCluster c && isContext x
  | .copy c x => isCluster c && isContext x
  | .census c x => isCluster c && isContext x
  | .completionWord c x => isCluster c && isContext x
  | .window c x => isCluster c && isContext x
  | .arrFlush r c x arrays => isRequester r && isCluster c && isContext x && isByte arrays
  | .splitKFallback c x => isCluster c && isContext x
  | .phase2Item c x => isCluster c && isContext x
  | .countWordRead c => isCluster c
  | .dppJobStart d => isDpp d
  | .dppJobEnd d => isDpp d
  | .dppTBound d => isDpp d
  | .seqSet ring _ => isRing ring
  | .stepBuild p => isPart p
  | .stepCommit p => isPart p
  | .appendItem c x => isCluster c && isContext x
  | .attendItem c x => isCluster c && isContext x
  | .attResume r c => isRequester r && isCluster c
  | .attOverrun c => isCluster c
  | .pageWalk r c x va _ => isRequester r && isCluster c && isContext x && isVirtual va
  | .fenceIssue r hi => isRequester r && isWord hi
  | .fenceRetire => true
  | .bbWindowWrite r c x w word value => isRequester r && isCluster c && isContext x && isWindow w && isWindowWord word && isWord value
  | .lpddr6ZeroFill c x => isCluster c && isContextOrSlot x
  | .minorFrameStart p => isPart p
  | .brewLaunch p => isPart p
  | .timedTaskStart p _ => isPart p
  | .deadlineMiss p _ => isPart p
  | .ingress p => isPart p
  | .stagingEnqueue src p a => isStagingSource src && isPart p && isAccess a
  | .injectionStop p src => isPart p && isStagingSource src
  | .swap p => isPart p
  | .claim p => isPart p
  | .claimRelease p => isPart p
  | .taster p => isPart p
  | .goldenTest p errors => isPart p && errors.all isUnitError
  | .tasterCompare p c => isPart p && isCluster c
  | .selftest p => isPart p
  | .selftestSlice p => isPart p
  | .sliceEnd p _ => isPart p
  | .sliceAbandon p => isPart p
  | .selftestOverdue p kind _ _ => isPart p && isTestKind kind
  | .publish p => isPart p
  | .urnAgePub r p stream => isRequester r && isPublisher p && isStream stream
  | .ageCheck => true
  | .nocPacket router p r ga _ _ _ => isRouter router && isPart p && isRequester r && decide (ga < 2 ^ 48)
  | .launch ring _ => isRing ring
  | .taskGraphLaunch p entry => isPart p && isEntryNo entry
  | .slotAllocate => true
  | .contextSwap c => isCluster c
  | .stateImageSave c x => isCluster c && isContext x
  | .load r c x slot => isRequester r && isCluster c && isContext x && isTaskSlot slot
  | .loadComplete c x => isCluster c && isContext x
  | .preempt r c x => isRequester r && isCluster c && isContext x
  | .teardown r c x _ slot => isRequester r && isCluster c && isContext x && isTaskSlot slot
  | .watch c x => isCluster c && isContext x
  | .unwatch c x => isCluster c && isContext x
  | .wake c x addr => isCluster c && isContext x && isGlobal addr
  | .syncSignal r addr inc => isRequester r && isGlobal addr && isWord inc
  | .syncSet addr value => isGlobal addr && isDouble value
  | .syncPoll c x => isCluster c && isContextOrSlot x
  | .tilerContextChange c => isCluster c
  | .seed ring _ => isRing ring
  | .ndClear ring _ => isRing ring
  | .clrTiming r p => isRequester r && isPart p
  | .clrValue r p => isRequester r && isPart p
  | .csiPacket i pkt => isPipe i && isCsi pkt
  | .frameStart i vc => isPipe i && isVirtualChannel vc
  | .frameComplete i => isPipe i
  | .ingStampOfs r i value => isRequester r && isPipe i && isWord value
  | .ethFrame e _ _ => isMac e
  | .bufferClose e => isMac e
  | .strainerAccept n _ => isStrainer n
  | .minIvEnd n => isStrainer n
  | .strainerStuck n => isStrainer n
  | .resetN _ => true
  | .internalResetRelease straps _ => isStraps straps
  | .perstN event => isPerstEvent event
  | .pwrGoodFall => true
  | .safeIn _ => true
  | .tempAlertN _ => true
  | .ppsIn => true
  | .jump r hi => isRequester r && isWord hi
  | .slew r hi => isRequester r && isWord hi
  | .tbRate r value => isRequester r && isWord value
  | .tbIncr r value => isRequester r && isWord value
  | .tbTimeRead r => isRequester r
  | .tbPpsinRawHiRead r => isRequester r
  | .tbTsIdRead r e _ => isRequester r && isMac e
  | .triggerFire g => isGenerator g
  | .pulseEnd g => isGenerator g
  | .genEnable r g value => isRequester r && isGenerator g && isWord value
  | .genCfgWrite r g off value => isRequester r && isGenerator g && isGenOffset off && isWord value
  | .clockCheck _ => true
  | .linkTraining n lanes calib => isPort n && isByte lanes && isLatency calib
  | .trainingRetry n => isPort n
  | .ident n peer port sys => isPort n && isChip peer && isPort port && isByte sys
  | .linkBlock n blk => isPort n && isBlock blk
  | .replayRequest n seq => isPort n && isSequence seq
  | .spoutWrite n pkt => isPort n && isPacket pkt
  | .spoutRead n pkt => isPort n && isPacket pkt
  | .spoutAtomic n pkt => isPort n && isPacket pkt
  | .spoutSignal n pkt => isPort n && isPacket pkt
  | .ack n pkt => isPort n && isPacket pkt
  | .data n pkt => isPort n && isPacket pkt
  | .error n pkt => isPort n && isPacket pkt
  | .calibExchange n => isPort n
  | .calib n pkt => isPort n && isPacket pkt
  | .arm r => isRequester r
  | .arrive n pkt => isPort n && isPacket pkt
  | .go n pkt => isPort n && isPacket pkt
  | .barrierStart => true
  | .barrierTimeout => true
  | .respTimeout tag => isSequence tag
  | .linkDown n => isPort n
  | .retrain r n => isRequester r && isPort n
  | .bar2Write offset bytes => isBar2 offset bytes.length
  | .bar2Read offset len => isBar2 offset len
  | .hostServiceTick => true
  | .progLoad ring _ _ => isRing ring
  | .suspend ring _ => isRing ring
  | .cont ring _ => isRing ring
  | .kill ring _ => isRing ring
  | .fence ring _ => isRing ring
  | .signal ring _ => isRing ring
  | .set ring _ => isRing ring
  | .partReset ring _ => isRing ring
  | .fwStage ring _ _ => isRing ring
  | .trigSet ring _ => isRing ring
  | .nop ring _ => isRing ring
  | .ringCfgWrite r n value => isRequester r && isRing n && isWord value
  | .ringReset r n => isRequester r && isRing n
  | .harts r value => isRequester r && isWord value
  | .scAccess h a _ => isHart h && isAccess a
  | .macTransmit e => isMac e
  | .lpddr6Request a badSymbols => isAccess a && isSymbolCount badSymbols
  | .mcWriteBack ch => isChannel ch
  | .refresh ch bank => isChannel ch && isDramBank bank
  | .temperatureReportRead ch report => isChannel ch && isTempReport report
  | .dqsOscillatorRead ch rank count => isChannel ch && isRank rank && isHalf count
  | .patrol ch badSymbols => isChannel ch && isSymbolCount badSymbols
  | .channelTrainingEnd ch _ _ => isChannel ch
  | .lockstepMismatch pair group => isPair pair && isGroup group
  | .reportPathFault pair => isPair pair
  | .tasterMissed p => isPart p
  | .safeState p cause => isPart p && isSafeCause cause
  | .deviceSafeState cause => isSafeCause cause
  | .urnSafeCmdParts r parts => isRequester r && isNibble parts
  | .urnSafeCmdDevice r => isRequester r
  | .stSafeCmd r value => isRequester r && isWord value
  | .errOutReturn => true
  | .faultRaise _ scope _ => isScope scope
  | .windowExpiry seq => isWord seq
  | .urnSecond => true
  | .fcAck r seq => isRequester r && isWord seq
  | .fcSwRaise r value => isRequester r && isWord value
  | .hangContext c x => isCluster c && isContext x
  | .hangSequencer c => isCluster c
  | .clSeqWdog r c => isRequester r && isCluster c
  | .hangTask c slot => isCluster c && isTaskSlot slot
  | .stewardHb _ => true
  | .urnHbCheck => true
  | .stewardRestart => true
  | .partitionReset p => isPart p
  | .resetOverrun p => isPart p
  | .crashCapture scope => isCrashScope scope
  | .crashPartial => true
  | .clusterReset c => isCluster c
  | .deviceReset => true
  | .lastResortTakeover cause => isTakeoverCause cause
  | .pmLrsReq r value => isRequester r && isWord value
  | .autoReset => true
  | .fwSwitchover => true
  | .confirm r => isRequester r
  | .fwSwitchFail => true
  | .flashRewriteEnd _ => true
  | .recoveryPoll _ => true
  | .attest ring _ => isRing ring
  | .certRead ring _ => isRing ring
  | .ownerEnrol ring _ _ => isRing ring
  | .ownerRevoke ring _ _ => isRing ring
  | .siMinRaise ring _ => isRing ring
  | .cadExtCmd r value => isRequester r && isWord value
  | .cadTrngFail => true
  | .pmStateRun r => isRequester r
  | .pmStateTrim r => isRequester r
  | .pmStateWatch r => isRequester r
  | .pmStateRetain r => isRequester r
  | .pmStateOff r => isRequester r
  | .stateEntryComplete => true
  | .wakeSource w => isWakeSource w
  | .pmWakeReq r => isRequester r
  | .alarm => true
  | .avs _ => true
  | .thermalSample _ => true
  | .ckPllUnlock n => isPll n
  | .railOutOfRange rail => isRail rail
  | .railTimeout => true
  | .pmGpioOut r value => isRequester r && isWord value
  | .powerUp _ => true
  | .switchedRailsInRange => true
  | .pcieLinkTraining width speed => isLinkWidth width && isLinkSpeed speed
  | .trngOkReturn => true
  | .uartReceive u ch => isUart u && isByte ch

end Sys2Proof
end

