-- ==== Sys2Proof/Tests/Slice0.lean ====
section
/-! SUPPORT. The model's own tests: terms each well-formedness check refuses, the worked examples of the spec, and for
every statement with hypotheses a state and operands that meet them together. -/

open Sys2Proof Sys2Proof.Machine

namespace Sys2Proof.Tests

set_option Elab.async false
set_option linter.unusedVariables false

/-! ## Well-formedness -/

/-- Refused: a value too wide for its field. -/
theorem test_wellFormed_refuses_widths :
    ([.goldenTest 0 [⟨0, 11, 0, 1⟩], .urnSafeCmdParts .steward 16, .arrFlush .steward 0 0 256,
      .dqsOscillatorRead 0 0 65536, .syncSignal .steward 0 (2 ^ 32), .syncSet 0 (2 ^ 64),
      .registerWrite .steward 0 9 0, .registerWrite .steward 0 0 0, .registerWrite .steward (2 ^ 41) 4 0,
      .wake 0 0 (2 ^ 48), .pageWalk .steward 0 0 (2 ^ 47) .read, .bar2Read (2 ^ 34) 1] : List Instr).all (fun i => !WellFormed i) = true := by decide +kernel

/-- Refused: a unit of a cluster the chip does not have. -/
theorem test_wellFormed_refuses_clusterUnits :
    ([.tokenRefill 64, .passCommit 0 8, .matmul 0 5, .accWrite .steward 0 0 8 0 0 0,
      .accWrite .steward 0 0 0 1024 0 0, .vecStep 0 2, .correctionWriteBack 0 32, .setFull .steward 0 8192,
      .rinseRegionDone 0 0 8, .bbWindowWrite .steward 0 0 0 4 0, .moverPieceIssue 0 16, .movPush .steward 0 0 32,
      .movDescWrite .steward 0 0 16 0, .movCtxBind .steward 0 0 5, .vecChainWrite .steward 0 0 0x200 0,
      .vecChainWrite .steward 0 0 2 0, .hangTask 0 16] : List Instr).all (fun i => !WellFormed i) = true := by decide +kernel

/-- Refused: a unit of the chip that it does not have. -/
theorem test_wellFormed_refuses_chipUnits :
    ([.hotSwitch 4, .urnAgePub .steward 5 0, .urnAgePub .steward 0 64, .injectionStop 0 26, .dppJobEnd 4,
      .siSubmit 8 0 false false, .nocPacket 96 0 .steward 0 false false none,
      .nocPacket 0 5 .steward 0 false false none, .tasterCompare 0 64, .goldenTest 0 [⟨64, 0, 0, 1⟩],
      .frameComplete 16, .bufferClose 4, .minIvEnd 31, .triggerFire 25, .genCfgWrite .steward 0 1 0,
      .trainingRetry 4, .ident 0 128 0 0, .mcWriteBack 16, .refresh 0 32, .dqsOscillatorRead 0 2 0,
      .reportPathFault 32, .lockstepMismatch 0 3,
      .scAccess 8 { req := .steward, addr := 0, tagged := false, kind := .read 1 } none, .uartReceive 2 0,
      .ckPllUnlock 16, .railOutOfRange 9, .taskGraphLaunch 0 256] : List Instr).all (fun i => !WellFormed i) = true := by decide +kernel

/-- Refused: a code outside its table. -/
theorem test_wellFormed_refuses_codes :
    ([.passAbort 0 0 0 0, .passAbort 0 0 0 6, .safeState 0 6, .lastResortTakeover 5, .faultRaise .tbStall 5 {},
      .crashCapture 6, .selftestOverdue 0 8 0 0, .internalResetRelease 8 .clean, .perstN 4, .wakeSource 4,
      .pcieLinkTraining 3 4, .pcieLinkTraining 4 6, .frameStart 0 16, .temperatureReportRead 0 8, .patrol 0 37,
      .replayRequest 0 (2 ^ 16), .linkTraining 0 0 (2 ^ 24)] : List Instr).all (fun i => !WellFormed i) = true := by decide +kernel

/-- Refused: a requester the chip does not have. -/
theorem test_wellFormed_refuses_requesters :
    ([.clrValue (.sequencer 64) 0, .clrValue (.array 0 8 0) 0, .clrValue (.engine 0 2 0) 0,
      .clrValue (.mover 0 16 0) 0, .clrValue (.attention 0 5) 0, .clrValue (.tiler 64 0) 0,
      .clrValue (.swapUnit 64) 0, .clrValue (.hart 8) 0, .clrValue (.spout 4) 0, .clrValue (.pipe 16) 0,
      .clrValue (.parser 4) 0, .clrValue (.dpp 4) 0, .clrValue (.sliceRinse 64) 0] : List Instr).all (fun i => !WellFormed i) = true := by decide +kernel

/-- Refused: an access whose parts do not fit. -/
theorem test_wellFormed_refuses_accesses :
    ([.remoteAccess { req := .steward, addr := 0, tagged := false, kind := .read 0 },
      .remoteAccess { req := .steward, addr := 0, tagged := false, kind := .read 4097 },
      .remoteAccess { req := .steward, addr := 0, tagged := false, kind := .write [] },
      .remoteAccess { req := .steward, addr := 0, tagged := false, kind := .atomic .add (2 ^ 64) 0 },
      .remoteAccess { req := .steward, addr := 0, tagged := false, kind := .signal (2 ^ 32) },
      .remoteAccess { req := .steward, addr := 0, tagged := false, kind := .set (2 ^ 64) },
      .lpddr6Request { req := .steward, addr := 2 ^ 48, tagged := false, kind := .read 1 } 0,
      .lpddr6Request { req := .hart 8, addr := 0, tagged := false, kind := .read 1 } 0] : List Instr).all (fun i => !WellFormed i) = true := by decide +kernel

/-- Refused: a packet whose fields do not fit. -/
theorem test_wellFormed_refuses_packets :
    ([
      .ack 0 { kind := 16, cls := 0, vc := 0, ttl := 8, dest := 127, src := 3, req := 0, len := 4, atomicOp := 0, tagged := false, addr := 0, tag := 0, payload := [] },
      .linkBlock 0 { seq := 0, symbolErrors := 0, crcOk := true, packets := [{ kind := 16, cls := 0, vc := 0, ttl := 8, dest := 127, src := 3, req := 0, len := 4, atomicOp := 0, tagged := false, addr := 0, tag := 0, payload := [] }] },
      .csiPacket 0 { dt := 64, vc := 0, headerOk := true, crcOk := true, payload := [] }] : List Instr).all (fun i => !WellFormed i) = true := by decide +kernel

/-- Accepted: the last unit of each kind. -/
theorem test_wellFormed_accepts :
    ([.registerWrite (.hart 7) (2 ^ 41 - 1) 8 (2 ^ 64 - 1), .pass 63 7 4, .vecStep 63 1, .setFull (.array 63 7 4) 63 8191, .movCtxBind .steward 63 15 7,
      .strainerAccept 30 true, .triggerFire 24, .frameStart 15 15, .ident 3 127 3 255, .ckPllUnlock 15, .railOutOfRange 8, .crashCapture 7,
      .remoteAccess { req := .spout 3, addr := 2 ^ 48 - 1, tagged := true, kind := .read 4096 }] : List Instr).all WellFormed = true := by decide +kernel

/-! ## The table has no encodings -/

theorem test_decode_none : decodeTableWord 32 0 = none ∧ State.reset.withFetchWord 32 0 = State.reset := by decide +kernel

/-! ## The spec's worked examples -/

/-- The example of R56: H, r(i), s(j) and the anchor. -/
theorem test_anchor : resolveHeadroom 0 64 = 6 ∧ operandBound none [0x82, 0x80] = 4 ∧ operandBound none [0x7D, 0x7C] = -1 ∧
    anchorOf 4 (-1) 6 none = -53 := by decide +kernel

/-- The same example's four rounded terms (R59): ties go to even. -/
theorem test_gridTerm : gridTerm (.fin false 125 (-5)) (-53) = .fin (125 * 2 ^ 48) ∧ gridTerm (.fin false 5 (-54)) (-53) = .fin 2 ∧
    gridTerm (.fin false 3 (-54)) (-53) = .fin 2 ∧ gridTerm (.fin false 1 (-60)) (-53) = .fin 0 := by decide +kernel

/-- Its conversion to BF16 and FP32 (R64). -/
theorem test_convertWord : (convertWord 0x6 false (-53) 0x007D000000000004).code = 0x407A ∧
    (convertWord 0x8 false (-53) 0x007D000000000004).code = 0x407A0000 := by decide +kernel

/-- The example of R324: a Steep word's unit value is 0.6396484375. -/
theorem test_steepUnit : steepUnit 0xA3C00012 = 0x3F23C000 := by decide +kernel

/-- The example of R177: index 13 of a grid of 4 by 16 blocks is block (2, 3). -/
theorem test_mortonBlock : mortonBlock 13 (clog2 4) (clog2 16) = (2, 3) := by decide +kernel

/-- The example of R419: channel and channel address of two granules of a set of 12 channels. -/
theorem test_place : LpSet.place ⟨0, List.range 12, 4096⟩ 0x24567C000 = (0, 0x30735000) ∧
    LpSet.place ⟨0, List.range 12, 4096⟩ 0x24567D000 = (1, 0x30735000) := by decide +kernel

/-- The example of R22: byte 0x40000 of cluster 9's scratchpad, asked for as chip 127's, is local. -/
theorem test_localOf : spAddr 9 0x40000 = 0x10009040000 ∧ State.reset.localOf (127 * 2 ^ 41 + 0x10009040000) = some 0x10009040000 ∧
    State.reset.localOf 0x190009040000 = none := by decide +kernel

/-- The example of R130: counter 17 holds 40, is asked to add 16, and then holds 56. -/
theorem test_workCounterFetch :
    completes (.workCounterFetch .steward 0x11010000088 16) { State.reset with mem := State.reset.mem.write 0x11010000088 (leBytes 8 40) } fun t =>
      t.mem.get 0x11010000088 = 56 ∧ (t.resp.map Resp.data).map leNat = some 40 := by
  refine ⟨_, rfl, ?_⟩
  decide +kernel

/-! ## Small states -/

/-- A pair by its first half. -/
theorem pair_eq {α β : Type} {p : α × β} {a : α} (h : p.1 = a) : p = (a, p.2) := Prod.ext h rfl
/-- A state at this many ns of every clock. -/
def at_ (n : Nat) (s : State) : State := { s with clock := { ns := n, urn := n, aon := n } }
/-- A self-test slice of array 0 of cluster 0 in the middle of its window. -/
def aSlice : SliceRec := { kind := 1, unit := 0, index := 0, startAt := 0, endAt := 4000, running := true }
/-- Partition 0 owns everything. -/
def owned : State :=
  { State.reset with si := { Si.none with parts :=
      [{ active := true, pairs := 2 ^ 32 - 1, channels := 65535, cameras := 65535, dpps := 15, spouts := 15, eth := 15 },
       PartRec.absent, PartRec.absent, PartRec.absent, PartRec.absent] } }
/-- A taken mailbox command of partition 0 with this opcode, that has not started; `l` are its bytes from offset 8. -/
def taken (op part : Nat) (l : List Byte) : Cmd :=
  { ring := 0, idx := 0, entry := leFields [(1, op), (1, 0), (1, part), (1, 0), (4, 7)] ++ l ++ List.replicate (56 - l.length) 0, started := false, drop := false }
/-- A state in which such a command waits in ring 0. -/
def withCmd (s : State) (op part : Nat) (l : List Byte) : State := { s with st := { s.st with cmds := [taken op part l] } }
/-- Every LPDDR6 channel is in service. -/
def lpOn (s : State) : State := (List.range 16).foldl (fun (s : State) (c : Nat) => s.wr (mcReg c 0) 2) s
/-- A Brew Table of one minor frame of 1 ms. -/
def oneFrame : BrewTable := { minors := 1, minorNs := 1000000, epoch := 0, busyCt := 700000, entries := [], streams := [] }
/-- Partition 0 runs a Brew Table (RUNNING), its dispatcher as given. -/
def running (b : Brew) : State := State.setFld { owned with brew := [(0, b)] } (btReg 0 0) 3 0 2
/-- A valid array instruction of context 0, operands in slot 0 on. -/
def armedInstr (op : Nat) : QInstr :=
  { w0 := op + (if op = 3 then 3 * 2 ^ 16 else 0) + (if op = 4 then 0xFF * 2 ^ 24 else 0), w1 := if op = 5 ∨ op = 6 then 0 else 0x30000,
    sched := none, opIdx := 0, stuck := false, late := false, seq := 0 }
/-- Window 0 of context x over cluster 0, every right, and every slot's tag full or empty. -/
def windowed (s : State) (x : Nat) (full : Bool) : State :=
  let lo := 127 * 2 ^ 41 + clWin 0
  let s := ((s.wr (bbReg 0 x 0 0) (lo % 2 ^ 32 + 0xF0)).wr (bbReg 0 x 0 1) (lo / 2 ^ 32)).wr (bbReg 0 x 0 2) ((lo + 0xFFFF00) % 2 ^ 32)
  let s := s.wr (bbReg 0 x 0 3) (lo / 2 ^ 32)
  (List.range 4).foldl (fun (s : State) (k : Nat) => s.wr (clReg 0 (0xC00 + 4 * k)) (if full then 0xFFFFFFFF else 0)) s
/-- An instruction of context 0 at the head of its queue of array 0 of cluster 0, every tile its own. -/
def armed (full : Bool) (i : QInstr) : State :=
  windowed ((owned.setArr 0 0 { Arr.idle with queues := [[i], [], [], [], []], set := 255 }).wr (arrReg 0 0 8) 0) 0 full
/-- A pass of the timed context, due at once. -/
def timedPass : QInstr := { armedInstr 3 with w0 := 3 + 3 * 2 ^ 16 + 4 * 2 ^ 61, sched := some 0 }
/-- It at the head of the timed queue, every tile the timed context's. -/
def armedTimed : State :=
  windowed ((owned.setArr 0 0 { Arr.idle with queues := [[], [], [], [], [timedPass]], set := 255 }).wr (arrReg 0 0 8) 0x44444444) 4 true
/-- A pass of context 0 issued at tick 0, and an array that runs it, at tick 96. -/
def onePass : Pass := { instr := armedInstr 3, issue := 0, n := 4, chained := false, cells := [], sat := false }
def passing : State := { owned.setArr 0 0 { Arr.idle with passes := [onePass] } with clock := { ns := 128, urn := 128, aon := 128 } }
/-- A DRAIN or MERGE at its last tick. -/
def oneOp (op : Nat) : ArrOp := { instr := armedInstr op, until_ := 0, sat := false, slots := 1, steps := 0 }
def opped (op : Nat) : State := owned.setArr 0 0 { Arr.idle with op := some (oneOp op) }
/-- An engine with one waiting fused step. -/
def vecWaiting : State := State.reset.setVec 0 0 { Vec.idle with queue := [⟨0, 0, 8, none⟩] }
/-- Channel 0 of cluster 0 bound to context 0; every entry holds the all-zero descriptor (a copy of 64 KiB). -/
def chanBound : State := owned.setFld (movReg 0 0x100) 2 0 0
/-- A piece in flight on channel 0 of cluster 0, bound to context x. -/
def aPiece (net : Bool) : Piece :=
  { entry := 0, pos := [0, 0, 0, 0, 0], next := [64, 0, 0, 0, 0], raw := [], dst := [], fills := [], empties := [], issue := 0, len := 64, bad := none,
    net := net, waits := [], sent := false, late := false, pages := [] }
def flying (x : Nat) (net : Bool) : State :=
  (owned.setFld (movReg 0 0x100) 2 0 x).setChan 0 0 { MovChan.idle with queue := [0], inflight := [aPiece net], state := 1 }
/-- Channel 0 of cluster 0 with a valid copy of 64 bytes within the scratchpad queued, its context running. -/
def issuing : State :=
  let s := ((windowed owned 0 true).setFld (movReg 0 0x100) 2 0 0).setFld (ctxStatus 0 0) 2 0 1
  let s := ((s.wr (descReg 0 0 0) 0x60).wr (descReg 0 0 3) 0x400000).wr (descReg 0 0 4) 0x400
  s.setChan 0 0 { MovChan.idle with queue := [0], state := 1, tokens := 1000 }
/-- It in a tick in which the eight local pieces have issued. -/
def crowded : State := { issuing with ports := { TickRec.begin 0 with pieces := List.replicate 8 (0, 1, false) } }
/-- The timed context of cluster 0 between operators, its page 0 the scratchpad, which starts with these bytes. -/
def timedAt (l : List Byte) : State :=
  let s := (windowed owned 4 true).stb (spAddr 0 0) l
  let s := (s.setFld (ctxStatus 0 4) 2 0 7).setCtx 0 4 { Ctx.empty with tiler := { TilerCtx.idle with active := true } }
  { s with tu := { Tu.empty with store := [⟨0, 0, 21, 127 * 2 ^ 41 + spAddr 0 0, true, true, true, none, true, 0, 0⟩] } }
/-- It at work on a descriptor, in this phase, with this work left. -/
def timedIn (phase : Nat) (l : List Byte) (w : List Work) : State :=
  (timedAt l).setCtx 0 4 { Ctx.empty with tiler := { TilerCtx.idle with active := true, phase := phase, desc := l, work := w } }
/-- It at item 0 of a descriptor of zeros with this opcode, this work left; the WINDOW kernel is there. -/
def atItem (op : Nat) (w : List Work) : State := { (timedIn 1 (leBytes 128 op) w).setItem 0 4 0 with kstore := [(0, [0x0B])] }
/-- A DPP job of cluster 0, context x, with no candidates. -/
def aJob (x : Nat) (timed : Bool) : DppJob := { cluster := 0, ctx := x, timed := timed, desc := leBytes 128 0x28, at_ := 0 }
/-- DPP 0 with such a job running since tick 0, or waiting. -/
def aRun (x : Nat) (timed ended : Bool) : DppRun :=
  { job := aJob x timed, start := 0, bound := 0, ends := (0, 0, 0), taken := 0, scores := [], boxes := [], priors := [], read := true, records := [], dropped := 0, lost := 0, ended := ended }
def dppRuns (x : Nat) (timed ended : Bool) : State := State.reset.setDpp 0 { Dpp.idle with running := some (aRun x timed ended) }
def dppWaits : State := owned.setDpp 0 { Dpp.idle with queue := [aJob 4 true] }
/-- A task of cluster 0 and a Program that declares it. -/
def aTask (timed step : Bool) : TaskRec :=
  { index := 3, timed := timed, clusters := [0], listAddr := 0, count := 1, statusAddr := 0, arenaFirst := 0, arenaCount := 16, prio := 5, starts := [],
    lengthCt := 1000, step := step, root := 0, asid := 0, syncBase := 0, syncCount := 0, windows := [], tileMask := 2 ^ 64 - 1, sched := [] }
def aProgram (timed step : Bool) : Program :=
  { timedWidth := 0, seed := 0, ci := false, valueOptin := false, poolBanks := 0, ctrGroups := 0, kernels := [], tasks := [aTask timed step], graph := [3],
    seqTimed := false, workListAddr := 0, dppTimed := 0, locks := [], brewTaskLengths := [] }
/-- Partition 0 in service with that Program. -/
def programmed (timed step : Bool) : State := { State.setFld owned (stReg 0x5000) 1 0 1 with programs := [(0, aProgram timed step)] }
/-- Its launch waits. -/
def queued (step : Bool) : State := { programmed false step with launchQ := [{ part := 0, rcd := aTask false step, cmd := none }] }
/-- Context 0 of cluster 0 runs, elastic, at work on a descriptor. -/
def elasticIn (phase : Nat) (l : List Byte) (w : List Work) : State :=
  ((owned.setFld (ctxStatus 0 0) 2 0 1).setFld (clReg 0 0x800) 11 9 0).setCtx 0 0 { Ctx.empty with tiler := { TilerCtx.idle with active := true, phase := phase, desc := l, work := w } }
/-- A step of one run of one row; a timed ATTN_STEP on it, this far, with this item. -/
def aStepRun : StepRunRec := { seq := 0, count := 1, pos := 0, row := 0, kind := 0, cand := 0, gen := 0, region := 0, user := 0, root := 0 }
def attAt (phase item start : Nat) : State :=
  let s := (timedAt ([0, 0, 0, 0, 1] ++ List.replicate 27 0 ++ [0, 0, 1])).setItem 0 4 item
  s.setCtx 0 4 { Ctx.empty with tiler := { TilerCtx.idle with
    active := true, phase := 1, desc := leBytes 128 (0x20 + 2 ^ 64 + 2 ^ 80), att := { AttWork.idle with phase := phase, startAt := start } } }
/-- A task of partition 0 that has ended. -/
def aTaskRun (timed ended : Bool) : Task :=
  { part := 0, rcd := aTask timed false, timed := timed, cmd := none, left := [0], aborted := false, ended := ended, suspended := false, launchAt := 0,
    endCt := 0, started := false, slipped := false, lateRaised := false, blockedSince := 0, hangRaised := false }
def endedTask : Task := aTaskRun false true
/-- Context 0 of cluster 0 with tables in the scratchpad: a readable 32 MiB page at virtual address 0. -/
def tabled : State :=
  let s := (elasticIn 1 [] []).stb (spAddr 0 0) (leBytes 8 (1 + spAddr 0 0x4000 + 127 * 2 ^ 41))
  let s := s.stb (spAddr 0 0x4000) (leBytes 8 (7 + 127 * 2 ^ 41))
  (s.wr (clReg 0 0x900) (spAddr 0 0 % 2 ^ 32)).setFld (clReg 0 0x904) 8 0 (spAddr 0 0 / 2 ^ 32)
/-- Its timebase is valid. -/
def validAt (s : State) : State := s.setFld (tbReg 0) 31 31 1
/-- Partition 0's dispatcher in a frame, the entry with this action due. -/
def anEntry (a : Nat) : BrewEntry := { offset := 0, minor := 0, action := a, arg0 := if a = 1 then 3 else 0, arg1 := 1000 }
def firing (a : Nat) : State :=
  running { Brew.stopped with table := some { oneFrame with entries := [anEntry a] }, inFrame := true, framesRun := 1, frameNo := 1 }
/-- Stream 0 of partition 0, its header in the scratchpad of cluster 0, due to be published. -/
def aStream : StreamRec := { stream := 0, source := 0, task := 3, ageMax := 1000, staleMax := 1000, header := spAddr 0 0 }
def publishing : State :=
  running { Brew.stopped with table := some { oneFrame with entries := [anEntry 7], streams := [aStream] }, inFrame := true, framesRun := 1, frameNo := 1, fresh := [0] }
/-- The same stream with its header at an address that is mapped nowhere. -/
def publishing0 : State :=
  running { Brew.stopped with table := some { oneFrame with entries := [anEntry 7], streams := [{ aStream with header := 2 ^ 46 }] }, inFrame := true, framesRun := 1, frameNo := 1, fresh := [0] }
def publishing_ : State :=
  (afterEntry publishing 0).setDsp 0 { (afterEntry publishing 0).dsp 0 with fresh := ((afterEntry publishing 0).dsp 0).fresh.filter (· != 0) }
/-- The state in which a taken command of this opcode for the task has begun, its instance marked as suspended or not. -/
def withTask (op : Nat) (began susp : Bool) : State :=
  { programmed false false with
    tasks := [(0, { aTaskRun false false with suspended := susp })], st := { (programmed false false).st with cmds := [{ taken op 0 [3] with started := began }] } }
/-- A SUSPEND of task 3 taken second. -/
def suspendTaken : Cmd := { taken 5 0 [3] with idx := 1 }
/-- A KILL of that task in progress before it. -/
def withKill : State := { owned with st := { owned.st with cmds := [{ taken 7 0 [3] with started := true }, suspendTaken] } }
/-- Slot 0 of cluster 0 holds a ready task. -/
def slotted : State :=
  { (owned.setSlot 0 0 { Slot.free with task := some 0, prio := 1 }).wr (clReg 0 0xA04) (2 ^ 16 + 1) with tasks := [(0, aTaskRun false false)] }
/-- Every elastic context of cluster 0 is blocked. -/
def fullCtxs : State := (List.range 4).foldl (fun (s : State) x => s.setFld (ctxStatus 0 x) 2 0 2) slotted
/-- Context 0 of cluster 0 on its way out of slot 0, or into it. -/
def moving (st n : Nat) (begun : Bool) : State :=
  ((owned.setSlot 0 0 { Slot.free with task := some 0, ctx := some 0, started := begun }).setFld (ctxStatus 0 0) 2 0 st).setCtx 0 0
    { Ctx.empty with task := some 0, held := true, move := some (n, 0) }
def saving : State := moving 4 16 true
def loading : State := moving 5 0 false
/-- An uncorrectable error in a tile of the context, or in the slot's image. -/
def savingBad : State :=
  let s := saving.wr (arrReg 0 0 8) 0
  { s with mem := { s.mem with bad := [(accAddr 0 0 0 0 / 8, true)] } }
def loadingBad : State :=
  let s := moving 5 0 true
  { s with mem := { s.mem with bad := [(s.saveArea 0 0 / 8, true)] } }
/-- Contexts 0 and 1 of cluster 0 run, the sequencer tiles for context 0. -/
def twoCtxs : State :=
  at_ 4000 (((elasticIn 1 [] []).setFld (ctxStatus 0 1) 2 0 1).setCtx 0 1 { Ctx.empty with tiler := { TilerCtx.idle with active := true } })
/-- Context 0 of cluster 0 is blocked on a word. -/
def waitingFor (ga : Nat) (w : Bool) : State := (owned.setFld (ctxStatus 0 0) 2 0 2).setCtx 0 0 { Ctx.empty with wait := some (ga, 1), watching := w }
/-- Camera port 0 enabled, with a frame open, ended with an error or with nothing left to come. -/
def pipeOn_ : State := owned.wr (ingReg 0 4) (2 ^ 31)
def aFrame (bad : Bool) : PipeFrame :=
  { buf := 0, stamp := 0, fire := 0, unsynced := false, bad := bad, ended := true, lines := [], emb := [], strips := 0 }
def framing (bad : Bool) : State := pipeOn_.setPipe 0 { Pipe.idle with frame := some (aFrame bad) }
/-- Parser 0 with an open buffer whose time has come. -/
def closing : State := owned.setParser 0 { Parser.idle with buf := some 0 }
/-- Strained input 24 active since tick 0, its bound one unit. -/
def stuckAt : State := at_ 100000000 ((State.reset.wr (strReg 24 4) 1).setStrain 24 { Strain.idle with level := true, activeAt := some 0 })
/-- Port 0 up, owned by partition 0, or training. -/
def upPort : State := (owned.wr (spReg 0 4) 1).setFld (spReg 0 0) 2 0 3
def training (st : Nat) : State := (owned.wr (spReg 0 4) 1).setFld (spReg 0 0) 2 0 st
/-- A packet for this chip, and a request of the Steward. -/
def aPacket (kind : Nat) : SpoutPacket :=
  { kind := kind, cls := 0, vc := 0, ttl := 8, dest := 127, src := 3, req := 0, len := 4, atomicOp := 0, tagged := false, addr := clWin 0, tag := 0,
    payload := [1, 0, 0, 0] }
def aReq : SpReq := { tag := 9, req := .steward, kind := 0, dest := 3, port := 0, addr := 0, at_ := 0, cmd := none }
/-- A barrier tree: this chip's parent port and children. -/
def barred (s : State) (parent kids : Nat) : State :=
  { s with si := { s.si with records := [(0x13 * 8 + 7, List.replicate 8 0 ++ [BitVec.ofNat 8 parent, BitVec.ofNat 8 kids])] } }
/-- The PCI Express link is up, every channel in service. -/
def hosted : State := (lpOn State.reset).setFld (peReg 0) 0 0 1
/-- An S window over the whole space. -/
def swinAll : State :=
  ((((owned.wr (stReg 0x5200) 0xF0).wr (stReg 0x5204) 0).wr (stReg 0x5208) 0xFFFFFF00).wr (stReg 0x520C) 0xFFFF).setRecState 4 0
/-- MAC 0 with one descriptor of one byte to send, both in the scratchpad of cluster 0. -/
def macReady : State :=
  let s := (owned.stb (spAddr 0 0) (leBytes 6 (spAddr 0 256) ++ [1, 0, 3])).stb (spAddr 0 256) [1]
  (((s.wr (macReg 0 0) 1).wr (macReg 0 0x18) (spAddr 0 0 % 2 ^ 32)).wr (macReg 0 0x1C) (spAddr 0 0 / 2 ^ 32)).wr (macReg 0 0x20) 1
/-- Partition 0, which owns every channel, is in its reset; channel 0 is in training. -/
def aReset (step : Nat) : ResetRec := { scope := 0, counted := false, since := 0, step := step, cmds := [], overrun := false, source := 0, seq := 0 }
def resetting : State := State.setFld { owned with urn := { owned.urn with active := [aReset 3] } } (mcReg 0 0) 3 0 1
/-- Pair 0 runs in lockstep. -/
def paired : State := { owned with si := { owned.si with lockstep := [1, 0, 0, 0] } }
/-- A pending record of partition 0 of this severity, its window at its end. -/
def aPend (sev : Nat) : PendRec :=
  { rcd := { seq := 1, source := 0, scope := 0, sevRaise := sev, sev := sev, acked := false, first := false, info := {}, utime := 0, time := 0, action := 0 },
    expiry := some 0 }
def pendingRec (sev : Nat) : State := { owned with urn := { owned.urn with pending := [aPend sev] } }
/-- The reset of partition 0 at this step. -/
def inReset (step : Nat) : State := { owned with urn := { owned.urn with active := [aReset step] } }
/-- A task of cluster 0 blocked for longer than 1 ms. -/
def hungTask : State :=
  let s := (owned.setSlot 0 0 { Slot.free with task := some 0, ctx := some 0 }).setFld (ctxStatus 0 0) 2 0 2
  at_ 100000000 { s.setFld (stReg 0x6008) 15 0 1 with tasks := [(0, aTaskRun false false)] }
/-- Partition 0 at its boundary with firmware staged and an image in effect. -/
def stagedFw : State :=
  let s := (running { Brew.stopped with table := some oneFrame, boundary := true }).setFld (urnReg 0xA018) 31 28 1
  at_ 4000000 { s with si := { s.si with current := [0] }, urn := { s.urn with fwStaged := some (1, [1]) } }
/-- The recovery ROM at work, a recovery record there or not. -/
def polling (b : Bool) : State :=
  let s := lpOn State.reset
  at_ 1000000 { s with power := { s.power with recovery := true }, mem := if b then s.mem.write 0 (leBytes 4 0x56524B48) else s.mem }
/-- An ATTEST command waits. -/
def attesting : State := withCmd ((lpOn owned).setFld (cadReg 4) 0 0 1) 0x20 0 []
/-- An ATTEST whose nonce lies at an address that is mapped nowhere. -/
def attestUnread : State := withCmd ((lpOn owned).setFld (cadReg 4) 0 0 1) 0x20 0 [0xC0, 0xFF, 0xFF, 0xFF, 0xFF, 1]
def attesting1 : State := attesting.begin_ 0 0
/-- The security image in effect has this version. -/
def versioned : State := { owned with si := { owned.si with current := leBytes 64 (2 ^ 64 * 5) } }
/-- The device in this power state, no transition under way. -/
def atPower (n : Nat) : State := State.reset.setFld (pmReg 0) 2 0 n
/-- A power policy: Watch partition 0, every wake source enabled. -/
def policed (s : State) : State := { s with si := { s.si with records := [(0x14 * 8 + 7, [0, 0, 0, 0, 15, 0])] } }
def watched : State := policed owned
/-- In this lower state, RESET_N high. -/
def asleep (n : Nat) : State := let s := policed (atPower n); { s with power := { s.power with resetN := true, shut := false } }
/-- On the way to this state, or back to Run. -/
def entering (n : Nat) : State := (State.reset.setFld (pmReg 0) 3 3 1).setFld (pmReg 0) 7 4 n
def falling : State := ((asleep 0).setFld (pmReg 0) 3 3 1).setFld (pmReg 0) 7 4 1
def leaving : State := let s := (atPower 1).setFld (pmReg 0) 3 3 1; { s with power := { s.power with exiting := true } }
/-- On the way out of Retain, this long. -/
def retained (n : Nat) : State := let s := (asleep 3).setFld (pmReg 0) 3 3 1; at_ n { s with power := { s.power with exiting := true, railEn := true } }
/-- The same MAC with nothing to send. -/
def macEmpty : State := macReady.stb (spAddr 0 8) [0]
/-- Below Run, its exit under way. -/
def wakingUp : State := let s := (asleep 1).setFld (pmReg 0) 3 3 1; { s with power := { s.power with exiting := true } }

/-! ## What meets the hypotheses of the statements -/

theorem witness_registerWrite_plain : ∃ (s : State) (r : Requester) (addr : Nat) (v : Nat) (a : Nat),
    (¬ (r = .pcie ∧ (bit (s.rd (peReg 0)) 0 = false ∨ s.isMaster r = false))) ∧ s.grants r (127 * 2 ^ 41 + addr) 4 .write = true ∧ s.mapped addr 4 = true ∧ regionOf addr = .reg a false ∧ (stagingSrc r = none ∨ s.computePart a = none) :=
  ⟨State.reset, .steward, stReg 0x5000, 5, stReg 0x5000, by decide +kernel⟩

theorem witness_registerWrite_unmapped : ∃ (s : State) (r : Requester) (addr : Nat) (width : Nat) (v : Nat),
    (¬ (r = .pcie ∧ (bit (s.rd (peReg 0)) 0 = false ∨ s.isMaster r = false))) ∧ s.grants r (127 * 2 ^ 41 + addr) width .write = true ∧ s.mapped addr width = false :=
  ⟨State.reset, .steward, stReg 0x5001, 4, 5, by decide +kernel⟩

theorem witness_registerWrite_staged : ∃ (s : State) (r : Requester) (addr : Nat) (v : Nat) (a : Nat) (p : Nat) (src : Nat),
    (¬ (r = .pcie ∧ (bit (s.rd (peReg 0)) 0 = false ∨ s.isMaster r = false))) ∧ s.grants r (127 * 2 ^ 41 + addr) 4 .write = true ∧ s.mapped addr 4 = true ∧ regionOf addr = .reg a false ∧ stagingSrc r = some src ∧ s.computePart a = some p ∧ stagedBytes (s.stage p src) + 4 ≤ 65536 :=
  ⟨owned, .spout 0, clReg 0 0xB20, 5, clReg 0 0xB20, 0, 20, by decide +kernel⟩

theorem witness_counterLowRead : ∃ (s : State) (r : Requester) (addr : Nat) (a : Nat),
    (¬ (r = .pcie ∧ bit (s.rd (peReg 0)) 0 = false)) ∧ s.grants r (127 * 2 ^ 41 + addr) 4 .read = true ∧ s.mapped addr 4 = true ∧ regionOf addr = .reg a false :=
  ⟨State.reset, .steward, stReg 0x3008, stReg 0x3008, by decide +kernel⟩

theorem witness_counterLowRead_pair : ∃ (s : State) (r : Requester) (addr : Nat) (a : Nat),
    (¬ (r = .pcie ∧ bit (s.rd (peReg 0)) 0 = false)) ∧ s.grants r (127 * 2 ^ 41 + addr) 4 .read = true ∧ s.mapped addr 4 = true ∧ regionOf addr = .reg a false ∧ isPairLow a = true ∧ a ≠ tbReg 0x10 ∧ a ≠ tbReg 0x510 ∧ (∀ e < 4, a ≠ tbReg (0x614 + 0x40 * e) ∧ a ≠ tbReg (0x628 + 0x40 * e)) :=
  ⟨State.reset, .steward, stReg 0x3008, stReg 0x3008, by decide +kernel⟩

theorem witness_pairReads : ∃ (s u : State) (a : Nat), isPairLow a = true ∧ isPairLow (a + 4) = false ∧
    (∀ x ∈ [a, a + 4], x ≠ tbReg 0x10 ∧ x ≠ tbReg 0x510 ∧ ∀ e < 4, x ≠ tbReg (0x614 + 0x40 * e) ∧ x ≠ tbReg (0x628 + 0x40 * e)) ∧
    u.hiLatch = (s.readReg a).2.hiLatch :=
  ⟨State.reset, (State.reset.readReg (stReg 0x3008)).2, stReg 0x3008, by decide⟩

theorem witness_siSubmit : ∃ (s : State) (ring : Nat) (idx : Nat) (ed : Bool) (ml : Bool) (k : Cmd) (q : RdRes × State) (img : List Byte) (j : SigVerdict × State),
    s.si.submission = none ∧ s.mbCmd ring idx 0x01 = some k ∧ 0 < k.arg 0x10 4 ∧ k.arg 0x10 4 ≤ 0x400000 ∧ s.lpReady (k.arg 8 6) (k.arg 0x10 4) = true ∧ s.hotPending = false ∧ (s.begin_ ring idx).memRead .steward (k.arg 8 6) (k.arg 0x10 4) = q ∧ ((if q.1.err.isSome then [] else q.1.bytes) = img) ∧ q.2.judge (q.2.siKey img) (img.take (fieldAt img 0xC 4)) ⟨ed, ml⟩ = j :=
  ⟨withCmd (lpOn State.reset) 1 4 (leFields [(6, 0x1000), (2, 0), (4, 0x80)]), 0, 0, true, true, taken 1 4 (leFields [(6, 0x1000), (2, 0), (4, 0x80)]), ((withCmd (lpOn State.reset) 1 4 (leFields [(6, 0x1000), (2, 0), (4, 0x80)])).begin_ 0 0).memRead .steward 0x1000 0x80, _, _, by decide +kernel, by decide +kernel, by decide +kernel, by decide +kernel, by decide +kernel, by decide +kernel, rfl, rfl, rfl⟩

theorem witness_siSubmit_busy : ∃ (s : State) (ring : Nat) (idx : Nat) (ed : Bool) (ml : Bool) (k : Cmd),
    s.si.submission = none ∧ s.mbCmd ring idx 0x01 = some k ∧ s.lpReady (k.arg 8 6) (min (k.arg 0x10 4) 0x400000) = true ∧ s.hotPending = true :=
  ⟨(let s := withCmd (lpOn State.reset) 1 4 []; { s with si := { s.si with hotPend := [0] } }), 0, 0, true, true, taken 1 4 [], by decide +kernel⟩

theorem witness_imageAcceptance : ∃ (s : State) (q : Submission),
    s.si.submission = some q ∧ s.stewardUp = true :=
  ⟨{ State.reset with si := { Si.none with submission := some ⟨[], 0, 0⟩ } }, ⟨[], 0, 0⟩, by decide +kernel⟩

theorem witness_hotSwitch : ∃ (s : State) (p : Nat) (mine : Bool) (dev : Bool),
    mine = s.si.hotPend.contains p ∧ dev = (s.si.hotDev && imgFallback s.si.current == p) ∧ (mine || dev) = true ∧ p < 4 ∧ s.atBoundary p = true ∧ reached s.time (s.si.acceptAt + 2000000) = true ∧ (imgAfter s.si.current = 0 ∨ reached s.time (imgAfter s.si.current) = true) :=
  ⟨{ running { Brew.stopped with table := some oneFrame, boundary := true, frameNo := 3 } with si := { owned.si with hotPend := [0] }, tb := { owned.tb with raw := 3000000 } }, 0, true, false, rfl, rfl, by decide +kernel⟩

theorem witness_siRevert : ∃ (s : State) (ring : Nat) (idx : Nat) (k : Cmd),
    s.si.submission = none ∧ s.mbCmd ring idx 0x02 = some k ∧ s.hotPending = false :=
  ⟨withCmd State.reset 2 4 [], 0, 0, taken 2 4 [], by decide +kernel⟩

theorem witness_siRevert_busy : ∃ (s : State) (ring : Nat) (idx : Nat) (k : Cmd),
    s.si.submission = none ∧ s.mbCmd ring idx 0x02 = some k ∧ s.hotPending = true :=
  ⟨(let s := withCmd State.reset 2 4 []; { s with si := { s.si with hotPend := [0] } }), 0, 0, taken 2 4 [], by decide +kernel⟩

theorem witness_panel : ∃ (s : State) (c : Nat) (a : Nat) (x : Nat) (i : QInstr),
    s.headOf c a x = some i ∧ i.op = 1 ∧ s.chosen c a x = true ∧ (s.issueCheck c a x i).1 = true :=
  ⟨armed true (armedInstr 1), 0, 0, 0, armedInstr 1, by decide +kernel⟩

theorem witness_anchor : ∃ (s : State) (c : Nat) (a : Nat) (x : Nat) (i : QInstr),
    s.headOf c a x = some i ∧ i.op = 2 ∧ s.chosen c a x = true ∧ (s.issueCheck c a x i).1 = true :=
  ⟨armed true (armedInstr 2), 0, 0, 0, armedInstr 2, by decide +kernel⟩

theorem witness_drain : ∃ (s : State) (c : Nat) (a : Nat) (x : Nat) (i : QInstr),
    s.headOf c a x = some i ∧ i.op = 4 ∧ s.chosen c a x = true ∧ (s.issueCheck c a x i).1 = true :=
  ⟨armed false (armedInstr 4), 0, 0, 0, armedInstr 4, by decide +kernel⟩

theorem witness_save : ∃ (s : State) (c : Nat) (a : Nat) (x : Nat) (i : QInstr),
    s.headOf c a x = some i ∧ i.op = 5 ∧ s.chosen c a x = true ∧ (s.issueCheck c a x i).1 = true :=
  ⟨armed false (armedInstr 5), 0, 0, 0, armedInstr 5, by decide +kernel⟩

theorem witness_merge : ∃ (s : State) (c : Nat) (a : Nat) (x : Nat) (i : QInstr),
    s.headOf c a x = some i ∧ i.op = 7 ∧ s.chosen c a x = true ∧ (s.issueCheck c a x i).1 = true :=
  ⟨armed true (armedInstr 7), 0, 0, 0, armedInstr 7, by decide +kernel⟩

theorem witness_restore : ∃ (s : State) (c : Nat) (a : Nat) (x : Nat) (i : QInstr),
    s.headOf c a x = some i ∧ i.op = 6 ∧ s.chosen c a x = true ∧ (s.issueCheck c a x i).1 = true :=
  ⟨armed true (armedInstr 6), 0, 0, 0, armedInstr 6, by decide +kernel⟩

theorem witness_pass : ∃ (s : State) (c : Nat) (a : Nat) (x : Nat) (i : QInstr),
    x < 4 ∧ s.headOf c a x = some i ∧ i.op = 3 ∧ s.chosen c a x = true ∧ (s.issueCheck c a x i).1 = true :=
  ⟨armed true (armedInstr 3), 0, 0, 0, armedInstr 3, by decide +kernel⟩

theorem witness_pass_timed : ∃ (s : State) (c : Nat) (a : Nat) (i : QInstr),
    (s.timedWait c a).headOf c a 4 = some i ∧ i.op = 3 ∧ (s.timedWait c a).chosen c a 4 = true ∧ ((s.timedWait c a).issueCheck c a 4 i).1 = true :=
  ⟨armedTimed, 0, 0, timedPass, by decide +kernel⟩

theorem witness_passCommit : ∃ (s : State) (c : Nat) (a : Nat) (p : Pass) (l : List Pass),
    (s.arr c a).passes = p :: l ∧ p.issue + p.n + 63 ≤ s.ct :=
  ⟨passing, 0, 0, onePass, [], by decide +kernel⟩

theorem witness_drainComplete : ∃ (s : State) (c : Nat) (a : Nat) (o : ArrOp),
    s.opDone c a 4 = some o :=
  ⟨opped 4, 0, 0, oneOp 4, by decide +kernel⟩

theorem witness_mergeComplete : ∃ (s : State) (c : Nat) (a : Nat) (o : ArrOp),
    s.opDone c a 7 = some o :=
  ⟨opped 7, 0, 0, oneOp 7, by decide +kernel⟩

theorem witness_passAbort : ∃ (s : State) (c : Nat) (a : Nat) (x : Nat) (cause : Nat),
    1 ≤ cause ∧ cause ≤ 5 ∧ ((s.arr c a).passes.any fun p => p.instr.ctx == x) = true :=
  ⟨passing, 0, 0, 0, 4, by decide +kernel⟩

theorem witness_accWrite : ∃ (s : State) (r : Requester) (c : Nat) (a : Nat) (t : Nat) (e : Nat) (v : Nat),
    a < 8 ∧ t < 8 ∧ e < 1024 ∧ s.reqWindowOk r (127 * 2 ^ 41 + accAddr c a t e) 8 .write = true ∧ s.mapped (accAddr c a t e) 8 = true ∧ s.arrIdle c a = true ∧ (e % 32 = 31 → s.arrWidth c a ≠ 31) :=
  ⟨State.reset, .steward, 0, 0, 0, 0, 5, by decide +kernel⟩

theorem witness_accWrite_part : ∃ (s : State) (r : Requester) (c : Nat) (a : Nat) (t : Nat) (e : Nat) (v : Nat) (be : Nat) (q : RdRes × State),
    a < 8 ∧ t < 8 ∧ e < 1024 ∧ s.reqWindowOk r (127 * 2 ^ 41 + accAddr c a t e) 8 .write = true ∧ s.mapped (accAddr c a t e) 8 = true ∧ s.arrIdle c a = true ∧ (e % 32 = 31 → s.arrWidth c a ≠ 31) ∧ be % 256 ≠ 255 ∧ s.memFetch r (accAddr c a t e) 8 = q ∧ q.1.err = none :=
  ⟨State.reset, .steward, 0, 0, 0, 0, 5, 15, _, by decide +kernel, by decide +kernel, by decide +kernel, by decide +kernel, by decide +kernel, by decide +kernel, by decide +kernel, by decide +kernel, rfl, by decide +kernel⟩

theorem witness_accWrite_narrow : ∃ (s : State) (r : Requester) (c : Nat) (a : Nat) (t : Nat) (e : Nat) (v : Nat),
    a < 8 ∧ t < 8 ∧ e < 1024 ∧ s.reqWindowOk r (127 * 2 ^ 41 + accAddr c a t e) 8 .write = true ∧ s.mapped (accAddr c a t e) 8 = true ∧ s.arrIdle c a = true ∧ e % 32 = 31 ∧ s.arrWidth c a = 31 :=
  ⟨State.reset.setFld (arrReg 0 0 0xC) 14 14 1, .steward, 0, 0, 0, 31, 5, by decide +kernel⟩

theorem witness_accWrite_busy : ∃ (s : State) (r : Requester) (c : Nat) (a : Nat) (t : Nat) (e : Nat) (v : Nat) (be : Nat),
    a < 8 ∧ t < 8 ∧ e < 1024 ∧ s.reqWindowOk r (127 * 2 ^ 41 + accAddr c a t e) 8 .write = true ∧ s.mapped (accAddr c a t e) 8 = true ∧ s.arrIdle c a = false :=
  ⟨passing, .steward, 0, 0, 0, 0, 5, 255, by decide +kernel⟩

theorem witness_accWrite_window : ∃ (s : State) (r : Requester) (c : Nat) (a : Nat) (t : Nat) (e : Nat) (v : Nat) (be : Nat),
    a < 8 ∧ t < 8 ∧ e < 1024 ∧ s.reqWindowOk r (127 * 2 ^ 41 + accAddr c a t e) 8 .write = false :=
  ⟨State.reset, .engine 0 0 0, 1, 0, 0, 0, 5, 255, by decide +kernel⟩

theorem witness_arrCtrlStop : ∃ (s : State) (r : Requester) (c : Nat) (a : Nat) (v : Nat),
    c < s.nClusters ∧ a < 8 ∧ s.regsWf = true :=
  ⟨State.reset, .steward, 0, 0, 1, by decide +kernel⟩

theorem witness_arrTileOwnerWrite : ∃ (s : State) (r : Requester) (c : Nat) (a : Nat) (v : Nat),
    c < s.nClusters ∧ a < 8 ∧ s.regsWf = true :=
  ⟨State.reset, .steward, 0, 0, 1, by decide +kernel⟩

theorem witness_vecStep : ∃ (s : State) (c : Nat) (e : Nat) (x : Nat) (q : VStep) (u : State) (v : Vec),
    (s.vec c e).running = none ∧ s.vecChoice c e = some x ∧ (s.vec c e).queue.find? (fun q => q.ctx == x) = some q ∧ v = { s.vec c e with queue := dropFirst (fun r => r.ctx == x) (s.vec c e).queue, lastIssue := setAt (s.vec c e).lastIssue x s.ct } ∧ (u = (if x ≠ 4 ∧ 1 < (s.vecReady c e).length then s.ndTiming (s.ownerOf c) else s)) ∧ (q.kernel = 0 ∨ s.kernelIn c q.kernel = true) :=
  ⟨vecWaiting, 0, 0, 0, ⟨0, 0, 8, none⟩, _, _, by decide +kernel, by decide +kernel, by decide +kernel, rfl, rfl, by decide +kernel⟩

theorem witness_vecStep_refused : ∃ (s : State) (c : Nat) (e : Nat) (x : Nat) (q : VStep) (u : State) (v : Vec),
    (s.vec c e).running = none ∧ s.vecChoice c e = some x ∧ (s.vec c e).queue.find? (fun q => q.ctx == x) = some q ∧ v = { s.vec c e with queue := dropFirst (fun r => r.ctx == x) (s.vec c e).queue, lastIssue := setAt (s.vec c e).lastIssue x s.ct } ∧ (u = (if x ≠ 4 ∧ 1 < (s.vecReady c e).length then s.ndTiming (s.ownerOf c) else s)) ∧ q.kernel ≠ 0 ∧ s.kernelIn c q.kernel = false :=
  ⟨State.reset.setVec 0 0 { Vec.idle with queue := [⟨0, 2, 8, none⟩] }, 0, 0, 0, ⟨0, 2, 8, none⟩, _, _, by decide +kernel, by decide +kernel, by decide +kernel, rfl, rfl, by decide +kernel⟩

theorem witness_vecStep_running : ∃ (s : State) (c : Nat) (e : Nat) (q : VStep),
    (s.vec c e).running = some q ∧ s.ct < (s.vec c e).until_ :=
  ⟨State.reset.setVec 0 0 { Vec.idle with running := some ⟨0, 2, 8, none⟩, until_ := 8 }, 0, 0, ⟨0, 2, 8, none⟩, by decide +kernel⟩

theorem witness_vecStep_end : ∃ (s : State) (c : Nat) (e : Nat) (q : VStep) (u : State),
    (s.vec c e).running = some q ∧ (s.vec c e).until_ ≤ s.ct ∧ u = ((s.setVec c e { s.vec c e with running := none }).count64 (vecReg c e 8) 1).progress c q.ctx ∧ (u.vec c e).running = none :=
  ⟨State.reset.setVec 0 0 { Vec.idle with running := some ⟨0, 2, 8, none⟩, until_ := 0 }, 0, 0, ⟨0, 2, 8, none⟩, _, by decide +kernel, by decide +kernel, rfl, by decide +kernel⟩

theorem witness_vecChainWrite : ∃ (s : State) (r : Requester) (c : Nat) (e : Nat) (off : Nat) (v : Nat),
    s.mayWrite .stewardSeq r c = true ∧ c < s.nClusters ∧ e < 2 ∧ off < 0x200 ∧ off % 4 = 0 ∧ s.chainNamed c e (off / 32) = false ∧ s.regsWf = true :=
  ⟨owned, .steward, 0, 0, 4, 9, by decide +kernel⟩

theorem witness_vecChainWrite_named : ∃ (s : State) (r : Requester) (c : Nat) (e : Nat) (off : Nat) (v : Nat),
    s.chainNamed c e (off / 32) = true :=
  ⟨owned.setArr 0 0 { Arr.idle with op := some { oneOp 4 with instr := { armedInstr 4 with w0 := 4 } } }, .steward, 0, 0, 4, 9, by decide +kernel⟩

theorem witness_correctionWriteBack : ∃ (s : State) (c : Nat) (bank : Nat) (w : Nat),
    s.spBack.find? (inBank c bank) = some w ∧ (s.now.uses.any fun u => u.wr && some u.bank == bankOf (w * 8)) = false :=
  ⟨{ State.reset with spBack := [spAddr 0 0 / 8], mem := { Memory.empty with bad := [(spAddr 0 0 / 8, false)] } }, 0, 0, spAddr 0 0 / 8, by decide +kernel⟩

theorem witness_correctionWriteBack_wait : ∃ (s : State) (c : Nat) (bank : Nat) (w : Nat),
    s.spBack.find? (inBank c bank) = some w ∧ (s.now.uses.any fun u => u.wr && some u.bank == bankOf (w * 8)) = true :=
  ⟨{ State.reset with spBack := [spAddr 0 0 / 8], ports := { TickRec.begin 0 with uses := [⟨0, true, false, 0, 0, 0, 0, 0⟩] } }, 0, 0, spAddr 0 0 / 8, by decide +kernel⟩

theorem witness_poolAtomic : ∃ (s : State) (r : Requester) (op : AtomicOp) (a : Nat) (v : Nat) (e : Nat) (q : RdRes × State),
    poolBase ≤ a ∧ a < poolBase + poolSize ∧ s.reqWindowOk r (127 * 2 ^ 41 + a) (atomicLen op) .atomic = true ∧ s.mapped a (atomicLen op) = true ∧ a % atomicLen op = 0 ∧ placeAtomic op (regionOf a) = true ∧ workCtr a = none ∧ s.rinseLocked a (atomicLen op) = false ∧ s.memRead r a (atomicLen op) = q ∧ q.1.err = none :=
  ⟨owned, .steward, .fadd, poolBase, 5, 0, _, by decide +kernel, by decide +kernel, by decide +kernel, by decide +kernel, by decide +kernel, by decide +kernel, by decide +kernel, by decide +kernel, rfl, by decide +kernel⟩

theorem witness_poolAtomic_clean : ∃ (s : State) (r : Requester) (op : AtomicOp) (a : Nat) (v : Nat) (e : Nat),
    poolBase ≤ a ∧ a < poolBase + poolSize ∧ s.reqWindowOk r (127 * 2 ^ 41 + a) (atomicLen op) .atomic = true ∧ s.mapped a (atomicLen op) = true ∧ a % atomicLen op = 0 ∧ placeAtomic op (regionOf a) = true ∧ workCtr a = none ∧ s.rinseLocked a (atomicLen op) = false ∧ s.errWords a (atomicLen op) = [] ∧ op ≠ .fadd ∧ r.ctx ≠ some 4 ∧ s.now.olds = [] ∧ (∀ u ∈ s.now.uses, u.req = r.key) :=
  ⟨owned, .steward, .add, poolBase, 5, 0, by decide +kernel⟩

theorem witness_workCounterFetch : ∃ (s : State) (r : Requester) (a : Nat) (w : Nat) (inc : Nat),
    s.reqWindowOk r (127 * 2 ^ 41 + a) 8 .atomic = true ∧ workCtr a = some w ∧ s.unitPresent w = true ∧ a % 8 = 0 :=
  ⟨owned, .steward, clReg 0 0x400, clReg 0 0x400, 5, by decide +kernel⟩

theorem witness_setFull : ∃ (s : State) (r : Requester) (c : Nat) (n : Nat) (u : State),
    s.mayWrite .stewardSeq r c = true ∧ c < s.nClusters ∧ n < 8192 ∧ u = s.settleTags :=
  ⟨owned, .steward, 0, 33, _, by decide +kernel, by decide +kernel, by decide +kernel, rfl⟩

theorem witness_setEmpty : ∃ (s : State) (r : Requester) (c : Nat) (n : Nat) (u : State),
    s.mayWrite .stewardSeq r c = true ∧ c < s.nClusters ∧ n < 8192 ∧ u = s.settleTags :=
  ⟨owned, .steward, 0, 33, _, by decide +kernel, by decide +kernel, by decide +kernel, rfl⟩

theorem witness_rinseScrub : ∃ (s : State) (c : Nat) (x : Nat) (k : Rinse),
    (s.rinses.find? fun r => r.cluster == c && r.ctx == x && !r.started) = some k ∧ (k.swapped = true ∨ s.ctxQuiet c x = true) :=
  ⟨{ owned with rinses := [⟨0, 0, [(0, spAddr 0 0, spAddr 0 0 + 255)], [(0, spAddr 0 0, spAddr 0 0 + 255)], [], false, 0, false, 0⟩] }, 0, 0, ⟨0, 0, [(0, spAddr 0 0, spAddr 0 0 + 255)], [(0, spAddr 0 0, spAddr 0 0 + 255)], [], false, 0, false, 0⟩, by decide +kernel⟩

theorem witness_rinseScrub_wait : ∃ (s : State) (c : Nat) (x : Nat) (k : Rinse),
    (s.rinses.find? fun r => r.cluster == c && r.ctx == x && !r.started) = some k ∧ k.swapped = false ∧ s.ctxQuiet c x = false :=
  ⟨{ (flying 0 false : State) with rinses := [⟨0, 0, [(0, spAddr 0 0, spAddr 0 0 + 255)], [(0, spAddr 0 0, spAddr 0 0 + 255)], [], false, 0, false, 0⟩] }, 0, 0, ⟨0, 0, [(0, spAddr 0 0, spAddr 0 0 + 255)], [(0, spAddr 0 0, spAddr 0 0 + 255)], [], false, 0, false, 0⟩, by decide +kernel⟩

theorem witness_rinseRegionDone : ∃ (s : State) (c : Nat) (x : Nat) (w : Nat) (k : Rinse) (v : Nat × Nat × Nat),
    (s.rinses.find? fun r => r.cluster == c && r.ctx == x && r.started && r.windows.any fun v => v.1 == w) = some k ∧ (k.windows.find? fun v => v.1 == w) = some v ∧ k.startAt + rinseTicks k w v.2.1 v.2.2 ≤ s.ct :=
  ⟨{ owned with rinses := [⟨0, 0, [(0, spAddr 0 0, spAddr 0 0 + 255)], [(0, spAddr 0 0, spAddr 0 0 + 255)], [], true, 0, false, 0⟩], clock := { ns := 100, urn := 100, aon := 100 } }, 0, 0, 0, ⟨0, 0, [(0, spAddr 0 0, spAddr 0 0 + 255)], [(0, spAddr 0 0, spAddr 0 0 + 255)], [], true, 0, false, 0⟩, (0, spAddr 0 0, spAddr 0 0 + 255), by decide +kernel⟩

theorem witness_remoteAccess : ∃ (s : State) (a : Access) (x : Nat),
    a.req.cluster.isSome = true ∧ s.reqWindowOk a.req a.addr (accessLen a) (accessRight a) = true ∧ s.localOf a.addr = some x ∧ clusterBase ≤ x ∧ x < clusterBase + 0x40000000 ∧ s.accessReady x a = true :=
  ⟨windowed owned 0 true, ⟨.array 0 0 0, 127 * 2 ^ 41 + spAddr 0 0, false, .read 8, false⟩, spAddr 0 0, by decide +kernel⟩

theorem witness_remoteAccess_wait : ∃ (s : State) (a : Access) (x : Nat),
    a.req.cluster.isSome = true ∧ s.reqWindowOk a.req a.addr (accessLen a) (accessRight a) = true ∧ s.localOf a.addr = some x ∧ clusterBase ≤ x ∧ x < clusterBase + 0x40000000 ∧ s.accessReady x a = false :=
  ⟨windowed owned 0 false, ⟨.array 0 0 0, 127 * 2 ^ 41 + spAddr 0 0, true, .read 8, false⟩, spAddr 0 0, by decide +kernel⟩

theorem witness_remoteAccess_away : ∃ (s : State) (a : Access),
    a.req.cluster.isSome = true ∧ s.reqWindowOk a.req a.addr (accessLen a) (accessRight a) = true ∧ s.localOf a.addr = none :=
  ⟨owned, ⟨.sequencer 0, 3 * 2 ^ 41, false, .read 8, false⟩, by decide +kernel⟩

theorem witness_remoteAccess_window : ∃ (s : State) (a : Access),
    a.req.cluster.isSome = true ∧ s.reqWindowOk a.req a.addr (accessLen a) (accessRight a) = false :=
  ⟨State.reset, ⟨.array 0 0 0, 127 * 2 ^ 41 + spAddr 1 0, false, .read 8, false⟩, by decide +kernel⟩

theorem witness_movDescWrite : ∃ (s : State) (r : Requester) (c : Nat) (e : Nat) (word : Nat) (v : Nat),
    s.mayWrite .stewardSeq r c = true ∧ c < s.nClusters ∧ e < 32 ∧ word < 16 ∧ s.entryQueued c e = false ∧ s.regsWf = true :=
  ⟨owned, .steward, 0, 3, 0, 7, by decide +kernel⟩

theorem witness_movDescWrite_queued : ∃ (s : State) (r : Requester) (c : Nat) (e : Nat) (word : Nat) (v : Nat),
    s.entryQueued c e = true :=
  ⟨chanBound.setChan 0 0 { MovChan.idle with queue := [0] }, .steward, 0, 0, 0, 7, by decide +kernel⟩

theorem witness_movPush : ∃ (s : State) (r : Requester) (c : Nat) (n : Nat) (e : Nat),
    s.mayWrite .stewardSeq r c = true ∧ c < s.nClusters ∧ n < 16 ∧ e < 32 ∧ s.entryQueued c e = false ∧ s.chanCtx c n ≤ 4 ∧ descOk (s.descBytes c e) (s.chanCtx c n == 4) = true ∧ s.tagSidesOk c n (s.chanCtx c n) (s.desc c e) = true :=
  ⟨chanBound, .steward, 0, 0, 0, by decide +kernel⟩

theorem witness_movPush_rejected : ∃ (s : State) (r : Requester) (c : Nat) (n : Nat) (e : Nat),
    s.mayWrite .stewardSeq r c = true ∧ c < s.nClusters ∧ n < 16 ∧ e < 32 ∧ (s.entryQueued c e = true ∨ 4 < s.chanCtx c n) :=
  ⟨owned, .steward, 0, 0, 0, by decide +kernel⟩

theorem witness_movPush_invalid : ∃ (s : State) (r : Requester) (c : Nat) (n : Nat) (e : Nat),
    s.mayWrite .stewardSeq r c = true ∧ c < s.nClusters ∧ n < 16 ∧ e < 32 ∧ s.entryQueued c e = false ∧ s.chanCtx c n ≤ 4 ∧ (descOk (s.descBytes c e) (s.chanCtx c n == 4) = false ∨ s.tagSidesOk c n (s.chanCtx c n) (s.desc c e) = false) :=
  ⟨chanBound.wr (descReg 0 0 0) 3, .steward, 0, 0, 0, by decide +kernel⟩

theorem witness_movAbort : ∃ (s : State) (r : Requester) (c : Nat) (n : Nat) (v : MovChan),
    s.mayWrite .stewardSeq r c = true ∧ c < s.nClusters ∧ n < 16 ∧ v = s.chan c n :=
  ⟨owned, .steward, 0, 0, _, by decide +kernel, by decide +kernel, by decide +kernel, rfl⟩

theorem witness_movResume : ∃ (s : State) (r : Requester) (c : Nat) (n : Nat) (v : MovChan) (u : State),
    s.mayWrite .stewardSeq r c = true ∧ c < s.nClusters ∧ n < 16 ∧ v = s.chan c n ∧ v.state = 4 ∧ (u = s.setChan c n { v with state := if v.queue.isEmpty then 0 else 1 }) :=
  ⟨owned.setChan 0 0 { MovChan.idle with state := 4 }, .steward, 0, 0, _, _, by decide +kernel, by decide +kernel, by decide +kernel, rfl, by decide +kernel, rfl⟩

theorem witness_movResume_later : ∃ (s : State) (r : Requester) (c : Nat) (n : Nat),
    s.mayWrite .stewardSeq r c = true ∧ c < s.nClusters ∧ n < 16 ∧ (s.chan c n).state ≠ 4 :=
  ⟨owned, .steward, 0, 0, by decide +kernel⟩

theorem witness_movCtxBind : ∃ (s : State) (r : Requester) (c : Nat) (n : Nat) (x : Nat),
    s.mayWrite .stewardSeq r c = true ∧ c < s.nClusters ∧ n < 16 ∧ (s.chan c n).queue = [] :=
  ⟨owned, .steward, 0, 0, 1, by decide +kernel⟩

theorem witness_movCtxBind_busy : ∃ (s : State) (r : Requester) (c : Nat) (n : Nat) (x : Nat) (e : Nat) (l : List Nat),
    (s.chan c n).queue = e :: l :=
  ⟨chanBound.setChan 0 0 { MovChan.idle with queue := [0] }, .steward, 0, 0, 1, 0, [], by decide +kernel⟩

theorem witness_moverPieceIssue : ∃ (s : State) (c : Nat) (n : Nat) (net : Bool) (u : State),
    s.tryPiece c n = (some net, u) ∧ s.piecesNow c (·.1 == n) < 2 ∧ s.servesChan c n net = true :=
  ⟨issuing, 0, 0, false, (issuing.tryPiece 0 0).2, pair_eq (by decide +kernel), by decide +kernel⟩

theorem witness_moverPieceIssue_lost : ∃ (s : State) (c : Nat) (n : Nat) (net : Bool) (u : State),
    s.tryPiece c n = (some net, u) ∧ s.piecesNow c (·.1 == n) < 2 ∧ s.servesChan c n net = false :=
  ⟨crowded, 0, 0, false, (crowded.tryPiece 0 0).2, pair_eq (by decide +kernel), by decide +kernel⟩

theorem witness_moverPieceIssue_none : ∃ (s : State) (c : Nat) (n : Nat) (u : State),
    s.tryPiece c n = (none, u) :=
  ⟨owned, 0, 0, owned, by decide +kernel⟩

theorem witness_pieceDelivery : ∃ (s : State) (c : Nat) (n : Nat) (q : Piece) (l : List Piece),
    (s.chan c n).inflight = q :: l ∧ (q.net = false ∨ s.chanCtx c n ≠ 4 ∨ (s.chan c n).state = 7) :=
  ⟨flying 0 false, 0, 0, aPiece false, [], by decide +kernel⟩

theorem witness_pieceDelivery_held : ∃ (s : State) (c : Nat) (n : Nat) (q : Piece) (l : List Piece),
    (s.chan c n).inflight = q :: l ∧ q.net = true ∧ s.chanCtx c n = 4 ∧ (s.chan c n).state ≠ 7 :=
  ⟨flying 4 true, 0, 0, aPiece true, [], by decide +kernel⟩

theorem witness_timedPieceRelease : ∃ (s : State) (c : Nat) (n : Nat) (q : Piece) (l : List Piece),
    (s.chan c n).inflight = q :: l ∧ q.net = true ∧ s.chanCtx c n = 4 ∧ q.issue + (s.desc c q.entry).release ≤ s.ct ∧ q.waits = [] :=
  ⟨flying 4 true, 0, 0, aPiece true, [], by decide +kernel⟩

theorem witness_timedPieceRelease_late : ∃ (s : State) (c : Nat) (n : Nat) (q : Piece) (l : List Piece),
    (s.chan c n).inflight = q :: l ∧ q.net = true ∧ s.chanCtx c n = 4 ∧ q.issue + (s.desc c q.entry).release ≤ s.ct ∧ q.late = false :=
  ⟨flying 4 true, 0, 0, aPiece true, [], by decide +kernel⟩

theorem witness_timedPieceRelease_early : ∃ (s : State) (c : Nat) (n : Nat) (staged : Bool) (q : Piece) (l : List Piece),
    (s.chan c n).inflight = q :: l ∧ s.ct < q.issue + (s.desc c q.entry).release :=
  ⟨(flying 4 true).setChan 0 0 { MovChan.idle with queue := [0], inflight := [{ aPiece true with issue := 5 }], state := 1 }, 0, 0, true, { aPiece true with issue := 5 }, [], by decide +kernel⟩

theorem witness_descriptorRetire : ∃ (s : State) (c : Nat) (n : Nat) (e : Nat) (l : List Nat) (p : List Nat),
    (s.chan c n).queue = e :: l ∧ (s.chan c n).pos = some p ∧ (s.chan c n).inflight = [] ∧ (s.chan c n).state ≠ 7 ∧ (s.desc c e).over p = true :=
  ⟨chanBound.setChan 0 0 { MovChan.idle with queue := [0], state := 1, pos := some [0, 0, 0, 0, 1] }, 0, 0, 0, [], [0, 0, 0, 0, 1], by decide +kernel⟩

theorem witness_tokenRefill : ∃ (s : State) (c : Nat),
    s.ct % 256 = 0 :=
  ⟨owned, 0, by decide +kernel⟩

theorem witness_tokenRefill_between : ∃ (s : State) (c : Nat),
    s.ct % 256 ≠ 0 :=
  ⟨at_ 4 owned, 0, by decide +kernel⟩

theorem witness_operatorStarts : ∃ (s : State) (c x op : Nat) (i : Instr) (k : OpKind) (f : State → State) (w u : State) (r : Option (List Byte)) (l : List Byte),
    (op, i, k) = (0x40, Instr.copy c x, copyKind c x) ∧ f = id ∧
    s.tilerMay c x = true ∧ (s.opNow c x).getD op = op ∧ w = s.tilerTake c x ∧ (w.til c x).phase = 0 ∧ w.readOp c x = (r, u) ∧ r = some l ∧
    catalogue.contains (fieldAt l 0 1) = true ∧ k.ok u l = true ∧ k.fits u l = true :=
  ⟨timedAt [0x40], 0, 4, 0x40, .copy 0 4, copyKind 0 4, id, _, ((timedAt [0x40]).readOp 0 4).2, some (leBytes 128 0x40), _, rfl, rfl, by decide +kernel, by decide +kernel, rfl,
    by decide +kernel, Prod.ext (by decide +kernel) rfl, rfl, by decide +kernel⟩

/-- The descriptor that the check refuses, and the one whose opcode is reserved. -/
theorem witness_operatorRefused : ∃ (s : State) (c x : Nat) (k : OpKind) (l l' : List Byte), k = arrayKind c x ∧
    s.tilerMay c x = true ∧ (s.opNow c x).getD 0x01 = 0x01 ∧ (s.til c x).phase = 0 ∧ (s.readOp c x).1 = some l ∧ k.ok s l = false ∧ catalogue.contains (fieldAt l' 0 1) = false :=
  ⟨timedAt [0x01], 0, 4, arrayKind 0 4, leBytes 128 0x01, leBytes 128 0xEE, rfl, by decide +kernel⟩

theorem witness_operatorRuns : ∃ (s : State) (c x op : Nat) (i : Instr) (k : OpKind) (f : State → State) (w e : State), (op, i, k) = (0x40, Instr.copy c x, copyKind c x) ∧ f = id ∧
    w = s.tilerTake c x ∧ e = w.emit c x ((w.til c x).work.length + 1) ∧ s.tilerMay c x = true ∧ (s.opNow c x).getD op = op ∧ (w.til c x).phase = 1 ∧
    e.opRuns_ c x = true ∧ (e.til c x).work = [] ∧ e.item c x ≠ 0xFFFFFFFF :=
  ⟨(timedIn 1 [0x40] []).setItem 0 4 0, 0, 4, 0x40, .copy 0 4, copyKind 0 4, id, _, _, rfl, rfl, rfl, rfl, by decide +kernel⟩

/-- Work is left. -/
theorem witness_operatorWaits : ∃ (s : State) (c x op : Nat) (i : Instr) (k : OpKind) (w e : State), (op, i, k) = (0x40, Instr.copy c x, copyKind c x) ∧
    w = s.tilerTake c x ∧ e = w.emit c x ((w.til c x).work.length + 1) ∧ s.tilerMay c x = true ∧ (s.opNow c x).getD op = op ∧ (w.til c x).phase = 1 ∧
    (e.til c x).work ≠ [] :=
  ⟨(timedIn 1 [0x40] [.waitCount 0 5]).setItem 0 4 0, 0, 4, 0x40, .copy 0 4, copyKind 0 4, _, _, rfl, rfl, rfl, by decide +kernel⟩

/-- The clauses about the next item. -/
theorem witness_operatorNext : ∃ (s : State) (c x : Nat) (w e : State) (j : Nat), w = s.tilerTake c x ∧ e = w.emit c x ((w.til c x).work.length + 1) ∧
    s.tilerMay c x = true ∧ (s.opNow c x).getD 0x40 = 0x40 ∧ (w.til c x).phase = 1 ∧ e.opRuns_ c x = true ∧ (e.til c x).work = [] ∧
    e.item c x = 0xFFFFFFFF ∧ (e.nextItem c x (e.til c x).total (wctrOf (w.til c x).desc) (distOf (w.til c x).desc)).2.1 = some j :=
  ⟨((timedIn 1 [0x40] []).modTil 0 4 fun t => { t with total := 1 }).setItem 0 4 0xFFFFFFFF, 0, 4, _, _, 0, rfl, rfl, by decide +kernel⟩

/-- The clause about the end of a share. -/
theorem witness_operatorEnds : ∃ (s : State) (c x : Nat) (w e : State), w = s.tilerTake c x ∧ e = w.emit c x ((w.til c x).work.length + 1) ∧
    s.tilerMay c x = true ∧ (s.opNow c x).getD 0x40 = 0x40 ∧ (w.til c x).phase = 1 ∧ e.opRuns_ c x = true ∧ (e.til c x).work = [] ∧
    e.item c x = 0xFFFFFFFF ∧ (e.nextItem c x (e.til c x).total (wctrOf (w.til c x).desc) (distOf (w.til c x).desc)).2.1 = none ∧ e.ctxIdle c x = true :=
  ⟨(timedIn 1 [0x40] []).setItem 0 4 0xFFFFFFFF, 0, 4, _, _, rfl, rfl, by decide +kernel⟩

theorem witness_nextItem_undistributed : ∃ (s : State) (c : Nat) (x : Nat) (total : Nat) (w : Nat),
    (s.til c x).allTaken = false ∧ (s.til c x).next < total :=
  ⟨State.reset, 0, 0, 1, 0, by decide +kernel⟩

theorem witness_nextItem_over : ∃ (s : State) (c : Nat) (x : Nat) (total : Nat) (w : Nat),
    total ≤ (s.til c x).next :=
  ⟨State.reset, 0, 0, 0, 0, by decide +kernel⟩

theorem witness_itemEnd : ∃ (s : State) (c : Nat) (x : Nat),
    s.regsWf = true :=
  ⟨State.reset, 0, 0, by decide +kernel⟩

theorem witness_rowItem : ∃ (s : State) (c : Nat) (x : Nat) (kernel : Nat),
    s.kernelIn c kernel = false :=
  ⟨State.reset, 0, 0, 2, by decide +kernel⟩

theorem witness_completionWord : ∃ (s : State) (c : Nat) (x : Nat),
    c < s.nClusters ∧ x < 5 ∧ (s.til c x).active = true ∧ (s.til c x).phase = 2 ∧ ((s.til c x).aborted = true ∨ s.ctxIdle c x = true) :=
  ⟨timedIn 2 [0x40] [], 0, 4, by decide +kernel⟩

theorem witness_window : ∃ (s : State) (c : Nat) (x : Nat) (slot : Nat) (t : Nat) (ch : Nat) (ta : Nat) (w : List Work) (it : Item),
    s.tilerMay c x = true ∧ s.opRuns_ c x = true ∧ (s.til c x).work = .window slot t ch :: w ∧ (s.plan c x).item (s.item c x) = some it ∧ s.kernelIn c 0x0B = true ∧ (ta = (if (s.plan c x).own = 0 then (s.plan c x).t else min (s.plan c x).t (s.plan c x).own)) :=
  ⟨atItem 0x10 [.window 0 0 0], 0, 4, 0, 0, 0, _, [], { b := 0, bm := 0, bn := 0, kind := 0, seg := 0, g := 0 }, by decide +kernel, by decide +kernel, by decide +kernel, by decide +kernel, by decide +kernel, rfl⟩

theorem witness_window_noKernel : ∃ (s : State) (c : Nat) (x : Nat) (slot : Nat) (t : Nat) (ch : Nat) (w : List Work) (it : Item),
    s.tilerMay c x = true ∧ s.opRuns_ c x = true ∧ (s.til c x).work = .window slot t ch :: w ∧ (s.plan c x).item (s.item c x) = some it ∧ s.kernelIn c 0x0B = false :=
  ⟨{ atItem 0x10 [.window 0 0 0] with kstore := [] }, 0, 4, 0, 0, 0, [], { b := 0, bm := 0, bn := 0, kind := 0, seg := 0, g := 0 }, by decide +kernel⟩

theorem witness_arrFlush : ∃ (s : State) (r : Requester) (c : Nat) (x : Nat) (arrays : Nat),
    s.mayWrite .stewardSeq r c = true ∧ c < s.nClusters ∧ x < 5 :=
  ⟨owned, .steward, 0, 0, 3, by decide +kernel⟩

theorem witness_splitKFallback : ∃ (s : State) (c : Nat) (x : Nat),
    c < s.nClusters ∧ x < 4 ∧ (s.til c x).bound = true ∧ (s.til c x).phase = 1 ∧ (s.til c x).aborted = false ∧ (s.ctx c x).held = false :=
  ⟨owned.setCtx 0 0 { Ctx.empty with tiler := { TilerCtx.idle with active := true, phase := 1, bound := true } }, 0, 0, by decide +kernel⟩

theorem witness_phase2Item_waits : ∃ (s : State) (c : Nat) (x : Nat) (va : Nat) (need : Nat) (w : List Work) (it : Item),
    s.tilerMay c x = true ∧ s.opRuns_ c x = true ∧ (s.til c x).work = .waitCount va need :: w ∧ (s.plan c x).item (s.item c x) = some it ∧ it.kind = 2 ∧ x ≠ 4 ∧ fieldAt (s.til c x).desc 0 1 ≠ 0x20 :=
  ⟨(elasticIn 1 (leBytes 128 0x01) [.waitCount 0 1]).setItem 0 0 0, 0, 0, 0, 1, [], { b := 0, bm := 0, bn := 0, kind := 2, seg := 0, g := 0 }, by decide +kernel⟩

theorem witness_phase2Item_emits : ∃ (s : State) (c : Nat) (x : Nat) (k : Work) (w : List Work) (it : Item),
    s.tilerMay c x = true ∧ s.opRuns_ c x = true ∧ (s.til c x).work = k :: w ∧ (∀ va need, k ≠ .waitCount va need) ∧ (s.plan c x).item (s.item c x) = some it ∧ it.kind = 2 ∧ fieldAt (s.til c x).desc 0 1 ≠ 0x20 :=
  ⟨atItem 0x01 [.sync], 0, 4, .sync, [], { b := 0, bm := 0, bn := 0, kind := 2, seg := 0, g := 0 }, by decide +kernel, by decide +kernel, by decide +kernel, (by simp), by decide +kernel⟩

theorem witness_countWordRead_stopped : ∃ (s : State) (c : Nat) (va : Nat) (need : Nat) (w : List Work) (u : State),
    s.tilerMay c 4 = true ∧ s.opRuns_ c 4 = true ∧ (s.til c 4).work = .waitCount va need :: w ∧ ((if fieldAt (s.til c 4).desc 0 1 = 0x20 then s.attRead c 4 none va 8 else s.xRead c 4 va 8) = (none, u)) :=
  ⟨atItem 0x01 [.waitCount (2 ^ 40) 1], 0, 2 ^ 40, 1, [], ((atItem 0x01 [.waitCount (2 ^ 40) 1]).xRead 0 4 (2 ^ 40) 8).2, by decide +kernel, by decide +kernel, by decide +kernel, (pair_eq (by decide +kernel))⟩

theorem witness_countWordRead : ∃ (s : State) (c : Nat) (va : Nat) (need : Nat) (w : List Work) (d : List Byte) (u : State),
    s.tilerMay c 4 = true ∧ s.opRuns_ c 4 = true ∧ (s.til c 4).work = .waitCount va need :: w ∧ ((if fieldAt (s.til c 4).desc 0 1 = 0x20 then s.attRead c 4 none va 8 else s.xRead c 4 va 8) = (some d, u)) :=
  ⟨atItem 0x01 [.waitCount 0 1], 0, 0, 1, [], [1, 0, 0, 0, 0, 0, 0, 0], ((atItem 0x01 [.waitCount 0 1]).xRead 0 4 0 8).2, by decide +kernel, by decide +kernel, by decide +kernel, (pair_eq (by decide +kernel))⟩

theorem witness_dppJobStart : ∃ (s : State) (d : Nat) (j : DppJob) (l : List DppJob) (r : DppRun),
    (s.dpp d).running = none ∧ (s.dpp d).queue = j :: l ∧ d < s.nDpps ∧ r = { job := j, start := s.ct, bound := detBound j.desc, ends := (detEnds j.desc).1, taken := 0, scores := [], boxes := [], priors := [], read := false, records := [], dropped := 0, lost := 0, ended := false } :=
  ⟨dppWaits, 0, aJob 4 true, [], _, by decide +kernel, by decide +kernel, by decide +kernel, rfl⟩

theorem witness_dppJobStart_running : ∃ (s : State) (d : Nat) (j : DppRun),
    (s.dpp d).running = some j :=
  ⟨dppRuns 4 true false, 0, aRun 4 true false, by decide +kernel⟩

theorem witness_dppJobEnd : ∃ (s : State) (d : Nat) (u : State) (j : DppRun),
    u = s.dppRead d ∧ u.dppReady d = some j ∧ j.ended = false :=
  ⟨dppRuns 0 false false, 0, _, aRun 0 false false, rfl, by decide +kernel⟩

theorem witness_dppJobEnd_waits : ∃ (s : State) (d : Nat) (u : State),
    u = s.dppRead d ∧ (u.dppReady d = none ∨ ∃ j, u.dppReady d = some j ∧ j.ended = true) :=
  ⟨dppWaits, 0, _, rfl, .inl (by decide +kernel)⟩

theorem witness_dppTBound : ∃ (s : State) (d : Nat) (u : State) (j : DppRun),
    u = s.dppRead d ∧ u.dppReady d = some j ∧ j.job.timed = true ∧ j.start + j.bound ≤ u.ct :=
  ⟨dppRuns 4 true false, 0, _, aRun 4 true false, rfl, by decide +kernel⟩

theorem witness_dppTBound_early : ∃ (s : State) (d : Nat) (u : State),
    u = s.dppRead d ∧ (∀ j, u.dppReady d = some j → j.job.timed = false ∨ u.ct < j.start + j.bound) :=
  ⟨dppWaits, 0, _, rfl, (fun j h => by rw [show (dppWaits.dppRead 0).dppReady 0 = none by decide +kernel] at h; cases h)⟩

theorem witness_seqSet_invalid : ∃ (s : State) (ring : Nat) (idx : Nat) (k : Cmd),
    s.mbCmd ring idx 0x08 = some k ∧ (4 ≤ k.part ∨ 1024 ≤ k.arg 8 2) :=
  ⟨withCmd owned 0x08 7 [], 0, 0, taken 0x08 7 [], by decide +kernel⟩

theorem witness_seqSet_late : ∃ (s : State) (ring : Nat) (idx : Nat) (k : Cmd),
    s.mbCmd ring idx 0x08 = some k ∧ k.part < 4 ∧ k.arg 8 2 < 1024 ∧ 0 < k.arg 0x10 8 ∧ k.arg 0x10 8 ≤ (s.begin_ ring idx).rd64 (seqCtl k.part 8) :=
  ⟨withCmd (owned.wr64 (seqCtl 0 8) 9) 0x08 0 [0, 0, 0, 0, 0, 0, 0, 0, 9], 0, 0, taken 0x08 0 [0, 0, 0, 0, 0, 0, 0, 0, 9], by decide +kernel⟩

theorem witness_seqSet : ∃ (s : State) (ring : Nat) (idx : Nat) (k : Cmd),
    s.mbCmd ring idx 0x08 = some k ∧ k.part < 4 ∧ k.arg 8 2 < 1024 ∧ (k.arg 0x10 8 = 0 ∨ (s.begin_ ring idx).rd64 (seqCtl k.part 8) < k.arg 0x10 8) :=
  ⟨withCmd owned 0x08 0 [], 0, 0, taken 0x08 0 [], by decide +kernel⟩

theorem witness_stepBuild : ∃ (s : State) (p : Nat) (q : QLaunch),
    s.stepLaunch p = some q ∧ s.stewardUp = true ∧ s.partRuns p = true ∧ s.seqState p = 0 ∧ bit (s.rd (seqCtl p 4)) 0 = false :=
  ⟨queued true, 0, { part := 0, rcd := aTask false true, cmd := none }, by decide +kernel⟩

theorem witness_stepCommit : ∃ (s : State) (p : Nat) (t : Nat) (k : Task),
    (s.step_ p).task = some t ∧ s.task t = some k ∧ k.ended = true :=
  ⟨{ (owned.setStep 0 { SeqStep.idle with task := some 0 }) with tasks := [(0, endedTask)] }, 0, 0, endedTask, by decide +kernel⟩

theorem witness_stepCommit_none : ∃ (s : State) (p : Nat),
    (s.step_ p).task = none ∧ p < 4 :=
  ⟨owned, 0, by decide +kernel⟩

theorem witness_attnStep_starts : ∃ (s : State) (c : Nat) (x : Nat) (w : State),
    s.tilerMay c x = true ∧ (s.opNow c x).getD 0x20 = 0x20 ∧ s.attFree c x = true ∧ w = s.tilerTake c x ∧ (w.til c x).phase = 0 :=
  ⟨timedAt [0x20], 0, 4, _, by decide +kernel, by decide +kernel, by decide +kernel, rfl, by decide +kernel⟩

theorem witness_attnStep_opens : ∃ (s : State) (c : Nat) (x : Nat) (w : State),
    s.tilerMay c x = true ∧ (s.opNow c x).getD 0x20 = 0x20 ∧ s.attFree c x = true ∧ w = s.tilerTake c x ∧ w.opRuns_ c x = true ∧ (w.til c x).att.phase = 0 :=
  ⟨attAt 0 0 0, 0, 4, _, by decide +kernel, by decide +kernel, by decide +kernel, rfl, by decide +kernel⟩

theorem witness_attnStep_next : ∃ (s : State) (c : Nat) (x : Nat) (w : State),
    s.tilerMay c x = true ∧ (s.opNow c x).getD 0x20 = 0x20 ∧ s.attFree c x = true ∧ w = s.tilerTake c x ∧ w.opRuns_ c x = true ∧ (w.til c x).att.phase = 1 ∧ w.item c x = 0xFFFFFFFF :=
  ⟨attAt 1 0xFFFFFFFF 0, 0, 4, _, by decide +kernel, by decide +kernel, by decide +kernel, rfl, by decide +kernel⟩

theorem witness_attnStep_held : ∃ (s : State) (c : Nat) (x : Nat) (w : State),
    s.tilerMay c x = true ∧ (s.opNow c x).getD 0x20 = 0x20 ∧ s.attFree c x = true ∧ w = s.tilerTake c x ∧ w.opRuns_ c x = true ∧ (w.til c x).att.phase = 1 ∧ w.item c x ≠ 0xFFFFFFFF :=
  ⟨attAt 1 0 0, 0, 4, _, by decide +kernel, by decide +kernel, by decide +kernel, rfl, by decide +kernel⟩

theorem witness_attnStep_ends : ∃ (s : State) (c : Nat) (x : Nat) (w : State),
    s.tilerMay c x = true ∧ (s.opNow c x).getD 0x20 = 0x20 ∧ s.attFree c x = true ∧ w = s.tilerTake c x ∧ w.opRuns_ c x = true ∧ (w.til c x).att.phase = 2 :=
  ⟨(elasticIn 1 (leBytes 128 0x20) []).modTil 0 0 fun t => { t with att := { AttWork.idle with phase := 2 } }, 0, 0, _, by decide +kernel, by decide +kernel, by decide +kernel, rfl, by decide +kernel⟩

theorem witness_appendItem : ∃ (s : State) (c : Nat) (x : Nat) (k : Nat) (h : Nat) (r : StepRunRec) (u : State),
    s.attMay c x = true ∧ s.attHeld c x = (some (r, k, h, none), u) :=
  ⟨attAt 1 0 0, 0, 4, 0, 0, aStepRun, ((attAt 1 0 0).attHeld 0 4).2, by decide +kernel, (pair_eq (by decide +kernel))⟩

theorem witness_attItem_none : ∃ (s : State) (c : Nat) (x : Nat) (u : State),
    s.attMay c x = true ∧ (∀ va need w, (s.til c x).work ≠ .waitCount va need :: w) ∧ s.attHeld c x = (none, u) :=
  ⟨{ attAt 1 0 0 with tu := Tu.empty }, 0, 4, (State.attHeld { attAt 1 0 0 with tu := Tu.empty } 0 4).2, by decide +kernel, (by have e : (State.til { attAt 1 0 0 with tu := Tu.empty } 0 4).work = [] := (by decide +kernel); simp [e]), (pair_eq (by decide +kernel))⟩

theorem witness_attendItem : ∃ (s : State) (c : Nat) (x : Nat) (k : Nat) (h : Nat) (g : Nat) (r : StepRunRec) (u : State),
    s.attMay c x = true ∧ (∀ va need w, (s.til c x).work ≠ .waitCount va need :: w) ∧ s.attHeld c x = (some (r, k, h, some g), u) :=
  ⟨attAt 1 1 0, 0, 4, 0, 0, 0, aStepRun, ((attAt 1 1 0).attHeld 0 4).2, by decide +kernel, (by have e : ((attAt 1 1 0).til 0 4).work = [] := (by decide +kernel); simp [e]), (pair_eq (by decide +kernel))⟩

theorem witness_attendItem_waits : ∃ (s : State) (c : Nat) (x : Nat) (va : Nat) (need : Nat) (w : List Work),
    s.attMay c x = true ∧ (s.til c x).work = .waitCount va need :: w ∧ x ≠ 4 :=
  ⟨(elasticIn 1 (leBytes 128 0x20) [.waitCount 0 1]).setItem 0 0 0, 0, 0, 0, 1, [], by decide +kernel⟩

theorem witness_attResume : ∃ (s : State) (r : Requester) (c : Nat) (x : Nat),
    s.mayWrite .stewardSeq r c = true ∧ c < s.nClusters ∧ s.fld (attReg c 0) 2 0 = 5 ∧ (s.att c).ctx = some x :=
  ⟨(owned.setFld (attReg 0 0) 2 0 5).setAtt 0 { ctx := some 0 }, .steward, 0, 0, by decide +kernel⟩

theorem witness_attOverrun_done : ∃ (s : State) (c : Nat),
    c < s.nClusters ∧ (s.til c 4).active = true ∧ (s.til c 4).phase = 1 ∧ (s.til c 4).aborted = false ∧ fieldAt (s.til c 4).desc 0 1 = 0x20 ∧ (s.til c 4).att.startAt + attMaxCt (s.til c 4).desc ≤ s.ct ∧ (s.til c 4).att.phase = 2 ∧ s.ctxIdle c 4 = true :=
  ⟨attAt 2 0xFFFFFFFF 0, 0, by decide +kernel⟩

theorem witness_attResume_later : ∃ (s : State) (r : Requester) (c : Nat),
    s.mayWrite .stewardSeq r c = true ∧ c < s.nClusters ∧ s.fld (attReg c 0) 2 0 ≠ 5 :=
  ⟨owned, .steward, 0, by decide +kernel⟩

theorem witness_attOverrun : ∃ (s : State) (c : Nat) (u : State),
    c < s.nClusters ∧ (s.til c 4).active = true ∧ (s.til c 4).phase = 1 ∧ (s.til c 4).aborted = false ∧ fieldAt (s.til c 4).desc 0 1 = 0x20 ∧ (s.til c 4).att.startAt + attMaxCt (s.til c 4).desc ≤ s.ct ∧ ((s.til c 4).att.phase ≠ 2 ∨ s.ctxIdle c 4 = false) ∧ u = (s.setFld (attReg c 0) 31 28 3).orReg (attReg c 0) (2 ^ 27) :=
  ⟨attAt 1 0 0, 0, _, by decide +kernel, by decide +kernel, by decide +kernel, by decide +kernel, by decide +kernel, by decide +kernel, by decide +kernel, rfl⟩

theorem witness_pageWalk_found : ∃ (s : State) (r : Requester) (c : Nat) (x : Nat) (va : Nat) (right : Right) (n : Option Snap) (k : Nat × Nat) (w : (Leaf ⊕ XRes) × State) (u : State) (lf : Leaf) (e : Xl) (ga : Nat),
    s.ctxLive c x = true ∧ x < 4 ∧ va < 2 ^ 47 ∧ n = s.snapAt r c va ∧ k = (n.map fun q => (2, q.root)).getD (1, s.rootOf c x) ∧ w = s.walkFrom r va 3 k.1 k.2 ∧ u = State.walked w.2 ∧ w.1 = .inl lf ∧ e = leafXl lf ((s.ownerOf c).getD 7) (s.asidOf c x) va n false ∧ e.answer va right = .ok ga :=
  ⟨tabled, .mover 0 0 0, 0, 0, 0, .read, _, _, _, _, ⟨7 + 127 * 2 ^ 41, 25⟩, _, 127 * 2 ^ 41, by decide +kernel, by decide +kernel, by decide +kernel, rfl, rfl, rfl, rfl, (by decide +kernel), rfl, (by decide +kernel)⟩

theorem witness_pageWalk_denied : ∃ (s : State) (r : Requester) (c : Nat) (x : Nat) (va : Nat) (right : Right) (n : Option Snap) (k : Nat × Nat) (w : (Leaf ⊕ XRes) × State) (u : State) (lf : Leaf) (e : Xl) (q : XRes),
    s.ctxLive c x = true ∧ x < 4 ∧ va < 2 ^ 47 ∧ n = s.snapAt r c va ∧ k = (n.map fun q => (2, q.root)).getD (1, s.rootOf c x) ∧ w = s.walkFrom r va 3 k.1 k.2 ∧ u = State.walked w.2 ∧ w.1 = .inl lf ∧ e = leafXl lf ((s.ownerOf c).getD 7) (s.asidOf c x) va n false ∧ e.answer va right = q ∧ (∀ ga, q ≠ .ok ga) :=
  ⟨tabled, .mover 0 0 0, 0, 0, 0, .atomic, _, _, _, _, ⟨7 + 127 * 2 ^ 41, 25⟩, _, _, by decide +kernel, by decide +kernel, by decide +kernel, rfl, rfl, rfl, rfl, (by decide +kernel), rfl, rfl, (by rw [show (leafXl ⟨7 + 127 * 2 ^ 41, 25⟩ ((tabled.ownerOf 0).getD 7) (tabled.asidOf 0 0) 0 (tabled.snapAt (.mover 0 0 0) 0 0) false).answer 0 .atomic = .fault 4 2 by decide +kernel]; intro g; simp)⟩

theorem witness_pageWalk : ∃ (s : State) (r : Requester) (c : Nat) (x : Nat) (va : Nat) (right : Right) (n : Option Snap) (k : Nat × Nat) (w : (Leaf ⊕ XRes) × State) (u : State) (q : XRes),
    s.ctxLive c x = true ∧ x < 4 ∧ va < 2 ^ 47 ∧ n = s.snapAt r c va ∧ k = (n.map fun q => (2, q.root)).getD (1, s.rootOf c x) ∧ w = s.walkFrom r va 3 k.1 k.2 ∧ u = State.walked w.2 ∧ w.1 = .inr q :=
  ⟨elasticIn 1 [] [], .mover 0 0 0, 0, 0, 0, .read, _, _, _, _, .fault 1 1, by decide +kernel, by decide +kernel, by decide +kernel, rfl, rfl, rfl, rfl, (by decide +kernel)⟩

theorem witness_fenceIssue : ∃ (s : State) (hi : Nat) (cmd : Nat),
    cmd = hi % 2 ^ 32 * 2 ^ 32 + s.rd (tuReg 0x10) ∧ s.tu.fences.length < 16 :=
  ⟨owned, 0, 0, by decide +kernel⟩

theorem witness_fenceIssue_busy : ∃ (s : State) (hi : Nat),
    16 ≤ s.tu.fences.length :=
  ⟨{ owned with tu := { Tu.empty with fences := List.replicate 16 { cmd := 0, issue := 0, mb := none, users := [] } } }, 0, by decide +kernel⟩

theorem witness_fence_waits : ∃ (s : State) (ring : Nat) (idx : Nat),
    16 ≤ s.tu.fences.length :=
  ⟨{ owned with tu := { Tu.empty with fences := List.replicate 16 { cmd := 0, issue := 0, mb := none, users := [] } } }, 0, 0, by decide +kernel⟩

theorem witness_fence : ∃ (s : State) (ring : Nat) (idx : Nat) (k : Cmd),
    s.mbCmd ring idx 0x0A = some k ∧ s.tu.fences.length < 16 ∧ k.part = bits (k.arg 8 8) 3 2 :=
  ⟨withCmd owned 0x0A 0 [], 0, 0, taken 0x0A 0 [], by decide +kernel⟩

theorem witness_fence_invalid : ∃ (s : State) (ring : Nat) (idx : Nat) (k : Cmd),
    s.mbCmd ring idx 0x0A = some k ∧ s.tu.fences.length < 16 ∧ k.part ≠ bits (k.arg 8 8) 3 2 :=
  ⟨withCmd owned 0x0A 0 [4], 0, 0, taken 0x0A 0 [4], by decide +kernel⟩

theorem witness_fenceRetire : ∃ (s : State) (f : Fence) (l : List Fence),
    s.tu.fences = f :: l ∧ s.fenceDone f = true :=
  ⟨{ owned with tu := { Tu.empty with fences := [{ cmd := 0, issue := 0, mb := none, users := [] }] } }, { cmd := 0, issue := 0, mb := none, users := [] }, [], by decide +kernel⟩

theorem witness_bbWindowWrite : ∃ (s : State) (r : Requester) (c : Nat) (x : Nat) (w : Nat) (word : Nat) (v : Nat),
    s.mayWrite .stewardSeq r c = true ∧ c < s.nClusters ∧ x < 5 ∧ w < 8 ∧ 0 < word ∧ word < 4 ∧ s.regsWf = true :=
  ⟨owned, .steward, 0, 0, 0, 1, 5, by decide +kernel⟩

theorem witness_bbWindowWrite_first : ∃ (s : State) (r : Requester) (c : Nat) (x : Nat) (w : Nat) (v : Nat),
    s.mayWrite .stewardSeq r c = true ∧ c < s.nClusters ∧ x < 5 ∧ w < 8 :=
  ⟨owned, .steward, 0, 0, 0, 5, by decide +kernel⟩

theorem witness_lpddr6ZeroFill : ∃ (s : State) (c : Nat) (x : Nat) (l : List ScrubLock),
    l = s.tu.scrub.filter fun e => e.locked && e.cluster == c && e.ctx == x ∧ l ≠ [] ∧ (s.rinses.any fun k => k.cluster == c && k.ctx == x && !k.swapped && !k.started) = false :=
  ⟨{ State.reset with tu := { Tu.empty with scrub := [{ cluster := 0, ctx := 0, win := 0, lo := 0, hi := 0, locked := true, root := 0 }] } }, 0, 0, [{ cluster := 0, ctx := 0, win := 0, lo := 0, hi := 0, locked := true, root := 0 }], by decide +kernel⟩

theorem witness_minorFrameStart_none : ∃ (s : State) (p : Nat),
    (s.dsp p).table = none :=
  ⟨State.reset, 0, by decide +kernel⟩

theorem witness_minorFrameStart_early : ∃ (s : State) (p : Nat) (b : BrewTable),
    (s.dsp p).table = some b ∧ (4 ≤ p ∨ s.fld (btReg p 0) 3 0 = 0 ∨ (s.scopeStopped p = true ∧ s.resetStep p ≠ 8) ∨ bit (s.rd (tbReg 0)) 31 = false ∨ reached s.time (b.frameTime (s.dsp p).frameNo) = false) :=
  ⟨{ State.reset with brew := [(0, { Brew.stopped with table := some oneFrame })] }, 0, oneFrame, by decide +kernel⟩

theorem witness_minorFrameStart_park : ∃ (s : State) (p : Nat) (b : BrewTable),
    (s.dsp p).table = some b ∧ p < 4 ∧ s.fld (btReg p 0) 3 0 ≠ 0 ∧ (s.scopeStopped p = false ∨ s.resetStep p = 8) ∧ bit (s.rd (tbReg 0)) 31 = true ∧ reached s.time (b.frameTime (s.dsp p).frameNo) = true ∧ s.parkDue p = true :=
  ⟨(validAt (running { Brew.stopped with table := some oneFrame })).wr (pmReg 0) 24, 0, oneFrame, by decide +kernel⟩

theorem witness_minorFrameStart_skip : ∃ (s : State) (p : Nat) (b : BrewTable),
    (s.dsp p).table = some b ∧ p < 4 ∧ s.fld (btReg p 0) 3 0 ≠ 0 ∧ (s.scopeStopped p = false ∨ s.resetStep p = 8) ∧ bit (s.rd (tbReg 0)) 31 = true ∧ reached s.time (b.frameTime (s.dsp p).frameNo) = true ∧ s.parkDue p = false ∧ reached s.time (b.frameTime ((s.dsp p).frameNo + 1)) = true :=
  ⟨validAt (running { Brew.stopped with table := some { oneFrame with epoch := 2 ^ 64 - 2000000 } }), 0, { oneFrame with epoch := 2 ^ 64 - 2000000 }, by decide +kernel⟩

theorem witness_minorFrameStart_squeeze : ∃ (s : State) (p : Nat) (b : BrewTable),
    (s.dsp p).table = some b ∧ p < 4 ∧ s.fld (btReg p 0) 3 0 ≠ 0 ∧ (s.scopeStopped p = false ∨ s.resetStep p = 8) ∧ bit (s.rd (tbReg 0)) 31 = true ∧ reached s.time (b.frameTime (s.dsp p).frameNo) = true ∧ s.parkDue p = false ∧ reached s.time (b.frameTime ((s.dsp p).frameNo + 1)) = false ∧ s.tickOf (b.frameTime (s.dsp p).frameNo) < (s.dsp p).busyTill ∧ (s.frameSqueeze p b).frameTickDue p b = none :=
  ⟨validAt (running { Brew.stopped with table := some oneFrame, busyTill := 1 }), 0, oneFrame, by decide +kernel⟩

theorem witness_minorFrameStart_postponed : ∃ (s : State) (p : Nat) (b : BrewTable) (t : Nat),
    (s.dsp p).table = some b ∧ p < 4 ∧ s.fld (btReg p 0) 3 0 ≠ 0 ∧ (s.scopeStopped p = false ∨ s.resetStep p = 8) ∧ bit (s.rd (tbReg 0)) 31 = true ∧ reached s.time (b.frameTime (s.dsp p).frameNo) = true ∧ s.parkDue p = false ∧ reached s.time (b.frameTime ((s.dsp p).frameNo + 1)) = false ∧ s.tickOf (b.frameTime (s.dsp p).frameNo) < (s.dsp p).busyTill ∧ (s.frameSqueeze p b).frameTickDue p b = some t :=
  ⟨{ at_ 4 (validAt (running { Brew.stopped with table := some oneFrame, busyTill := 1 })) with tb := { Tb.powerUp with raw := 4 } }, 0, oneFrame, 1, by decide +kernel⟩

theorem witness_minorFrameStart : ∃ (s : State) (p : Nat) (b : BrewTable) (t : Nat),
    (s.dsp p).table = some b ∧ p < 4 ∧ s.fld (btReg p 0) 3 0 ≠ 0 ∧ (s.scopeStopped p = false ∨ s.resetStep p = 8) ∧ bit (s.rd (tbReg 0)) 31 = true ∧ reached s.time (b.frameTime (s.dsp p).frameNo) = true ∧ s.parkDue p = false ∧ reached s.time (b.frameTime ((s.dsp p).frameNo + 1)) = false ∧ t = s.tickOf (b.frameTime (s.dsp p).frameNo) ∧ (s.dsp p).busyTill ≤ t ∧ t ≤ s.ct :=
  ⟨validAt (running { Brew.stopped with table := some oneFrame }), 0, oneFrame, _, by decide +kernel, by decide +kernel, by decide +kernel, by decide +kernel, by decide +kernel, by decide +kernel, by decide +kernel, by decide +kernel, rfl, by decide +kernel⟩

theorem witness_brewLaunch_absent : ∃ (s : State) (p : Nat) (e : BrewEntry),
    s.entryDue p 1 = some e ∧ (afterEntry s p).timedRec p (e.arg0 % 256) = none :=
  ⟨firing 1, 0, anEntry 1, by decide +kernel⟩

theorem witness_brewLaunch_conflict : ∃ (s : State) (p : Nat) (e : BrewEntry) (r : TaskRec) (c : Nat),
    s.entryDue p 1 = some e ∧ (afterEntry s p).timedRec p (e.arg0 % 256) = some r ∧ r.clusters.find? (fun c => ((afterEntry s p).ctx c 4).task.isSome) = some c :=
  ⟨{ firing 1 with programs := [(0, aProgram true false)], ctxs := [(4, { Ctx.empty with task := some 0 })] }, 0, anEntry 1, aTask true false, 0, by decide +kernel⟩

theorem witness_brewLaunch : ∃ (s : State) (p : Nat) (e : BrewEntry) (r : TaskRec),
    s.entryDue p 1 = some e ∧ (afterEntry s p).timedRec p (e.arg0 % 256) = some r ∧ r.clusters.find? (fun c => ((afterEntry s p).ctx c 4).task.isSome) = none ∧ r.step = false :=
  ⟨{ firing 1 with programs := [(0, aProgram true false)] }, 0, anEntry 1, aTask true false, by decide +kernel⟩

theorem witness_brewLaunch_refused : ∃ (s : State) (p : Nat) (e : BrewEntry) (r : TaskRec),
    s.entryDue p 1 = some e ∧ (afterEntry s p).timedRec p (e.arg0 % 256) = some r ∧ r.clusters.find? (fun c => ((afterEntry s p).ctx c 4).task.isSome) = none ∧ r.step = true ∧ ((afterEntry s p).stewardUp = false ∨ bit ((afterEntry s p).rd (seqCtl p 4)) 0 = false) :=
  ⟨{ firing 1 with programs := [(0, aProgram true true)] }, 0, anEntry 1, aTask true true, by decide +kernel, by decide +kernel, by decide +kernel, by decide +kernel, .inr (by decide +kernel)⟩

theorem witness_brewLaunch_step : ∃ (s : State) (p : Nat) (e : BrewEntry) (r : TaskRec),
    s.entryDue p 1 = some e ∧ (afterEntry s p).timedRec p (e.arg0 % 256) = some r ∧ r.clusters.find? (fun c => ((afterEntry s p).ctx c 4).task.isSome) = none ∧ r.step = true ∧ (afterEntry s p).stewardUp = true ∧ bit ((afterEntry s p).rd (seqCtl p 4)) 0 = true :=
  ⟨({ firing 1 with programs := [(0, aProgram true true)] }).wr (seqCtl 0 4) 1, 0, anEntry 1, aTask true true, by decide +kernel⟩

theorem witness_ingress : ∃ (s : State) (p : Nat) (e : BrewEntry),
    s.entryDue p 2 = some e :=
  ⟨firing 2, 0, anEntry 2, by decide +kernel⟩

theorem witness_swap : ∃ (s : State) (p : Nat) (e : BrewEntry) (a : Nat),
    s.entryDue p 3 = some e ∧ a = btReg p (0x100 + 4 * (e.arg0 % 64)) :=
  ⟨firing 3, 0, anEntry 3, btReg 0 0x100, by decide +kernel⟩

theorem witness_claim : ∃ (s : State) (p : Nat) (e : BrewEntry) (d : Brew),
    s.entryDue p 4 = some e ∧ d = (afterEntry s p).dsp p :=
  ⟨firing 4, 0, anEntry 4, (afterEntry (firing 4) 0).dsp 0, by decide +kernel, rfl⟩

theorem witness_taster : ∃ (s : State) (p : Nat) (e : BrewEntry),
    s.entryDue p 5 = some e :=
  ⟨firing 5, 0, anEntry 5, by decide +kernel⟩

theorem witness_selftest : ∃ (s : State) (p : Nat) (e : BrewEntry) (k : Nat) (d : Brew),
    s.entryDue p 6 = some e ∧ k = bits e.arg0 11 8 ∧ d = (afterEntry s p).dsp p :=
  ⟨firing 6, 0, anEntry 6, 0, (afterEntry (firing 6) 0).dsp 0, by decide +kernel, by decide +kernel, rfl⟩

theorem witness_publish_withheld : ∃ (s : State) (p : Nat) (e : BrewEntry) (u : State),
    s.entryDue p 7 = some e ∧ u = (afterEntry s p).setDsp p { (afterEntry s p).dsp p with fresh := ((afterEntry s p).dsp p).fresh.filter (· != e.arg0 % 64) } ∧ ((afterEntry s p).dsp p).fresh.contains (e.arg0 % 64) = false :=
  ⟨firing 7, 0, anEntry 7, (afterEntry (firing 7) 0).setDsp 0 { (afterEntry (firing 7) 0).dsp 0 with fresh := ((afterEntry (firing 7) 0).dsp 0).fresh.filter (· != 0) }, by decide +kernel, rfl, by decide +kernel⟩

theorem witness_publish : ∃ (s : State) (p : Nat) (e : BrewEntry) (r : StreamRec) (u : State) (v : State) (d : RdRes),
    s.entryDue p 7 = some e ∧ u = (afterEntry s p).setDsp p { (afterEntry s p).dsp p with fresh := ((afterEntry s p).dsp p).fresh.filter (· != e.arg0 % 64) } ∧ ((afterEntry s p).dsp p).fresh.contains (e.arg0 % 64) = true ∧ u.streamOf (e.arg0 % 64) = some (p, r) ∧ r.source = 0 ∧ u.memRead .steward r.header 8 = (d, v) ∧ d.err = none :=
  ⟨publishing, 0, anEntry 7, aStream, publishing_, (publishing_.memRead .steward (spAddr 0 0) 8).2, (publishing_.memRead .steward (spAddr 0 0) 8).1, by decide +kernel, rfl, by decide +kernel, by decide +kernel, rfl, rfl, by decide +kernel⟩

theorem witness_publish_other : ∃ (s : State) (p : Nat) (e : BrewEntry) (u : State),
    s.entryDue p 7 = some e ∧ u = (afterEntry s p).setDsp p { (afterEntry s p).dsp p with fresh := ((afterEntry s p).dsp p).fresh.filter (· != e.arg0 % 64) } ∧ (∀ q r, u.streamOf (e.arg0 % 64) = some (q, r) → q ≠ p ∨ r.source ≠ 0) :=
  ⟨firing 7, 0, anEntry 7, _, by decide +kernel, rfl, (fun q r h => absurd (h.symm.trans (by decide +kernel : _ = none)) (by simp))⟩

theorem witness_publish_unread : ∃ (s : State) (p : Nat) (e : BrewEntry) (r : StreamRec) (u : State) (v : State) (d : RdRes),
    s.entryDue p 7 = some e ∧ u = (afterEntry s p).setDsp p { (afterEntry s p).dsp p with fresh := ((afterEntry s p).dsp p).fresh.filter (· != e.arg0 % 64) } ∧ ((afterEntry s p).dsp p).fresh.contains (e.arg0 % 64) = true ∧ u.streamOf (e.arg0 % 64) = some (p, r) ∧ r.source = 0 ∧ u.memRead .steward r.header 8 = (d, v) ∧ d.err ≠ none :=
  ⟨publishing0, 0, anEntry 7, { aStream with header := 2 ^ 46 }, _, _, _, by decide +kernel, rfl, by decide +kernel, by decide +kernel, rfl, rfl, by decide +kernel⟩

theorem witness_timedTaskStart : ∃ (s : State) (p : Nat) (n : Nat) (k : Task),
    s.task n = some k ∧ k.timed = true ∧ k.part = p ∧ k.started = false ∧ k.ended = false ∧ k.launchAt + 24 ≤ s.ct :=
  ⟨{ at_ 32 State.reset with tasks := [(0, aTaskRun true false)] }, 0, 0, aTaskRun true false, by decide +kernel, by decide +kernel, rfl, by decide +kernel⟩

theorem witness_deadlineMiss : ∃ (s : State) (p : Nat) (n : Nat) (k : Task),
    s.task n = some k ∧ k.timed = true ∧ k.part = p ∧ k.ended = false ∧ k.launchAt + 24 + k.endCt ≤ s.ct :=
  ⟨{ at_ 32 State.reset with tasks := [(0, aTaskRun true false)] }, 0, 0, aTaskRun true false, by decide +kernel, by decide +kernel, rfl, by decide +kernel⟩

theorem witness_stagingEnqueue_write : ∃ (s : State) (src : Nat) (p : Nat) (addr : Nat) (r : Requester) (tg : Bool) (kp : Bool) (l : List Byte),
    p < 4 ∧ src < 26 ∧ (s.prec p).active = true ∧ stagedBytes (s.stage p src) + l.length ≤ 65536 :=
  ⟨owned, 20, 0, 0, .spout 0, false, false, [1, 2, 3, 4], by decide +kernel⟩

theorem witness_stagingEnqueue_fullwrite : ∃ (s : State) (src : Nat) (p : Nat) (addr : Nat) (r : Requester) (tg : Bool) (kp : Bool) (l : List Byte),
    65536 < stagedBytes (s.stage p src) + l.length :=
  ⟨{ owned with staging := [(20, [⟨0, ⟨.spout 0, 0, false, .write (List.replicate 65536 0), false⟩, none, false⟩])] }, 20, 0, 0, .spout 0, false, false, [1, 2, 3, 4], by decide +kernel⟩

theorem witness_stagingEnqueue_signal : ∃ (s : State) (src : Nat) (p : Nat) (addr : Nat) (r : Requester) (tg : Bool) (kp : Bool) (v : Nat),
    p < 4 ∧ src < 26 ∧ (s.prec p).active = true ∧ stagedBytes (s.stage p src) + 8 ≤ 65536 :=
  ⟨owned, 20, 0, 0, .spout 0, false, false, 1, by decide +kernel⟩

theorem witness_stagingEnqueue_fullsignal : ∃ (s : State) (src : Nat) (p : Nat) (addr : Nat) (r : Requester) (tg : Bool) (kp : Bool) (v : Nat),
    65536 < stagedBytes (s.stage p src) + 8 :=
  ⟨{ owned with staging := [(20, [⟨0, ⟨.spout 0, 0, false, .write (List.replicate 65536 0), false⟩, none, false⟩])] }, 20, 0, 0, .spout 0, false, false, 1, by decide +kernel⟩

theorem witness_stagingEnqueue_set : ∃ (s : State) (src : Nat) (p : Nat) (addr : Nat) (r : Requester) (tg : Bool) (kp : Bool) (v : Nat),
    p < 4 ∧ src < 26 ∧ (s.prec p).active = true ∧ stagedBytes (s.stage p src) + 8 ≤ 65536 :=
  ⟨owned, 20, 0, 0, .spout 0, false, false, 1, by decide +kernel⟩

theorem witness_stagingEnqueue_fullset : ∃ (s : State) (src : Nat) (p : Nat) (addr : Nat) (r : Requester) (tg : Bool) (kp : Bool) (v : Nat),
    65536 < stagedBytes (s.stage p src) + 8 :=
  ⟨{ owned with staging := [(20, [⟨0, ⟨.spout 0, 0, false, .write (List.replicate 65536 0), false⟩, none, false⟩])] }, 20, 0, 0, .spout 0, false, false, 1, by decide +kernel⟩

theorem witness_injectionStop : ∃ (s : State) (p : Nat) (src : Nat) (t : Nat) (stop : Nat),
    (s.dsp p).injecting.find? (fun e => e.1 == src) = some (src, t, stop) ∧ stop ≤ s.ct :=
  ⟨running { Brew.stopped with injecting := [(20, 0, 0)] }, 0, 20, 0, 0, by decide +kernel⟩

theorem witness_nocPacket_off : ∃ (s : State) (router : Nat) (p : Nat) (r : Requester) (ga : Nat) (back : Bool) (timed : Bool) (rival : Option (Requester × Bool)),
    (s.nocHop router r ga back = none ∨ 4 ≤ p) :=
  ⟨owned, 0, 4, .swapUnit 0, 127 * 2 ^ 41 + spAddr 1 0, false, false, none, .inr (by decide)⟩

theorem witness_nocPacket_unmapped : ∃ (s : State) (router : Nat) (p : Nat) (i : Nat) (r : Requester) (ga : Nat) (back : Bool) (timed : Bool) (rival : Option (Requester × Bool)),
    s.nocHop router r ga back = some (i, 4) ∧ p < 4 ∧ router < 64 ∧ s.nClusters ≤ router :=
  ⟨owned.setFld (cadReg 0) 31 16 0x1600, 60, 0, 0, .swapUnit 0, 127 * 2 ^ 41 + spAddr 60 0, false, false, none, by decide +kernel⟩

theorem witness_nocPacket_conflict : ∃ (s : State) (router : Nat) (p : Nat) (i : Nat) (o : Nat) (r : Requester) (ga : Nat) (back : Bool) (rival : Option (Requester × Bool)),
    s.nocHop router r ga back = some (i, o) ∧ p < 4 ∧ (o ≠ 4 ∨ 64 ≤ router ∨ router < s.nClusters) ∧ ((s.slotEntry router).2 = false ∨ slotReserves (s.slotEntry router).1 o i p = false ∨ rival.map (·.2) = some true) :=
  ⟨owned, 0, 0, 4, 1, .swapUnit 0, 127 * 2 ^ 41 + spAddr 1 0, false, some (.swapUnit 1, true), by decide +kernel⟩

theorem witness_nocPacket_timed : ∃ (s : State) (router : Nat) (p : Nat) (i : Nat) (o : Nat) (r : Requester) (ga : Nat) (back : Bool) (rival : Option (Requester × Bool)),
    s.nocHop router r ga back = some (i, o) ∧ p < 4 ∧ (o ≠ 4 ∨ 64 ≤ router ∨ router < s.nClusters) ∧ (s.slotEntry router).2 = true ∧ slotReserves (s.slotEntry router).1 o i p = true ∧ rival.map (·.2) ≠ some true :=
  ⟨owned.wr (stReg 0x40000) 2304, 0, 0, 4, 1, .swapUnit 0, 127 * 2 ^ 41 + spAddr 1 0, false, none, by decide +kernel⟩

theorem witness_nocPacket_elastic : ∃ (s : State) (router : Nat) (p : Nat) (i : Nat) (o : Nat) (r : Requester) (ga : Nat) (back : Bool) (rival : Option (Requester × Bool)),
    s.nocHop router r ga back = some (i, o) ∧ p < 4 ∧ (o ≠ 4 ∨ 64 ≤ router ∨ router < s.nClusters) ∧ (s.slotEntry router).2 = true ∧ (∀ q, rival = some (q, false) → nocWins s.nocTick r q = true) :=
  ⟨owned, 0, 0, 4, 1, .swapUnit 0, 127 * 2 ^ 41 + spAddr 1 0, false, some (.swapUnit 0, false), by decide +kernel, by decide +kernel, by decide +kernel, by decide +kernel, (fun q h => by cases h; decide +kernel)⟩

theorem witness_nocPacket_loses : ∃ (s : State) (router : Nat) (p : Nat) (i : Nat) (o : Nat) (r : Requester) (ga : Nat) (back : Bool) (q : Requester),
    s.nocHop router r ga back = some (i, o) ∧ p < 4 ∧ (o ≠ 4 ∨ 64 ≤ router ∨ router < s.nClusters) ∧ (s.slotEntry router).2 = true ∧ nocWins s.nocTick r q = false :=
  ⟨owned, 0, 0, 1, 4, .swapUnit 1, 127 * 2 ^ 41 + spAddr 0 0, false, .swapUnit 0, by decide +kernel⟩

theorem witness_nocPacket_badEntry : ∃ (s : State) (router : Nat) (p : Nat) (i : Nat) (o : Nat) (r : Requester) (ga : Nat) (back : Bool) (rival : Option (Requester × Bool)),
    s.nocHop router r ga back = some (i, o) ∧ p < 4 ∧ (o ≠ 4 ∨ 64 ≤ router ∨ router < s.nClusters) ∧ (s.slotEntry router).2 = false ∧ (∀ q, rival = some (q, false) → nocWins s.nocTick r q = true) :=
  ⟨owned.wr (stReg 0x40000) 1, 0, 0, 4, 1, .swapUnit 0, 127 * 2 ^ 41 + spAddr 1 0, false, none, by decide +kernel, by decide +kernel, by decide +kernel, by decide +kernel, (fun q h => by cases h)⟩

theorem witness_claimRelease : ∃ (s : State) (p : Nat) (d : Brew),
    d = s.dsp p ∧ d.claims.any (fun k => decide (k.until_ ≤ s.ct)) = true :=
  ⟨running { Brew.stopped with claims := [{ clusters := [0], arrays := 1, engines := 0, until_ := 0 }] }, 0, { Brew.stopped with claims := [{ clusters := [0], arrays := 1, engines := 0, until_ := 0 }] }, by decide +kernel⟩

theorem witness_goldenTest : ∃ (s : State) (p : Nat) (t : Nat) (errors : List UnitError),
    (s.dsp p).taster = some t ∧ t + 320 ≤ s.ct ∧ (s.dsp p).tasterRun = false :=
  ⟨at_ 600 (running { Brew.stopped with taster := some 0 }), 0, 0, [⟨0, 3, 0, 1⟩], by decide +kernel⟩

theorem witness_goldenTest_waits : ∃ (s : State) (p : Nat) (errors : List UnitError),
    (∀ t, (s.dsp p).taster = some t → s.ct < t + 320 ∨ (s.dsp p).tasterRun = true) :=
  ⟨owned, 0, [], (fun t h => by cases h)⟩

theorem witness_tasterCompare : ∃ (s : State) (p : Nat) (c : Nat) (t : Nat) (d : Brew) (units : List Nat) (u : State),
    d = s.dsp p ∧ d.taster = some t ∧ d.tasterRun = true ∧ t + 448 ≤ s.ct ∧ s.ownerOf c = some p ∧ c < s.nClusters ∧ d.compared.contains c = false ∧ u = s.setDsp p { d with compared := d.compared ++ [c], lastTaster := s.time } ∧ units = u.goldenBad p c :=
  ⟨at_ 600 (running { Brew.stopped with taster := some 0, tasterRun := true }), 0, 0, 0, { Brew.stopped with taster := some 0, tasterRun := true }, [], _, by decide +kernel, by decide +kernel, by decide +kernel, by decide +kernel, by decide +kernel, by decide +kernel, by decide +kernel, rfl, by decide +kernel⟩

theorem witness_tasterCompare_waits : ∃ (s : State) (p : Nat) (c : Nat),
    (∀ t, (s.dsp p).taster = some t → (s.dsp p).tasterRun = false ∨ s.ct < t + 448 ∨ s.ownerOf c ≠ some p ∨ s.nClusters ≤ c ∨ (s.dsp p).compared.contains c = true) :=
  ⟨owned, 0, 0, (fun t h => by cases h)⟩

theorem witness_selftestSlice : ∃ (s : State) (p : Nat) (l : List SliceRec),
    l = modFirst (fun k => !k.running && decide (k.startAt ≤ s.ct) && decide (s.ct < k.endAt) && s.sliceMay k) (fun k => { k with running := true }) (s.dsp p).slices :=
  ⟨owned, 0, [], by decide +kernel⟩

theorem witness_sliceEnd : ∃ (s : State) (p : Nat) (f : Option Nat) (k : SliceRec),
    (s.dsp p).slices.find? (fun k => k.running && decide (k.startAt + (testKind k.kind).2.1 ≤ s.ct) && decide (s.ct ≤ k.endAt)) = some k :=
  ⟨at_ 4000 (running { Brew.stopped with slices := [aSlice] }), 0, none, aSlice, by decide +kernel⟩

theorem witness_sliceAbandon : ∃ (s : State) (p : Nat) (k : SliceRec),
    (s.dsp p).slices.find? (fun k => decide (k.endAt ≤ s.ct)) = some k :=
  ⟨at_ 8000 (running { Brew.stopped with slices := [aSlice] }), 0, aSlice, by decide +kernel⟩

theorem witness_selftestOverdue : ∃ (s : State) (p : Nat) (kind : Nat) (unit : Nat) (index : Nat) (v : UnitTest) (u : State),
    v = s.unitTest (testKey kind unit index) ∧ u = s.setUnitTest (testKey kind unit index) { v with raised := true } ∧ p < 4 ∧ (s.prec p).active = true ∧ s.testUnit p kind unit index = true ∧ v.raised = false ∧ ((s.rd (btReg p (0x40 + 4 * kind)) * 1000000000 : Nat) < toSigned 64 (s.time + 2 ^ 64 - (if v.doneAt = 0 then (s.dsp p).boot else v.doneAt) % 2 ^ 64)) :=
  ⟨{ running Brew.stopped with tb := { Tb.powerUp with raw := 4000000000000 } }, 0, 1, 0, 0, UnitTest.fresh, ({ running Brew.stopped with tb := { Tb.powerUp with raw := 4000000000000 } } : State).setUnitTest (testKey 1 0 0) { UnitTest.fresh with raised := true }, by decide +kernel, rfl, by decide +kernel⟩

theorem witness_urnAgePub : ∃ (s : State) (r : Requester) (p : Nat) (stream : Nat) (q : Nat) (rcd : StreamRec),
    s.streamOf (stream % 64) = some (q, rcd) ∧ p < 5 ∧ s.mayPublish r p = true ∧ (q = p ∨ p = 4) ∧ rcd.source = 1 ∧ s.scopeStopped q = false :=
  ⟨running { Brew.stopped with table := some { oneFrame with streams := [{ aStream with source := 1 }] } }, .steward, 0, 0, 0, { aStream with source := 1 }, by decide +kernel⟩

theorem witness_ageCheck : ∃ (s : State),
    s.clock.urn % 50000 = 0 :=
  ⟨State.reset, by decide +kernel⟩

theorem witness_launch_stopped : ∃ (s : State) (ring : Nat) (idx : Nat) (k : Cmd),
    s.mbCmd ring idx 0x04 = some k ∧ s.launchQ.length < 64 ∧ k.part < 4 ∧ (s.begin_ ring idx).scopeStopped k.part = true :=
  ⟨withCmd (owned.setRecState 0 1) 0x04 0 [], 0, 0, taken 0x04 0 [], by decide +kernel⟩

theorem witness_launch_invalid : ∃ (s : State) (ring : Nat) (idx : Nat) (k : Cmd),
    s.mbCmd ring idx 0x04 = some k ∧ s.launchQ.length < 64 ∧ (4 ≤ k.part ∨ (s.begin_ ring idx).scopeStopped k.part = false) ∧ (s.begin_ ring idx).launchRec k = none :=
  ⟨withCmd owned 0x04 0 [], 0, 0, taken 0x04 0 [], by decide +kernel⟩

theorem witness_launch : ∃ (s : State) (ring : Nat) (idx : Nat) (k : Cmd) (t : TaskRec),
    s.mbCmd ring idx 0x04 = some k ∧ s.launchQ.length < 64 ∧ (4 ≤ k.part ∨ (s.begin_ ring idx).scopeStopped k.part = false) ∧ (s.begin_ ring idx).launchRec k = some t :=
  ⟨withCmd (programmed false false) 0x04 0 [3, 0, 1, 0, 0, 0, 0, 0, 1], 0, 0, taken 0x04 0 [3, 0, 1, 0, 0, 0, 0, 0, 1], { aTask false false with prio := 1 }, by decide +kernel⟩

theorem witness_taskGraphLaunch : ∃ (s : State) (p : Nat) (n : Nat) (i : Nat) (g : Program) (t : TaskRec),
    s.prog p = some g ∧ g.graph[n]? = some i ∧ g.tasks.find? (fun t => t.index == i && !t.timed) = some t ∧ s.partRuns p = true ∧ s.launchQ.length < 64 ∧ s.taskLive p t.index = false ∧ t.clusters ≠ [] :=
  ⟨programmed false false, 0, 0, 3, aProgram false false, aTask false false, by decide +kernel⟩

theorem witness_suspend_superseded : ∃ (s : State) (ring : Nat) (idx : Nat) (k : Cmd),
    s.mbCmd ring idx 0x05 = some k ∧ (s.begin_ ring idx).killing k = true :=
  ⟨withKill, 0, 1, suspendTaken, by decide +kernel⟩

theorem witness_suspend_invalid : ∃ (s : State) (ring : Nat) (idx : Nat) (k : Cmd),
    s.mbCmd ring idx 0x05 = some k ∧ (s.begin_ ring idx).killing k = false ∧ ((s.begin_ ring idx).named k).isEmpty = true :=
  ⟨withCmd owned 0x05 0 [], 0, 0, taken 0x05 0 [], by decide +kernel⟩

theorem witness_suspend : ∃ (s : State) (ring : Nat) (idx : Nat) (k : Cmd) (l : List (Nat × Task)) (u : State),
    s.mbCmd ring idx 0x05 = some k ∧ (s.begin_ ring idx).killing k = false ∧ l = (s.begin_ ring idx).named k ∧ l ≠ [] ∧ u = l.foldl (fun s e => s.modTask e.1 fun t => { t with suspended := true }) (s.begin_ ring idx) :=
  ⟨withCmd { programmed false false with tasks := [(0, aTaskRun false false)] } 5 0 [3], 0, 0, taken 5 0 [3], [(0, aTaskRun false false)], withTask 5 true true, by decide +kernel⟩

theorem witness_cont_invalid : ∃ (s : State) (ring : Nat) (idx : Nat) (k : Cmd),
    s.mbCmd ring idx 0x06 = some k ∧ ((s.begin_ ring idx).named k).isEmpty = true :=
  ⟨withCmd owned 0x06 0 [], 0, 0, taken 0x06 0 [], by decide +kernel⟩

theorem witness_cont : ∃ (s : State) (ring : Nat) (idx : Nat) (k : Cmd) (l : List (Nat × Task)),
    s.mbCmd ring idx 0x06 = some k ∧ l = (s.begin_ ring idx).named k ∧ l ≠ [] :=
  ⟨withCmd { programmed false false with tasks := [(0, aTaskRun false false)] } 6 0 [3], 0, 0, taken 6 0 [3], [(0, aTaskRun false false)], by decide +kernel⟩

theorem witness_kill_invalid : ∃ (s : State) (ring : Nat) (idx : Nat) (k : Cmd),
    s.mbCmd ring idx 0x07 = some k ∧ ((s.begin_ ring idx).named k).isEmpty = true ∧ ((s.begin_ ring idx).launchQ.filter fun q => q.part == k.part && q.rcd.index == k.arg 8 2) = [] :=
  ⟨withCmd owned 0x07 0 [], 0, 0, taken 0x07 0 [], by decide +kernel⟩

theorem witness_kill : ∃ (s : State) (ring : Nat) (idx : Nat) (k : Cmd),
    s.mbCmd ring idx 0x07 = some k ∧ (((s.begin_ ring idx).named k).isEmpty = false ∨ ((s.begin_ ring idx).launchQ.filter fun q => q.part == k.part && q.rcd.index == k.arg 8 2) ≠ []) :=
  ⟨withTask 7 false false, 0, 0, taken 7 0 [3], by decide +kernel, (Or.inl (by decide +kernel))⟩

theorem witness_slotAllocate : ∃ (s : State) (q : QLaunch) (u : State) (v : State),
    s.stewardUp = true ∧ s.launchable = some q ∧ u = { s with launchQ := s.launchQ.erase q, nextTask := s.nextTask + 1, tasks := s.tasks ++ [(s.nextTask, taskOf q s.ct)] } ∧ (v = if q.rcd.step then (u.setStep q.part { u.step_ q.part with task := some s.nextTask }).setSeqState q.part 2 else u) :=
  ⟨queued false, { part := 0, rcd := aTask false false, cmd := none }, { queued false with launchQ := [], nextTask := 1, tasks := [(0, taskOf { part := 0, rcd := aTask false false, cmd := none } 0)] }, { queued false with launchQ := [], nextTask := 1, tasks := [(0, taskOf { part := 0, rcd := aTask false false, cmd := none } 0)] }, by decide +kernel, by decide +kernel, by decide +kernel, rfl⟩

theorem witness_launch_none : ∃ (s : State) (ring : Nat) (idx : Nat),
    s.mbCmd ring idx 0x04 = none :=
  ⟨owned, 0, 0, by decide +kernel⟩

theorem witness_suspend_none : ∃ (s : State) (ring : Nat) (idx : Nat),
    s.mbCmd ring idx 0x05 = none :=
  ⟨owned, 0, 0, by decide +kernel⟩

theorem witness_cont_none : ∃ (s : State) (ring : Nat) (idx : Nat),
    s.mbCmd ring idx 0x06 = none :=
  ⟨owned, 0, 0, by decide +kernel⟩

theorem witness_kill_none : ∃ (s : State) (ring : Nat) (idx : Nat),
    s.mbCmd ring idx 0x07 = none :=
  ⟨owned, 0, 0, by decide +kernel⟩

theorem witness_launch_full : ∃ (s : State) (ring : Nat) (idx : Nat),
    64 ≤ s.launchQ.length :=
  ⟨{ owned with launchQ := List.replicate 64 { part := 0, rcd := aTask false false, cmd := none } }, 0, 0, by decide +kernel⟩

theorem witness_taskGraphLaunch_waits : ∃ (s : State) (p : Nat) (n : Nat),
    (s.prog p = none ∨ s.partRuns p = false ∨ 64 ≤ s.launchQ.length) :=
  ⟨owned, 0, 0, .inl (by decide +kernel)⟩

theorem witness_slotAllocate_waits : ∃ (s : State),
    (s.stewardUp = false ∨ s.launchable = none) :=
  ⟨owned, .inr (by decide +kernel)⟩

theorem witness_contextSwap_empty : ∃ (s : State) (c : Nat) (n : Nat) (x : Nat),
    s.stewardUp = true ∧ s.bestSlot c = some n ∧ (List.range 4).find? (fun x => s.ctxState c x == 0) = some x :=
  ⟨slotted, 0, 0, 0, by decide +kernel⟩

theorem witness_contextSwap_evicts : ∃ (s : State) (c : Nat) (n : Nat) (x : Nat),
    s.bestSlot c = some n ∧ (List.range 4).find? (fun x => s.ctxState c x == 0) = none ∧ s.victim c n = some x :=
  ⟨fullCtxs, 0, 0, 0, by decide +kernel⟩

theorem witness_contextSwap_waits : ∃ (s : State) (c : Nat),
    (s.bestSlot c = none ∨ ((List.range 4).find? (fun x => s.ctxState c x == 0) ≠ none ∧ s.stewardUp = false) ∨ ((List.range 4).find? (fun x => s.ctxState c x == 0) = none ∧ ∀ n, s.victim c n = none)) :=
  ⟨owned, 0, .inl (by decide +kernel)⟩

theorem witness_stateImageSave_fails : ∃ (s : State) (c : Nat) (x : Nat) (n : Nat) (next : Nat) (since : Nat) (v : State),
    (s.ctx c x).move = some (next, since) ∧ s.slotOf c x = some n ∧ s.ctxState c x = 4 ∧ s.saveReady c x = true ∧ s.readTiles c (s.tilesOf c x) = (true, v) :=
  ⟨savingBad, 0, 0, 0, 16, 0, (savingBad.readTiles 0 (savingBad.tilesOf 0 0)).2, by decide +kernel, by decide +kernel, by decide +kernel, by decide +kernel, pair_eq (by decide +kernel)⟩

theorem witness_stateImageSave : ∃ (s : State) (c : Nat) (x : Nat) (n : Nat) (next : Nat) (since : Nat) (u : State) (v : State),
    (s.ctx c x).move = some (next, since) ∧ s.slotOf c x = some n ∧ s.ctxState c x = 4 ∧ s.saveReady c x = true ∧ s.readTiles c (s.tilesOf c x) = (false, v) ∧ u = v.saveSlot c x n :=
  ⟨saving, 0, 0, 0, 16, 0, _, (saving.readTiles 0 (saving.tilesOf 0 0)).2, by decide +kernel, by decide +kernel, by decide +kernel, by decide +kernel, pair_eq (by decide +kernel), rfl⟩

theorem witness_stateImageSave_waits : ∃ (s : State) (c : Nat) (x : Nat),
    ((s.ctx c x).move = none ∨ s.slotOf c x = none ∨ s.ctxState c x ≠ 4 ∨ s.saveReady c x = false) :=
  ⟨owned, 0, 0, .inl (by decide +kernel)⟩

theorem witness_load_other : ∃ (s : State) (r : Requester) (c : Nat) (x : Nat) (slot : Nat),
    (r ≠ .steward ∨ s.nClusters ≤ c ∨ 4 ≤ x ∨ 16 ≤ slot ∨ s.ctxState c x ≠ 0 ∨ (s.slot c slot).task = none ∨ (s.slot c slot).ctx ≠ none) :=
  ⟨owned, .pcie, 0, 0, 0, .inl (by decide)⟩

theorem witness_load : ∃ (s : State) (c : Nat) (x : Nat) (slot : Nat),
    c < s.nClusters ∧ x < 4 ∧ slot < 16 ∧ s.ctxState c x = 0 ∧ (s.slot c slot).task.isSome = true ∧ (s.slot c slot).ctx = none :=
  ⟨slotted, 0, 0, 0, by decide +kernel⟩

theorem witness_loadComplete : ∃ (s : State) (c : Nat) (x : Nat) (n : Nat) (since : Nat),
    (s.ctx c x).move = some (n, since) ∧ s.ctxState c x = 5 ∧ s.chansFit c n = true ∧ ((s.slot c n).started = false ∨ s.imageUe c n = false) :=
  ⟨loading, 0, 0, 0, 0, by decide +kernel⟩

theorem witness_loadComplete_fails : ∃ (s : State) (c : Nat) (x : Nat) (n : Nat) (since : Nat),
    (s.ctx c x).move = some (n, since) ∧ s.ctxState c x = 5 ∧ s.chansFit c n = true ∧ (s.slot c n).started = true ∧ s.imageUe c n = true :=
  ⟨loadingBad, 0, 0, 0, 0, by decide +kernel⟩

theorem witness_loadComplete_waits : ∃ (s : State) (c : Nat) (x : Nat),
    ((s.ctx c x).move = none ∨ s.ctxState c x ≠ 5 ∨ ∀ n, s.chansFit c n = false) :=
  ⟨owned, 0, 0, .inl (by decide +kernel)⟩

theorem witness_preempt : ∃ (s : State) (c : Nat) (x : Nat),
    c < s.nClusters ∧ x < 4 ∧ (s.ctxState c x = 1 ∨ s.ctxState c x = 2 ∨ s.ctxState c x = 3) :=
  ⟨elasticIn 1 [] [], 0, 0, by decide +kernel⟩

theorem witness_preempt_moving : ∃ (s : State) (c : Nat) (x : Nat),
    c < s.nClusters ∧ x < 4 ∧ 4 ≤ s.ctxState c x :=
  ⟨loading, 0, 0, by decide +kernel⟩

theorem witness_preempt_empty : ∃ (s : State) (c : Nat) (x : Nat),
    s.ctxState c x = 0 :=
  ⟨owned, 0, 0, by decide +kernel⟩

theorem witness_preempt_other : ∃ (s : State) (r : Requester) (c : Nat) (x : Nat),
    (r ≠ .steward ∨ s.nClusters ≤ c ∨ 4 ≤ x) :=
  ⟨owned, .pcie, 0, 0, .inl (by decide)⟩

theorem witness_teardown : ∃ (s : State) (c : Nat) (x : Nat) (slot : Nat),
    c < s.nClusters ∧ x < 4 ∧ slot < 16 ∧ s.ctxState c x ≠ 0 ∧ s.ctxState c x ≠ 6 :=
  ⟨elasticIn 1 [] [], 0, 0, 0, by decide +kernel⟩

theorem witness_teardown_swapped : ∃ (s : State) (c : Nat) (x : Nat) (slot : Nat),
    c < s.nClusters ∧ x < 4 ∧ slot < 16 ∧ (s.slot c slot).task.isSome = true ∧ (s.slot c slot).ctx = none :=
  ⟨slotted, 0, 0, 0, by decide +kernel⟩

theorem witness_teardown_other : ∃ (s : State) (r : Requester) (c : Nat) (x : Nat) (slot : Nat) (swapped : Bool),
    (r ≠ .steward ∨ s.nClusters ≤ c ∨ 4 ≤ x ∨ 16 ≤ slot ∨ (swapped = true ∧ ((s.slot c slot).task = none ∨ (s.slot c slot).ctx ≠ none)) ∨ (swapped = false ∧ (s.ctxState c x = 0 ∨ s.ctxState c x = 6))) :=
  ⟨owned, .pcie, 0, 0, 0, false, .inl (by decide)⟩

theorem witness_tilerContextChange_waits : ∃ (s : State) (c : Nat),
    (4 ≤ s.curCtx c ∨ s.ct < (s.ctx c (s.curCtx c)).tiler.emitted + 2048 ∨ s.nextCtx c (s.curCtx c) = none) :=
  ⟨owned, 0, .inl (by decide +kernel)⟩

theorem witness_tilerContextChange : ∃ (s : State) (c : Nat) (x : Nat),
    s.curCtx c < 4 ∧ (s.ctx c (s.curCtx c)).tiler.emitted + 2048 ≤ s.ct ∧ s.nextCtx c (s.curCtx c) = some x :=
  ⟨twoCtxs, 0, 1, by decide +kernel⟩

theorem witness_watch : ∃ (s : State) (c : Nat) (x : Nat),
    s.mayWait c x = true ∧ (s.ctx c x).wait.isSome = true ∧ (s.ctx c x).watching = false :=
  ⟨waitingFor (127 * 2 ^ 41 + poolBase) false, 0, 0, by decide +kernel⟩

theorem witness_unwatch : ∃ (s : State) (c : Nat) (x : Nat),
    (s.ctx c x).held = true ∧ (s.ctx c x).watching = true :=
  ⟨owned.setCtx 0 0 { Ctx.empty with held := true, watching := true }, 0, 0, by decide +kernel⟩

theorem witness_wake : ∃ (s : State) (c : Nat) (x : Nat) (addr : Nat) (ga : Nat) (v : Nat) (w : Watch) (u : State),
    s.wakes.find? (fun w => w.cluster == c && w.ctx == x && w.addr == s.normGa addr) = some w ∧ (s.ctx c x).wait = some (ga, v) ∧ (s.ctx c x).watching = true ∧ ga = w.addr ∧ u = { s with wakes := s.wakes.erase w } :=
  ⟨{ waitingFor (127 * 2 ^ 41 + poolBase) true with wakes := [⟨127 * 2 ^ 41 + poolBase, 0, 0, none, none⟩] }, 0, 0, 127 * 2 ^ 41 + poolBase, 127 * 2 ^ 41 + poolBase, 1, ⟨127 * 2 ^ 41 + poolBase, 0, 0, none, none⟩, waitingFor (127 * 2 ^ 41 + poolBase) true, by decide +kernel, by decide +kernel, by decide +kernel, rfl, by decide +kernel⟩

theorem witness_wake_dropped : ∃ (s : State) (c : Nat) (x : Nat) (addr : Nat) (w : Watch),
    s.wakes.find? (fun w => w.cluster == c && w.ctx == x && w.addr == s.normGa addr) = some w ∧ (s.ctx c x).wait = none :=
  ⟨{ owned with wakes := [⟨127 * 2 ^ 41 + poolBase, 0, 0, none, none⟩] }, 0, 0, 127 * 2 ^ 41 + poolBase, ⟨127 * 2 ^ 41 + poolBase, 0, 0, none, none⟩, by decide +kernel⟩

theorem witness_syncSignal : ∃ (s : State) (r : Requester) (addr : Nat) (inc : Nat) (a : Nat) (e : Option AccErr) (u : State),
    s.localOf addr = some a ∧ s.reqWindowOk r addr 8 .atomic = true ∧ s.signalLocal r a inc = (e, u) :=
  ⟨owned, .steward, 127 * 2 ^ 41 + poolBase, 1, poolBase, none, (owned.signalLocal .steward poolBase 1).2, by decide +kernel, by decide +kernel, (pair_eq (by decide +kernel))⟩

theorem witness_syncSignal_adds : ∃ (s : State) (r : Requester) (addr : Nat) (inc : Nat) (a : Nat) (old : Nat) (u : State),
    s.localOf addr = some a ∧ s.reqWindowOk r addr 8 .atomic = true ∧ s.memAtomic r .add a (inc % 2 ^ 32) 0 = ((old, none), u) :=
  ⟨owned, .steward, 127 * 2 ^ 41 + poolBase, 1, poolBase, (owned.memAtomic .steward .add poolBase 1 0).1.1, (owned.memAtomic .steward .add poolBase 1 0).2, by decide +kernel, by decide +kernel, (pair_eq (Prod.ext rfl (by decide +kernel)))⟩

theorem witness_syncSignal_refused : ∃ (s : State) (r : Requester) (addr : Nat) (inc : Nat),
    s.reqWindowOk r addr 8 .atomic = false :=
  ⟨owned, .tiler 0 0, 127 * 2 ^ 41 + poolBase, 1, by decide +kernel⟩

theorem witness_syncSignal_far : ∃ (s : State) (r : Requester) (addr : Nat) (inc : Nat) (q : Option Nat × State),
    s.localOf addr = none ∧ s.reqWindowOk r addr 8 .atomic = true ∧ q = s.spSend r (r.ctx == some 4) { kind := kSignal, dest := addr / 2 ^ 41, len := 4, op := 0, tagged := false, addr := addr % 2 ^ 41, payload := leBytes 4 inc, cmd := none } ∧ q.1 ≠ none :=
  ⟨upPort.wr (spGlob 0x10004) 0x8000, .steward, 5 * 2 ^ 41, 1, _, by decide +kernel, by decide +kernel, rfl, by decide +kernel⟩

theorem witness_syncSignal_unroutable : ∃ (s : State) (r : Requester) (addr : Nat) (inc : Nat) (q : Option Nat × State),
    s.localOf addr = none ∧ s.reqWindowOk r addr 8 .atomic = true ∧ q = s.spSend r (r.ctx == some 4) { kind := kSignal, dest := addr / 2 ^ 41, len := 4, op := 0, tagged := false, addr := addr % 2 ^ 41, payload := leBytes 4 inc, cmd := none } ∧ q.1 = none :=
  ⟨owned, .steward, 100 * 2 ^ 41, 1, _, by decide +kernel, by decide +kernel, rfl, by decide +kernel⟩

theorem witness_syncSet_local : ∃ (s : State) (addr : Nat) (v : Nat) (a : Nat) (u : State),
    s.localOf addr = some a ∧ s.memWrite .steward a (leBytes 8 v) = (none, u) ∧ a % 8 = 0 :=
  ⟨owned, 127 * 2 ^ 41 + poolBase, 1, poolBase, (owned.memWrite .steward poolBase (leBytes 8 1)).2, by decide +kernel, (pair_eq (by decide +kernel)), by decide +kernel⟩

theorem witness_syncPoll : ∃ (s : State) (c : Nat) (x : Nat) (ga : Nat) (v : Nat) (a : Nat),
    x < 8 ∧ (s.ctx c x).wait = some (ga, v) ∧ s.mayWait c x = true ∧ (s.ctx c x).watching = false ∧ s.ct % 256 = 0 ∧ (s.poolWord ga = none ∨ s.sliceFull a = true) ∧ s.localOf ga = some a ∧ (∀ b, s.poolWord ga = some b → b = a) :=
  ⟨waitingFor (127 * 2 ^ 41 + spAddr 0 0) false, 0, 0, 127 * 2 ^ 41 + spAddr 0 0, 1, spAddr 0 0, by decide +kernel, by decide +kernel, by decide +kernel, by decide +kernel, by decide +kernel, (Or.inl (by decide +kernel)), by decide +kernel, (by have e : (waitingFor (127 * 2 ^ 41 + spAddr 0 0) false).poolWord (127 * 2 ^ 41 + spAddr 0 0) = none := (by decide +kernel); intro a ha; rw [e] at ha; cases ha)⟩

theorem witness_syncPoll_far : ∃ (s : State) (c : Nat) (x : Nat) (ga : Nat) (v : Nat),
    x < 8 ∧ (s.ctx c x).wait = some (ga, v) ∧ s.mayWait c x = true ∧ (s.ctx c x).watching = false ∧ s.ct % 256 = 0 ∧ s.poolWord ga = none ∧ s.localOf ga = none :=
  ⟨waitingFor (5 * 2 ^ 41) false, 0, 0, 5 * 2 ^ 41, 1, by decide +kernel⟩

theorem witness_syncPoll_slot : ∃ (s : State) (c : Nat) (x : Nat),
    8 ≤ x :=
  ⟨owned, 0, 9, by decide +kernel⟩

theorem witness_syncPoll_none : ∃ (s : State) (c : Nat) (x : Nat),
    x < 8 ∧ ((s.ctx c x).wait = none ∨ s.mayWait c x = false ∨ (s.ctx c x).watching = true ∨ s.ct % 256 ≠ 0) :=
  ⟨owned, 0, 0, by decide +kernel, .inl (by decide +kernel)⟩

theorem witness_watch_none : ∃ (s : State) (c : Nat) (x : Nat),
    (s.mayWait c x = false ∨ (s.ctx c x).wait = none ∨ (s.ctx c x).watching = true) :=
  ⟨owned, 0, 0, .inr (.inl (by decide +kernel))⟩

theorem witness_unwatch_none : ∃ (s : State) (c : Nat) (x : Nat),
    ((s.ctx c x).held = false ∨ (s.ctx c x).watching = false) :=
  ⟨owned, 0, 0, .inl (by decide +kernel)⟩

theorem witness_wake_none : ∃ (s : State) (c : Nat) (x : Nat) (addr : Nat),
    s.wakes.find? (fun w => w.cluster == c && w.ctx == x && w.addr == s.normGa addr) = none :=
  ⟨owned, 0, 0, 0, by decide +kernel⟩

theorem witness_signal : ∃ (s : State) (ring : Nat) (idx : Nat) (k : Cmd),
    s.mbCmd ring idx 0x0C = some k ∧ k.arg 8 8 < 2 ^ 48 ∧ (∀ a, (s.begin_ ring idx).localOf (k.arg 8 8) = some a → ((s.begin_ ring idx).poolWord (k.arg 8 8)).isSome = true ∧ (s.begin_ ring idx).memOwner a = some k.part) :=
  ⟨withCmd owned 0x0C 0 [0, 0, 0, 0, 0, 10], 0, 0, taken 0x0C 0 [0, 0, 0, 0, 0, 10], by decide +kernel, by decide +kernel, (by have e : ((withCmd owned 0x0C 0 [0, 0, 0, 0, 0, 10]).begin_ 0 0).localOf ((taken 0x0C 0 [0, 0, 0, 0, 0, 10]).arg 8 8) = none := (by decide +kernel); intro a ha; rw [e] at ha; cases ha)⟩

theorem witness_signal_invalid : ∃ (s : State) (ring : Nat) (idx : Nat) (k : Cmd) (a : Nat),
    s.mbCmd ring idx 0x0C = some k ∧ (s.begin_ ring idx).localOf (k.arg 8 8) = some a ∧ (s.begin_ ring idx).memOwner a ≠ some k.part :=
  ⟨withCmd owned 0x0C 0 [0, 0, 0, 0, 0, 0xFE], 0, 0, taken 0x0C 0 [0, 0, 0, 0, 0, 0xFE], 0, by decide +kernel⟩

theorem witness_set : ∃ (s : State) (ring : Nat) (idx : Nat) (k : Cmd),
    s.mbCmd ring idx 0x0D = some k ∧ k.arg 8 8 < 2 ^ 48 ∧ (∀ a, (s.begin_ ring idx).localOf (k.arg 8 8) = some a → ((s.begin_ ring idx).poolWord (k.arg 8 8)).isSome = true ∧ (s.begin_ ring idx).memOwner a = some k.part) :=
  ⟨withCmd owned 0x0D 0 [0, 0, 0, 0, 0, 10], 0, 0, taken 0x0D 0 [0, 0, 0, 0, 0, 10], by decide +kernel, by decide +kernel, (by have e : ((withCmd owned 0x0D 0 [0, 0, 0, 0, 0, 10]).begin_ 0 0).localOf ((taken 0x0D 0 [0, 0, 0, 0, 0, 10]).arg 8 8) = none := (by decide +kernel); intro a ha; rw [e] at ha; cases ha)⟩

theorem witness_set_invalid : ∃ (s : State) (ring : Nat) (idx : Nat) (k : Cmd) (a : Nat),
    s.mbCmd ring idx 0x0D = some k ∧ (s.begin_ ring idx).localOf (k.arg 8 8) = some a ∧ (s.begin_ ring idx).memOwner a ≠ some k.part :=
  ⟨withCmd owned 0x0D 0 [0, 0, 0, 0, 0, 0xFE], 0, 0, taken 0x0D 0 [0, 0, 0, 0, 0, 0xFE], 0, by decide +kernel⟩

theorem witness_signal_none : ∃ (s : State) (ring : Nat) (idx : Nat),
    s.mbCmd ring idx 0x0C = none :=
  ⟨owned, 0, 0, by decide +kernel⟩

theorem witness_set_none : ∃ (s : State) (ring : Nat) (idx : Nat),
    s.mbCmd ring idx 0x0D = none :=
  ⟨owned, 0, 0, by decide +kernel⟩

theorem witness_seed_invalid : ∃ (s : State) (ring : Nat) (idx : Nat) (k : Cmd),
    s.mbCmd ring idx 0x09 = some k ∧ 4 ≤ k.part :=
  ⟨withCmd owned 0x09 7 [], 0, 0, taken 0x09 7 [], by decide +kernel⟩

theorem witness_seed_late : ∃ (s : State) (ring : Nat) (idx : Nat) (k : Cmd),
    s.mbCmd ring idx 0x09 = some k ∧ k.part < 4 ∧ 0 < k.arg 0x10 8 ∧ k.arg 0x10 8 ≤ (s.begin_ ring idx).rd64 (stReg (0x2008 + 0x40 * k.part)) :=
  ⟨withCmd (owned.wr64 (seqCtl 0 8) 9) 0x09 0 [0, 0, 0, 0, 0, 0, 0, 0, 9], 0, 0, taken 0x09 0 [0, 0, 0, 0, 0, 0, 0, 0, 9], by decide +kernel⟩

theorem witness_seed : ∃ (s : State) (ring : Nat) (idx : Nat) (k : Cmd),
    s.mbCmd ring idx 0x09 = some k ∧ k.part < 4 ∧ (k.arg 0x10 8 = 0 ∨ (s.begin_ ring idx).rd64 (stReg (0x2008 + 0x40 * k.part)) < k.arg 0x10 8) :=
  ⟨withCmd owned 0x09 0 [], 0, 0, taken 0x09 0 [], by decide +kernel⟩

theorem witness_ndClear_invalid : ∃ (s : State) (ring : Nat) (idx : Nat) (k : Cmd),
    s.mbCmd ring idx 0x0B = some k ∧ (4 ≤ k.part ∨ 4 ≤ k.arg 8 8) :=
  ⟨withCmd owned 0x0B 7 [], 0, 0, taken 0x0B 7 [], by decide +kernel⟩

theorem witness_ndClear : ∃ (s : State) (ring : Nat) (idx : Nat) (k : Cmd) (u : State),
    s.mbCmd ring idx 0x0B = some k ∧ k.part < 4 ∧ k.arg 8 8 < 4 ∧ (u = if bit (k.arg 8 8) 0 then (s.begin_ ring idx).clearTiming k.part else (s.begin_ ring idx)) :=
  ⟨withCmd owned 0x0B 0 [], 0, 0, taken 0x0B 0 [], (withCmd owned 0x0B 0 []).begin_ 0 0, by decide +kernel, by decide +kernel, by decide +kernel, rfl⟩

theorem witness_clrTiming : ∃ (s : State) (p : Nat) (n : Nat),
    p < 4 ∧ s.regsWf = true ∧ n = (s.now.nd.filter fun e => e.1 == p && e.2 == 0).length :=
  ⟨owned, 0, _, by decide +kernel, by decide +kernel, rfl⟩

theorem witness_clrValue : ∃ (s : State) (p : Nat) (v : Nat) (l : List (Nat × Nat)),
    p < 4 ∧ s.regsWf = true ∧ l = s.now.nd.filter fun e => e.1 == p && e.2 != 0 ∧ v = (l.head?.map Prod.snd).getD 0 :=
  ⟨owned, 0, _, _, by decide +kernel, by decide +kernel, rfl, rfl⟩

theorem witness_clrTiming_other : ∃ (s : State) (r : Requester) (p : Nat),
    (r ≠ .steward ∨ 4 ≤ p) :=
  ⟨owned, .pcie, 0, .inl (by decide)⟩

theorem witness_clrValue_other : ∃ (s : State) (r : Requester) (p : Nat),
    (r ≠ .steward ∨ 4 ≤ p) :=
  ⟨owned, .pcie, 0, .inl (by decide)⟩

theorem witness_seed_none : ∃ (s : State) (ring : Nat) (idx : Nat),
    s.mbCmd ring idx 0x09 = none :=
  ⟨owned, 0, 0, by decide +kernel⟩

theorem witness_ndClear_none : ∃ (s : State) (ring : Nat) (idx : Nat),
    s.mbCmd ring idx 0x0B = none :=
  ⟨owned, 0, 0, by decide +kernel⟩

theorem witness_csiPacket_header : ∃ (s : State) (i : Nat) (k : CsiPacket),
    s.pipeOn i = true ∧ k.headerOk = false :=
  ⟨pipeOn_, 0, ⟨0, 0, false, true, []⟩, by decide +kernel⟩

theorem witness_csiPacket_channel : ∃ (s : State) (i : Nat) (k : CsiPacket),
    s.pipeOn i = true ∧ k.headerOk = true ∧ k.vc ≠ s.fld (ingReg i 4) 26 23 :=
  ⟨pipeOn_, 0, ⟨0, 3, true, true, []⟩, by decide +kernel⟩

theorem witness_csiPacket_start : ∃ (s : State) (i : Nat) (k : CsiPacket),
    s.pipeOn i = true ∧ k.headerOk = true ∧ k.vc = s.fld (ingReg i 4) 26 23 ∧ k.dt = 0 :=
  ⟨pipeOn_, 0, ⟨0, 0, true, true, []⟩, by decide +kernel⟩

theorem witness_csiPacket_end : ∃ (s : State) (i : Nat) (k : CsiPacket),
    s.pipeOn i = true ∧ k.headerOk = true ∧ k.vc = s.fld (ingReg i 4) 26 23 ∧ k.dt = 1 :=
  ⟨pipeOn_, 0, ⟨1, 0, true, true, []⟩, by decide +kernel⟩

theorem witness_csiPacket_type : ∃ (s : State) (i : Nat) (k : CsiPacket),
    s.pipeOn i = true ∧ k.headerOk = true ∧ k.vc = s.fld (ingReg i 4) 26 23 ∧ 1 < k.dt ∧ k.dt ≠ 0x12 ∧ (k.dt ≠ s.fld (ingReg i 4) 22 17 ∨ dtBits k.dt = 0) :=
  ⟨pipeOn_, 0, ⟨0x20, 0, true, true, []⟩, by decide +kernel⟩

theorem witness_csiPacket_crc : ∃ (s : State) (i : Nat) (k : CsiPacket),
    s.pipeOn i = true ∧ k.headerOk = true ∧ k.vc = s.fld (ingReg i 4) 26 23 ∧ 1 < k.dt ∧ (k.dt = 0x12 ∨ (k.dt = s.fld (ingReg i 4) 22 17 ∧ dtBits k.dt ≠ 0)) ∧ k.crcOk = false :=
  ⟨pipeOn_, 0, ⟨0x12, 0, true, false, []⟩, by decide +kernel⟩

theorem witness_csiPacket : ∃ (s : State) (i : Nat) (k : CsiPacket),
    s.pipeOn i = true ∧ k.headerOk = true ∧ k.vc = s.fld (ingReg i 4) 26 23 ∧ 1 < k.dt ∧ (k.dt = 0x12 ∨ (k.dt = s.fld (ingReg i 4) 22 17 ∧ dtBits k.dt ≠ 0)) ∧ k.crcOk = true :=
  ⟨pipeOn_, 0, ⟨0x12, 0, true, true, []⟩, by decide +kernel⟩

theorem witness_frameStart : ∃ (s : State) (i : Nat) (vc : Nat),
    s.pipeOn i = true ∧ vc = s.fld (ingReg i 4) 26 23 :=
  ⟨pipeOn_, 0, 0, by decide +kernel⟩

theorem witness_frameStart_channel : ∃ (s : State) (i : Nat) (vc : Nat),
    s.pipeOn i = true ∧ vc ≠ s.fld (ingReg i 4) 26 23 :=
  ⟨pipeOn_, 0, 3, by decide +kernel⟩

theorem witness_frameComplete_overrun : ∃ (s : State) (i : Nat) (f : PipeFrame),
    (s.pipe i).frame = some f ∧ s.pipeOn i = true ∧ (s.pipeCfg i).h ≤ f.lines.length ∧ f.bad = false ∧ s.frameHeld i f = true :=
  ⟨framing false, 0, aFrame false, by decide +kernel⟩

theorem witness_frameComplete_waits : ∃ (s : State) (i : Nat),
    (∀ f, (s.pipe i).frame = some f → s.pipeOn i = false ∨ (f.lines.length < (s.pipeCfg i).h ∧ f.ended = false)) :=
  ⟨owned, 0, (fun f h => by cases h)⟩

theorem witness_frameComplete : ∃ (s : State) (i : Nat) (f : PipeFrame),
    (s.pipe i).frame = some f ∧ s.pipeOn i = true ∧ (s.pipeCfg i).h ≤ f.lines.length ∧ f.bad = false ∧ s.frameHeld i f = false :=
  ⟨lpOn (framing false), 0, aFrame false, by decide +kernel⟩

theorem witness_frameComplete_dropped : ∃ (s : State) (i : Nat) (f : PipeFrame),
    (s.pipe i).frame = some f ∧ s.pipeOn i = true ∧ ((s.pipeCfg i).h ≤ f.lines.length ∨ f.ended = true) ∧ (f.lines.length < (s.pipeCfg i).h ∨ f.bad = true) :=
  ⟨framing true, 0, aFrame true, by decide +kernel⟩

theorem witness_ingStampOfs : ∃ (s : State) (r : Requester) (i : Nat) (v : Nat),
    i < s.nCameras ∧ (s.camOwner i).isSome = true ∧ s.regsWf = true :=
  ⟨owned, .steward, 0, 7, by decide +kernel⟩

theorem witness_ingStampOfs_other : ∃ (s : State) (r : Requester) (i : Nat) (v : Nat),
    (s.nCameras ≤ i ∨ s.camOwner i = none) :=
  ⟨State.reset, .steward, 0, 7, .inr (by decide +kernel)⟩

theorem witness_csiPacket_off : ∃ (s : State) (i : Nat) (k : CsiPacket),
    s.pipeOn i = false :=
  ⟨State.reset, 0, ⟨0, 0, false, true, []⟩, by decide +kernel⟩

theorem witness_frameStart_off : ∃ (s : State) (i : Nat) (k : Nat),
    s.pipeOn i = false :=
  ⟨State.reset, 0, 0, by decide +kernel⟩

theorem witness_ethFrame_ring : ∃ (s : State) (e : Nat) (age : Nat) (f : List Byte) (b : Bool) (u : State),
    e < 4 ∧ bit (s.rd (macReg e 0)) 0 = true ∧ 14 ≤ f.length ∧ f.length ≤ 9216 ∧ s.ethOwner e = none ∧ s.stampFrame e false f age = (b, u) :=
  ⟨State.reset.wr (macReg 0 0) 1, 0, 0, List.replicate 60 0, false, (((State.reset.wr (macReg 0 0) 1).stampFrame 0 false (List.replicate 60 0) 0)).2, by decide +kernel, by decide +kernel, by decide +kernel, by decide +kernel, by decide +kernel, (pair_eq (by decide +kernel))⟩

theorem witness_ethFrame_bad : ∃ (s : State) (e : Nat) (age : Nat) (f : List Byte),
    e < 4 ∧ bit (s.rd (macReg e 0)) 0 = true ∧ 14 ≤ f.length ∧ f.length ≤ 9216 :=
  ⟨State.reset.wr (macReg 0 0) 1, 0, 0, List.replicate 60 0, by decide +kernel⟩

theorem witness_ethFrame : ∃ (s : State) (e : Nat) (age : Nat) (f : List Byte) (b : Bool) (u : State),
    e < 4 ∧ bit (s.rd (macReg e 0)) 0 = true ∧ 14 ≤ f.length ∧ f.length ≤ 9216 ∧ (s.ethOwner e).isSome = true ∧ s.stampFrame e false f age = (b, u) :=
  ⟨owned.wr (macReg 0 0) 1, 0, 0, List.replicate 60 0, false, ((owned.wr (macReg 0 0) 1).stampFrame 0 false (List.replicate 60 0) 0).2, by decide +kernel, by decide +kernel, by decide +kernel, by decide +kernel, by decide +kernel, (pair_eq (by decide +kernel))⟩

theorem witness_bufferClose : ∃ (s : State) (e : Nat),
    (s.parser e).buf.isSome = true ∧ (s.ethOwner e).isSome = true ∧ reached s.time (s.closeAt e) = true :=
  ⟨closing, 0, by decide +kernel⟩

theorem witness_ethFrame_none : ∃ (s : State) (e : Nat) (age : Nat) (f : List Byte) (crc : Bool),
    (4 ≤ e ∨ bit (s.rd (macReg e 0)) 0 = false ∨ f.length < 14 ∨ 9216 < f.length) :=
  ⟨State.reset, 4, 0, [], true, by decide +kernel⟩

theorem witness_bufferClose_waits : ∃ (s : State) (e : Nat),
    ((s.parser e).buf = none ∨ s.ethOwner e = none ∨ reached s.time (s.closeAt e) = false) :=
  ⟨State.reset, 0, .inl (by decide +kernel)⟩

theorem witness_strainerAccept_off : ∃ (s : State) (n : Nat) (l : Bool),
    s.strOn n = false :=
  ⟨State.reset, 99, true, by decide +kernel⟩

theorem witness_minIvEnd_waits : ∃ (s : State) (n : Nat),
    (∀ a, (s.strain n).lastAt = some a → s.strOn n = false ∨ bit (s.rd (strReg n 0)) 1 = false ∨ (s.strain n).changes = 0 ∨ s.strNow n < a + s.minIv n) :=
  ⟨State.reset, 24, (fun a h => by cases h)⟩

theorem witness_strainerStuck_waits : ∃ (s : State) (n : Nat),
    (∀ a, (s.strain n).activeAt = some a → s.strOn n = false ∨ s.maxAct n = 0 ∨ s.strNow n < a + s.maxAct n ∨ bit (s.rd (strReg n 8)) 30 = true) :=
  ⟨State.reset, 24, (fun a h => by cases h)⟩

theorem witness_strainerAccept : ∃ (s : State) (n : Nat) (l : Bool) (a : Bool),
    s.strOn n = true ∧ a = (l != bit (s.rd (strReg n 0)) 0) ∧ a ≠ (s.strain n).level :=
  ⟨State.reset, 24, true, true, by decide +kernel⟩

theorem witness_strainerAccept_short : ∃ (s : State) (n : Nat) (l : Bool) (a : Bool),
    s.strOn n = true ∧ a = (l != bit (s.rd (strReg n 0)) 0) ∧ a = (s.strain n).level :=
  ⟨State.reset, 24, false, false, by decide +kernel⟩

theorem witness_minIvEnd : ∃ (s : State) (n : Nat) (a : Nat),
    (s.strain n).lastAt = some a ∧ s.strOn n = true ∧ bit (s.rd (strReg n 0)) 1 = true ∧ (s.strain n).changes ≠ 0 ∧ a + s.minIv n ≤ s.strNow n :=
  ⟨(State.reset.wr (strReg 24 0) 2).setStrain 24 { Strain.idle with lastAt := some 0, changes := 1 }, 24, 0, by decide +kernel⟩

theorem witness_strainerStuck : ∃ (s : State) (n : Nat) (a : Nat),
    (s.strain n).activeAt = some a ∧ s.strOn n = true ∧ s.maxAct n ≠ 0 ∧ a + s.maxAct n ≤ s.strNow n ∧ bit (s.rd (strReg n 8)) 30 = false :=
  ⟨stuckAt, 24, 0, by decide +kernel⟩

theorem witness_jump : ∃ (s : State) (r : Requester) (hi : Nat) (a : Int),
    tbMaySteer r = true ∧ s.fld (tbReg 0x38) 1 0 = 0 ∧ a = s.adjAmount hi ∧ s.jumpOk a = true :=
  ⟨State.reset, .steward, 0, 0, by decide +kernel⟩

theorem witness_jump_refused : ∃ (s : State) (r : Requester) (hi : Nat) (a : Int),
    tbMaySteer r = true ∧ s.fld (tbReg 0x38) 1 0 = 0 ∧ a = s.adjAmount hi ∧ s.jumpOk a = false :=
  ⟨(State.reset.setFld (tbReg 0) 31 31 1), .steward, 1, 2 ^ 32, by decide +kernel⟩

theorem witness_slew : ∃ (s : State) (r : Requester) (hi : Nat),
    tbMaySteer r = true ∧ s.fld (tbReg 0x38) 1 0 = 1 :=
  ⟨State.reset.setFld (tbReg 0x38) 1 0 1, .steward, 0, by decide +kernel⟩

theorem witness_tbRate : ∃ (s : State) (r : Requester) (v : Nat),
    tbMaySteer r = true ∧ clampLim (toSigned 32 v) = toSigned 32 v ∧ s.regsWf = true :=
  ⟨State.reset, .steward, 5, by decide +kernel⟩

theorem witness_tbRate_clamped : ∃ (s : State) (r : Requester) (v : Nat),
    tbMaySteer r = true ∧ clampLim (toSigned 32 v) ≠ toSigned 32 v :=
  ⟨State.reset, .steward, 2 ^ 31 - 1, by decide +kernel⟩

theorem witness_tbIncr : ∃ (s : State) (r : Requester) (v : Nat),
    tbMaySteer r = true ∧ bit (s.rd (tbReg 4)) 0 = true :=
  ⟨State.reset.wr (tbReg 4) 1, .steward, 5, by decide +kernel⟩

theorem witness_tbTimeRead : ∃ (s : State) (r : Requester),
    s.regsWf = true :=
  ⟨State.reset, .steward, by decide +kernel⟩

theorem witness_tbTsIdRead : ∃ (s : State) (r : Requester) (e : Nat) (d : Bool),
    s.tsFifo e d = [] :=
  ⟨State.reset, .steward, 0, false, by decide +kernel⟩

theorem witness_tbTsIdRead_entry : ∃ (s : State) (r : Requester) (e : Nat) (d : Bool) (h : TsEntry) (l : List TsEntry),
    s.tsFifo e d = h :: l :=
  ⟨State.reset.setTsFifo 0 false [⟨0, 0, 9⟩], .steward, 0, false, ⟨0, 0, 9⟩, [], by decide +kernel⟩

theorem witness_triggerFire : ∃ (s : State) (g : Nat),
    g < 25 ∧ bit (s.rd (genReg g 0x10)) 31 = true ∧ reached s.time (s.gen g).next = true :=
  ⟨State.reset.wr (genReg 0 0x10) (2 ^ 31), 0, by decide +kernel⟩

theorem witness_pulseEnd : ∃ (s : State) (g : Nat) (e : Nat),
    (s.gen g).pulseEnd = some e ∧ e ≤ s.tb.raw :=
  ⟨State.reset.setGen 0 { Gen.idle with pulseEnd := some 0 }, 0, 0, by decide +kernel⟩

theorem witness_genEnable : ∃ (s : State) (r : Requester) (g : Nat) (v : Nat),
    g < 25 :=
  ⟨State.reset, .steward, 0, 0, by decide +kernel⟩

theorem witness_genCfgWrite : ∃ (s : State) (r : Requester) (g : Nat) (off : Nat) (v : Nat),
    g < 25 ∧ (off = 0 ∨ off = 4 ∨ off = 8 ∨ off = 0xC) :=
  ⟨State.reset, .steward, 0, 0, 0, by decide +kernel⟩

theorem witness_genCfgWrite_frame : ∃ (s : State) (r : Requester) (g : Nat) (off : Nat) (v : Nat),
    g < 25 ∧ (off = 0 ∨ off = 4) ∧ s.regsWf = true :=
  ⟨State.reset, .steward, 0, 0, 0, by decide +kernel⟩

theorem witness_clockCheck : ∃ (s : State) (m : Nat) (u : State),
    s.tb.checkAt + 1000000 ≤ s.clock.urn ∧ u = { s with tb := { s.tb with checkAt := s.clock.urn, checkTime := s.time } } ∧ 998000 ≤ m ∧ m ≤ 1002000 ∧ s.time ≠ s.tb.checkTime :=
  ⟨{ at_ 1000000 State.reset with tb := { Tb.powerUp with raw := 5 } }, 1000000, { at_ 1000000 State.reset with tb := { Tb.powerUp with raw := 5, checkAt := 1000000, checkTime := 5 } }, by decide +kernel⟩

theorem witness_clockCheck_stalls : ∃ (s : State) (m : Nat) (u : State),
    s.tb.checkAt + 1000000 ≤ s.clock.urn ∧ u = { s with tb := { s.tb with checkAt := s.clock.urn, checkTime := s.time } } ∧ (m < 998000 ∨ 1002000 < m ∨ s.time = s.tb.checkTime) :=
  ⟨{ at_ 1000000 State.reset with tb := { Tb.powerUp with raw := 5 } }, 1, { at_ 1000000 State.reset with tb := { Tb.powerUp with raw := 5, checkAt := 1000000, checkTime := 5 } }, by decide +kernel⟩

theorem witness_jump_refusedTo : ∃ (s : State) (r : Requester) (hi : Nat),
    tbMaySteer r = false :=
  ⟨State.reset, .pcie, 0, by decide +kernel⟩

theorem witness_slew_refusedTo : ∃ (s : State) (r : Requester) (hi : Nat),
    tbMaySteer r = false :=
  ⟨State.reset, .pcie, 0, by decide +kernel⟩

theorem witness_tbRate_refusedTo : ∃ (s : State) (r : Requester) (v : Nat),
    tbMaySteer r = false :=
  ⟨State.reset, .pcie, 0, by decide +kernel⟩

theorem witness_tbIncr_refusedTo : ∃ (s : State) (r : Requester) (v : Nat),
    tbMaySteer r = false :=
  ⟨State.reset, .pcie, 0, by decide +kernel⟩

theorem witness_jump_mode : ∃ (s : State) (r : Requester) (hi : Nat),
    s.fld (tbReg 0x38) 1 0 ≠ 0 :=
  ⟨State.reset.setFld (tbReg 0x38) 1 0 1, .steward, 0, by decide +kernel⟩

theorem witness_slew_mode : ∃ (s : State) (r : Requester) (hi : Nat),
    s.fld (tbReg 0x38) 1 0 ≠ 1 :=
  ⟨State.reset, .steward, 0, by decide +kernel⟩

theorem witness_tbIncr_mode : ∃ (s : State) (r : Requester) (v : Nat),
    bit (s.rd (tbReg 4)) 0 = false :=
  ⟨State.reset, .steward, 0, by decide +kernel⟩

theorem witness_triggerFire_waits : ∃ (s : State) (g : Nat),
    (25 ≤ g ∨ bit (s.rd (genReg g 0x10)) 31 = false ∨ reached s.time (s.gen g).next = false) :=
  ⟨State.reset, 0, .inr (.inl (by decide +kernel))⟩

theorem witness_pulseEnd_waits : ∃ (s : State) (g : Nat),
    (∀ e, (s.gen g).pulseEnd = some e → s.tb.raw < e) :=
  ⟨State.reset, 0, (fun e h => by cases h)⟩

theorem witness_genEnable_none : ∃ (s : State) (r : Requester) (g : Nat) (v : Nat),
    25 ≤ g :=
  ⟨State.reset, .steward, 25, 0, by decide +kernel⟩

theorem witness_genCfgWrite_none : ∃ (s : State) (r : Requester) (g : Nat) (off : Nat) (v : Nat),
    (25 ≤ g ∨ off ∉ [0, 4, 8, 0xC]) :=
  ⟨State.reset, .steward, 25, 0, 0, by decide +kernel⟩

theorem witness_clockCheck_waits : ∃ (s : State) (m : Nat),
    s.clock.urn < s.tb.checkAt + 1000000 :=
  ⟨State.reset, 0, by decide +kernel⟩

theorem witness_internalResetRelease : ∃ (s : State) (straps : Nat),
    s.power.resetN = true ∧ s.power.released = false ∧ s.power.shut = false :=
  ⟨State.reset, 0, by decide +kernel⟩

theorem witness_internalResetRelease_corrected : ∃ (s : State) (straps : Nat),
    s.power.resetN = true ∧ s.power.released = false ∧ s.power.shut = false :=
  ⟨State.reset, 0, by decide +kernel⟩

theorem witness_internalResetRelease_lost : ∃ (s : State) (straps : Nat),
    s.power.resetN = true ∧ s.power.released = false ∧ s.power.shut = false :=
  ⟨State.reset, 0, by decide +kernel⟩

theorem witness_internalResetRelease_other : ∃ (s : State) (straps : Nat) (otp : OtpRead),
    (s.power.resetN = false ∨ s.power.released = true ∨ s.power.shut = true) :=
  ⟨{ State.reset with power := { State.reset.power with released := true } }, 0, .clean, .inr (.inl rfl)⟩

theorem witness_perstN : ∃ (s : State) (e : Nat) (u : State) (v : State),
    e < 4 ∧ u = ((s.setFld (peReg 0) 7 0 0).wr (peReg 8) 0).wr (peReg 0xC) 0 ∧ v = { u with st := { u.st with msixPend := 0, msixMask := 0 } } :=
  ⟨State.reset, 0, ((State.reset.setFld (peReg 0) 7 0 0).wr (peReg 8) 0).wr (peReg 0xC) 0, let u := ((State.reset.setFld (peReg 0) 7 0 0).wr (peReg 8) 0).wr (peReg 0xC) 0; { u with st := { u.st with msixPend := 0, msixMask := 0 } }, by decide +kernel, rfl, rfl⟩

theorem witness_pwrGoodFall : ∃ (s : State) (u : State),
    s.power.resetN = true ∧ s.power.pwrGood = true ∧ (u = if s.fld (urnReg 0xA018) 31 28 = 4 then { s with caddy := { s.caddy with flash := [] } } else s) :=
  ⟨State.reset, State.reset, by decide +kernel⟩

theorem witness_safeIn : ∃ (s : State) (u : State),
    (s.strain 26).level = false ∧ u = (s.setStrain 26 { s.strain 26 with level := true }).strReport 26 true :=
  ⟨State.reset, (State.reset.setStrain 26 { Strain.idle with level := true }).strReport 26 true, by decide +kernel⟩

theorem witness_safeIn_held : ∃ (s : State) (b : Bool),
    (b = false ∨ (s.strain 26).level = true) :=
  ⟨State.reset, false, by decide +kernel⟩

theorem witness_ppsIn : ∃ (s : State) (e : Nat) (a : Nat) (rest : List Nat) (u : State),
    s.ppsStrain.edges = e :: rest ∧ a = s.clock.ns - e ∧ u = { s with strs := sparsePut Strain.idle s.strs 24 { s.ppsStrain with edges := rest } } ∧ u.tb.pps.length < 4 :=
  ⟨{ State.reset with strs := [(24, { Strain.idle with edges := [0] })], tb := { Tb.powerUp with pps := [] } }, 0, 0, [], _, by decide +kernel, by decide +kernel, rfl, by decide +kernel⟩

theorem witness_ppsIn_lost : ∃ (s : State) (e : Nat) (a : Nat) (rest : List Nat) (u : State),
    s.ppsStrain.edges = e :: rest ∧ a = s.clock.ns - e ∧ u = { s with strs := sparsePut Strain.idle s.strs 24 { s.ppsStrain with edges := rest } } ∧ 4 ≤ u.tb.pps.length :=
  ⟨{ State.reset with strs := [(24, { Strain.idle with edges := [0] })], tb := { Tb.powerUp with pps := List.replicate 4 (0, 0) } }, 0, 0, [], _, by decide +kernel, by decide +kernel, rfl, by decide +kernel⟩

theorem witness_ppsIn_none : ∃ (s : State),
    s.ppsStrain.edges = [] :=
  ⟨State.reset, by decide +kernel⟩

theorem witness_perstN_other : ∃ (s : State) (e : Nat),
    4 ≤ e :=
  ⟨State.reset, 4, by decide +kernel⟩

theorem witness_pwrGoodFall_other : ∃ (s : State),
    (s.power.resetN = false ∨ s.power.pwrGood = false) :=
  ⟨{ State.reset with power := { State.reset.power with pwrGood := false } }, .inr rfl⟩

theorem witness_spoutArrival : ∃ (s : State) (n : Nat) (k : Nat) (q : SpoutPacket) (i : Instr),
    (k, i) ∈
    [(kWrite, Instr.spoutWrite n q), (kRead, Instr.spoutRead n q), (kAtomic, Instr.spoutAtomic n q), (kSignal, Instr.spoutSignal n q),
     (kAck, Instr.ack n q), (kData, Instr.data n q), (kError, Instr.error n q)] ∧ s.portUp n = true ∧ q.kind = k :=
  ⟨upPort, 0, kWrite, aPacket kWrite, .spoutWrite 0 (aPacket kWrite), by decide +kernel, by decide +kernel, rfl⟩

theorem witness_transit : ∃ (s : State) (n : Nat) (q : SpoutPacket) (u : State),
    u = s.count64Hold (spReg n 0x28) (16 + q.payload.length) ∧ q.kind ∈ [kWrite, kRead, kAtomic, kSignal, kWatch, kWake, kAck, kData, kError] ∧ q.dest ≠ 127 ∧ q.dest ≠ u.selfId :=
  ⟨upPort, 0, { aPacket kWrite with dest := 5 }, upPort.count64Hold (spReg 0 0x28) 20, by decide +kernel⟩

theorem witness_response : ∃ (s : State) (n : Nat) (q : SpoutPacket) (u : State),
    u = s.count64Hold (spReg n 0x28) (16 + q.payload.length) ∧ q.kind ∈ [kAck, kData, kError] ∧ (q.dest = 127 ∨ q.dest = u.selfId) :=
  ⟨upPort, 0, aPacket kAck, upPort.count64Hold (spReg 0 0x28) 20, by decide +kernel⟩

theorem witness_request_stopped : ∃ (s : State) (n : Nat) (p : Nat) (q : SpoutPacket) (u : State),
    u = s.count64Hold (spReg n 0x28) (16 + q.payload.length) ∧ q.kind ∈ [kWrite, kAtomic, kSignal] ∧ (q.dest = 127 ∨ q.dest = u.selfId) ∧ u.masterPacket n q = false ∧ u.bootRouting = false ∧ u.spOwner n = some p ∧ u.memOwner (homeOf (q.addr % 2 ^ 41)) = some p ∧ u.scopeStopped p = true :=
  ⟨upPort.setRecState 0 1, 0, 0, aPacket kWrite, (upPort.setRecState 0 1).count64Hold (spReg 0 0x28) 20, by decide +kernel⟩

theorem witness_request : ∃ (s : State) (n : Nat) (p : Nat) (q : SpoutPacket) (u : State),
    u = s.count64Hold (spReg n 0x28) (16 + q.payload.length) ∧ q.kind ∈ [kWrite, kAtomic, kSignal] ∧ (q.dest = 127 ∨ q.dest = u.selfId) ∧ u.masterPacket n q = false ∧ u.bootRouting = false ∧ u.spOwner n = some p ∧ u.memOwner (homeOf (q.addr % 2 ^ 41)) = some p ∧ u.scopeStopped p = false ∧ (q.kind = kAtomic → (atomicOf q.atomicOp).isSome = true) :=
  ⟨upPort, 0, 0, aPacket kWrite, upPort.count64Hold (spReg 0 0x28) 20, by decide +kernel, by decide +kernel, by decide +kernel, by decide +kernel, by decide +kernel, by decide +kernel, by decide +kernel, by decide +kernel, (by intro h; cases h)⟩

theorem witness_linkBlock : ∃ (s : State) (n : Nat) (b : LinkBlock) (u : State) (v : State),
    s.portUp n = true ∧ (u = if 1 ≤ b.symbolErrors ∧ b.symbolErrors ≤ 5 then s.countUp (spReg n 0x14) 1 else s) ∧ b.crcOk = true ∧ b.symbolErrors ≤ 5 ∧ b.seq = (s.port n).rxNext ∧ (u.setPort n { s.port n with rxNext := ((s.port n).rxNext + 1) % 2 ^ 16, replaying := false, replays := 0 }).deliverAll n b.packets = (true, v) :=
  ⟨upPort, 0, ⟨0, 0, true, []⟩, upPort, upPort.setPort 0 { upPort.port 0 with rxNext := 1, replaying := false, replays := 0 }, by decide +kernel, rfl, by decide +kernel, by decide +kernel, by decide +kernel, (Prod.ext (by decide +kernel) rfl)⟩

theorem witness_linkBlock_ignored : ∃ (s : State) (n : Nat) (b : LinkBlock) (u : State),
    s.portUp n = true ∧ (u = if 1 ≤ b.symbolErrors ∧ b.symbolErrors ≤ 5 then s.countUp (spReg n 0x14) 1 else s) ∧ (s.port n).replaying = true ∧ b.seq ≠ (s.port n).rxNext :=
  ⟨upPort.setPort 0 { upPort.port 0 with replaying := true }, 0, ⟨7, 0, true, []⟩, upPort.setPort 0 { upPort.port 0 with replaying := true }, by decide +kernel, rfl, by decide +kernel⟩

theorem witness_linkBlock_down : ∃ (s : State) (n : Nat) (b : LinkBlock) (u : State),
    s.portUp n = true ∧ (u = if 1 ≤ b.symbolErrors ∧ b.symbolErrors ≤ 5 then s.countUp (spReg n 0x14) 1 else s) ∧ ((s.port n).replaying = false ∨ b.seq = (s.port n).rxNext) ∧ (b.crcOk = false ∨ 5 < b.symbolErrors ∨ b.seq ≠ (s.port n).rxNext) ∧ 8 ≤ (s.port n).replays + 1 :=
  ⟨upPort.setPort 0 { upPort.port 0 with replays := 7 }, 0, ⟨0, 0, false, []⟩, upPort.setPort 0 { upPort.port 0 with replays := 7 }, by decide +kernel, rfl, by decide +kernel⟩

theorem witness_linkBlock_replay : ∃ (s : State) (n : Nat) (b : LinkBlock) (u : State),
    s.portUp n = true ∧ (u = if 1 ≤ b.symbolErrors ∧ b.symbolErrors ≤ 5 then s.countUp (spReg n 0x14) 1 else s) ∧ ((s.port n).replaying = false ∨ b.seq = (s.port n).rxNext) ∧ (b.crcOk = false ∨ 5 < b.symbolErrors ∨ b.seq ≠ (s.port n).rxNext) ∧ (s.port n).replays + 1 < 8 :=
  ⟨upPort, 0, ⟨0, 0, false, []⟩, upPort, by decide +kernel, rfl, by decide +kernel⟩

theorem witness_replayRequest : ∃ (s : State) (n : Nat) (k : Nat),
    s.portUp n = true ∧ ((s.port n).buf.dropWhile fun e => e.1 != k) ≠ [] :=
  ⟨upPort.setPort 0 { upPort.port 0 with buf := [(3, aPacket kWrite)] }, 0, 3, by decide +kernel⟩

theorem witness_calib : ∃ (s : State) (n : Nat) (q : SpoutPacket),
    s.portUp n = true ∧ q.kind = kCalib :=
  ⟨upPort, 0, aPacket kCalib, by decide +kernel⟩

theorem witness_calib_asked : ∃ (s : State) (n : Nat) (q : SpoutPacket),
    s.portUp n = true ∧ q.kind = kCalib ∧ q.atomicOp = 0 :=
  ⟨upPort, 0, aPacket kCalib, by decide +kernel⟩

theorem witness_arrive : ∃ (s : State) (n : Nat) (q : SpoutPacket),
    s.portUp n = true ∧ q.kind = kArrive ∧ s.barChildren.contains n = true :=
  ⟨barred upPort 0xF 1, 0, aPacket kArrive, by decide +kernel⟩

theorem witness_go : ∃ (s : State) (n : Nat) (q : SpoutPacket),
    s.portUp n = true ∧ q.kind = kGo ∧ n = s.barParent :=
  ⟨upPort, 0, aPacket kGo, by decide +kernel⟩

theorem witness_spoutArrival_none : ∃ (s : State) (n : Nat) (k : Nat) (q : SpoutPacket) (i : Instr),
    (k, i) ∈
    [(kWrite, Instr.spoutWrite n q), (kRead, Instr.spoutRead n q), (kAtomic, Instr.spoutAtomic n q), (kSignal, Instr.spoutSignal n q),
     (kAck, Instr.ack n q), (kData, Instr.data n q), (kError, Instr.error n q)] ∧ (s.portUp n = false ∨ q.kind ≠ k) :=
  ⟨owned, 0, kWrite, aPacket kWrite, .spoutWrite 0 (aPacket kWrite), by decide +kernel, .inl (by decide +kernel)⟩

theorem witness_linkBlock_off : ∃ (s : State) (n : Nat) (b : LinkBlock),
    s.portUp n = false :=
  ⟨owned, 0, ⟨0, 0, true, []⟩, by decide +kernel⟩

theorem witness_replayRequest_none : ∃ (s : State) (n : Nat) (k : Nat),
    (s.portUp n = false ∨ ((s.port n).buf.dropWhile fun e => e.1 != k) = []) :=
  ⟨owned, 0, 3, .inl (by decide +kernel)⟩

theorem witness_calib_none : ∃ (s : State) (n : Nat) (q : SpoutPacket),
    (s.portUp n = false ∨ q.kind ≠ kCalib) :=
  ⟨owned, 0, aPacket kCalib, .inl (by decide +kernel)⟩

theorem witness_arrive_none : ∃ (s : State) (n : Nat) (q : SpoutPacket),
    (s.portUp n = false ∨ q.kind ≠ kArrive ∨ n ∉ s.barChildren) :=
  ⟨owned, 0, aPacket kArrive, .inl (by decide +kernel)⟩

theorem witness_go_none : ∃ (s : State) (n : Nat) (q : SpoutPacket),
    (s.portUp n = false ∨ q.kind ≠ kGo ∨ n ≠ s.barParent) :=
  ⟨owned, 0, aPacket kGo, .inl (by decide +kernel)⟩

theorem witness_linkTraining_fails : ∃ (s : State) (n : Nat) (lanes : Nat) (c : Nat),
    s.spState n = 1 ∧ s.spOn n = true ∧ lanes % 16 ≠ 15 ∧ lanes / 16 % 16 ≠ 15 :=
  ⟨training 1, 0, 0, 0, by decide +kernel⟩

theorem witness_linkTraining : ∃ (s : State) (n : Nat) (lanes : Nat) (c : Nat) (u : State),
    s.spState n = 1 ∧ s.spOn n = true ∧ (lanes % 16 = 15 ∨ lanes / 16 % 16 = 15) ∧ u = ((((s.setFld (spReg n 0) 4 4 (b2n !(lanes % 16 == 15 && lanes / 16 % 16 == 15))).setFld (spReg n 0) 3 3 (b2n !(lanes % 16 == 15))).setFld (spReg n 0xC) 23 0 c).setSpState n 2) :=
  ⟨training 1, 0, 255, 0, ((((training 1).setFld (spReg 0 0) 4 4 0).setFld (spReg 0 0) 3 3 0).setFld (spReg 0 0xC) 23 0 0).setSpState 0 2, by decide +kernel, by decide +kernel, by decide +kernel, rfl⟩

theorem witness_trainingRetry : ∃ (s : State) (n : Nat) (u : State),
    (s.spState n = 1 ∨ s.spState n = 2) ∧ s.spOn n = true ∧ u = (s.setPort n { s.port n with attempts := (s.port n).attempts + 1 }).setSpState n 1 :=
  ⟨training 1, 0, ((training 1).setPort 0 { (training 1).port 0 with attempts := ((training 1).port 0).attempts + 1 }).setSpState 0 1, by decide +kernel, by decide +kernel, rfl⟩

theorem witness_ident_mismatch : ∃ (s : State) (n : Nat) (peer : Nat) (port : Nat) (sys : Nat),
    (s.spState n = 1 ∨ s.spState n = 2) ∧ s.spOn n = true ∧ ((peer % 128 = s.selfId ∧ s.selfId ≠ 127) ∨ sys ≠ 0x21) :=
  ⟨training 1, 0, 3, 0, 0, by decide +kernel⟩

theorem witness_ident : ∃ (s : State) (n : Nat) (peer : Nat) (port : Nat) (u : State),
    (s.spState n = 1 ∨ s.spState n = 2) ∧ s.spOn n = true ∧ (peer % 128 ≠ s.selfId ∨ s.selfId = 127) ∧ u = s.wr (spReg n 0x10) (2 ^ 31 + port % 4 * 2 ^ 8 + peer % 128) :=
  ⟨training 1, 0, 3, 0, (training 1).wr (spReg 0 0x10) (2 ^ 31 + 3), by decide +kernel, by decide +kernel, by decide +kernel, rfl⟩

theorem witness_calibExchange : ∃ (s : State) (n : Nat),
    s.portUp n = true :=
  ⟨upPort, 0, by decide +kernel⟩

theorem witness_linkDown : ∃ (s : State) (n : Nat),
    (s.spState n = 2 ∨ s.spState n = 3) :=
  ⟨upPort, 0, by decide +kernel⟩

theorem witness_retrain : ∃ (s : State) (n : Nat),
    n < 4 ∧ s.spOn n = true :=
  ⟨training 1, 0, by decide +kernel⟩

theorem witness_arm : ∃ (s : State),
    s.armed = false :=
  ⟨State.reset, by decide +kernel⟩

theorem witness_barrierStart : ∃ (s : State) (t : Nat),
    s.sp.bar.startAt = some t ∧ s.armed = true ∧ t ≤ s.ct :=
  ⟨(State.reset.setArmed true).modBar fun b => { b with startAt := some 0 }, 0, by decide +kernel⟩

theorem witness_barrierTimeout : ∃ (s : State),
    s.armed = true ∧ s.sp.bar.startAt = none ∧ s.sp.bar.armedAt + 1000000 * fieldAt (s.record 0x13 7) 0xA 2 ≤ s.clock.urn :=
  ⟨State.reset.setArmed true, by decide +kernel⟩

theorem witness_respTimeout : ∃ (s : State) (tag : Nat) (q : SpReq),
    s.sp.reqs.find? (fun q => q.tag == tag) = some q ∧ q.at_ + 1000 * fieldAt (s.record 0x13 7) 0xC 4 ≤ s.clock.urn :=
  ⟨{ State.reset with sp := { Spout.idle with reqs := [aReq] } }, 9, aReq, by decide +kernel⟩

theorem witness_linkTraining_none : ∃ (s : State) (n : Nat) (lanes : Nat) (c : Nat),
    (s.spState n ≠ 1 ∨ s.spOn n = false) :=
  ⟨owned, 0, 0, 0, .inl (by decide +kernel)⟩

theorem witness_trainingRetry_none : ∃ (s : State) (n : Nat),
    (s.spState n ≠ 1 ∧ s.spState n ≠ 2 ∨ s.spOn n = false) :=
  ⟨owned, 0, .inl (by decide +kernel)⟩

theorem witness_ident_none : ∃ (s : State) (n : Nat) (peer : Nat) (port : Nat) (sys : Nat),
    (s.spState n ≠ 1 ∧ s.spState n ≠ 2 ∨ s.spOn n = false) :=
  ⟨owned, 0, 0, 0, 0, .inl (by decide +kernel)⟩

theorem witness_calibExchange_none : ∃ (s : State) (n : Nat),
    s.portUp n = false :=
  ⟨owned, 0, by decide +kernel⟩

theorem witness_linkDown_none : ∃ (s : State) (n : Nat),
    (s.spState n ≠ 2 ∧ s.spState n ≠ 3) :=
  ⟨owned, 0, by decide +kernel⟩

theorem witness_retrain_none : ∃ (s : State) (r : Requester) (n : Nat),
    (r ≠ .steward ∨ 4 ≤ n ∨ s.spOn n = false) :=
  ⟨owned, .pcie, 0, .inl (by decide +kernel)⟩

theorem witness_arm_none : ∃ (s : State) (r : Requester),
    (r ≠ .steward ∨ s.armed = true) :=
  ⟨owned, .pcie, .inl (by decide +kernel)⟩

theorem witness_barrierTimeout_waits : ∃ (s : State),
    (s.armed = false ∨ s.sp.bar.startAt ≠ none ∨ s.clock.urn < s.sp.bar.armedAt + 1000000 * fieldAt (s.record 0x13 7) 0xA 2) :=
  ⟨State.reset, .inl (by decide +kernel)⟩

theorem witness_barrierStart_waits : ∃ (s : State),
    (∀ t, s.sp.bar.startAt = some t → s.armed = false ∨ s.ct < t) :=
  ⟨State.reset, (fun t h => by cases h)⟩

theorem witness_respTimeout_waits : ∃ (s : State) (tag : Nat),
    (∀ q, s.sp.reqs.find? (fun q => q.tag == tag) = some q → s.clock.urn < q.at_ + 1000 * fieldAt (s.record 0x13 7) 0xC 4) :=
  ⟨State.reset, 9, (fun q h => by cases h)⟩

theorem witness_calib_answer : ∃ (s : State) (n : Nat) (t : Nat) (q : SpoutPacket) (l : List Nat),
    s.portUp n = true ∧ q.kind = kCalib ∧ q.atomicOp ≠ 0 ∧ (s.port n).calibAt = some t ∧ l = ((s.ct16 - t - leNat (q.payload.take 4)) :: (s.port n).trips).take 256 :=
  ⟨upPort.setPort 0 { upPort.port 0 with calibAt := some 0 }, 0, 0, { aPacket kCalib with atomicOp := 1 }, _, by decide +kernel, by decide +kernel, by decide +kernel, by decide +kernel, rfl⟩

theorem witness_bar2Write : ∃ (s : State) (o : Nat) (a : Nat) (l : List Byte),
    s.bar2Addr o l.length = some a ∧ (s.isMaster .pcie = true ∨ s.power.recovery = true) ∧ a + l.length ≤ lpddrTop ∧ s.lpReady a l.length = true :=
  ⟨hosted, 0, 0, [1], by decide +kernel, .inl (by decide +kernel), by decide +kernel⟩

theorem witness_bar2Write_notMaster : ∃ (s : State) (o : Nat) (a : Nat) (l : List Byte),
    s.bar2Addr o l.length = some a ∧ s.isMaster .pcie = false ∧ s.power.recovery = false :=
  ⟨hosted.setFld (peReg 0) 31 31 1, 0, 0, [1], by decide +kernel⟩

theorem witness_bar2Write_beyond : ∃ (s : State) (o : Nat) (a : Nat) (l : List Byte),
    s.bar2Addr o l.length = some a ∧ (s.isMaster .pcie = true ∨ s.power.recovery = true) ∧ lpddrTop < a + l.length :=
  ⟨hosted.wr (peReg 0xC) 31, 2 ^ 32, 32 * 2 ^ 32, [1], by decide +kernel, .inl (by decide +kernel), by decide +kernel⟩

theorem witness_bar2Write_waits : ∃ (s : State) (o : Nat) (a : Nat) (l : List Byte),
    s.bar2Addr o l.length = some a ∧ (s.isMaster .pcie = true ∨ s.power.recovery = true) ∧ a + l.length ≤ lpddrTop ∧ s.lpReady a l.length = false :=
  ⟨State.reset.setFld (peReg 0) 0 0 1, 0, 0, [1], by decide +kernel, .inl (by decide +kernel), by decide +kernel⟩

theorem witness_bar2Write_off : ∃ (s : State) (o : Nat) (l : List Byte),
    s.bar2Addr o l.length = none :=
  ⟨State.reset, 2 ^ 50, [1], by decide +kernel⟩

theorem witness_bar2Read_off : ∃ (s : State) (o : Nat) (n : Nat),
    s.bar2Addr o n = none :=
  ⟨State.reset, 2 ^ 50, 4, by decide +kernel⟩

theorem witness_bar2Read_waits : ∃ (s : State) (o : Nat) (a : Nat) (n : Nat),
    s.bar2Addr o n = some a ∧ a + n ≤ lpddrTop ∧ s.lpReady a n = false :=
  ⟨State.reset.setFld (peReg 0) 0 0 1, 0, 0, 4, by decide +kernel⟩

theorem witness_bar2Read : ∃ (s : State) (o : Nat) (a : Nat) (n : Nat) (d : RdRes) (u : State),
    s.bar2Addr o n = some a ∧ a + n ≤ lpddrTop ∧ s.lpReady a n = true ∧ s.memRead .pcie a n = (d, u) :=
  ⟨hosted, 0, 0, 4, (hosted.memRead .pcie 0 4).1, (hosted.memRead .pcie 0 4).2, by decide +kernel, by decide +kernel, by decide +kernel, rfl⟩

theorem witness_bar2Read_beyond : ∃ (s : State) (o : Nat) (a : Nat) (n : Nat),
    s.bar2Addr o n = some a ∧ lpddrTop < a + n :=
  ⟨hosted.wr (peReg 0xC) 31, 2 ^ 32, 32 * 2 ^ 32, 4, by decide +kernel⟩

theorem witness_hostServiceTick : ∃ (s : State),
    s.stewardUp = true ∧ s.st.lastTick + s.fld (stReg 0x5000) 9 0 * 1000 ≤ s.clock.ns :=
  ⟨at_ 2000000 State.reset, by decide +kernel⟩

theorem witness_hostServiceTick_waits : ∃ (s : State),
    (s.stewardUp = false ∨ s.clock.ns < s.st.lastTick + s.fld (stReg 0x5000) 9 0 * 1000) :=
  ⟨at_ 0 State.reset, .inr (by decide +kernel)⟩

theorem witness_ringCfgWrite_foreign : ∃ (s : State) (r : Requester) (n : Nat) (v : Nat),
    (s.ownsRing r n = false ∨ 8 ≤ n) :=
  ⟨State.reset, .steward, 0, 0, by decide +kernel⟩

theorem witness_ringReset : ∃ (s : State) (r : Requester) (n : Nat),
    n < 8 ∧ s.ownsRing r n = true :=
  ⟨State.reset, .pcie, 0, by decide +kernel⟩

theorem witness_ringCfgWrite_reset : ∃ (s : State) (r : Requester) (n : Nat) (v : Nat),
    n < 8 ∧ s.ownsRing r n = true ∧ bit v 30 = true :=
  ⟨State.reset, .pcie, 0, 2 ^ 30, by decide +kernel⟩

theorem witness_ringCfgWrite_enabled : ∃ (s : State) (r : Requester) (n : Nat) (v : Nat),
    n < 8 ∧ s.ownsRing r n = true ∧ bit v 30 = false ∧ bit (s.rd (stReg (0x5028 + n * 0x10))) 31 = true :=
  ⟨State.reset.wr (stReg 0x5028) (2 ^ 31), .pcie, 0, 0, by decide +kernel⟩

theorem witness_ringCfgWrite : ∃ (s : State) (r : Requester) (n : Nat) (v : Nat),
    n < 8 ∧ s.ownsRing r n = true ∧ bit v 30 = false ∧ bit (s.rd (stReg (0x5028 + n * 0x10))) 31 = false ∧ s.regsWf = true :=
  ⟨State.reset, .pcie, 0, 2 ^ 31, by decide +kernel⟩

theorem witness_progLoad : ∃ (s : State) (ring : Nat) (idx : Nat) (k : Cmd) (g : Program),
    s.mbCmd ring idx 0x03 = some k ∧ s.lpReady (k.arg 8 6) (max 1 (k.arg 0x10 4)) = true :=
  ⟨withCmd (lpOn owned) 0x03 0 [], 0, 0, taken 0x03 0 [], aProgram false false, by decide +kernel⟩

theorem witness_fwStage : ∃ (s : State) (ring : Nat) (idx : Nat) (k : Cmd) (v : SigVerdict),
    s.mbCmd ring idx 0x0F = some k ∧ s.lpReady (k.arg 8 6) (max 1 (k.arg 0x10 4)) = true :=
  ⟨withCmd (lpOn owned) 0x0F 0 [], 0, 0, taken 0x0F 0 [], ⟨true, true⟩, by decide +kernel⟩

theorem witness_partReset : ∃ (s : State) (ring : Nat) (idx : Nat) (k : Cmd),
    s.mbCmd ring idx 0x0E = some k ∧ k.part ≤ 4 :=
  ⟨withCmd owned 0x0E 0 [], 0, 0, taken 0x0E 0 [], by decide +kernel⟩

theorem witness_partReset_invalid : ∃ (s : State) (ring : Nat) (idx : Nat) (k : Cmd),
    s.mbCmd ring idx 0x0E = some k ∧ 4 < k.part :=
  ⟨withCmd owned 0x0E 7 [], 0, 0, taken 0x0E 7 [], by decide +kernel⟩

theorem witness_trigSet_invalid : ∃ (s : State) (ring : Nat) (idx : Nat) (k : Cmd),
    s.mbCmd ring idx 0x10 = some k ∧ 16 ≤ k.arg 8 8 :=
  ⟨withCmd owned 0x10 0 [20], 0, 0, taken 0x10 0 [20], by decide +kernel⟩

theorem witness_trigSet_denied : ∃ (s : State) (ring : Nat) (idx : Nat) (k : Cmd),
    s.mbCmd ring idx 0x10 = some k ∧ k.arg 8 8 < 16 ∧ (s.begin_ ring idx).camOwner (k.arg 8 8) ≠ some k.part :=
  ⟨withCmd owned 0x10 1 [], 0, 0, taken 0x10 1 [], by decide +kernel⟩

theorem witness_trigSet : ∃ (s : State) (ring : Nat) (idx : Nat) (k : Cmd),
    s.mbCmd ring idx 0x10 = some k ∧ k.arg 8 8 < 16 ∧ (s.begin_ ring idx).camOwner (k.arg 8 8) = some k.part :=
  ⟨withCmd owned 0x10 0 [], 0, 0, taken 0x10 0 [], by decide +kernel⟩

theorem witness_nop : ∃ (s : State) (ring : Nat) (idx : Nat) (k : Cmd),
    s.mbCmd ring idx 0x11 = some k :=
  ⟨withCmd owned 0x11 0 [], 0, 0, taken 0x11 0 [], by decide +kernel⟩

theorem witness_progLoad_none : ∃ (s : State) (ring : Nat) (idx : Nat) (g : Program),
    s.mbCmd ring idx 0x03 = none :=
  ⟨owned, 0, 0, aProgram false false, by decide +kernel⟩

theorem witness_fwStage_none : ∃ (s : State) (ring : Nat) (idx : Nat) (g : SigVerdict),
    s.mbCmd ring idx 0x0F = none :=
  ⟨owned, 0, 0, ⟨true, true⟩, by decide +kernel⟩

theorem witness_partReset_none : ∃ (s : State) (ring : Nat) (idx : Nat),
    s.mbCmd ring idx 0x0E = none :=
  ⟨owned, 0, 0, by decide +kernel⟩

theorem witness_trigSet_none : ∃ (s : State) (ring : Nat) (idx : Nat),
    s.mbCmd ring idx 0x10 = none :=
  ⟨owned, 0, 0, by decide +kernel⟩

theorem witness_nop_none : ∃ (s : State) (ring : Nat) (idx : Nat),
    s.mbCmd ring idx 0x11 = none :=
  ⟨owned, 0, 0, by decide +kernel⟩

theorem witness_progLoad_waits : ∃ (s : State) (ring : Nat) (idx : Nat) (k : Cmd) (g : Program),
    s.mbCmd ring idx 0x03 = some k ∧ s.lpReady (k.arg 8 6) (max 1 (k.arg 0x10 4)) = false :=
  ⟨withCmd owned 0x03 0 [], 0, 0, taken 0x03 0 [], aProgram false false, by decide +kernel⟩

theorem witness_fwStage_waits : ∃ (s : State) (ring : Nat) (idx : Nat) (k : Cmd) (g : SigVerdict),
    s.mbCmd ring idx 0x0F = some k ∧ s.lpReady (k.arg 8 6) (max 1 (k.arg 0x10 4)) = false :=
  ⟨withCmd owned 0x0F 0 [], 0, 0, taken 0x0F 0 [], ⟨true, true⟩, by decide +kernel⟩

theorem witness_harts : ∃ (s : State) (h : Nat) (v : Nat),
    s.regsWf = true :=
  ⟨State.reset, 0, 2, by decide +kernel⟩

theorem witness_scAccess_stopped : ∃ (s : State) (h : Nat) (a : Access) (cache : Option CacheOp),
    (8 ≤ h ∨ 3 ≤ s.recState 4 ∨ (h ≠ 0 ∧ bit (s.rd (stReg 0x5108)) h = false)) :=
  ⟨State.reset, 8, ⟨.hart 0, 0, false, .read 4, false⟩, none, .inl (by decide +kernel)⟩

theorem witness_scAccess_refused : ∃ (s : State) (h : Nat) (a : Access) (b : Access),
    h < 8 ∧ s.recState 4 < 3 ∧ (h = 0 ∨ bit (s.rd (stReg 0x5108)) h = true) ∧ b = { a with req := .hart h } ∧ s.swinOk a.addr (accessLen b) (accessRight b) = false :=
  ⟨State.reset.setRecState 4 0, 0, ⟨.hart 0, 0, false, .read 4, false⟩, _, by decide +kernel, by decide +kernel, .inl rfl, rfl, by decide +kernel⟩

theorem witness_scAccess_far : ∃ (s : State) (h : Nat) (a : Access) (b : Access),
    h < 8 ∧ s.recState 4 < 3 ∧ (h = 0 ∨ bit (s.rd (stReg 0x5108)) h = true) ∧ b = { a with req := .hart h } ∧ s.swinOk a.addr (accessLen b) (accessRight b) = true ∧ s.localOf a.addr = none :=
  ⟨swinAll, 0, ⟨.hart 0, 5 * 2 ^ 41, false, .read 4, false⟩, _, by decide +kernel, by decide +kernel, .inl rfl, rfl, by decide +kernel⟩

theorem witness_scAccess_read : ∃ (s : State) (h : Nat) (x : Nat) (n : Nat) (p : Nat) (a : Access) (b : Access),
    h < 8 ∧ s.recState 4 < 3 ∧ (h = 0 ∨ bit (s.rd (stReg 0x5108)) h = true) ∧ b = { a with req := .hart h } ∧ s.swinOk a.addr (accessLen b) (accessRight b) = true ∧ s.localOf a.addr = some x ∧ a.kind = .read n ∧ s.computePart (homeOf x) = some p :=
  ⟨swinAll, 0, spAddr 0 0, 4, 0, ⟨.hart 0, 127 * 2 ^ 41 + spAddr 0 0, false, .read 4, false⟩, _, by decide +kernel, by decide +kernel, .inl rfl, rfl, by decide +kernel⟩

theorem witness_scAccess_own : ∃ (s : State) (h : Nat) (x : Nat) (a : Access) (b : Access),
    h < 8 ∧ s.recState 4 < 3 ∧ (h = 0 ∨ bit (s.rd (stReg 0x5108)) h = true) ∧ b = { a with req := .hart h } ∧ s.swinOk a.addr (accessLen b) (accessRight b) = true ∧ s.localOf a.addr = some x ∧ s.computePart (homeOf x) = none :=
  ⟨lpOn swinAll, 0, 0, ⟨.hart 0, 127 * 2 ^ 41, false, .write [1], false⟩, _, by decide +kernel, by decide +kernel, .inl rfl, rfl, by decide +kernel⟩

theorem witness_scAccess : ∃ (s : State) (h : Nat) (x : Nat) (p : Nat) (a : Access) (b : Access) (u : State) (l : List Byte),
    h < 8 ∧ s.recState 4 < 3 ∧ (h = 0 ∨ bit (s.rd (stReg 0x5108)) h = true) ∧ b = { a with req := .hart h } ∧ s.swinOk a.addr (accessLen b) (accessRight b) = true ∧ s.localOf a.addr = some x ∧ a.kind = .write l ∧ s.computePart (homeOf x) = some p ∧ s.stagePut p 25 b none = (true, u) :=
  ⟨swinAll, 0, spAddr 0 0, 0, ⟨.hart 0, 127 * 2 ^ 41 + spAddr 0 0, false, .write [1], false⟩, _, (swinAll.stagePut 0 25 ⟨.hart 0, 127 * 2 ^ 41 + spAddr 0 0, false, .write [1], false⟩ none).2, [1], by decide +kernel, by decide +kernel, .inl rfl, rfl, by decide +kernel, by decide +kernel, by decide +kernel, by decide +kernel, pair_eq (by decide +kernel)⟩

theorem witness_scAccess_signal : ∃ (s : State) (h : Nat) (x : Nat) (p : Nat) (a : Access) (b : Access) (u : State) (v : Nat),
    h < 8 ∧ s.recState 4 < 3 ∧ (h = 0 ∨ bit (s.rd (stReg 0x5108)) h = true) ∧ b = { a with req := .hart h } ∧ s.swinOk a.addr (accessLen b) (accessRight b) = true ∧ s.localOf a.addr = some x ∧ a.kind = .signal v ∧ s.computePart (homeOf x) = some p ∧ s.stagePut p 25 b none = (true, u) :=
  ⟨swinAll, 0, spAddr 0 0, 0, ⟨.hart 0, 127 * 2 ^ 41 + spAddr 0 0, false, .signal 1, false⟩, _, (swinAll.stagePut 0 25 ⟨.hart 0, 127 * 2 ^ 41 + spAddr 0 0, false, .signal 1, false⟩ none).2, 1, by decide +kernel, by decide +kernel, .inl rfl, rfl, by decide +kernel, by decide +kernel, by decide +kernel, by decide +kernel, pair_eq (by decide +kernel)⟩

theorem witness_scAccess_set : ∃ (s : State) (h : Nat) (x : Nat) (p : Nat) (a : Access) (b : Access) (u : State) (v : Nat),
    h < 8 ∧ s.recState 4 < 3 ∧ (h = 0 ∨ bit (s.rd (stReg 0x5108)) h = true) ∧ b = { a with req := .hart h } ∧ s.swinOk a.addr (accessLen b) (accessRight b) = true ∧ s.localOf a.addr = some x ∧ a.kind = .set v ∧ s.computePart (homeOf x) = some p ∧ s.stagePut p 25 b none = (true, u) :=
  ⟨swinAll, 0, spAddr 0 0, 0, ⟨.hart 0, 127 * 2 ^ 41 + spAddr 0 0, false, .set 1, false⟩, _, (swinAll.stagePut 0 25 ⟨.hart 0, 127 * 2 ^ 41 + spAddr 0 0, false, .set 1, false⟩ none).2, 1, by decide +kernel, by decide +kernel, .inl rfl, rfl, by decide +kernel, by decide +kernel, by decide +kernel, by decide +kernel, pair_eq (by decide +kernel)⟩

theorem witness_scAccess_atomic : ∃ (s : State) (h : Nat) (x : Nat) (p : Nat) (a : Access) (b : Access) (u : State) (o : AtomicOp) (v : Nat) (w : Nat),
    h < 8 ∧ s.recState 4 < 3 ∧ (h = 0 ∨ bit (s.rd (stReg 0x5108)) h = true) ∧ b = { a with req := .hart h } ∧ s.swinOk a.addr (accessLen b) (accessRight b) = true ∧ s.localOf a.addr = some x ∧ a.kind = .atomic o v w ∧ s.computePart (homeOf x) = some p ∧ s.stagePut p 25 b none = (true, u) :=
  ⟨swinAll, 0, spAddr 0 0, 0, ⟨.hart 0, 127 * 2 ^ 41 + spAddr 0 0, false, .atomic .add 1 0, false⟩, _, (swinAll.stagePut 0 25 ⟨.hart 0, 127 * 2 ^ 41 + spAddr 0 0, false, .atomic .add 1 0, false⟩ none).2, .add, 1, 0, by decide +kernel, by decide +kernel, .inl rfl, rfl, by decide +kernel, by decide +kernel, by decide +kernel, by decide +kernel, pair_eq (by decide +kernel)⟩

theorem witness_scAccess_full : ∃ (s : State) (h : Nat) (x : Nat) (p : Nat) (a : Access) (b : Access),
    h < 8 ∧ s.recState 4 < 3 ∧ (h = 0 ∨ bit (s.rd (stReg 0x5108)) h = true) ∧ b = { a with req := .hart h } ∧ s.swinOk a.addr (accessLen b) (accessRight b) = true ∧ s.localOf a.addr = some x ∧ (∀ n, a.kind ≠ .read n) ∧ s.computePart (homeOf x) = some p ∧ (s.stagePut p 25 b none).1 = false :=
  ⟨{ swinAll with staging := [(25, [⟨0, ⟨.spout 0, 0, false, .write (List.replicate 65536 0), false⟩, none, false⟩])] }, 0, spAddr 0 0, 0, ⟨.hart 0, 127 * 2 ^ 41 + spAddr 0 0, false, .write [1], false⟩, _, by decide +kernel, by decide +kernel, .inl rfl, rfl, by decide +kernel, by decide +kernel, (fun n h => by cases h), by decide +kernel⟩

theorem witness_scAccess_cache : ∃ (s : State) (h : Nat) (x : Nat) (a : Access) (b : Access) (op : CacheOp),
    h < 8 ∧ s.recState 4 < 3 ∧ (h = 0 ∨ bit (s.rd (stReg 0x5108)) h = true) ∧ b = { a with req := .hart h } ∧ s.swinOk a.addr (accessLen b) .write = true ∧ s.localOf a.addr = some x :=
  ⟨lpOn swinAll, 0, 0, ⟨.hart 0, 127 * 2 ^ 41, false, .read 4, false⟩, _, .flush, by decide +kernel, by decide +kernel, .inl rfl, rfl, by decide +kernel⟩

theorem witness_scAccess_cacheFar : ∃ (s : State) (h : Nat) (a : Access) (b : Access) (op : CacheOp),
    h < 8 ∧ s.recState 4 < 3 ∧ (h = 0 ∨ bit (s.rd (stReg 0x5108)) h = true) ∧ b = { a with req := .hart h } ∧ s.swinOk a.addr (accessLen b) .write = true ∧ s.localOf a.addr = none :=
  ⟨swinAll, 0, ⟨.hart 0, 5 * 2 ^ 41, false, .read 4, false⟩, _, .flush, by decide +kernel, by decide +kernel, .inl rfl, rfl, by decide +kernel⟩

theorem witness_scAccess_cacheRefused : ∃ (s : State) (h : Nat) (a : Access) (b : Access) (op : CacheOp),
    h < 8 ∧ s.recState 4 < 3 ∧ (h = 0 ∨ bit (s.rd (stReg 0x5108)) h = true) ∧ b = { a with req := .hart h } ∧ s.swinOk a.addr (accessLen b) .write = false :=
  ⟨State.reset.setRecState 4 0, 0, ⟨.hart 0, 0, false, .read 4, false⟩, _, .inval, by decide +kernel, by decide +kernel, .inl rfl, rfl, by decide +kernel⟩

theorem witness_macTransmit_none : ∃ (s : State) (e : Nat),
    (4 ≤ e ∨ bit (s.rd (macReg e 0)) 0 = false ∨ s.macHalt = true ∨ (s.macRing e true).2 = 0 ∨ s.lpReady (s.macRing e true).1 (16 * (s.macRing e true).2) = false) :=
  ⟨State.reset, 4, .inl (by decide +kernel)⟩

theorem witness_macTransmit_empty : ∃ (s : State) (e : Nat) (w : State),
    e < 4 ∧ bit (s.rd (macReg e 0)) 0 = true ∧ s.macHalt = false ∧ 0 < (s.macRing e true).2 ∧ s.lpReady (s.macRing e true).1 (16 * (s.macRing e true).2) = true ∧ s.txGather e (min (s.macRing e true).2 1024) 0 = (none, w) :=
  ⟨macEmpty, 0, (macEmpty.txGather 0 (min (macEmpty.macRing 0 true).2 1024) 0).2, by decide +kernel, by decide +kernel, by decide +kernel, by decide +kernel, by decide +kernel, pair_eq (by decide +kernel)⟩

theorem witness_macTransmit : ∃ (s : State) (e : Nat) (n : Nat) (f : List Byte) (b : Bool) (u : State) (w : State),
    e < 4 ∧ bit (s.rd (macReg e 0)) 0 = true ∧ s.macHalt = false ∧ 0 < (s.macRing e true).2 ∧ s.lpReady (s.macRing e true).1 (16 * (s.macRing e true).2) = true ∧ s.txGather e (min (s.macRing e true).2 1024) 0 = (some (n, f), w) ∧ w.stampFrame e true f 0 = (b, u) :=
  ⟨macReady, 0, 1, [1], false, ((macReady.txGather 0 1 0).2.stampFrame 0 true [1] 0).2, (macReady.txGather 0 1 0).2, by decide +kernel, by decide +kernel, by decide +kernel, by decide +kernel, by decide +kernel, pair_eq (by decide +kernel), pair_eq (by decide +kernel)⟩

theorem witness_uartReceive : ∃ (s : State) (u : Nat) (ch : Nat),
    u < 2 ∧ bit (fieldAt (s.record 5 7) 1 1) u = true :=
  ⟨{ State.reset with si := { Si.none with records := [(5 * 8 + 7, [0, 3])] } }, 0, 65, by decide +kernel⟩

theorem witness_pcieLinkTraining : ∃ (s : State) (w : Nat) (g : Nat),
    (w = 1 ∨ w = 2 ∨ w = 4 ∨ w = 8) ∧ (g = 4 ∨ g = 5) ∧ s.power.released = true ∧ s.pmState ≤ 1 :=
  ⟨{ State.reset with power := { Power.up with released := true } }, 4, 4, by decide +kernel⟩

theorem witness_harts_other : ∃ (s : State) (r : Requester) (v : Nat),
    (∀ h, r ≠ .hart h) :=
  ⟨State.reset, .pcie, 2, (fun h g => by cases g)⟩

theorem witness_uartReceive_none : ∃ (s : State) (u : Nat) (ch : Nat),
    (2 ≤ u ∨ bit (fieldAt (s.record 5 7) 1 1) u = false) :=
  ⟨State.reset, 2, 65, .inl (by decide +kernel)⟩

theorem witness_pcieLinkTraining_none : ∃ (s : State) (w : Nat) (g : Nat),
    (w ∉ [1, 2, 4, 8] ∨ g ∉ [4, 5] ∨ s.power.released = false ∨ 1 < s.pmState) :=
  ⟨State.reset, 3, 4, .inl (by decide)⟩

theorem witness_lpddr6Request : ∃ (s : State) (x : Access) (b : Nat) (a : Nat),
    s.localOf x.addr = some a ∧ a < lpddrTop ∧ s.lpReady a (accSize x.kind) = true :=
  ⟨lpOn State.reset, ⟨.steward, 127 * 2 ^ 41, false, .read 4, false⟩, 0, 0, by decide +kernel⟩

theorem witness_mcWriteBack : ∃ (s : State) (c : Nat) (a : Nat),
    s.writeBack.find? (fun e => e.1 == c) = some (c, a) ∧ s.fld (mcReg c 0) 3 0 = 2 :=
  ⟨{ lpOn State.reset with writeBack := [(0, 7)] }, 0, 7, by decide +kernel⟩

theorem witness_temperatureReportRead : ∃ (s : State) (c : Nat) (v : Nat),
    s.fld (mcReg c 0) 3 0 = 2 :=
  ⟨lpOn State.reset, 0, 5, by decide +kernel⟩

theorem witness_dqsOscillatorRead : ∃ (s : State) (c : Nat) (k : Nat) (n : Nat) (d : Int) (u : State),
    s.fld (mcReg c 0) 3 0 = 2 ∧ k < 2 ∧ d = (n : Int) - ((assoc s.dqs (2 * c + k)).getD 0 : Int) ∧ u = s.setFld (mcReg c 0x24) 15 0 (ofSigned 16 d) :=
  ⟨lpOn State.reset, 0, 0, 5, 5, (lpOn State.reset).setFld (mcReg 0 0x24) 15 0 5, by decide +kernel, by decide +kernel, by decide +kernel, rfl⟩

theorem witness_patrol : ∃ (s : State) (c : Nat),
    s.fld (mcReg c 0) 3 0 = 2 :=
  ⟨lpOn State.reset, 0, by decide +kernel⟩

theorem witness_patrol_bad : ∃ (s : State) (c : Nat) (b : Nat) (cha : Nat),
    s.fld (mcReg c 0) 3 0 = 2 ∧ b ≠ 0 ∧ cha = (Config.freeWord s.fresh).toNat * 32 % s.chanBytes :=
  ⟨lpOn State.reset, 0, 1, _, by decide +kernel, by decide +kernel, rfl⟩

theorem witness_channelTrainingEnd : ∃ (s : State) (c : Nat) (u : State),
    s.fld (mcReg c 0) 3 0 = 1 ∧ c < s.nChannels ∧ u = { s with fresh := s.fresh + 2, dqs := s.dqs.filter (fun e => e.1 / 2 != c) ++ [(2 * c, (Config.freeWord s.fresh).toNat % 65536), (2 * c + 1, (Config.freeWord (s.fresh + 1)).toNat % 65536)] } :=
  ⟨State.reset.wr (mcReg 0 0) 1, 0, _, by decide +kernel, by decide +kernel, rfl⟩

theorem witness_channelTrainingEnd_reset : ∃ (s : State) (c : Nat) (p : Nat) (ok : Bool) (agree : Bool) (u : State),
    s.fld (mcReg c 0) 3 0 = 1 ∧ c < s.nChannels ∧ (ok = false ∨ agree = false) ∧ u = s.setFld (mcReg c 0) 3 0 5 ∧ u.chanOwner c = some p ∧ (u.resetRec p).isSome = true :=
  ⟨resetting, 0, 0, false, true, resetting.setFld (mcReg 0 0) 3 0 5, by decide +kernel, by decide +kernel, by decide +kernel, rfl, by decide +kernel⟩

theorem witness_channelTrainingEnd_shut : ∃ (s : State) (c : Nat) (ok : Bool) (agree : Bool) (u : State),
    s.fld (mcReg c 0) 3 0 = 1 ∧ c < s.nChannels ∧ (ok = false ∨ agree = false) ∧ u = s.setFld (mcReg c 0) 3 0 5 ∧ (∀ p, u.chanOwner c = some p → u.resetRec p = none) :=
  ⟨State.reset.wr (mcReg 0 0) 1, 0, false, true, (State.reset.wr (mcReg 0 0) 1).setFld (mcReg 0 0) 3 0 5, by decide +kernel, by decide +kernel, by decide +kernel, rfl, (by have e : ((State.reset.wr (mcReg 0 0) 1).setFld (mcReg 0 0) 3 0 5).chanOwner 0 = none := (by decide +kernel); intro a ha; rw [e] at ha; cases ha)⟩

theorem witness_lpddr6Request_none : ∃ (s : State) (x : Access) (b : Nat),
    (∀ a, s.localOf x.addr = some a → lpddrTop ≤ a ∨ s.lpReady a (accSize x.kind) = false) :=
  ⟨State.reset, ⟨.steward, 5 * 2 ^ 41, false, .read 4, false⟩, 0, (fun a h => by cases h)⟩

theorem witness_mcWriteBack_none : ∃ (s : State) (c : Nat),
    (s.writeBack.find? (fun e => e.1 == c) = none ∨ s.fld (mcReg c 0) 3 0 ≠ 2) :=
  ⟨State.reset, 0, .inl (by decide +kernel)⟩

theorem witness_temperatureReportRead_off : ∃ (s : State) (c : Nat) (v : Nat),
    s.fld (mcReg c 0) 3 0 ≠ 2 :=
  ⟨State.reset, 0, 5, by decide +kernel⟩

theorem witness_dqsOscillatorRead_off : ∃ (s : State) (c : Nat) (k : Nat) (n : Nat),
    (s.fld (mcReg c 0) 3 0 ≠ 2 ∨ 2 ≤ k) :=
  ⟨State.reset, 0, 0, 5, .inl (by decide +kernel)⟩

theorem witness_patrol_off : ∃ (s : State) (c : Nat) (b : Nat),
    s.fld (mcReg c 0) 3 0 ≠ 2 :=
  ⟨State.reset, 0, 5, by decide +kernel⟩

theorem witness_channelTrainingEnd_off : ∃ (s : State) (c : Nat) (ok : Bool) (agree : Bool),
    (s.fld (mcReg c 0) 3 0 ≠ 1 ∨ s.nChannels ≤ c) :=
  ⟨State.reset, 0, true, true, .inl (by decide +kernel)⟩

theorem witness_lockstepMismatch : ∃ (s : State) (pair : Nat) (g : Nat),
    s.isLockstep pair = true ∧ pair < 32 ∧ g < 3 :=
  ⟨paired, 0, 0, by decide +kernel⟩

theorem witness_reportPathFault : ∃ (s : State) (pair : Nat),
    s.isLockstep pair = true ∧ pair < 32 :=
  ⟨paired, 0, by decide +kernel⟩

theorem witness_tasterMissed : ∃ (s : State) (p : Nat) (b : BrewTable),
    (s.dsp p).table = some b ∧ p < 4 ∧ (s.fld (btReg p 0) 3 0 = 2 ∨ s.fld (btReg p 0) 3 0 = 3) ∧ s.scopeStopped p = false ∧ (2 * b.minorNs + 1000000 : Nat) < toSigned 64 (s.time + 2 ^ 64 - (s.dsp p).lastTaster % 2 ^ 64) :=
  ⟨{ running { Brew.stopped with table := some oneFrame } with tb := { Tb.powerUp with raw := 4000000 } }, 0, oneFrame, by decide +kernel⟩

theorem witness_safeState : ∃ (s : State) (p : Nat) (k : Nat),
    p < 4 ∧ (s.prec p).active = true ∧ 1 ≤ k ∧ k ≤ 5 :=
  ⟨owned, 0, 1, by decide +kernel⟩

theorem witness_deviceSafeState : ∃ (s : State) (k : Nat),
    1 ≤ k ∧ k ≤ 5 :=
  ⟨owned, 1, by decide +kernel⟩

theorem witness_urnSafeCmdParts_other : ∃ (s : State) (r : Requester) (m : Nat),
    r ≠ .steward :=
  ⟨State.reset, .pcie, 1, by decide⟩

theorem witness_stSafeCmd : ∃ (s : State) (r : Requester) (v : Nat),
    s.isMaster r = true :=
  ⟨State.reset, .pcie, 1, by decide +kernel⟩

theorem witness_stSafeCmd_other : ∃ (s : State) (r : Requester) (v : Nat),
    s.isMaster r = false :=
  ⟨State.reset, .steward, 1, by decide +kernel⟩

theorem witness_errOutReturn : ∃ (s : State) (u : State),
    s.urn.errFault = true ∧ s.errCondition = false ∧ s.clock.urn % 500000 = 0 ∧ u = { s with urn := { s.urn with errFault := false } } :=
  ⟨{ State.reset with urn := { Urn.boot with errFault := true } }, State.reset, by decide +kernel⟩

theorem witness_faultRaise : ∃ (s : State) (src : Src) (scope : Nat) (i : FaultInfo),
    (scope < 5 ∨ scope = 7) ∧ (src ≠ .lsInjectFail ∨ 4 ≤ scope ∨ s.resetRec scope = none) ∧ (src ≠ .dppMismatch ∨ s.nDpps ≤ i.unit) ∧ src ≠ .peAerUncor :=
  ⟨State.reset, .tbStall, 7, {}, .inr rfl, (Or.inl (by decide)), (Or.inl (by decide)), by decide +kernel⟩

theorem witness_faultRaise_dpp : ∃ (s : State) (scope : Nat) (i : FaultInfo),
    (scope < 5 ∨ scope = 7) ∧ i.unit < s.nDpps :=
  ⟨owned, 0, {}, .inl (by decide), by decide +kernel⟩

theorem witness_faultRaise_aer : ∃ (s : State) (scope : Nat) (i : FaultInfo),
    (scope < 5 ∨ scope = 7) :=
  ⟨owned, 7, {}, .inr rfl⟩

theorem witness_faultRaise_noScope : ∃ (s : State) (src : Src) (scope : Nat) (i : FaultInfo),
    (scope = 5 ∨ scope = 6 ∨ 7 < scope) :=
  ⟨State.reset, .tbStall, 5, {}, .inl rfl⟩

theorem witness_faultRaise_bootTest : ∃ (s : State) (scope : Nat) (i : FaultInfo),
    scope < 4 ∧ (s.resetRec scope).isSome = true :=
  ⟨resetting, 0, {}, by decide +kernel⟩

theorem witness_windowExpiry_urgent : ∃ (s : State) (n : Nat) (q : PendRec) (u : State),
    s.dueRecord n (s.clock.urn + 1) = some q ∧ q.rcd.sev = 3 ∧ u = s.modPending q.rcd.seq (fun r => { r with sev := 4 }) (some (s.clock.urn + s.windowNs q.rcd.scope 4)) :=
  ⟨pendingRec 3, 1, aPend 3, _, by decide +kernel, by decide +kernel, rfl⟩

theorem witness_windowExpiry : ∃ (s : State) (n : Nat) (q : PendRec),
    s.dueRecord n (s.clock.urn + 1) = some q ∧ q.rcd.sev ≠ 3 :=
  ⟨pendingRec 4, 1, aPend 4, by decide +kernel⟩

theorem witness_windowExpiry_waits : ∃ (s : State) (n : Nat),
    s.dueRecord n (s.clock.urn + 1) = none :=
  ⟨State.reset, 1, by decide +kernel⟩

theorem witness_urnSecond_waits : ∃ (s : State),
    s.clock.urn / 1000000000 ≤ s.urn.secondNo :=
  ⟨State.reset, by decide +kernel⟩

theorem witness_urnSecond : ∃ (s : State),
    s.urn.secondNo < s.clock.urn / 1000000000 :=
  ⟨at_ 1000000000 State.reset, by decide +kernel⟩

theorem witness_fcAck : ∃ (s : State) (r : Requester) (n : Nat),
    (r = .steward ∨ s.isMaster r = true) :=
  ⟨State.reset, .steward, 0, (Or.inl rfl)⟩

theorem witness_fcAck_service : ∃ (s : State) (h : Nat) (n : Nat) (q : PendRec),
    s.urn.pending.find? (fun q => q.rcd.seq == n) = some q :=
  ⟨pendingRec 3, 0, 1, aPend 3, by decide +kernel⟩

theorem witness_fcAck_serviceNone : ∃ (s : State) (h : Nat) (n : Nat),
    s.urn.pending.find? (fun q => q.rcd.seq == n) = none :=
  ⟨State.reset, 0, 1, by decide +kernel⟩

theorem witness_fcAck_denied : ∃ (s : State) (r : Requester) (n : Nat),
    r ≠ .steward ∧ s.isMaster r = false ∧ (∀ h, r ≠ .hart h) :=
  ⟨State.reset, .sequencer 0, 0, by decide, by decide +kernel, (by intro h; simp)⟩

theorem witness_fcSwRaise : ∃ (s : State) (r : Requester) (v : Nat),
    (bits v 26 24 ≠ 5 ∧ bits v 26 24 ≠ 6 ∧ (r = .steward ∨ s.isMaster r = true ∨ (bits v 26 24 < 5 ∧ s.partOf r = some (bits v 26 24)))) :=
  ⟨State.reset, .steward, 0, (by decide +kernel)⟩

theorem witness_fcSwRaise_denied : ∃ (s : State) (r : Requester) (v : Nat),
    (¬ (bits v 26 24 ≠ 5 ∧ bits v 26 24 ≠ 6 ∧ (r = .steward ∨ s.isMaster r = true ∨ (bits v 26 24 < 5 ∧ s.partOf r = some (bits v 26 24))))) :=
  ⟨State.reset, .steward, 5 * 2 ^ 24, (by decide +kernel)⟩

theorem witness_lockstepMismatch_none : ∃ (s : State) (pair : Nat) (g : Nat),
    (s.isLockstep pair = false ∨ 32 ≤ pair ∨ 3 ≤ g) :=
  ⟨State.reset, 0, 0, .inl (by decide +kernel)⟩

theorem witness_reportPathFault_none : ∃ (s : State) (pair : Nat),
    (s.isLockstep pair = false ∨ 32 ≤ pair) :=
  ⟨State.reset, 0, .inl (by decide +kernel)⟩

theorem witness_tasterMissed_noTable : ∃ (s : State) (p : Nat),
    (s.dsp p).table = none :=
  ⟨State.reset, 0, by decide +kernel⟩

theorem witness_tasterMissed_waits : ∃ (s : State) (p : Nat) (b : BrewTable),
    (s.dsp p).table = some b ∧ (4 ≤ p ∨ (s.fld (btReg p 0) 3 0 ≠ 2 ∧ s.fld (btReg p 0) 3 0 ≠ 3) ∨ s.scopeStopped p = true ∨ toSigned 64 (s.time + 2 ^ 64 - (s.dsp p).lastTaster % 2 ^ 64) ≤ (2 * b.minorNs + 1000000 : Nat)) :=
  ⟨running { Brew.stopped with table := some oneFrame }, 0, oneFrame, by decide +kernel, .inr (.inr (.inr (by decide +kernel)))⟩

theorem witness_safeState_none : ∃ (s : State) (p : Nat) (k : Nat),
    (4 ≤ p ∨ (s.prec p).active = false ∨ k = 0 ∨ 5 < k) :=
  ⟨State.reset, 4, 1, .inl (by decide +kernel)⟩

theorem witness_deviceSafeState_none : ∃ (s : State) (k : Nat),
    (k = 0 ∨ 5 < k) :=
  ⟨State.reset, 0, .inl (by decide +kernel)⟩

theorem witness_errOutReturn_waits : ∃ (s : State),
    (s.urn.errFault = false ∨ s.errCondition = true ∨ s.clock.urn % 500000 ≠ 0) :=
  ⟨State.reset, .inl (by decide +kernel)⟩

theorem witness_hangContext : ∃ (s : State) (c : Nat) (x : Nat),
    x < 4 ∧ c < s.nClusters ∧ s.ctxState c x = 1 ∧ (s.ctx c x).progressAt + s.rd (clReg c 0xB20) ≤ s.ct :=
  ⟨(elasticIn 1 [] []).wr (clReg 0 0xB20) 0, 0, 0, by decide +kernel⟩

theorem witness_hangSequencer : ∃ (s : State) (c : Nat) (p : Nat),
    s.ownerOf c = some p ∧ s.recState p = 0 ∧ c < s.nClusters ∧ s.wdogAt c + 2 ^ 20 ≤ s.ct :=
  ⟨at_ 2000000 (owned.setRecState 0 0), 0, 0, by decide +kernel⟩

theorem witness_clSeqWdog : ∃ (s : State) (r : Requester) (c : Nat),
    c < s.nClusters :=
  ⟨State.reset, .steward, 0, by decide +kernel⟩

theorem witness_hangTask : ∃ (s : State) (c : Nat) (n : Nat) (t : Nat) (at_ : Nat) (k : Task),
    (s.slot c n).task = some t ∧ s.task t = some k ∧ s.blockedFrom c n = some at_ ∧ s.fld (stReg 0x6008) 15 0 ≠ 0 ∧ k.hangRaised = false ∧ at_ + 750000 * s.fld (stReg 0x6008) 15 0 < s.ct :=
  ⟨hungTask, 0, 0, 0, 0, aTaskRun false false, by decide +kernel⟩

theorem witness_stewardHb : ∃ (s : State),
    s.stewardUp = true ∧ s.rd (urnReg 0xA00C) = s.urn.hbStewardSeen ∧ s.urn.hbStewardAt + 500000 ≤ s.clock.urn :=
  ⟨at_ 500000 State.reset, by decide +kernel⟩

theorem witness_stewardHb_mismatch : ∃ (s : State),
    s.stewardUp = true :=
  ⟨State.reset, by decide +kernel⟩

theorem witness_stewardHb_beats : ∃ (s : State),
    s.stewardUp = true ∧ s.rd (urnReg 0xA00C) ≠ s.urn.hbStewardSeen :=
  ⟨State.reset.wr (urnReg 0xA00C) 1, by decide +kernel⟩

theorem witness_urnHbCheck : ∃ (s : State),
    s.stewardUp = true ∧ s.urn.hbUrnAt + 1000000 ≤ s.clock.urn :=
  ⟨at_ 1000000 State.reset, by decide +kernel⟩

theorem witness_stewardRestart : ∃ (s : State) (t : Nat),
    s.urn.stewardUpAt = some t ∧ t ≤ s.clock.urn :=
  ⟨{ State.reset with urn := { Urn.boot with stewardUpAt := some 0 } }, 0, by decide +kernel⟩

theorem witness_partitionReset_begins : ∃ (s : State) (p : Nat) (r : ResetRec) (u : State) (v : State),
    s.resetRec p = some r ∧ p ≤ 4 ∧ s.stewardUp = true ∧ r.step = 1 ∧ s.fld (urnReg 0xA018) 31 28 ≠ 3 ∧ (u = if s.recState p = 0 then s.safeState p 1 else s) ∧ v = (u.setRecState p 2).modReset p fun r => { r with step := 2 } :=
  ⟨inReset 1, 0, aReset 1, _, _, by decide +kernel, by decide +kernel, by decide +kernel, by decide +kernel, by decide +kernel, rfl, rfl⟩

theorem witness_partitionReset_drains : ∃ (s : State) (p : Nat) (r : ResetRec),
    s.resetRec p = some r ∧ p ≤ 4 ∧ s.stewardUp = true ∧ r.step = 3 :=
  ⟨inReset 3, 0, aReset 3, by decide +kernel⟩

theorem witness_partitionReset_units : ∃ (s : State) (p : Nat) (r : ResetRec),
    s.resetRec p = some r ∧ p ≤ 4 ∧ s.stewardUp = true ∧ r.step = 4 ∧ s.safeInHolds p = false ∧ s.fld (pmReg 0x20) 30 28 ≠ 3 :=
  ⟨inReset 4, 0, aReset 4, by decide +kernel⟩

theorem witness_partitionReset_channels : ∃ (s : State) (p : Nat) (r : ResetRec),
    s.resetRec p = some r ∧ p ≤ 4 ∧ s.stewardUp = true ∧ r.step = 5 ∧ s.chansReady p = true :=
  ⟨lpOn (inReset 5), 0, aReset 5, by decide +kernel⟩

theorem witness_partitionReset_tests : ∃ (s : State) (p : Nat) (r : ResetRec),
    s.resetRec p = some r ∧ p ≤ 4 ∧ s.stewardUp = true ∧ r.step = 6 :=
  ⟨inReset 6, 0, aReset 6, by decide +kernel⟩

theorem witness_partitionReset : ∃ (s : State) (p : Nat) (r : ResetRec),
    s.resetRec p = some r ∧ p ≤ 4 ∧ s.stewardUp = true ∧ r.step = 7 :=
  ⟨inReset 7, 0, aReset 7, by decide +kernel⟩

theorem witness_resetOverrun : ∃ (s : State) (p : Nat) (r : ResetRec),
    s.resetRec p = some r ∧ p < 5 ∧ r.overrun = false ∧ r.since + 2500000000 < s.clock.urn :=
  ⟨at_ 2500000001 resetting, 0, aReset 3, by decide +kernel⟩

theorem witness_crashCapture_begins : ∃ (s : State) (n : Nat),
    s.urn.capture = none ∧ s.urn.captureQueue.contains n = true ∧ s.urn.captureQueue.all (fun q => decide (n ≤ q)) = true ∧ s.urn.urnHeld = false :=
  ⟨{ owned with urn := { Urn.boot with captureQueue := [0] } }, 0, by decide +kernel⟩

theorem witness_crashCapture : ∃ (s : State) (n : Nat) (t : Nat),
    s.urn.capture = some (n, t) :=
  ⟨{ owned with urn := { Urn.boot with capture := some (0, 0) } }, 0, 0, by decide +kernel⟩

theorem witness_crashPartial : ∃ (s : State) (n : Nat) (t : Nat),
    s.urn.capture = some (n, t) ∧ t + 5000000 ≤ s.clock.urn :=
  ⟨at_ 5000000 { owned with urn := { Urn.boot with capture := some (0, 0) } }, 0, 0, by decide +kernel⟩

theorem witness_clusterReset : ∃ (s : State) (c : Nat) (u : State),
    s.urn.clusterQ.contains c = true ∧ u = { s with urn := { s.urn with clusterQ := s.urn.clusterQ.filter fun q => q != c } } :=
  ⟨{ owned with urn := { Urn.boot with clusterQ := [0] } }, 0, { owned with urn := { Urn.boot with clusterQ := [] } }, by decide +kernel, rfl⟩

theorem witness_deviceReset : ∃ (s : State) (r : ResetRec),
    s.resetRec 7 = some r ∧ r.step = 3 :=
  ⟨{ State.reset with urn := { Urn.boot with active := [{ aReset 3 with scope := 7 }] } }, { aReset 3 with scope := 7 }, by decide +kernel⟩

theorem witness_lastResortTakeover : ∃ (s : State) (k : Nat),
    1 ≤ k ∧ k ≤ 4 ∧ s.pmState < 3 :=
  ⟨State.reset, 1, by decide +kernel⟩

theorem witness_autoReset : ∃ (s : State) (t : Nat),
    s.urn.takeoverAt = some t ∧ bit (s.rd (pmReg 0x90004)) 0 = true ∧ t + 10000000 ≤ s.clock.aon :=
  ⟨at_ 10000000 (State.wr { State.reset with urn := { Urn.boot with takeoverAt := some 0 } } (pmReg 0x90004) 1), 0, by decide +kernel⟩

theorem witness_hangContext_none : ∃ (s : State) (c : Nat) (x : Nat),
    (4 ≤ x ∨ s.nClusters ≤ c ∨ s.ctxState c x ≠ 1 ∨ s.ct < (s.ctx c x).progressAt + s.rd (clReg c 0xB20)) :=
  ⟨State.reset, 0, 4, .inl (by decide +kernel)⟩

theorem witness_hangSequencer_unowned : ∃ (s : State) (c : Nat),
    s.ownerOf c = none :=
  ⟨State.reset, 0, by decide +kernel⟩

theorem witness_hangSequencer_waits : ∃ (s : State) (c : Nat) (p : Nat),
    s.ownerOf c = some p ∧ (s.recState p ≠ 0 ∨ s.nClusters ≤ c ∨ s.ct < s.wdogAt c + 2 ^ 20) :=
  ⟨owned.setRecState 0 0, 0, 0, by decide +kernel, .inr (.inr (by decide +kernel))⟩

theorem witness_clSeqWdog_none : ∃ (s : State) (r : Requester) (c : Nat),
    s.nClusters ≤ c :=
  ⟨State.reset, .steward, 64, by decide +kernel⟩

theorem witness_hangTask_none : ∃ (s : State) (c : Nat) (n : Nat),
    (s.fld (stReg 0x6008) 15 0 = 0 ∨ (s.slot c n).task = none ∨ s.blockedFrom c n = none) :=
  ⟨State.reset, 0, 0, .inl (by decide +kernel)⟩

theorem witness_hangTask_waits : ∃ (s : State) (c : Nat) (n : Nat) (t : Nat) (at_ : Nat) (k : Task),
    (s.slot c n).task = some t ∧ s.task t = some k ∧ s.blockedFrom c n = some at_ ∧ (k.hangRaised = true ∨ s.ct ≤ at_ + 750000 * s.fld (stReg 0x6008) 15 0) :=
  ⟨{ hungTask with clock := { hungTask.clock with ns := 0 } }, 0, 0, 0, 0, aTaskRun false false, by decide +kernel, by decide +kernel, by decide +kernel, .inr (by decide +kernel)⟩

theorem witness_stewardHb_down : ∃ (s : State) (b : Bool),
    s.stewardUp = false :=
  ⟨{ State.reset with urn := { Urn.boot with stewardUpAt := some 0 } }, false, by decide +kernel⟩

theorem witness_stewardHb_waits : ∃ (s : State),
    s.rd (urnReg 0xA00C) = s.urn.hbStewardSeen ∧ s.clock.urn < s.urn.hbStewardAt + 500000 :=
  ⟨State.reset, by decide +kernel⟩

theorem witness_urnHbCheck_waits : ∃ (s : State),
    (s.stewardUp = false ∨ s.clock.urn < s.urn.hbUrnAt + 1000000) :=
  ⟨State.reset, .inr (by decide +kernel)⟩

theorem witness_stewardRestart_waits : ∃ (s : State),
    (∀ t, s.urn.stewardUpAt = some t → s.clock.urn < t) :=
  ⟨State.reset, (fun t h => by cases h)⟩

theorem witness_partitionReset_none : ∃ (s : State) (p : Nat),
    s.resetRec p = none :=
  ⟨State.reset, 0, by decide +kernel⟩

theorem witness_partitionReset_waits : ∃ (s : State) (p : Nat) (r : ResetRec),
    s.resetRec p = some r ∧ (4 < p ∨ s.stewardUp = false ∨ (r.step = 1 ∧ s.fld (urnReg 0xA018) 31 28 = 3) ∨ r.step = 0 ∨ r.step = 2 ∨ 7 < r.step ∨ (r.step = 4 ∧ (s.safeInHolds p = true ∨ s.fld (pmReg 0x20) 30 28 = 3)) ∨ (r.step = 5 ∧ s.chansReady p = false)) :=
  ⟨inReset 2, 0, aReset 2, by decide +kernel, .inr (.inr (.inr (.inr (.inl rfl))))⟩

theorem witness_resetOverrun_waits : ∃ (s : State) (p : Nat),
    (∀ r, s.resetRec p = some r → 5 ≤ p ∨ r.overrun = true ∨ s.clock.urn ≤ r.since + 2500000000) :=
  ⟨State.reset, 0, (fun r h => by cases h)⟩

theorem witness_crashCapture_waits : ∃ (s : State) (n : Nat),
    s.urn.capture = none ∧ (n ∉ s.urn.captureQueue ∨ (∃ q ∈ s.urn.captureQueue, q < n) ∨ s.urn.urnHeld = true) :=
  ⟨State.reset, 0, by decide +kernel, .inl (by decide +kernel)⟩

theorem witness_crashCapture_other : ∃ (s : State) (n : Nat) (m : Nat) (t : Nat),
    s.urn.capture = some (m, t) ∧ m ≠ n :=
  ⟨{ owned with urn := { Urn.boot with capture := some (0, 0) } }, 1, 0, 0, by decide +kernel⟩

theorem witness_crashPartial_waits : ∃ (s : State),
    (∀ n t, s.urn.capture = some (n, t) → s.clock.urn < t + 5000000) :=
  ⟨State.reset, (fun n t h => by cases h)⟩

theorem witness_clusterReset_none : ∃ (s : State) (c : Nat),
    c ∉ s.urn.clusterQ :=
  ⟨State.reset, 0, by decide +kernel⟩

theorem witness_deviceReset_waits : ∃ (s : State),
    (∀ r, s.resetRec 7 = some r → r.step ≠ 3) :=
  ⟨State.reset, (fun r h => by cases h)⟩

theorem witness_lastResortTakeover_none : ∃ (s : State) (k : Nat),
    (k = 0 ∨ 4 < k ∨ 3 ≤ s.pmState) :=
  ⟨State.reset, 0, .inl (by decide +kernel)⟩

theorem witness_pmLrsReq_none : ∃ (s : State) (r : Requester) (v : Nat),
    (r ≠ .steward ∨ v ≠ 0x5A5A) :=
  ⟨State.reset, .pcie, 0, .inl (by decide +kernel)⟩

theorem witness_autoReset_waits : ∃ (s : State),
    (∀ t, s.urn.takeoverAt = some t → bit (s.rd (pmReg 0x90004)) 0 = false ∨ s.clock.aon < t + 10000000) :=
  ⟨State.reset, (fun t h => by cases h)⟩

theorem witness_fwSwitchover : ∃ (s : State) (n : Nat) (img : List Byte) (u : State),
    s.urn.fwStaged = some (n, img) ∧ s.fwState = 1 ∧ s.si.current ≠ [] ∧ s.atBoundary (imgFallback s.si.current) = true ∧ s.urn.fwStagedAt + 2000000 ≤ s.clock.urn ∧ s.si.hotDev = false ∧ s.si.hotPend.contains (imgFallback s.si.current) = false ∧ s.urn.active = [] ∧ u = (s.swapBanks img).setFld (urnReg 0xA018) 31 28 2 :=
  ⟨stagedFw, 1, [1], _, by decide +kernel, by decide +kernel, by decide +kernel, by decide +kernel, by decide +kernel, by decide +kernel, by decide +kernel, by decide +kernel, rfl⟩

theorem witness_confirm : ∃ (s : State),
    s.fwState = 3 ∧ s.urn.fwHb = true ∧ s.clock.urn < s.urn.fwSwitchAt + 10000000 :=
  ⟨{ State.reset.setFld (urnReg 0xA018) 31 28 3 with urn := { Urn.boot with fwHb := true } }, by decide +kernel⟩

theorem witness_fwSwitchFail : ∃ (s : State) (u : State),
    (s.fwState = 2 ∨ s.fwState = 3) ∧ s.urn.fwSwitchAt + 10000000 ≤ s.clock.urn ∧ u = (s.swapBanks s.caddy.oldImage).setFld (urnReg 0xA018) 31 28 5 :=
  ⟨at_ 10000000 (State.reset.setFld (urnReg 0xA018) 31 28 3), _, .inr (by decide +kernel), by decide +kernel, rfl⟩

theorem witness_flashRewriteEnd : ∃ (s : State) (u : State) (v : State),
    s.fwState = 4 ∧ u = { s with caddy := { s.caddy with flash := s.caddy.image, flashSig := ⟨true, true⟩ } } ∧ (v = if s.urn.fwCommit then u.setFld (cadReg 0xC) 7 0 (max (s.fld (cadReg 0xC) 7 0) (min 128 s.urn.fwSvn)) else u) :=
  ⟨State.reset.setFld (urnReg 0xA018) 31 28 4, _, _, by decide +kernel, rfl, rfl⟩

theorem witness_recoveryPoll : ∃ (s : State) (v : SigVerdict) (u : State),
    s.power.recovery = true ∧ s.power.pollAt + 1000000 ≤ s.clock.aon ∧ s.lpReady 0 64 = true ∧ u = { s with power := { s.power with pollAt := s.clock.aon } } ∧ (u.ldn 0 4 = 0x56524B48 ∧ u.ldn 8 1 ≤ 1 ∧ u.ldn 4 4 + 0x1000 ≤ 0x4000000 ∧ (u.mem.read 9 3 ++ u.mem.read 0x10 48).all (· == 0) = true) :=
  ⟨polling true, ⟨true, true⟩, _, by decide +kernel, by decide +kernel, by decide +kernel, rfl, by decide +kernel⟩

theorem witness_recoveryPoll_invalid : ∃ (s : State) (v : SigVerdict) (u : State),
    s.power.recovery = true ∧ s.power.pollAt + 1000000 ≤ s.clock.aon ∧ s.lpReady 0 64 = true ∧ u = { s with power := { s.power with pollAt := s.clock.aon } } ∧ (¬ (u.ldn 0 4 = 0x56524B48 ∧ u.ldn 8 1 ≤ 1 ∧ u.ldn 4 4 + 0x1000 ≤ 0x4000000 ∧ (u.mem.read 9 3 ++ u.mem.read 0x10 48).all (· == 0) = true)) :=
  ⟨polling false, ⟨true, true⟩, _, by decide +kernel, by decide +kernel, by decide +kernel, rfl, by decide +kernel⟩

theorem witness_attest_invalid : ∃ (s : State) (ring : Nat) (idx : Nat) (k : Cmd),
    s.mbCmd ring idx 0x20 = some k ∧ s.lpReady (k.arg 8 6) 64 = true ∧ s.lpReady (k.arg 0x10 6) 4141 = true ∧ k.arg 0x10 6 % 64 ≠ 0 :=
  ⟨withCmd (lpOn owned) 0x20 0 [0, 0, 0, 0, 0, 0, 0, 0, 1], 0, 0, taken 0x20 0 [0, 0, 0, 0, 0, 0, 0, 0, 1], by decide +kernel⟩

theorem witness_attest_refused : ∃ (s : State) (ring : Nat) (idx : Nat) (k : Cmd),
    s.mbCmd ring idx 0x20 = some k ∧ s.lpReady (k.arg 8 6) 64 = true ∧ s.lpReady (k.arg 0x10 6) 4141 = true ∧ k.arg 0x10 6 % 64 = 0 ∧ bit ((s.begin_ ring idx).rd (cadReg 4)) 0 = false :=
  ⟨withCmd ((lpOn owned).setFld (cadReg 4) 0 0 0) 0x20 0 [], 0, 0, taken 0x20 0 [], by decide +kernel⟩

theorem witness_attest : ∃ (s : State) (ring : Nat) (idx : Nat) (k : Cmd) (n : RdRes) (u : State) (w : Option AccErr × State),
    s.mbCmd ring idx 0x20 = some k ∧ s.lpReady (k.arg 8 6) 64 = true ∧ s.lpReady (k.arg 0x10 6) 4141 = true ∧ k.arg 0x10 6 % 64 = 0 ∧ bit ((s.begin_ ring idx).rd (cadReg 4)) 0 = true ∧ (s.begin_ ring idx).memRead .caddy (k.arg 8 6) 64 = (n, u) ∧ n.err = none ∧ w = (u.signedReport n.bytes).2.memWrite .caddy (k.arg 0x10 6) (u.signedReport n.bytes).1 :=
  ⟨attesting, 0, 0, taken 0x20 0 [], (attesting1.memRead .caddy 0 64).1, (attesting1.memRead .caddy 0 64).2, _, by decide +kernel, by decide +kernel, by decide +kernel, by decide +kernel, by decide +kernel, rfl, by decide +kernel, rfl⟩

theorem witness_certRead_invalid : ∃ (s : State) (ring : Nat) (idx : Nat) (k : Cmd) (len : Nat) (put : Nat),
    s.mbCmd ring idx 0x21 = some k ∧ (len = Config.certLength (k.arg 8 8) (if k.arg 8 8 < 2 then 0 else s.caddy.keyGen)) ∧ put = min len (k.arg 0x18 4) ∧ s.lpReady (k.arg 0x10 6) (max 1 put) = true ∧ 4 ≤ k.arg 8 8 :=
  ⟨withCmd (lpOn owned) 0x21 0 [9], 0, 0, taken 0x21 0 [9], _, _, by decide +kernel, rfl, rfl, (show State.lpReady (withCmd (lpOn owned) 0x21 0 [9]) 0 (max 1 (min (Config.certLength _ _) 0)) = true from (by rw [Nat.min_zero]; decide +kernel)), by decide +kernel⟩

theorem witness_certRead : ∃ (s : State) (ring : Nat) (idx : Nat) (k : Cmd) (len : Nat) (put : Nat) (w : Option AccErr × State),
    s.mbCmd ring idx 0x21 = some k ∧ (len = Config.certLength (k.arg 8 8) (if k.arg 8 8 < 2 then 0 else s.caddy.keyGen)) ∧ put = min len (k.arg 0x18 4) ∧ s.lpReady (k.arg 0x10 6) (max 1 put) = true ∧ k.arg 8 8 < 4 ∧ (w = (s.begin_ ring idx).memWrite .caddy (k.arg 0x10 6) ((List.range put).map fun i => Config.certByte (k.arg 8 8) (if k.arg 8 8 < 2 then 0 else s.caddy.keyGen) i)) :=
  ⟨withCmd (lpOn owned) 0x21 0 [], 0, 0, taken 0x21 0 [], _, _, _, by decide +kernel, rfl, rfl, (show State.lpReady (withCmd (lpOn owned) 0x21 0 []) 0 (max 1 (min (Config.certLength _ _) 0)) = true from (by rw [Nat.min_zero]; decide +kernel)), by decide +kernel, rfl⟩

theorem witness_ownerEnrol : ∃ (s : State) (ring : Nat) (idx : Nat) (k : Cmd) (v : SigVerdict),
    s.mbCmd ring idx 0x22 = some k ∧ s.lpReady (k.arg 8 6) (0x840 + sigLen) = true :=
  ⟨withCmd (lpOn owned) 0x22 0 [], 0, 0, taken 0x22 0 [], ⟨true, true⟩, by decide +kernel⟩

theorem witness_ownerRevoke : ∃ (s : State) (ring : Nat) (idx : Nat) (k : Cmd) (v : SigVerdict),
    s.mbCmd ring idx 0x23 = some k ∧ s.lpReady (k.arg 8 6) (0x840 + sigLen) = true :=
  ⟨withCmd (lpOn owned) 0x23 0 [], 0, 0, taken 0x23 0 [], ⟨true, true⟩, by decide +kernel⟩

theorem witness_siMinRaise : ∃ (s : State) (ring : Nat) (idx : Nat) (k : Cmd) (n : Nat) (v : Nat),
    s.mbCmd ring idx 0x24 = some k ∧ v = k.arg 8 4 ∧ (List.range 8).find? (fun m => (s.begin_ ring idx).siMin m == 0) = some n ∧ (s.begin_ ring idx).si.current ≠ [] ∧ v ≠ 0 ∧ v ≤ imgVersion (s.begin_ ring idx).si.current ∧ (∀ m < 8, (s.begin_ ring idx).siMin m < v) :=
  ⟨withCmd versioned 0x24 0 [1], 0, 0, taken 0x24 0 [1], 0, 1, by decide +kernel, rfl, by decide +kernel⟩

theorem witness_siMinRaise_full : ∃ (s : State) (ring : Nat) (idx : Nat) (k : Cmd),
    s.mbCmd ring idx 0x24 = some k ∧ (∀ m < 8, (s.begin_ ring idx).siMin m ≠ 0) :=
  ⟨withCmd ((List.range 8).foldl (fun (s : State) n => s.wr (cadReg (0x10 + 4 * n)) 1) owned) 0x24 0 [], 0, 0, taken 0x24 0 [], by decide +kernel⟩

theorem witness_siMinRaise_value : ∃ (s : State) (ring : Nat) (idx : Nat) (k : Cmd),
    s.mbCmd ring idx 0x24 = some k ∧ (∃ m < 8, (s.begin_ ring idx).siMin m = 0) ∧ ((s.begin_ ring idx).si.current = [] ∨ k.arg 8 4 = 0 ∨ imgVersion (s.begin_ ring idx).si.current < k.arg 8 4 ∨ ∃ m < 8, k.arg 8 4 ≤ (s.begin_ ring idx).siMin m) :=
  ⟨withCmd owned 0x24 0 [0], 0, 0, taken 0x24 0 [0], by decide +kernel⟩

theorem witness_cadExtCmd : ∃ (s : State) (r : Requester) (v : Nat),
    mayExtend r (v % 8) = true ∧ s.caddy.ext.length < 4 :=
  ⟨State.reset, .steward, 4, by decide +kernel⟩

theorem witness_cadExtCmd_full : ∃ (s : State) (r : Requester) (v : Nat),
    mayExtend r (v % 8) = true ∧ 4 ≤ s.caddy.ext.length :=
  ⟨{ State.reset with caddy := { State.reset.caddy with ext := List.replicate 4 (0, 0) } }, .steward, 4, by decide +kernel⟩

theorem witness_cadExtCmd_denied : ∃ (s : State) (r : Requester) (v : Nat),
    mayExtend r (v % 8) = false :=
  ⟨State.reset, .pcie, 0, by decide +kernel⟩

theorem witness_trngOkReturn : ∃ (s : State) (a : Nat),
    a ≠ cadReg 4 ∧ s.regsWf = true :=
  ⟨State.reset, 0, by decide +kernel⟩

theorem witness_attest_none : ∃ (s : State) (ring : Nat) (idx : Nat),
    s.mbCmd ring idx 0x20 = none :=
  ⟨owned, 0, 0, by decide +kernel⟩

theorem witness_certRead_none : ∃ (s : State) (ring : Nat) (idx : Nat),
    s.mbCmd ring idx 0x21 = none :=
  ⟨owned, 0, 0, by decide +kernel⟩

theorem witness_ownerEnrol_none : ∃ (s : State) (ring : Nat) (idx : Nat) (v : SigVerdict),
    s.mbCmd ring idx 0x22 = none :=
  ⟨owned, 0, 0, ⟨true, true⟩, by decide +kernel⟩

theorem witness_ownerEnrol_waits : ∃ (s : State) (ring : Nat) (idx : Nat) (k : Cmd) (v : SigVerdict),
    s.mbCmd ring idx 0x22 = some k ∧ s.lpReady (k.arg 8 6) (0x840 + sigLen) = false :=
  ⟨withCmd owned 0x22 0 [], 0, 0, taken 0x22 0 [], ⟨true, true⟩, by decide +kernel⟩

theorem witness_ownerRevoke_none : ∃ (s : State) (ring : Nat) (idx : Nat) (v : SigVerdict),
    s.mbCmd ring idx 0x23 = none :=
  ⟨owned, 0, 0, ⟨true, true⟩, by decide +kernel⟩

theorem witness_ownerRevoke_waits : ∃ (s : State) (ring : Nat) (idx : Nat) (k : Cmd) (v : SigVerdict),
    s.mbCmd ring idx 0x23 = some k ∧ s.lpReady (k.arg 8 6) (0x840 + sigLen) = false :=
  ⟨withCmd owned 0x23 0 [], 0, 0, taken 0x23 0 [], ⟨true, true⟩, by decide +kernel⟩

theorem witness_siMinRaise_none : ∃ (s : State) (ring : Nat) (idx : Nat),
    s.mbCmd ring idx 0x24 = none :=
  ⟨owned, 0, 0, by decide +kernel⟩

theorem witness_attest_waits : ∃ (s : State) (ring : Nat) (idx : Nat) (k : Cmd),
    s.mbCmd ring idx 0x20 = some k ∧ (s.lpReady (k.arg 8 6) 64 = false ∨ s.lpReady (k.arg 0x10 6) 4141 = false) :=
  ⟨withCmd owned 0x20 0 [], 0, 0, taken 0x20 0 [], by decide +kernel, .inl (by decide +kernel)⟩

theorem witness_attest_unread : ∃ (s : State) (ring : Nat) (idx : Nat) (k : Cmd) (n : RdRes) (u : State),
    s.mbCmd ring idx 0x20 = some k ∧ s.lpReady (k.arg 8 6) 64 = true ∧ s.lpReady (k.arg 0x10 6) 4141 = true ∧ k.arg 0x10 6 % 64 = 0 ∧ bit ((s.begin_ ring idx).rd (cadReg 4)) 0 = true ∧ (s.begin_ ring idx).memRead .caddy (k.arg 8 6) 64 = (n, u) ∧ n.err ≠ none :=
  ⟨attestUnread, 0, 0, taken 0x20 0 [0xC0, 0xFF, 0xFF, 0xFF, 0xFF, 1], ((attestUnread.begin_ 0 0).memRead .caddy 0x1FFFFFFFFC0 64).1, ((attestUnread.begin_ 0 0).memRead .caddy 0x1FFFFFFFFC0 64).2, by decide +kernel, by decide +kernel, by decide +kernel, by decide +kernel, by decide +kernel, rfl, by decide +kernel⟩

theorem witness_certRead_waits : ∃ (s : State) (ring : Nat) (idx : Nat) (k : Cmd) (len : Nat) (put : Nat),
    s.mbCmd ring idx 0x21 = some k ∧ (len = Config.certLength (k.arg 8 8) (if k.arg 8 8 < 2 then 0 else s.caddy.keyGen)) ∧ put = min len (k.arg 0x18 4) ∧ s.lpReady (k.arg 0x10 6) (max 1 put) = false :=
  ⟨withCmd owned 0x21 0 [], 0, 0, taken 0x21 0 [], _, _, by decide +kernel, rfl, rfl, (show State.lpReady (withCmd owned 0x21 0 []) 0 (max 1 (min (Config.certLength _ _) 0)) = false from (by rw [Nat.min_zero]; decide +kernel))⟩

theorem witness_fwSwitchover_waits : ∃ (s : State),
    (s.urn.fwStaged = none ∨ s.fwState ≠ 1 ∨ s.si.current = [] ∨ s.atBoundary (imgFallback s.si.current) = false ∨ s.clock.urn < s.urn.fwStagedAt + 2000000 ∨ s.si.hotDev = true ∨ s.si.hotPend.contains (imgFallback s.si.current) = true ∨ s.urn.active ≠ []) :=
  ⟨State.reset, .inl rfl⟩

theorem witness_confirm_other : ∃ (s : State) (r : Requester),
    (r ≠ .steward ∨ s.fwState ≠ 3 ∨ s.urn.fwHb = false ∨ s.urn.fwSwitchAt + 10000000 ≤ s.clock.urn) :=
  ⟨State.reset, .pcie, .inl (by decide)⟩

theorem witness_fwSwitchFail_waits : ∃ (s : State),
    ((s.fwState ≠ 2 ∧ s.fwState ≠ 3) ∨ s.clock.urn < s.urn.fwSwitchAt + 10000000) :=
  ⟨State.reset, .inl (by decide +kernel)⟩

theorem witness_flashRewriteEnd_none : ∃ (s : State) (b : Bool),
    s.fwState ≠ 4 :=
  ⟨State.reset, true, by decide +kernel⟩

theorem witness_recoveryPoll_waits : ∃ (s : State) (v : SigVerdict),
    (s.power.recovery = false ∨ s.clock.aon < s.power.pollAt + 1000000 ∨ s.lpReady 0 64 = false) :=
  ⟨State.reset, ⟨true, true⟩, .inl rfl⟩

theorem witness_stateEntryComplete_exit : ∃ (s : State) (u : State),
    s.pmBusy = true ∧ s.power.exiting = true ∧ s.pmState ≠ 3 ∧ u = ((s.setFld (pmReg 0) 3 0 0).setFld (pmReg 0) 7 4 0).leaveRefresh :=
  ⟨leaving, _, by decide +kernel, by decide +kernel, by decide +kernel, rfl⟩

theorem witness_stateEntryComplete_off : ∃ (s : State),
    s.pmBusy = true ∧ s.power.exiting = false ∧ s.pmTarget = 4 :=
  ⟨entering 4, by decide +kernel⟩

theorem witness_stateEntryComplete : ∃ (s : State) (u : State),
    s.pmBusy = true ∧ s.power.exiting = false ∧ s.pmTarget ≠ 4 ∧ (s.parkSet s.pmTarget).all (fun p => s.power.parked.contains p) = true ∧ u = s.enterState s.pmTarget :=
  ⟨entering 1, _, by decide +kernel, by decide +kernel, by decide +kernel, by decide +kernel, rfl⟩

theorem witness_stateEntryComplete_waits : ∃ (s : State),
    (s.pmBusy = false ∨ (s.power.exiting = true ∧ s.pmState = 3) ∨ (s.power.exiting = false ∧ s.pmTarget ≠ 4 ∧ (s.parkSet s.pmTarget).all (fun p => s.power.parked.contains p) = false)) :=
  ⟨State.reset, Or.inl (by decide +kernel)⟩

theorem witness_wakeSource : ∃ (s : State) (w : Nat),
    w < 4 ∧ s.wakeEn w = true ∧ s.power.resetN = true ∧ s.power.shut = false ∧ (1 ≤ s.pmState ∧ s.pmState ≤ 3) ∧ s.pmBusy = false :=
  ⟨asleep 1, 2, by decide +kernel⟩

theorem witness_wakeSource_entering : ∃ (s : State) (w : Nat),
    w < 4 ∧ s.wakeEn w = true ∧ s.power.resetN = true ∧ s.power.shut = false ∧ s.pmBusy = true ∧ s.power.exiting = false ∧ (1 ≤ s.pmTarget ∧ s.pmTarget ≤ 3) :=
  ⟨falling, 2, by decide +kernel⟩

theorem witness_wakeSource_off : ∃ (s : State) (w : Nat),
    (4 ≤ w ∨ s.wakeEn w = false ∨ s.power.resetN = false ∨ s.power.shut = true ∨ (s.pmState = 0 ∧ s.pmBusy = false) ∨ (s.pmState = 0 ∧ s.power.exiting = true)) :=
  ⟨State.reset, 9, Or.inl (by decide +kernel)⟩

theorem witness_wakeSource_exiting : ∃ (s : State) (w : Nat),
    w < 4 ∧ s.wakeEn w = true ∧ s.power.resetN = true ∧ s.power.shut = false ∧ (1 ≤ s.pmState ∧ s.pmState ≤ 3) ∧ s.pmBusy = true ∧ s.power.exiting = true :=
  ⟨wakingUp, 2, by decide +kernel⟩

theorem witness_pmWakeReq : ∃ (s : State) (r : Requester),
    s.partOf r = some s.watchPart :=
  ⟨watched, .sequencer 0, by decide +kernel⟩

theorem witness_pmWakeReq_other : ∃ (s : State) (r : Requester),
    s.partOf r ≠ some s.watchPart :=
  ⟨State.reset, .steward, by decide +kernel⟩

theorem witness_alarm : ∃ (s : State),
    s.clock.aon * 32768 / 1000000000 % 2 ^ 64 = s.rd64 (pmReg 0x18) :=
  ⟨State.reset, by decide +kernel⟩

theorem witness_alarm_not : ∃ (s : State),
    s.clock.aon * 32768 / 1000000000 % 2 ^ 64 ≠ s.rd64 (pmReg 0x18) :=
  ⟨at_ 1000000 State.reset, by decide +kernel⟩

theorem witness_switchedRailsInRange : ∃ (s : State),
    s.pmState = 3 ∧ s.power.exiting = true ∧ s.power.railEn = true ∧ bit (s.rd (pmReg 0xC0)) 31 = false :=
  ⟨retained 0, by decide +kernel⟩

theorem witness_switchedRailsInRange_none : ∃ (s : State),
    (s.pmState ≠ 3 ∨ s.power.exiting = false ∨ s.power.railEn = false ∨ bit (s.rd (pmReg 0xC0)) 31 = true) :=
  ⟨State.reset, Or.inl (by decide +kernel)⟩

theorem witness_railTimeout : ∃ (s : State),
    s.pmState = 3 ∧ s.power.exiting = true ∧ s.power.railEn = true ∧ s.power.railAt + 50000000 ≤ s.clock.aon :=
  ⟨retained 50000000, by decide +kernel⟩

theorem witness_railTimeout_early : ∃ (s : State),
    (s.pmState ≠ 3 ∨ s.power.exiting = false ∨ s.power.railEn = false ∨ s.clock.aon < s.power.railAt + 50000000) :=
  ⟨State.reset, Or.inl (by decide +kernel)⟩

theorem witness_powerUp : ∃ (s : State) (n : Nat) (u : State),
    (u = if s.fld (urnReg 0xA018) 31 28 = 4 then { s with caddy := { s.caddy with flash := [] } } else s) :=
  ⟨State.reset, 1000, _, rfl⟩

theorem witness_avs : ∃ (s : State) (rb : Option Nat) (target : Nat) (cmd : Nat),
    s.stewardUp = true ∧ s.pmState ≤ 2 ∧ target = (max 650 (min 850 ((Config.avsTarget [s.fresh] : Int) + s.avsMargin))).toNat ∧ (cmd = if s.fld (pmReg 0x80) 15 0 = 0 then target else if s.fld (pmReg 0x80) 15 0 < target then min target (s.fld (pmReg 0x80) 15 0 + 5) else max target (s.fld (pmReg 0x80) 15 0 - 5)) :=
  ⟨State.reset, none, _, _, by decide +kernel, by decide +kernel, rfl, rfl⟩

theorem witness_thermalSample_off : ∃ (s : State) (l : List Nat),
    s.pmState = 4 :=
  ⟨atPower 4, [], by decide +kernel⟩

theorem witness_thermalSample_retain : ∃ (s : State) (l : List Nat) (t : Int),
    s.pmState = 3 ∧ t = ((l.take 16).map tempOf).headD 0 :=
  ⟨atPower 3, [2200], _, by decide +kernel, rfl⟩

theorem witness_thermalSample_short : ∃ (s : State) (l : List Nat),
    s.pmState ≤ 2 ∧ l.length < 16 :=
  ⟨State.reset, [], by decide +kernel⟩

theorem witness_avs_off : ∃ (s : State) (rb : Option Nat),
    (s.stewardUp = false ∨ 2 < s.pmState) :=
  ⟨atPower 3, none, .inr (by decide +kernel)⟩

theorem witness_thermalSample : ∃ (s : State) (temps : List Nat) (l : List Int) (good : List Int) (tj : Int) (u : State),
    s.pmState ≤ 2 ∧ l = (temps.take 16).map tempOf ∧ l.length = 16 ∧ good = l.filter (tempValid l) ∧ (tj = (if bit (s.rd (pmReg 0x20)) 31 then max (if good.isEmpty then toSigned 16 (s.fld (pmReg 0x20) 15 0) else good.foldl max (good.headD 0)) 2080 else if good.isEmpty then toSigned 16 (s.fld (pmReg 0x20) 15 0) else good.foldl max (good.headD 0))) ∧ (u = ((List.range 16).foldl (fun (u : State) (k : Nat) => if (l.map (tempValid l)).getD k false then u.wr (pmReg (0x40 + 4 * k)) (2 ^ 31 + ofSigned 16 (l.getD k 0)) else State.raise (u.wr (pmReg (0x40 + 4 * k)) (ofSigned 16 (l.getD k 0))) .pmSensorFail 7 { unit := k, info0 := ofSigned 16 (l.getD k 0) }) s).setFld (pmReg 0x20) 15 0 (ofSigned 16 tj)) :=
  ⟨State.reset, List.replicate 16 400, _, _, _, _, by decide +kernel, rfl, by decide +kernel, rfl, rfl, rfl⟩

theorem witness_railOutOfRange : ∃ (s : State) (n : Nat),
    s.pmState ≤ 2 ∧ s.power.pwrGood = true ∧ n < 9 :=
  ⟨State.reset, 2, by decide +kernel⟩

theorem witness_railOutOfRange_low : ∃ (s : State) (n : Nat),
    (2 < s.pmState ∨ s.power.pwrGood = false ∨ 9 ≤ n) :=
  ⟨atPower 3, 2, Or.inl (by decide +kernel)⟩

theorem witness_pmGpioOut : ∃ (s : State) (r : Requester) (v : Nat) (a : Nat),
    a ≠ pmReg 0xC4 ∧ s.regsWf = true :=
  ⟨State.reset, .steward, 1, 0, by decide +kernel⟩


theorem witness_EmptyQueueIdles : State.reset.pending = [] ∧ State.reset.caddy.ext = [] ∧ (∀ e ∈ State.reset.ending, State.reset.tick.ct < e.2.2.2) :=
  ⟨rfl, rfl, fun _ h => nomatch h⟩
theorem witness_SynthesisedTimeAdvances : ∃ (s t : State) (e q : Int), s.pending = [] ∧ s.pmState < 3 ∧ step s = .next t ∧ (∀ e ∈ s.ending, s.tick.ct < e.2.2.2) ∧
    s.tb.jump = 0 ∧ s.tb.offset < 2 ^ 63 ∧ e = max (-549755813) (min 549755813 (toSigned 32 (s.rd (tbReg 0x28)) + s.tb.rem.sign * (s.fld (tbReg 0x3C) 29 0 : Nat))) ∧ q = s.tb.sacc + (e - toSigned 32 (s.rd (tbReg 0x28))) :=
  ⟨State.reset, _, _, _, rfl, by decide +kernel, rfl, (fun _ h => nomatch h), rfl, by decide, rfl, rfl⟩


theorem witness_StepKeepsCanonicalForms : ∃ s t : State, s.mem.wf = true ∧ s.regsWf = true ∧ step s = .next t :=
  ⟨{ State.reset with pending := [.cadTrngFail] }, _, by decide +kernel, by decide +kernel, rfl⟩

theorem witness_AlwaysOnClock : (∃ t, step State.reset = .next t ∧ State.reset.pending = []) ∧
    (∃ t, step { State.reset with pending := [.powerUp 0] } = .next t) ∧ ∃ t, step { State.reset with pending := [.alarm] } = .next t :=
  ⟨⟨_, rfl, rfl⟩, ⟨_, rfl⟩, ⟨_, rfl⟩⟩
theorem witness_RawTimeOnlyPasses : ∃ (c : Instr) (s t : State), exec c s = .next t := ⟨.alarm, State.reset, _, rfl⟩

theorem witness_BytesWrittenAreRead : ∃ s t : State, s.mem.wf = true ∧ s.memWrite .steward (spAddr 0 0) [1, 2] = (none, t) ∧ s.partWords (spAddr 0 0) 2 = [] ∧
    (∀ i < 2, s.servedLater .steward (spAddr 0 0 + i) = false) ∧ regionOf (spAddr 0 0) = .scratch 0 0 ∧ s.now.olds = [] ∧ (t.memRead .steward (spAddr 0 0) 2).1.err = none :=
  ⟨State.reset, (State.reset.memWrite .steward (spAddr 0 0) [1, 2]).2, by decide +kernel, pair_eq (by decide +kernel), by decide +kernel, by decide +kernel,
    by decide +kernel, by decide +kernel, by decide +kernel⟩
theorem witness_AccessCodes : (∃ f : RegField, f.lo ≤ f.hi ∧ f.acc = .ro) ∧ (∃ f : RegField, f.lo ≤ f.hi ∧ f.acc = .rwl ∧ f.lo ≤ 3) ∧ (∃ f : RegField, f.lo ≤ f.hi ∧ f.acc = .rw) ∧
    (∃ f : RegField, f.lo ≤ f.hi ∧ f.acc = .w1c) ∧ ∃ f : RegField, f.lo ≤ f.hi ∧ f.acc = .w1s :=
  ⟨⟨⟨7, 4, .ro, 0⟩, by decide⟩, ⟨⟨7, 0, .rwl, 0⟩, by decide⟩, ⟨⟨7, 7, .rw, 0⟩, by decide⟩, ⟨⟨0, 0, .w1c, 0⟩, by decide⟩, ⟨⟨31, 0, .w1s, 0⟩, by decide⟩⟩
theorem witness_TimesCompareAcrossTheWrap : ∃ a b : Nat, a < b + 2 ^ 63 ∧ b < a + 2 ^ 63 ∧ a % 2 ^ 64 > b % 2 ^ 64 ∧ a ≤ b := ⟨2 ^ 64 - 1, 2 ^ 64, by decide⟩

theorem witness_PowerCommandsPermitted : (∃ (s : State) (r : Requester), ¬ (r = .steward ∨ s.isMaster r = true ∨ ∃ h, r = .hart h)) ∧
    ∃ (s : State) (r : Requester), r = .steward ∨ s.isMaster r = true ∨ ∃ h, r = .hart h :=
  ⟨⟨State.reset, .sequencer 0, by simp [State.isMaster]⟩, ⟨State.reset, .hart 2, Or.inr (Or.inr ⟨2, rfl⟩)⟩⟩
theorem witness_PllLossOfLock : ∃ (s : State) (n : Nat), n < 16 ∧ s.regsWf = true := ⟨State.reset, 15, by decide +kernel⟩
theorem witness_FullPendingTableHasNoWindow : ∃ (s t : State) (sev : Nat), (sev = 3 ∨ sev = 4) ∧ s.scopeStopped 0 = false ∧ t.scopeStopped 0 = true :=
  ⟨State.reset.setRecState 0 0, State.reset.setRecState 0 1, 3, Or.inl rfl, by decide +kernel, by decide +kernel⟩
theorem witness_ClusterResetEmptiesTags : ∃ (s : State) (c : Nat) (k : Clock), c < 64 ∧ s.tags = [] ∧ s.full c 0 = true ∧ State.ct { s with clock := k } = s.ct + 1 :=
  ⟨State.reset.wr (clReg 0 0xC00) 1, 0, ⟨2, 0, 0⟩, by decide +kernel, by decide +kernel, by decide +kernel, by decide +kernel⟩
theorem witness_NoWindowOpensForeignMemory : ∃ (s : State) (ga a d o : Nat), s.localOf (s.normGa ga) = some a ∧ regionOf a = .scratch d o ∧ s.ownerOf d ≠ s.ownerOf 0 :=
  ⟨{ State.reset with si := { Si.none with parts := [{ PartRec.absent with active := true, pairs := 1 }, PartRec.absent, PartRec.absent, PartRec.absent, PartRec.absent] } },
    127 * 2 ^ 41 + spAddr 2 0, spAddr 2 0, 2, 0, by decide +kernel, by decide +kernel, by decide +kernel⟩

theorem witness_NoWindowOpensForeignMemory_pool : ∃ (s : State) (ga a o : Nat), s.localOf (s.normGa ga) = some a ∧ regionOf a = .pool o ∧
    assoc s.poolBanks (o / 0x80000) ≠ s.ownerOf 0 :=
  ⟨owned, 127 * 2 ^ 41 + 0x11000000000, 0x11000000000, 0, by decide +kernel, by decide +kernel, by decide +kernel⟩

theorem witness_NoWindowOpensForeignMemory_counters : ∃ (s : State) (ga a w : Nat), s.localOf (s.normGa ga) = some a ∧ regionOf a = .chipCtr w ∧
    assoc s.ctrGroups (w / 16) ≠ s.ownerOf 0 :=
  ⟨owned, 127 * 2 ^ 41 + 0x11010000088, 0x11010000088, 17, by decide +kernel, by decide +kernel, by decide +kernel⟩

theorem witness_NoWindowOpensForeignMemory_lpddr6 : ∃ (s : State) (ga a : Nat), s.localOf (s.normGa ga) = some a ∧ regionOf a = .lpddr ∧
    (s.lpFind a).map Prod.fst ≠ s.ownerOf 0 :=
  ⟨State.reset, 127 * 2 ^ 41, 0, by decide +kernel, by decide +kernel, by decide +kernel⟩
theorem witness_PackedLanes : ∃ i j : Nat, i < 4 ∧ j < 2 ∧ sublane 8 0x80FF0102 i = 0x80 ∧ sublane 16 0x3F804000 j = 0x3F80 := ⟨3, 1, by decide⟩

end Sys2Proof.Tests
end

section
/-! SUPPORT. Bits of a field: what `bits` and `setBits` hold bit by bit. -/

namespace Sys2Proof.Machine

theorem bit_eq_testBit (v n : Nat) : bit v n = v.testBit n := by
  rw [Nat.testBit_eq_decide_div_mod_eq, bit, beq_eq_decide]

/-- A field [hi:lo] holds at its bit n − lo what the number holds at bit n. -/
theorem testBit_bits {v hi lo n : Nat} (hl : lo ≤ n) (hh : n ≤ hi) : (bits v hi lo).testBit (n - lo) = v.testBit n := by
  rw [bits, Nat.testBit_mod_two_pow, Nat.testBit_div_two_pow, Nat.sub_add_cancel hl,
    decide_eq_true (show n - lo < hi + 1 - lo by omega), Bool.true_and]

/-- A number with a field replaced, as three pieces one above the other. -/
theorem setBits_eq (v hi lo x : Nat) (h : lo ≤ hi) :
    setBits v hi lo x = 2 ^ lo * (2 ^ (hi + 1 - lo) * (v / 2 ^ (hi + 1)) + x % 2 ^ (hi + 1 - lo)) + v % 2 ^ lo := by
  have hp : 2 ^ (hi + 1) = 2 ^ lo * 2 ^ (hi + 1 - lo) := by rw [← pow_add]; congr 1; omega
  calc setBits v hi lo x
      = v / 2 ^ (hi + 1) * (2 ^ lo * 2 ^ (hi + 1 - lo)) + x % 2 ^ (hi + 1 - lo) * 2 ^ lo + v % 2 ^ lo := by
        rw [setBits]; congr 3
    _ = _ := by ring

theorem testBit_setBits (v hi lo x n : Nat) (h : lo ≤ hi) :
    (setBits v hi lo x).testBit n = if lo ≤ n ∧ n ≤ hi then x.testBit (n - lo) else v.testBit n := by
  rw [setBits_eq v hi lo x h, Nat.testBit_two_pow_mul_add _ (Nat.mod_lt _ (Nat.two_pow_pos lo)),
    Nat.testBit_two_pow_mul_add _ (Nat.mod_lt _ (Nat.two_pow_pos (hi + 1 - lo))),
    Nat.testBit_mod_two_pow, Nat.testBit_mod_two_pow, Nat.testBit_div_two_pow]
  by_cases hlo : n < lo
  · rw [if_pos hlo, if_neg (by omega), decide_eq_true hlo, Bool.true_and]
  · by_cases hhi : n - lo < hi + 1 - lo
    · rw [if_neg hlo, if_pos hhi, if_pos (by omega), decide_eq_true hhi, Bool.true_and]
    · rw [if_neg hlo, if_neg hhi, if_neg (by omega), show n - lo - (hi + 1 - lo) + (hi + 1) = n by omega]

/-- Bit by bit, what is left of `x` once the bits it shares with `y` are taken away. -/
theorem testBit_sub_and (n : Nat) : ∀ x y : Nat, (x - (x &&& y)).testBit n = (x.testBit n && !y.testBit n) := by
  have parity : ∀ x y : Nat, (x &&& y) % 2 = 1 ↔ x % 2 = 1 ∧ y % 2 = 1 := fun _ _ => Nat.and_mod_two_eq_one
  induction n with
  | zero =>
    intro x y
    have hp := parity x y
    have hle : x &&& y ≤ x := Nat.and_le_left
    simp only [Nat.testBit_zero]
    generalize x &&& y = z at hp hle
    rw [Bool.eq_iff_iff]
    simp only [decide_eq_true_eq, Bool.and_eq_true, Bool.not_eq_true', decide_eq_false_iff_not]
    omega
  | succ n ih =>
    intro x y
    have hp := parity x y
    have hle : x &&& y ≤ x := Nat.and_le_left
    have hhalf : (x - (x &&& y)) / 2 = x / 2 - (x &&& y) / 2 := by
      generalize x &&& y = z at hp hle
      omega
    rw [Nat.testBit_succ, Nat.testBit_succ, Nat.testBit_succ, hhalf, Nat.and_div_two, ih]

/-- Outside the field written every bit keeps its value. -/
theorem bit_setBits_outside {v hi lo x n : Nat} (h : lo ≤ hi) (hn : ¬ (lo ≤ n ∧ n ≤ hi)) : bit (setBits v hi lo x) n = bit v n := by
  rw [bit_eq_testBit, bit_eq_testBit, testBit_setBits v hi lo x n h, if_neg hn]

/-- Inside the field written each bit is that of the value written. -/
theorem bit_setBits_inside {v hi lo x n : Nat} (hn : lo ≤ n ∧ n ≤ hi) : bit (setBits v hi lo x) n = x.testBit (n - lo) := by
  rw [bit_eq_testBit, testBit_setBits v hi lo x n (hn.1.trans hn.2), if_pos hn]

end Sys2Proof.Machine
end

section
/-! SUPPORT. A register write by access code, bit by bit (R11, R12). -/

namespace Sys2Proof.Machine

variable {locked : Bool} {now w v n : Nat} {f : RegField}

theorem writeField_readOnly (ha : f.acc = .ro ∨ f.acc = .wo) : writeField locked now w v f = v := by
  rcases ha with ha | ha <;> simp only [writeField, ha]

theorem writeField_locked (ha : f.acc = .rwl) (hl : locked = true) : writeField locked now w v f = v := by
  simp only [writeField, ha, hl, if_true]

theorem writeField_plain (ha : f.acc = .rw ∨ (f.acc = .rwl ∧ locked = false)) :
    writeField locked now w v f = setBits v f.hi f.lo (bits w f.hi f.lo) := by
  rcases ha with ha | ⟨ha, hl⟩
  · simp only [writeField, ha]
  · simp only [writeField, ha, hl, Bool.false_eq_true, if_false]

theorem writeField_w1c (ha : f.acc = .w1c) : writeField locked now w v f =
    setBits v f.hi f.lo (bits v f.hi f.lo - (bits v f.hi f.lo &&& bits w f.hi f.lo) ||| (bits v f.hi f.lo &&& bits now f.hi f.lo)) := by
  simp only [writeField, ha]

theorem writeField_w1s (ha : f.acc = .w1s) :
    writeField locked now w v f = setBits v f.hi f.lo (bits v f.hi f.lo ||| bits w f.hi f.lo) := by
  simp only [writeField, ha]

/-- Whatever its access code, a field written leaves the register as it was or replaces that field. -/
theorem writeField_cases (locked : Bool) (now w v : Nat) (f : RegField) :
    writeField locked now w v f = v ∨ ∃ x, writeField locked now w v f = setBits v f.hi f.lo x := by
  cases ha : f.acc with
  | ro => exact .inl (writeField_readOnly (.inl ha))
  | wo => exact .inl (writeField_readOnly (.inr ha))
  | rw => exact .inr ⟨_, writeField_plain (.inl ha)⟩
  | w1c => exact .inr ⟨_, writeField_w1c ha⟩
  | w1s => exact .inr ⟨_, writeField_w1s ha⟩
  | rwl =>
    cases hl : locked with
    | true => exact .inl (writeField_locked ha rfl)
    | false => exact .inr ⟨_, writeField_plain (.inr ⟨ha, rfl⟩)⟩

theorem bit_writeField_outside (hf : f.lo ≤ f.hi) (hn : ¬ (f.lo ≤ n ∧ n ≤ f.hi)) : bit (writeField locked now w v f) n = bit v n := by
  rcases writeField_cases locked now w v f with h | ⟨x, h⟩
  · rw [h]
  · rw [h, bit_setBits_outside hf hn]

theorem bit_writeField_plain (hn : f.lo ≤ n ∧ n ≤ f.hi) (ha : f.acc = .rw ∨ (f.acc = .rwl ∧ locked = false)) :
    bit (writeField locked now w v f) n = bit w n := by
  rw [writeField_plain ha, bit_setBits_inside hn, testBit_bits hn.1 hn.2, bit_eq_testBit]

theorem bit_writeField_w1c (hn : f.lo ≤ n ∧ n ≤ f.hi) (ha : f.acc = .w1c) :
    bit (writeField locked now w v f) n = (bit v n && (!bit w n || bit now n)) := by
  rw [writeField_w1c ha, bit_setBits_inside hn, Nat.testBit_or, testBit_sub_and, Nat.testBit_and, testBit_bits hn.1 hn.2, testBit_bits hn.1 hn.2,
    testBit_bits hn.1 hn.2, bit_eq_testBit, bit_eq_testBit, bit_eq_testBit, Bool.and_or_distrib_left]

theorem bit_writeField_w1s (hn : f.lo ≤ n ∧ n ≤ f.hi) (ha : f.acc = .w1s) :
    bit (writeField locked now w v f) n = (bit v n || bit w n) := by
  rw [writeField_w1s ha, bit_setBits_inside hn, Nat.testBit_or, testBit_bits hn.1 hn.2, testBit_bits hn.1 hn.2, bit_eq_testBit, bit_eq_testBit]

/-- Settles O48: each access code through what it writes in its field, bit by bit. -/
theorem accessCodes : Obligations.AccessCodes := by
  intro locked now w v n f hf
  exact ⟨writeField_readOnly, writeField_locked, bit_writeField_outside hf, bit_writeField_plain, bit_writeField_w1c, bit_writeField_w1s⟩

end Sys2Proof.Machine
end

section
/-! SUPPORT. Ticks and nanoseconds (R13), and the idle nanosecond of an empty queue. -/

namespace Sys2Proof.Machine

theorem nsToCt_eq (n : Nat) : nsToCt n = (3 * n + 3) / 4 := rfl

theorem State.ct_eq (s : State) : s.ct = 3 * s.clock.ns / 4 := rfl

/-- Settles O50: both counts are quotients by 4, one rounded up and one rounded down. -/
theorem ticksAndNanoseconds : Obligations.TicksAndNanoseconds := by
  intro n s
  simp only [nsToCt_eq, State.ct_eq]
  refine ⟨by omega, by omega, fun m hm => by omega, by omega, by omega⟩

/-- A digest written goes into registers alone. -/
theorem State.wrDigest_regs (s : State) (a : Nat) (d : Digest) : ∃ regs, s.wrDigest a d = { s with regs := regs } := by
  unfold State.wrDigest
  generalize List.range 16 = l
  induction l generalizing s with
  | nil => exact ⟨s.regs, rfl⟩
  | cons k l ih => exact ih (s.wr (a + 4 * k) _)

/-- An extension of a measurement register and the show of those that wait change registers alone. -/
theorem State.showExt_extendMr_regs (s : State) (n : Nat) (d : Digest) : ∃ regs, (s.extendMr n d).showExt = { s with regs := regs } := by
  obtain ⟨regs, h⟩ := s.wrDigest_regs (mrReg n) (Config.sha512 (digestBytes (s.rdDigest (mrReg n)) ++ digestBytes d))
  rw [State.extendMr, h]
  exact ⟨_, rfl⟩

/-- With no extension waiting nothing is applied. -/
theorem State.applyExt_none (s : State) (h : s.caddy.ext = []) : s.applyExt = s := by
  simp only [State.applyExt, h]

/-- An extension that waits changes registers and the Caddy's queue alone (R492). -/
theorem State.applyExt_frame (s : State) : ∃ regs caddy, s.applyExt = { s with regs := regs, caddy := caddy } := by
  unfold State.applyExt
  split
  · exact ⟨s.regs, s.caddy, rfl⟩
  · next n d rest _ =>
    obtain ⟨regs, h⟩ := State.showExt_extendMr_regs { s with caddy := { s.caddy with ext := rest } } n d
    exact ⟨regs, _, h⟩

/-- Where no cluster share is due, none ends and all of them wait on. -/
theorem State.endDue_none (s : State) (h : ∀ e ∈ s.ending, s.ct < e.2.2.2) : s.endDue = s := by
  have none_due : (s.ending.filter fun e => decide (e.2.2.2 ≤ s.ct)) = [] := by
    rw [List.filter_eq_nil_iff]
    intro e he
    simpa using h e he
  have all_wait : (s.ending.filter fun e => decide (s.ct < e.2.2.2)) = s.ending :=
    List.filter_eq_self.2 fun e he => by simpa using h e he
  simp only [State.endDue, none_due, all_wait, List.foldl_nil]

/-- A nanosecond moves the three clocks, but in Retain and Off the always-on clock alone (R13, R360). -/
theorem State.tick_clock (s : State) : s.tick.clock =
    if 3 ≤ s.pmState then { s.clock with aon := s.clock.aon + 1 } else ⟨s.clock.ns + 1, s.clock.urn + 1, s.clock.aon + 1⟩ := by
  unfold State.tick
  split <;> rfl

/-- A nanosecond counts in raw time, but not in Retain and Off (R348). -/
theorem State.tick_raw (s : State) : s.tick.tb.raw = if 3 ≤ s.pmState then s.tb.raw else s.tb.raw + 1 := by
  unfold State.tick
  split <;> rfl

theorem State.tick_aon (s : State) : s.tick.clock.aon = s.clock.aon + 1 := by
  rw [s.tick_clock]
  split <;> rfl

/-- A nanosecond leaves everything but the clocks and the timebase. -/
theorem State.tick_fields (s : State) : s.tick.pending = s.pending ∧ s.tick.regs = s.regs ∧ s.tick.mem = s.mem ∧
    s.tick.caddy = s.caddy ∧ s.tick.ending = s.ending := by
  unfold State.tick
  split <;> exact ⟨rfl, rfl, rfl, rfl, rfl⟩

theorem step_empty (s : State) (h : s.pending = []) : step s = .next s.tick.applyExt.endDue := by
  simp only [step, h]

/-- Settles O38: after the tick only the Caddy's oldest extension and the cluster shares that are due change anything more. -/
theorem emptyQueueIdles : Obligations.EmptyQueueIdles := by
  intro s hs
  obtain ⟨hpending, hregs, hmem, hcaddy, hending⟩ := s.tick_fields
  have hk : Kept s.tick s.tick.applyExt.endDue := State.endDue_kept (State.applyExt_kept (Kept.refl _))
  refine ⟨_, step_empty s hs, hk.pending.trans (hpending.trans hs), hk.aon.trans s.tick_aon, fun hd => ?_⟩
  obtain ⟨regs, caddy, hx⟩ := s.tick.applyExt_frame
  have hstay : s.tick.applyExt.endDue = s.tick.applyExt :=
    State.endDue_none _ (by rw [hx]; exact fun e he => hd e (hending ▸ he))
  rw [hstay]
  refine ⟨by rw [hx]; exact hmem, by rw [hx]; exact s.tick_clock, by rw [hx]; exact s.tick_raw, fun hext => ?_⟩
  rw [s.tick.applyExt_none (hcaddy ▸ hext)]
  exact ⟨hregs, hcaddy⟩

end Sys2Proof.Machine
end

section
/-! SUPPORT. Registers reached by address (R9, R10, R19, R23): a request to a mapped register, to an address no register has, and the
two words of a pair. -/

namespace Sys2Proof.Machine

theorem exec_registerWrite (r : Requester) (addr width v : Nat) (s : State) :
    exec (.registerWrite r addr width v) s = execRegisterWrite r addr width v s := rfl

theorem exec_counterLowRead (r : Requester) (addr : Nat) (s : State) :
    exec (.counterLowRead r addr) s = execCounterLowRead r addr s := rfl

theorem isReg_of_regionOf {addr a : Nat} {m : Bool} (h : regionOf addr = .reg a m) : isReg addr = true := by
  simp only [isReg, h]

/-- An access that succeeds aborts no task. -/
theorem State.failTask_none (s : State) (r : Requester) : s.failTask r none = s := by
  simp only [State.failTask]

/-- A write that the host link and the windows let through is performed or staged. -/
theorem exec_registerWrite_granted {s : State} {r : Requester} {addr width : Nat} (v : Nat)
    (hp : ¬ (r = .pcie ∧ (bit (s.rd (peReg 0)) 0 = false ∨ s.isMaster r = false)))
    (hg : s.grants r (127 * 2 ^ 41 + addr) width .write = true) :
    exec (.registerWrite r addr width v) s = .next (s.regRequest r addr width v) := by
  have hup : ¬ (r = .pcie ∧ bit (s.rd (peReg 0)) 0 = false) := fun h => hp ⟨h.1, .inl h.2⟩
  have hmaster : ¬ (r = .pcie ∧ s.isMaster r = false) := fun h => hp ⟨h.1, .inr h.2⟩
  rw [exec_registerWrite, execRegisterWrite, if_neg hup, if_neg hmaster, if_neg (by rw [hg]; decide)]

/-- A read that the host link and the windows let through is answered. -/
theorem exec_counterLowRead_granted {s : State} {r : Requester} {addr : Nat}
    (hp : ¬ (r = .pcie ∧ bit (s.rd (peReg 0)) 0 = false)) (hg : s.grants r (127 * 2 ^ 41 + addr) 4 .read = true) :
    exec (.counterLowRead r addr) s = .next (((s.regRead r addr 4).2.failTask r (s.regRead r addr 4).1.err).answer r
      (respOf r (s.regRead r addr 4).1.err) (s.regRead r addr 4).1.bytes) := by
  rw [exec_counterLowRead, execCounterLowRead, if_neg hp, if_neg (by rw [hg]; decide)]

theorem State.regWrite_mapped {s : State} {addr a : Nat} (r : Requester) (v : Nat) (hm : s.mapped addr 4 = true)
    (ha : regionOf addr = .reg a false) : s.regWrite r addr 4 v = (none, s.writeReg r a v) := by
  simp only [State.regWrite, hm, ha, Bool.false_eq_true, if_false, show (4 : Nat) ≠ 8 by decide]

theorem State.regWrite_unmapped {s : State} {addr width : Nat} (r : Requester) (v : Nat) (hm : s.mapped addr width = false) :
    s.regWrite r addr width v = (some .unmapped, s.raiseReq .addrUnmapped r addr) := by
  simp only [State.regWrite, hm]

theorem State.regRead_mapped {s : State} {addr a : Nat} (r : Requester) (hm : s.mapped addr 4 = true)
    (ha : regionOf addr = .reg a false) : s.regRead r addr 4 = (⟨leBytes 4 (s.readReg a).1, none⟩, (s.readReg a).2) := by
  simp only [State.regRead, hm, ha, show (4 : Nat) ≠ 8 by decide, if_false]

/-- A write that no staging queue takes is performed at once. -/
theorem State.regRequest_performed {s : State} {r : Requester} {addr a : Nat} (v : Nat) (hm : s.mapped addr 4 = true)
    (ha : regionOf addr = .reg a false) (hs : stagingSrc r = none ∨ s.computePart a = none) :
    s.regRequest r addr 4 v = (s.writeReg r a v).wrote r .ok := by
  have hperf : (((s.regWrite r addr 4 v).2.failTask r (s.regWrite r addr 4 v).1).wrote r (respOf r (s.regWrite r addr 4 v).1)) =
      (s.writeReg r a v).wrote r .ok := by
    rw [State.regWrite_mapped r v hm ha, State.failTask_none]
    rfl
  simp only [State.regRequest, isReg_of_regionOf ha, hm, ha, Bool.and_self, if_true]
  rcases hs with hs | hs
  · simp only [hs, hperf]
  · cases hsrc : stagingSrc r <;> simp only [hs, hperf]

/-- A write to an address that no register has is reported and its task aborts, staging source or not. -/
theorem State.regRequest_unmapped {s : State} {addr width : Nat} (r : Requester) (v : Nat) (hm : s.mapped addr width = false) :
    s.regRequest r addr width v =
      ((s.raiseReq .addrUnmapped r addr).failTask r (some .unmapped)).wrote r (respOf r (some .unmapped)) := by
  simp only [State.regRequest, hm, Bool.and_false, Bool.false_eq_true, if_false, State.regWrite_unmapped r v hm]

theorem leBytes_length (n : Nat) : ∀ v : Nat, (leBytes n v).length = n := by
  induction n with
  | zero => exact fun _ => rfl
  | succ n ih => exact fun v => congrArg (· + 1) (ih (v / 256))

/-- A staging queue with room takes an access at its end (R278). -/
theorem State.stagePut_room {s : State} {p src : Nat} {a : Access} {l : List Byte} (hk : a.kind = .write l)
    (hroom : stagedBytes (s.stage p src) + l.length ≤ 65536) :
    s.stagePut p src a none = (true, s.setStage p src (s.stage p src ++ [⟨s.ct, a, none, false⟩])) := by
  simp only [State.stagePut, hk, if_neg (Nat.not_lt.2 hroom)]

/-- A write from outside to a register of a partition enters that partition's staging queue (R23). -/
theorem State.regRequest_staged {s : State} {r : Requester} {addr a p src : Nat} (v : Nat) (hm : s.mapped addr 4 = true)
    (ha : regionOf addr = .reg a false) (hs : stagingSrc r = some src) (hc : s.computePart a = some p)
    (hroom : stagedBytes (s.stage p src) + 4 ≤ 65536) :
    s.regRequest r addr 4 v = (s.setStage p src (s.stage p src ++
      [⟨s.ct, ⟨r, 127 * 2 ^ 41 + addr, false, .write (leBytes 4 v), false⟩, none, false⟩])).wrote r .ok := by
  have hput := State.stagePut_room (s := s) (p := p) (src := src)
    (a := ⟨r, 127 * 2 ^ 41 + addr, false, .write (leBytes 4 v), false⟩) rfl (by rw [leBytes_length]; exact hroom)
  simp only [State.regRequest, isReg_of_regionOf ha, hm, ha, hs, hc, Bool.and_self, if_true, hput]

/-- A register that is not one of the timebase's four kinds of read with an effect of its own (R358, R359, R361). -/
def plainRead (a : Nat) : Prop :=
  a ≠ tbReg 0x10 ∧ a ≠ tbReg 0x510 ∧ ∀ e < 4, a ≠ tbReg (0x614 + 0x40 * e) ∧ a ≠ tbReg (0x628 + 0x40 * e)

/-- A read without an effect of its own is one of a pair's words, or changes nothing. -/
theorem State.readReg_plain (s : State) {a : Nat} (h : plainRead a) : s.readReg a =
    if isPairLow a then (s.regValue a, s.latchHi (a + 4) (s.regValue (a + 4)))
    else if isPairLow (a - 4) then s.takeHi a (s.regValue a) else (s.regValue a, s) := by
  obtain ⟨h1, h2, h3⟩ := h
  have hin : ¬ ((List.range 4).any fun e => a == tbReg (0x614 + 0x40 * e)) = true := by
    simp only [List.any_eq_true, List.mem_range, beq_iff_eq, not_exists, not_and]
    exact fun e he => (h3 e he).1
  have hout : ¬ ((List.range 4).any fun e => a == tbReg (0x628 + 0x40 * e)) = true := by
    simp only [List.any_eq_true, List.mem_range, beq_iff_eq, not_exists, not_and]
    exact fun e he => (h3 e he).2
  rw [State.readReg, if_neg h1, if_neg h2, if_neg hin, if_neg hout]

/-- The low word of a pair gives its value and latches the high word (R10). -/
theorem State.readReg_low (s : State) {a : Nat} (h : plainRead a) (hp : isPairLow a = true) :
    s.readReg a = (s.regValue a, s.latchHi (a + 4) (s.regValue (a + 4))) := by
  rw [s.readReg_plain h, if_pos hp]

/-- The high word of a pair gives the latched word, whatever the counter holds (R10). -/
theorem State.readReg_high (s : State) {a v : Nat} {l : List (Nat × Word)} (h : plainRead (a + 4)) (hp : isPairLow a = true)
    (hq : isPairLow (a + 4) = false) (hl : s.hiLatch = (a + 4, BitVec.ofNat 32 v) :: l) : (s.readReg (a + 4)).1 = v % 2 ^ 32 := by
  rw [s.readReg_plain h, if_neg (by rw [hq]; decide), Nat.add_sub_cancel, if_pos hp]
  simp only [State.takeHi, hl, assoc, if_true, BitVec.toNat_ofNat]

/-- Settles O1: a granted write is performed, staged or unmapped; a granted read answers the register's bytes. -/
theorem registerAccessCommands : Obligations.RegisterAccessCommands := by
  refine ⟨?_, ?_, ?_, ?_, ?_⟩
  · intro s r addr v a hp hg hm ha hs
    rw [exec_registerWrite_granted v hp hg, State.regRequest_performed v hm ha hs]
  · intro s r addr width v hp hg hm
    rw [exec_registerWrite_granted v hp hg, State.regRequest_unmapped r v hm]
  · intro s r addr v a p src hp hg hm ha hs hc hroom
    rw [exec_registerWrite_granted v hp hg, State.regRequest_staged v hm ha hs hc hroom]
  · intro s r addr a hp hg hm ha
    rw [exec_counterLowRead_granted hp hg, State.regRead_mapped r hm ha, State.failTask_none]
    rfl
  · intro s r addr a hp hg hm ha hlow h1 h2 h3
    rw [exec_counterLowRead_granted hp hg, State.regRead_mapped r hm ha, State.failTask_none, s.readReg_low ⟨h1, h2, h3⟩ hlow]
    rfl

/-- Settles O2: the low word's read puts the high word at the head of the latches, where the high word's read finds it. -/
theorem pairReads : Obligations.PairReads := by
  intro s u a hp hq hplain hu
  have hlow := s.readReg_low (hplain a (by simp)) hp
  rw [hlow] at hu ⊢
  exact ⟨rfl, rfl, u.readReg_high (hplain (a + 4) (by simp)) hp hq hu⟩

end Sys2Proof.Machine
end

section
/-! SUPPORT. Hang detection, heartbeats, partition resets, crash captures and the last-resort sequencer (R464 to R473): what each of
their commands does where it is due, and that it changes nothing before. -/

namespace Sys2Proof.Machine

variable (s : State)

/-! ## Hangs (R464, R465) -/

theorem hangContext_due (c x : Nat) (hx : x < 4) (hc : c < s.nClusters) (hr : s.ctxState c x = 1)
    (hd : (s.ctx c x).progressAt + s.rd (clReg c 0xB20) ≤ s.ct) :
    exec (.hangContext c x) s =
      .next ((s.setCtx c x { s.ctx c x with progressAt := s.ct }).raiseCl .hangContext c (some x) (8 * c) x 0 0) :=
  congrArg Host.Outcome.next (if_pos ⟨hx, hc, hr, hd⟩)

theorem hangContext_waits (c x : Nat)
    (h : 4 ≤ x ∨ s.nClusters ≤ c ∨ s.ctxState c x ≠ 1 ∨ s.ct < (s.ctx c x).progressAt + s.rd (clReg c 0xB20)) :
    exec (.hangContext c x) s = .next s :=
  congrArg Host.Outcome.next (if_neg fun ⟨hx, hc, hr, hd⟩ => by omega)

theorem exec_hangSequencer_owned {c p : Nat} (ho : s.ownerOf c = some p) : exec (.hangSequencer c) s =
    .next (if s.recState p = 0 ∧ c < s.nClusters ∧ s.wdogAt c + 2 ^ 20 ≤ s.ct then
      (s.wdogRestart c).raiseCl .hangSequencer c none (8 * c) 0 0 0 else s) := by
  change execHangSequencer c s = _
  simp only [execHangSequencer, ho]

theorem hangSequencer_due (c p : Nat) (ho : s.ownerOf c = some p) (hr : s.recState p = 0) (hc : c < s.nClusters)
    (hd : s.wdogAt c + 2 ^ 20 ≤ s.ct) :
    exec (.hangSequencer c) s = .next ((s.wdogRestart c).raiseCl .hangSequencer c none (8 * c) 0 0 0) := by
  rw [exec_hangSequencer_owned s ho, if_pos ⟨hr, hc, hd⟩]

theorem hangSequencer_waits (c p : Nat) (ho : s.ownerOf c = some p)
    (h : s.recState p ≠ 0 ∨ s.nClusters ≤ c ∨ s.ct < s.wdogAt c + 2 ^ 20) : exec (.hangSequencer c) s = .next s := by
  rw [exec_hangSequencer_owned s ho, if_neg fun ⟨hr, hc, hd⟩ => by omega]

theorem hangSequencer_unowned (c : Nat) (ho : s.ownerOf c = none) : exec (.hangSequencer c) s = .next s := by
  change execHangSequencer c s = _
  simp only [execHangSequencer, ho]

theorem clSeqWdog_restarts (r : Requester) (c : Nat) (hc : c < s.nClusters) : exec (.clSeqWdog r c) s = .next (s.wdogRestart c) :=
  congrArg Host.Outcome.next (if_pos hc)

theorem clSeqWdog_no_cluster (r : Requester) (c : Nat) (hc : s.nClusters ≤ c) : exec (.clSeqWdog r c) s = .next s :=
  congrArg Host.Outcome.next (if_neg (Nat.not_lt.2 hc))

theorem exec_hangTask_blocked {c n t since : Nat} {k : Task} (ht : (s.slot c n).task = some t) (hk : s.task t = some k)
    (hb : s.blockedFrom c n = some since) : exec (.hangTask c n) s =
    .next (if s.fld (stReg 0x6008) 15 0 ≠ 0 ∧ k.hangRaised = false ∧ since + 750000 * s.fld (stReg 0x6008) 15 0 < s.ct then
      (s.modTask t fun k => { k with hangRaised := true }).raise .hangTask k.part
        { info0 := k.rcd.index, task := some t, cluster := some c }
    else s) := by
  change execHangTask c n s = _
  simp only [execHangTask, ht, hb, Option.bind_some, hk]

theorem hangTask_due (c n t since : Nat) (k : Task) (ht : (s.slot c n).task = some t) (hk : s.task t = some k)
    (hb : s.blockedFrom c n = some since) (hl : s.fld (stReg 0x6008) 15 0 ≠ 0) (hr : k.hangRaised = false)
    (hd : since + 750000 * s.fld (stReg 0x6008) 15 0 < s.ct) : exec (.hangTask c n) s =
      .next ((s.modTask t fun k => { k with hangRaised := true }).raise .hangTask k.part
        { info0 := k.rcd.index, task := some t, cluster := some c }) := by
  rw [exec_hangTask_blocked s ht hk hb, if_pos ⟨hl, hr, hd⟩]

theorem hangTask_waits (c n t since : Nat) (k : Task) (ht : (s.slot c n).task = some t) (hk : s.task t = some k)
    (hb : s.blockedFrom c n = some since) (h : k.hangRaised = true ∨ s.ct ≤ since + 750000 * s.fld (stReg 0x6008) 15 0) :
    exec (.hangTask c n) s = .next s := by
  rw [exec_hangTask_blocked s ht hk hb, if_neg]
  rintro ⟨-, hr, hd⟩
  rcases h with h | h
  · exact Bool.false_ne_true (hr.symm.trans h)
  · exact absurd hd (Nat.not_lt.2 h)

theorem hangTask_none (c n : Nat) (h : s.fld (stReg 0x6008) 15 0 = 0 ∨ (s.slot c n).task = none ∨ s.blockedFrom c n = none) :
    exec (.hangTask c n) s = .next s := by
  change execHangTask c n s = _
  rcases h with h | h | h
  · simp only [execHangTask, h, ne_eq, not_true_eq_false, false_and, if_false]
    split <;> rfl
  · simp only [execHangTask, h, Option.bind_none]
  · simp only [execHangTask, h]
    split
    · next hn => cases hn
    · rfl

/-! ## Heartbeats (R472) -/

theorem exec_stewardHb_up (hu : s.stewardUp = true) : exec (.stewardHb false) s =
    .next (if s.rd (urnReg 0xA00C) ≠ s.urn.hbStewardSeen then
        { s with urn := { s.urn with hbStewardSeen := s.rd (urnReg 0xA00C), hbStewardAt := s.clock.urn } }
      else if s.urn.hbStewardAt + 500000 ≤ s.clock.urn then (s.raise .stewardHb 7 {}).holdSteward else s) := by
  change execStewardHb false s = _
  simp only [execStewardHb, hu, Bool.not_true, Bool.false_eq_true, if_false]

theorem stewardHb_down (b : Bool) (hu : s.stewardUp = false) : exec (.stewardHb b) s = .next s := by
  change execStewardHb b s = _
  simp only [execStewardHb, hu, Bool.not_false, if_true]

theorem stewardHb_mismatch (hu : s.stewardUp = true) :
    exec (.stewardHb true) s = .next (s.raise .stewardHb 7 { info0 := 1 }).holdSteward := by
  change execStewardHb true s = _
  simp only [execStewardHb, hu, Bool.not_true, Bool.false_eq_true, if_false, if_true]

theorem stewardHb_seen (hu : s.stewardUp = true) (hv : s.rd (urnReg 0xA00C) ≠ s.urn.hbStewardSeen) :
    exec (.stewardHb false) s =
      .next { s with urn := { s.urn with hbStewardSeen := s.rd (urnReg 0xA00C), hbStewardAt := s.clock.urn } } := by
  rw [exec_stewardHb_up s hu, if_pos hv]

theorem stewardHb_late (hu : s.stewardUp = true) (hv : s.rd (urnReg 0xA00C) = s.urn.hbStewardSeen)
    (hd : s.urn.hbStewardAt + 500000 ≤ s.clock.urn) :
    exec (.stewardHb false) s = .next (s.raise .stewardHb 7 {}).holdSteward := by
  rw [exec_stewardHb_up s hu, if_neg (not_not_intro hv), if_pos hd]

theorem stewardHb_waits (hv : s.rd (urnReg 0xA00C) = s.urn.hbStewardSeen) (hd : s.clock.urn < s.urn.hbStewardAt + 500000) :
    exec (.stewardHb false) s = .next s := by
  cases hu : s.stewardUp with
  | false => exact stewardHb_down s false hu
  | true => rw [exec_stewardHb_up s hu, if_neg (not_not_intro hv), if_neg (Nat.not_le.2 hd)]

theorem urnHbCheck_due (hu : s.stewardUp = true) (hd : s.urn.hbUrnAt + 1000000 ≤ s.clock.urn) : exec .urnHbCheck s =
    .next (if s.regValue (urnReg 0xA010) = s.urn.hbUrnSeen then s.takeover 3
      else { s with urn := { s.urn with hbUrnSeen := s.regValue (urnReg 0xA010), hbUrnAt := s.clock.urn } }) :=
  congrArg Host.Outcome.next (if_pos ⟨hu, hd⟩)

theorem urnHbCheck_waits (h : s.stewardUp = false ∨ s.clock.urn < s.urn.hbUrnAt + 1000000) : exec .urnHbCheck s = .next s := by
  refine congrArg Host.Outcome.next (if_neg ?_)
  rintro ⟨hu, hd⟩
  rcases h with h | h
  · exact Bool.false_ne_true (h.symm.trans hu)
  · exact absurd hd (Nat.not_le.2 h)

theorem stewardRestart_due (t : Nat) (ht : s.urn.stewardUpAt = some t) (hd : t ≤ s.clock.urn) :
    exec .stewardRestart s = .next s.restartSteward := by
  change execStewardRestart s = _
  simp only [execStewardRestart, ht, hd, if_true]

theorem stewardRestart_waits (h : ∀ t, s.urn.stewardUpAt = some t → s.clock.urn < t) : exec .stewardRestart s = .next s := by
  change execStewardRestart s = _
  cases ht : s.urn.stewardUpAt with
  | none => simp only [execStewardRestart, ht]
  | some t => simp only [execStewardRestart, ht, Nat.not_le.2 (h t ht), if_false]

/-! ## Partition resets (R467) -/

section
variable {s} {p : Nat} {r : ResetRec}

/-- The Steward takes a reset of a partition a step further where it runs and no firmware switchover holds step 1. -/
theorem reset_runs (hp : p ≤ 4) (hu : s.stewardUp = true) (hf : r.step = 1 → s.fld (urnReg 0xA018) 31 28 ≠ 3) :
    ¬ (4 < p ∨ s.stewardUp = false ∨ (r.step = 1 ∧ s.fld (urnReg 0xA018) 31 28 = 3)) := by
  rintro (h | h | ⟨h1, h3⟩)
  · exact absurd hp (Nat.not_le.2 h)
  · exact Bool.false_ne_true (h.symm.trans hu)
  · exact hf h1 h3

/-- A reset past its first step depends on no firmware switchover. -/
theorem later_step_runs {k : Nat} (hk : r.step = k) (h1 : k ≠ 1) : r.step = 1 → s.fld (urnReg 0xA018) 31 28 ≠ 3 :=
  fun h => absurd (hk.symm.trans h) h1

end

theorem partitionReset_stops (p : Nat) (r : ResetRec) (u v : State) (hr : s.resetRec p = some r) (hp : p ≤ 4) (hu : s.stewardUp = true)
    (hk : r.step = 1) (hf : s.fld (urnReg 0xA018) 31 28 ≠ 3) (hsafe : u = if s.recState p = 0 then s.safeState p 1 else s)
    (hv : v = (u.setRecState p 2).modReset p fun r => { r with step := 2 }) : exec (.partitionReset p) s =
      .next (State.errUpdate { v with urn := { v.urn with captureQueue := v.urn.captureQueue.filter (fun q => q != p) ++ [p] } }) := by
  change execPartitionReset p s = _
  simp only [execPartitionReset, hr, if_neg (reset_runs hp hu fun _ => hf)]
  simp only [hk, hv, hsafe]

theorem partitionReset_drains (p : Nat) (r : ResetRec) (hr : s.resetRec p = some r) (hp : p ≤ 4) (hu : s.stewardUp = true)
    (hk : r.step = 3) : exec (.partitionReset p) s = .next ((s.drainPart p).modReset p fun r => { r with step := 4 }) := by
  change execPartitionReset p s = _
  simp only [execPartitionReset, hr, if_neg (reset_runs hp hu (later_step_runs hk (by decide)))]
  simp only [hk]

theorem partitionReset_resets_units (p : Nat) (r : ResetRec) (hr : s.resetRec p = some r) (hp : p ≤ 4) (hu : s.stewardUp = true)
    (hk : r.step = 4) (hs : s.safeInHolds p = false) (hv : s.fld (pmReg 0x20) 30 28 ≠ 3) :
    exec (.partitionReset p) s = .next (s.resetUnits p true) := by
  change execPartitionReset p s = _
  simp only [execPartitionReset, hr, if_neg (reset_runs hp hu (later_step_runs hk (by decide)))]
  simp only [hk, hs, beq_false_of_ne hv, Bool.or_self, Bool.false_eq_true, if_false]

theorem partitionReset_trained (p : Nat) (r : ResetRec) (hr : s.resetRec p = some r) (hp : p ≤ 4) (hu : s.stewardUp = true)
    (hk : r.step = 5) (hc : s.chansReady p = true) :
    exec (.partitionReset p) s = .next (s.modReset p fun r => { r with step := 6 }) := by
  change execPartitionReset p s = _
  simp only [execPartitionReset, hr, if_neg (reset_runs hp hu (later_step_runs hk (by decide)))]
  simp only [hk, hc, if_true]

theorem partitionReset_tests (p : Nat) (r : ResetRec) (hr : s.resetRec p = some r) (hp : p ≤ 4) (hu : s.stewardUp = true)
    (hk : r.step = 6) : exec (.partitionReset p) s = .next (s.bootTests p) := by
  change execPartitionReset p s = _
  simp only [execPartitionReset, hr, if_neg (reset_runs hp hu (later_step_runs hk (by decide)))]
  simp only [hk]

theorem partitionReset_reloads (p : Nat) (r : ResetRec) (hr : s.resetRec p = some r) (hp : p ≤ 4) (hu : s.stewardUp = true)
    (hk : r.step = 7) : exec (.partitionReset p) s = .next (s.reloadProgram p) := by
  change execPartitionReset p s = _
  simp only [execPartitionReset, hr, if_neg (reset_runs hp hu (later_step_runs hk (by decide)))]
  simp only [hk]

theorem partitionReset_none (p : Nat) (hr : s.resetRec p = none) : exec (.partitionReset p) s = .next s := by
  change execPartitionReset p s = _
  simp only [execPartitionReset, hr]

/-- A step that is not the Steward's, or whose condition is not met, leaves the reset where it is. -/
theorem partitionReset_waits (p : Nat) (r : ResetRec) (hr : s.resetRec p = some r)
    (h : 4 < p ∨ s.stewardUp = false ∨ (r.step = 1 ∧ s.fld (urnReg 0xA018) 31 28 = 3) ∨ r.step = 0 ∨ r.step = 2 ∨ 7 < r.step ∨
      (r.step = 4 ∧ (s.safeInHolds p = true ∨ s.fld (pmReg 0x20) 30 28 = 3)) ∨ (r.step = 5 ∧ s.chansReady p = false)) :
    exec (.partitionReset p) s = .next s := by
  change execPartitionReset p s = _
  simp only [execPartitionReset, hr]
  by_cases hrun : 4 < p ∨ s.stewardUp = false ∨ (r.step = 1 ∧ s.fld (urnReg 0xA018) 31 28 = 3)
  · rw [if_pos hrun]
  · rw [if_neg hrun]
    rcases h with h | h | h | h0 | h2 | h7 | ⟨h4, hs | hv⟩ | ⟨h5, hc⟩
    · exact absurd (.inl h) hrun
    · exact absurd (.inr (.inl h)) hrun
    · exact absurd (.inr (.inr h)) hrun
    · simp only [h0]
    · simp only [h2]
    · obtain ⟨k, hk⟩ : ∃ k, r.step = k + 8 := ⟨r.step - 8, by omega⟩
      simp only [hk]
    · simp only [h4, hs, Bool.true_or, if_true]
    · simp only [h4, hv, beq_self_eq_true, Bool.or_true, if_true]
    · simp only [h5, hc, Bool.false_eq_true, if_false]

theorem resetOverrun_due (p : Nat) (r : ResetRec) (hr : s.resetRec p = some r) (hp : p < 5) (ho : r.overrun = false)
    (hd : r.since + 2500000000 < s.clock.urn) : exec (.resetOverrun p) s =
      .next ((s.modReset p fun r => { r with overrun := true }).raise .resetOverrun 7 { unit := p }) := by
  change execResetOverrun p s = _
  simp only [execResetOverrun, hr, if_pos (⟨hp, ho, hd⟩ : _ ∧ _ ∧ _)]

theorem resetOverrun_waits (p : Nat) (h : ∀ r, s.resetRec p = some r → 5 ≤ p ∨ r.overrun = true ∨ s.clock.urn ≤ r.since + 2500000000) :
    exec (.resetOverrun p) s = .next s := by
  change execResetOverrun p s = _
  cases hr : s.resetRec p with
  | none => simp only [execResetOverrun, hr]
  | some r =>
    have hn : ¬ (p < 5 ∧ r.overrun = false ∧ r.since + 2500000000 < s.clock.urn) := by
      rintro ⟨hp, ho, hd⟩
      rcases h r hr with h | h | h
      · omega
      · exact Bool.false_ne_true (ho.symm.trans h)
      · omega
    simp only [execResetOverrun, hr, if_neg hn]

/-! ## Crash captures (R469) -/

theorem crashCapture_starts (n : Nat) (hc : s.urn.capture = none) (hq : s.urn.captureQueue.contains n = true)
    (hl : s.urn.captureQueue.all (fun q => decide (n ≤ q)) = true) (hh : s.urn.urnHeld = false) :
    exec (.crashCapture n) s = .next { s with urn := { s.urn with capture := some (n, s.clock.urn) } } := by
  change execCrashCapture n s = _
  simp only [execCrashCapture, hc, if_pos (⟨hq, hl, hh⟩ : _ ∧ _ ∧ _)]

theorem crashCapture_waits (n : Nat) (hc : s.urn.capture = none)
    (h : n ∉ s.urn.captureQueue ∨ (∃ q ∈ s.urn.captureQueue, q < n) ∨ s.urn.urnHeld = true) :
    exec (.crashCapture n) s = .next s := by
  have hn : ¬ (s.urn.captureQueue.contains n = true ∧ (s.urn.captureQueue.all fun q => decide (n ≤ q)) = true ∧ s.urn.urnHeld = false) := by
    rintro ⟨hq, hl, hh⟩
    rcases h with h | ⟨q, hm, hlt⟩ | h
    · exact h (List.contains_iff_mem.1 hq)
    · exact absurd (of_decide_eq_true (List.all_eq_true.1 hl q hm)) (Nat.not_le.2 hlt)
    · exact Bool.false_ne_true (hh.symm.trans h)
  change execCrashCapture n s = _
  simp only [execCrashCapture, hc, if_neg hn]

theorem crashCapture_ends (n t : Nat) (hc : s.urn.capture = some (n, t)) :
    exec (.crashCapture n) s = .next ((s.captureEnd n false).afterCapture n) := by
  change execCrashCapture n s = _
  simp only [execCrashCapture, hc, if_true]

theorem crashCapture_other (n m t : Nat) (hc : s.urn.capture = some (m, t)) (hm : m ≠ n) : exec (.crashCapture n) s = .next s := by
  change execCrashCapture n s = _
  simp only [execCrashCapture, hc, if_neg hm]

theorem crashPartial_due (n t : Nat) (hc : s.urn.capture = some (n, t)) (hd : t + 5000000 ≤ s.clock.urn) :
    exec .crashPartial s = .next (((s.captureEnd n true).raise .crashPartial n {}).afterCapture n) := by
  change execCrashPartial s = _
  simp only [execCrashPartial, hc, if_pos hd]

theorem crashPartial_waits (h : ∀ n t, s.urn.capture = some (n, t) → s.clock.urn < t + 5000000) : exec .crashPartial s = .next s := by
  change execCrashPartial s = _
  match hc : s.urn.capture with
  | none => simp only [execCrashPartial, hc]
  | some (n, t) => simp only [execCrashPartial, hc, if_neg (Nat.not_le.2 (h n t hc))]

theorem clusterReset_asked (c : Nat) (u : State) (hc : s.urn.clusterQ.contains c = true)
    (hu : u = { s with urn := { s.urn with clusterQ := s.urn.clusterQ.filter fun q => q != c } }) :
    exec (.clusterReset c) s = .next (u.clusterReset c) := by
  rw [hu]
  exact congrArg Host.Outcome.next (if_pos hc)

theorem clusterReset_not_asked (c : Nat) (hc : c ∉ s.urn.clusterQ) : exec (.clusterReset c) s = .next s :=
  congrArg Host.Outcome.next (if_neg fun h => hc (List.contains_iff_mem.1 h))

/-! ## Device reset and the last-resort sequencer (R471, R473) -/

theorem deviceReset_captured (r : ResetRec) (hr : s.resetRec 7 = some r) (hk : r.step = 3) : exec .deviceReset s = .next s.deviceReset := by
  change execDeviceReset s = _
  simp only [execDeviceReset, hr, if_pos hk]

theorem deviceReset_waits (h : ∀ r, s.resetRec 7 = some r → r.step ≠ 3) : exec .deviceReset s = .next s := by
  change execDeviceReset s = _
  cases hr : s.resetRec 7 with
  | none => simp only [execDeviceReset, hr]
  | some r => simp only [execDeviceReset, hr, if_neg (h r hr)]

theorem lastResortTakeover_takes (k : Nat) (h1 : 1 ≤ k) (h4 : k ≤ 4) (hp : s.pmState < 3) :
    exec (.lastResortTakeover k) s = .next (s.takeover k) :=
  congrArg Host.Outcome.next (if_pos ⟨h1, h4, hp⟩)

theorem lastResortTakeover_waits (k : Nat) (h : k = 0 ∨ 4 < k ∨ 3 ≤ s.pmState) : exec (.lastResortTakeover k) s = .next s :=
  congrArg Host.Outcome.next (if_neg fun ⟨h1, h4, hp⟩ => by omega)

theorem pmLrsReq_takes : exec (.pmLrsReq .steward 0x5A5A) s = .next (s.takeover 3) :=
  congrArg Host.Outcome.next (if_pos (by decide))

theorem pmLrsReq_ignored (r : Requester) (v : Nat) (h : r ≠ .steward ∨ v ≠ 0x5A5A) : exec (.pmLrsReq r v) s = .next s := by
  refine congrArg Host.Outcome.next (if_neg fun ht => ?_)
  obtain ⟨hr, hv⟩ := Bool.and_eq_true_iff.1 ht
  exact h.elim (· (eq_of_beq hr)) (· (eq_of_beq hv))

theorem autoReset_due (t : Nat) (ht : s.urn.takeoverAt = some t) (ha : bit (s.rd (pmReg 0x90004)) 0 = true)
    (hd : t + 10000000 ≤ s.clock.aon) : exec .autoReset s = .next s.deviceReset := by
  change execAutoReset s = _
  simp only [execAutoReset, ht, if_pos (And.intro ha hd)]

theorem autoReset_waits (h : ∀ t, s.urn.takeoverAt = some t → bit (s.rd (pmReg 0x90004)) 0 = false ∨ s.clock.aon < t + 10000000) :
    exec .autoReset s = .next s := by
  change execAutoReset s = _
  cases ht : s.urn.takeoverAt with
  | none => simp only [execAutoReset, ht]
  | some t =>
    have hn : ¬ (bit (s.rd (pmReg 0x90004)) 0 = true ∧ t + 10000000 ≤ s.clock.aon) := by
      rintro ⟨ha, hd⟩
      rcases h t ht with h | h
      · exact Bool.false_ne_true (h.symm.trans ha)
      · exact absurd hd (Nat.not_le.2 h)
    simp only [execAutoReset, ht, if_neg hn]

/-- Settles O32: each command where it is due, in the order of its chapter, then each where it waits. -/
theorem hangsAndHeartbeats : Obligations.HangsAndHeartbeats :=
  ⟨hangContext_due, hangSequencer_due, clSeqWdog_restarts, hangTask_due, stewardHb_late, stewardHb_mismatch, stewardHb_seen, urnHbCheck_due,
    stewardRestart_due, partitionReset_stops, partitionReset_drains, partitionReset_resets_units, partitionReset_trained,
    partitionReset_tests, partitionReset_reloads, resetOverrun_due, crashCapture_starts, crashCapture_ends, crashPartial_due,
    clusterReset_asked, deviceReset_captured, lastResortTakeover_takes, pmLrsReq_takes, autoReset_due, hangContext_waits,
    hangSequencer_unowned, hangSequencer_waits, clSeqWdog_no_cluster, hangTask_none, hangTask_waits, stewardHb_down, stewardHb_waits,
    urnHbCheck_waits, stewardRestart_waits, partitionReset_none, partitionReset_waits, resetOverrun_waits, crashCapture_waits,
    crashCapture_other, crashPartial_waits, clusterReset_not_asked, deviceReset_waits, lastResortTakeover_waits, pmLrsReq_ignored,
    autoReset_waits⟩

end Sys2Proof.Machine
end

section
/-! SUPPORT. Mailbox commands by their taken entry (R399): one that may start runs on the state in which it has started, one that may not
changes nothing. -/

namespace Sys2Proof.Machine

theorem State.mbox_taken {s : State} {ring idx op : Nat} {k : Cmd} (f : Cmd → State → State) (h : s.mbCmd ring idx op = some k) :
    s.mbox ring idx op f = f k (s.begin_ ring idx) := by
  simp only [State.mbox, h]

theorem State.mbox_none {s : State} {ring idx op : Nat} (f : Cmd → State → State) (h : s.mbCmd ring idx op = none) :
    s.mbox ring idx op f = s := by
  simp only [State.mbox, h]

end Sys2Proof.Machine
end

section
/-! SUPPORT. Attention steps (R220 to R245): held sequence settings, the build and commit of a step, the items of ATTN_STEP, and what
stops it. -/

namespace Sys2Proof.Machine

variable (s : State)

/-! ## Held sets (R223, R224) -/

theorem exec_seqSet_taken {ring idx : Nat} {k : Cmd} (h : s.mbCmd ring idx 0x08 = some k) :
    exec (.seqSet ring idx) s = .next ((s.begin_ ring idx).seqSet ring idx k) :=
  congrArg Host.Outcome.next (State.mbox_taken _ h)

theorem seqSet_invalid (ring idx : Nat) (k : Cmd) (h : s.mbCmd ring idx 0x08 = some k) (hk : 4 ≤ k.part ∨ 1024 ≤ k.arg 8 2) :
    exec (.seqSet ring idx) s = .next ((s.begin_ ring idx).complete ring idx stInvalid 0 0) := by
  rw [exec_seqSet_taken s h, State.seqSet, if_pos hk]

theorem seqSet_rejected (ring idx : Nat) (k : Cmd) (h : s.mbCmd ring idx 0x08 = some k) (hp : k.part < 4) (hq : k.arg 8 2 < 1024)
    (h0 : 0 < k.arg 0x10 8) (hb : k.arg 0x10 8 ≤ (s.begin_ ring idx).rd64 (seqCtl k.part 8)) : exec (.seqSet ring idx) s =
      .next (((s.begin_ ring idx).raise .seqSetReject k.part { info0 := k.arg 8 2 }).complete ring idx stRefused 0 0) := by
  rw [exec_seqSet_taken s h, State.seqSet, if_neg (by omega), if_pos ⟨h0.ne', hb⟩, State.seqReject]

theorem seqSet_held (ring idx : Nat) (k : Cmd) (h : s.mbCmd ring idx 0x08 = some k) (hp : k.part < 4) (hq : k.arg 8 2 < 1024)
    (ha : k.arg 0x10 8 = 0 ∨ (s.begin_ ring idx).rd64 (seqCtl k.part 8) < k.arg 0x10 8) : exec (.seqSet ring idx) s =
      .next ((s.begin_ ring idx).hold ⟨ring, idx, k.part, k.arg 0x10 8, false, none, k.arg 8 2, sliceBytes k.entry 0x18 32⟩) := by
  rw [exec_seqSet_taken s h, State.seqSet, if_neg (by omega), if_neg (by omega)]

/-! ## Build and commit of a step (R222, R226, R227) -/

theorem exec_stepBuild (p : Nat) : exec (.stepBuild p) s = execStepBuild p s := rfl

/-- The launch at the head of the queue is built, or leaves the queue with its command aborted. -/
theorem stepBuild_builds {p : Nat} {q : QLaunch} {b : Bool × State} {u : State} (hq : s.stepLaunch p = some q) (hu : s.stewardUp = true)
    (hp : s.partRuns p = true) (hs : s.seqState p = 0) (hc : bit (s.rd (seqCtl p 4)) 0 = false) (hb : b = s.build p)
    (hleft : u = { b.2 with launchQ := b.2.launchQ.erase q }) :
    exec (.stepBuild p) s = .next (if b.1 then b.2 else q.cmd.elim u fun e => u.complete e.1 e.2 stAborted 0 0) := by
  rw [exec_stepBuild]
  simp only [execStepBuild, hq, hu, hp, hs, hc, beq_self_eq_true, Bool.not_false, Bool.and_self, if_true]
  rw [← hb, ← hleft]
  cases q.cmd <;> rfl

theorem stepBuild_exists (p : Nat) (q : QLaunch) (hq : s.stepLaunch p = some q) (hu : s.stewardUp = true) (hp : s.partRuns p = true)
    (hs : s.seqState p = 0) (hc : bit (s.rd (seqCtl p 4)) 0 = false) :
    ∃ b u, b = s.build p ∧ u = { b.2 with launchQ := b.2.launchQ.erase q } ∧
      exec (.stepBuild p) s = .next (if b.1 then b.2 else q.cmd.elim u fun e => u.complete e.1 e.2 stAborted 0 0) :=
  ⟨_, _, rfl, rfl, stepBuild_builds s hq hu hp hs hc rfl rfl⟩

theorem stepCommit_ended (p t : Nat) (k : Task) (ht : (s.step_ p).task = some t) (hk : s.task t = some k) (he : k.ended = true) :
    exec (.stepCommit p) s =
      .next (((if k.aborted then s else s.commit p).setStep p SeqStep.idle).setSeqState p 0 |>.applyDue p) := by
  change execStepCommit p s = _
  simp only [execStepCommit, ht, hk, he, if_true]

theorem stepCommit_none (p : Nat) (ht : (s.step_ p).task = none) (hp : p < 4) : exec (.stepCommit p) s = .next (s.applyDue p) := by
  change execStepCommit p s = _
  simp only [execStepCommit, ht, if_pos hp]

/-! ## ATTN_STEP (R229, R230) -/

section
variable (c x : Nat) (w : State) (hm : s.tilerMay c x = true) (ho : (s.opNow c x).getD 0x20 = 0x20) (hf : s.attFree c x = true)
  (hw : w = s.tilerTake c x)

include hm ho hf in
/-- The tiler takes an ATTN_STEP operator whose sequencer is free. -/
theorem attnStep_taken : ¬ (!s.tilerMay c x || !((s.opNow c x).getD 0x20 == 0x20) || !s.attFree c x) = true := by
  rw [hm, ho, hf]
  decide

include hm ho hf hw

theorem attnStep_starts (hp : (w.til c x).phase = 0) : exec (.attnStep c x) s = .next (w.attStart c x) := by
  subst hw
  exact congrArg Host.Outcome.next ((if_neg (attnStep_taken s c x hm ho hf)).trans (if_pos hp))

/-- A running ATTN_STEP goes on from its phase. -/
theorem exec_attnStep_running (hr : w.opRuns_ c x = true) : exec (.attnStep c x) s = .next (
    if (w.til c x).att.phase = 0 then w.attOpen c x
    else if (w.til c x).att.phase = 1 then (if w.item c x = 0xFFFFFFFF then w.attNext c x else w)
    else if x ≠ 4 ∧ w.ctxIdle c x = true then (w.opDoneShare c x).tilState c 0 else w) := by
  subst hw
  have hphase : ¬ ((s.tilerTake c x).til c x).phase = 0 := fun h0 => by
    simp only [State.opRuns_, h0, Bool.and_eq_true, beq_iff_eq] at hr
    omega
  have hruns : ¬ (!(s.tilerTake c x).opRuns_ c x) = true := by rw [hr]; decide
  change execAttnStep c x s = _
  simp only [execAttnStep, if_neg (attnStep_taken s c x hm ho hf), if_neg hphase, if_neg hruns]
  split
  · next h => simp only [h, if_true]
  · next h => simp only [h, Nat.one_ne_zero, if_true, if_false]
  · next h0 h1 => simp only [if_neg h0, if_neg h1]

theorem attnStep_opens (hr : w.opRuns_ c x = true) (hp : (w.til c x).att.phase = 0) :
    exec (.attnStep c x) s = .next (w.attOpen c x) := by
  rw [exec_attnStep_running s c x w hm ho hf hw hr, if_pos hp]

theorem attnStep_fetches (hr : w.opRuns_ c x = true) (hp : (w.til c x).att.phase = 1) (hi : w.item c x = 0xFFFFFFFF) :
    exec (.attnStep c x) s = .next (w.attNext c x) := by
  rw [exec_attnStep_running s c x w hm ho hf hw hr, if_neg (by omega), if_pos hp, if_pos hi]

theorem attnStep_holds (hr : w.opRuns_ c x = true) (hp : (w.til c x).att.phase = 1) (hi : w.item c x ≠ 0xFFFFFFFF) :
    exec (.attnStep c x) s = .next w := by
  rw [exec_attnStep_running s c x w hm ho hf hw hr, if_neg (by omega), if_pos hp, if_neg hi]

theorem attnStep_ends (hr : w.opRuns_ c x = true) (hp : (w.til c x).att.phase = 2) :
    exec (.attnStep c x) s = .next (if x ≠ 4 ∧ w.ctxIdle c x = true then (w.opDoneShare c x).tilState c 0 else w) := by
  rw [exec_attnStep_running s c x w hm ho hf hw hr, if_neg (by omega), if_neg (by omega)]

end

/-! ## Items (R230, R233) -/

theorem appendItem_held (c x k h : Nat) (r : StepRunRec) (u : State) (hm : s.attMay c x = true)
    (hh : s.attHeld c x = (some (r, k, h, none), u)) :
    exec (.appendItem c x) s = .next (((u.attState c 1 x).attShow c x).appendItem c x r k h) := by
  change execAppendItem c x s = _
  simp only [execAppendItem, hm, hh, Bool.not_true, Bool.false_eq_true, if_false]

theorem exec_attendItem (c x : Nat) : exec (.attendItem c x) s = execAttendItem c x s := rfl

/-- Where no count is waited for, an attend item is what the work list holds. -/
theorem attendItem_none {c x : Nat} {u : State} (hm : s.attMay c x = true) (hw : ∀ va need w, (s.til c x).work ≠ .waitCount va need :: w)
    (hh : s.attHeld c x = (none, u)) : exec (.attendItem c x) s = .next u := by
  rw [exec_attendItem]
  simp only [execAttendItem, hm, hh, Bool.not_true, Bool.false_eq_true, if_false]

theorem attendItem_held (c x k h g : Nat) (r : StepRunRec) (u : State) (hm : s.attMay c x = true)
    (hw : ∀ va need w, (s.til c x).work ≠ .waitCount va need :: w) (hh : s.attHeld c x = (some (r, k, h, some g), u)) :
    exec (.attendItem c x) s = .next ((u.attState c 2 x).attendItem c x r h g) := by
  rw [exec_attendItem]
  simp only [execAttendItem, hm, hh, Bool.not_true, Bool.false_eq_true, if_false]

theorem attendItem_waits (c x va need : Nat) (w : List Work) (hm : s.attMay c x = true) (hw : (s.til c x).work = .waitCount va need :: w)
    (hx : x ≠ 4) : exec (.attendItem c x) s = .next (s.attWait c x va need) := by
  rw [exec_attendItem]
  simp only [execAttendItem, hm, hw, Bool.not_true, Bool.false_eq_true, if_false, if_neg hx]

theorem items_none (c x : Nat) (u : State) (hm : s.attMay c x = true) (hw : ∀ va need w, (s.til c x).work ≠ .waitCount va need :: w)
    (hh : s.attHeld c x = (none, u)) : exec (.appendItem c x) s = .next u ∧ exec (.attendItem c x) s = .next u := by
  refine ⟨?_, attendItem_none s hm hw hh⟩
  change execAppendItem c x s = _
  simp only [execAppendItem, hm, hh, Bool.not_true, Bool.false_eq_true, if_false]

/-! ## Suspension and overrun (R239, R240) -/

/-- A requester of the sequencer's cluster resumes it, or the swapped-out slot that it was suspended for. -/
theorem exec_attResume_allowed {r : Requester} {c : Nat} (hw : s.mayWrite .stewardSeq r c = true) (hc : c < s.nClusters) :
    exec (.attResume r c) s =
      .next (if s.fld (attReg c 0) 2 0 = 5 then s.attResume c else s.resumeLater c fun v => v.attHeld) := by
  change execAttResume r c s = _
  simp only [execAttResume, hw, decide_eq_true hc, Bool.and_self, if_true, beq_iff_eq]

theorem attResume_suspended (r : Requester) (c x : Nat) (hw : s.mayWrite .stewardSeq r c = true) (hc : c < s.nClusters)
    (hs : s.fld (attReg c 0) 2 0 = 5) (hx : (s.att c).ctx = some x) :
    ∃ u, u = (s.setAtt c Att.idle).attState c 0 7 ∧ exec (.attResume r c) s =
      .next (if u.ctxState c x = 3 ∧ ((u.chansOf c x).any fun m => (u.chan c m).state == 4) = false then u.setCtxState c x 1 0 else u) := by
  refine ⟨_, rfl, ?_⟩
  rw [exec_attResume_allowed s hw hc, if_pos hs]
  simp only [State.attResume, hx]

theorem attResume_swapped (r : Requester) (c : Nat) (hw : s.mayWrite .stewardSeq r c = true) (hc : c < s.nClusters)
    (hs : s.fld (attReg c 0) 2 0 ≠ 5) : exec (.attResume r c) s = .next (s.resumeLater c fun v => v.attHeld) := by
  rw [exec_attResume_allowed s hw hc, if_neg hs]

/-- At MAX_CT a running timed ATTN_STEP ends its share where it has taken its last item and all it issued has ended. -/
theorem exec_attOverrun_due {c : Nat} (hc : c < s.nClusters) (ha : (s.til c 4).active = true) (hp : (s.til c 4).phase = 1)
    (hn : (s.til c 4).aborted = false) (ho : fieldAt (s.til c 4).desc 0 1 = 0x20)
    (hd : (s.til c 4).att.startAt + attMaxCt (s.til c 4).desc ≤ s.ct) : exec (.attOverrun c) s =
    .next (if (s.til c 4).att.phase = 2 ∧ s.ctxIdle c 4 = true then ((s.opDoneShare c 4).tilState c 0).attState c 0 7
      else ((((s.setFld (attReg c 0) 31 28 3).orReg (attReg c 0) (2 ^ 27)).raiseCl .attOverrun c (some 4) (8 * c + 2) 0
        (((s.setFld (attReg c 0) 31 28 3).orReg (attReg c 0) (2 ^ 27)).opIndex c 4) 0).abortCtx c 4 6)) := by
  change execAttOverrun c s = _
  simp only [execAttOverrun, decide_eq_true hc, ha, hp, hn, ho, decide_eq_true hd, beq_self_eq_true, Bool.not_false, Bool.and_self, if_true]

theorem attOverrun_ended (c : Nat) (hc : c < s.nClusters) (ha : (s.til c 4).active = true) (hp : (s.til c 4).phase = 1)
    (hn : (s.til c 4).aborted = false) (ho : fieldAt (s.til c 4).desc 0 1 = 0x20)
    (hd : (s.til c 4).att.startAt + attMaxCt (s.til c 4).desc ≤ s.ct) (h2 : (s.til c 4).att.phase = 2) (hi : s.ctxIdle c 4 = true) :
    exec (.attOverrun c) s = .next (((s.opDoneShare c 4).tilState c 0).attState c 0 7) := by
  rw [exec_attOverrun_due s hc ha hp hn ho hd, if_pos ⟨h2, hi⟩]

theorem attOverrun_raised (c : Nat) (u : State) (hc : c < s.nClusters) (ha : (s.til c 4).active = true) (hp : (s.til c 4).phase = 1)
    (hn : (s.til c 4).aborted = false) (ho : fieldAt (s.til c 4).desc 0 1 = 0x20)
    (hd : (s.til c 4).att.startAt + attMaxCt (s.til c 4).desc ≤ s.ct) (h : (s.til c 4).att.phase ≠ 2 ∨ s.ctxIdle c 4 = false)
    (hu : u = (s.setFld (attReg c 0) 31 28 3).orReg (attReg c 0) (2 ^ 27)) :
    exec (.attOverrun c) s = .next ((u.raiseCl .attOverrun c (some 4) (8 * c + 2) 0 (u.opIndex c 4) 0).abortCtx c 4 6) := by
  rw [exec_attOverrun_due s hc ha hp hn ho hd, if_neg, hu]
  rintro ⟨h2, hi⟩
  rcases h with h | h
  · exact h h2
  · exact Bool.false_ne_true (h.symm.trans hi)

/-- Settles O14: the commands of a step from its held sets to its overrun. -/
theorem attentionSteps : Obligations.AttentionSteps :=
  ⟨seqSet_invalid, seqSet_rejected, seqSet_held, stepBuild_exists, stepCommit_ended, stepCommit_none, attnStep_starts, attnStep_opens,
    attnStep_fetches, attnStep_holds, attnStep_ends, appendItem_held, items_none, attendItem_held, attendItem_waits, attResume_suspended,
    attOverrun_ended, attResume_swapped, attOverrun_raised⟩

end Sys2Proof.Machine
end

section
/-! SUPPORT. The pins: resets, the loss of power, the safe input, the temperature alert, and the captures of PPS_IN (R358, R385 to R387,
R410, R446, R525 to R529). -/

namespace Sys2Proof.Machine

variable (s : State)

/-! ## Reset pins (R410, R525, R527) -/

theorem resetN_levels : exec (.resetN true) s = .next (State.deviceReset { s with power := { s.power with resetN := false } }) ∧
    exec (.resetN false) s = .next { s with power := { s.power with resetN := true } } :=
  ⟨congrArg Host.Outcome.next (if_pos rfl), congrArg Host.Outcome.next (if_neg Bool.false_ne_true)⟩

/-- The internal reset may be released: RESET_N is high, no release has been, and the device is not shut. -/
theorem release_open (hr : s.power.resetN = true) (hl : s.power.released = false) (hs : s.power.shut = false) :
    (s.power.resetN && !s.power.released && !s.power.shut) = true := by
  rw [hr, hl, hs]
  rfl

theorem internalResetRelease_clean (straps : Nat) (hr : s.power.resetN = true) (hl : s.power.released = false)
    (hs : s.power.shut = false) : exec (.internalResetRelease straps .clean) s = .next (s.releaseReset straps) :=
  congrArg Host.Outcome.next (if_pos (release_open s hr hl hs))

theorem internalResetRelease_corrected (straps : Nat) (hr : s.power.resetN = true) (hl : s.power.released = false)
    (hs : s.power.shut = false) :
    exec (.internalResetRelease straps .corrected) s = .next ((s.releaseReset straps).raise .cadOtpCe 7 {}) :=
  congrArg Host.Outcome.next (if_pos (release_open s hr hl hs))

theorem internalResetRelease_lost (straps : Nat) (hr : s.power.resetN = true) (hl : s.power.released = false)
    (hs : s.power.shut = false) : exec (.internalResetRelease straps .lost) s =
      .next { s with power := { s.power with shut := true, errLow := true } } :=
  congrArg Host.Outcome.next (if_pos (release_open s hr hl hs))

theorem internalResetRelease_waits (straps : Nat) (otp : OtpRead)
    (h : s.power.resetN = false ∨ s.power.released = true ∨ s.power.shut = true) :
    exec (.internalResetRelease straps otp) s = .next s := by
  refine congrArg Host.Outcome.next (if_neg ?_)
  rcases h with h | h | h <;> simp [h]

/-! ## PERST# and PWR_GOOD (R385, R387, R446, R529) -/

theorem perstN_resets (e : Nat) (u v : State) (he : e < 4) (hu : u = ((s.setFld (peReg 0) 7 0 0).wr (peReg 8) 0).wr (peReg 0xC) 0)
    (hv : v = { u with st := { u.st with msixPend := 0, msixMask := 0 } }) : exec (.perstN e) s =
      .next (if bit (s.rd (peReg 0)) 0 = true ∧ (e = 1 ∨ e = 2) then v.raise .peLinkDown 7 { info0 := e } else v) := by
  change execPerstN e s = _
  simp only [execPerstN, if_pos he, hv, hu, Bool.and_eq_true, Bool.or_eq_true, beq_iff_eq]

theorem perstN_other (e : Nat) (he : 4 ≤ e) : exec (.perstN e) s = .next s :=
  congrArg Host.Outcome.next (if_neg (Nat.not_lt.2 he))

theorem exec_pwrGoodFall_up {u : State} (hr : s.power.resetN = true) (hp : s.power.pwrGood = true)
    (hu : u = if s.fld (urnReg 0xA018) 31 28 = 4 then { s with caddy := { s.caddy with flash := [] } } else s) :
    completes .pwrGoodFall s fun t => t = { State.deviceReset { u with power := { u.power with pwrGood := false } } with
      power := { (State.deviceReset { u with power := { u.power with pwrGood := false } }).power with errLow := true } } := by
  refine ⟨_, ?_, rfl⟩
  change execPwrGoodFall s = _
  simp only [execPwrGoodFall, hr, hp, Bool.and_self, if_true, hu]

theorem pwrGoodFall_resets (u : State) (hr : s.power.resetN = true) (hp : s.power.pwrGood = true)
    (hu : u = if s.fld (urnReg 0xA018) 31 28 = 4 then { s with caddy := { s.caddy with flash := [] } } else s) :
    completes .pwrGoodFall s fun t => t.power.errLow = true ∧
      { t with power := { t.power with errLow := (State.deviceReset { u with power := { u.power with pwrGood := false } }).power.errLow } } =
        State.deviceReset { u with power := { u.power with pwrGood := false } } := by
  obtain ⟨t, ht, hpower⟩ := exec_pwrGoodFall_up s hr hp hu
  generalize State.deviceReset { u with power := { u.power with pwrGood := false } } = d at hpower ⊢
  subst hpower
  exact ⟨_, ht, rfl, rfl⟩

theorem pwrGoodFall_ignored (h : s.power.resetN = false ∨ s.power.pwrGood = false) : exec .pwrGoodFall s = .next s := by
  refine congrArg Host.Outcome.next (if_neg ?_)
  rcases h with h | h <;> simp [h]

/-! ## SAFE_IN and TEMP_ALERT_N (R448, R515) -/

theorem safeIn_rises (u : State) (hl : (s.strain 26).level = false)
    (hu : u = (s.setStrain 26 { s.strain 26 with level := true }).strReport 26 true) : exec (.safeIn true) s =
      .next (((List.range 4).filter fun p => bit (u.rd (urnReg 0xC010)) p && (u.prec p).active).foldl
        (fun v p => v.safeInPart p) u).errUpdate := by
  change execSafeIn true s = _
  simp only [execSafeIn, hl, Bool.not_false, Bool.and_self, if_true, hu]

theorem safeIn_noted (b : Bool) (h : b = false ∨ (s.strain 26).level = true) : exec (.safeIn b) s =
    .next ((s.setStrain 26 { s.strain 26 with level := b }).strReport 26 b) := by
  refine congrArg Host.Outcome.next (if_neg ?_)
  rcases h with h | h <;> simp [h]

theorem tempAlertN_shows (b : Bool) : exec (.tempAlertN b) s = .next ((s.setFld (pmReg 0x20) 31 31 (b2n b)).strReport 27 b) ∧
    onlyRegs s ((s.setFld (pmReg 0x20) 31 31 (b2n b)).strReport 27 b) [pmReg 0x20, strReg 27 8] :=
  ⟨rfl, onlyRegs_trans (onlyRegs_setFld s _ _ _ _) (onlyRegs_setFld _ (strReg 27 8) _ _ _)⟩

/-! ## PPS_IN (R358) -/

/-- The oldest edge reported is taken from the strained input and captured. -/
theorem exec_ppsIn_edge {e a : Nat} {rest : List Nat} {u : State} (he : s.ppsStrain.edges = e :: rest) (ha : a = s.clock.ns - e)
    (hu : u = { s with strs := sparsePut Strain.idle s.strs 24 { s.ppsStrain with edges := rest } }) :
    exec .ppsIn s = .next (u.ppsPush a) := by
  change execPpsIn s = _
  simp only [execPpsIn, he, hu, ha]

theorem ppsIn_captured (e a : Nat) (rest : List Nat) (u : State) (he : s.ppsStrain.edges = e :: rest) (ha : a = s.clock.ns - e)
    (hu : u = { s with strs := sparsePut Strain.idle s.strs 24 { s.ppsStrain with edges := rest } }) (hroom : u.tb.pps.length < 4) :
    completes .ppsIn s fun t =>
      t.tb.pps = s.tb.pps ++ [(u.timeAgo a, ofSigned 64 ((s.tb.raw : Int) - a))] ∧ { t with tb := s.tb } = u := by
  have htb : u.tb = s.tb := by rw [hu]
  refine ⟨_, (exec_ppsIn_edge s he ha hu).trans (congrArg Host.Outcome.next (if_neg (Nat.not_le.2 hroom))), ?_, ?_⟩
  · rw [htb]
  · rw [← htb]

theorem ppsIn_lost (e a : Nat) (rest : List Nat) (u : State) (he : s.ppsStrain.edges = e :: rest) (ha : a = s.clock.ns - e)
    (hu : u = { s with strs := sparsePut Strain.idle s.strs 24 { s.ppsStrain with edges := rest } }) (hfull : 4 ≤ u.tb.pps.length) :
    exec .ppsIn s = .next (u.countUp (tbReg 0x514) 1) := by
  rw [exec_ppsIn_edge s he ha hu, State.ppsPush, if_pos hfull]

theorem ppsIn_none (he : s.ppsStrain.edges = []) : exec .ppsIn s = .next s := by
  change execPpsIn s = _
  simp only [execPpsIn, he]

/-- Settles O25: each pin's effect, and that none acts without its condition. -/
theorem pinsAndResets : Obligations.PinsAndResets :=
  ⟨resetN_levels, internalResetRelease_clean, internalResetRelease_corrected, internalResetRelease_lost, internalResetRelease_waits,
    perstN_resets, pwrGoodFall_resets, safeIn_rises, safeIn_noted, tempAlertN_shows, ppsIn_captured, ppsIn_lost, ppsIn_none, perstN_other,
    pwrGoodFall_ignored⟩

end Sys2Proof.Machine
end

section
/-! SUPPORT. The host's window on LPDDR6, the service of the rings, their configuration, and the mailbox commands that run at once (R388,
R395 to R404, R474). -/

namespace Sys2Proof.Machine

variable (s : State)

/-! ## BAR2 (R388, R404) -/

/-- The host may write where it is the master, or the device in recovery. -/
theorem host_may_write (h : s.isMaster .pcie = true ∨ s.power.recovery = true) : ¬ (!s.isMaster .pcie && !s.power.recovery) = true := by
  rcases h with h | h <;> simp [h]

theorem exec_bar2Write_reached {o a : Nat} {l : List Byte} (ha : s.bar2Addr o l.length = some a) : exec (.bar2Write o l) s =
    .next (if !s.isMaster .pcie && !s.power.recovery then s.notMaster .pcie
      else if lpddrTop < a + l.length then s.raiseReq .addrUnmapped .pcie a
      else if !s.lpReady a l.length then s else (s.memWrite .pcie a l).2) := by
  change execBar2Write o l s = _
  simp only [execBar2Write, ha]

theorem bar2Write_lands (o a : Nat) (l : List Byte) (ha : s.bar2Addr o l.length = some a)
    (hm : s.isMaster .pcie = true ∨ s.power.recovery = true) (ht : a + l.length ≤ lpddrTop) (hr : s.lpReady a l.length = true) :
    exec (.bar2Write o l) s = .next (s.memWrite .pcie a l).2 := by
  rw [exec_bar2Write_reached s ha, if_neg (host_may_write s hm), if_neg (Nat.not_lt.2 ht), if_neg (by rw [hr]; decide)]

theorem bar2Write_not_master (o a : Nat) (l : List Byte) (ha : s.bar2Addr o l.length = some a) (hm : s.isMaster .pcie = false)
    (hr : s.power.recovery = false) : exec (.bar2Write o l) s = .next (s.notMaster .pcie) := by
  rw [exec_bar2Write_reached s ha, if_pos (by rw [hm, hr]; rfl)]

theorem bar2Write_past_end (o a : Nat) (l : List Byte) (ha : s.bar2Addr o l.length = some a)
    (hm : s.isMaster .pcie = true ∨ s.power.recovery = true) (ht : lpddrTop < a + l.length) :
    exec (.bar2Write o l) s = .next (s.raiseReq .addrUnmapped .pcie a) := by
  rw [exec_bar2Write_reached s ha, if_neg (host_may_write s hm), if_pos ht]

theorem bar2Write_waits (o a : Nat) (l : List Byte) (ha : s.bar2Addr o l.length = some a)
    (hm : s.isMaster .pcie = true ∨ s.power.recovery = true) (ht : a + l.length ≤ lpddrTop) (hr : s.lpReady a l.length = false) :
    exec (.bar2Write o l) s = .next s := by
  rw [exec_bar2Write_reached s ha, if_neg (host_may_write s hm), if_neg (Nat.not_lt.2 ht), if_pos (by rw [hr]; rfl)]

theorem bar2Write_no_window (o : Nat) (l : List Byte) (ha : s.bar2Addr o l.length = none) : exec (.bar2Write o l) s = .next s := by
  change execBar2Write o l s = _
  simp only [execBar2Write, ha]

theorem exec_bar2Read_reached {o a n : Nat} (ha : s.bar2Addr o n = some a) : exec (.bar2Read o n) s =
    .next (if lpddrTop < a + n then (s.raiseReq .addrUnmapped .pcie a).answer .pcie .unsupported []
      else if !s.lpReady a n then s
      else (s.memRead .pcie a n).2.answer .pcie (respOf .pcie (s.memRead .pcie a n).1.err)
        (if (s.memRead .pcie a n).1.err = some .locked then [] else (s.memRead .pcie a n).1.bytes)) := by
  change execBar2Read o n s = _
  simp only [execBar2Read, ha]

theorem bar2Read_no_window (o n : Nat) (ha : s.bar2Addr o n = none) : exec (.bar2Read o n) s = .next s := by
  change execBar2Read o n s = _
  simp only [execBar2Read, ha]

theorem bar2Read_waits (o a n : Nat) (ha : s.bar2Addr o n = some a) (ht : a + n ≤ lpddrTop) (hr : s.lpReady a n = false) :
    exec (.bar2Read o n) s = .next s := by
  rw [exec_bar2Read_reached s ha, if_neg (Nat.not_lt.2 ht), if_pos (by rw [hr]; rfl)]

theorem bar2Read_answers (o a n : Nat) (d : RdRes) (u : State) (ha : s.bar2Addr o n = some a) (ht : a + n ≤ lpddrTop)
    (hr : s.lpReady a n = true) (hd : s.memRead .pcie a n = (d, u)) : exec (.bar2Read o n) s =
      .next (u.answer .pcie (respOf .pcie d.err) (if d.err = some .locked then [] else d.bytes)) := by
  rw [exec_bar2Read_reached s ha, if_neg (Nat.not_lt.2 ht), if_neg (by rw [hr]; decide), hd]

theorem bar2Read_past_end (o a n : Nat) (ha : s.bar2Addr o n = some a) (ht : lpddrTop < a + n) :
    exec (.bar2Read o n) s = .next ((s.raiseReq .addrUnmapped .pcie a).answer .pcie .unsupported []) := by
  rw [exec_bar2Read_reached s ha, if_pos ht]

/-! ## Rings (R395, R400, R401) -/

theorem hostServiceTick_due (hu : s.stewardUp = true) (hd : s.st.lastTick + s.fld (stReg 0x5000) 9 0 * 1000 ≤ s.clock.ns) :
    exec .hostServiceTick s =
      .next ((List.range 8).foldl (fun (v : State) n => v.visitRing n) { s.payOwed with st := { s.st with lastTick := s.clock.ns } }).payOwed :=
  congrArg Host.Outcome.next (if_pos (by rw [hu, decide_eq_true hd]; rfl))

theorem hostServiceTick_waits (h : s.stewardUp = false ∨ s.clock.ns < s.st.lastTick + s.fld (stReg 0x5000) 9 0 * 1000) :
    exec .hostServiceTick s = .next s := by
  refine congrArg Host.Outcome.next (if_neg ?_)
  rcases h with h | h
  · simp [h]
  · simp [Nat.not_le.2 h]

/-- Ring n is the requester's. -/
theorem ring_owned {r : Requester} {n : Nat} (hn : n < 8) (ho : s.ownsRing r n = true) : (decide (n < 8) && s.ownsRing r n) = true := by
  rw [decide_eq_true hn, ho]
  rfl

theorem ring_not_owned {r : Requester} {n : Nat} (h : s.ownsRing r n = false ∨ 8 ≤ n) : (decide (n < 8) && s.ownsRing r n) = false := by
  rcases h with h | h
  · rw [h, Bool.and_false]
  · rw [decide_eq_false (Nat.not_lt.2 h), Bool.false_and]

theorem ring_not_owner (r : Requester) (n v : Nat) (h : s.ownsRing r n = false ∨ 8 ≤ n) :
    exec (.ringCfgWrite r n v) s = .next (s.notMaster r) ∧ exec (.ringReset r n) s = .next (s.notMaster r) :=
  ⟨congrArg Host.Outcome.next (if_pos (by rw [ring_not_owned s h]; rfl)),
    congrArg Host.Outcome.next (if_neg (by rw [ring_not_owned s h]; decide))⟩

theorem ringReset_resets (r : Requester) (n : Nat) (hn : n < 8) (ho : s.ownsRing r n = true) :
    exec (.ringReset r n) s = .next (s.ringReset n) :=
  congrArg Host.Outcome.next (if_pos (ring_owned s hn ho))

/-- A configuration write of the ring's owner: with RESET, while enabled, or while disabled. -/
theorem exec_ringCfgWrite_owned {r : Requester} {n : Nat} (v : Nat) (hn : n < 8) (ho : s.ownsRing r n = true) :
    exec (.ringCfgWrite r n v) s =
      .next (if bit v 30 then (s.wr (stReg (0x5028 + n * 0x10)) (setBits (setBits (v % 2 ^ 21) 15 14 0) 7 4 0)).ringReset n
        else if bit (s.rd (stReg (0x5028 + n * 0x10))) 31 then s
        else s.wr (stReg (0x5028 + n * 0x10)) (setBits (setBits (v % 2 ^ 21) 15 14 0) 7 4 0 + bits v 31 31 * 2 ^ 31)) :=
  congrArg Host.Outcome.next (if_neg (by rw [ring_owned s hn ho]; decide))

theorem ringCfgWrite_resets (r : Requester) (n v : Nat) (hn : n < 8) (ho : s.ownsRing r n = true) (hb : bit v 30 = true) :
    exec (.ringCfgWrite r n v) s =
      .next ((s.wr (stReg (0x5028 + n * 0x10)) (setBits (setBits (v % 2 ^ 21) 15 14 0) 7 4 0)).ringReset n) := by
  rw [exec_ringCfgWrite_owned s v hn ho, if_pos hb]

theorem ringCfgWrite_enabled (r : Requester) (n v : Nat) (hn : n < 8) (ho : s.ownsRing r n = true) (hb : bit v 30 = false)
    (he : bit (s.rd (stReg (0x5028 + n * 0x10))) 31 = true) : exec (.ringCfgWrite r n v) s = .next s := by
  rw [exec_ringCfgWrite_owned s v hn ho, if_neg (by rw [hb]; decide), if_pos he]

theorem ringCfgWrite_disabled (r : Requester) (n v : Nat) (hn : n < 8) (ho : s.ownsRing r n = true) (hb : bit v 30 = false)
    (he : bit (s.rd (stReg (0x5028 + n * 0x10))) 31 = false) (hw : s.regsWf = true) :
    completes (.ringCfgWrite r n v) s fun t =>
      t.rd (stReg (0x5028 + n * 0x10)) = (setBits (setBits (v % 2 ^ 21) 15 14 0) 7 4 0 + bits v 31 31 * 2 ^ 31) % 2 ^ 32 ∧
      onlyRegs s t [stReg (0x5028 + n * 0x10)] := by
  refine ⟨_, ?_, s.rd_wr_same _ _ hw, onlyRegs_wr s _ _⟩
  rw [exec_ringCfgWrite_owned s v hn ho, if_neg (by rw [hb]; decide), if_neg (by rw [he]; decide)]

/-! ## Commands of the Steward (R399 to R403, R466, R474) -/

theorem progLoad_loads (ring idx : Nat) (k : Cmd) (g : Program) (h : s.mbCmd ring idx 0x03 = some k)
    (hr : s.lpReady (k.arg 8 6) (max 1 (k.arg 0x10 4)) = true) :
    exec (.progLoad ring idx g) s = .next ((s.begin_ ring idx).loadProgram ring idx k g) := by
  change execProgLoad ring idx g s = _
  simp only [execProgLoad, h, hr, if_true]

theorem progLoad_none (ring idx : Nat) (g : Program) (h : s.mbCmd ring idx 0x03 = none) : exec (.progLoad ring idx g) s = .next s := by
  change execProgLoad ring idx g s = _
  simp only [execProgLoad, h]

theorem progLoad_waits (ring idx : Nat) (k : Cmd) (g : Program) (h : s.mbCmd ring idx 0x03 = some k)
    (hr : s.lpReady (k.arg 8 6) (max 1 (k.arg 0x10 4)) = false) : exec (.progLoad ring idx g) s = .next s := by
  change execProgLoad ring idx g s = _
  simp only [execProgLoad, h, hr, Bool.false_eq_true, if_false]

theorem fwStage_stages (ring idx : Nat) (k : Cmd) (v : SigVerdict) (h : s.mbCmd ring idx 0x0F = some k)
    (hr : s.lpReady (k.arg 8 6) (max 1 (k.arg 0x10 4)) = true) :
    exec (.fwStage ring idx v) s = .next ((s.begin_ ring idx).fwStage ring idx k v) := by
  change execFwStage ring idx v s = _
  simp only [execFwStage, h, hr, if_true, State.mbox_taken _ h]

theorem fwStage_none (ring idx : Nat) (v : SigVerdict) (h : s.mbCmd ring idx 0x0F = none) : exec (.fwStage ring idx v) s = .next s := by
  change execFwStage ring idx v s = _
  simp only [execFwStage, h]

theorem fwStage_waits (ring idx : Nat) (k : Cmd) (v : SigVerdict) (h : s.mbCmd ring idx 0x0F = some k)
    (hr : s.lpReady (k.arg 8 6) (max 1 (k.arg 0x10 4)) = false) : exec (.fwStage ring idx v) s = .next s := by
  change execFwStage ring idx v s = _
  simp only [execFwStage, h, hr, Bool.false_eq_true, if_false]

theorem exec_partReset_taken {ring idx : Nat} {k : Cmd} (h : s.mbCmd ring idx 0x0E = some k) :
    exec (.partReset ring idx) s = .next ((s.begin_ ring idx).partReset ring idx k) :=
  congrArg Host.Outcome.next (State.mbox_taken _ h)

theorem partReset_asks (ring idx : Nat) (k : Cmd) (h : s.mbCmd ring idx 0x0E = some k) (hp : k.part ≤ 4) :
    exec (.partReset ring idx) s = .next (State.askUncounted { s.begin_ ring idx with
      urn := { (s.begin_ ring idx).urn with resets := (s.begin_ ring idx).urn.resets.filter fun e => e.1 != k.part } }
      k.part (some (ring, idx))) := by
  rw [exec_partReset_taken s h, State.partReset, if_neg (Nat.not_lt.2 hp)]

theorem partReset_invalid (ring idx : Nat) (k : Cmd) (h : s.mbCmd ring idx 0x0E = some k) (hp : 4 < k.part) :
    exec (.partReset ring idx) s = .next ((s.begin_ ring idx).complete ring idx stInvalid 0 0) := by
  rw [exec_partReset_taken s h, State.partReset, if_pos hp]

theorem partReset_none (ring idx : Nat) (h : s.mbCmd ring idx 0x0E = none) : exec (.partReset ring idx) s = .next s :=
  congrArg Host.Outcome.next (State.mbox_none _ h)

/-- A restart of a generator by the partition that owns the camera port of its number (R356). -/
theorem exec_trigSet_taken {ring idx : Nat} {k : Cmd} (h : s.mbCmd ring idx 0x10 = some k) : exec (.trigSet ring idx) s =
    .next (if 16 ≤ k.arg 8 8 then (s.begin_ ring idx).complete ring idx stInvalid 0 0
      else if (s.begin_ ring idx).camOwner (k.arg 8 8) ≠ some k.part then (s.begin_ ring idx).complete ring idx stDenied 0 0
      else ((s.begin_ ring idx).genRestart (k.arg 8 8) (k.arg 0x10 8) (k.arg 0x18 4) (k.arg 0x1C 4) (k.arg 0x20 4)).complete ring idx
        stOk 0 0) :=
  congrArg Host.Outcome.next (State.mbox_taken _ h)

theorem trigSet_invalid (ring idx : Nat) (k : Cmd) (h : s.mbCmd ring idx 0x10 = some k) (hg : 16 ≤ k.arg 8 8) :
    exec (.trigSet ring idx) s = .next ((s.begin_ ring idx).complete ring idx stInvalid 0 0) := by
  rw [exec_trigSet_taken s h, if_pos hg]

theorem trigSet_denied (ring idx : Nat) (k : Cmd) (h : s.mbCmd ring idx 0x10 = some k) (hg : k.arg 8 8 < 16)
    (ho : (s.begin_ ring idx).camOwner (k.arg 8 8) ≠ some k.part) :
    exec (.trigSet ring idx) s = .next ((s.begin_ ring idx).complete ring idx stDenied 0 0) := by
  rw [exec_trigSet_taken s h, if_neg (Nat.not_le.2 hg), if_pos ho]

theorem trigSet_restarts (ring idx : Nat) (k : Cmd) (h : s.mbCmd ring idx 0x10 = some k) (hg : k.arg 8 8 < 16)
    (ho : (s.begin_ ring idx).camOwner (k.arg 8 8) = some k.part) : exec (.trigSet ring idx) s =
      .next (((s.begin_ ring idx).genRestart (k.arg 8 8) (k.arg 0x10 8) (k.arg 0x18 4) (k.arg 0x1C 4) (k.arg 0x20 4)).complete
        ring idx stOk 0 0) := by
  rw [exec_trigSet_taken s h, if_neg (Nat.not_le.2 hg), if_neg (not_not_intro ho)]

theorem trigSet_none (ring idx : Nat) (h : s.mbCmd ring idx 0x10 = none) : exec (.trigSet ring idx) s = .next s :=
  congrArg Host.Outcome.next (State.mbox_none _ h)

theorem nop_completes (ring idx : Nat) (k : Cmd) (h : s.mbCmd ring idx 0x11 = some k) :
    exec (.nop ring idx) s = .next ((s.begin_ ring idx).complete ring idx stOk 0 0) :=
  congrArg Host.Outcome.next (State.mbox_taken _ h)

theorem nop_none (ring idx : Nat) (h : s.mbCmd ring idx 0x11 = none) : exec (.nop ring idx) s = .next s :=
  congrArg Host.Outcome.next (State.mbox_none _ h)

/-- Settles O28: the window by its four outcomes, the rings by their owner, and each mailbox command by its taken entry. -/
theorem hostWindowAndRings : Obligations.HostWindowAndRings :=
  ⟨bar2Write_lands, bar2Write_not_master, bar2Write_past_end, bar2Write_waits, bar2Write_no_window, bar2Read_no_window, bar2Read_waits,
    bar2Read_answers, bar2Read_past_end, hostServiceTick_due, hostServiceTick_waits, ring_not_owner, ringReset_resets, ringCfgWrite_resets,
    ringCfgWrite_enabled, ringCfgWrite_disabled, progLoad_loads, fwStage_stages, partReset_asks, partReset_invalid, trigSet_invalid,
    trigSet_denied, trigSet_restarts, nop_completes, progLoad_none, fwStage_none, partReset_none, trigSet_none, nop_none, progLoad_waits,
    fwStage_waits⟩

end Sys2Proof.Machine
end

section
/-! SUPPORT. Memory after a write (R107, R108, R111, R112): the bytes written, the bytes beside them, and what reads give in the same tick and
in later ones. -/

namespace Sys2Proof.Machine

/-- The error words do not say what a byte reads as. -/
theorem Memory.get_withBad (m : Memory) (bad : List (Nat × Bool)) (b : Nat) : ({ m with bad := bad } : Memory).get b = m.get b := rfl

/-- The error words do not say whether memory is in canonical form. -/
theorem Memory.withBad_wf {m : Memory} (bad : List (Nat × Bool)) (h : m.wf = true) : ({ m with bad := bad } : Memory).wf = true :=
  Memory.wf_iff m _ rfl rfl h

/-- In a tick in which nothing has been written yet, a read that is not withheld gives the bytes that memory holds. -/
theorem State.memRead_current {u : State} {q : Requester} {a n : Nat} (ho : u.now.olds = []) (he : (u.memRead q a n).1.err = none) :
    (u.memRead q a n).1.bytes = u.mem.read a n := by
  rw [u.memRead_bytes q a n he, u.rowBytes_clean a n ho]

/-- Settles O47: what the write stores in memory, and the row of before that a scratchpad shows until the tick ends. -/
theorem bytesWrittenAreRead : Obligations.BytesWrittenAreRead := by
  intro s t r a l hwf hw hpart hlater
  obtain ⟨⟨bad, hmem⟩, hrow⟩ := State.memWrite_stores s t r a l hw hpart hlater
  have hstored : t.mem.read a l.length = l := by
    rw [hmem]
    exact Memory.read_write_same l _ a (Memory.withBad_wf bad hwf)
  refine ⟨hstored, fun b hb => ?_, fun u q hu ho he => ?_, fun q c o hr ho he => ?_⟩
  · rw [hmem, Memory.get_write_other l _ a b hb, Memory.get_withBad]
  · rw [State.memRead_current ho he, hu, hstored]
  · rw [t.memRead_bytes q a l.length he]
    exact hrow ho ⟨c, o, hr⟩

end Sys2Proof.Machine
end

section
/-! SUPPORT. The LPDDR6 controllers (R413 to R430): requests, write-backs, reports, the patrol and training, each where its channel is in
the state for it and where it is not. -/

namespace Sys2Proof.Machine

variable (s : State)

/-! ## Requests and write-backs (R420, R421, R423) -/

theorem lpddr6Request_served (x : Access) (b a : Nat) (ha : s.localOf x.addr = some a) (hl : a < lpddrTop)
    (hr : s.lpReady a (accSize x.kind) = true) :
    exec (.lpddr6Request x b) s = .next ((if accDecodes x then s.burstDecode x.req a b else s).lpServe x a) := by
  change execLpddr6Request x b s = _
  simp only [execLpddr6Request, ha, if_pos (And.intro hl hr)]

theorem lpddr6Request_held (x : Access) (b : Nat)
    (h : ∀ a, s.localOf x.addr = some a → lpddrTop ≤ a ∨ s.lpReady a (accSize x.kind) = false) :
    exec (.lpddr6Request x b) s = .next s := by
  change execLpddr6Request x b s = _
  cases ha : s.localOf x.addr with
  | none => simp only [execLpddr6Request, ha]
  | some a =>
    have hn : ¬ (a < lpddrTop ∧ s.lpReady a (accSize x.kind) = true) := by
      rintro ⟨hl, hr⟩
      rcases h a ha with h | h
      · exact absurd hl (Nat.not_lt.2 h)
      · exact Bool.false_ne_true (h.symm.trans hr)
    simp only [execLpddr6Request, ha, if_neg hn]

theorem mcWriteBack_rewrites (c a : Nat) (ha : s.writeBack.find? (fun e => e.1 == c) = some (c, a)) (hc : s.fld (mcReg c 0) 3 0 = 2) :
    exec (.mcWriteBack c) s = .next ((State.countUp { s with writeBack := s.writeBack.erase (c, a) } (mcReg c 0x14) 1).raise .mcCe
      (scopeOf (s.chanOwner c)) { unit := c, info0 := a % 2 ^ 32, info1 := a / 2 ^ 32 }) := by
  change execMcWriteBack c s = _
  simp only [execMcWriteBack, ha, if_pos hc]

theorem mcWriteBack_waits (c : Nat) (h : s.writeBack.find? (fun e => e.1 == c) = none ∨ s.fld (mcReg c 0) 3 0 ≠ 2) :
    exec (.mcWriteBack c) s = .next s := by
  change execMcWriteBack c s = _
  cases ha : s.writeBack.find? (fun e => e.1 == c) with
  | none => simp only [execMcWriteBack, ha]
  | some e =>
    have hc : s.fld (mcReg c 0) 3 0 ≠ 2 := h.resolve_left (by rw [ha]; exact Option.some_ne_none e)
    simp only [execMcWriteBack, ha, if_neg hc]

theorem refresh_unchanged (c b : Nat) : exec (.refresh c b) s = .next s := rfl

/-! ## Reports and the patrol (R425, R426) -/

theorem temperatureReportRead_reports (c v : Nat) (hc : s.fld (mcReg c 0) 3 0 = 2) :
    exec (.temperatureReportRead c v) s = .next (if Config.dramHot v then
      (s.setFld (mcReg c 0) 4 4 1).raise .mcDramHot (scopeOf (s.chanOwner c)) { unit := c, info0 := v % 2 ^ 32 } else s) := by
  change execTemperatureReportRead c v s = _
  simp only [execTemperatureReportRead, hc, true_and]

theorem temperatureReportRead_out_of_service (c v : Nat) (hc : s.fld (mcReg c 0) 3 0 ≠ 2) :
    exec (.temperatureReportRead c v) s = .next s :=
  congrArg Host.Outcome.next (if_neg fun h => hc h.1)

theorem dqsOscillatorRead_compares (c k n : Nat) (d : Int) (u : State) (hc : s.fld (mcReg c 0) 3 0 = 2) (hk : k < 2)
    (hd : d = (n : Int) - ((assoc s.dqs (2 * c + k)).getD 0 : Int)) (hu : u = s.setFld (mcReg c 0x24) 15 0 (ofSigned 16 d)) :
    exec (.dqsOscillatorRead c k n) s = .next (if (assoc s.dqs (2 * c + k)).getD 0 < d.natAbs * 64 then
      (u.setFld (mcReg c 0) 5 5 1).raise .mcDrift (scopeOf (u.chanOwner c)) { unit := c, info0 := ofSigned 32 d } else u) := by
  subst hu hd
  exact congrArg Host.Outcome.next (if_pos ⟨hc, hk⟩)

theorem dqsOscillatorRead_ignored (c k n : Nat) (h : s.fld (mcReg c 0) 3 0 ≠ 2 ∨ 2 ≤ k) :
    exec (.dqsOscillatorRead c k n) s = .next s :=
  congrArg Host.Outcome.next (if_neg fun ⟨hc, hk⟩ => h.elim (· hc) (absurd hk <| Nat.not_lt.2 ·))

theorem patrol_passes (c : Nat) (hc : s.fld (mcReg c 0) 3 0 = 2) : exec (.patrol c 0) s = .next (s.countUp (mcReg c 0x20) 1) :=
  congrArg Host.Outcome.next ((if_pos hc).trans (congrArg (State.countUp · (mcReg c 0x20) 1) (if_pos rfl)))

theorem patrol_meets_burst (c b cha : Nat) (hc : s.fld (mcReg c 0) 3 0 = 2) (hb : b ≠ 0)
    (hcha : cha = (Config.freeWord s.fresh).toNat * 32 % s.chanBytes) : exec (.patrol c b) s =
      .next (((s.chanLocal c cha).elim s fun a => State.patrolBurst { s with fresh := s.fresh + 1 } c cha a b).countUp (mcReg c 0x20) 1) := by
  change execPatrol c b s = _
  simp only [execPatrol, if_pos hc, if_neg hb, ← hcha]
  cases s.chanLocal c cha <;> rfl

theorem patrol_out_of_service (c b : Nat) (hc : s.fld (mcReg c 0) 3 0 ≠ 2) : exec (.patrol c b) s = .next s :=
  congrArg Host.Outcome.next (if_neg hc)

/-! ## Training (R414, R427) -/

theorem channelTrainingEnd_succeeds (c : Nat) (u : State) (ht : s.fld (mcReg c 0) 3 0 = 1) (hc : c < s.nChannels)
    (hu : u = { s with fresh := s.fresh + 2, dqs := s.dqs.filter (fun e => e.1 / 2 != c) ++
      [(2 * c, (Config.freeWord s.fresh).toNat % 65536), (2 * c + 1, (Config.freeWord (s.fresh + 1)).toNat % 65536)] }) :
    exec (.channelTrainingEnd c true true) s = .next ((u.mcCfg c).setFld (mcReg c 0) 3 0 2) := by
  subst hu
  exact congrArg Host.Outcome.next ((if_pos ⟨ht, hc⟩).trans (if_pos rfl))

/-- A training that fails takes the partition in its reset out of service, and shuts the device where there is none (R427). -/
theorem exec_channelTrainingEnd_failed {c : Nat} {ok agree : Bool} {u : State} (ht : s.fld (mcReg c 0) 3 0 = 1) (hc : c < s.nChannels)
    (hf : ok = false ∨ agree = false) (hu : u = s.setFld (mcReg c 0) 3 0 5) : exec (.channelTrainingEnd c ok agree) s =
    .next (match u.chanOwner c with
      | some p =>
        if (u.resetRec p).isSome then (u.raise .mcTrainFail p { unit := c }).outOfService p
        else State.raise { u with power := { u.power with released := false, shut := true } } .mcTrainFail 7 { unit := c }
      | none => State.raise { u with power := { u.power with released := false, shut := true } } .mcTrainFail 7 { unit := c }) := by
  subst hu
  have hn : ¬ (ok && agree) = true := by
    rcases hf with rfl | rfl
    · exact Bool.false_ne_true
    · rw [Bool.and_false]
      exact Bool.false_ne_true
  exact congrArg Host.Outcome.next ((if_pos ⟨ht, hc⟩).trans (if_neg hn))

theorem channelTrainingEnd_fails_in_reset (c p : Nat) (ok agree : Bool) (u : State) (ht : s.fld (mcReg c 0) 3 0 = 1) (hc : c < s.nChannels)
    (hf : ok = false ∨ agree = false) (hu : u = s.setFld (mcReg c 0) 3 0 5) (hp : u.chanOwner c = some p) (hr : (u.resetRec p).isSome = true) :
    exec (.channelTrainingEnd c ok agree) s = .next ((u.raise .mcTrainFail p { unit := c }).outOfService p) := by
  rw [exec_channelTrainingEnd_failed s ht hc hf hu]
  simp only [hp, hr, if_true]

theorem channelTrainingEnd_fails_shut (c : Nat) (ok agree : Bool) (u : State) (ht : s.fld (mcReg c 0) 3 0 = 1) (hc : c < s.nChannels)
    (hf : ok = false ∨ agree = false) (hu : u = s.setFld (mcReg c 0) 3 0 5) (hn : ∀ p, u.chanOwner c = some p → u.resetRec p = none) :
    exec (.channelTrainingEnd c ok agree) s =
      .next (State.raise { u with power := { u.power with released := false, shut := true } } .mcTrainFail 7 { unit := c }) := by
  rw [exec_channelTrainingEnd_failed s ht hc hf hu]
  cases hp : u.chanOwner c with
  | none => rfl
  | some p => simp only [hn p hp, Option.isSome_none, Bool.false_eq_true, if_false]

theorem channelTrainingEnd_not_in_training (c : Nat) (ok agree : Bool) (h : s.fld (mcReg c 0) 3 0 ≠ 1 ∨ s.nChannels ≤ c) :
    exec (.channelTrainingEnd c ok agree) s = .next s :=
  congrArg Host.Outcome.next (if_neg fun ⟨ht, hc⟩ => h.elim (· ht) (absurd hc <| Nat.not_lt.2 ·))

/-- Settles O30: each command on a channel in the state for it, then each where the channel is not. -/
theorem externalMemoryCommands : Obligations.ExternalMemoryCommands :=
  ⟨lpddr6Request_served, mcWriteBack_rewrites, refresh_unchanged, temperatureReportRead_reports, dqsOscillatorRead_compares, patrol_passes,
    patrol_meets_burst, channelTrainingEnd_succeeds, channelTrainingEnd_fails_in_reset, channelTrainingEnd_fails_shut, lpddr6Request_held,
    mcWriteBack_waits, temperatureReportRead_out_of_service, dqsOscillatorRead_ignored, patrol_out_of_service,
    channelTrainingEnd_not_in_training⟩

end Sys2Proof.Machine
end

section
/-! SUPPORT. The tiler's steps through the work of an operator (R164, R181, R183, R184, R309): its completion word, the head of its work,
and what a flush of the arrays leaves in place. -/

namespace Sys2Proof.Machine

variable (s : State)

theorem completionWord_written (c x : Nat) (hc : c < s.nClusters) (hx : x < 5) (ha : (s.til c x).active = true)
    (hp : (s.til c x).phase = 2) (he : (s.til c x).aborted = true ∨ s.ctxIdle c x = true) :
    exec (.completionWord c x) s = .next (s.completionWord c x) := by
  have hended : ((s.til c x).aborted || s.ctxIdle c x) = true := Bool.or_eq_true_iff.2 he
  change execCompletionWord c x s = _
  simp only [execCompletionWord, decide_eq_true hc, decide_eq_true hx, ha, hp, hended, beq_self_eq_true, Bool.and_self, if_true]

/-! ## The head of the work (R177, R191) -/

/-- Where the tiler acts on a running operator, the head of its work is what a test sees. -/
theorem State.headIs_head {s : State} {c x : Nat} {k : Work} {w : List Work} (f : Work → Bool) (hm : s.tilerMay c x = true)
    (hr : s.opRuns_ c x = true) (hw : (s.til c x).work = k :: w) : s.headIs c x f = f k := by
  simp only [State.headIs, hm, hr, hw, Bool.and_self, Bool.true_and]

section
variable (c x slot t ch ta : Nat) (w : List Work) (it : Item) (hm : s.tilerMay c x = true) (hr : s.opRuns_ c x = true)
  (hw : (s.til c x).work = .window slot t ch :: w) (hi : (s.plan c x).item (s.item c x) = some it)
include hm hr hw hi

theorem window_builds (hk : s.kernelIn c 0x0B = true)
    (hta : ta = if (s.plan c x).own = 0 then (s.plan c x).t else min (s.plan c x).t (s.plan c x).own) :
    ∃ q, q = s.windowJob c x slot t ch ta (t % ta) ((s.plan c x).forItem (s.til c x).desc it) (s.til c x).desc it ∧
      exec (.window c x) s = .next (if q.1 && q.2.opRuns_ c x then q.2.popWork c x else q.2) := by
  refine ⟨_, rfl, ?_⟩
  subst hta
  change execWindow c x s = _
  simp only [execWindow, State.headIs_head _ hm hr hw, hw, hi, hk, Bool.not_true, Bool.false_eq_true, if_false, if_true]

theorem window_kernel_missing (hk : s.kernelIn c 0x0B = false) :
    exec (.window c x) s = .next (s.kernelInvalid c (s.stepEngine c) x 0x0B) := by
  change execWindow c x s = _
  simp only [execWindow, State.headIs_head _ hm hr hw, hw, hi, hk, Bool.not_true, Bool.false_and, Bool.false_eq_true, if_false]

end

/-! ## Phase 2 and count words (R181, R309) -/

/-- The tiler holds a phase-2 item of an array operator, whatever the head of its work. -/
theorem phase2_held {c x : Nat} {k : Work} {w : List Work} {it : Item} (hm : s.tilerMay c x = true) (hr : s.opRuns_ c x = true)
    (hw : (s.til c x).work = k :: w) (h2 : it.kind = 2) (ho : fieldAt (s.til c x).desc 0 1 ≠ 0x20) :
    ¬ (!s.headIs c x (fun _ => it.kind == 2) || fieldAt (s.til c x).desc 0 1 == 0x20) = true := by
  rw [State.headIs_head _ hm hr hw, h2, beq_false_of_ne ho]
  decide

theorem phase2Item_waits (c x va need : Nat) (w : List Work) (it : Item) (hm : s.tilerMay c x = true) (hr : s.opRuns_ c x = true)
    (hw : (s.til c x).work = .waitCount va need :: w) (hi : (s.plan c x).item (s.item c x) = some it) (h2 : it.kind = 2) (hx : x ≠ 4)
    (ho : fieldAt (s.til c x).desc 0 1 ≠ 0x20) : exec (.phase2Item c x) s = .next (s.tilerWait c x va need) := by
  change execPhase2Item c x s = _
  simp only [execPhase2Item, hi, if_neg (phase2_held s hm hr hw h2 ho), hw, if_neg hx]

theorem phase2Item_emits (c x : Nat) (k : Work) (w : List Work) (it : Item) (hm : s.tilerMay c x = true) (hr : s.opRuns_ c x = true)
    (hw : (s.til c x).work = k :: w) (hk : ∀ va need, k ≠ .waitCount va need) (hi : (s.plan c x).item (s.item c x) = some it)
    (h2 : it.kind = 2) (ho : fieldAt (s.til c x).desc 0 1 ≠ 0x20) : exec (.phase2Item c x) s = .next (s.emit c x (w.length + 2)) := by
  change execPhase2Item c x s = _
  simp only [execPhase2Item, hi, if_neg (phase2_held s hm hr hw h2 ho), hw]
  split
  · next va need _ h => exact absurd (List.cons.inj h).1 (hk va need)
  · rfl

section
variable (c va need : Nat) (w : List Work) (d : List Byte) (u : State) (hm : s.tilerMay c 4 = true) (hr : s.opRuns_ c 4 = true)
  (hw : (s.til c 4).work = .waitCount va need :: w)
include hm hr hw

theorem countWordRead_stopped
    (hq : (if fieldAt (s.til c 4).desc 0 1 = 0x20 then s.attRead c 4 none va 8 else s.xRead c 4 va 8) = (none, u)) :
    exec (.countWordRead c) s = .next u := by
  change execCountWordRead c s = _
  simp only [execCountWordRead, State.headIs_head _ hm hr hw, hw, hq, Bool.not_true, Bool.false_eq_true, if_false]

theorem countWordRead_compares
    (hq : (if fieldAt (s.til c 4).desc 0 1 = 0x20 then s.attRead c 4 none va 8 else s.xRead c 4 va 8) = (some d, u)) :
    exec (.countWordRead c) s = .next (if waitOver (leNat d) need then u.popWork c 4 else u.lateData c 0 0) := by
  change execCountWordRead c s = _
  simp only [execCountWordRead, State.headIs_head _ hm hr hw, hw, hq, Bool.not_true, Bool.false_eq_true, if_false]

end

/-! ## CL_ARR_FLUSH and the split-K fallback (R183) -/

/-- One array's turn in a flush: the queue of context x is emptied where the mask names the array. -/
def State.flushArr (s : State) (c x arrays a : Nat) : State :=
  if bit arrays a then s.setArr c a { s.arr c a with queues := setAt (s.arr c a).queues x [] } else s

theorem State.arrFlush_eq (c x arrays : Nat) : s.arrFlush c x arrays = (List.range 8).foldl (fun s a => s.flushArr c x arrays a) s := rfl

/-- From `s` to `t` registers, memory and the arrays of cluster c outside a mask are unchanged. -/
def FlushKeeps (c arrays : Nat) (s t : State) : Prop :=
  t.regs = s.regs ∧ t.mem = s.mem ∧ ∀ a, bit arrays a = false → t.arr c a = s.arr c a

theorem State.flushArr_keeps (c x arrays a : Nat) : FlushKeeps c arrays s (s.flushArr c x arrays a) := by
  unfold State.flushArr
  split
  · next ha =>
    refine ⟨rfl, rfl, fun b hb => sparseGet_put_other _ _ _ _ _ _ fun h => ?_⟩
    have hab : b = a := by omega
    exact Bool.false_ne_true (hb.symm.trans (hab ▸ ha))
  · exact ⟨rfl, rfl, fun _ _ => rfl⟩

theorem State.arrFlush_keeps (c x arrays : Nat) : FlushKeeps c arrays s (s.arrFlush c x arrays) := by
  rw [State.arrFlush_eq]
  generalize List.range 8 = l
  induction l generalizing s with
  | nil => exact ⟨rfl, rfl, fun _ _ => rfl⟩
  | cons a l ih =>
    obtain ⟨hregs, hmem, harr⟩ := s.flushArr_keeps c x arrays a
    obtain ⟨iregs, imem, iarr⟩ := ih (s.flushArr c x arrays a)
    exact ⟨iregs.trans hregs, imem.trans hmem, fun b hb => (iarr b hb).trans (harr b hb)⟩

theorem arrFlush_flushes (r : Requester) (c x arrays : Nat) (hw : s.mayWrite .stewardSeq r c = true) (hc : c < s.nClusters) (hx : x < 5) :
    completes (.arrFlush r c x arrays) s fun t => t = s.arrFlush c x arrays ∧ t.regs = s.regs ∧ t.mem = s.mem ∧
      ∀ a < 8, bit arrays a = false → t.arr c a = s.arr c a := by
  obtain ⟨hregs, hmem, harr⟩ := s.arrFlush_keeps c x arrays
  refine ⟨_, congrArg Host.Outcome.next (if_pos ?_), rfl, hregs, hmem, fun a _ => harr a⟩
  rw [hw, decide_eq_true hc, decide_eq_true hx]
  rfl

theorem splitKFallback_restarts (c x : Nat) (hc : c < s.nClusters) (hx : x < 4) (hb : (s.til c x).bound = true)
    (hp : (s.til c x).phase = 1) (ha : (s.til c x).aborted = false) (hh : (s.ctx c x).held = false) :
    ∃ u, u = ((s.arrFlush c x 0xFF).abortChans c x).tilState c 5 ∧
      exec (.splitKFallback c x) s = .next (if u.arrsIdle c x && u.movIdle c x then u.fallback c x else u) := by
  refine ⟨_, rfl, congrArg Host.Outcome.next (if_pos ?_)⟩
  rw [decide_eq_true hc, decide_eq_true hx, hb, hp, ha, hh]
  rfl

/-- Settles O12: the completion word, then each kind of work at the head, the flush and the fallback. -/
theorem tilerWorkSteps : Obligations.TilerWorkSteps :=
  ⟨completionWord_written, window_builds, window_kernel_missing, arrFlush_flushes, splitKFallback_restarts, phase2Item_waits,
    phase2Item_emits, countWordRead_stopped, countWordRead_compares⟩

end Sys2Proof.Machine
end

section
/-! SUPPORT. Minor frames (R262 to R264) and the entries of the Brew Table (R265 to R268): when a frame starts, and what each fired entry
does after its dispatcher has gone past it. -/

namespace Sys2Proof.Machine

variable (s : State)

/-! ## Minor frames (R262 to R264) -/

theorem minorFrameStart_no_table (p : Nat) (ht : (s.dsp p).table = none) : exec (.minorFrameStart p) s = .next s := by
  change execMinorFrameStart p s = _
  simp only [execMinorFrameStart, ht]

section
variable {s} {p : Nat} {b : BrewTable}

/-- A dispatcher of the table b comes to a frame start: it runs, time is valid, and the frame's time is reached. -/
def FrameTime (s : State) (p : Nat) (b : BrewTable) : Prop :=
  p < 4 ∧ s.fld (btReg p 0) 3 0 ≠ 0 ∧ (s.scopeStopped p = false ∨ s.resetStep p = 8) ∧ bit (s.rd (tbReg 0)) 31 = true ∧
    reached s.time (b.frameTime (s.dsp p).frameNo) = true

/-- What MINOR_FRAME_START tests is the time of a frame start. -/
theorem frameTime_iff : (decide (p < 4) && s.fld (btReg p 0) 3 0 != 0 && (!s.scopeStopped p || s.resetStep p == 8) && bit (s.rd (tbReg 0)) 31 &&
    reached s.time (b.frameTime (s.dsp p).frameNo)) = true ↔ FrameTime s p b := by
  simp only [FrameTime, Bool.and_eq_true, Bool.or_eq_true, Bool.not_eq_true', decide_eq_true_eq, bne_iff_ne, beq_iff_eq, and_assoc]

theorem exec_minorFrameStart_due (ht : (s.dsp p).table = some b) (h : FrameTime s p b) :
    exec (.minorFrameStart p) s = .next (s.minorFrame p b) := by
  change execMinorFrameStart p s = _
  simp only [execMinorFrameStart, ht, if_pos (frameTime_iff.2 h)]

/-- A dispatcher that is idle at a frame's start tick, which has come, starts the frame at that tick. -/
theorem State.frameTickDue_idle {t : Nat} (hr : reached s.time (b.frameTime (s.dsp p).frameNo) = true)
    (ht : t = s.tickOf (b.frameTime (s.dsp p).frameNo)) (hb : (s.dsp p).busyTill ≤ t) (hc : t ≤ s.ct) : s.frameTickDue p b = some t := by
  subst ht
  simp only [State.frameTickDue, hr, if_true, max_eq_left hb, if_pos hc]

end

theorem minorFrameStart_waits (p : Nat) (b : BrewTable) (ht : (s.dsp p).table = some b)
    (h : 4 ≤ p ∨ s.fld (btReg p 0) 3 0 = 0 ∨ (s.scopeStopped p = true ∧ s.resetStep p ≠ 8) ∨ bit (s.rd (tbReg 0)) 31 = false ∨
      reached s.time (b.frameTime (s.dsp p).frameNo) = false) : exec (.minorFrameStart p) s = .next s := by
  have hn : ¬ FrameTime s p b := by
    rintro ⟨hp, hf, hs, hv, hr⟩
    rcases h with h | h | ⟨h1, h8⟩ | h | h
    · exact absurd hp (Nat.not_lt.2 h)
    · exact hf h
    · exact hs.elim (fun h0 => Bool.false_ne_true (h0.symm.trans h1)) h8
    · exact Bool.false_ne_true (h.symm.trans hv)
    · exact Bool.false_ne_true (h.symm.trans hr)
  change execMinorFrameStart p s = _
  simp only [execMinorFrameStart, ht, if_neg (mt frameTime_iff.1 hn)]

section
variable (p : Nat) (b : BrewTable) (t : Nat) (ht : (s.dsp p).table = some b) (hp : p < 4) (hf : s.fld (btReg p 0) 3 0 ≠ 0)
  (hs : s.scopeStopped p = false ∨ s.resetStep p = 8) (hv : bit (s.rd (tbReg 0)) 31 = true)
  (hr : reached s.time (b.frameTime (s.dsp p).frameNo) = true)
include ht hp hf hs hv hr

theorem minorFrameStart_parks (hd : s.parkDue p = true) : exec (.minorFrameStart p) s = .next (s.park p) := by
  rw [exec_minorFrameStart_due ht ⟨hp, hf, hs, hv, hr⟩, State.minorFrame, if_pos hd]

theorem minorFrameStart_skips (hd : s.parkDue p = false) (hn : reached s.time (b.frameTime ((s.dsp p).frameNo + 1)) = true) :
    exec (.minorFrameStart p) s = .next (s.frameSkip p b) := by
  rw [exec_minorFrameStart_due ht ⟨hp, hf, hs, hv, hr⟩, State.minorFrame, if_neg (by rw [hd]; decide), if_pos hn]

variable (hd : s.parkDue p = false) (hn : reached s.time (b.frameTime ((s.dsp p).frameNo + 1)) = false)
include hd hn

theorem minorFrameStart_squeezes (hb : s.tickOf (b.frameTime (s.dsp p).frameNo) < (s.dsp p).busyTill)
    (hw : (s.frameSqueeze p b).frameTickDue p b = none) : exec (.minorFrameStart p) s = .next (s.frameSqueeze p b) := by
  rw [exec_minorFrameStart_due ht ⟨hp, hf, hs, hv, hr⟩]
  simp only [State.minorFrame, hd, hn, if_pos hb, hw, Bool.false_eq_true, if_false]

theorem minorFrameStart_starts_squeezed (hb : s.tickOf (b.frameTime (s.dsp p).frameNo) < (s.dsp p).busyTill)
    (hw : (s.frameSqueeze p b).frameTickDue p b = some t) :
    exec (.minorFrameStart p) s = .next ((s.frameSqueeze p b).frameGo p b t) := by
  rw [exec_minorFrameStart_due ht ⟨hp, hf, hs, hv, hr⟩]
  simp only [State.minorFrame, hd, hn, if_pos hb, hw, Bool.false_eq_true, if_false]

theorem minorFrameStart_starts (hk : t = s.tickOf (b.frameTime (s.dsp p).frameNo)) (hb : (s.dsp p).busyTill ≤ t) (hc : t ≤ s.ct) :
    exec (.minorFrameStart p) s = .next (s.frameGo p b t) := by
  have hidle : ¬ s.tickOf (b.frameTime (s.dsp p).frameNo) < (s.dsp p).busyTill := Nat.not_lt.2 (hk ▸ hb)
  rw [exec_minorFrameStart_due ht ⟨hp, hf, hs, hv, hr⟩]
  simp only [State.minorFrame, hd, hn, if_neg hidle, State.frameTickDue_idle hr hk hb hc, Bool.false_eq_true, if_false]

end

/-! ## Fired entries (R265 to R267) -/

/-- A fired entry takes its dispatcher past it, and then has its effect at its own tick. -/
theorem State.fire_due {s : State} {p action : Nat} {e : BrewEntry} (f : BrewEntry → Nat → State → State)
    (he : s.entryDue p action = some e) : s.fire p action f = f e ((s.dsp p).frameTick + e.offset) (afterEntry s p) := by
  simp only [State.fire, he]
  rfl

section
variable (p : Nat) (e : BrewEntry)

theorem brewLaunch_no_task (he : s.entryDue p 1 = some e) (hr : (afterEntry s p).timedRec p (e.arg0 % 256) = none) :
    exec (.brewLaunch p) s = .next (afterEntry s p) := by
  change execBrewLaunch p s = _
  simp only [execBrewLaunch, State.fire_due _ he, hr]

theorem brewLaunch_conflicts (r : TaskRec) (c : Nat) (he : s.entryDue p 1 = some e)
    (hr : (afterEntry s p).timedRec p (e.arg0 % 256) = some r)
    (hc : r.clusters.find? (fun c => ((afterEntry s p).ctx c 4).task.isSome) = some c) :
    exec (.brewLaunch p) s = .next ((afterEntry s p).slotConflict p c 0) := by
  change execBrewLaunch p s = _
  simp only [execBrewLaunch, State.fire_due _ he, hr, hc]

section
variable (r : TaskRec) (he : s.entryDue p 1 = some e) (hr : (afterEntry s p).timedRec p (e.arg0 % 256) = some r)
  (hc : r.clusters.find? (fun c => ((afterEntry s p).ctx c 4).task.isSome) = none)
include he hr hc

/-- A launch whose timed contexts are free: that of a step task waits for its build, any other needs none (R269, R224). -/
theorem exec_brewLaunch_free {b : Bool × State} (hb : b = if r.step then
      (if (afterEntry s p).stewardUp && bit ((afterEntry s p).rd (seqCtl p 4)) 0 then (afterEntry s p).build p else (false, afterEntry s p))
      else (true, afterEntry s p)) : exec (.brewLaunch p) s =
    .next (if b.1 then b.2.timedLaunch p r ((s.dsp p).frameTick + e.offset) (bits e.arg1 29 0) else b.2) := by
  change execBrewLaunch p s = _
  simp only [execBrewLaunch, State.fire_due _ he, hr, hc, hb]

theorem brewLaunch_launches (hs : r.step = false) : exec (.brewLaunch p) s =
    .next ((afterEntry s p).timedLaunch p r ((s.dsp p).frameTick + e.offset) (bits e.arg1 29 0)) := by
  rw [exec_brewLaunch_free s p e r he hr hc (b := (true, afterEntry s p)) (by rw [hs]; exact (if_neg Bool.false_ne_true).symm)]
  exact congrArg Host.Outcome.next (if_pos rfl)

theorem brewLaunch_step_held (hs : r.step = true)
    (hu : (afterEntry s p).stewardUp = false ∨ bit ((afterEntry s p).rd (seqCtl p 4)) 0 = false) :
    exec (.brewLaunch p) s = .next (afterEntry s p) := by
  have hn : ¬ ((afterEntry s p).stewardUp && bit ((afterEntry s p).rd (seqCtl p 4)) 0) = true := by
    rcases hu with h | h <;> simp only [h, Bool.false_and, Bool.and_false, Bool.false_eq_true, not_false_eq_true]
  rw [exec_brewLaunch_free s p e r he hr hc (b := (false, afterEntry s p)) (by rw [if_pos hs, if_neg hn])]
  exact congrArg Host.Outcome.next (if_neg Bool.false_ne_true)

theorem brewLaunch_step_built (hs : r.step = true) (hu : (afterEntry s p).stewardUp = true)
    (hq : bit ((afterEntry s p).rd (seqCtl p 4)) 0 = true) : ∃ b, b = (afterEntry s p).build p ∧ exec (.brewLaunch p) s =
      .next (if b.1 then b.2.timedLaunch p r ((s.dsp p).frameTick + e.offset) (bits e.arg1 29 0) else b.2) :=
  ⟨_, rfl, exec_brewLaunch_free s p e r he hr hc (by rw [if_pos hs, hu, hq]; rfl)⟩

end

theorem ingress_releases (he : s.entryDue p 2 = some e) :
    exec (.ingress p) s = .next ((bitList (bits e.arg0 25 0) 26).foldl (fun v n =>
      let v := if n < 20 then v.releaseBuf p n ((s.dsp p).frameTick + e.offset) else v
      if 16 ≤ n ∧ n < 20 then v else v.releaseStage p n ((s.dsp p).frameTick + e.offset)
        (((s.dsp p).frameTick + e.offset) + bits e.arg1 23 0 - 40)) (afterEntry s p)) :=
  congrArg Host.Outcome.next (State.fire_due _ he)

theorem swap_swaps (a : Nat) (he : s.entryDue p 3 = some e) (ha : a = btReg p (0x100 + 4 * (e.arg0 % 64))) :
    exec (.swap p) s = .next (if (Config.freeWord (afterEntry s p).fresh).getLsbD 0 then
      (afterEntry s p).draw.wrLate ((s.dsp p).frameTick + e.offset) a (1 - (afterEntry s p).rd a % 2)
      else (afterEntry s p).draw.ndTiming (some p)) := by
  subst ha
  exact congrArg Host.Outcome.next (State.fire_due _ he)

theorem claim_claims (d : Brew) (he : s.entryDue p 4 = some e) (hd : d = (afterEntry s p).dsp p) :
    exec (.claim p) s = .next (((afterEntry s p).setDsp p { d with claims := d.claims ++
      [{ clusters := (((afterEntry s p).timedRec p (e.arg0 % 256)).map (·.clusters)).getD [], arrays := bits e.arg0 15 8,
         engines := bits e.arg0 17 16, until_ := (s.dsp p).frameTick + e.offset + bits e.arg1 23 0 }] }).applyClaims p) := by
  subst hd
  change execClaim p s = _
  simp only [execClaim, State.fire_due _ he]
  cases (afterEntry s p).timedRec p (e.arg0 % 256) <;> rfl

theorem taster_reserves (he : s.entryDue p 5 = some e) :
    exec (.taster p) s = .next (((afterEntry s p).setDsp p { (afterEntry s p).dsp p with
      taster := some ((s.dsp p).frameTick + e.offset), tasterRun := false, compared := [] }).applyClaims p) :=
  congrArg Host.Outcome.next (State.fire_due _ he)

theorem selftest_claims (k : Nat) (d : Brew) (he : s.entryDue p 6 = some e) (hk : k = bits e.arg0 11 8) (hd : d = (afterEntry s p).dsp p) :
    exec (.selftest p) s = .next (((afterEntry s p).setDsp p { d with slices := d.slices ++
      [{ kind := k, unit := bits e.arg0 6 0, index := bits e.arg0 16 12, startAt := (s.dsp p).frameTick + e.offset + (testKind k).1,
         endAt := (s.dsp p).frameTick + e.offset + bits e.arg1 23 0, running := false }] }).applyClaims p) := by
  subst hd hk
  exact congrArg Host.Outcome.next (State.fire_due _ he)

/-! ## Publications (R286 to R288) -/

section
variable (u : State) (he : s.entryDue p 7 = some e)
  (hu : u = (afterEntry s p).setDsp p { (afterEntry s p).dsp p with fresh := ((afterEntry s p).dsp p).fresh.filter (· != e.arg0 % 64) })
include he hu

theorem publish_other (hs : ∀ q r, u.streamOf (e.arg0 % 64) = some (q, r) → q ≠ p ∨ r.source ≠ 0) :
    exec (.publish p) s = .next (u.countUp (btReg p 0x20) 1) := by
  change execPublish p s = _
  simp only [execPublish, State.fire_due _ he, ← hu]
  cases hq : u.streamOf (e.arg0 % 64) with
  | none => rfl
  | some qr => exact congrArg Host.Outcome.next (if_neg fun ⟨h1, h2, _⟩ => (hs qr.1 qr.2 hq).elim (· h1) (· h2))

theorem publish_not_fresh (hf : ((afterEntry s p).dsp p).fresh.contains (e.arg0 % 64) = false) :
    exec (.publish p) s = .next (u.countUp (btReg p 0x20) 1) := by
  change execPublish p s = _
  simp only [execPublish, State.fire_due _ he, ← hu, hf, Bool.false_eq_true, and_false, if_false]
  cases u.streamOf (e.arg0 % 64) <;> rfl

end

section
variable (r : StreamRec) (u v : State) (d : RdRes) (he : s.entryDue p 7 = some e)
  (hu : u = (afterEntry s p).setDsp p { (afterEntry s p).dsp p with fresh := ((afterEntry s p).dsp p).fresh.filter (· != e.arg0 % 64) })
  (hf : ((afterEntry s p).dsp p).fresh.contains (e.arg0 % 64) = true) (hs : u.streamOf (e.arg0 % 64) = some (p, r)) (h0 : r.source = 0)
  (hd : u.memRead .steward r.header 8 = (d, v))
include he hu hf hs h0 hd

theorem publish_publishes (hn : d.err = none) : exec (.publish p) s =
    .next (if (v.publish p r (leNat d.bytes) (u.timeAt ((s.dsp p).frameTick + e.offset))).1 then
        (v.publish p r (leNat d.bytes) (u.timeAt ((s.dsp p).frameTick + e.offset))).2
      else (v.publish p r (leNat d.bytes) (u.timeAt ((s.dsp p).frameTick + e.offset))).2.countUp (btReg p 0x20) 1) := by
  change execPublish p s = _
  simp only [execPublish, State.fire_due _ he, ← hu, hf, hs, h0, hd, hn, and_self, if_true]

theorem publish_unread (hn : d.err ≠ none) : exec (.publish p) s = .next (v.countUp (btReg p 0x20) 1) := by
  obtain ⟨x, hx⟩ := Option.ne_none_iff_exists'.1 hn
  change execPublish p s = _
  simp only [execPublish, State.fire_due _ he, ← hu, hf, hs, h0, hd, hx, and_self, if_true]

end

end

/-- Settles O16: the frame start by its cases, then each ACTION of an entry. -/
theorem minorFrames : Obligations.MinorFrames :=
  ⟨minorFrameStart_no_table, minorFrameStart_waits, minorFrameStart_parks, minorFrameStart_skips, minorFrameStart_squeezes,
    minorFrameStart_starts_squeezed, minorFrameStart_starts, brewLaunch_no_task, brewLaunch_conflicts, brewLaunch_launches,
    brewLaunch_step_held, brewLaunch_step_built, ingress_releases, swap_swaps, claim_claims, taster_reserves, selftest_claims,
    publish_not_fresh, publish_publishes, publish_other, publish_unread⟩

end Sys2Proof.Machine
end

section
/-! SUPPORT. Timed tasks (R269, R270), the staging queues and their injection (R277, R278), and packets at a router (R272 to R275). -/

namespace Sys2Proof.Machine

variable (s : State)

/-! ## Timed tasks (R269, R270) -/

theorem timedTaskStart_starts (p n : Nat) (k : Task) (hk : s.task n = some k) (ht : k.timed = true) (hp : k.part = p)
    (hs : k.started = false) (he : k.ended = false) (hd : k.launchAt + 24 ≤ s.ct) : exec (.timedTaskStart p n) s =
      .next (k.rcd.clusters.foldl (fun s c => (s.setCtxState c 4 7 0).modTil c 4 fun q => { q with active := true })
        (s.modTask n fun k => { k with started := true })) := by
  change execTimedTaskStart p n s = _
  simp only [execTimedTaskStart, hk, ht, hp, hs, he, decide_eq_true hd, beq_self_eq_true, Bool.not_false, Bool.and_self, if_true]

theorem deadlineMiss_raised (p n : Nat) (k : Task) (hk : s.task n = some k) (ht : k.timed = true) (hp : k.part = p)
    (he : k.ended = false) (hd : k.launchAt + 24 + k.endCt ≤ s.ct) : exec (.deadlineMiss p n) s =
      .next ((s.raise .deadlineMiss p { ctx := 4, info0 := k.rcd.index, task := some n, cluster := k.rcd.clusters.head? }).teardownTask n) := by
  change execDeadlineMiss p n s = _
  simp only [execDeadlineMiss, hk, ht, hp, he, decide_eq_true hd, beq_self_eq_true, Bool.not_false, Bool.and_self, if_true]

/-! ## Staging (R277, R278) -/

/-- What an access that a staging queue takes counts for in it: a write its bytes, a signal or a set 8. -/
def StagedAs (a : Access) (n : Nat) : Prop :=
  (∃ l, a.kind = .write l ∧ n = l.length) ∨ ((∃ v, a.kind = .signal v ∨ a.kind = .set v) ∧ n = 8)

/-- A staging queue takes an access where there is room for it, and is left as it is where there is not. -/
theorem State.stagePut_staged {s : State} {p src n : Nat} {a : Access} (h : StagedAs a n) : s.stagePut p src a none =
    if 65536 < stagedBytes (s.stage p src) + n then (false, s)
    else (true, s.setStage p src (s.stage p src ++ [⟨s.ct, a, none, false⟩])) := by
  rcases h with ⟨l, hk, rfl⟩ | ⟨⟨v, hk | hk⟩, rfl⟩ <;> simp only [State.stagePut, hk]

theorem exec_stagingEnqueue_staged {src p n : Nat} {a : Access} (h : StagedAs a n) : exec (.stagingEnqueue src p a) s =
    .next (if decide (p < 4) && decide (src < 26) && (s.prec p).active then (s.stagePut p src a none).2 else s) := by
  change execStagingEnqueue src p a s = _
  rcases h with ⟨l, hk, rfl⟩ | ⟨⟨v, hk | hk⟩, rfl⟩ <;> simp only [execStagingEnqueue, hk, Bool.and_true]

theorem stagingEnqueue_enters {src p n : Nat} {a : Access} (h : StagedAs a n) (hp : p < 4) (hs : src < 26) (ha : (s.prec p).active = true)
    (hr : stagedBytes (s.stage p src) + n ≤ 65536) :
    exec (.stagingEnqueue src p a) s = .next (s.setStage p src (s.stage p src ++ [⟨s.ct, a, none, false⟩])) := by
  rw [exec_stagingEnqueue_staged s h, if_pos (by rw [decide_eq_true hp, decide_eq_true hs, ha]; rfl), State.stagePut_staged h,
    if_neg (Nat.not_lt.2 hr)]

theorem stagingEnqueue_full {src p n : Nat} {a : Access} (h : StagedAs a n) (hr : 65536 < stagedBytes (s.stage p src) + n) :
    exec (.stagingEnqueue src p a) s = .next s := by
  rw [exec_stagingEnqueue_staged s h, State.stagePut_staged h, if_pos hr, ite_self]

theorem stagedAs_write (r : Requester) (addr : Nat) (tg kp : Bool) (l : List Byte) : StagedAs ⟨r, addr, tg, .write l, kp⟩ l.length :=
  .inl ⟨l, rfl, rfl⟩

theorem stagedAs_signal (r : Requester) (addr : Nat) (tg kp : Bool) (v : Nat) : StagedAs ⟨r, addr, tg, .signal v, kp⟩ 8 :=
  .inr ⟨⟨v, .inl rfl⟩, rfl⟩

theorem stagedAs_set (r : Requester) (addr : Nat) (tg kp : Bool) (v : Nat) : StagedAs ⟨r, addr, tg, .set v, kp⟩ 8 :=
  .inr ⟨⟨v, .inr rfl⟩, rfl⟩

theorem injectionStop_lands (p src t stop : Nat) (hi : (s.dsp p).injecting.find? (fun e => e.1 == src) = some (src, t, stop))
    (hd : stop ≤ s.ct) :
    ∃ u q, u = s.setDsp p { s.dsp p with injecting := (s.dsp p).injecting.filter fun e => e.1 != src } ∧
      q = u.inject (u.injectSlots p (stagingRouter src) (2 * (t + 1)) (2 * stop)) (u.stage p src) ∧
      exec (.injectionStop p src) s = .next ((q.2.setStage p src q.1).countUp (btReg p 0x24) (q.1.filter (·.released)).length) := by
  refine ⟨_, _, rfl, rfl, ?_⟩
  change execInjectionStop p src s = _
  simp only [execInjectionStop, hi, if_pos hd]

/-! ## Packets at a router (R272 to R275) -/

theorem nocPacket_off_path (router p : Nat) (r : Requester) (ga : Nat) (back timed : Bool) (rival : Option (Requester × Bool))
    (h : s.nocHop router r ga back = none ∨ 4 ≤ p) : exec (.nocPacket router p r ga back timed rival) s = .next s := by
  change execNocPacket router p r ga back timed rival s = _
  cases hn : s.nocHop router r ga back with
  | none => simp only [execNocPacket, hn]
  | some io => simp only [execNocPacket, hn, if_pos (h.resolve_left (by rw [hn]; exact Option.some_ne_none io))]

theorem nocPacket_pass_through (router p i : Nat) (r : Requester) (ga : Nat) (back timed : Bool) (rival : Option (Requester × Bool))
    (hn : s.nocHop router r ga back = some (i, 4)) (hp : p < 4) (hr : router < 64) (hc : s.nClusters ≤ router) :
    exec (.nocPacket router p r ga back timed rival) s = .next ((s.raiseReq .addrUnmapped r (ga % 2 ^ 41)).answer r .error []) := by
  change execNocPacket router p r ga back timed rival s = _
  simp only [execNocPacket, hn, if_neg (Nat.not_le.2 hp), hr, hc, and_self, if_true]

section
variable (router p i o : Nat) (r : Requester) (ga : Nat) (back : Bool) (rival : Option (Requester × Bool)) (q : Requester)
  (hn : s.nocHop router r ga back = some (i, o)) (hp : p < 4) (hl : o ≠ 4 ∨ 64 ≤ router ∨ router < s.nClusters)
include hn hp hl

/-- A timed packet conflicts unless its slot is good, reserved for it, and no other timed packet wants the output (R272, R273). -/
theorem exec_nocPacket_timed : exec (.nocPacket router p r ga back true rival) s =
    .next (if !(s.slotEntry router).2 || (!((s.slotEntry router).2 && slotReserves (s.slotEntry router).1 o i p) ||
      rival.map (·.2) == some true) then s.routerConflict p router o else s) := by
  change execNocPacket router p r ga back true rival s = _
  simp only [execNocPacket, hn, if_neg (Nat.not_le.2 hp), if_neg (show ¬ (o = 4 ∧ router < 64 ∧ s.nClusters ≤ router) by omega), Bool.true_and]

theorem nocPacket_timed_conflicts (h : (s.slotEntry router).2 = false ∨ slotReserves (s.slotEntry router).1 o i p = false ∨
      rival.map (·.2) = some true) : exec (.nocPacket router p r ga back true rival) s = .next (s.routerConflict p router o) := by
  rw [exec_nocPacket_timed s router p i o r ga back rival hn hp hl, if_pos]
  rcases h with h | h | h <;> simp [h]

theorem nocPacket_timed_goes_on (he : (s.slotEntry router).2 = true) (hr : slotReserves (s.slotEntry router).1 o i p = true)
    (hv : rival.map (·.2) ≠ some true) : exec (.nocPacket router p r ga back true rival) s = .next s := by
  rw [exec_nocPacket_timed s router p i o r ga back rival hn hp hl, he, hr, beq_false_of_ne hv]
  rfl

/-- An elastic packet that loses to no other elastic one conflicts only with a slot entry of odd parity (R274, R275). -/
theorem exec_nocPacket_elastic (hw : ∀ q, rival = some (q, false) → nocWins s.nocTick r q = true) :
    exec (.nocPacket router p r ga back false rival) s =
      .next (if !(s.slotEntry router).2 then s.routerConflict p router o else s) := by
  change execNocPacket router p r ga back false rival s = _
  simp only [execNocPacket, hn, if_neg (Nat.not_le.2 hp), if_neg (show ¬ (o = 4 ∧ router < 64 ∧ s.nClusters ≤ router) by omega),
    Bool.false_and, Bool.or_false]
  split
  · next q _ => rw [if_pos (hw q rfl)]
  · rfl

theorem nocPacket_elastic_goes_on (he : (s.slotEntry router).2 = true) (hw : ∀ q, rival = some (q, false) → nocWins s.nocTick r q = true) :
    exec (.nocPacket router p r ga back false rival) s = .next s := by
  rw [exec_nocPacket_elastic s router p i o r ga back rival hn hp hl hw, he]
  rfl

theorem nocPacket_elastic_loses (he : (s.slotEntry router).2 = true) (hw : nocWins s.nocTick r q = false) :
    exec (.nocPacket router p r ga back false (some (q, false))) s = .next (s.ndTiming (some p)) := by
  change execNocPacket router p r ga back false (some (q, false)) s = _
  simp only [execNocPacket, hn, if_neg (Nat.not_le.2 hp), if_neg (show ¬ (o = 4 ∧ router < 64 ∧ s.nClusters ≤ router) by omega), he, hw,
    Bool.false_and, Bool.or_false, Bool.not_true, Bool.false_eq_true, if_false]

theorem nocPacket_elastic_odd_parity (he : (s.slotEntry router).2 = false)
    (hw : ∀ q, rival = some (q, false) → nocWins s.nocTick r q = true) :
    exec (.nocPacket router p r ga back false rival) s = .next (s.routerConflict p router o) := by
  rw [exec_nocPacket_elastic s router p i o r ga back rival hn hp hl hw, he]
  rfl

end

/-- Settles O17: timed tasks, the three kinds of staged access with room and without, the end of an injection, and packets by their hop. -/
theorem timedTasksAndStaging : Obligations.TimedTasksAndStaging :=
  ⟨timedTaskStart_starts, deadlineMiss_raised, fun s _ _ _ _ _ _ _ => stagingEnqueue_enters s (stagedAs_write ..),
    fun s _ _ _ _ _ _ _ => stagingEnqueue_full s (stagedAs_write ..), fun s _ _ _ _ _ _ _ => stagingEnqueue_enters s (stagedAs_signal ..),
    fun s _ _ _ _ _ _ _ => stagingEnqueue_full s (stagedAs_signal ..), fun s _ _ _ _ _ _ _ => stagingEnqueue_enters s (stagedAs_set ..),
    fun s _ _ _ _ _ _ _ => stagingEnqueue_full s (stagedAs_set ..), injectionStop_lands, nocPacket_off_path, nocPacket_pass_through,
    nocPacket_timed_conflicts, nocPacket_timed_goes_on, nocPacket_elastic_goes_on, nocPacket_elastic_loses, nocPacket_elastic_odd_parity⟩

end Sys2Proof.Machine
end

section
/-! SUPPORT. What arrives at a Spout port: packets by their kind and destination (R370 to R376), link blocks and replays (R366), and the
control packets of calibration and the barrier (R377, R378, R380). -/

namespace Sys2Proof.Machine

variable (s : State)

/-! ## Rows of the table and the kinds they name -/

/-- The rows that take a packet in, each with the kind it names. -/
def packetRows (n : Nat) (q : SpoutPacket) : List (Nat × Instr) :=
  [(kWrite, .spoutWrite n q), (kRead, .spoutRead n q), (kAtomic, .spoutAtomic n q), (kSignal, .spoutSignal n q), (kAck, .ack n q),
   (kData, .data n q), (kError, .error n q)]

/-- Each of these rows is an arrival of a packet of its kind. -/
theorem exec_packetRow {n k : Nat} {q : SpoutPacket} {i : Instr} (h : (k, i) ∈ packetRows n q) : exec i s = .next (s.spArrival n k q) := by
  simp only [packetRows, List.mem_cons, Prod.mk.injEq, List.not_mem_nil, or_false] at h
  rcases h with ⟨rfl, rfl⟩ | ⟨rfl, rfl⟩ | ⟨rfl, rfl⟩ | ⟨rfl, rfl⟩ | ⟨rfl, rfl⟩ | ⟨rfl, rfl⟩ | ⟨rfl, rfl⟩ <;> rfl

theorem packetRow_takes (n k : Nat) (q : SpoutPacket) (i : Instr) (h : (k, i) ∈ packetRows n q) (hp : s.portUp n = true) (hk : q.kind = k) :
    exec i s = .next (if (s.arrivePacket n q).1 then (s.arrivePacket n q).2 else s) := by
  rw [exec_packetRow s h, State.spArrival, if_pos (by rw [hp, hk, beq_self_eq_true]; rfl)]

theorem packetRow_ignores (n k : Nat) (q : SpoutPacket) (i : Instr) (h : (k, i) ∈ packetRows n q) (hn : s.portUp n = false ∨ q.kind ≠ k) :
    exec i s = .next s := by
  rw [exec_packetRow s h, State.spArrival, if_neg]
  rcases hn with hn | hn
  · rw [hn]; exact Bool.false_ne_true
  · rw [beq_false_of_ne hn, Bool.and_false]; exact Bool.false_ne_true

/-! ## Arriving packets (R370 to R376) -/

/-- The kinds of requests and responses (R372). -/
def dataKinds : List Nat := [kWrite, kRead, kAtomic, kSignal, kWatch, kWake, kAck, kData, kError]

/-- The kinds of responses. -/
def responseKinds : List Nat := [kAck, kData, kError]

/-- The kinds of requests that enter a staging queue (R373). -/
def stagedKinds : List Nat := [kWrite, kAtomic, kSignal]

/-- Requests and responses are neither control packets nor of a reserved kind. -/
theorem dataKinds_known : ∀ k ∈ dataKinds, ¬ (decide (kIdent ≤ k) && decide (k ≤ kGo)) = true ∧
    ¬ (!(decide (kWrite ≤ k) && decide (k ≤ kWake) || decide (kAck ≤ k) && decide (k ≤ kError))) = true := by decide

theorem responseKinds_answer : ∀ k ∈ responseKinds, k ∈ dataKinds ∧ kAck ≤ k := by decide

theorem stagedKinds_request : ∀ k ∈ stagedKinds, k ∈ dataKinds ∧ ¬ kAck ≤ k ∧ k ≠ kWake ∧ k ≠ kWatch ∧ k ≠ kRead := by decide

/-- A packet is for this chip: by the chip's own ID, or for whichever chip receives it. -/
def State.isForMe (s : State) (q : SpoutPacket) : Bool := q.dest == 127 || q.dest == s.selfId

section
variable {s} {n : Nat} {q : SpoutPacket}

theorem State.isForMe_true (h : q.dest = 127 ∨ q.dest = s.selfId) : s.isForMe q = true := by
  rcases h with h | h <;> simp [State.isForMe, h]

theorem State.isForMe_false (h1 : q.dest ≠ 127) (h2 : q.dest ≠ s.selfId) : s.isForMe q = false := by
  rw [State.isForMe, beq_false_of_ne h1, beq_false_of_ne h2]
  rfl

/-- A packet that is no control packet and of no reserved kind goes on, answers a request of this chip, or is a request for it. -/
theorem State.arrivePacket_data {u : State} (hu : u = s.count64Hold (spReg n 0x28) (16 + q.payload.length))
    (hk : q.kind ∈ dataKinds) : s.arrivePacket n q =
    if !u.isForMe q then (true, u.transit n q) else if kAck ≤ q.kind then (true, u.response n q) else u.spRequest n q := by
  subst hu
  obtain ⟨hctl, hres⟩ := dataKinds_known q.kind hk
  simp only [State.arrivePacket, if_neg hctl, if_neg hres]
  rfl

end

theorem arrivePacket_other_chip (n : Nat) (q : SpoutPacket) (u : State) (hu : u = s.count64Hold (spReg n 0x28) (16 + q.payload.length))
    (hk : q.kind ∈ dataKinds) (h1 : q.dest ≠ 127) (h2 : q.dest ≠ u.selfId) :
    s.arrivePacket n q = (true, u.transit n q) := by
  rw [State.arrivePacket_data hu hk, State.isForMe_false h1 h2]
  rfl

theorem arrivePacket_response (n : Nat) (q : SpoutPacket) (u : State) (hu : u = s.count64Hold (spReg n 0x28) (16 + q.payload.length))
    (hk : q.kind ∈ responseKinds) (hd : q.dest = 127 ∨ q.dest = u.selfId) : s.arrivePacket n q = (true, u.response n q) := by
  obtain ⟨hdata, hack⟩ := responseKinds_answer q.kind hk
  rw [State.arrivePacket_data hu hdata, State.isForMe_true hd, if_pos hack]
  rfl

section
variable (n p : Nat) (q : SpoutPacket) (u : State) (hu : u = s.count64Hold (spReg n 0x28) (16 + q.payload.length))
  (hk : q.kind ∈ stagedKinds) (hd : q.dest = 127 ∨ q.dest = u.selfId) (hm : u.masterPacket n q = false)
  (hb : u.bootRouting = false) (ho : u.spOwner n = some p) (ha : u.memOwner (homeOf (q.addr % 2 ^ 41)) = some p)
include hu hk hd hm hb ho ha

/-- A write, an atomic operation or a signal that the port's owner may send to its own memory (R374). -/
theorem State.arrivePacket_owned : s.arrivePacket n q =
    if u.scopeStopped p then (true, u.spAnswer n q kError [])
    else if q.kind = kAtomic ∧ (atomicOf q.atomicOp).isNone = true then (true, u.spAnswer n q kError [])
    else u.spStage n (some p) q := by
  obtain ⟨hdata, hack, hwake, hwatch, hread⟩ := stagedKinds_request q.kind hk
  rw [State.arrivePacket_data hu hdata, State.isForMe_true hd, if_neg (by decide), if_neg hack]
  simp only [State.spRequest, hm, hb, ho, ha, if_neg hwake, if_neg hwatch, if_neg hread, Option.isSome_some, beq_self_eq_true, Bool.and_self,
    Bool.not_true, Bool.false_eq_true, if_false]

theorem arrivePacket_stopped (hs : u.scopeStopped p = true) : s.arrivePacket n q = (true, u.spAnswer n q kError []) := by
  rw [State.arrivePacket_owned s n p q u hu hk hd hm hb ho ha, if_pos hs]

theorem arrivePacket_staged (hs : u.scopeStopped p = false) (hop : q.kind = kAtomic → (atomicOf q.atomicOp).isSome = true) :
    s.arrivePacket n q = u.spStage n (some p) q := by
  have hknown : ¬ (q.kind = kAtomic ∧ (atomicOf q.atomicOp).isNone = true) := by
    rintro ⟨h, hn⟩
    rw [Option.isNone_iff_eq_none.1 hn] at hop
    exact Bool.false_ne_true (hop h)
  rw [State.arrivePacket_owned s n p q u hu hk hd hm hb ho ha, if_neg (by rw [hs]; decide), if_neg hknown]

end

/-! ## Link blocks and replays (R366) -/

theorem linkBlock_port_down (n : Nat) (b : LinkBlock) (hp : s.portUp n = false) : exec (.linkBlock n b) s = .next s :=
  congrArg Host.Outcome.next (if_neg (by rw [hp]; exact Bool.false_ne_true))

theorem exec_linkBlock_up {n : Nat} (b : LinkBlock) (hp : s.portUp n = true) : exec (.linkBlock n b) s = .next (s.linkBlock n b) :=
  congrArg Host.Outcome.next (if_pos hp)

section
variable (n : Nat) (b : LinkBlock) (u v : State) (hp : s.portUp n = true)
  (hu : u = if 1 ≤ b.symbolErrors ∧ b.symbolErrors ≤ 5 then s.countUp (spReg n 0x14) 1 else s)
include hp hu

theorem linkBlock_delivers (hc : b.crcOk = true) (hs : b.symbolErrors ≤ 5) (hn : b.seq = (s.port n).rxNext)
    (hv : (u.setPort n { s.port n with rxNext := ((s.port n).rxNext + 1) % 2 ^ 16, replaying := false, replays := 0 }).deliverAll n b.packets =
      (true, v)) : exec (.linkBlock n b) s = .next v := by
  have hawaits : ¬ ((s.port n).replaying && b.seq != (s.port n).rxNext) = true := by simp [hn]
  have hgood : ((b.crcOk && decide (b.symbolErrors ≤ 5)) && b.seq == (s.port n).rxNext) = true := by simp [hc, hs, hn]
  rw [exec_linkBlock_up s b hp]
  simp only [State.linkBlock, ← hu, if_neg hawaits, if_pos hgood, hv, if_true]

theorem linkBlock_ignored (hr : (s.port n).replaying = true) (hn : b.seq ≠ (s.port n).rxNext) : exec (.linkBlock n b) s = .next u := by
  have hawaits : ((s.port n).replaying && b.seq != (s.port n).rxNext) = true := by simp [hr, hn]
  rw [exec_linkBlock_up s b hp]
  simp only [State.linkBlock, ← hu, if_pos hawaits]

variable (ha : (s.port n).replaying = false ∨ b.seq = (s.port n).rxNext)
  (hf : b.crcOk = false ∨ 5 < b.symbolErrors ∨ b.seq ≠ (s.port n).rxNext)
include ha hf

/-- A failed block at a port that awaits no replay of another takes the link down or asks for a replay. -/
theorem exec_linkBlock_failed : exec (.linkBlock n b) s =
    .next (if 8 ≤ (s.port n).replays + 1 then u.linkDown n
      else (u.setPort n { s.port n with replaying := true, replays := (s.port n).replays + 1 }).send (.replay n (s.port n).rxNext)) := by
  have hawaits : ¬ ((s.port n).replaying && b.seq != (s.port n).rxNext) = true := by
    rcases ha with h | h <;> simp [h]
  have hbad : ¬ ((b.crcOk && decide (b.symbolErrors ≤ 5)) && b.seq == (s.port n).rxNext) = true := by
    rcases hf with h | h | h <;> simp [h]
  rw [exec_linkBlock_up s b hp]
  simp only [State.linkBlock, ← hu, if_neg hawaits, if_neg hbad]

theorem linkBlock_takes_down (h8 : 8 ≤ (s.port n).replays + 1) : exec (.linkBlock n b) s = .next (u.linkDown n) := by
  rw [exec_linkBlock_failed s n b u hp hu ha hf, if_pos h8]

theorem linkBlock_asks_replay (h8 : (s.port n).replays + 1 < 8) : exec (.linkBlock n b) s =
    .next ((u.setPort n { s.port n with replaying := true, replays := (s.port n).replays + 1 }).send (.replay n (s.port n).rxNext)) := by
  rw [exec_linkBlock_failed s n b u hp hu ha hf, if_neg (Nat.not_le.2 h8)]

end

theorem replayRequest_sends (n k : Nat) (hp : s.portUp n = true) (hb : ((s.port n).buf.dropWhile fun e => e.1 != k) ≠ []) :
    exec (.replayRequest n k) s = .next { s.countUp (spReg n 0x18) 1 with
      out := s.out ++ ((s.port n).buf.dropWhile fun e => e.1 != k).map fun e => .packet n e.2 } :=
  congrArg Host.Outcome.next (if_pos (by rw [hp, List.isEmpty_eq_false_iff.2 hb]; rfl))

theorem replayRequest_ignored (n k : Nat) (h : s.portUp n = false ∨ ((s.port n).buf.dropWhile fun e => e.1 != k) = []) :
    exec (.replayRequest n k) s = .next s := by
  refine congrArg Host.Outcome.next (if_neg ?_)
  rcases h with h | h
  · rw [h]; exact Bool.false_ne_true
  · rw [h, List.isEmpty_nil, Bool.not_true, Bool.and_false]; exact Bool.false_ne_true

/-! ## Calibration and the start barrier (R377, R378, R380) -/

/-- A control packet of the kind expected, at a port that is up. -/
theorem control_accepted {n k : Nat} {q : SpoutPacket} (hp : s.portUp n = true) (hk : q.kind = k) :
    (s.portUp n && q.kind == k) = true := by
  rw [hp, hk, beq_self_eq_true]
  rfl

theorem control_ignored {n k : Nat} {q : SpoutPacket} (h : s.portUp n = false ∨ q.kind ≠ k) : (s.portUp n && q.kind == k) = false := by
  rcases h with h | h
  · rw [h, Bool.false_and]
  · rw [beq_false_of_ne h, Bool.and_false]

theorem calib_measures (n : Nat) (q : SpoutPacket) (hp : s.portUp n = true) (hk : q.kind = kCalib) :
    exec (.calib n q) s = .next (s.calib n q) :=
  congrArg Host.Outcome.next (if_pos (control_accepted s hp hk))

theorem calib_answers (n : Nat) (q : SpoutPacket) (hp : s.portUp n = true) (hk : q.kind = kCalib) (h0 : q.atomicOp = 0) :
    exec (.calib n q) s = .next (s.spControl n kCalib 1 (leBytes 4 0)) := by
  rw [calib_measures s n q hp hk, State.calib, if_pos h0]

theorem calib_ignored (n : Nat) (q : SpoutPacket) (h : s.portUp n = false ∨ q.kind ≠ kCalib) : exec (.calib n q) s = .next s :=
  congrArg Host.Outcome.next (if_neg (by rw [control_ignored s h]; exact Bool.false_ne_true))

theorem arrive_from_child (n : Nat) (q : SpoutPacket) (hp : s.portUp n = true) (hk : q.kind = kArrive)
    (hc : s.barChildren.contains n = true) : exec (.arrive n q) s = .next (s.arriveIn n q) :=
  congrArg Host.Outcome.next (if_pos (by rw [control_accepted s hp hk, hc]; rfl))

theorem arrive_ignored (n : Nat) (q : SpoutPacket) (h : s.portUp n = false ∨ q.kind ≠ kArrive ∨ n ∉ s.barChildren) :
    exec (.arrive n q) s = .next s := by
  refine congrArg Host.Outcome.next (if_neg fun ht => ?_)
  obtain ⟨hcontrol, hchild⟩ := Bool.and_eq_true_iff.1 ht
  rcases or_assoc.2 h with h | h
  · exact Bool.false_ne_true ((control_ignored s h).symm.trans hcontrol)
  · exact h (List.contains_iff_mem.1 hchild)

theorem go_from_parent (n : Nat) (q : SpoutPacket) (hp : s.portUp n = true) (hk : q.kind = kGo) (hn : n = s.barParent) :
    exec (.go n q) s = .next (s.goIn n q) :=
  congrArg Host.Outcome.next (if_pos (by rw [control_accepted s hp hk, beq_iff_eq.2 hn]; rfl))

theorem go_ignored (n : Nat) (q : SpoutPacket) (h : s.portUp n = false ∨ q.kind ≠ kGo ∨ n ≠ s.barParent) :
    exec (.go n q) s = .next s := by
  refine congrArg Host.Outcome.next (if_neg fun ht => ?_)
  obtain ⟨hcontrol, hparent⟩ := Bool.and_eq_true_iff.1 ht
  rcases or_assoc.2 h with h | h
  · exact Bool.false_ne_true ((control_ignored s h).symm.trans hcontrol)
  · exact h (beq_iff_eq.1 hparent)

/-- Settles O26: packets by row, kind and destination, link blocks by their outcome, and the control packets by where they come from. -/
theorem spoutPackets : Obligations.SpoutPackets :=
  ⟨packetRow_takes, arrivePacket_other_chip, arrivePacket_response, arrivePacket_stopped, arrivePacket_staged, linkBlock_delivers,
    linkBlock_ignored, linkBlock_takes_down, linkBlock_asks_replay, replayRequest_sends, calib_measures, calib_answers, arrive_from_child,
    go_from_parent, packetRow_ignores, linkBlock_port_down, replayRequest_ignored, calib_ignored, arrive_ignored, go_ignored⟩

end Sys2Proof.Machine
end

section
/-! SUPPORT. The service complex (R405 to R408): what its cores may access and how it is served; and the ports of partition S: the MACs
(R359, R409), the UARTs and the PCI Express link (R525). -/

namespace Sys2Proof.Machine

variable (s : State)

theorem harts_enables (h v : Nat) (_ : s.regsWf = true) :
    completes (.harts (.hart h) v) s fun t => t = s.orReg (stReg 0x5108) (v % 256 / 2 * 2) ∧ onlyRegs s t [stReg 0x5108] :=
  ⟨_, rfl, rfl, onlyRegs_orReg s _ _⟩

theorem harts_other (r : Requester) (v : Nat) (hr : ∀ h, r ≠ .hart h) : exec (.harts r v) s = .next s := by
  change execHarts r v s = _
  unfold execHarts
  split
  · exact absurd rfl (hr _)
  · rfl

/-! ## Accesses of the cores (R405 to R407) -/

theorem scAccess_not_enabled (h : Nat) (a : Access) (cache : Option CacheOp)
    (hn : 8 ≤ h ∨ 3 ≤ s.recState 4 ∨ (h ≠ 0 ∧ bit (s.rd (stReg 0x5108)) h = false)) : exec (.scAccess h a cache) s = .next s :=
  congrArg Host.Outcome.next (if_pos hn)

section
variable {s} {h x p : Nat} {a b : Access}

/-- A core of the block that partition S has enabled, partition S being in service (R405). -/
theorem core_enabled (hh : h < 8) (hr : s.recState 4 < 3) (he : h = 0 ∨ bit (s.rd (stReg 0x5108)) h = true) :
    ¬ (8 ≤ h ∨ 3 ≤ s.recState 4 ∨ (h ≠ 0 ∧ bit (s.rd (stReg 0x5108)) h = false)) := by
  rintro (h8 | h3 | ⟨h0, hb⟩)
  · exact absurd hh (Nat.not_lt.2 h8)
  · exact absurd hr (Nat.not_lt.2 h3)
  · exact he.elim h0 fun ht => Bool.false_ne_true (hb.symm.trans ht)

/-- Where a core's store goes in a compute region: accepted into the staging queue of partition S, answered unless it is an atomic
operation, which its own landing answers. -/
def State.scStaged (s : State) (h : Nat) (kind : AccessKind) (q : Bool × State) : State :=
  if q.1 then (match kind with
    | .atomic _ _ _ => q.2
    | _ => q.2.answer (.hart h) .ok []) else s

theorem State.scStaged_held {kind : AccessKind} {q : Bool × State} (hq : q.1 = false) : s.scStaged h kind q = s :=
  if_neg (by rw [hq]; exact Bool.false_ne_true)

end

section
variable (h x n p : Nat) (a b : Access) (u : State) (l : List Byte) (o : AtomicOp) (v w : Nat) (op : CacheOp) (hh : h < 8)
  (hr : s.recState 4 < 3) (he : h = 0 ∨ bit (s.rd (stReg 0x5108)) h = true) (hb : b = { a with req := .hart h })
include hh hr he hb

theorem scAccess_outside_windows (hw : s.swinOk a.addr (accessLen b) (accessRight b) = false) :
    exec (.scAccess h a none) s = .next ((s.raiseReq .bbViolation (.hart h) a.addr).answer (.hart h) .error []) := by
  subst hb
  change execScAccess h a none s = _
  simp only [execScAccess, if_neg (core_enabled hh hr he), hw, Option.isSome_none, Bool.false_and, Bool.false_eq_true, Bool.not_false,
    if_false, if_true]

section
variable (hw : s.swinOk a.addr (accessLen b) (accessRight b) = true)
include hw

theorem scAccess_other_chip (hl : s.localOf a.addr = none) : exec (.scAccess h a none) s = .next (s.sendAccess b) := by
  subst hb
  change execScAccess h a none s = _
  simp only [execScAccess, if_neg (core_enabled hh hr he), hw, hl, Option.isSome_none, Bool.false_and, Bool.false_eq_true, Bool.not_true,
    if_false]

section
variable (hl : s.localOf a.addr = some x)
include hl

theorem scAccess_load (hk : a.kind = .read n) (hp : s.computePart (homeOf x) = some p) :
    exec (.scAccess h a none) s = .next (s.serveAccess x b) := by
  subst hb
  change execScAccess h a none s = _
  simp only [execScAccess, if_neg (core_enabled hh hr he), hw, hl, hp, Option.isSome_none, Bool.false_and, Bool.false_eq_true,
    Bool.not_true, if_false]
  simp only [hk, Bool.false_eq_true, if_false]

theorem scAccess_own_memory (hp : s.computePart (homeOf x) = none) :
    exec (.scAccess h a none) s = .next (if x < lpddrTop then s.cached h x b else s.serveAccess x b) := by
  subst hb
  change execScAccess h a none s = _
  simp only [execScAccess, if_neg (core_enabled hh hr he), hw, hl, hp, Option.isSome_none, Bool.false_and, Bool.false_eq_true,
    Bool.not_true, if_false]

/-- Whatever a core stores into a compute region, its access goes to staging queue 25 of that region's partition (R406). -/
theorem exec_scAccess_store (hk : ∀ n, a.kind ≠ .read n) (hp : s.computePart (homeOf x) = some p) :
    exec (.scAccess h a none) s = .next (s.scStaged h a.kind (s.stagePut p 25 b none)) := by
  subst hb
  change execScAccess h a none s = _
  simp only [execScAccess, if_neg (core_enabled hh hr he), hw, hl, hp, Option.isSome_none, Bool.false_and, Bool.false_eq_true,
    Bool.not_true, if_false]
  cases hkind : a.kind with
  | read n => exact absurd hkind (hk n)
  | write l => rfl
  | atomic o v w => rfl
  | signal v => rfl
  | set v => rfl

theorem scAccess_store_held (hk : ∀ n, a.kind ≠ .read n) (hp : s.computePart (homeOf x) = some p)
    (hq : (s.stagePut p 25 b none).1 = false) : exec (.scAccess h a none) s = .next s := by
  rw [exec_scAccess_store s h x p a b hh hr he hb hw hl hk hp, State.scStaged_held hq]

theorem scAccess_write (hk : a.kind = .write l) (hp : s.computePart (homeOf x) = some p) (hq : s.stagePut p 25 b none = (true, u)) :
    exec (.scAccess h a none) s = .next (u.answer (.hart h) .ok []) := by
  rw [exec_scAccess_store s h x p a b hh hr he hb hw hl (fun _ h => AccessKind.noConfusion (hk.symm.trans h)) hp, hk, hq]
  rfl

theorem scAccess_signal (hk : a.kind = .signal v) (hp : s.computePart (homeOf x) = some p) (hq : s.stagePut p 25 b none = (true, u)) :
    exec (.scAccess h a none) s = .next (u.answer (.hart h) .ok []) := by
  rw [exec_scAccess_store s h x p a b hh hr he hb hw hl (fun _ h => AccessKind.noConfusion (hk.symm.trans h)) hp, hk, hq]
  rfl

theorem scAccess_set (hk : a.kind = .set v) (hp : s.computePart (homeOf x) = some p) (hq : s.stagePut p 25 b none = (true, u)) :
    exec (.scAccess h a none) s = .next (u.answer (.hart h) .ok []) := by
  rw [exec_scAccess_store s h x p a b hh hr he hb hw hl (fun _ h => AccessKind.noConfusion (hk.symm.trans h)) hp, hk, hq]
  rfl

theorem scAccess_atomic (hk : a.kind = .atomic o v w) (hp : s.computePart (homeOf x) = some p) (hq : s.stagePut p 25 b none = (true, u)) :
    exec (.scAccess h a none) s = .next u := by
  rw [exec_scAccess_store s h x p a b hh hr he hb hw hl (fun _ h => AccessKind.noConfusion (hk.symm.trans h)) hp, hk, hq]
  rfl

end

end

section
variable (hw : s.swinOk a.addr (accessLen b) .write = true)
include hw

theorem scAccess_cache_block (hl : s.localOf a.addr = some x) :
    exec (.scAccess h a (some op)) s = .next ((s.l2Cbo op x (accessLen b)).answer (.hart h) .ok []) := by
  subst hb
  change execScAccess h a (some op) s = _
  simp only [execScAccess, if_neg (core_enabled hh hr he), hw, hl, Option.isSome_some, Bool.and_self, if_true]

theorem scAccess_cache_block_other_chip (hl : s.localOf a.addr = none) :
    exec (.scAccess h a (some op)) s = .next (s.answer (.hart h) .ok []) := by
  subst hb
  change execScAccess h a (some op) s = _
  simp only [execScAccess, if_neg (core_enabled hh hr he), hw, hl, Option.isSome_some, Bool.and_self, if_true]

end

theorem scAccess_cache_block_outside_windows (hw : s.swinOk a.addr (accessLen b) .write = false) :
    exec (.scAccess h a (some op)) s = .next ((s.raiseReq .bbViolation (.hart h) a.addr).answer (.hart h) .error []) := by
  subst hb
  change execScAccess h a (some op) s = _
  simp only [execScAccess, if_neg (core_enabled hh hr he), hw, Option.isSome_some, Bool.and_false, Bool.false_eq_true, if_false, if_true]

end

/-! ## The MACs (R359, R409) -/

theorem macTransmit_waits (e : Nat) (h : 4 ≤ e ∨ bit (s.rd (macReg e 0)) 0 = false ∨ s.macHalt = true ∨ (s.macRing e true).2 = 0 ∨
      s.lpReady (s.macRing e true).1 (16 * (s.macRing e true).2) = false) : exec (.macTransmit e) s = .next s := by
  refine congrArg Host.Outcome.next (if_neg ?_)
  rintro ⟨he, hb, hh, hn, hr⟩
  rcases h with h | h | h | h | h
  · exact absurd he (Nat.not_lt.2 h)
  · exact Bool.false_ne_true (h.symm.trans hb)
  · exact Bool.false_ne_true (hh.symm.trans h)
  · exact hn.ne' h
  · exact Bool.false_ne_true (h.symm.trans hr)

section
variable (e n : Nat) (f : List Byte) (b : Bool) (u w : State) (he : e < 4) (hb : bit (s.rd (macReg e 0)) 0 = true) (hh : s.macHalt = false)
  (hn : 0 < (s.macRing e true).2) (hr : s.lpReady (s.macRing e true).1 (16 * (s.macRing e true).2) = true)
include he hb hh hn hr

theorem macTransmit_no_frame (hg : s.txGather e (min (s.macRing e true).2 1024) 0 = (none, w)) : exec (.macTransmit e) s = .next w := by
  change execMacTransmit e s = _
  simp only [execMacTransmit, if_pos (show _ ∧ _ ∧ _ ∧ _ ∧ _ from ⟨he, hb, hh, hn, hr⟩), hg]

theorem macTransmit_sends (hg : s.txGather e (min (s.macRing e true).2 1024) 0 = (some (n, f), w)) (hs : w.stampFrame e true f 0 = (b, u)) :
    ∃ v, v = (List.range n).foldl (fun v k => v.txDone e b k) u ∧ exec (.macTransmit e) s =
      .next (((v.setMac e { v.mac e with tx := ((v.mac e).tx + n) % (s.macRing e true).2 }).send (.frame e f)).send (.scIrq (6 + 2 * e))) := by
  refine ⟨_, rfl, ?_⟩
  change execMacTransmit e s = _
  simp only [execMacTransmit, if_pos (show _ ∧ _ ∧ _ ∧ _ ∧ _ from ⟨he, hb, hh, hn, hr⟩), hg, hs]

end

/-! ## The UARTs and the PCI Express link (R408, R525) -/

theorem uartReceive_interrupts (u ch : Nat) (hu : u < 2) (hb : bit (fieldAt (s.record 5 7) 1 1) u = true) :
    exec (.uartReceive u ch) s = .next (s.send (.scIrq (22 + u))) :=
  congrArg Host.Outcome.next (if_pos (by rw [decide_eq_true hu, hb]; rfl))

theorem uartReceive_ignored (u ch : Nat) (h : 2 ≤ u ∨ bit (fieldAt (s.record 5 7) 1 1) u = false) :
    exec (.uartReceive u ch) s = .next s := by
  refine congrArg Host.Outcome.next (if_neg fun ht => ?_)
  obtain ⟨hu, hb⟩ := Bool.and_eq_true_iff.1 ht
  rcases h with h | h
  · exact absurd (of_decide_eq_true hu) (Nat.not_lt.2 h)
  · exact Bool.false_ne_true (h.symm.trans hb)

/-- What PCIE_LINK_TRAINING tests: a width and a speed that a link has, the device out of reset, and a state with the link powered. -/
theorem pcieLinkTraining_test {w g : Nat} : ([1, 2, 4, 8].contains w && [4, 5].contains g && s.power.released && decide (s.pmState ≤ 1)) = true ↔
    w ∈ [1, 2, 4, 8] ∧ g ∈ [4, 5] ∧ s.power.released = true ∧ s.pmState ≤ 1 := by
  rw [Bool.and_eq_true, Bool.and_eq_true, Bool.and_eq_true, List.contains_iff_mem, List.contains_iff_mem, decide_eq_true_iff, and_assoc,
    and_assoc]

theorem pcieLinkTraining_trains (w g : Nat) (hw : w = 1 ∨ w = 2 ∨ w = 4 ∨ w = 8) (hg : g = 4 ∨ g = 5) (hr : s.power.released = true)
    (hp : s.pmState ≤ 1) : completes (.pcieLinkTraining w g) s fun t =>
      t = ((s.setFld (peReg 0) 7 4 w).setFld (peReg 0) 3 1 g).setFld (peReg 0) 0 0 1 ∧ onlyRegs s t [peReg 0] := by
  have hmw : w ∈ [1, 2, 4, 8] := by simpa using hw
  have hmg : g ∈ [4, 5] := by simpa using hg
  refine ⟨_, congrArg Host.Outcome.next (if_pos ((pcieLinkTraining_test s).2 ⟨hmw, hmg, hr, hp⟩)), rfl, ?_⟩
  have hthree := onlyRegs_trans (onlyRegs_trans (onlyRegs_setFld s (peReg 0) 7 4 w) (onlyRegs_setFld _ (peReg 0) 3 1 g))
    (onlyRegs_setFld _ (peReg 0) 0 0 1)
  obtain ⟨hread, hhw, hlate, hrest⟩ := hthree
  exact ⟨fun a ha => hread a (by simpa using ha), fun e he => (hhw e he).imp_right (by simp), fun e he => (hlate e he).imp_right (by simp), hrest⟩

theorem pcieLinkTraining_ignored (w g : Nat) (h : w ∉ [1, 2, 4, 8] ∨ g ∉ [4, 5] ∨ s.power.released = false ∨ 1 < s.pmState) :
    exec (.pcieLinkTraining w g) s = .next s := by
  refine congrArg Host.Outcome.next (if_neg (mt (pcieLinkTraining_test s).1 ?_))
  rintro ⟨hw, hg, hr, hp⟩
  rcases h with h | h | h | h
  · exact h hw
  · exact h hg
  · exact Bool.false_ne_true (h.symm.trans hr)
  · exact absurd hp (Nat.not_le.2 h)

/-- Settles O29: the cores' enable and accesses, then each port of partition S. -/
theorem serviceComplexAndPorts : Obligations.ServiceComplexAndPorts :=
  ⟨harts_enables, scAccess_not_enabled, scAccess_outside_windows, scAccess_other_chip, scAccess_load, scAccess_own_memory, scAccess_write,
    scAccess_signal, scAccess_set, scAccess_atomic, scAccess_store_held, scAccess_cache_block, scAccess_cache_block_other_chip,
    scAccess_cache_block_outside_windows, macTransmit_waits, macTransmit_no_frame, macTransmit_sends, uartReceive_interrupts,
    pcieLinkTraining_trains, harts_other, uartReceive_ignored, pcieLinkTraining_ignored⟩

end Sys2Proof.Machine
end

section
/-! SUPPORT. Structure Images (R36 to R45): the submission and its checks, the acceptance, the hot switch and the revert. -/

namespace Sys2Proof.Machine

variable (s : State)

/-! ## A command of the image store that has started (R399) -/

@[simp] theorem State.hotPending_begin (ring idx : Nat) : (s.begin_ ring idx).hotPending = s.hotPending := rfl

/-! ## Submission (R36, R37, R39) -/

/-- A submitted image by the verdict on its signatures: the first check that fails decides. -/
theorem State.siChecked_of_judge {ring idx : Nat} {img : List Byte} {ed ml : Bool} {j : SigVerdict × State}
    (hj : s.judge (s.siKey img) (img.take (fieldAt img 0xC 4)) ⟨ed, ml⟩ = j) : s.siChecked ring idx img ed ml =
      if j.2.siCheck img j.1.ed j.1.ml = 0 then j.2.siAccept ring idx img
      else j.2.siFail ring idx img (j.2.siCheck img j.1.ed j.1.ml) := by
  subst hj
  rfl

/-- A submission that may start reads n bytes, at most 4 MiB, once all of them are in service. -/
theorem exec_siSubmit_taken {ring idx n : Nat} (ed ml : Bool) {k : Cmd} (hn : s.si.submission = none)
    (h : s.mbCmd ring idx 0x01 = some k) (hm : min (k.arg 0x10 4) 0x400000 = n) (hr : s.lpReady (k.arg 8 6) n = true) :
    exec (.siSubmit ring idx ed ml) s = .next (if s.hotPending then (s.begin_ ring idx).siEnd ring idx 9
      else if n = 0 then (s.begin_ ring idx).siChecked ring idx [] ed ml
      else ((s.begin_ ring idx).memRead .steward (k.arg 8 6) n).2.siChecked ring idx
        (if ((s.begin_ ring idx).memRead .steward (k.arg 8 6) n).1.err.isSome then []
          else ((s.begin_ ring idx).memRead .steward (k.arg 8 6) n).1.bytes) ed ml) := by
  change execSiSubmit ring idx ed ml s = _
  simp only [execSiSubmit, hn, h, hm, hr, Option.isSome_none, Bool.not_true, Bool.false_eq_true, if_false, State.hotPending_begin]

theorem siSubmit_checked (ring idx : Nat) (ed ml : Bool) (k : Cmd) (q : RdRes × State) (img : List Byte) (j : SigVerdict × State)
    (hn : s.si.submission = none) (h : s.mbCmd ring idx 0x01 = some k) (h0 : 0 < k.arg 0x10 4) (hm : k.arg 0x10 4 ≤ 0x400000)
    (hr : s.lpReady (k.arg 8 6) (k.arg 0x10 4) = true) (hp : s.hotPending = false)
    (hq : (s.begin_ ring idx).memRead .steward (k.arg 8 6) (k.arg 0x10 4) = q)
    (hi : (if q.1.err.isSome then [] else q.1.bytes) = img)
    (hj : q.2.judge (q.2.siKey img) (img.take (fieldAt img 0xC 4)) ⟨ed, ml⟩ = j) :
    completes (.siSubmit ring idx ed ml) s fun t =>
      (j.2.siCheck img j.1.ed j.1.ml = 0 →
        t.si = { j.2.si with submission := some ⟨img.take (fieldAt img 0xC 4), ring, idx⟩ } ∧ t.mem = j.2.mem) ∧
      (j.2.siCheck img j.1.ed j.1.ml ≠ 0 → t = j.2.siFail ring idx img (j.2.siCheck img j.1.ed j.1.ml)) := by
  have hexec : exec (.siSubmit ring idx ed ml) s = .next (q.2.siChecked ring idx img ed ml) := by
    rw [exec_siSubmit_taken s ed ml hn h (Nat.min_eq_left hm) hr, hp, if_neg Bool.false_ne_true, if_neg h0.ne', hq, hi]
  refine ⟨_, hexec, fun hc => ?_, fun hc => ?_⟩
  · rw [State.siChecked_of_judge q.2 hj, if_pos hc]
    exact ⟨rfl, rfl⟩
  · rw [State.siChecked_of_judge q.2 hj, if_neg hc]

theorem siSubmit_busy (ring idx : Nat) (ed ml : Bool) (k : Cmd) (hn : s.si.submission = none) (h : s.mbCmd ring idx 0x01 = some k)
    (hr : s.lpReady (k.arg 8 6) (min (k.arg 0x10 4) 0x400000) = true) (hp : s.hotPending = true) :
    exec (.siSubmit ring idx ed ml) s = .next ((s.begin_ ring idx).siEnd ring idx 9) := by
  rw [exec_siSubmit_taken s ed ml hn h rfl hr, if_pos hp]

/-! ## Acceptance (R38) and hot switch (R40 to R42) -/

theorem imageAcceptance_accepts (q : Submission) (hq : s.si.submission = some q) (hu : s.stewardUp = true) :
    exec .imageAcceptance s = .next ((((s.wr (stReg 0x100C) (max (s.rd (stReg 0x100C)) (imgVersion q.image))).wr (stReg 0x1010)
      (max (s.rd (stReg 0x1010)) (imgVersion s.si.current))).adopt q.image false).siEnd q.ring q.idx 0) := by
  change execImageAcceptance s = _
  simp only [execImageAcceptance, hq, hu, Bool.not_true, Bool.false_eq_true, if_false]

/-- What HOT_SWITCH tests: a record that waits for partition p, its boundary tick, and both times of R40. -/
theorem hotSwitch_test {p : Nat} {due : Bool} (hd : due = true) (hp : p < 4) (hb : s.atBoundary p = true)
    (ha : reached s.time (s.si.acceptAt + 2000000) = true)
    (hw : imgAfter s.si.current = 0 ∨ reached s.time (imgAfter s.si.current) = true) :
    (due && decide (p < 4) && s.atBoundary p && reached s.time (s.si.acceptAt + 2000000) &&
      (imgAfter s.si.current == 0 || reached s.time (imgAfter s.si.current))) = true := by
  have hafter : (imgAfter s.si.current == 0 || reached s.time (imgAfter s.si.current)) = true :=
    Bool.or_eq_true_iff.2 (hw.imp_left beq_iff_eq.2)
  rw [hd, decide_eq_true hp, hb, ha, hafter]
  rfl

theorem hotSwitch_switches (p : Nat) (mine dev : Bool) (hm : mine = s.si.hotPend.contains p)
    (hd : dev = (s.si.hotDev && imgFallback s.si.current == p)) (hdue : (mine || dev) = true) (hp : p < 4) (hb : s.atBoundary p = true)
    (ha : reached s.time (s.si.acceptAt + 2000000) = true)
    (hw : imgAfter s.si.current = 0 ∨ reached s.time (imgAfter s.si.current) = true) :
    completes (.hotSwitch p) s fun t => ∃ u v,
      (mine = true → ∃ w, w = (((s.takeRecords hotTypes p).applySev p).applySlots p).switchTable p ∧
        u = { w with si := { w.si with hotPend := w.si.hotPend.filter fun q => q != p } }) ∧ (mine = false → u = s) ∧
      v = (if dev then State.takeHotDevice u else u) ∧ t = (State.wr64 v (stReg 0x1014) v.time).showSi := by
  subst hm hd
  exact ⟨_, congrArg Host.Outcome.next (if_pos (hotSwitch_test s hdue hp hb ha hw)), _, _, fun h => ⟨_, rfl, if_pos h⟩,
    fun h => if_neg (ne_true_of_eq_false h), rfl, rfl⟩

/-! ## Revert (R45) -/

/-- A revert that may start, by what the image store holds. -/
theorem exec_siRevert_taken {ring idx : Nat} {k : Cmd} (hn : s.si.submission = none) (h : s.mbCmd ring idx 0x02 = some k) :
    exec (.siRevert ring idx) s = .next (if s.hotPending then (s.begin_ ring idx).siEnd ring idx 9
      else if s.si.previous.isEmpty || bit (s.rd (stReg 0x1000)) 13 || decide (imgVersion s.si.previous < s.rd (stReg 0x1010)) then
        (s.begin_ ring idx).siEnd ring idx 0xA
      else ((s.begin_ ring idx).adopt s.si.previous true).siEnd ring idx 0) :=
  (congrArg Host.Outcome.next (if_neg (by rw [hn]; decide))).trans (congrArg Host.Outcome.next (State.mbox_taken _ h))

/-- No previous image that may be current again: there is none, it is revoked, or it lies below the floor. -/
theorem noRevertible_iff : (s.si.previous.isEmpty || bit (s.rd (stReg 0x1000)) 13 ||
      decide (imgVersion s.si.previous < s.rd (stReg 0x1010))) = true ↔
    s.si.previous.isEmpty = true ∨ bit (s.rd (stReg 0x1000)) 13 = true ∨ imgVersion s.si.previous < s.rd (stReg 0x1010) := by
  rw [Bool.or_eq_true, Bool.or_eq_true, decide_eq_true_iff, or_assoc]

theorem siRevert_reverts (ring idx : Nat) (k : Cmd) (hn : s.si.submission = none) (h : s.mbCmd ring idx 0x02 = some k)
    (hp : s.hotPending = false) : completes (.siRevert ring idx) s fun t =>
      (s.si.previous.isEmpty = false ∧ bit (s.rd (stReg 0x1000)) 13 = false ∧ s.rd (stReg 0x1010) ≤ imgVersion s.si.previous →
        t = ((s.begin_ ring idx).adopt s.si.previous true).siEnd ring idx 0) ∧
      (s.si.previous.isEmpty = true ∨ bit (s.rd (stReg 0x1000)) 13 = true ∨ imgVersion s.si.previous < s.rd (stReg 0x1010) →
        t = (s.begin_ ring idx).siEnd ring idx 0xA) := by
  refine ⟨_, exec_siRevert_taken s hn h, ?_, fun hno => ?_⟩
  · rintro ⟨he, hr, hf⟩
    have hyes := mt (noRevertible_iff s).1 (by rw [he, hr]; simpa using hf)
    rw [hp, if_neg Bool.false_ne_true, if_neg hyes]
  · rw [hp, if_neg Bool.false_ne_true, if_pos ((noRevertible_iff s).2 hno)]

theorem siRevert_busy (ring idx : Nat) (k : Cmd) (hn : s.si.submission = none) (h : s.mbCmd ring idx 0x02 = some k)
    (hp : s.hotPending = true) : exec (.siRevert ring idx) s = .next ((s.begin_ ring idx).siEnd ring idx 9) := by
  rw [exec_siRevert_taken s hn h, if_pos hp]

/-- Settles O3: the submission by its checks, the acceptance, the hot switch by what it switches, and the revert by what the store
holds. -/
theorem structureImages : Obligations.StructureImages :=
  ⟨siSubmit_checked, siSubmit_busy, imageAcceptance_accepts, hotSwitch_switches, siRevert_reverts, siRevert_busy⟩

end Sys2Proof.Machine
end

section
/-! SUPPORT. Registers after reset (R72, R105, R120, R410, R517): no register is listed, so each reads the reset value its block's table
states; the tables of the clusters' blocks are the same for every cluster. -/

namespace Sys2Proof.Machine

/-- The word the fields' reset values of a register make. -/
def RegRow.resetValue (r : RegRow) : Word := BitVec.ofNat 32 ((r.fields.map fun f => f.reset * 2 ^ f.lo).foldl (· + ·) 0)

theorem regReset_eq_resetValue {a : Nat} {r : RegRow} (h : regRow a = some r) : regReset a = r.resetValue := by
  unfold regReset
  rw [h]
  rfl

theorem regRow_of_blockOf {a o : Nat} {rows : List RegRow} (h : blockOf a = some (rows, o)) : regRow a = findRow rows o := by
  unfold regRow
  rw [h]

/-- After reset no register is listed: each reads the default of its address. -/
theorem State.reset_rd (a : Nat) : State.reset.rd a = (regReset a).toNat := rfl

/-- A register reads after reset what the row of its block's table states. -/
theorem State.reset_rd_of_blockOf {a o : Nat} {rows : List RegRow} {w : Word} (hb : blockOf a = some (rows, o))
    (hw : (findRow rows o).map RegRow.resetValue = some w) : State.reset.rd a = w.toNat := by
  obtain ⟨r, hr, rfl⟩ := Option.map_eq_some_iff.1 hw
  rw [State.reset_rd, regReset_eq_resetValue ((regRow_of_blockOf hb).trans hr)]

/-! ## The block of a register (Table 01-5, Table 01-6) -/

theorem clWin_add_mem {n o : Nat} (hn : n < 64) (ho : o < 0x1000000) :
    clusterBase ≤ clWin n + o ∧ clWin n + o < clusterBase + 0x40000000 := by
  simp only [clWin, clusterBase]
  omega

theorem clWin_add_offset {n o : Nat} (ho : o < 0x1000000) : (clWin n + o - clusterBase) % 0x1000000 = o := by
  simp only [clWin, clusterBase]
  omega

theorem blockOf_clReg {n o : Nat} (hn : n < 64) (ho : o < 0x1000) : blockOf (clReg n o) = some (rowsCL, o) := by
  have hlt : 0xF00000 + o < 0x1000000 := by omega
  have hmod : (0xF00000 + o) % 0x1000 = o := by omega
  rw [clReg, Nat.add_assoc, blockOf, if_pos (clWin_add_mem hn hlt), clWin_add_offset hlt]
  simp [Nat.div_eq_of_lt ho, hmod]

theorem blockOf_arrReg {n a o : Nat} (hn : n < 64) (ha : a < 8) (ho : o < 0x200) : blockOf (arrReg n a o) = some (rowsARR, o) := by
  have hlt : 0xF01000 + (a * 0x200 + o) < 0x1000000 := by omega
  have hreg : ¬ 0xF01000 + (a * 0x200 + o) < 0xF00000 := by omega
  have hpage : (0xF01000 + (a * 0x200 + o) - 0xF00000) / 0x1000 = 1 := by omega
  have hmod : (0xF01000 + (a * 0x200 + o)) % 0x200 = o := by omega
  rw [arrReg, Nat.add_assoc, Nat.add_assoc, blockOf, if_pos (clWin_add_mem hn hlt), clWin_add_offset hlt]
  simp only [hreg, hpage, hmod, if_false]

theorem blockOf_movReg {n o : Nat} (hn : n < 64) (ho : o < 0x1000) : blockOf (movReg n o) = some (rowsMOV, o) := by
  have hlt : 0xF03000 + o < 0x1000000 := by omega
  have hreg : ¬ 0xF03000 + o < 0xF00000 := by omega
  have hpage : (0xF03000 + o - 0xF00000) / 0x1000 = 3 := by omega
  have hmod : (0xF03000 + o) % 0x1000 = o := by omega
  rw [movReg, Nat.add_assoc, blockOf, if_pos (clWin_add_mem hn hlt), clWin_add_offset hlt]
  simp only [hreg, hpage, hmod, if_false]

/-- The device's register region lies past every cluster's window. -/
theorem devBase_add_not_mem (o : Nat) : ¬ (clusterBase ≤ devBase + o ∧ devBase + o < clusterBase + 0x40000000) := by
  simp only [clusterBase, devBase]
  omega

theorem devBase_add_mem {o : Nat} (ho : o < 0xC00000) : devBase ≤ devBase + o ∧ devBase + o < devBase + 0xC00000 :=
  ⟨Nat.le_add_right .., Nat.add_lt_add_left ho _⟩

theorem blockOf_stReg {o : Nat} (ho : o < 0x100000) : blockOf (stReg o) = some (rowsST, o) := by
  rw [stReg, blockOf, if_neg (devBase_add_not_mem o), if_pos (devBase_add_mem (by omega)), Nat.add_sub_cancel_left]
  simp only [Nat.div_eq_of_lt ho, Nat.mod_eq_of_lt ho]

theorem blockOf_tbReg {o : Nat} (ho : o < 0x100000) : blockOf (tbReg o) = some (rowsTB, o) := by
  have hpage : (0x200000 + o) / 0x100000 = 2 := by omega
  have hmod : (0x200000 + o) % 0x100000 = o := by omega
  rw [tbReg, Nat.add_assoc, blockOf, if_neg (devBase_add_not_mem _), if_pos (devBase_add_mem (by omega)), Nat.add_sub_cancel_left]
  simp only [hpage, hmod]

theorem blockOf_urnReg {o : Nat} (ho : o < 0x1000000) : blockOf (urnReg o) = some (rowsURN, o) := by
  have hcl : ¬ (clusterBase ≤ urnReg o ∧ urnReg o < clusterBase + 0x40000000) := by
    simp only [clusterBase, urnReg, urnBase]
    omega
  have hdev : ¬ (devBase ≤ urnReg o ∧ urnReg o < devBase + 0xC00000) := by
    simp only [devBase, urnReg, urnBase]
    omega
  have hurn : urnBase ≤ urnReg o ∧ urnReg o < urnBase + 0x1000000 := by
    simp only [urnReg, urnBase]
    omega
  have hoff : urnReg o - urnBase = o := Nat.add_sub_cancel_left ..
  unfold blockOf
  rw [if_neg hcl, if_neg hdev, if_pos hurn, hoff]

/-! ## What a register of each block reads after reset -/

section Reads
variable {o : Nat} {w : Word}

theorem State.reset_rd_clReg {n : Nat} (hn : n < 64) (ho : o < 0x1000) (hw : (findRow rowsCL o).map RegRow.resetValue = some w) :
    State.reset.rd (clReg n o) = w.toNat := State.reset_rd_of_blockOf (blockOf_clReg hn ho) hw

theorem State.reset_rd_tbReg (ho : o < 0x100000) (hw : (findRow rowsTB o).map RegRow.resetValue = some w) :
    State.reset.rd (tbReg o) = w.toNat := State.reset_rd_of_blockOf (blockOf_tbReg ho) hw

theorem State.reset_rd_urnReg (ho : o < 0x1000000) (hw : (findRow rowsURN o).map RegRow.resetValue = some w) :
    State.reset.rd (urnReg o) = w.toNat := State.reset_rd_of_blockOf (blockOf_urnReg ho) hw

end Reads

/-- An offset past the end of every row of a table's first part is looked up in the rest. -/
theorem findRow_append_of_end_le {rows rest : List RegRow} {o : Nat} (h : ∀ r ∈ rows, r.off + r.count * r.stride ≤ o) :
    findRow (rows ++ rest) o = findRow rest o := by
  have hnone : rows.find? (fun r => decide (r.off ≤ o) && decide (o < r.off + r.count * r.stride) && (o - r.off) % r.stride == 0) =
      none := List.find?_eq_none.2 fun r hr => by simp [h r hr]
  rw [findRow, List.find?_append, hnone, Option.none_or, findRow]

/-- A slot's tag reads 0 after reset, of every slot of every cluster (R120). -/
theorem State.reset_rd_slotTag {n k : Nat} (hn : n < 64) (hk : k < 256) : State.reset.rd (clReg n (0xC00 + 4 * k)) = 0 := by
  have hends : ∀ r ∈ rowsCL.dropLast, r.off + r.count * r.stride ≤ 0xC00 := by decide
  have hend : 0xC00 + 4 * k < 0x1000 := by omega
  have hsplit : rowsCL = rowsCL.dropLast ++ [rRO "CL_SLOT_TAGS" 0x0C00 0 256 4] := rfl
  have hrow : findRow rowsCL (0xC00 + 4 * k) = some (rRO "CL_SLOT_TAGS" 0x0C00 0 256 4) := by
    rw [hsplit, findRow_append_of_end_le fun r hr => (hends r hr).trans (Nat.le_add_right ..)]
    exact List.find?_cons_of_pos (by simp [rRO, hend])
  exact State.reset_rd_clReg (w := 0#32) hn hend (by rw [hrow]; rfl)

/-- Settles O46: no register is listed after reset, so each named register reads its row's reset value. -/
theorem resetValues : Obligations.ResetValues := by
  have hcl : 3 < 64 := by decide
  exact ⟨State.reset_rd_clReg (w := 32#32) hcl (by decide) rfl,
    State.reset_rd_clReg (w := 0x07000000#32) hcl (by decide) rfl,
    State.reset_rd_clReg (w := 0x20#32) hcl (by decide) rfl,
    State.reset_rd_clReg (w := 0x01000000#32) hcl (by decide) rfl,
    State.reset_rd_of_blockOf (w := 0xFFFFFFFF#32) (blockOf_arrReg hcl (by decide) (by decide)) rfl,
    State.reset_rd_of_blockOf (w := 0x2000#32) (blockOf_movReg hcl (by decide)) rfl,
    State.reset_rd_of_blockOf (w := 100#32) (blockOf_stReg (by decide)) rfl,
    State.reset_rd_tbReg (w := 0x28000000#32) (by decide) rfl,
    State.reset_rd_tbReg (w := 1000000#32) (by decide) rfl,
    State.reset_rd_tbReg (w := 1000000000#32) (by decide) rfl,
    State.reset_rd_tbReg (w := 100000000#32) (by decide) rfl,
    State.reset_rd_urnReg (w := 0x100#32) (by decide) rfl,
    State.reset_rd_urnReg (w := 0x600F#32) (by decide) rfl,
    State.reset_rd_urnReg (w := 0xF#32) (by decide) rfl,
    State.reset_rd_slotTag (k := 1) hcl (by decide),
    State.reset_rd_tbReg (w := 0#32) (by decide) rfl,
    State.reset_rd_urnReg (w := 0#32) (by decide) rfl⟩

end Sys2Proof.Machine
end

section
/-! SUPPORT. Matrix arrays (R75 to R95): the issue of each array instruction, what the array's work leaves when it completes or aborts,
and writes to its accumulator memory and registers. -/

namespace Sys2Proof.Machine

/-! ## Issue (R76, R83, R84) -/

section
variable {s : State} {c a x : Nat} {i : QInstr}

/-- The head of a queue that is of the kind asked for, is chosen and passes the checks leaves its queue and has its effect. -/
theorem State.issueWith_issues {op : Nat} (f : QInstr → State → State) (hh : s.headOf c a x = some i) (ho : i.op = op)
    (hc : s.chosen c a x = true) (hq : (s.issueCheck c a x i).1 = true) :
    s.issueWith c a x op f = f i ((s.issueCheck c a x i).2.issued c a x) := by
  simp only [State.issueWith, hh, ho, hc, hq, and_self, if_true]

/-- PASS takes its own head out of the state that a timed wait has noted (R85); a head with a reserved OP is another matter. -/
theorem exec_pass_head {u : State} (hu : u = if x = 4 then s.timedWait c a else s) (hh : u.headOf c a x = some i) (ho : i.op = 3) :
    exec (.pass c a x) s = .next (u.issueWith c a x 3 fun i s => s.passDo c a i) := by
  have hreserved : ¬ (i.op = 0 ∨ 8 ≤ i.op) := by omega
  change execPass c a x s = _
  simp only [execPass, ← hu, hh, if_neg hreserved]

end

section
variable (s : State) (c a x : Nat) (i : QInstr)

theorem panel_issues (hh : s.headOf c a x = some i) (ho : i.op = 1) (hc : s.chosen c a x = true) (hq : (s.issueCheck c a x i).1 = true) :
    exec (.panel c a x) s = .next (((s.issueCheck c a x i).2.issued c a x).panelDo c a i) :=
  congrArg Host.Outcome.next (State.issueWith_issues _ hh ho hc hq)

theorem anchor_issues (hh : s.headOf c a x = some i) (ho : i.op = 2) (hc : s.chosen c a x = true) (hq : (s.issueCheck c a x i).1 = true) :
    exec (.anchor c a x) s = .next (((s.issueCheck c a x i).2.issued c a x).anchorDo c a i) :=
  congrArg Host.Outcome.next (State.issueWith_issues _ hh ho hc hq)

theorem drain_issues (hh : s.headOf c a x = some i) (ho : i.op = 4) (hc : s.chosen c a x = true) (hq : (s.issueCheck c a x i).1 = true) :
    exec (.drain c a x) s = .next (((s.issueCheck c a x i).2.issued c a x).drainDo c a i) :=
  congrArg Host.Outcome.next (State.issueWith_issues _ hh ho hc hq)

theorem save_issues (hh : s.headOf c a x = some i) (ho : i.op = 5) (hc : s.chosen c a x = true) (hq : (s.issueCheck c a x i).1 = true) :
    exec (.save c a x) s = .next (((s.issueCheck c a x i).2.issued c a x).saveDo c a i) :=
  congrArg Host.Outcome.next (State.issueWith_issues _ hh ho hc hq)

theorem merge_issues (hh : s.headOf c a x = some i) (ho : i.op = 7) (hc : s.chosen c a x = true) (hq : (s.issueCheck c a x i).1 = true) :
    exec (.merge c a x) s = .next (((s.issueCheck c a x i).2.issued c a x).mergeDo c a i) :=
  congrArg Host.Outcome.next (State.issueWith_issues _ hh ho hc hq)

theorem restore_issues (hh : s.headOf c a x = some i) (ho : i.op = 6) (hc : s.chosen c a x = true) (hq : (s.issueCheck c a x i).1 = true) :
    completes (.restore c a x) s fun t => ∃ v, v = (s.issueCheck c a x i).2.issued c a x ∧
      t = (v.loadImage c a i.tile (v.rowBytes (spAddr c (i.slot * 256)) 10304)).occupy c a i.tile 41 :=
  ⟨_, congrArg Host.Outcome.next (State.issueWith_issues _ hh ho hc hq), _, rfl, rfl⟩

theorem pass_issues (hx : x < 4) (hh : s.headOf c a x = some i) (ho : i.op = 3) (hc : s.chosen c a x = true)
    (hq : (s.issueCheck c a x i).1 = true) : exec (.pass c a x) s = .next (((s.issueCheck c a x i).2.issued c a x).passDo c a i) := by
  rw [exec_pass_head (if_neg hx.ne).symm hh ho, State.issueWith_issues _ hh ho hc hq]

theorem timed_pass_issues (hh : (s.timedWait c a).headOf c a 4 = some i) (ho : i.op = 3) (hc : (s.timedWait c a).chosen c a 4 = true)
    (hq : ((s.timedWait c a).issueCheck c a 4 i).1 = true) :
    exec (.pass c a 4) s = .next ((((s.timedWait c a).issueCheck c a 4 i).2.issued c a 4).passDo c a i) := by
  rw [exec_pass_head (if_pos rfl).symm hh ho, State.issueWith_issues _ hh ho hc hq]

end

/-- Settles O4: each instruction by the head of its queue; a PASS after the timed wait of context 4. -/
theorem arrayInstructionsIssue : Obligations.ArrayInstructionsIssue :=
  ⟨panel_issues, anchor_issues, drain_issues, save_issues, merge_issues, restore_issues, pass_issues, timed_pass_issues⟩

/-! ## Completion and abort (R82, R88, R92) -/

section
variable (s : State)

theorem passCommit_commits (c a : Nat) (p : Pass) (l : List Pass) (hp : (s.arr c a).passes = p :: l) (hd : p.issue + p.n + 63 ≤ s.ct) :
    exec (.passCommit c a) s = .next (s.commitDo c a p) := by
  change execPassCommit c a s = _
  simp only [execPassCommit, hp, if_pos hd]

theorem drainComplete_ends (c a : Nat) (o : ArrOp) (h : s.opDone c a 4 = some o) : exec (.drainComplete c a) s =
    .next (((s.setArr c a { s.arr c a with op := none }).setTags c o.instr.slot o.slots true).progress c o.instr.ctx) := by
  change execDrainComplete c a s = _
  simp only [execDrainComplete, h]

/-- A MERGE at its last tick leaves the array; a saturated element is reported as at a commit. -/
theorem exec_mergeComplete_done {s : State} {c a : Nat} {o : ArrOp} {u : State} (h : s.opDone c a 7 = some o)
    (hu : u = (s.setArr c a { s.arr c a with op := none }).progress c o.instr.ctx) :
    exec (.mergeComplete c a) s = .next (if o.sat then u.reportSat c a o.instr.ctx o.instr.tile else u) := by
  change execMergeComplete c a s = _
  simp only [execMergeComplete, h, hu]

theorem mergeComplete_ends (c a : Nat) (o : ArrOp) (h : s.opDone c a 7 = some o) :
    completes (.mergeComplete c a) s fun t => ∃ u, u = (s.setArr c a { s.arr c a with op := none }).progress c o.instr.ctx ∧
      (o.sat = false → t = u) ∧ (o.sat = true → t = u.reportSat c a o.instr.ctx o.instr.tile) :=
  ⟨_, exec_mergeComplete_done h rfl, _, rfl, fun hs => if_neg (ne_true_of_eq_false hs), fun hs => if_pos hs⟩

/-- A pass of a context that runs is aborted for a cause of R92. -/
theorem exec_passAbort_running {s : State} {c a x cause : Nat} (h1 : 1 ≤ cause) (h5 : cause ≤ 5)
    (hp : ((s.arr c a).passes.any fun p => p.instr.ctx == x) = true) : exec (.passAbort c a x cause) s =
      .next (if cause = 2 ∨ cause = 3 then (s.abortArr c a x cause).abortCtx c x 5
        else if cause = 4 then (s.abortArr c a x cause).abortCtx c x 6 else s.abortArr c a x cause) := by
  change execPassAbort c a x cause s = _
  simp only [execPassAbort, decide_eq_true h1, decide_eq_true h5, hp, Bool.and_self, if_true]

theorem passAbort_aborts (c a x cause : Nat) (h1 : 1 ≤ cause) (h5 : cause ≤ 5)
    (hp : ((s.arr c a).passes.any fun p => p.instr.ctx == x) = true) : completes (.passAbort c a x cause) s fun t =>
      (cause = 1 ∨ cause = 5 → t = s.abortArr c a x cause) ∧ (cause = 2 ∨ cause = 3 → t = (s.abortArr c a x cause).abortCtx c x 5) ∧
      (cause = 4 → t = (s.abortArr c a x cause).abortCtx c x 6) := by
  refine ⟨_, exec_passAbort_running h1 h5 hp, fun h => ?_, fun h => if_pos h, fun h => ?_⟩
  · rw [if_neg (by omega), if_neg (by omega)]
  · rw [if_neg (by omega), if_pos h]

end

/-! ## Writes to accumulator memory (R81, R95, R122) -/

section
variable (s : State) (r : Requester) (c a t e v : Nat) (ha : a < 8) (ht : t < 8) (he : e < 1024)

/-- A write that the windows let through is that of the array's own port. -/
theorem exec_accWrite_allowed {s : State} {r : Requester} {c a t e : Nat} (v be : Nat) (ha : a < 8) (ht : t < 8) (he : e < 1024)
    (hw : s.reqWindowOk r (127 * 2 ^ 41 + accAddr c a t e) 8 .write = true) :
    exec (.accWrite r c a t e v be) s = .next ((s.accWrite r c a t e v be).2.failTask r (s.accWrite r c a t e v be).1) := by
  change execAccWrite r c a t e v be s = _
  simp only [execAccWrite, decide_eq_true ha, decide_eq_true ht, decide_eq_true he, hw, Bool.and_self, if_true]

/-- An element of a column that the array works on. -/
theorem not_column31 {s : State} {c a e : Nat} (hn : e % 32 = 31 → s.arrWidth c a ≠ 31) : (e % 32 == 31 && s.arrWidth c a == 31) = false := by
  simpa using hn

include ha ht he

theorem accWrite_violates (be : Nat) (hw : s.reqWindowOk r (127 * 2 ^ 41 + accAddr c a t e) 8 .write = false) :
    exec (.accWrite r c a t e v be) s = .next (s.reqViolation r (127 * 2 ^ 41 + accAddr c a t e)) := by
  change execAccWrite r c a t e v be s = _
  simp only [execAccWrite, decide_eq_true ha, decide_eq_true ht, decide_eq_true he, hw, Bool.and_self, Bool.false_eq_true, if_false, if_true]

section
variable (hw : s.reqWindowOk r (127 * 2 ^ 41 + accAddr c a t e) 8 .write = true) (hm : s.mapped (accAddr c a t e) 8 = true)
include hw hm

theorem accWrite_busy (be : Nat) (hi : s.arrIdle c a = false) :
    completes (.accWrite r c a t e v be) s fun u => ∃ i, u = s.raise .accWriteBusy (scopeOf (s.ownerOf c)) i := by
  have hbusy : ∃ i, s.accWrite r c a t e v be = (none, s.raise .accWriteBusy (scopeOf (s.ownerOf c)) i) := by
    simp only [State.accWrite, hm, hi, Bool.not_true, Bool.false_eq_true, if_false]
    exact ⟨_, rfl⟩
  obtain ⟨i, hbusy⟩ := hbusy
  refine ⟨_, exec_accWrite_allowed v be ha ht he hw, i, ?_⟩
  rw [hbusy, State.failTask_none]

variable (hi : s.arrIdle c a = true)
include hi

theorem accWrite_column31 (h31 : e % 32 = 31) (hn : s.arrWidth c a = 31) : exec (.accWrite r c a t e v 255) s = .next s := by
  rw [exec_accWrite_allowed v 255 ha ht he hw]
  simp only [State.accWrite, hm, hi, h31, hn, Bool.not_true, Bool.false_eq_true, if_false, if_true, beq_self_eq_true, Bool.and_self,
    Bool.or_true, show 255 % 256 = 255 from rfl, State.failTask_none]

variable (hn : e % 32 = 31 → s.arrWidth c a ≠ 31)
include hn

theorem accWrite_word : completes (.accWrite r c a t e v 255) s fun u =>
    ∃ w, w = s.memWrite r (accAddr c a t e) (leBytes 8 v) ∧ u = w.2.failTask r w.1 := by
  have hword : s.accWrite r c a t e v 255 = s.memWrite r (accAddr c a t e) (leBytes 8 v) := by
    simp only [State.accWrite, hm, hi, not_column31 hn, Bool.not_true, Bool.false_eq_true, if_false, if_true, Option.isSome_none,
      Bool.or_self, show 255 % 256 = 255 from rfl]
  exact ⟨_, hword ▸ exec_accWrite_allowed v 255 ha ht he hw, _, rfl, rfl⟩

theorem accWrite_bytes (be : Nat) (q : RdRes × State) (hb : be % 256 ≠ 255) (hq : s.memFetch r (accAddr c a t e) 8 = q)
    (hg : q.1.err = none) : completes (.accWrite r c a t e v be) s fun u => ∃ w,
      w = q.2.memWrite r (accAddr c a t e) (leBytes 8 (mergeBytes be (s.ldn (accAddr c a t e) 8) v)) ∧ u = w.2.failTask r w.1 := by
  have hmerged : s.accWrite r c a t e v be =
      q.2.memWrite r (accAddr c a t e) (leBytes 8 (mergeBytes be (s.ldn (accAddr c a t e) 8) v)) := by
    simp only [State.accWrite, hm, hi, hq, hg, if_neg hb, not_column31 hn, Bool.not_true, Bool.false_eq_true, if_false, if_true,
      Option.isSome_none, Bool.or_self]
  exact ⟨_, hmerged ▸ exec_accWrite_allowed v be ha ht he hw, _, rfl, rfl⟩

end
end

/-! ## Registers of an array (R90, Table 04-15) -/

section
variable (s : State) (r : Requester) (c a v : Nat) (hc : c < s.nClusters) (ha : a < 8) (hs : s.regsWf = true)
include hc ha hs

theorem arrCtrlStop_writes :
    completes (.arrCtrlStop r c a v) s fun t => t.rd (arrReg c a 4) = v % 2 ∧ onlyRegs s t [arrReg c a 4] := by
  refine ⟨_, congrArg Host.Outcome.next (if_pos (by simp [hc, ha])), ?_, onlyRegs_wr s _ _⟩
  rw [State.rd_wr_same s _ _ hs, Nat.mod_eq_of_lt (by omega)]

theorem arrTileOwnerWrite_writes : completes (.arrTileOwnerWrite r c a v) s fun t =>
    t.rd (arrReg c a 8) = s.tileOwners c a v % 2 ^ 32 ∧ onlyRegs s t [arrReg c a 8] :=
  ⟨_, congrArg Host.Outcome.next (if_pos (by simp [hc, ha])), State.rd_wr_same s _ _ hs, onlyRegs_wr s _ _⟩

end

/-- Settles O5: the ends of a pass, a DRAIN and a MERGE, the abort by its cause, and the writes by what the array lets through. -/
theorem arrayCompletions : Obligations.ArrayCompletions :=
  ⟨passCommit_commits, drainComplete_ends, mergeComplete_ends, passAbort_aborts, accWrite_word,
    fun s r c a t e v be q ha ht he hw hm hi hn => accWrite_bytes s r c a t e v ha ht he hw hm hi hn be q, accWrite_column31,
    fun s r c a t e v be ha ht he hw hm => accWrite_busy s r c a t e v ha ht he hw hm be,
    fun s r c a t e v be ha ht he => accWrite_violates s r c a t e v ha ht he be, arrCtrlStop_writes, arrTileOwnerWrite_writes⟩

end Sys2Proof.Machine
end

section
/-! SUPPORT. Vector engines (R99 to R106): the step that starts, the step that runs on or ends, and writes to the chain table. -/

namespace Sys2Proof.Machine

variable (s : State)

/-! ## Steps (R100, R101, R104) -/

/-- The count of a timing event is a matter of registers and notes: the kernel store stays. -/
@[simp] theorem State.ndTiming_kstore (p : Option Nat) : (s.ndTiming p).kstore = s.kstore := by
  unfold State.ndTiming
  split
  · split <;> rfl
  · rfl

/-- At an engine that runs no step the next one starts. -/
theorem exec_vecStep_free {s : State} {c e : Nat} (hr : (s.vec c e).running = none) : exec (.vecStep c e) s = .next (s.vecStart c e) := by
  have hend : s.vecEnd c e = s := by simp only [State.vecEnd, hr]
  change execVecStep c e s = _
  simp only [execVecStep, hend, hr, Option.isNone_none, if_true]

/-- The step chosen leaves the queue with the loss counted, and starts or is refused by the kernel store. -/
theorem State.vecStart_chosen {s : State} {c e x : Nat} {q : VStep} {u : State} {v : Vec} (hx : s.vecChoice c e = some x)
    (hq : (s.vec c e).queue.find? (fun q => q.ctx == x) = some q)
    (hv : v = { s.vec c e with queue := dropFirst (fun r => r.ctx == x) (s.vec c e).queue, lastIssue := setAt (s.vec c e).lastIssue x s.ct })
    (hu : u = if x ≠ 4 ∧ 1 < (s.vecReady c e).length then s.ndTiming (s.ownerOf c) else s) :
    s.vecStart c e = if q.kernel ≠ 0 ∧ s.kernelIn c q.kernel = false then (u.setVec c e v).kernelInvalid c e x q.kernel
      else ((u.setVec c e v).setVec c e { v with running := some q, until_ := s.ct + q.ct }).started c x := by
  have hkernel : (u.setVec c e v).kernelIn c q.kernel = s.kernelIn c q.kernel := by
    subst hu
    split
    · exact congrArg (fun l => (sparseGet [] l c).contains q.kernel) (s.ndTiming_kstore _)
    · rfl
  subst hv
  rw [← hkernel]
  subst hu
  simp only [State.vecStart, hx, hq, Bool.and_eq_true, bne_iff_ne, decide_eq_true_eq]

section
variable (c e x : Nat) (q : VStep) (u : State) (v : Vec) (hr : (s.vec c e).running = none) (hx : s.vecChoice c e = some x)
  (hq : (s.vec c e).queue.find? (fun q => q.ctx == x) = some q)
  (hv : v = { s.vec c e with queue := dropFirst (fun r => r.ctx == x) (s.vec c e).queue, lastIssue := setAt (s.vec c e).lastIssue x s.ct })
  (hu : u = if x ≠ 4 ∧ 1 < (s.vecReady c e).length then s.ndTiming (s.ownerOf c) else s)
include hr hx hq hv hu

theorem vecStep_starts (hk : q.kernel = 0 ∨ s.kernelIn c q.kernel = true) : exec (.vecStep c e) s =
    .next (((u.setVec c e v).setVec c e { v with running := some q, until_ := s.ct + q.ct }).started c x) := by
  have hkept : ¬ (q.kernel ≠ 0 ∧ s.kernelIn c q.kernel = false) := fun ⟨h0, hf⟩ =>
    hk.elim h0 fun ht => Bool.false_ne_true (hf.symm.trans ht)
  rw [exec_vecStep_free hr, State.vecStart_chosen hx hq hv hu, if_neg hkept]

theorem vecStep_kernel_missing (h0 : q.kernel ≠ 0) (hk : s.kernelIn c q.kernel = false) :
    exec (.vecStep c e) s = .next ((u.setVec c e v).kernelInvalid c e x q.kernel) := by
  rw [exec_vecStep_free hr, State.vecStart_chosen hx hq hv hu, if_pos ⟨h0, hk⟩]

end

theorem vecStep_runs_on (c e : Nat) (q : VStep) (hr : (s.vec c e).running = some q) (ht : s.ct < (s.vec c e).until_) :
    exec (.vecStep c e) s = .next s := by
  have hend : s.vecEnd c e = s := by simp only [State.vecEnd, hr, if_neg (Nat.not_le.2 ht)]
  change execVecStep c e s = _
  simp only [execVecStep, hend, hr, Option.isNone_some, Bool.false_eq_true, if_false]

theorem vecStep_ends (c e : Nat) (q : VStep) (u : State) (hr : (s.vec c e).running = some q) (ht : (s.vec c e).until_ ≤ s.ct)
    (hu : u = ((s.setVec c e { s.vec c e with running := none }).count64 (vecReg c e 8) 1).progress c q.ctx)
    (hf : (u.vec c e).running = none) : exec (.vecStep c e) s = .next (u.vecStart c e) := by
  have hend : s.vecEnd c e = u := by simp only [State.vecEnd, hr, if_pos ht, hu]
  change execVecStep c e s = _
  simp only [execVecStep, hend, hf, Option.isNone_none, if_true]

/-! ## The chain table (R106) -/

theorem vecChainWrite_writes (r : Requester) (c e off v : Nat) (hw : s.mayWrite .stewardSeq r c = true) (hc : c < s.nClusters) (he : e < 2)
    (ho : off < 0x200) (h4 : off % 4 = 0) (hn : s.chainNamed c e (off / 32) = false) (hs : s.regsWf = true) :
    completes (.vecChainWrite r c e off v) s fun t =>
      t.rd (vecReg c e (0x100 + off)) = v % 2 ^ 32 ∧ onlyRegs s t [vecReg c e (0x100 + off)] := by
  refine ⟨_, congrArg Host.Outcome.next (if_pos ?_), State.rd_wr_same s _ _ hs, onlyRegs_wr s _ _⟩
  simp only [hw, hc, he, ho, h4, hn, decide_true, beq_self_eq_true, Bool.not_false, Bool.and_self]

theorem vecChainWrite_named (r : Requester) (c e off v : Nat) (hn : s.chainNamed c e (off / 32) = true) :
    exec (.vecChainWrite r c e off v) s = .next s := by
  refine congrArg Host.Outcome.next (if_neg ?_)
  simp only [hn, Bool.not_true, Bool.and_false, Bool.false_eq_true, not_false_eq_true]

/-- Settles O6: a free engine by what the kernel store holds, a running one by its last tick, and the chain table by what names a word. -/
theorem vectorEngineCommands : Obligations.VectorEngineCommands :=
  ⟨vecStep_starts, vecStep_kernel_missing, vecStep_runs_on, vecStep_ends, vecChainWrite_writes, vecChainWrite_named⟩

end Sys2Proof.Machine
end

section
/-! SUPPORT. Packed lanes (R99): sublanes side by side are read back one by one, and what one sublane's operation answers fits it. -/

namespace Sys2Proof.Machine

/-! ## Sublanes side by side -/

/-- n sublanes of w bits are below 2^(w n). -/
theorem sum_sublanes_lt {w : Nat} {g : Nat → Nat} {n : Nat} (hg : ∀ i < n, g i < 2 ^ w) :
    ((List.range n).map fun i => g i * 2 ^ (w * i)).sum < 2 ^ (w * n) := by
  induction n with
  | zero => exact Nat.two_pow_pos _
  | succ n ih =>
    have hlow := ih fun i hi => hg i (hi.trans n.lt_succ_self)
    have htop : (g n + 1) * 2 ^ (w * n) ≤ 2 ^ w * 2 ^ (w * n) := Nat.mul_le_mul_right _ (hg n n.lt_succ_self)
    rw [List.range_succ, List.map_append, List.sum_append, List.map_singleton, List.sum_singleton, Nat.mul_succ, Nat.pow_add,
      Nat.mul_comm (2 ^ (w * n))]
    rw [Nat.succ_mul] at htop
    omega

/-- Each of n sublanes of w bits is read back as it was put. -/
theorem sublane_sum {w : Nat} {g : Nat → Nat} {n i : Nat} (hg : ∀ i < n, g i < 2 ^ w) (hi : i < n) :
    sublane w ((List.range n).map fun i => g i * 2 ^ (w * i)).sum i = g i := by
  induction n with
  | zero => exact absurd hi i.not_lt_zero
  | succ n ih =>
    have hbelow : ∀ i < n, g i < 2 ^ w := fun i hi => hg i (hi.trans n.lt_succ_self)
    have hlow := sum_sublanes_lt hbelow
    rw [List.range_succ, List.map_append, List.sum_append, List.map_singleton, List.sum_singleton, sublane]
    rcases Nat.lt_succ_iff_lt_or_eq.1 hi with hlt | rfl
    · obtain ⟨k, rfl⟩ : ∃ k, n = i + 1 + k := ⟨n - (i + 1), by omega⟩
      have hsplit : g (i + 1 + k) * 2 ^ (w * (i + 1 + k)) = 2 ^ (w * i) * (2 ^ w * (2 ^ (w * k) * g (i + 1 + k))) := by ring
      rw [hsplit, Nat.add_mul_div_left _ _ (Nat.two_pow_pos _), Nat.add_mul_mod_self_left]
      exact ih hbelow hlt
    · rw [Nat.add_mul_div_right _ _ (Nat.two_pow_pos _), Nat.div_eq_of_lt hlow, Nat.zero_add, Nat.mod_eq_of_lt (hg i i.lt_succ_self)]

theorem sublane_lt (w x i : Nat) : sublane w x i < 2 ^ w := Nat.mod_lt _ (Nat.two_pow_pos w)

/-- Sublane i of a result is the operation on sublane i of each operand, where the operation's answer fits a sublane. -/
theorem sublane_onSublanes {w n i : Nat} {f : Nat → Nat → Nat → Nat} (hf : ∀ x y z, x < 2 ^ w → y < 2 ^ w → f x y z < 2 ^ w) (x y z : Nat)
    (hi : i < n) : sublane w (onSublanes w n f x y z) i = f (sublane w x i) (sublane w y i) (sublane w z i) :=
  sublane_sum (g := fun i => f (sublane w x i) (sublane w y i) (sublane w z i))
    (fun i _ => hf _ _ _ (sublane_lt w x i) (sublane_lt w y i)) hi

/-! ## What an operation answers fits its sublane -/

theorem b2n_lt_two (b : Bool) : b2n b < 2 := by cases b <;> decide

theorem ofSigned_lt (w : Nat) (q : Int) : ofSigned w q < 2 ^ w := by
  have hpos : (0 : Int) < (2 ^ w : Nat) := by exact_mod_cast Nat.two_pow_pos w
  rw [ofSigned, Int.toNat_lt (Int.emod_nonneg q hpos.ne')]
  exact Int.emod_lt_of_pos q hpos

/-- An operation answers a value wrapped to 8 bits, a truth value, or one of its first two operands. -/
theorem packedInt8_lt (op : PackedOp) (x y z : Nat) (hx : x < 2 ^ 8) (hy : y < 2 ^ 8) : packedInt8 op x y z < 2 ^ 8 := by
  cases op with
  | add | mul | fma | min | max => exact ofSigned_lt 8 _
  | cmp => exact (b2n_lt_two _).trans (by decide)
  | select =>
    simp only [packedInt8]
    split <;> assumption

/-- A BF16 code, rounded without saturation, fits 16 bits: at most a sign above the code of infinity, or the NaN. -/
theorem roundFloat_bf16_lt (v : Val) : (roundFloat fmtBF16 false v).code < 2 ^ 16 := by
  have hsign : ∀ neg, fmtBF16.sign neg ≤ 2 ^ 15 := by decide
  have hover : ∀ neg, overflowCode fmtBF16 false neg < 2 ^ 16 := by decide
  cases v with
  | nan => decide
  | inf neg => exact hover neg
  | fin neg sig exp =>
    simp only [roundFloat]
    split
    · exact hover neg
    · next hm =>
      have hmax : roundMag fmtBF16 sig exp ≤ 0x7F7F := Nat.not_lt.1 hm
      have := hsign neg
      simp only
      omega

/-- An operation answers a rounded code, a truth value, or one of its first two operands. -/
theorem packedBf16_lt (op : PackedOp) (x y z : Nat) (hx : x < 2 ^ 16) (hy : y < 2 ^ 16) : packedBf16 op x y z < 2 ^ 16 := by
  cases op with
  | add | mul | fma => exact roundFloat_bf16_lt _
  | min | max =>
    simp only [packedBf16]
    split
    · exact roundFloat_bf16_lt _
    · split <;> assumption
  | cmp => exact (b2n_lt_two _).trans (by decide)
  | select =>
    simp only [packedBf16]
    split <;> assumption

/-! ## The saturated INT8 results -/

/-- An integer that fits 8 bits is read back as it was wrapped. -/
theorem toSigned_ofSigned8 {q : Int} (h1 : -128 ≤ q) (h2 : q ≤ 127) : toSigned 8 (ofSigned 8 q) = q := by
  simp only [toSigned, ofSigned]
  omega

theorem toSigned8_clamp (q : Int) : toSigned 8 (ofSigned 8 (max (-128) (min 127 q))) = max (-128) (min 127 q) :=
  toSigned_ofSigned8 (by omega) (by omega)

theorem toSigned8_bounds (x : Nat) : -128 ≤ toSigned 8 x ∧ toSigned 8 x ≤ 127 := by
  simp only [toSigned]
  split <;> omega

/-- Clamping changes no value that fits 8 bits. -/
theorem toSigned8_unclamped {q : Int} (h : -128 ≤ q ∧ q ≤ 127) : toSigned 8 (ofSigned 8 (max (-128) (min 127 q))) = q := by
  rw [toSigned8_clamp]
  omega

/-- Settles O56: sublanes do not meet, an INT8 result is the exact one clamped, and a BF16 result is by its definition rounded once. -/
theorem packedLanes : Obligations.PackedLanes := by
  refine ⟨fun op x y z i => sublane_onSublanes (packedInt8_lt op) x y z, fun op x y z i => sublane_onSublanes (packedBf16_lt op) x y z,
    fun x y z => ?_, fun x y z => ⟨rfl, rfl, rfl⟩⟩
  have hx := toSigned8_bounds x
  have hy := toSigned8_bounds y
  exact ⟨toSigned8_clamp _, toSigned8_clamp _, toSigned8_clamp _, toSigned8_unclamped (by omega), toSigned8_unclamped (by omega)⟩

end Sys2Proof.Machine
end

section
/-! SUPPORT. Claims, the Taster and its golden test (R282, R438 to R440), slices of the self-test (R283 to R285, R442), and the Age Monitor
(R286 to R288, R445). -/

namespace Sys2Proof.Machine

variable (s : State)

/-! ## Claims and the Taster (R271, R438, R440) -/

theorem claimRelease_drops (p : Nat) (d : Brew) (hd : d = s.dsp p) (hc : d.claims.any (fun k => decide (k.until_ ≤ s.ct)) = true) :
    exec (.claimRelease p) s =
      .next ((s.setDsp p { d with claims := d.claims.filter fun k => decide (s.ct < k.until_) }).applyClaims p) := by
  subst hd
  exact congrArg Host.Outcome.next (if_pos hc)

theorem goldenTest_runs (p t : Nat) (errors : List UnitError) (ht : (s.dsp p).taster = some t) (hd : t + 320 ≤ s.ct)
    (hr : (s.dsp p).tasterRun = false) : exec (.goldenTest p errors) s =
      .next (s.setDsp p { s.dsp p with tasterRun := true, signatures := s.goldenRun p errors }) := by
  change execGoldenTest p errors s = _
  simp only [execGoldenTest, ht, if_pos (And.intro hd hr)]

theorem goldenTest_waits (p : Nat) (errors : List UnitError)
    (h : ∀ t, (s.dsp p).taster = some t → s.ct < t + 320 ∨ (s.dsp p).tasterRun = true) : exec (.goldenTest p errors) s = .next s := by
  change execGoldenTest p errors s = _
  cases ht : (s.dsp p).taster with
  | none => simp only [execGoldenTest, ht]
  | some t =>
    have hno : ¬ (t + 320 ≤ s.ct ∧ (s.dsp p).tasterRun = false) := fun ⟨hd, hr⟩ =>
      (h t ht).elim (Nat.not_lt.2 hd) fun hrun => Bool.false_ne_true (hr.symm.trans hrun)
    simp only [execGoldenTest, ht, if_neg hno]

/-- The comparison of cluster c is due: the golden set has run, 448 ticks are over, and the cluster is one of p's not yet compared. -/
def CompareDue (s : State) (p c t : Nat) : Prop :=
  (s.dsp p).tasterRun = true ∧ t + 448 ≤ s.ct ∧ s.ownerOf c = some p ∧ c < s.nClusters ∧ (s.dsp p).compared.contains c = false

/-- What TASTER_COMPARE tests is that a comparison is due. -/
theorem compareDue_iff {p c t : Nat} : ((s.dsp p).tasterRun && decide (t + 448 ≤ s.ct) && s.ownerOf c == some p && decide (c < s.nClusters) &&
    !(s.dsp p).compared.contains c) = true ↔ CompareDue s p c t := by
  simp only [CompareDue, Bool.and_eq_true, decide_eq_true_eq, beq_iff_eq, Bool.not_eq_true', and_assoc]

theorem tasterCompare_compares (p c t : Nat) (d : Brew) (units : List Nat) (u : State) (hd : d = s.dsp p) (ht : d.taster = some t)
    (hr : d.tasterRun = true) (h448 : t + 448 ≤ s.ct) (ho : s.ownerOf c = some p) (hc : c < s.nClusters) (hn : d.compared.contains c = false)
    (hu : u = s.setDsp p { d with compared := d.compared ++ [c], lastTaster := s.time }) (hunits : units = u.goldenBad p c) :
    ∃ v w, v = (u.tasterNote c (s.goldenSet p) units).applyClaims p ∧
      w = { v with urn := { v.urn with diagnose :=
        v.urn.diagnose ++ ((units.filter (· < 8)).map fun a => c * 8 + a).filter fun k => !v.urn.diagnose.contains k } } ∧
      exec (.tasterCompare p c) s = .next (units.foldl (fun x n =>
        x.raise .tasterMismatch p { cluster := some c, unit := n, info0 := s.goldenSet p, info1 := c }) w) := by
  subst hd hunits hu
  refine ⟨_, _, rfl, rfl, ?_⟩
  change execTasterCompare p c s = _
  simp only [execTasterCompare, ht, if_pos ((compareDue_iff s).2 ⟨hr, h448, ho, hc, hn⟩)]

theorem tasterCompare_waits (p c : Nat) (h : ∀ t, (s.dsp p).taster = some t → (s.dsp p).tasterRun = false ∨ s.ct < t + 448 ∨
    s.ownerOf c ≠ some p ∨ s.nClusters ≤ c ∨ (s.dsp p).compared.contains c = true) : exec (.tasterCompare p c) s = .next s := by
  change execTasterCompare p c s = _
  cases ht : (s.dsp p).taster with
  | none => simp only [execTasterCompare, ht]
  | some t =>
    have hno : ¬ CompareDue s p c t := by
      rintro ⟨hr, h448, ho, hc, hn⟩
      rcases h t ht with h | h | h | h | h
      · exact Bool.false_ne_true (h.symm.trans hr)
      · exact absurd h448 (Nat.not_le.2 h)
      · exact h ho
      · exact absurd hc (Nat.not_lt.2 h)
      · exact Bool.false_ne_true (hn.symm.trans h)
    simp only [execTasterCompare, ht, if_neg (mt (compareDue_iff s).1 hno)]

/-! ## Slices of the self-test (R283 to R285, R442) -/

theorem selftestSlice_runs (p : Nat) (l : List SliceRec) (hl : l = modFirst (fun k => !k.running && decide (k.startAt ≤ s.ct) &&
      decide (s.ct < k.endAt) && s.sliceMay k) (fun k => { k with running := true }) (s.dsp p).slices) :
    exec (.selftestSlice p) s = .next (s.setDsp p { s.dsp p with slices := l }) := by
  subst hl
  rfl

theorem sliceEnd_ends (p : Nat) (f : Option Nat) (k : SliceRec) (hk : (s.dsp p).slices.find? (fun k => k.running &&
      decide (k.startAt + (testKind k.kind).2.1 ≤ s.ct) && decide (s.ct ≤ k.endAt)) = some k) :
    exec (.sliceEnd p f) s = .next (s.sliceDone p k f) := by
  change execSliceEnd p f s = _
  simp only [execSliceEnd, hk]

theorem sliceAbandon_abandons (p : Nat) (k : SliceRec) (hk : (s.dsp p).slices.find? (fun k => decide (k.endAt ≤ s.ct)) = some k) :
    exec (.sliceAbandon p) s =
      .next (((s.setDsp p { s.dsp p with slices := (s.dsp p).slices.erase k }).countUp (btReg p 0x2C) 1).applyClaims p) := by
  change execSliceAbandon p s = _
  simp only [execSliceAbandon, hk]

theorem selftestOverdue_raises (p kind unit index : Nat) (v : UnitTest) (u : State) (hv : v = s.unitTest (testKey kind unit index))
    (hu : u = s.setUnitTest (testKey kind unit index) { v with raised := true }) (hp : p < 4) (ha : (s.prec p).active = true)
    (ht : s.testUnit p kind unit index = true) (hr : v.raised = false)
    (hl : (s.rd (btReg p (0x40 + 4 * kind)) * 1000000000 : Nat) <
      toSigned 64 (s.time + 2 ^ 64 - (if v.doneAt = 0 then (s.dsp p).boot else v.doneAt) % 2 ^ 64)) :
    exec (.selftestOverdue p kind unit index) s = .next ((if bit (u.rd (btReg p 0x30)) 31 then u
      else u.wr (btReg p 0x30) (2 ^ 31 + kind * 2 ^ 17 + index * 2 ^ 12 + unit)).raise .selftestOverdue p
        { unit := unit, info0 := kind + 256 * index }) := by
  subst hv hu
  refine congrArg Host.Outcome.next (if_pos ?_)
  rw [decide_eq_true hp, ha, ht, hr, decide_eq_true hl]
  rfl

/-! ## Publishing and the Age Monitor (R286 to R288, R445) -/

theorem urnAgePub_publishes (r : Requester) (p stream q : Nat) (rcd : StreamRec) (hs : s.streamOf (stream % 64) = some (q, rcd)) (hp : p < 5)
    (hm : s.mayPublish r p = true) (hq : q = p ∨ p = 4) (h1 : rcd.source = 1) (hstop : s.scopeStopped q = false) :
    exec (.urnAgePub r p stream) s = .next (s.publish q rcd (s.rd64 (urnReg (0x40000 + 0x10 * p))) s.time).2 := by
  have hplace : (q == p || p == 4) = true := by simpa using hq
  change execUrnAgePub r p stream s = _
  simp only [execUrnAgePub, hs, decide_eq_true hp, hm, hplace, h1, hstop, beq_self_eq_true, Bool.not_false, Bool.and_self, if_true]

theorem ageCheck_checks (h : s.clock.urn % 50000 = 0) : exec .ageCheck s = .next (s.streams.foldl State.ageCheck1 s) :=
  congrArg Host.Outcome.next (if_pos h)

/-- Settles O18: claims, the two commands of a Taster test where they are due and where they wait, the slices, and the stream ages. -/
theorem testsAndAges : Obligations.TestsAndAges :=
  ⟨claimRelease_drops, goldenTest_runs, goldenTest_waits, tasterCompare_compares, tasterCompare_waits, selftestSlice_runs, sliceEnd_ends,
    sliceAbandon_abandons, selftestOverdue_raises, urnAgePub_publishes, ageCheck_checks⟩

end Sys2Proof.Machine
end

section
/-! SUPPORT. Slots and contexts (R294 to R302, R313): swaps, saves, loads, the Steward's commands, and the tiler's choice of context. -/

namespace Sys2Proof.Machine

variable (s : State)

/-! ## Swaps (R297, R298) -/

/-- The empty context that a ready slot of cluster c would take. -/
def State.emptyCtx (s : State) (c : Nat) : Option Nat := (List.range 4).find? fun x => s.ctxState c x == 0

theorem contextSwap_loads (c n x : Nat) (hu : s.stewardUp = true) (hb : s.bestSlot c = some n) (he : s.emptyCtx c = some x) :
    exec (.contextSwap c) s = .next (s.loadStart c x n false) := by
  rw [State.emptyCtx] at he
  change execContextSwap c s = _
  simp only [execContextSwap, hb, he, hu, if_true]

theorem contextSwap_evicts (c n x : Nat) (hb : s.bestSlot c = some n) (he : s.emptyCtx c = none) (hv : s.victim c n = some x) :
    exec (.contextSwap c) s = .next (s.evict c x n) := by
  rw [State.emptyCtx] at he
  change execContextSwap c s = _
  simp only [execContextSwap, hb, he, hv]

theorem contextSwap_waits (c : Nat) (h : s.bestSlot c = none ∨ (s.emptyCtx c ≠ none ∧ s.stewardUp = false) ∨
    (s.emptyCtx c = none ∧ ∀ n, s.victim c n = none)) : exec (.contextSwap c) s = .next s := by
  rw [State.emptyCtx] at h
  change execContextSwap c s = _
  cases hb : s.bestSlot c with
  | none => simp only [execContextSwap, hb]
  | some n =>
    rcases h with h | ⟨he, hu⟩ | ⟨he, hv⟩
    · exact absurd (hb.symm.trans h) (Option.some_ne_none n)
    · obtain ⟨x, he⟩ := Option.ne_none_iff_exists'.1 he
      simp only [execContextSwap, hb, he, hu, Bool.false_eq_true, if_false]
    · simp only [execContextSwap, hb, he, hv]

/-! ## Saves (R294, R299) -/

section
variable (c x n next since : Nat) (hm : (s.ctx c x).move = some (next, since)) (hn : s.slotOf c x = some n) (h4 : s.ctxState c x = 4)
  (hr : s.saveReady c x = true)
include hm hn h4 hr

theorem stateImageSave_fails (v : State) (hq : s.readTiles c (s.tilesOf c x) = (true, v)) :
    exec (.stateImageSave c x) s = .next (v.saveFail c x) := by
  change execStateImageSave c x s = _
  simp only [execStateImageSave, hm, hn, if_pos (And.intro h4 hr), hq, if_true]

theorem stateImageSave_saves (u v : State) (hq : s.readTiles c (s.tilesOf c x) = (false, v)) (hu : u = v.saveSlot c x n) :
    exec (.stateImageSave c x) s = .next (if next < 16 ∧ (u.slot c next).ctx = none ∧ (u.slot c next).task.isSome = true
      then u.loadStart c x next true else u).settle := by
  change execStateImageSave c x s = _
  simp only [execStateImageSave, hm, hn, if_pos (And.intro h4 hr), hq, Bool.false_eq_true, if_false, hu]

end

theorem stateImageSave_waits (c x : Nat) (h : (s.ctx c x).move = none ∨ s.slotOf c x = none ∨ s.ctxState c x ≠ 4 ∨ s.saveReady c x = false) :
    exec (.stateImageSave c x) s = .next s := by
  change execStateImageSave c x s = _
  cases hm : (s.ctx c x).move with
  | none => simp only [execStateImageSave, hm]
  | some q =>
    cases hn : s.slotOf c x with
    | none => simp only [execStateImageSave, hm, hn]
    | some n =>
      have hno : ¬ (s.ctxState c x = 4 ∧ s.saveReady c x = true) := by
        rw [hm, hn] at h
        simpa [← Bool.not_eq_true, imp_iff_not_or] using h
      simp only [execStateImageSave, hm, hn, if_neg hno]

/-! ## Loads (R299 to R301) -/

/-- LOAD has its effect for a slot that waits and a context of the cluster that is empty, where the Steward gives it. -/
theorem exec_load (r : Requester) (c x slot : Nat) : exec (.load r c x slot) s =
    .next (if r = .steward ∧ c < s.nClusters ∧ x < 4 ∧ slot < 16 ∧ s.ctxState c x = 0 ∧ (s.slot c slot).task.isSome = true ∧
      (s.slot c slot).ctx = none then s.loadStart c x slot false else s) := by
  change execLoad r c x slot s = _
  simp only [execLoad, Bool.and_eq_true, beq_iff_eq, decide_eq_true_eq, Option.isNone_iff_eq_none, and_assoc]

theorem load_ignored (r : Requester) (c x slot : Nat) (h : r ≠ .steward ∨ s.nClusters ≤ c ∨ 4 ≤ x ∨ 16 ≤ slot ∨ s.ctxState c x ≠ 0 ∨
    (s.slot c slot).task = none ∨ (s.slot c slot).ctx ≠ none) : exec (.load r c x slot) s = .next s := by
  rw [exec_load, if_neg]
  rintro ⟨hr, hc, hx, hn, h0, ht, hk⟩
  rcases h with h | h | h | h | h | h | h
  · exact h hr
  · exact absurd hc (Nat.not_lt.2 h)
  · exact absurd hx (Nat.not_lt.2 h)
  · exact absurd hn (Nat.not_lt.2 h)
  · exact h h0
  · exact Option.isSome_iff_ne_none.1 ht h
  · exact h hk

theorem load_loads (c x slot : Nat) (hc : c < s.nClusters) (hx : x < 4) (hn : slot < 16) (h0 : s.ctxState c x = 0)
    (ht : (s.slot c slot).task.isSome = true) (hk : (s.slot c slot).ctx = none) :
    exec (.load .steward c x slot) s = .next (s.loadStart c x slot false) := by
  rw [exec_load, if_pos ⟨rfl, hc, hx, hn, h0, ht, hk⟩]

/-- A load whose channels fit ends by whether its slot has an image that can be read. -/
theorem exec_loadComplete_fits {s : State} {c x n since : Nat} (hm : (s.ctx c x).move = some (n, since)) (h5 : s.ctxState c x = 5)
    (hf : s.chansFit c n = true) : exec (.loadComplete c x) s = .next (if (s.slot c n).started && s.imageUe c n then
      (s.setCtx c x { s.ctx c x with move := none }).saveFail c x else s.loadDone c x n) := by
  change execLoadComplete c x s = _
  simp only [execLoadComplete, hm, if_pos (And.intro h5 hf)]

section
variable (c x n since : Nat) (hm : (s.ctx c x).move = some (n, since)) (h5 : s.ctxState c x = 5) (hf : s.chansFit c n = true)
include hm h5 hf

theorem loadComplete_runs (h : (s.slot c n).started = false ∨ s.imageUe c n = false) :
    exec (.loadComplete c x) s = .next (s.loadDone c x n) := by
  rw [exec_loadComplete_fits hm h5 hf, if_neg]
  rcases h with h | h <;> simp [h]

theorem loadComplete_fails (hs : (s.slot c n).started = true) (hue : s.imageUe c n = true) :
    exec (.loadComplete c x) s = .next ((s.setCtx c x { s.ctx c x with move := none }).saveFail c x) := by
  rw [exec_loadComplete_fits hm h5 hf, hs, hue]
  rfl

end

theorem loadComplete_waits (c x : Nat) (h : (s.ctx c x).move = none ∨ s.ctxState c x ≠ 5 ∨ ∀ n, s.chansFit c n = false) :
    exec (.loadComplete c x) s = .next s := by
  change execLoadComplete c x s = _
  cases hm : (s.ctx c x).move with
  | none => simp only [execLoadComplete, hm]
  | some q =>
    have hno : ¬ (s.ctxState c x = 5 ∧ s.chansFit c q.1 = true) := by
      rintro ⟨h5, hf⟩
      rcases h with h | h | h
      · exact absurd (hm.symm.trans h) (Option.some_ne_none q)
      · exact h h5
      · exact Bool.false_ne_true ((h q.1).symm.trans hf)
    simp only [execLoadComplete, hm, if_neg hno]

/-! ## PREEMPT and TEARDOWN (R302, R313) -/

theorem exec_preempt (r : Requester) (c x : Nat) : exec (.preempt r c x) s =
    .next (if r = .steward ∧ c < s.nClusters ∧ x < 4 then s.preempt c x else s) := by
  change execPreempt r c x s = _
  simp only [execPreempt, Bool.and_eq_true, beq_iff_eq, decide_eq_true_eq, and_assoc]

theorem State.preempt_empty {s : State} {c x : Nat} (h : s.ctxState c x = 0) : s.preempt c x = s := by
  simp only [State.preempt, h]

theorem State.preempt_resident {s : State} {c x : Nat} (h : s.ctxState c x = 1 ∨ s.ctxState c x = 2 ∨ s.ctxState c x = 3) :
    s.preempt c x = s.evict c x 16 := by
  rcases h with h | h | h <;> simp only [State.preempt, h]

theorem State.preempt_moving {s : State} {c x : Nat} (h : 4 ≤ s.ctxState c x) : s.preempt c x = s.orReg (ctxStatus c x) (2 ^ 31) := by
  obtain ⟨k, hk⟩ := Nat.exists_eq_add_of_le' h
  simp only [State.preempt, hk]

theorem preempt_evicts (c x : Nat) (hc : c < s.nClusters) (hx : x < 4)
    (h : s.ctxState c x = 1 ∨ s.ctxState c x = 2 ∨ s.ctxState c x = 3) : exec (.preempt .steward c x) s = .next (s.evict c x 16) := by
  rw [exec_preempt, if_pos ⟨rfl, hc, hx⟩, State.preempt_resident h]

theorem preempt_marks (c x : Nat) (hc : c < s.nClusters) (hx : x < 4) (h : 4 ≤ s.ctxState c x) :
    exec (.preempt .steward c x) s = .next (s.orReg (ctxStatus c x) (2 ^ 31)) := by
  rw [exec_preempt, if_pos ⟨rfl, hc, hx⟩, State.preempt_moving h]

theorem preempt_empty (c x : Nat) (h : s.ctxState c x = 0) : exec (.preempt .steward c x) s = .next s := by
  rw [exec_preempt, State.preempt_empty h, ite_self]

theorem preempt_ignored (r : Requester) (c x : Nat) (h : r ≠ .steward ∨ s.nClusters ≤ c ∨ 4 ≤ x) : exec (.preempt r c x) s = .next s := by
  rw [exec_preempt, if_neg]
  rintro ⟨hr, hc, hx⟩
  rcases h with h | h | h
  · exact h hr
  · exact absurd hc (Nat.not_lt.2 h)
  · exact absurd hx (Nat.not_lt.2 h)

/-- The place that a TEARDOWN of the Steward's names. -/
def TeardownPlace (s : State) (r : Requester) (c x slot : Nat) : Prop := r = .steward ∧ c < s.nClusters ∧ x < 4 ∧ slot < 16

/-- What TEARDOWN tests of its requester and place. -/
theorem teardownPlace_iff {r : Requester} {c x slot : Nat} :
    (r == .steward && decide (c < s.nClusters) && decide (x < 4) && decide (slot < 16)) = true ↔ TeardownPlace s r c x slot := by
  simp only [TeardownPlace, Bool.and_eq_true, beq_iff_eq, decide_eq_true_eq, and_assoc]

theorem exec_teardown_context {s : State} {r : Requester} {c x slot : Nat} (h : TeardownPlace s r c x slot) :
    exec (.teardown r c x false slot) s = .next (if s.ctxState c x = 0 ∨ s.ctxState c x = 6 then s
      else (s.tearDown c x 5 6).dropShare c (s.ctx c x).task) := by
  refine (congrArg Host.Outcome.next (if_pos ((teardownPlace_iff s).2 h))).trans ?_
  simp only [Bool.false_eq_true, if_false]

theorem exec_teardown_slot {s : State} {r : Requester} {c x slot : Nat} (h : TeardownPlace s r c x slot) :
    exec (.teardown r c x true slot) s = .next (if (s.slot c slot).task.isSome = true ∧ (s.slot c slot).ctx = none then
      ((s.dropShare c (s.slot c slot).task).tearSlot c slot).settle else s) := by
  refine (congrArg Host.Outcome.next (if_pos ((teardownPlace_iff s).2 h))).trans ?_
  simp only [if_true, Bool.and_eq_true, Option.isNone_iff_eq_none]

theorem exec_teardown_elsewhere {s : State} {r : Requester} {c x slot : Nat} (swapped : Bool) (h : ¬ TeardownPlace s r c x slot) :
    exec (.teardown r c x swapped slot) s = .next s :=
  congrArg Host.Outcome.next (if_neg (mt (teardownPlace_iff s).1 h))

theorem teardown_context (c x slot : Nat) (hc : c < s.nClusters) (hx : x < 4) (hn : slot < 16) (h0 : s.ctxState c x ≠ 0)
    (h6 : s.ctxState c x ≠ 6) :
    exec (.teardown .steward c x false slot) s = .next ((s.tearDown c x 5 6).dropShare c (s.ctx c x).task) := by
  rw [exec_teardown_context ⟨rfl, hc, hx, hn⟩, if_neg (not_or.2 ⟨h0, h6⟩)]

theorem teardown_slot (c x slot : Nat) (hc : c < s.nClusters) (hx : x < 4) (hn : slot < 16) (ht : (s.slot c slot).task.isSome = true)
    (hk : (s.slot c slot).ctx = none) :
    exec (.teardown .steward c x true slot) s = .next ((s.dropShare c (s.slot c slot).task).tearSlot c slot).settle := by
  rw [exec_teardown_slot ⟨rfl, hc, hx, hn⟩, if_pos ⟨ht, hk⟩]

theorem teardown_ignored (r : Requester) (c x slot : Nat) (swapped : Bool) (h : r ≠ .steward ∨ s.nClusters ≤ c ∨ 4 ≤ x ∨ 16 ≤ slot ∨
    (swapped = true ∧ ((s.slot c slot).task = none ∨ (s.slot c slot).ctx ≠ none)) ∨
    (swapped = false ∧ (s.ctxState c x = 0 ∨ s.ctxState c x = 6))) : exec (.teardown r c x swapped slot) s = .next s := by
  by_cases hp : TeardownPlace s r c x slot
  · have ⟨hr, hc, hx, hn⟩ := hp
    rcases h with h | h | h | h | ⟨rfl, h⟩ | ⟨rfl, h⟩
    · exact absurd hr h
    · exact absurd hc (Nat.not_lt.2 h)
    · exact absurd hx (Nat.not_lt.2 h)
    · exact absurd hn (Nat.not_lt.2 h)
    · rw [exec_teardown_slot hp, if_neg]
      rintro ⟨ht, hk⟩
      exact h.elim (Option.isSome_iff_ne_none.1 ht) fun h => h hk
    · rw [exec_teardown_context hp, if_pos h]
  · exact exec_teardown_elsewhere swapped hp

/-! ## The tiler's choice (R297) -/

theorem tilerContextChange_waits (c : Nat) (h : 4 ≤ s.curCtx c ∨ s.ct < (s.ctx c (s.curCtx c)).tiler.emitted + 2048 ∨
    s.nextCtx c (s.curCtx c) = none) : exec (.tilerContextChange c) s = .next s := by
  change execTilerContextChange c s = _
  by_cases hdue : s.curCtx c < 4 ∧ (s.ctx c (s.curCtx c)).tiler.emitted + 2048 ≤ s.ct
  · have hn : s.nextCtx c (s.curCtx c) = none := h.resolve_left (by omega) |>.resolve_left (by omega)
    simp only [execTilerContextChange, if_pos hdue, hn]
  · simp only [execTilerContextChange, if_neg hdue]

theorem tilerContextChange_changes (c x : Nat) (h4 : s.curCtx c < 4) (hd : (s.ctx c (s.curCtx c)).tiler.emitted + 2048 ≤ s.ct)
    (hn : s.nextCtx c (s.curCtx c) = some x) : exec (.tilerContextChange c) s = .next (s.tileFor c x) := by
  change execTilerContextChange c s = _
  simp only [execTilerContextChange, if_pos (And.intro h4 hd), hn]

/-- Settles O20: swaps, saves and loads by what is ready, the Steward's commands by their place, and the tiler's choice by its time. -/
theorem contextCommands : Obligations.ContextCommands :=
  ⟨contextSwap_loads, contextSwap_evicts, contextSwap_waits,
    fun s c x n next since v hm hn h4 hr => stateImageSave_fails s c x n next since hm hn h4 hr v,
    fun s c x n next since u v hm hn h4 hr => stateImageSave_saves s c x n next since hm hn h4 hr u v, stateImageSave_waits,
    load_ignored, load_loads, loadComplete_runs, loadComplete_fails, loadComplete_waits, preempt_evicts, preempt_marks, preempt_empty,
    preempt_ignored, teardown_context, teardown_slot, teardown_ignored, tilerContextChange_waits, tilerContextChange_changes⟩

end Sys2Proof.Machine
end

section
/-! SUPPORT. Voltage scaling (R514), thermal samples (R515, R516), rails (R526, R527) and the general outputs (R544). -/

namespace Sys2Proof.Machine

variable (s : State)

/-! ## Voltage scaling (R514) -/

/-- A readback that holds no more than 20 mV away from the voltage commanded. -/
def readbackGood (rb : Option Nat) (cmd : Nat) : Bool :=
  match rb with
  | none => false
  | some v => decide (v ≤ cmd + 20) && decide (cmd ≤ v + 20)

theorem readbackGood_iff {rb : Option Nat} {cmd : Nat} : readbackGood rb cmd = true ↔ ∃ v, rb = some v ∧ v ≤ cmd + 20 ∧ cmd ≤ v + 20 := by
  cases rb with
  | none => simp [readbackGood]
  | some v => simp [readbackGood]

/-- Where voltage scaling runs, the readback decides between the voltage commanded and 850 mV. -/
theorem exec_avs_running {s : State} {rb : Option Nat} {target cmd : Nat} (hu : s.stewardUp = true) (hp : s.pmState ≤ 2)
    (ht : target = (max 650 (min 850 ((Config.avsTarget [s.fresh] : Int) + s.avsMargin))).toNat)
    (hc : cmd = if s.fld (pmReg 0x80) 15 0 = 0 then target else if s.fld (pmReg 0x80) 15 0 < target
      then min target (s.fld (pmReg 0x80) 15 0 + 5) else max target (s.fld (pmReg 0x80) 15 0 - 5)) :
    exec (.avs rb) s = .next (if readbackGood rb cmd then State.setFld { s with fresh := s.fresh + 1 } (pmReg 0x80) 15 0 cmd
      else State.raise (State.orReg (State.setFld { s with fresh := s.fresh + 1 } (pmReg 0x80) 15 0 850) (pmReg 0x80) (2 ^ 31))
        .pmAvsFail 7 { info0 := cmd, info1 := rb.getD 0 }) := by
  subst hc ht
  refine congrArg Host.Outcome.next (if_pos ?_)
  rw [hu, decide_eq_true hp]
  rfl

theorem avs_scales (rb : Option Nat) (target cmd : Nat) (hu : s.stewardUp = true) (hp : s.pmState ≤ 2)
    (ht : target = (max 650 (min 850 ((Config.avsTarget [s.fresh] : Int) + s.avsMargin))).toNat)
    (hc : cmd = if s.fld (pmReg 0x80) 15 0 = 0 then target else if s.fld (pmReg 0x80) 15 0 < target
      then min target (s.fld (pmReg 0x80) 15 0 + 5) else max target (s.fld (pmReg 0x80) 15 0 - 5)) :
    completes (.avs rb) s fun t =>
      ((∃ v, rb = some v ∧ v ≤ cmd + 20 ∧ cmd ≤ v + 20) → t = State.setFld { s with fresh := s.fresh + 1 } (pmReg 0x80) 15 0 cmd) ∧
      ((∀ v, rb = some v → ¬ (v ≤ cmd + 20 ∧ cmd ≤ v + 20)) →
        t = State.raise (State.orReg (State.setFld { s with fresh := s.fresh + 1 } (pmReg 0x80) 15 0 850) (pmReg 0x80) (2 ^ 31))
          .pmAvsFail 7 { info0 := cmd, info1 := rb.getD 0 }) :=
  ⟨_, exec_avs_running hu hp ht hc, fun hgood => if_pos (readbackGood_iff.2 hgood),
    fun hbad => if_neg fun h => let ⟨v, hv, hnear⟩ := readbackGood_iff.1 h; hbad v hv hnear⟩

theorem avs_waits (rb : Option Nat) (h : s.stewardUp = false ∨ 2 < s.pmState) : exec (.avs rb) s = .next s := by
  refine congrArg Host.Outcome.next (if_neg ?_)
  rw [Bool.and_eq_true, decide_eq_true_eq]
  rintro ⟨hu, hp⟩
  exact h.elim (fun h => Bool.false_ne_true (h.symm.trans hu)) (Nat.not_lt.2 hp)

/-! ## Thermal samples (R515, R516) -/

theorem thermalSample_off (l : List Nat) (h : s.pmState = 4) : exec (.thermalSample l) s = .next s :=
  congrArg Host.Outcome.next (if_pos h)

theorem thermalSample_retain (l : List Nat) (t : Int) (h : s.pmState = 3) (ht : t = ((l.take 16).map tempOf).headD 0) :
    exec (.thermalSample l) s = .next (if 2160 ≤ t then s.thermalShutdown t else s) := by
  subst ht
  exact congrArg Host.Outcome.next ((if_neg (by omega)).trans (if_pos h))

theorem thermalSample_short (l : List Nat) (hp : s.pmState ≤ 2) (hl : l.length < 16) : exec (.thermalSample l) s = .next s := by
  have hshort : ((l.take 16).map tempOf).length < 16 := by
    rw [List.length_map, List.length_take]
    omega
  exact congrArg Host.Outcome.next ((if_neg (by omega)).trans ((if_neg (by omega)).trans (if_pos hshort)))

/-- Sensor k's register written with a reading and its validity; an invalid reading is reported. -/
def State.writeSensor (u : State) (k : Nat) (good : Bool) (t : Int) : State :=
  if good then u.wr (pmReg (0x40 + 4 * k)) (2 ^ 31 + ofSigned 16 t)
  else State.raise (u.wr (pmReg (0x40 + 4 * k)) (ofSigned 16 t)) .pmSensorFail 7 { unit := k, info0 := ofSigned 16 t }

/-- The model writes the validity as a bit in front of the reading. -/
theorem State.writeSensor_eq (u : State) (k : Nat) (good : Bool) (t : Int) : u.writeSensor k good t =
    if good then u.wr (pmReg (0x40 + 4 * k)) (b2n good * 2 ^ 31 + ofSigned 16 t)
    else State.raise (u.wr (pmReg (0x40 + 4 * k)) (b2n good * 2 ^ 31 + ofSigned 16 t)) .pmSensorFail 7 { unit := k, info0 := ofSigned 16 t } := by
  cases good with
  | true => simp only [State.writeSensor, b2n, if_true, Nat.one_mul]
  | false => simp only [State.writeSensor, b2n, Bool.false_eq_true, if_false, Nat.zero_mul, Nat.zero_add]

theorem thermalSample_acts (temps : List Nat) (l good : List Int) (tj : Int) (u : State) (hp : s.pmState ≤ 2)
    (hl : l = (temps.take 16).map tempOf) (h16 : l.length = 16) (hg : good = l.filter (tempValid l))
    (htj : tj = if bit (s.rd (pmReg 0x20)) 31
      then max (if good.isEmpty then toSigned 16 (s.fld (pmReg 0x20) 15 0) else good.foldl max (good.headD 0)) 2080
      else if good.isEmpty then toSigned 16 (s.fld (pmReg 0x20) 15 0) else good.foldl max (good.headD 0))
    (hu : u = ((List.range 16).foldl (fun (u : State) (k : Nat) => if (l.map (tempValid l)).getD k false
      then u.wr (pmReg (0x40 + 4 * k)) (2 ^ 31 + ofSigned 16 (l.getD k 0))
      else State.raise (u.wr (pmReg (0x40 + 4 * k)) (ofSigned 16 (l.getD k 0))) .pmSensorFail 7
        { unit := k, info0 := ofSigned 16 (l.getD k 0) }) s).setFld (pmReg 0x20) 15 0 (ofSigned 16 tj)) :
    exec (.thermalSample temps) s = .next (if 2160 ≤ tj then u.thermalShutdown tj
      else u.thermalLevel (if good.length < 12 then max 1 (min 3 (levelOf (s.fld (pmReg 0x20) 30 28) tj))
        else min 3 (levelOf (s.fld (pmReg 0x20) 30 28) tj))) := by
  have hsensors := funext fun u : State => funext fun k => u.writeSensor_eq k ((l.map (tempValid l)).getD k false) (l.getD k 0)
  simp only [State.writeSensor] at hsensors
  rw [hsensors] at hu
  subst hu htj hg hl
  exact congrArg Host.Outcome.next ((if_neg (by omega)).trans ((if_neg (by omega)).trans (if_neg (by omega))))

/-! ## Rails (R526, R527) -/

theorem railOutOfRange_unlocks (n : Nat) (hp : s.pmState ≤ 2) (hg : s.power.pwrGood = true) (hn : n < 9) :
    exec (.railOutOfRange n) s = .next ((State.setFld { s with fresh := s.fresh + 1 } (pmReg 0xC0) n n 0).pllUnlock
      ((Config.freeWord s.fresh).toNat % 16)) :=
  congrArg Host.Outcome.next (if_pos ⟨hp, hg, hn⟩)

theorem railOutOfRange_ignored (n : Nat) (h : 2 < s.pmState ∨ s.power.pwrGood = false ∨ 9 ≤ n) :
    exec (.railOutOfRange n) s = .next s := by
  refine congrArg Host.Outcome.next (if_neg ?_)
  rintro ⟨hp, hg, hn⟩
  rcases h with h | h | h
  · exact absurd hp (Nat.not_le.2 h)
  · exact Bool.false_ne_true (h.symm.trans hg)
  · exact absurd hn (Nat.not_lt.2 h)

/-! ## General outputs (R544) -/

/-- The outputs below n of a value written, taken one by one where `may` allows. -/
def State.writeOutputs (s : State) (may : Nat → Bool) (v n : Nat) : State :=
  (List.range n).foldl (fun (t : State) (k : Nat) => if may k then t.setFld (pmReg 0xC4) k k (bits v k k) else t) s

theorem State.writeOutputs_succ (may : Nat → Bool) (v n : Nat) : s.writeOutputs may v (n + 1) =
    if may n then (s.writeOutputs may v n).setFld (pmReg 0xC4) n n (bits v n n) else s.writeOutputs may v n := by
  rw [State.writeOutputs, List.range_succ, List.foldl_append, List.foldl_cons, List.foldl_nil]
  rfl

/-- Outputs written change registers alone. -/
theorem State.writeOutputs_frame (may : Nat → Bool) (v n : Nat) : ∃ regs, s.writeOutputs may v n = { s with regs := regs } := by
  induction n with
  | zero => exact ⟨s.regs, rfl⟩
  | succ n ih =>
    obtain ⟨regs, h⟩ := ih
    rw [State.writeOutputs_succ, h]
    split
    · exact ⟨_, rfl⟩
    · exact ⟨regs, rfl⟩

theorem State.writeOutputs_regsWf (may : Nat → Bool) (v n : Nat) (hs : s.regsWf = true) : (s.writeOutputs may v n).regsWf = true := by
  induction n with
  | zero => exact hs
  | succ n ih =>
    rw [State.writeOutputs_succ]
    split
    · exact State.wr_regsWf _ _ _ ih
    · exact ih

theorem State.rd_writeOutputs_other (may : Nat → Bool) (v n : Nat) {a : Nat} (ha : a ≠ pmReg 0xC4) :
    (s.writeOutputs may v n).rd a = s.rd a := by
  induction n with
  | zero => rfl
  | succ n ih =>
    rw [State.writeOutputs_succ]
    split
    · rw [State.rd_setFld_other _ _ _ _ _ _ ha, ih]
    · exact ih

/-- A bit of a register one of whose bits, both below 32, is replaced. -/
theorem State.bit_rd_setFld_bit {s : State} {a n b v : Nat} (hs : s.regsWf = true) (hb : b < 32) :
    bit ((s.setFld a n n (bits v n n)).rd a) b = if b = n then bit v n else bit (s.rd a) b := by
  have hcut : bit ((s.setFld a n n (bits v n n)).rd a) b = bit (setBits (s.rd a) n n (bits v n n)) b := by
    rw [State.rd_setFld_same _ _ _ _ _ hs, bit_eq_testBit, bit_eq_testBit, Nat.testBit_mod_two_pow, decide_eq_true hb, Bool.true_and]
  rw [hcut]
  split
  · next h =>
    rw [h, bit_setBits_inside ⟨le_rfl, le_rfl⟩, testBit_bits le_rfl le_rfl, bit_eq_testBit]
  · next h => exact bit_setBits_outside le_rfl fun ⟨h1, h2⟩ => h (Nat.le_antisymm h2 h1)

/-- Each output below n takes its bit of the value where it may; every other bit of the register stays. -/
theorem State.bit_writeOutputs (may : Nat → Bool) (v n : Nat) (hs : s.regsWf = true) {b : Nat} (hb : b < 32) :
    bit ((s.writeOutputs may v n).rd (pmReg 0xC4)) b = if b < n ∧ may b = true then bit v b else bit (s.rd (pmReg 0xC4)) b := by
  induction n with
  | zero => rw [if_neg fun h => Nat.not_lt_zero b h.1]; rfl
  | succ n ih =>
    rw [State.writeOutputs_succ]
    by_cases hbn : b = n
    · subst hbn
      by_cases hm : may b = true
      · rw [if_pos hm, State.bit_rd_setFld_bit (s.writeOutputs_regsWf may v b hs) hb, if_pos rfl, if_pos ⟨b.lt_succ_self, hm⟩]
      · rw [if_neg hm, ih, if_neg fun h => hm h.2, if_neg fun h => hm h.2]
    · have hlt : (b < n + 1 ∧ may b = true) = (b < n ∧ may b = true) := by rw [Nat.lt_succ_iff_lt_or_eq, or_iff_left hbn]
      simp only [hlt]
      split
      · rw [State.bit_rd_setFld_bit (s.writeOutputs_regsWf may v n hs) hb, if_neg hbn, ih]
      · exact ih

theorem pmGpioOut_writes (r : Requester) (v a : Nat) (ha : a ≠ pmReg 0xC4) (hs : s.regsWf = true) :
    completes (.pmGpioOut r v) s fun t =>
      (∀ n < 24, bit (t.rd (pmReg 0xC4)) n = if s.gpioOut n && s.mayGpio r n then bit v n else bit (s.rd (pmReg 0xC4)) n) ∧
      (∀ n < 32, 24 ≤ n → bit (t.rd (pmReg 0xC4)) n = bit (s.rd (pmReg 0xC4)) n) ∧ t.rd a = s.rd a ∧ { t with regs := s.regs } = s := by
  refine ⟨s.writeOutputs (fun n => s.gpioOut n && s.mayGpio r n) v 24, rfl, fun n hn => ?_, fun n hn h24 => ?_,
    s.rd_writeOutputs_other _ v 24 ha, ?_⟩
  · rw [s.bit_writeOutputs _ v 24 hs (hn.trans (by decide))]
    simp only [hn, true_and]
  · rw [s.bit_writeOutputs _ v 24 hs hn, if_neg fun h => Nat.not_lt.2 h24 h.1]
  · obtain ⟨regs, h⟩ := s.writeOutputs_frame (fun n => s.gpioOut n && s.mayGpio r n) v 24
    rw [h]

/-- Settles O36: voltage scaling by its readback, a thermal sample by the state it comes in, rails, and the outputs bit by bit. -/
theorem powerMonitors : Obligations.PowerMonitors :=
  ⟨avs_scales, thermalSample_off, thermalSample_retain, thermalSample_short, avs_waits, thermalSample_acts, railOutOfRange_unlocks,
    railOutOfRange_ignored, pmGpioOut_writes⟩

end Sys2Proof.Machine
end

section
/-! SUPPORT. Windows and the memory of other partitions (R122, R125): what lies in another partition's memory fails the check, whatever the
windows hold. -/

namespace Sys2Proof.Machine

variable {s : State} {c x ga n a : Nat} {right : Right}

/-- An access to memory of another partition fails the check of every context. -/
theorem State.windowOk_foreign (ha : s.localOf (s.normGa ga) = some a) (hf : s.foreign c a = true) : s.windowOk c x ga n right = false := by
  simp only [State.windowOk, ha, hf, Bool.not_true, Bool.and_false]

theorem State.foreign_scratch_accum {d o : Nat} (hr : regionOf a = .scratch d o ∨ regionOf a = .accum d o) :
    s.foreign c a = (s.ownerOf d != s.ownerOf c) := by
  rcases hr with hr | hr <;> simp only [State.foreign, State.memOwner, hr]

theorem State.foreign_pool {o : Nat} (hr : regionOf a = .pool o) : s.foreign c a = (assoc s.poolBanks (o / 0x80000) != s.ownerOf c) := by
  simp only [State.foreign, State.memOwner, hr]

theorem State.foreign_chipCtr {w : Nat} (hr : regionOf a = .chipCtr w) : s.foreign c a = (assoc s.ctrGroups (w / 16) != s.ownerOf c) := by
  simp only [State.foreign, State.memOwner, hr]

theorem State.foreign_lpddr (hr : regionOf a = .lpddr) : s.foreign c a = ((s.lpFind a).map Prod.fst != s.ownerOf c) := by
  simp only [State.foreign, State.memOwner, hr]

/-- Settles O55: in each kind of memory that a partition keeps, an owner other than the cluster's makes the address foreign. -/
theorem noWindowOpensForeignMemory : Obligations.NoWindowOpensForeignMemory := by
  intro s c x ga n a right ha
  refine ⟨fun d o hr hne => ?_, fun o hr hne => ?_, fun w hr hne => ?_, fun hr hne => ?_⟩
  · exact State.windowOk_foreign ha ((State.foreign_scratch_accum hr).trans (bne_iff_ne.2 hne))
  · exact State.windowOk_foreign ha ((State.foreign_pool hr).trans (bne_iff_ne.2 hne))
  · exact State.windowOk_foreign ha ((State.foreign_chipCtr hr).trans (bne_iff_ne.2 hne))
  · exact State.windowOk_foreign ha ((State.foreign_lpddr hr).trans (bne_iff_ne.2 hne))

end Sys2Proof.Machine
end

section
/-! SUPPORT. Slot tags (R116, R117, R120): a cluster reset leaves every slot empty, a tag register shows its 32 slots, and a change shows
from its tick on. -/

namespace Sys2Proof.Machine

/-! ## The tag registers -/

/-- A key that no entry has reads as unlisted. -/
theorem sparseGet_of_unlisted {α : Type} (d : α) {m : List (Nat × α)} {k : Nat} (h : ∀ e ∈ m, e.1 ≠ k) : sparseGet d m k = d := by
  induction m with
  | nil => rfl
  | cons e m ih =>
    rw [sparseGet, if_neg (h e List.mem_cons_self)]
    exact ih fun q hq => h q (List.mem_cons_of_mem e hq)

/-- A key in a dropped range reads as unlisted. -/
theorem sparseGet_drop_inside {α : Type} (d : α) (m : List (Nat × α)) {lo hi k : Nat} (hl : lo ≤ k) (hh : k < hi) :
    sparseGet d (sparseDrop m lo hi) k = d := by
  refine sparseGet_of_unlisted d fun e he => ?_
  have hout := (List.mem_filter.1 he).2
  rintro rfl
  simp [hl, hh] at hout

theorem State.rd_resetRegs_inside (s : State) {lo hi a : Nat} (hl : lo ≤ a) (hh : a < hi) : (s.resetRegs lo hi).rd a = (regReset a).toNat :=
  congrArg BitVec.toNat (sparseGet_drop_inside _ _ hl hh)

/-- A tag register resets to 0. -/
theorem regReset_slotTag {c k : Nat} (hc : c < 64) (hk : k < 256) : (regReset (clReg c (0xC00 + 4 * k))).toNat = 0 :=
  (State.reset_rd _).symm.trans (State.reset_rd_slotTag hc hk)

/-- A slot of which no change is under way is tagged as its register says. -/
theorem State.full_of_no_change {s : State} {c slot : Nat} (h : ∀ t ∈ s.tags, t.shows c slot s.ct = false) :
    s.full c slot = bit (s.rd (clReg c (0xC00 + 4 * (slot / 32)))) (slot % 32) := by
  have hnone : (s.tags.filter fun t => t.shows c slot s.ct) = [] := List.filter_eq_nil_iff.2 fun t ht => by simp [h t ht]
  simp only [State.full, hnone, List.foldl_nil]

/-! ## What the steps of a cluster reset leave of the tags -/

/-- From s to t the tag registers of cluster c and the changes under way stay. -/
structure SlotTagsKept (c : Nat) (s t : State) : Prop where
  tags : t.tags = s.tags
  regs : ∀ k < 256, t.rd (clReg c (0xC00 + 4 * k)) = s.rd (clReg c (0xC00 + 4 * k))

section
variable {c : Nat}

theorem SlotTagsKept.refl (s : State) : SlotTagsKept c s s := ⟨rfl, fun _ _ => rfl⟩

theorem SlotTagsKept.trans {s t u : State} (h : SlotTagsKept c s t) (h' : SlotTagsKept c t u) : SlotTagsKept c s u :=
  ⟨h'.tags.trans h.tags, fun k hk => (h'.regs k hk).trans (h.regs k hk)⟩

theorem SlotTagsKept.foldl {α : Type} {f : State → α → State} (hf : ∀ s e, SlotTagsKept c s (f s e)) (l : List α) (s : State) :
    SlotTagsKept c s (l.foldl f s) := by
  induction l generalizing s with
  | nil => exact .refl s
  | cons e l ih => exact (hf s e).trans (ih (f s e))

theorem SlotTagsKept.foldlSnd {α β : Type} {f : β × State → α → β × State} (hf : ∀ q e, SlotTagsKept c q.2 (f q e).2) (l : List α)
    (q : β × State) : SlotTagsKept c q.2 (l.foldl f q).2 := by
  induction l generalizing q with
  | nil => exact .refl q.2
  | cons e l ih => exact (hf q e).trans (ih (f q e))

theorem SlotTagsKept.wr {a : Nat} (s : State) (v : Nat) (ha : ∀ k < 256, clReg c (0xC00 + 4 * k) ≠ a) : SlotTagsKept c s (s.wr a v) :=
  ⟨rfl, fun k hk => s.rd_wr_other a v _ (ha k hk)⟩

/-- A register of the cluster's block below the tag registers is none of them. -/
theorem SlotTagsKept.wr_clReg {o : Nat} (s : State) (v : Nat) (ho : o < 0xC00) : SlotTagsKept c s (s.wr (clReg c o) v) :=
  .wr s v fun k _ => by simp only [clReg]; omega

/-- The arrays' registers lie past the tag registers. -/
theorem SlotTagsKept.wr_arrReg {a o : Nat} (s : State) (v : Nat) : SlotTagsKept c s (s.wr (arrReg c a o) v) :=
  .wr s v fun k _ => by simp only [clReg, arrReg]; omega

theorem SlotTagsKept.setFld_clReg {o : Nat} (s : State) (hi lo v : Nat) (ho : o < 0xC00) :
    SlotTagsKept c s (s.setFld (clReg c o) hi lo v) := .wr_clReg s _ ho

theorem SlotTagsKept.orReg_clReg {o : Nat} (s : State) (m : Nat) (ho : o < 0xC00) : SlotTagsKept c s (s.orReg (clReg c o) m) :=
  ⟨rfl, (SlotTagsKept.wr_clReg s _ ho).regs⟩

theorem State.repairColumn_slotTagsKept (s : State) (a col : Nat) : SlotTagsKept c s (s.repairColumn c a col).2 := by
  have soft : ∀ v, SlotTagsKept c s ((s.wr (arrReg c a 0xC) v).setFld (clReg c 0xB10) a a 1) := fun v =>
    (SlotTagsKept.wr_arrReg s v).trans (.setFld_clReg _ _ _ _ (by decide))
  unfold State.repairColumn
  dsimp only
  split
  · exact soft _
  · split
    · exact .refl s
    · split
      · exact soft _
      · exact .refl s

theorem State.applyRepairs_slotTagsKept (s : State) : SlotTagsKept c s (s.applyRepairs c).2 := by
  refine SlotTagsKept.foldlSnd (fun q e => ?_) _ (true, s)
  dsimp only
  split
  · exact State.repairColumn_slotTagsKept q.2 _ _
  · split
    · exact .setFld_clReg _ _ _ _ (by decide)
    · exact .refl q.2

theorem State.showWidth_slotTagsKept (s : State) : SlotTagsKept c s (s.showWidth c) := .wr_clReg s _ (by decide)

/-- What follows the wipe of a cluster reset concerns repairs, lockstep and widths alone. -/
theorem State.resetCluster_slotTagsKept (s : State) : SlotTagsKept c (s.wipeCluster c) (s.resetCluster c).2 := by
  have tail : ∀ u v, SlotTagsKept c (s.wipeCluster c) u →
      SlotTagsKept c (s.wipeCluster c) ((u.setFld (clReg c 0xB00) 27 27 v).showWidth c) := fun u v h =>
    (h.trans (.setFld_clReg u _ _ _ (by decide))).trans (State.showWidth_slotTagsKept _)
  have repaired := (s.wipeCluster c).applyRepairs_slotTagsKept (c := c)
  unfold State.resetCluster
  generalize (s.wipeCluster c).applyRepairs c = q at repaired ⊢
  dsimp only
  split
  · exact tail q.2 _ repaired
  · exact (tail q.2 _ repaired).trans (.orReg_clReg _ _ (by decide))

end

/-- The registers of a wiped cluster: all of them dropped, then its repairs and column maps written. -/
theorem State.wipeCluster_regs (s : State) (c : Nat) : ∃ (u : State) (v : Nat), (s.wipeCluster c).regs =
    State.regs ((List.range 8).foldl (fun s a => s.wr (arrReg c a 0xC) (((assoc s.colMaps (8 * c + a)).getD 0) &&& 0x7F7F))
      ((u.resetRegs (clReg c 0) (clReg c 0x10000)).wr (clReg c 0xB10) v)) := by
  unfold State.wipeCluster
  dsimp only
  exact ⟨_, _, rfl⟩

/-- The wipe drops the cluster's registers, its tags among them. -/
theorem State.rd_wipeCluster_slotTag (s : State) {c k : Nat} (hc : c < 64) (hk : k < 256) :
    (s.wipeCluster c).rd (clReg c (0xC00 + 4 * k)) = 0 := by
  obtain ⟨u, v, hrd⟩ := s.wipeCluster_regs c
  have hkept : ∀ w : State, SlotTagsKept c w ((List.range 8).foldl
      (fun s a => s.wr (arrReg c a 0xC) (((assoc s.colMaps (8 * c + a)).getD 0) &&& 0x7F7F)) (w.wr (clReg c 0xB10) v)) := fun w =>
    (SlotTagsKept.wr_clReg w v (by decide)).trans (.foldl (fun s _ => .wr_arrReg s _) _ _)
  have hlo : clReg c 0 ≤ clReg c (0xC00 + 4 * k) := by simp only [clReg]; omega
  have hhi : clReg c (0xC00 + 4 * k) < clReg c 0x10000 := by simp only [clReg]; omega
  rw [State.rd, hrd, ← State.rd, (hkept _).regs k hk, State.rd_resetRegs_inside _ hlo hhi, regReset_slotTag hc hk]

/-- The wipe drops the changes of the cluster's tags that are under way. -/
theorem State.tags_wipeCluster (s : State) (c : Nat) : ∀ t ∈ (s.wipeCluster c).tags, t.cluster ≠ c :=
  fun _ ht => bne_iff_ne.1 (List.mem_filter.1 ht).2

theorem State.full_resetCluster (s : State) {c slot : Nat} (hc : c < 64) (hs : slot < 8192) : (s.resetCluster c).2.full c slot = false := by
  have hkept := s.resetCluster_slotTagsKept (c := c)
  have hk : slot / 32 < 256 := by omega
  rw [State.full_of_no_change fun t ht => ?_, hkept.regs _ hk, s.rd_wipeCluster_slotTag hc hk]
  · simp [bit]
  · have hne : t.cluster ≠ c := s.tags_wipeCluster c t (hkept.tags ▸ ht)
    simp [TagChange.shows, hne]

/-! ## What a tag register shows (R120) -/

/-- Bits put side by side are read back one by one. -/
theorem bit_sum_powers (f : Nat → Bool) {n j : Nat} (hj : j < n) :
    bit (((List.range n).map fun j => if f j then 2 ^ j else 0).foldl (· + ·) 0) j = f j := by
  have hsum : ((List.range n).map fun j => if f j then 2 ^ j else 0).foldl (· + ·) 0 =
      ((List.range n).map fun j => b2n (f j) * 2 ^ (1 * j)).sum := by
    rw [← List.sum_eq_foldl]
    congr 2
    funext j
    cases f j <;> simp [b2n]
  have hbit := sublane_sum (w := 1) (g := fun j => b2n (f j)) (fun j _ => b2n_lt_two (f j)) hj
  rw [sublane, Nat.one_mul, Nat.pow_one] at hbit
  rw [hsum, bit, hbit]
  cases f j <;> rfl

theorem clReg_lt_devBase {c o : Nat} (hc : c < 64) (ho : o < 0x1000) : clReg c o < devBase := by
  simp only [clReg, clWin, clusterBase, devBase]
  omega

theorem clReg_cluster {c o : Nat} (ho : o < 0x1000) : (clReg c o - clusterBase) / 0x1000000 = c := by
  simp only [clReg, clWin, clusterBase]
  omega

theorem clReg_offset {c o : Nat} (ho : o < 0x1000) : (clReg c o - clusterBase) % 0x1000000 - 0xF00000 = o := by
  simp only [clReg, clWin, clusterBase]
  omega

/-- A register of a cluster's block belongs to the cluster's owner (R33). -/
theorem State.unowned_clReg (s : State) {c o : Nat} (hc : c < 64) (ho : o < 0x1000) : s.unowned (clReg c o) = (s.ownerOf c).isNone := by
  rw [State.unowned, if_pos (clReg_lt_devBase hc ho), clReg_cluster ho]

theorem State.regValue_clReg_unowned {s : State} {c o : Nat} (hc : c < 64) (ho : o < 0x1000) (hn : s.ownerOf c = none) :
    s.regValue (clReg c o) = (regReset (clReg c o)).toNat := by
  have hun : s.unowned (clReg c o) = true := by rw [s.unowned_clReg hc ho, hn, Option.isNone_none]
  simp only [State.regValue, hun, if_true]

theorem State.regValue_clReg_owned {s : State} {c o p : Nat} (hc : c < 64) (ho : o < 0x1000) (hp : s.ownerOf c = some p) :
    s.regValue (clReg c o) = s.clValue c o (maskWo (clReg c o) (s.shown (clReg c o))) := by
  have hun : s.unowned (clReg c o) = false := by rw [s.unowned_clReg hc ho, hp, Option.isNone_some]
  simp only [State.regValue, hun, Bool.false_eq_true, if_false, clReg_lt_devBase hc ho, if_true, clReg_cluster ho, clReg_offset ho,
    Nat.div_eq_of_lt ho]

/-- CL_SLOT_TAGSn puts the tags of its 32 slots side by side, whatever the register holds (R120). -/
theorem State.clValue_slotTags (s : State) (c v : Nat) {n : Nat} (hn : n < 256) : s.clValue c (0xC00 + 4 * n) v =
    ((List.range 32).map fun j => if s.full c (32 * n + j) then 2 ^ j else 0).foldl (· + ·) 0 := by
  have hrinse : 0xC00 + 4 * n ≠ 0x318 := by omega
  have htiler : 0xC00 + 4 * n ≠ 0x800 := by omega
  have htags : 0xC00 ≤ 0xC00 + 4 * n ∧ 0xC00 + 4 * n < 0x1000 := by omega
  have hslot : 8 * (0xC00 + 4 * n - 0xC00) = 32 * n := by omega
  rw [State.clValue, if_neg hrinse, if_neg htiler, if_pos htags, hslot]

theorem State.bit_regValue_slotTags (s : State) {c n j : Nat} (hc : c < 64) (hn : n < 256) (hj : j < 32) :
    bit (s.regValue (clReg c (0xC00 + 4 * n))) j = ((s.ownerOf c).isSome && s.full c (32 * n + j)) := by
  have ho : 0xC00 + 4 * n < 0x1000 := by omega
  cases hp : s.ownerOf c with
  | none =>
    rw [State.regValue_clReg_unowned hc ho hp, regReset_slotTag hc hn, Option.isSome_none, Bool.false_and]
    simp [bit]
  | some p => rw [State.regValue_clReg_owned hc ho hp, s.clValue_slotTags c _ hn, bit_sum_powers _ hj, Option.isSome_some, Bool.true_and]

/-! ## A change of one slot (R117) -/

/-- With no change under way there is nothing for the tag registers to take. -/
theorem State.settleTags_none {s : State} (h : s.tags = []) : s.settleTags = s := by
  have htags : { s with tags := [] } = s := by rw [← h]
  simp only [State.settleTags, h, List.all_nil, if_true, List.foldl_nil, htags]

/-- A change of one slot of the scratchpad is noted behind those under way. -/
theorem State.changeTags_slot (s : State) {t : TagChange} (hn : t.n = 1) (hf : t.first < 8192) :
    s.changeTags t = { s.settleTags with tags := s.settleTags.tags ++ [t] } := by
  have hmin : min 1 (8192 - t.first) = 1 := by omega
  have htn : { t with n := 1 } = t := by rw [← hn]
  simp only [State.changeTags, hn, hmin, Nat.one_ne_zero, if_false, htn]

theorem State.setTag_alone {s : State} (c : Nat) {slot : Nat} (b : Bool) (h : s.tags = []) (hs : slot < 8192) :
    s.setTag c slot b = { s with tags := [⟨s.ct + 1, c, slot, 1, 0, b, false⟩] } := by
  rw [State.setTag, State.changeTags_slot s rfl hs, State.settleTags_none h, h, List.nil_append]

/-- A change at a set tick of one slot shows in that slot alone, from that tick on. -/
theorem TagChange.shows_slot (a c slot d other now : Nat) (b m : Bool) :
    TagChange.shows ⟨a, c, slot, 1, 0, b, m⟩ d other now = decide (c = d ∧ slot = other ∧ a ≤ now) := by
  rw [Bool.eq_iff_iff]
  simp only [TagChange.shows, TagChange.due, if_true, Bool.and_eq_true, beq_iff_eq, decide_eq_true_eq]
  omega

/-- Where one change alone is under way and does not show, a slot is tagged as its register says. -/
theorem State.full_change_hidden {s : State} {t : TagChange} {d other : Nat} (ht : s.tags = [t]) (h : t.shows d other s.ct = false) :
    s.full d other = bit (s.rd (clReg d (0xC00 + 4 * (other / 32)))) (other % 32) :=
  State.full_of_no_change fun x hx => by rw [ht] at hx; rw [List.mem_singleton.1 hx, h]

/-- Where one change alone is under way and shows, it decides the slot. -/
theorem State.full_change_shown {s : State} {t : TagChange} {d other : Nat} (ht : s.tags = [t]) (h : t.shows d other s.ct = true) :
    s.full d other = t.full := by
  have hone : ([t].filter fun t => t.shows d other s.ct) = [t] := List.filter_eq_self.2 fun x hx => by rw [List.mem_singleton.1 hx, h]
  simp only [State.full, ht, hone, List.foldl_cons, List.foldl_nil, TagChange.later]

/-- Settles O54: the reset wipes tags and changes, the register's bits are the slots' tags, and a change shows one tick later. -/
theorem clusterResetEmptiesTags : Obligations.ClusterResetEmptiesTags := by
  intro s c hc
  refine ⟨fun slot hs => s.full_resetCluster hc hs, fun n hn j hj => s.bit_regValue_slotTags hc hn hj, fun h slot hs b => ?_⟩
  have before : ∀ d other, s.full d other = bit (s.rd (clReg d (0xC00 + 4 * (other / 32)))) (other % 32) := fun d other =>
    State.full_of_no_change (by simp [h])
  rw [State.setTag_alone c b h hs]
  refine ⟨fun d other => ?_, fun k hk => ⟨?_, fun d other hne => ?_⟩⟩
  · rw [before, State.full_change_hidden rfl]
    · rfl
    · rw [TagChange.shows_slot, decide_eq_false_iff_not]
      exact fun ⟨_, _, hle⟩ => Nat.not_succ_le_self s.ct hle
  · rw [State.full_change_shown rfl]
    exact (TagChange.shows_slot ..).trans (decide_eq_true ⟨rfl, rfl, hk.ge⟩)
  · rw [before, State.full_change_hidden rfl]
    · rfl
    · rw [TagChange.shows_slot, decide_eq_false_iff_not]
      exact fun ⟨hcd, hso, _⟩ => hne.elim (fun q => q hcd.symm) fun q => q hso.symm

end Sys2Proof.Machine
end

section
/-! SUPPORT. On-chip memory (R113, R117, R122, R126 to R133): write-backs, atomics and counters, tag commands, the Rinse, and accesses of one
cluster to another. -/

namespace Sys2Proof.Machine

/-! ## Error correction (R113) -/

section
variable {s : State} {c bank w : Nat} (h : s.spBack.find? (inBank c bank) = some w)
include h

theorem exec_correctionWriteBack_owed : exec (.correctionWriteBack c bank) s =
    .next (if (s.now.uses.any fun u => u.wr && some u.bank == bankOf (w * 8)) = true then s
      else { s with spBack := s.spBack.filter (· != w), mem := if s.mem.err (w * 8) = some true then s.mem else s.mem.heal w }) := by
  change execCorrectionWriteBack c bank s = _
  simp only [execCorrectionWriteBack, h]

theorem correctionWriteBack_corrects (hf : (s.now.uses.any fun u => u.wr && some u.bank == bankOf (w * 8)) = false) :
    completes (.correctionWriteBack c bank) s fun t =>
      t = { s with spBack := s.spBack.filter (· != w), mem := if s.mem.err (w * 8) = some true then s.mem else s.mem.heal w } := by
  refine ⟨_, exec_correctionWriteBack_owed h, ?_⟩
  rw [hf, if_neg Bool.false_ne_true]

theorem correctionWriteBack_waits (hb : (s.now.uses.any fun u => u.wr && some u.bank == bankOf (w * 8)) = true) :
    exec (.correctionWriteBack c bank) s = .next s := by
  rw [exec_correctionWriteBack_owed h, if_pos hb]

end

/-! ## Atomic operations and work counters (R128 to R130) -/

section
variable {s : State} {r : Requester} {op : AtomicOp} {a v e : Nat}

theorem atomicLen_of_ne_fadd (h : op ≠ .fadd) : atomicLen op = 8 := by
  cases op with
  | fadd => exact absurd rfl h
  | add | swap | cas | fetch => rfl

/-- The pool lies past LPDDR6. -/
theorem not_lpddr_of_pool (h : poolBase ≤ a) : ¬ a < lpddrTop := Nat.not_lt.2 (le_trans (by decide) h)

theorem exec_poolAtomic_pool (hlo : poolBase ≤ a) (hhi : a < poolBase + poolSize) :
    exec (.poolAtomic r op a v e) s = .next (s.atomicReq r op a v e) := by
  change execPoolAtomic r op a v e s = _
  simp only [execPoolAtomic, hlo, hhi, decide_true, Bool.and_self, if_true]

/-- An atomic request that the windows let through and that does not fail answers the word before it. -/
theorem State.atomicReq_done {old : Nat} {t : State} (hw : s.reqWindowOk r (127 * 2 ^ 41 + a) (atomicLen op) .atomic = true)
    (hq : s.reqAtomic r op a v e = ((old, none), t)) : s.atomicReq r op a v e = t.answer r .ok (leBytes (atomicLen op) old) := by
  simp only [State.atomicReq, hw, hq, Bool.not_true, Bool.false_eq_true, if_false, State.failTask_none, respOf]

/-- An address that is no work counter's is one of memory. -/
theorem State.reqAtomic_memory (hc : workCtr a = none) : s.reqAtomic r op a v e = s.memAtomic r op a v e := by
  cases op <;> simp only [State.reqAtomic, hc]

theorem State.reqAtomic_counter {w inc : Nat} (hc : workCtr a = some w) (hu : s.unitPresent w = true) (ha : a % 8 = 0) :
    s.reqAtomic r .fetch a inc 0 = ((s.rd64 w, none), s.wr64 w ((s.rd64 w + inc % 2 ^ 32) % 2 ^ 64)) := by
  simp only [State.reqAtomic, hc, hu, ha, beq_self_eq_true, Bool.and_self, if_true]

/-- An atomic operation on a word that can be read: the word before it, and the state after the new one is written. -/
theorem State.memAtomic_reads (hl : ¬ a < lpddrTop) (hm : s.mapped a (atomicLen op) = true) (ha : a % atomicLen op = 0)
    (hp : placeAtomic op (regionOf a) = true) (hk : s.rinseLocked a (atomicLen op) = false)
    (he : (s.memRead r a (atomicLen op)).1.err = none) : s.memAtomic r op a v e =
      ((leNat (s.memRead r a (atomicLen op)).1.bytes, none),
        (State.memWrite (if op = .fadd then (s.memRead r a (atomicLen op)).2.ndValue (s.memOwner a) 1 r else (s.memRead r a (atomicLen op)).2)
          r a (leBytes (atomicLen op) (atomicNew op (leNat (s.memRead r a (atomicLen op)).1.bytes) v e))).2) := by
  simp only [State.memAtomic, hl, hm, ha, hp, hk, he, false_and, and_false, Bool.not_true, bne_self_eq_false, Bool.or_self, Bool.false_eq_true,
    if_false]

end

section
variable (s : State) (r : Requester)

theorem poolAtomic_writes (op : AtomicOp) (a v e : Nat) (q : RdRes × State) (hlo : poolBase ≤ a) (hhi : a < poolBase + poolSize)
    (hw : s.reqWindowOk r (127 * 2 ^ 41 + a) (atomicLen op) .atomic = true) (hm : s.mapped a (atomicLen op) = true)
    (ha : a % atomicLen op = 0) (hp : placeAtomic op (regionOf a) = true) (hc : workCtr a = none)
    (hk : s.rinseLocked a (atomicLen op) = false) (hq : s.memRead r a (atomicLen op) = q) (he : q.1.err = none) :
    completes (.poolAtomic r op a v e) s fun t => ∃ u : State, u = (if op = .fadd then q.2.ndValue (s.memOwner a) 1 r else q.2) ∧
      t = (u.memWrite r a (leBytes (atomicLen op) (atomicNew op (leNat q.1.bytes) v e))).2.answer r .ok
        (leBytes (atomicLen op) (leNat q.1.bytes)) := by
  subst hq
  have hdone := State.atomicReq_done hw
    ((State.reqAtomic_memory hc).trans (State.memAtomic_reads (v := v) (e := e) (not_lpddr_of_pool hlo) hm ha hp hk he))
  exact ⟨_, (exec_poolAtomic_pool hlo hhi).trans (congrArg _ hdone), _, rfl, rfl⟩

theorem poolAtomic_clean (op : AtomicOp) (a v e : Nat) (hlo : poolBase ≤ a) (hhi : a < poolBase + poolSize)
    (hw : s.reqWindowOk r (127 * 2 ^ 41 + a) (atomicLen op) .atomic = true) (hm : s.mapped a (atomicLen op) = true)
    (ha : a % atomicLen op = 0) (hp : placeAtomic op (regionOf a) = true) (hc : workCtr a = none)
    (hk : s.rinseLocked a (atomicLen op) = false) (hbad : s.errWords a (atomicLen op) = []) (hf : op ≠ .fadd) (hx : r.ctx ≠ some 4)
    (ho : s.now.olds = []) (hu : ∀ u ∈ s.now.uses, u.req = r.key) :
    completes (.poolAtomic r op a v e) s fun t => t.mem.cells = (s.mem.write a (leBytes 8 (atomicNew op (s.ldn a 8) v e))).cells ∧
      (∀ b, b < a ∨ a + 8 ≤ b → t.mem.get b = s.mem.get b) ∧
      t.resp = some ⟨r, .ok, leBytes 8 (s.ldn a 8)⟩ ∧ { t with mem := s.mem, resp := s.resp, ports := s.ports } = s := by
  have hlen := atomicLen_of_ne_fadd hf
  rw [hlen] at hm ha hk hbad
  obtain ⟨P, bad, hmem⟩ := s.memAtomic_clean r op a v e hx hu ho hlen hf hm ha hp hk hbad (not_lpddr_of_pool hlo)
  have hdone := State.atomicReq_done hw ((State.reqAtomic_memory hc).trans hmem)
  rw [hlen] at hdone
  refine ⟨_, (exec_poolAtomic_pool hlo hhi).trans (congrArg _ hdone), Memory.write_bad _ s.mem bad a, fun b hb => ?_, rfl, rfl⟩
  exact (Memory.get_write_other _ _ a b (by rw [leBytes_length]; exact hb)).trans (s.mem.get_withBad bad b)

theorem workCounterFetch_adds (a w inc : Nat) (hw : s.reqWindowOk r (127 * 2 ^ 41 + a) 8 .atomic = true) (hc : workCtr a = some w)
    (hu : s.unitPresent w = true) (ha : a % 8 = 0) : exec (.workCounterFetch r a inc) s =
      .next ((s.wr64 w ((s.rd64 w + inc % 2 ^ 32) % 2 ^ 64)).answer r .ok (leBytes 8 (s.rd64 w))) :=
  congrArg Host.Outcome.next (State.atomicReq_done (op := .fetch) hw (State.reqAtomic_counter hc hu ha))

/-! ## Tag commands (R117) -/

theorem State.tagCmd_allowed {c n : Nat} (b : Bool) (hw : s.mayWrite .stewardSeq r c = true) (hc : c < s.nClusters) (hn : n < 8192) :
    (if s.tagCmdOk r c n then s.tagCmd c n b else s) = { s.settleTags with tags := s.settleTags.tags ++ [⟨s.ct + 1, c, n, 1, 0, b, true⟩] } := by
  have hok : s.tagCmdOk r c n = true := by simp only [State.tagCmdOk, hw, hc, hn, decide_true, Bool.and_self]
  rw [if_pos hok, State.tagCmd, State.changeTags_slot s rfl hn]

theorem setFull_notes (c n : Nat) (u : State) (hw : s.mayWrite .stewardSeq r c = true) (hc : c < s.nClusters) (hn : n < 8192)
    (hu : u = s.settleTags) : exec (.setFull r c n) s = .next { u with tags := u.tags ++ [⟨s.ct + 1, c, n, 1, 0, true, true⟩] } := by
  subst hu
  exact congrArg Host.Outcome.next (s.tagCmd_allowed r true hw hc hn)

theorem setEmpty_notes (c n : Nat) (u : State) (hw : s.mayWrite .stewardSeq r c = true) (hc : c < s.nClusters) (hn : n < 8192)
    (hu : u = s.settleTags) : exec (.setEmpty r c n) s = .next { u with tags := u.tags ++ [⟨s.ct + 1, c, n, 1, 0, false, true⟩] } := by
  subst hu
  exact congrArg Host.Outcome.next (s.tagCmd_allowed r false hw hc hn)

end

/-! ## The Rinse (R131, R132) -/

section
variable {s : State} {c x : Nat} {k : Rinse} (h : (s.rinses.find? fun r => r.cluster == c && r.ctx == x && !r.started) = some k)
include h

theorem exec_rinseScrub_owed : exec (.rinseScrub c x) s = .next (if (k.swapped || s.ctxQuiet c x) = true then s.rinseStart k else s) := by
  change execRinseScrub c x s = _
  simp only [execRinseScrub, h]

theorem rinseScrub_starts (hq : k.swapped = true ∨ s.ctxQuiet c x = true) : exec (.rinseScrub c x) s = .next (s.rinseStart k) := by
  rw [exec_rinseScrub_owed h, if_pos ((Bool.or_eq_true ..).mpr hq)]

theorem rinseScrub_waits (hs : k.swapped = false) (hq : s.ctxQuiet c x = false) : exec (.rinseScrub c x) s = .next s := by
  rw [exec_rinseScrub_owed h, hs, hq, Bool.or_self, if_neg Bool.false_ne_true]

end

/-- A region whose ticks are over leaves its job's windows, and the last one ends the job. -/
theorem exec_rinseRegionDone_due {s u : State} {c x w : Nat} {k k1 : Rinse} {v : Nat × Nat × Nat}
    (hk : (s.rinses.find? fun r => r.cluster == c && r.ctx == x && r.started && r.windows.any fun v => v.1 == w) = some k)
    (hv : (k.windows.find? fun v => v.1 == w) = some v) (hd : k.startAt + rinseTicks k w v.2.1 v.2.2 ≤ s.ct)
    (hk1 : k1 = { k with windows := k.windows.filter fun v => v.1 != w })
    (hu : u = { s with rinses := s.rinses.map fun r => if r = k then k1 else r }) :
    exec (.rinseRegionDone c x w) s = .next (if k1.windows.isEmpty = true then u.rinseEnd k1 else u) := by
  subst hk1 hu
  change execRinseRegionDone c x w s = _
  simp only [execRinseRegionDone, hk, hv, hd, if_true]

theorem rinseRegionDone_unlocks (s : State) (c x w : Nat) (k : Rinse) (v : Nat × Nat × Nat)
    (hk : (s.rinses.find? fun r => r.cluster == c && r.ctx == x && r.started && r.windows.any fun v => v.1 == w) = some k)
    (hv : (k.windows.find? fun v => v.1 == w) = some v) (hd : k.startAt + rinseTicks k w v.2.1 v.2.2 ≤ s.ct) :
    completes (.rinseRegionDone c x w) s fun t => ∃ k1 u, k1 = { k with windows := k.windows.filter fun v => v.1 != w } ∧
      u = { s with rinses := s.rinses.map fun r => if r = k then k1 else r } ∧
      (k1.windows.isEmpty = true → t = u.rinseEnd k1) ∧ (k1.windows.isEmpty = false → t = u) :=
  ⟨_, exec_rinseRegionDone_due hk hv hd rfl rfl, _, _, rfl, rfl, fun hlast => if_pos hlast, fun hmore => if_neg (ne_true_of_eq_false hmore)⟩

/-! ## Accesses of a cluster to another one, or to another chip (R122, R123, R126) -/

section
variable {s : State} {a : Access} {x : Nat} (hc : a.req.cluster.isSome = true)
include hc

theorem remoteAccess_violates (hw : s.reqWindowOk a.req a.addr (accessLen a) (accessRight a) = false) :
    exec (.remoteAccess a) s = .next (s.reqViolation a.req a.addr) := by
  change execRemoteAccess a s = _
  simp only [execRemoteAccess, Option.isNone_eq_false_iff.2 hc, hw, Bool.not_false, Bool.false_eq_true, if_false, if_true]

variable (hw : s.reqWindowOk a.req a.addr (accessLen a) (accessRight a) = true)
include hw

theorem remoteAccess_sends (hl : s.localOf a.addr = none) : exec (.remoteAccess a) s = .next (s.sendAccess a) := by
  change execRemoteAccess a s = _
  simp only [execRemoteAccess, Option.isNone_eq_false_iff.2 hc, hw, hl, Bool.not_true, Bool.false_eq_true, if_false]

variable (hl : s.localOf a.addr = some x) (hlo : clusterBase ≤ x) (hhi : x < clusterBase + 0x40000000)
include hl hlo hhi

theorem exec_remoteAccess_cluster : exec (.remoteAccess a) s = .next (s.serveAccess x a) := by
  change execRemoteAccess a s = _
  simp only [execRemoteAccess, Option.isNone_eq_false_iff.2 hc, hw, hl, hlo, hhi, Bool.not_true, Bool.false_eq_true, if_false, and_self, if_true]

theorem remoteAccess_serves (hr : s.accessReady x a = true) : completes (.remoteAccess a) s fun t => ∃ q, q = s.access x a ∧
    t = (q.2.failTask a.req q.1.2).answer a.req (respOf a.req q.1.2) q.1.1 :=
  ⟨_, exec_remoteAccess_cluster hc hw hl hlo hhi, _, rfl, if_pos hr⟩

theorem remoteAccess_waits (hr : s.accessReady x a = false) : exec (.remoteAccess a) s = .next s := by
  rw [exec_remoteAccess_cluster hc hw hl hlo hhi, State.serveAccess, hr, if_neg Bool.false_ne_true]

end

/-- Settles O7: each command where its condition holds, then where it waits or is refused. -/
theorem onChipMemoryCommands : Obligations.OnChipMemoryCommands :=
  ⟨fun _ _ _ _ => correctionWriteBack_corrects, fun _ _ _ _ => correctionWriteBack_waits, poolAtomic_writes, poolAtomic_clean,
    workCounterFetch_adds, setFull_notes, setEmpty_notes, fun _ _ _ _ => rinseScrub_starts, fun _ _ _ _ => rinseScrub_waits,
    rinseRegionDone_unlocks, fun _ _ _ => remoteAccess_serves, fun _ _ _ => remoteAccess_waits, fun _ _ => remoteAccess_sends,
    fun _ _ => remoteAccess_violates⟩

end Sys2Proof.Machine
end

section
/-! SUPPORT. Translation (R246 to R259): walks by what they find, fences from issue to retirement, window words, and the zero-fill. -/

namespace Sys2Proof.Machine

/-! ## Walks (R246 to R250, R255) -/

/-- A walk that found an address has nothing to report. -/
theorem State.walkReport_ok (s : State) (r : Requester) (c x va : Nat) (right : Right) (n : Option Snap) (ga : Nat) :
    s.walkReport r c x va right n (.ok ga) = s := by
  cases r <;> rfl

section
variable {s : State} {r : Requester} {c x va : Nat} {right : Right} {n : Option Snap} {k : Nat × Nat} {w : (Leaf ⊕ XRes) × State} {u : State}

theorem State.walk_leaf {lf : Leaf} {e : Xl} (hk : k = (n.map fun q => (2, q.root)).getD (1, s.rootOf c x))
    (hw : w = s.walkFrom r va 3 k.1 k.2) (hu : u = State.walked w.2) (hl : w.1 = .inl lf)
    (he : e = leafXl lf ((s.ownerOf c).getD 7) (s.asidOf c x) va n false) : s.walk r c x va right n = u.install c e va right := by
  subst hk hw hu he
  simp only [State.walk, hl]

theorem State.walk_none {q : XRes} (hk : k = (n.map fun q => (2, q.root)).getD (1, s.rootOf c x)) (hw : w = s.walkFrom r va 3 k.1 k.2)
    (hu : u = State.walked w.2) (hl : w.1 = .inr q) :
    s.walk r c x va right n = (q, if q = .invalid then u.pteInvalid r c x va else u) := by
  subst hk hw hu
  simp only [State.walk, hl, beq_iff_eq]

theorem State.install_granted {e : Xl} {ga : Nat} (ha : e.answer va right = .ok ga) :
    u.install c e va right = (.ok ga, if u.fenced e then u else ({ u with tu := putStore u.tu e } : State).putMicro c e) := by
  simp only [State.install, ha]

theorem State.install_denied {e : Xl} {q : XRes} (ha : e.answer va right = q) (hq : ∀ ga, q ≠ .ok ga) : u.install c e va right = (q, u) := by
  cases q with
  | ok ga => exact absurd rfl (hq ga)
  | fault | invalid | ue | timedMiss => simp only [State.install, ha]

theorem exec_pageWalk_live (hl : s.ctxLive c x = true) (hx : x < 4) (hv : va < 2 ^ 47) (hn : n = s.snapAt r c va) :
    exec (.pageWalk r c x va right) s =
      .next ((s.walk r c x va right n).2.walkReport r c x va right n (s.walk r c x va right n).1) := by
  subst hn
  exact congrArg Host.Outcome.next (if_pos (by simp only [hl, hx, hv, decide_true, Bool.and_self]))

end

section
variable (s : State) (r : Requester) (c x va : Nat) (right : Right) (n : Option Snap) (k : Nat × Nat) (w : (Leaf ⊕ XRes) × State) (u : State)

theorem pageWalk_installs (lf : Leaf) (e : Xl) (ga : Nat) (hl : s.ctxLive c x = true) (hx : x < 4) (hv : va < 2 ^ 47)
    (hn : n = s.snapAt r c va) (hk : k = (n.map fun q => (2, q.root)).getD (1, s.rootOf c x)) (hw : w = s.walkFrom r va 3 k.1 k.2)
    (hu : u = State.walked w.2) (hf : w.1 = .inl lf) (he : e = leafXl lf ((s.ownerOf c).getD 7) (s.asidOf c x) va n false)
    (ha : e.answer va right = .ok ga) : exec (.pageWalk r c x va right) s =
      .next (if u.fenced e then u else ({ u with tu := putStore u.tu e } : State).putMicro c e) := by
  rw [exec_pageWalk_live hl hx hv hn, State.walk_leaf hk hw hu hf he, State.install_granted ha, State.walkReport_ok]

theorem pageWalk_denied (lf : Leaf) (e : Xl) (q : XRes) (hl : s.ctxLive c x = true) (hx : x < 4) (hv : va < 2 ^ 47)
    (hn : n = s.snapAt r c va) (hk : k = (n.map fun q => (2, q.root)).getD (1, s.rootOf c x)) (hw : w = s.walkFrom r va 3 k.1 k.2)
    (hu : u = State.walked w.2) (hf : w.1 = .inl lf) (he : e = leafXl lf ((s.ownerOf c).getD 7) (s.asidOf c x) va n false)
    (ha : e.answer va right = q) (hq : ∀ ga, q ≠ .ok ga) :
    exec (.pageWalk r c x va right) s = .next (u.walkReport r c x va right n q) := by
  rw [exec_pageWalk_live hl hx hv hn, State.walk_leaf hk hw hu hf he, State.install_denied ha hq]

theorem pageWalk_no_leaf (q : XRes) (hl : s.ctxLive c x = true) (hx : x < 4) (hv : va < 2 ^ 47) (hn : n = s.snapAt r c va)
    (hk : k = (n.map fun q => (2, q.root)).getD (1, s.rootOf c x)) (hw : w = s.walkFrom r va 3 k.1 k.2) (hu : u = State.walked w.2)
    (hf : w.1 = .inr q) : exec (.pageWalk r c x va right) s =
      .next (State.walkReport (if q = .invalid then u.pteInvalid r c x va else u) r c x va right n q) := by
  rw [exec_pageWalk_live hl hx hv hn, State.walk_none hk hw hu hf]

end

/-! ## Fences (R257, R258) -/

section
variable (s : State)

/-- A fence for which there is room drops what it hits, counts itself and waits behind the others. -/
theorem State.fenceIssue_room {cmd : Nat} {mb : Option (Nat × Nat)} (h : s.tu.fences.length < 16) : s.fenceIssue cmd mb =
    ({ s with tu := { s.tu with
        store := s.tu.store.filter fun e => !fenceHits cmd e,
        micro := (s.tu.micro.map fun (e : Nat × List Xl) => (e.1, e.2.filter fun e => !fenceHits cmd e)).filter fun e => !e.2.isEmpty,
        fences := s.tu.fences ++ [{ cmd := cmd, issue := s.ct, mb := mb, users := s.fenceUsers cmd }] } } : State).countWrap (tuReg 0x18) 1 :=
  if_neg (Nat.not_le.2 h)

theorem fenceIssue_issues (hi cmd : Nat) (hcmd : cmd = hi % 2 ^ 32 * 2 ^ 32 + s.rd (tuReg 0x10)) (h : s.tu.fences.length < 16) :
    completes (.fenceIssue .steward hi) s fun t => t.tu.store = (s.tu.store.filter fun e => !fenceHits cmd e) ∧
      t.tu.micro = ((s.tu.micro.map fun (e : Nat × List Xl) => (e.1, e.2.filter fun e => !fenceHits cmd e)).filter fun e => !e.2.isEmpty) ∧
      t.tu.fences = s.tu.fences ++ [{ cmd := cmd, issue := s.ct, mb := none, users := s.fenceUsers cmd }] ∧
      t.regs = (s.countWrap (tuReg 0x18) 1).regs ∧ { t with regs := s.regs, tu := s.tu } = s := by
  subst hcmd
  exact ⟨_, congrArg Host.Outcome.next (s.fenceIssue_room h), rfl, rfl, rfl, rfl, rfl⟩

theorem fenceIssue_busy (hi : Nat) (h : 16 ≤ s.tu.fences.length) :
    exec (.fenceIssue .steward hi) s = .next (s.orReg (tuReg 0) (2 ^ 9)) := congrArg Host.Outcome.next (if_pos h)

theorem fence_waits (ring idx : Nat) (h : 16 ≤ s.tu.fences.length) : exec (.fence ring idx) s = .next s :=
  congrArg Host.Outcome.next (if_pos h)

/-- A FENCE that may start issues its own partition's fence; another partition's is INVALID. -/
theorem exec_fence_taken {s : State} {ring idx : Nat} {k : Cmd} (hk : s.mbCmd ring idx 0x0A = some k) (h : s.tu.fences.length < 16) :
    exec (.fence ring idx) s = .next (if k.part = bits (k.arg 8 8) 3 2 then (s.begin_ ring idx).fenceIssue (k.arg 8 8) (some (ring, idx))
      else (s.begin_ ring idx).complete ring idx stInvalid 0 0) :=
  congrArg Host.Outcome.next ((if_neg (Nat.not_le.2 h)).trans (State.mbox_taken _ hk))

theorem fence_issues (ring idx : Nat) (k : Cmd) (hk : s.mbCmd ring idx 0x0A = some k) (h : s.tu.fences.length < 16)
    (hp : k.part = bits (k.arg 8 8) 3 2) :
    exec (.fence ring idx) s = .next ((s.begin_ ring idx).fenceIssue (k.arg 8 8) (some (ring, idx))) := by
  rw [exec_fence_taken hk h, if_pos hp]

theorem fence_foreign (ring idx : Nat) (k : Cmd) (hk : s.mbCmd ring idx 0x0A = some k) (h : s.tu.fences.length < 16)
    (hp : k.part ≠ bits (k.arg 8 8) 3 2) : exec (.fence ring idx) s = .next ((s.begin_ ring idx).complete ring idx stInvalid 0 0) := by
  rw [exec_fence_taken hk h, if_neg hp]

theorem exec_fenceRetire_done {s : State} {f : Fence} {l : List Fence} (hf : s.tu.fences = f :: l) (hd : s.fenceDone f = true) :
    exec .fenceRetire s = .next (s.fenceRetire f) := by
  change execFenceRetire s = _
  simp only [execFenceRetire, hf, hd, if_true]

theorem fenceRetire_retires (f : Fence) (l : List Fence) (hf : s.tu.fences = f :: l) (hd : s.fenceDone f = true) :
    ∃ u, u = ({ s with tu := { s.tu with fences := l } } : State).countWrap (tuReg 0x1C) 1 ∧
      (f.mb = none → exec .fenceRetire s = .next u) ∧
      (∀ r i, f.mb = some (r, i) → exec .fenceRetire s = .next (u.complete r i stOk 0 0)) := by
  have hrest : s.tu.fences.drop 1 = l := by rw [hf, List.drop_succ_cons, List.drop_zero]
  refine ⟨_, rfl, fun hm => ?_, fun r i hm => ?_⟩
  · rw [exec_fenceRetire_done hf hd]
    simp only [State.fenceRetire, hrest, hm]
  · rw [exec_fenceRetire_done hf hd]
    simp only [State.fenceRetire, hrest, hm]

/-! ## Window words (R121, R259) -/

theorem exec_bbWindowWrite_allowed {s : State} {r : Requester} {c x w word : Nat} (v : Nat) (hm : s.mayWrite .stewardSeq r c = true)
    (hc : c < s.nClusters) (hx : x < 5) (hw : w < 8) (hword : word < 4) : exec (.bbWindowWrite r c x w word v) s = .next (s.bbWrite c x w word v) :=
  congrArg Host.Outcome.next (if_pos (by simp only [hm, hc, hx, hw, hword, decide_true, Bool.and_self]))

theorem bbWindowWrite_masked (r : Requester) (c x w word v : Nat) (hm : s.mayWrite .stewardSeq r c = true) (hc : c < s.nClusters) (hx : x < 5)
    (hw : w < 8) (h0 : 0 < word) (h4 : word < 4) (hs : s.regsWf = true) :
    completes (.bbWindowWrite r c x w word v) s fun t => t.rd (bbReg c x w word) = bbStored word v % 2 ^ 32 ∧
      onlyRegs s t [bbReg c x w word] ∧ t.mem = s.mem ∧ t.tu = s.tu := by
  have hwr : s.bbWrite c x w word v = s.wr (bbReg c x w word) (bbStored word v) := if_neg h0.ne'
  refine ⟨_, (exec_bbWindowWrite_allowed v hm hc hx hw h4).trans (congrArg _ hwr), State.rd_wr_same s _ _ hs, onlyRegs_wr s _ _, rfl, rfl⟩

theorem bbWindowWrite_word0 (r : Requester) (c x w v : Nat) (hm : s.mayWrite .stewardSeq r c = true) (hc : c < s.nClusters) (hx : x < 5)
    (hw : w < 8) : exec (.bbWindowWrite r c x w 0 v) s =
      .next (((s.wr (bbReg c x w 0) (bbStored 0 v)).scrubDrop c x w).scrubReserve c x w) :=
  exec_bbWindowWrite_allowed v hm hc hx hw (by decide)

/-! ## The zero-fill (R259) -/

theorem lpddr6ZeroFill_fills (c x : Nat) (l : List ScrubLock)
    (hl : l = s.tu.scrub.filter fun e => e.locked && e.cluster == c && e.ctx == x) (hne : l ≠ [])
    (hr : (s.rinses.any fun k => k.cluster == c && k.ctx == x && !k.swapped && !k.started) = false) :
    completes (.lpddr6ZeroFill c x) s fun t => ∃ u, u = l.foldl (fun s e => State.zeroWindow s .steward e) s ∧
      t = { u with tu := { u.tu with scrub := u.tu.scrub.filter fun e => !(e.locked && e.cluster == c && e.ctx == x) } } := by
  subst hl
  refine ⟨_, congrArg Host.Outcome.next (if_pos ?_), _, rfl, rfl⟩
  rw [hr, List.isEmpty_eq_false_iff.2 hne]
  rfl

theorem State.zeroWindow_pages (r : Requester) (e : ScrubLock) : ∃ q, q = s.leaves r 3 1 e.root 0 ∧
    s.zeroWindow r e = { q.2 with mem := (q.1.1.filterMap fun l => s.zPage e.lo e.hi l.2).foldl (fun m p => m.zero p.1 p.2) q.2.mem } :=
  ⟨_, rfl, rfl⟩

end

/-- Settles O15: walks by what they find, fences by the room for them, window words, and the zero-fill of locked windows. -/
theorem translationCommands : Obligations.TranslationCommands :=
  ⟨pageWalk_installs, pageWalk_denied, pageWalk_no_leaf, fenceIssue_issues, fenceIssue_busy, fence_waits, fence_issues, fence_foreign,
    fenceRetire_retires, bbWindowWrite_masked, bbWindowWrite_word0, lpddr6ZeroFill_fills, State.zeroWindow_pages⟩

end Sys2Proof.Machine
end

section
/-! SUPPORT. Movers (R137 to R155): descriptor words, pushes, what the Steward does to a channel, pieces from issue to delivery, retirement and
tokens. -/

namespace Sys2Proof.Machine

variable (s : State)

/-! ## Descriptors and channels, as their owner writes them (R138, R142, R152, R155) -/

section
variable {s} {c n e : Nat}

/-- A channel record with an entry queued is not the idle one, so it reads as set. -/
theorem State.chan_setChan_queued {v : MovChan} (h : v.queue ≠ []) : (s.setChan c n v).chan c n = v :=
  s.chan_setChan c n v fun hidle => h (congrArg MovChan.queue hidle)

theorem State.movPush_rejected (h : s.entryQueued c e = true ∨ 4 < s.chanCtx c n) :
    s.movPush c n e = s.orReg (movReg c (0x108 + 0x20 * n)) (2 ^ 8) :=
  if_pos (by rwa [Bool.or_eq_true, decide_eq_true_eq])

variable (hq : s.entryQueued c e = false) (hx : s.chanCtx c n ≤ 4)
include hq hx

/-- Past the rejection a push depends on the descriptor and its tagged sides alone. -/
theorem State.movPush_free : s.movPush c n e =
    if (!descOk (s.descBytes c e) (s.chanCtx c n == 4) || !s.tagSidesOk c n (s.chanCtx c n) (s.desc c e)) = true then s.descInvalid c n e 0 0
    else s.setChan c n { s.chan c n with queue := (s.chan c n).queue ++ [e], state := if (s.chan c n).state = 0 then 1 else (s.chan c n).state } :=
  if_neg (by rw [hq, Bool.false_or, decide_eq_true_eq]; exact hx.not_gt)

theorem State.movPush_invalid
    (h : descOk (s.descBytes c e) (s.chanCtx c n == 4) = false ∨ s.tagSidesOk c n (s.chanCtx c n) (s.desc c e) = false) :
    s.movPush c n e = s.descInvalid c n e 0 0 := by
  rw [State.movPush_free hq hx, if_pos]
  rwa [Bool.or_eq_true, Bool.not_eq_true', Bool.not_eq_true']

theorem State.movPush_valid (hd : descOk (s.descBytes c e) (s.chanCtx c n == 4) = true)
    (ht : s.tagSidesOk c n (s.chanCtx c n) (s.desc c e) = true) : s.movPush c n e = s.setChan c n
      { s.chan c n with queue := (s.chan c n).queue ++ [e], state := if (s.chan c n).state = 0 then 1 else (s.chan c n).state } := by
  rw [State.movPush_free hq hx, hd, ht, if_neg (by decide)]

end

theorem movDescWrite_queued (r : Requester) (c e word v : Nat) (hq : s.entryQueued c e = true) :
    exec (.movDescWrite r c e word v) s = .next s := by
  refine congrArg Host.Outcome.next (if_neg ?_)
  simp only [hq, Bool.not_true, Bool.and_false, Bool.false_eq_true, not_false_eq_true]

theorem movCtxBind_busy (r : Requester) (c n x e : Nat) (l : List Nat) (hq : (s.chan c n).queue = e :: l) :
    exec (.movCtxBind r c n x) s = .next s := by
  refine congrArg Host.Outcome.next (if_neg ?_)
  simp only [hq, List.isEmpty_cons, Bool.and_false, Bool.false_eq_true, not_false_eq_true]

section
variable {s} {u : State} {r : Requester} {c n e word value x : Nat} {v : MovChan} (hm : s.mayWrite .stewardSeq r c = true) (hc : c < s.nClusters)
include hm hc

theorem State.movOk_of_lt (hn : n < 16) : s.movOk r c n = true := by
  simp only [State.movOk, hm, hc, hn, decide_true, Bool.and_self]

theorem movDescWrite_writes (he : e < 32) (hword : word < 16) (hq : s.entryQueued c e = false) (hs : s.regsWf = true) :
    completes (.movDescWrite r c e word value) s fun t => t.rd (descReg c e word) = value % 2 ^ 32 ∧ onlyRegs s t [descReg c e word] := by
  refine ⟨_, congrArg Host.Outcome.next (if_pos ?_), State.rd_wr_same s _ _ hs, onlyRegs_wr s _ _⟩
  simp only [State.movOk_of_lt hm hc (show 0 < 16 by decide), he, hword, hq, decide_true, Bool.not_false, Bool.and_self]

variable (hn : n < 16)
include hn

theorem exec_movPush_allowed (he : e < 32) : exec (.movPush r c n e) s = .next (s.movPush c n e) := by
  refine congrArg Host.Outcome.next ((if_pos (State.movOk_of_lt hm hc hn)).trans ?_)
  rw [Nat.mod_eq_of_lt he]

theorem movPush_queues (he : e < 32) (hq : s.entryQueued c e = false) (hx : s.chanCtx c n ≤ 4)
    (hd : descOk (s.descBytes c e) (s.chanCtx c n == 4) = true) (ht : s.tagSidesOk c n (s.chanCtx c n) (s.desc c e) = true) :
    completes (.movPush r c n e) s fun t => (t.chan c n).queue = (s.chan c n).queue ++ [e] ∧
      ((t.chan c n).state = if (s.chan c n).state = 0 then 1 else (s.chan c n).state) ∧ { t with movs := s.movs } = s := by
  refine ⟨_, (exec_movPush_allowed hm hc hn he).trans (congrArg _ (State.movPush_valid hq hx hd ht)), ?_, ?_, rfl⟩ <;>
    rw [State.chan_setChan_queued (List.append_ne_nil_of_right_ne_nil _ (List.cons_ne_nil e []))]

theorem movPush_rejected (he : e < 32) (h : s.entryQueued c e = true ∨ 4 < s.chanCtx c n) :
    exec (.movPush r c n e) s = .next (s.orReg (movReg c (0x108 + 0x20 * n)) (2 ^ 8)) :=
  (exec_movPush_allowed hm hc hn he).trans (congrArg _ (State.movPush_rejected h))

theorem movPush_invalid (he : e < 32) (hq : s.entryQueued c e = false) (hx : s.chanCtx c n ≤ 4)
    (h : descOk (s.descBytes c e) (s.chanCtx c n == 4) = false ∨ s.tagSidesOk c n (s.chanCtx c n) (s.desc c e) = false) :
    exec (.movPush r c n e) s = .next (s.descInvalid c n e 0 0) :=
  (exec_movPush_allowed hm hc hn he).trans (congrArg _ (State.movPush_invalid hq hx h))

theorem movAbort_stops (hv : v = s.chan c n) : completes (.movAbort r c n) s fun t =>
    (v.inflight = [] → t = s.setChan c n { MovChan.idle with tokens := v.tokens, cause := v.cause, refillAt := v.refillAt }) ∧
    (v.inflight ≠ [] → t = s.setChan c n { v with state := 7, pos := none, admitted := [], srcMask := [] }) := by
  subst hv
  refine ⟨_, congrArg Host.Outcome.next (if_pos (State.movOk_of_lt hm hc hn)), fun hnone => ?_, fun hsome => ?_⟩
  · exact if_pos (List.isEmpty_iff.2 hnone)
  · exact if_neg fun hnone => hsome (List.isEmpty_iff.1 hnone)

theorem exec_movResume_allowed : exec (.movResume r c n) s = .next (s.movResume c n) :=
  congrArg Host.Outcome.next (if_pos (State.movOk_of_lt hm hc hn))

theorem movResume_restarts (hv : v = s.chan c n) (h4 : v.state = 4)
    (hu : u = s.setChan c n { v with state := if v.queue.isEmpty then 0 else 1 }) :
    completes (.movResume r c n) s fun t =>
      (s.ctxState c (s.chanCtx c n) = 3 ∧ (u.chansOf c (s.chanCtx c n)).any (fun m => (u.chan c m).state == 4) = false ∧
        ((s.att c).ctx == some (s.chanCtx c n) && s.fld (attReg c 0) 2 0 == 5) = false → t = u.setCtxState c (s.chanCtx c n) 1 0) ∧
      (s.ctxState c (s.chanCtx c n) ≠ 3 ∨ (u.chansOf c (s.chanCtx c n)).any (fun m => (u.chan c m).state == 4) = true ∨
        ((s.att c).ctx == some (s.chanCtx c n) && s.fld (attReg c 0) 2 0 == 5) = true → t = u) := by
  subst hv hu
  refine ⟨_, (exec_movResume_allowed hm hc hn).trans (congrArg _ (if_pos h4)), fun ⟨h3, hchans, hatt⟩ => ?_, fun hstays => ?_⟩
  · exact if_pos ⟨h3, Bool.or_eq_false_iff.2 ⟨hchans, hatt⟩⟩
  · refine if_neg fun ⟨h3, hnone⟩ => ?_
    obtain ⟨hchans, hatt⟩ := Bool.or_eq_false_iff.1 hnone
    rcases hstays with hother | hchan | hseq
    · exact hother h3
    · exact Bool.false_ne_true (hchans.symm.trans hchan)
    · exact Bool.false_ne_true (hatt.symm.trans hseq)

theorem movResume_marks (h4 : (s.chan c n).state ≠ 4) :
    exec (.movResume r c n) s = .next (s.resumeLater c fun v => v.chans.any fun k => k.n == n && k.state == 4) :=
  (exec_movResume_allowed hm hc hn).trans (congrArg _ (if_neg h4))

theorem movCtxBind_binds (hq : (s.chan c n).queue = []) : completes (.movCtxBind r c n x) s fun t =>
    t = s.setFld (movReg c (0x100 + 0x20 * n)) 2 0 x ∧ onlyRegs s t [movReg c (0x100 + 0x20 * n)] := by
  refine ⟨_, congrArg Host.Outcome.next (if_pos ?_), rfl, onlyRegs_setFld s _ _ _ _⟩
  rw [State.movOk_of_lt hm hc hn, hq]
  rfl

end

/-! ## Issue (R146, R147, R149) -/

section
variable {s} {c n : Nat} {net : Bool} {u : State}

theorem moverPieceIssue_none (ht : s.tryPiece c n = (none, u)) : exec (.moverPieceIssue c n) s = .next u := by
  change execMoverPieceIssue c n s = _
  simp only [execMoverPieceIssue, ht]

variable (ht : s.tryPiece c n = (some net, u)) (hp : s.piecesNow c (·.1 == n) < 2)
include ht hp

/-- A channel that can issue and has issued fewer than two pieces in the tick goes by the arbitration alone. -/
theorem exec_moverPieceIssue_ready :
    exec (.moverPieceIssue c n) s = .next (if s.servesChan c n net = true then u.pieceNoted c n net else s.pieceLost c n) := by
  change execMoverPieceIssue c n s = _
  simp only [execMoverPieceIssue, ht, if_neg hp.not_ge]

theorem moverPieceIssue_served (hs : s.servesChan c n net = true) : exec (.moverPieceIssue c n) s = .next (u.pieceNoted c n net) := by
  rw [exec_moverPieceIssue_ready ht hp, if_pos hs]

theorem moverPieceIssue_loses (hs : s.servesChan c n net = false) : exec (.moverPieceIssue c n) s = .next (s.pieceLost c n) := by
  rw [exec_moverPieceIssue_ready ht hp, hs, if_neg Bool.false_ne_true]

end

/-! ## Delivery and release (R144, R149, R155) -/

section
variable {s} {c n : Nat} {staged : Bool} {q : Piece} {l : List Piece} (h : (s.chan c n).inflight = q :: l)
include h

theorem exec_pieceDelivery_front : exec (.pieceDelivery c n) s =
    .next (if (q.net && s.chanCtx c n == 4 && (s.chan c n).state != 7) = true then s else s.deliverPiece c n q) := by
  change execPieceDelivery c n s = _
  simp only [execPieceDelivery, h]

theorem pieceDelivery_delivers (hd : q.net = false ∨ s.chanCtx c n ≠ 4 ∨ (s.chan c n).state = 7) :
    exec (.pieceDelivery c n) s = .next (s.deliverPiece c n q) := by
  rw [exec_pieceDelivery_front h, if_neg]
  simp only [Bool.and_eq_true, beq_iff_eq, bne_iff_ne]
  rintro ⟨⟨hnet, h4⟩, h7⟩
  rcases hd with hlocal | helastic | haborted
  · exact Bool.false_ne_true (hlocal.symm.trans hnet)
  · exact helastic h4
  · exact h7 haborted

theorem timedPieceRelease_waits (hd : s.ct < q.issue + (s.desc c q.entry).release) :
    exec (.timedPieceRelease c n staged) s = .next s := by
  change execTimedPieceRelease c n staged s = _
  simp only [execTimedPieceRelease, h, decide_eq_false hd.not_ge, Bool.and_false, Bool.false_eq_true, if_false]

variable (hnet : q.net = true) (h4 : s.chanCtx c n = 4)
include hnet h4

theorem pieceDelivery_leaves_timed (h7 : (s.chan c n).state ≠ 7) : exec (.pieceDelivery c n) s = .next s := by
  rw [exec_pieceDelivery_front h, if_pos]
  simp only [hnet, h4, bne_iff_ne.2 h7, beq_self_eq_true, Bool.and_self]

/-- At its release a timed network piece is delivered, or noted as late once. -/
theorem exec_timedPieceRelease_due (hd : q.issue + (s.desc c q.entry).release ≤ s.ct) :
    exec (.timedPieceRelease c n staged) s = .next (
      if (staged && q.waits.isEmpty) = true then s.deliverPiece c n q
      else if q.late = true then s
      else (s.setChan c n { s.chan c n with inflight := { q with late := true } :: l }).lateData c n
        (s.ct - (q.issue + (s.desc c q.entry).release))) := by
  change execTimedPieceRelease c n staged s = _
  simp only [execTimedPieceRelease, h, hnet, h4, hd, beq_self_eq_true, decide_true, Bool.and_self, if_true]

theorem timedPieceRelease_delivers (hd : q.issue + (s.desc c q.entry).release ≤ s.ct) (hw : q.waits = []) :
    exec (.timedPieceRelease c n true) s = .next (s.deliverPiece c n q) := by
  rw [exec_timedPieceRelease_due h hnet h4 hd, if_pos (by rw [hw]; rfl)]

theorem timedPieceRelease_late (hd : q.issue + (s.desc c q.entry).release ≤ s.ct) (hl : q.late = false) :
    exec (.timedPieceRelease c n false) s =
      .next ((s.setChan c n { s.chan c n with inflight := { q with late := true } :: l }).lateData c n
        (s.ct - (q.issue + (s.desc c q.entry).release))) := by
  rw [exec_timedPieceRelease_due h hnet h4 hd, Bool.false_and, if_neg Bool.false_ne_true, hl, if_neg Bool.false_ne_true]

end

/-! ## Retirement and tokens (R148, R151) -/

theorem descriptorRetire_retires (c n e : Nat) (l p : List Nat) (hq : (s.chan c n).queue = e :: l) (hp : (s.chan c n).pos = some p)
    (hi : (s.chan c n).inflight = []) (h7 : (s.chan c n).state ≠ 7) (ho : (s.desc c e).over p = true) :
    exec (.descriptorRetire c n) s = .next (s.retire c n e) := by
  change execDescriptorRetire c n s = _
  simp only [execDescriptorRetire, hq, hp, hi, bne_iff_ne.2 h7, ho, List.isEmpty_nil, Bool.and_self, if_true]

theorem tokenRefill_refills (c : Nat) (h : s.ct % 256 = 0) :
    exec (.tokenRefill c) s = .next ((List.range 16).foldl (fun s n => s.refill c n) s) :=
  congrArg Host.Outcome.next (if_pos h)

theorem tokenRefill_waits (c : Nat) (h : s.ct % 256 ≠ 0) : exec (.tokenRefill c) s = .next s :=
  congrArg Host.Outcome.next (if_neg h)

/-- Settles O8: descriptor words and pushes by the entry's place, a channel by what is queued or in flight, and pieces by the arbitration
and their release. -/
theorem moverCommands : Obligations.MoverCommands :=
  ⟨fun _ _ _ _ _ _ => movDescWrite_writes, movDescWrite_queued, fun _ _ _ _ _ => movPush_queues, fun _ _ _ _ _ => movPush_rejected,
    fun _ _ _ _ _ => movPush_invalid, fun _ _ _ _ _ => movAbort_stops, fun _ _ _ _ _ _ => movResume_restarts,
    fun _ _ _ _ => movResume_marks, fun _ _ _ _ _ => movCtxBind_binds, movCtxBind_busy, fun _ _ _ _ _ => moverPieceIssue_served,
    fun _ _ _ _ _ => moverPieceIssue_loses, fun _ _ _ _ => moverPieceIssue_none, fun _ _ _ _ _ => pieceDelivery_delivers,
    fun _ _ _ _ _ => pieceDelivery_leaves_timed, fun _ _ _ _ _ => timedPieceRelease_delivers,
    fun _ _ _ _ _ => timedPieceRelease_late, fun _ _ _ _ _ _ => timedPieceRelease_waits, descriptorRetire_retires,
    tokenRefill_refills, tokenRefill_waits⟩

end Sys2Proof.Machine
end

section
/-! SUPPORT. The operators of the tiler's list (R163 to R178, R538): each command of a row is its own operator at its context, a context
between operators starts or refuses the next one, and one at work goes through its items in order. -/

namespace Sys2Proof.Machine

/-! ## Operators by their rows (R163) -/

/-- The commands of the operator rows that only run their operator, with opcode and kind; DETECT does more. -/
def operatorRows (c x : Nat) : List (Nat × Instr × OpKind) :=
  [(0x01, .matmul c x, arrayKind c x), (0x10, .conv2d c x, arrayKind c x), (0x11, .dwconv2d c x, arrayKind c x),
   (0x12, .groupconv2d c x, arrayKind c x), (0x13, .poolMax c x, pixelKind poolBaseOk fun s => s.poolItem c x 0x08),
   (0x14, .poolAvg c x, pixelKind poolBaseOk fun s => s.poolItem c x 0x09),
   (0x15, .resize c x, pixelKind poolBaseOk fun s => s.resizeItem c x), (0x21, .accept c x, acceptKind c x),
   (0x30, .elemwise c x, rowKind c x 0x02), (0x31, .layernorm c x, rowKind c x 0x03), (0x32, .rmsnorm c x, rowKind c x 0x04),
   (0x33, .softmax c x, rowKind c x 0x05), (0x34, .reduce c x, rowKind c x 0x06), (0x35, .cast c x, rowKind c x 0x07),
   (0x38, .bounds c x, boundsKind c x), (0x40, .copy c x, copyKind c x), (0x41, .census c x, copyKind c x)]

/-- What DETECT does after its operator's turn: the job goes to the DPP where that is the next work (R205). -/
def State.detectNext (c x : Nat) (t : State) : State :=
  if t.headIs c x (fun w => w == .detect) && (t.opNow c x == some 0x28) then t.detectHand c x else t

theorem exec_operatorRows (s : State) (c x : Nat) :
    ∀ e ∈ operatorRows c x, exec e.2.1 s = .next (s.opRow c x e.1 e.2.2) :=
  List.forall_iff_forall_mem.1
    ⟨rfl, rfl, rfl, rfl, rfl, rfl, rfl, rfl, rfl, rfl, rfl, rfl, rfl, rfl, rfl, rfl, rfl⟩

/-- Every operator row runs its operator; f is what comes after it. -/
theorem exec_operator {s : State} {c x op : Nat} {i : Instr} {k : OpKind} {f : State → State}
    (h : (op, i, k) ∈ operatorRows c x ∧ f = id ∨ (op, i, k) = (0x28, Instr.detect c x, detectKind c x) ∧ f = State.detectNext c x) :
    exec i s = .next (f (s.opRow c x op k)) := by
  rcases h with ⟨hrow, rfl⟩ | ⟨hdetect, rfl⟩
  · exact exec_operatorRows s c x _ hrow
  · obtain ⟨rfl, rfl, rfl⟩ := hdetect
    rfl

/-! ## What an operator's start leaves (R164, R178) -/

/-- A tiler that is in the middle of an operator is rewritten as said. -/
theorem State.til_modTil {s : State} {c x : Nat} {f : TilerCtx → TilerCtx} (h : (f (s.til c x)).phase ≠ 0) :
    (s.modTil c x f).til c x = f (s.til c x) := by
  have hne : { s.ctx c x with tiler := f (s.til c x) } ≠ Ctx.empty := fun he => h (congrArg (fun k : Ctx => k.tiler.phase) he)
  exact congrArg Ctx.tiler (s.ctx_setCtx c x _ hne)

theorem State.til_opStart (s : State) (c x total : Nat) (l : List Byte) (work : List Work) :
    (s.opStart c x l total work).til c x = { (s.til c x).take l with total := total, work := work } :=
  State.til_modTil (f := fun t => { t.take l with total := total, work := work }) Nat.one_ne_zero

theorem State.mem_opStart (s : State) (c x total : Nat) (l : List Byte) (work : List Work) : (s.opStart c x l total work).mem = s.mem := rfl

/-- What a fetch of the next item makes of the operator: a failed one stops, an index that is an item starts it, and no item left ends the
share once all that was issued has ended. -/
def OpKind.fetched (k : OpKind) (c x : Nat) : Bool × Option Nat × State → State
  | (false, _, u) => u
  | (true, some j, u) => if k.isItem u j then ((k.start (u.setItem c x j) j).taskTable c).tilState c 2 else u
  | (true, none, u) => if u.ctxIdle c x then (u.opDoneShare c x).tilState c 0 else u

theorem State.owes_nothing {e : State} {c x : Nat} (hrun : e.opRuns_ c x = true) (hw : (e.til c x).work = []) :
    (!e.opRuns_ c x || !(e.til c x).work.isEmpty) = false := by
  rw [hrun, hw]
  rfl

/-! ## Between operators (R163, R169, R174) -/

section
variable {s u v : State} {c x op : Nat} {k : OpKind} {l : List Byte}
  (hm : s.tilerMay c x = true) (ho : (s.opNow c x).getD op = op)
include hm ho

/-- The operator's command has its turn. -/
theorem State.opRow_acts : (!s.tilerMay c x || !((s.opNow c x).getD op == op)) = false := by
  rw [hm, ho, beq_self_eq_true]
  rfl

section
variable (hp : ((s.tilerTake c x).til c x).phase = 0)
include hp

theorem State.opRow_unread (hr : (s.tilerTake c x).readOp c x = (none, u)) : s.opRow c x op k = u := by
  simp only [State.opRow, State.opRow_acts hm ho, hp, hr, Bool.false_eq_true, if_false]

variable (hr : (s.tilerTake c x).readOp c x = (some l, u)) (hv : v = (u.modTil c x fun t => t.take l).tilState c 1)
include hr hv

/-- A descriptor that was read is refused, does not fit, or starts its operator. -/
theorem State.opRow_read : s.opRow c x op k =
    if !catalogue.contains (fieldAt l 0 1) || !k.ok v l then v.descRefused c x
    else if (v.leads c x || distOf l) && !k.fits v l then v.arenaFault c x
    else v.opStart c x l (if v.leads c x || distOf l then k.total v l else 0) (if v.leads c x || distOf l then k.work l else []) := by
  subst hv
  simp only [State.opRow, State.opRow_acts hm ho, hp, hr, Bool.false_eq_true, if_false]

theorem State.opRow_refused (h : catalogue.contains (fieldAt l 0 1) = false ∨ k.ok v l = false) :
    s.opRow c x op k = v.descRefused c x := by
  rw [State.opRow_read hm ho hp hr hv, if_pos]
  rwa [Bool.or_eq_true, Bool.not_eq_true', Bool.not_eq_true']

variable (hcat : catalogue.contains (fieldAt l 0 1) = true) (hok : k.ok v l = true)
include hcat hok

theorem State.opRow_unfit (hs : (v.leads c x || distOf l) = true) (hf : k.fits v l = false) : s.opRow c x op k = v.arenaFault c x := by
  rw [State.opRow_read hm ho hp hr hv, if_neg (by rw [hcat, hok]; decide), if_pos (by rw [hs, hf]; rfl)]

theorem State.opRow_starts (hf : (v.leads c x || distOf l) = true → k.fits v l = true) : s.opRow c x op k =
    v.opStart c x l (if v.leads c x || distOf l then k.total v l else 0) (if v.leads c x || distOf l then k.work l else []) := by
  have hfit : ¬ ((v.leads c x || distOf l) && !k.fits v l) = true := fun h => by
    obtain ⟨hs, hn⟩ := Bool.and_eq_true_iff.1 h
    rw [hf hs] at hn
    exact Bool.false_ne_true hn
  rw [State.opRow_read hm ho hp hr hv, if_neg (by rw [hcat, hok]; decide), if_neg hfit]

end

/-! ## An operator at work (R164, R175, R178) -/

section
variable {e : State} (hp : ((s.tilerTake c x).til c x).phase = 1)
  (he : e = (s.tilerTake c x).emit c x (((s.tilerTake c x).til c x).work.length + 1))
include hp he

theorem State.opRow_owes (h : e.opRuns_ c x = false ∨ (e.til c x).work ≠ []) : s.opRow c x op k = e := by
  have hstop : (!e.opRuns_ c x || !(e.til c x).work.isEmpty) = true := by
    rwa [Bool.or_eq_true, Bool.not_eq_true', Bool.not_eq_true', List.isEmpty_eq_false_iff]
  simp only [State.opRow, State.opRow_acts hm ho, hp, ← he, hstop, Bool.false_eq_true, if_false, if_true]

variable (hrun : e.opRuns_ c x = true) (hw : (e.til c x).work = [])
include hrun hw

theorem State.opRow_goes_on (hi : e.item c x ≠ 0xFFFFFFFF) : s.opRow c x op k = k.go e := by
  simp only [State.opRow, State.opRow_acts hm ho, hp, ← he, State.owes_nothing hrun hw, if_pos hi, Bool.false_eq_true, if_false]

variable (hi : e.item c x = 0xFFFFFFFF)
include hi

theorem State.opRow_fetches : s.opRow c x op k = k.fetched c x
    (e.nextItem c x (e.til c x).total (wctrOf ((s.tilerTake c x).til c x).desc) (distOf ((s.tilerTake c x).til c x).desc)) := by
  simp only [State.opRow, State.opRow_acts hm ho, hp, ← he, State.owes_nothing hrun hw, if_neg (not_not.2 hi),
    Bool.false_eq_true, if_false]
  rfl

end

end

/-- Settles O9: a descriptor that cannot be read, one that starts its operator, one that is refused, and one that does not fit. -/
theorem operatorStarts : Obligations.OperatorStarts := by
  intro s c x op i k f w u r hrow hm ho hw hp hr
  subst hw
  refine ⟨_, exec_operator hrow, fun hnone => ?_, fun l v share hsome hv hshare => ?_⟩
  · exact State.opRow_unread hm ho hp (hnone ▸ hr)
  · subst hshare hsome
    refine ⟨fun hcat hok hf => ?_, State.opRow_refused hm ho hp hr hv, State.opRow_unfit hm ho hp hr hv⟩
    rw [State.opRow_starts hm ho hp hr hv hcat hok hf, State.til_opStart, State.mem_opStart, hv]
    exact ⟨rfl, rfl, rfl, rfl, rfl, rfl, rfl⟩

/-- Settles O10: work still owed, a held item, and the fetch of the next one by its outcome. -/
theorem operatorRuns : Obligations.OperatorRuns := by
  intro s c x op i k f w e b n u hrow hm ho hw hp he
  subst hw
  rw [exec_operator hrow]
  refine ⟨fun h => ?_, fun hrun hwork => ⟨fun hi => ?_, fun hi hn => ?_⟩⟩
  · rw [State.opRow_owes hm ho hp he h]
  · rw [State.opRow_goes_on hm ho hp he hrun hwork hi]
  · rw [State.opRow_fetches hm ho hp he hrun hwork hi, hn]
    refine ⟨fun hb => ?_, fun j hb hj => ?_, fun hb hj => ?_⟩
    · subst hb
      rfl
    · subst hb hj
      rfl
    · subst hb hj
      rfl

/-! ## Items (R175, R178) -/

section
variable (s : State) (c x total w : Nat)

theorem State.nextItem_in_order (ha : (s.til c x).allTaken = false) (hn : (s.til c x).next < total) :
    (s.nextItem c x total w false).1 = true ∧ (s.nextItem c x total w false).2.1 = some (s.til c x).next := by
  simp only [State.nextItem, ha, hn, Bool.not_false, Bool.false_eq_true, if_false, if_true, and_self]

theorem State.nextItem_over (hn : total ≤ (s.til c x).next) : s.nextItem c x total w false = (true, none, s) := by
  simp only [State.nextItem, if_neg hn.not_gt, Bool.not_false, if_true, ite_self]

theorem State.itemEnd_holds_none (hwf : s.regsWf = true) : (s.itemEnd c x).item c x = 0xFFFFFFFF ∧ (s.itemEnd c x).mem = s.mem :=
  ⟨s.rd_wr_same _ _ hwf, rfl⟩

theorem State.rowItem_kernel_missing (kernel : Nat) (hk : s.kernelIn c kernel = false) :
    s.rowItem c x kernel = s.kernelInvalid c (s.stepEngine c) x kernel :=
  if_pos (by rw [hk]; rfl)

end

/-- Settles O11: the fetch below the total and from it on, the end of an item, the missing kernel, and the work of COPY and CENSUS. -/
theorem operatorItems : Obligations.OperatorItems :=
  ⟨State.nextItem_in_order, State.nextItem_over, State.itemEnd_holds_none, State.rowItem_kernel_missing, fun _ _ _ _ => ⟨rfl, rfl⟩⟩

end Sys2Proof.Machine
end

section
/-! SUPPORT. Launches and the commands on tasks (R293, R302, R313, R400): each mailbox command by what it names, the task graph, and the
slots that a launchable task takes. -/

namespace Sys2Proof.Machine

variable (s : State)

/-! ## Launches (R293) -/

section
variable (ring idx : Nat) (k : Cmd)

theorem exec_launch_room (hk : s.mbCmd ring idx 0x04 = some k) (hq : s.launchQ.length < 64) :
    exec (.launch ring idx) s = .next ((s.begin_ ring idx).launchCmd ring idx k) :=
  congrArg Host.Outcome.next ((if_neg hq.not_ge).trans (State.mbox_taken _ hk))

theorem launch_stopped (hk : s.mbCmd ring idx 0x04 = some k) (hq : s.launchQ.length < 64) (hp : k.part < 4)
    (hs : (s.begin_ ring idx).scopeStopped k.part = true) :
    exec (.launch ring idx) s = .next ((s.begin_ ring idx).complete ring idx stAborted 0 0) := by
  rw [exec_launch_room s ring idx k hk hq, State.launchCmd, if_pos ⟨hp, hs⟩]

/-- LAUNCH is barred only in a partition below 4 that is stopped. -/
theorem launch_scope_runs {u : State} (h : 4 ≤ k.part ∨ u.scopeStopped k.part = false) :
    ¬ (k.part < 4 ∧ u.scopeStopped k.part = true) := fun ⟨hp, hs⟩ =>
  h.elim (fun h4 => absurd hp h4.not_gt) fun hf => Bool.false_ne_true (hf.symm.trans hs)

theorem launch_invalid (hk : s.mbCmd ring idx 0x04 = some k) (hq : s.launchQ.length < 64)
    (hp : 4 ≤ k.part ∨ (s.begin_ ring idx).scopeStopped k.part = false) (hr : (s.begin_ ring idx).launchRec k = none) :
    exec (.launch ring idx) s = .next ((s.begin_ ring idx).complete ring idx stInvalid 0 0) := by
  rw [exec_launch_room s ring idx k hk hq, State.launchCmd, if_neg (launch_scope_runs k hp), hr]

theorem launch_queues (t : TaskRec) (hk : s.mbCmd ring idx 0x04 = some k) (hq : s.launchQ.length < 64)
    (hp : 4 ≤ k.part ∨ (s.begin_ ring idx).scopeStopped k.part = false) (hr : (s.begin_ ring idx).launchRec k = some t) :
    exec (.launch ring idx) s = .next ((s.begin_ ring idx).enqueue { part := k.part, rcd := t, cmd := some (ring, idx) }) := by
  rw [exec_launch_room s ring idx k hk hq, State.launchCmd, if_neg (launch_scope_runs k hp), hr]

theorem launch_not_there (hk : s.mbCmd ring idx 0x04 = none) : exec (.launch ring idx) s = .next s :=
  congrArg Host.Outcome.next ((ite_congr rfl (fun _ => rfl) fun _ => State.mbox_none _ hk).trans (ite_self s))

theorem launch_waits_for_room (hq : 64 ≤ s.launchQ.length) : exec (.launch ring idx) s = .next s :=
  congrArg Host.Outcome.next (if_pos hq)

end

theorem taskGraphLaunch_queues (p n i : Nat) (g : Program) (t : TaskRec) (hg : s.prog p = some g) (hi : g.graph[n]? = some i)
    (ht : g.tasks.find? (fun t => t.index == i && !t.timed) = some t) (hp : s.partRuns p = true) (hq : s.launchQ.length < 64)
    (hl : s.taskLive p t.index = false) (hc : t.clusters ≠ []) :
    exec (.taskGraphLaunch p n) s = .next (s.enqueue { part := p, rcd := t, cmd := none }) := by
  change execTaskGraphLaunch p n s = _
  simp only [execTaskGraphLaunch, hg, hi, ht, hp, hq, hl, List.isEmpty_eq_false_iff.2 hc, Option.bind_some, decide_true, Bool.not_false,
    Bool.and_self, if_true]

theorem taskGraphLaunch_waits (p n : Nat) (h : s.prog p = none ∨ s.partRuns p = false ∨ 64 ≤ s.launchQ.length) :
    exec (.taskGraphLaunch p n) s = .next s := by
  change execTaskGraphLaunch p n s = _
  rcases h with hg | hp | hq
  · simp only [execTaskGraphLaunch, hg, Option.bind_none]
  · simp only [execTaskGraphLaunch, hp, Bool.false_and, Bool.false_eq_true, if_false]
    split <;> rfl
  · simp only [execTaskGraphLaunch, decide_eq_false hq.not_gt, Bool.and_false, Bool.false_and, Bool.false_eq_true, if_false]
    split <;> rfl

/-! ## SUSPEND, CONTINUE, KILL (R302, R313, R400) -/

section
variable (ring idx : Nat) (k : Cmd)

section
variable (hk : s.mbCmd ring idx 0x05 = some k)
include hk

theorem exec_suspend_taken : exec (.suspend ring idx) s = .next ((s.begin_ ring idx).suspendCmd ring idx k) :=
  congrArg Host.Outcome.next (State.mbox_taken _ hk)

theorem suspend_superseded (hx : (s.begin_ ring idx).killing k = true) :
    exec (.suspend ring idx) s = .next ((s.begin_ ring idx).complete ring idx stAborted 0 0) := by
  rw [exec_suspend_taken s ring idx k hk, State.suspendCmd, if_pos hx]

variable (hx : (s.begin_ ring idx).killing k = false)
include hx

theorem suspend_invalid (hn : ((s.begin_ ring idx).named k).isEmpty = true) :
    exec (.suspend ring idx) s = .next ((s.begin_ ring idx).complete ring idx stInvalid 0 0) := by
  rw [exec_suspend_taken s ring idx k hk, State.suspendCmd, if_neg (ne_true_of_eq_false hx), if_pos hn]

theorem suspend_suspends (l : List (Nat × Task)) (u : State) (hl : l = (s.begin_ ring idx).named k) (hne : l ≠ [])
    (hu : u = l.foldl (fun s e => s.modTask e.1 fun t => { t with suspended := true }) (s.begin_ ring idx)) :
    exec (.suspend ring idx) s = .next
      (((u.slotsOfTask k.part (k.arg 8 2)).foldl (fun v e => (v.slot e.1 e.2).ctx.elim v fun x => v.preempt e.1 x) u).settle) := by
  subst hl hu
  rw [exec_suspend_taken s ring idx k hk, State.suspendCmd, if_neg (ne_true_of_eq_false hx), if_neg (mt List.isEmpty_iff.1 hne)]
  refine congrArg (fun v : State => Host.Outcome.next v.settle) (List.foldl_ext _ _ _ fun v e _ => ?_)
  cases (v.slot e.1 e.2).ctx <;> rfl

end

theorem suspend_not_there (hk : s.mbCmd ring idx 0x05 = none) : exec (.suspend ring idx) s = .next s :=
  congrArg Host.Outcome.next (State.mbox_none _ hk)

theorem cont_invalid (hk : s.mbCmd ring idx 0x06 = some k) (hn : ((s.begin_ ring idx).named k).isEmpty = true) :
    exec (.cont ring idx) s = .next ((s.begin_ ring idx).complete ring idx stInvalid 0 0) :=
  congrArg Host.Outcome.next ((State.mbox_taken _ hk).trans (if_pos hn))

theorem cont_continues (l : List (Nat × Task)) (hk : s.mbCmd ring idx 0x06 = some k) (hl : l = (s.begin_ ring idx).named k)
    (hne : l ≠ []) :
    exec (.cont ring idx) s =
      .next (l.foldl (fun s e => s.modTask e.1 fun t => { t with suspended := false }) (s.begin_ ring idx)).settle := by
  subst hl
  exact congrArg Host.Outcome.next ((State.mbox_taken _ hk).trans (if_neg (mt List.isEmpty_iff.1 hne)))

theorem cont_not_there (hk : s.mbCmd ring idx 0x06 = none) : exec (.cont ring idx) s = .next s :=
  congrArg Host.Outcome.next (State.mbox_none _ hk)

theorem exec_kill_taken (hk : s.mbCmd ring idx 0x07 = some k) : exec (.kill ring idx) s = .next ((s.begin_ ring idx).killCmd ring idx k) :=
  congrArg Host.Outcome.next (State.mbox_taken _ hk)

theorem kill_invalid (hk : s.mbCmd ring idx 0x07 = some k) (hn : ((s.begin_ ring idx).named k).isEmpty = true)
    (hw : (s.begin_ ring idx).launchQ.filter (fun q => q.part == k.part && q.rcd.index == k.arg 8 2) = []) :
    exec (.kill ring idx) s = .next ((s.begin_ ring idx).complete ring idx stInvalid 0 0) := by
  rw [exec_kill_taken s ring idx k hk, State.killCmd, if_pos (by rw [hn, hw]; rfl)]

theorem kill_not_there (hk : s.mbCmd ring idx 0x07 = none) : exec (.kill ring idx) s = .next s :=
  congrArg Host.Outcome.next (State.mbox_none _ hk)

end

/-! ## Slots (R293) -/

theorem slotAllocate_takes (q : QLaunch) (u v : State) (hs : s.stewardUp = true) (hq : s.launchable = some q)
    (hu : u = { s with launchQ := s.launchQ.erase q, nextTask := s.nextTask + 1, tasks := s.tasks ++ [(s.nextTask, taskOf q s.ct)] })
    (hv : v = if q.rcd.step then (u.setStep q.part { u.step_ q.part with task := some s.nextTask }).setSeqState q.part 2 else u) :
    exec .slotAllocate s =
      .next (q.rcd.clusters.foldl (fun v c => (v.freeSlotOf c).elim v fun n => v.takeSlot s.nextTask q.rcd c n) v) := by
  subst hu hv
  change execSlotAllocate s = _
  rw [execSlotAllocate, if_pos hs, hq]
  refine congrArg Host.Outcome.next (List.foldl_ext _ _ _ fun v c _ => ?_)
  cases v.freeSlotOf c <;> rfl

theorem slotAllocate_waits (h : s.stewardUp = false ∨ s.launchable = none) : exec .slotAllocate s = .next s := by
  change execSlotAllocate s = _
  have hnone : (if s.stewardUp then s.launchable else none) = none := by
    rcases h with hs | hq
    · exact if_neg (ne_true_of_eq_false hs)
    · rw [hq, ite_self]
  rw [execSlotAllocate, hnone]

/-- Settles O19: launches by their record, the task graph, the three commands by what they name, slots, and the commands that wait. -/
theorem taskCommands : Obligations.TaskCommands :=
  ⟨launch_stopped, launch_invalid, launch_queues, taskGraphLaunch_queues, suspend_superseded, suspend_invalid,
    fun s ring idx k l u hk hx => suspend_suspends s ring idx k hk hx l u, cont_invalid, cont_continues, kill_invalid,
    fun s ring idx k hk _ => exec_kill_taken s ring idx k hk, slotAllocate_takes, launch_not_there, suspend_not_there,
    cont_not_there, kill_not_there, launch_waits_for_room, taskGraphLaunch_waits, slotAllocate_waits⟩

end Sys2Proof.Machine
end

section
/-! SUPPORT. Synchronisation objects (R305 to R310): watches and wakes, signals by where the word lies, sets, polls, and the mailbox's
SIGNAL and SET. -/

namespace Sys2Proof.Machine

variable (s : State)

/-! ## Watches and wakes (R305, R308) -/

section
variable (c x : Nat)

theorem watch_watches (hm : s.mayWait c x = true) (hw : (s.ctx c x).wait.isSome = true) (hn : (s.ctx c x).watching = false) :
    exec (.watch c x) s = .next (s.watchNow c x) :=
  congrArg Host.Outcome.next (if_pos (by rw [hm, hw, hn]; rfl))

theorem watch_leaves (h : s.mayWait c x = false ∨ (s.ctx c x).wait = none ∨ (s.ctx c x).watching = true) :
    exec (.watch c x) s = .next s := by
  refine congrArg Host.Outcome.next (if_neg fun hall => ?_)
  simp only [Bool.and_eq_true, Bool.not_eq_true'] at hall
  obtain ⟨⟨hm, hw⟩, hn⟩ := hall
  rcases h with h | h | h
  · exact Bool.false_ne_true (h.symm.trans hm)
  · rw [h] at hw
    exact Bool.false_ne_true hw
  · exact Bool.false_ne_true (hn.symm.trans h)

theorem unwatch_withdraws (hh : (s.ctx c x).held = true) (hw : (s.ctx c x).watching = true) :
    exec (.unwatch c x) s = .next (s.unwatch c x) :=
  congrArg Host.Outcome.next (if_pos (by rw [hh, hw]; rfl))

theorem unwatch_leaves (h : (s.ctx c x).held = false ∨ (s.ctx c x).watching = false) : exec (.unwatch c x) s = .next s :=
  congrArg Host.Outcome.next (if_neg (ne_true_of_eq_false (Bool.and_eq_false_iff.2 h)))

/-- The wake of context x of cluster c for a word, if one is on its way. -/
def State.wakeOf (s : State) (c x addr : Nat) : Option Watch :=
  s.wakes.find? fun w => w.cluster == c && w.ctx == x && w.addr == s.normGa addr

variable (addr : Nat)

theorem wake_reads_again (ga v : Nat) (w : Watch) (u : State) (hf : s.wakeOf c x addr = some w) (hw : (s.ctx c x).wait = some (ga, v))
    (hn : (s.ctx c x).watching = true) (ha : ga = w.addr) (hu : u = { s with wakes := s.wakes.erase w }) :
    exec (.wake c x addr) s = .next ((u.setCtx c x { u.ctx c x with watching := false }).watchNow c x) := by
  rw [State.wakeOf] at hf
  have hctx : u.ctx c x = s.ctx c x := by rw [hu]; rfl
  change execWake c x addr s = _
  simp only [execWake, hf, ← hu, hctx, hw, hn, ha, beq_self_eq_true, Bool.and_self, if_true]

theorem wake_dropped (w : Watch) (hf : s.wakeOf c x addr = some w) (hw : (s.ctx c x).wait = none) :
    exec (.wake c x addr) s = .next { s with wakes := s.wakes.erase w } := by
  rw [State.wakeOf] at hf
  have hwait : (State.ctx { s with wakes := s.wakes.erase w } c x).wait = none := hw
  change execWake c x addr s = _
  simp only [execWake, hf, hwait]

theorem wake_not_there (hf : s.wakeOf c x addr = none) : exec (.wake c x addr) s = .next s := by
  rw [State.wakeOf] at hf
  change execWake c x addr s = _
  simp only [execWake, hf]

end

/-! ## Signals and sets (R306, R307) -/

section
variable (r : Requester) (addr inc : Nat)

theorem syncSignal_violates (hw : s.reqWindowOk r addr 8 .atomic = false) :
    exec (.syncSignal r addr inc) s = .next (s.reqViolation r addr) := by
  change execSyncSignal r addr inc s = _
  simp only [execSyncSignal, hw, Bool.not_false, if_true]
  split <;> rfl

theorem syncSignal_signals (a : Nat) (e : Option AccErr) (u : State) (ha : s.localOf addr = some a)
    (hw : s.reqWindowOk r addr 8 .atomic = true) (hq : s.signalLocal r a inc = (e, u)) :
    exec (.syncSignal r addr inc) s = .next ((u.failTask r e).answer r (respOf r e) []) := by
  change execSyncSignal r addr inc s = _
  simp only [execSyncSignal, ha, hw, hq, Bool.not_true, Bool.false_eq_true, if_false]

/-- A signal that memory takes wakes the watchers of its word. -/
theorem State.signalLocal_taken {s u : State} {r : Requester} {a inc old : Nat}
    (hq : s.memAtomic r .add a (inc % 2 ^ 32) 0 = ((old, none), u)) :
    s.signalLocal r a inc = (none, u.wakeAll (127 * 2 ^ 41 + a) ((old + inc % 2 ^ 32) % 2 ^ 64)) := by
  simp only [State.signalLocal, hq]

theorem syncSignal_adds (a old : Nat) (u : State) (ha : s.localOf addr = some a) (hw : s.reqWindowOk r addr 8 .atomic = true)
    (hq : s.memAtomic r .add a (inc % 2 ^ 32) 0 = ((old, none), u)) : exec (.syncSignal r addr inc) s =
      .next (((u.wakeAll (127 * 2 ^ 41 + a) ((old + inc % 2 ^ 32) % 2 ^ 64)).failTask r none).answer r (respOf r none) []) :=
  syncSignal_signals s r addr inc a none _ ha hw (State.signalLocal_taken hq)

/-- A signal of a word of another chip, as a port sends it. -/
def State.farSignal (s : State) (r : Requester) (addr inc : Nat) : Option Nat × State :=
  s.spSend r (r.ctx == some 4)
    { kind := kSignal, dest := addr / 2 ^ 41, len := 4, op := 0, tagged := false, addr := addr % 2 ^ 41,
      payload := leBytes 4 inc, cmd := none }

section
variable (q : Option Nat × State) (ha : s.localOf addr = none) (hw : s.reqWindowOk r addr 8 .atomic = true)
  (hq : q = s.farSignal r addr inc)
include ha hw hq

theorem syncSignal_sent (h : q.1 ≠ none) : exec (.syncSignal r addr inc) s = .next q.2 := by
  obtain ⟨p, hp⟩ := Option.ne_none_iff_exists'.1 h
  rw [State.farSignal] at hq
  change execSyncSignal r addr inc s = _
  simp only [execSyncSignal, ha, hw, ← hq, hp, Bool.not_true, Bool.false_eq_true, if_false]

theorem syncSignal_unsent (h : q.1 = none) :
    exec (.syncSignal r addr inc) s = .next ((q.2.failTask r (some .unmapped)).answer r .error []) := by
  rw [State.farSignal] at hq
  change execSyncSignal r addr inc s = _
  simp only [execSyncSignal, ha, hw, ← hq, h, Bool.not_true, Bool.false_eq_true, if_false]

end

end

/-- A SET that memory takes wakes the watchers of its word. -/
theorem State.setLocal_taken {s u : State} {r : Requester} {a v : Nat} (hq : s.memWrite r a (leBytes 8 v) = (none, u)) (h8 : a % 8 = 0) :
    s.setLocal r a v = (none, u.wakeAll (127 * 2 ^ 41 + a) (v % 2 ^ 64)) := by
  simp only [State.setLocal, h8, hq, if_true]

theorem syncSet_sets (addr v a : Nat) (u : State) (ha : s.localOf addr = some a) (hq : s.memWrite .steward a (leBytes 8 v) = (none, u))
    (h8 : a % 8 = 0) : exec (.syncSet addr v) s = .next (u.wakeAll (127 * 2 ^ 41 + a) (v % 2 ^ 64)) := by
  change execSyncSet addr v s = _
  simp only [execSyncSet, State.stewardWord, ha, State.setLocal_taken hq h8, if_true]

/-! ## Polls (R308, R310) -/

section
variable (c x : Nat)

theorem syncPoll_slot (h : 8 ≤ x) : exec (.syncPoll c x) s = .next (s.pollSlot c (x - 8)) := congrArg Host.Outcome.next (if_pos h)

theorem syncPoll_leaves (hx : x < 8)
    (h : (s.ctx c x).wait = none ∨ s.mayWait c x = false ∨ (s.ctx c x).watching = true ∨ s.ct % 256 ≠ 0) :
    exec (.syncPoll c x) s = .next s := by
  change execSyncPoll c x s = _
  cases hw : (s.ctx c x).wait with
  | none => simp only [execSyncPoll, if_neg hx.not_ge, hw]
  | some q =>
    have hno : (s.mayWait c x && !(s.ctx c x).watching && s.ct % 256 == 0) = false := by
      rcases h with h | h | h | h
      · exact absurd (hw.symm.trans h) (Option.some_ne_none q)
      · rw [h, Bool.false_and, Bool.false_and]
      · rw [h, Bool.not_true, Bool.and_false, Bool.false_and]
      · rw [beq_false_of_ne h, Bool.and_false]
    simp only [execSyncPoll, if_neg hx.not_ge, hw, hno, Bool.false_eq_true, if_false]

variable (ga v : Nat)

section
variable (a : Nat) (hx : x < 8) (hw : (s.ctx c x).wait = some (ga, v)) (hm : s.mayWait c x = true) (hn : (s.ctx c x).watching = false)
  (ht : s.ct % 256 = 0)
include hx hw hm hn ht

theorem syncPoll_polls (hp : s.poolWord ga = none ∨ s.sliceFull a = true) (ha : s.localOf ga = some a)
    (hb : ∀ b, s.poolWord ga = some b → b = a) : exec (.syncPoll c x) s = .next (s.pollWord c x a v) := by
  change execSyncPoll c x s = _
  cases hword : s.poolWord ga with
  | none => simp only [execSyncPoll, if_neg hx.not_ge, hw, hm, hn, ht, hword, ha, Bool.not_false, beq_self_eq_true, Bool.and_self, if_true]
  | some b =>
    obtain rfl := hb b hword
    have hfull : s.sliceFull b = true := hp.resolve_left (hword ▸ Option.some_ne_none b)
    simp only [execSyncPoll, if_neg hx.not_ge, hw, hm, hn, ht, hword, hfull, Bool.not_false, beq_self_eq_true, Bool.and_self, if_true]

theorem syncPoll_watches_far (hp : s.poolWord ga = none) (ha : s.localOf ga = none) :
    exec (.syncPoll c x) s = .next ((s.countUp (clReg c 0xA0C) 1).watchNow c x) := by
  change execSyncPoll c x s = _
  simp only [execSyncPoll, if_neg hx.not_ge, hw, hm, hn, ht, hp, ha, Bool.not_false, beq_self_eq_true, Bool.and_self, if_true]

end

end

/-! ## SIGNAL and SET of the mailbox (R305, R399) -/

section
variable {u : State} {ring idx : Nat} {k : Cmd} {set : Bool}

/-- A word of this chip that is the partition's own, or any of another chip. -/
theorem State.mbWord_done (h48 : k.arg 8 8 < 2 ^ 48)
    (ho : ∀ a, u.localOf (k.arg 8 8) = some a → (u.poolWord (k.arg 8 8)).isSome = true ∧ u.memOwner a = some k.part) :
    u.mbWord ring idx k set =
      (u.stewardWord (k.arg 8 8) (if set then k.arg 0x10 8 else k.arg 0x10 4) set (some (ring, idx))).2 := by
  cases ha : u.localOf (k.arg 8 8) with
  | none => simp only [State.mbWord, ha, decide_eq_false h48.not_ge, Bool.not_true, Bool.or_self, Bool.false_eq_true, if_false]
  | some a =>
    obtain ⟨hword, hown⟩ := ho a ha
    simp only [State.mbWord, ha, hword, hown, decide_eq_false h48.not_ge, beq_self_eq_true, Bool.and_self, Bool.not_true, Bool.or_self,
      Bool.false_eq_true, if_false]

theorem State.mbWord_foreign {a : Nat} (ha : u.localOf (k.arg 8 8) = some a) (ho : u.memOwner a ≠ some k.part) :
    u.mbWord ring idx k set = u.complete ring idx stInvalid 0 0 := by
  simp only [State.mbWord, ha, beq_false_of_ne ho, Bool.and_false, Bool.not_false, Bool.or_true, if_true]

end

section
variable (ring idx : Nat)

theorem exec_signal_taken {k : Cmd} (hk : s.mbCmd ring idx 0x0C = some k) :
    exec (.signal ring idx) s = .next ((s.begin_ ring idx).mbWord ring idx k false) :=
  congrArg Host.Outcome.next (State.mbox_taken _ hk)

theorem exec_set_taken {k : Cmd} (hk : s.mbCmd ring idx 0x0D = some k) :
    exec (.set ring idx) s = .next ((s.begin_ ring idx).mbWord ring idx k true) :=
  congrArg Host.Outcome.next (State.mbox_taken _ hk)

theorem signal_not_there (hk : s.mbCmd ring idx 0x0C = none) : exec (.signal ring idx) s = .next s :=
  congrArg Host.Outcome.next (State.mbox_none _ hk)

theorem set_not_there (hk : s.mbCmd ring idx 0x0D = none) : exec (.set ring idx) s = .next s :=
  congrArg Host.Outcome.next (State.mbox_none _ hk)

end

/-- Settles O21: watches, wakes, signals by where the word lies, sets, polls, what leaves the state alone, and the mailbox's words. -/
theorem syncCommands : Obligations.SyncCommands :=
  ⟨watch_watches, unwatch_withdraws, wake_reads_again, wake_dropped, syncSignal_signals, syncSignal_adds, syncSignal_violates,
    syncSignal_sent, syncSignal_unsent, fun _ _ _ => rfl, syncSet_sets, syncPoll_polls, syncPoll_watches_far, syncPoll_slot,
    syncPoll_leaves, watch_leaves, unwatch_leaves, wake_not_there,
    fun s ring idx _ hk h48 ho => (exec_signal_taken s ring idx hk).trans (congrArg Host.Outcome.next (State.mbWord_done h48 ho)),
    fun s ring idx _ _ hk ha ho => (exec_signal_taken s ring idx hk).trans (congrArg Host.Outcome.next (State.mbWord_foreign ha ho)),
    fun s ring idx _ hk h48 ho => (exec_set_taken s ring idx hk).trans (congrArg Host.Outcome.next (State.mbWord_done h48 ho)),
    fun s ring idx _ _ hk ha ho => (exec_set_taken s ring idx hk).trans (congrArg Host.Outcome.next (State.mbWord_foreign ha ho)),
    signal_not_there, set_not_there⟩

end Sys2Proof.Machine
end

section
/-! SUPPORT. Detection jobs (R205 to R217): the start by the queue of the DPP, then the end and the bound by what the DPP has read. -/

namespace Sys2Proof.Machine

/-! ## The start (R208) -/

/-- Job j as it starts to run in state s: nothing read, its T_bound counted from this tick (R213, R216). -/
def State.jobRun (s : State) (j : DppJob) : DppRun :=
  { job := j, start := s.ct, bound := detBound j.desc, ends := (detEnds j.desc).1, taken := 0, scores := [], boxes := [], priors := [],
    read := false, records := [], dropped := 0, lost := 0, ended := false }

section
variable (s : State) (d : Nat)

theorem dppJobStart_starts {j : DppJob} {l : List DppJob} (hr : (s.dpp d).running = none) (hq : (s.dpp d).queue = j :: l)
    (hd : d < s.nDpps) :
    exec (.dppJobStart d) s = .next (((s.setDpp d { queue := l, running := some (s.jobRun j) }).dppRoom d).dppRead d) := by
  change execDppJobStart d s = _
  simp only [execDppJobStart, State.jobRun, hr, hq, hd, decide_true, if_true]

theorem dppJobStart_reads_on (j : DppRun) (hr : (s.dpp d).running = some j) : exec (.dppJobStart d) s = .next (s.dppRead d) := by
  change execDppJobStart d s = _
  simp only [execDppJobStart, hr]

end

/-! ## The end and the bound (R212 to R214, R217). State u is the one in which the DPP has read what its tiler has staged. -/

section
variable {s u : State} {d : Nat} {j : DppRun} (hu : u = s.dppRead d)
include hu

theorem exec_dppJobEnd_read (hj : u.dppReady d = some j) :
    exec (.dppJobEnd d) s =
      .next (if j.ended then u else if j.job.timed then u.dppEnd d j else (u.dppEnd d j).dppSignal d j) := by
  subst hu
  change execDppJobEnd d s = _
  simp only [execDppJobEnd, hj]

theorem exec_dppJobEnd_unread (hj : u.dppReady d = none) : exec (.dppJobEnd d) s = .next u := by
  subst hu
  change execDppJobEnd d s = _
  simp only [execDppJobEnd, hj]

theorem exec_dppTBound_read (hj : u.dppReady d = some j) :
    exec (.dppTBound d) s =
      .next (if j.job.timed && decide (j.start + j.bound ≤ u.ct) then (if j.ended then u else u.dppEnd d j).dppSignal d j else u) := by
  subst hu
  change execDppTBound d s = _
  simp only [execDppTBound, hj]

theorem exec_dppTBound_unread (hj : u.dppReady d = none) : exec (.dppTBound d) s = .next u := by
  subst hu
  change execDppTBound d s = _
  simp only [execDppTBound, hj]

theorem dppJobEnd_ends (hj : u.dppReady d = some j) (he : j.ended = false) :
    completes (.dppJobEnd d) s fun t =>
      (j.job.timed = false → t = (u.dppEnd d j).dppSignal d j) ∧ (j.job.timed = true → t = u.dppEnd d j) :=
  ⟨_, exec_dppJobEnd_read hu hj, fun ht => by simp only [he, ht, Bool.false_eq_true, if_false],
    fun ht => by simp only [he, ht, Bool.false_eq_true, if_false, if_true]⟩

theorem dppJobEnd_leaves (h : u.dppReady d = none ∨ ∃ j, u.dppReady d = some j ∧ j.ended = true) :
    exec (.dppJobEnd d) s = .next u := by
  rcases h with hn | ⟨j, hj, he⟩
  · exact exec_dppJobEnd_unread hu hn
  · rw [exec_dppJobEnd_read hu hj, if_pos he]

theorem dppTBound_signals (hj : u.dppReady d = some j) (ht : j.job.timed = true) (hb : j.start + j.bound ≤ u.ct) :
    completes (.dppTBound d) s fun t =>
      (j.ended = true → t = u.dppSignal d j) ∧ (j.ended = false → t = (u.dppEnd d j).dppSignal d j) := by
  have hdue : (j.job.timed && decide (j.start + j.bound ≤ u.ct)) = true := by rw [ht, decide_eq_true hb]; rfl
  refine ⟨_, exec_dppTBound_read hu hj, fun he => ?_, fun he => ?_⟩
  · rw [if_pos hdue, if_pos he]
  · rw [if_pos hdue, he, if_neg Bool.false_ne_true]

theorem dppTBound_leaves (h : ∀ j, u.dppReady d = some j → j.job.timed = false ∨ u.ct < j.start + j.bound) :
    exec (.dppTBound d) s = .next u := by
  cases hj : u.dppReady d with
  | none => exact exec_dppTBound_unread hu hj
  | some j =>
    have hwait : (j.job.timed && decide (j.start + j.bound ≤ u.ct)) = false := by
      rcases h j hj with ht | hlt
      · rw [ht, Bool.false_and]
      · rw [decide_eq_false hlt.not_ge, Bool.and_false]
    rw [exec_dppTBound_read hu hj, hwait, if_neg Bool.false_ne_true]

end

/-- Settles O13: the start by the DPP's queue and its running job, then the end and the bound, each where it acts and where the DPP only
reads on. -/
theorem detectionJobs : Obligations.DetectionJobs :=
  ⟨fun s d _ _ _ hr hq hd he => he ▸ dppJobStart_starts s d hr hq hd, dppJobStart_reads_on, fun _ _ _ _ => dppJobEnd_ends,
    fun _ _ _ => dppJobEnd_leaves, fun _ _ _ _ => dppTBound_signals, fun _ _ _ => dppTBound_leaves⟩

end Sys2Proof.Machine
end

section
/-! SUPPORT. Sensor ingest (R332 to R343, R359): packets and frames of a camera port, frames of a MAC and their point buffers, and
strained inputs. -/

namespace Sys2Proof.Machine

/-! ## Camera packets (R334) -/

/-- An error of CSI-2 at pipe i: ING_STATUS and ING_CSI_ERR say so, and the open frame is bad (R334). -/
def State.csiError (s : State) (i : Nat) : State :=
  ((s.orReg (ingReg i 0) (2 ^ 31)).raisePipe .ingCsiErr i).modFrame i fun f => { f with bad := true }

/-- Whether pipe i takes packet k as data: embedded data, or the pipe's own type where a port supports it (R334). -/
def State.csiTakes (s : State) (i : Nat) (k : CsiPacket) : Prop :=
  k.dt = 0x12 ∨ (k.dt = s.fld (ingReg i 4) 22 17 ∧ dtBits k.dt ≠ 0)

section
variable {s : State} {i : Nat} {k : CsiPacket}

theorem csiPacket_off (hoff : s.pipeOn i = false) : exec (.csiPacket i k) s = .next s :=
  congrArg Host.Outcome.next (if_neg (by rw [hoff]; decide))

variable (hon : s.pipeOn i = true)
include hon

theorem exec_csiPacket_on : exec (.csiPacket i k) s = .next (s.csiPacket i k) := congrArg Host.Outcome.next (if_pos hon)

theorem csiPacket_header_errs (hh : k.headerOk = false) : exec (.csiPacket i k) s = .next (s.csiError i) := by
  rw [exec_csiPacket_on hon]
  exact congrArg Host.Outcome.next (if_pos (by rw [hh]; rfl))

variable (hh : k.headerOk = true)
include hh

theorem csiPacket_channel_skipped (hv : k.vc ≠ s.fld (ingReg i 4) 26 23) :
    exec (.csiPacket i k) s = .next (s.countUp (ingReg i 0x78) 1) := by
  rw [exec_csiPacket_on hon]
  exact congrArg Host.Outcome.next ((if_neg (by rw [hh]; decide)).trans (if_pos hv))

variable (hv : k.vc = s.fld (ingReg i 4) 26 23)
include hv

/-- A packet of the pipe's own channel, by its type. -/
theorem exec_csiPacket_channel :
    exec (.csiPacket i k) s =
      .next (if k.dt = 0 then s.frameStart i k.vc
        else if k.dt = 1 then s.modFrame i fun f => { f with ended := true }
        else if k.dt ≠ 0x12 ∧ (k.dt ≠ s.fld (ingReg i 4) 22 17 ∨ dtBits k.dt = 0) then s.countUp (ingReg i 0x78) 1
        else if !k.crcOk then s.csiError i
        else s.csiData i k) := by
  rw [exec_csiPacket_on hon]
  exact congrArg Host.Outcome.next ((if_neg (by rw [hh]; decide)).trans (if_neg (not_not_intro hv)))

theorem csiPacket_starts_frame (hd : k.dt = 0) : exec (.csiPacket i k) s = .next (s.frameStart i k.vc) := by
  rw [exec_csiPacket_channel hon hh hv, if_pos hd]

theorem csiPacket_ends_frame (hd : k.dt = 1) :
    exec (.csiPacket i k) s = .next (s.modFrame i fun f => { f with ended := true }) := by
  rw [exec_csiPacket_channel hon hh hv, if_neg (by omega), if_pos hd]

variable (hd : 1 < k.dt)
include hd

theorem csiPacket_type_skipped (he : k.dt ≠ 0x12) (ht : k.dt ≠ s.fld (ingReg i 4) 22 17 ∨ dtBits k.dt = 0) :
    exec (.csiPacket i k) s = .next (s.countUp (ingReg i 0x78) 1) := by
  rw [exec_csiPacket_channel hon hh hv, if_neg (by omega), if_neg (by omega), if_pos ⟨he, ht⟩]

variable (ht : s.csiTakes i k)
include ht

theorem exec_csiPacket_taken :
    exec (.csiPacket i k) s = .next (if !k.crcOk then s.csiError i else s.csiData i k) := by
  have htaken : ¬(k.dt ≠ 0x12 ∧ (k.dt ≠ s.fld (ingReg i 4) 22 17 ∨ dtBits k.dt = 0)) := by
    rintro ⟨he, hn⟩
    rcases ht with h | ⟨hp, hb⟩
    · exact he h
    · exact hn.elim (fun h => h hp) hb
  rw [exec_csiPacket_channel hon hh hv, if_neg (by omega), if_neg (by omega), if_neg htaken]

theorem csiPacket_crc_errs (hc : k.crcOk = false) : exec (.csiPacket i k) s = .next (s.csiError i) := by
  rw [exec_csiPacket_taken hon hh hv hd ht, if_pos (by rw [hc]; rfl)]

theorem csiPacket_enters_data (hc : k.crcOk = true) : exec (.csiPacket i k) s = .next (s.csiData i k) := by
  rw [exec_csiPacket_taken hon hh hv hd ht, if_neg (by rw [hc]; decide)]

end

/-! ## Camera frames (R338) and the stamp offset (R337) -/

section
variable {s : State} {i vc : Nat}

theorem frameStart_off (hoff : s.pipeOn i = false) : exec (.frameStart i vc) s = .next s :=
  congrArg Host.Outcome.next (if_neg (by rw [hoff]; decide))

theorem exec_frameStart_on (hon : s.pipeOn i = true) : exec (.frameStart i vc) s = .next (s.frameStart i vc) :=
  congrArg Host.Outcome.next (if_pos hon)

theorem frameStart_opens (hon : s.pipeOn i = true) (hv : vc = s.fld (ingReg i 4) 26 23) :
    exec (.frameStart i vc) s = .next ((if (s.pipe i).frame.isSome then s.frameDrop i else s).frameOpen i) := by
  rw [exec_frameStart_on hon, State.frameStart, if_neg (not_not_intro hv)]

theorem frameStart_channel_skipped (hon : s.pipeOn i = true) (hv : vc ≠ s.fld (ingReg i 4) 26 23) :
    exec (.frameStart i vc) s = .next (s.countUp (ingReg i 0x78) 1) := by
  rw [exec_frameStart_on hon, State.frameStart, if_pos hv]

end

section
variable {s : State} {i : Nat} {f : PipeFrame} (hf : (s.pipe i).frame = some f)
include hf

theorem exec_frameComplete_open :
    exec (.frameComplete i) s =
      .next (if !s.pipeOn i || !(decide ((s.pipeCfg i).h ≤ f.lines.length) || f.ended) then s
        else if decide ((s.pipeCfg i).h ≤ f.lines.length) && !f.bad then
          (if s.frameHeld i f then s.frameOverrun i else s.frameDone i f)
        else s.frameDrop i) := by
  change execFrameComplete i s = _
  simp only [execFrameComplete, hf]

theorem frameComplete_open_waits (h : s.pipeOn i = false ∨ (f.lines.length < (s.pipeCfg i).h ∧ f.ended = false)) :
    exec (.frameComplete i) s = .next s := by
  rw [exec_frameComplete_open hf, if_pos]
  rcases h with hoff | ⟨hl, he⟩
  · rw [hoff]; rfl
  · rw [decide_eq_false hl.not_ge, he, Bool.or_self, Bool.not_false, Bool.or_true]

variable (hon : s.pipeOn i = true)
include hon

/-- A frame that has ended, by its lines or by its frame-end packet, at a pipe that works. -/
theorem exec_frameComplete_ended (h : (s.pipeCfg i).h ≤ f.lines.length ∨ f.ended = true) :
    exec (.frameComplete i) s =
      .next (if decide ((s.pipeCfg i).h ≤ f.lines.length) && !f.bad then
          (if s.frameHeld i f then s.frameOverrun i else s.frameDone i f)
        else s.frameDrop i) := by
  have hend : (decide ((s.pipeCfg i).h ≤ f.lines.length) || f.ended) = true := by
    rw [Bool.or_eq_true, decide_eq_true_iff]; exact h
  rw [exec_frameComplete_open hf, if_neg (by rw [hon, hend]; decide)]

theorem frameComplete_drops (h : (s.pipeCfg i).h ≤ f.lines.length ∨ f.ended = true)
    (hbad : f.lines.length < (s.pipeCfg i).h ∨ f.bad = true) : exec (.frameComplete i) s = .next (s.frameDrop i) := by
  rw [exec_frameComplete_ended hf hon h, if_neg]
  rcases hbad with hl | hb
  · rw [decide_eq_false hl.not_ge]; exact Bool.false_ne_true
  · rw [hb, Bool.not_true, Bool.and_false]; exact Bool.false_ne_true

variable (hl : (s.pipeCfg i).h ≤ f.lines.length) (hb : f.bad = false)
include hl hb

theorem exec_frameComplete_good :
    exec (.frameComplete i) s = .next (if s.frameHeld i f then s.frameOverrun i else s.frameDone i f) := by
  rw [exec_frameComplete_ended hf hon (.inl hl), if_pos (by rw [decide_eq_true hl, hb]; rfl)]

theorem frameComplete_overruns (hh : s.frameHeld i f = true) : exec (.frameComplete i) s = .next (s.frameOverrun i) := by
  rw [exec_frameComplete_good hf hon hl hb, if_pos hh]

theorem frameComplete_completes (hh : s.frameHeld i f = false) : exec (.frameComplete i) s = .next (s.frameDone i f) := by
  rw [exec_frameComplete_good hf hon hl hb, if_neg (by rw [hh]; decide)]

end

theorem frameComplete_waits (s : State) (i : Nat)
    (h : ∀ f, (s.pipe i).frame = some f → s.pipeOn i = false ∨ (f.lines.length < (s.pipeCfg i).h ∧ f.ended = false)) :
    exec (.frameComplete i) s = .next s := by
  cases hf : (s.pipe i).frame with
  | some f => exact frameComplete_open_waits hf (h f hf)
  | none =>
    change execFrameComplete i s = _
    simp only [execFrameComplete, hf]

theorem ingStampOfs_writes (s : State) (r : Requester) (i v : Nat) (hi : i < s.nCameras) (ho : (s.camOwner i).isSome = true)
    (hs : s.regsWf = true) :
    completes (.ingStampOfs r i v) s fun t => t.rd (ingReg i 0x50) = v % 2 ^ 32 ∧
      onlyRegs s { t with lateRegs := s.lateRegs } [ingReg i 0x50] ∧ t = s.wrLate s.ct (ingReg i 0x50) v :=
  ⟨_, congrArg Host.Outcome.next (if_pos (by rw [decide_eq_true hi, ho]; rfl)), State.rd_wr_same s _ _ hs, onlyRegs_wr s _ _, rfl⟩

theorem ingStampOfs_unowned (s : State) (r : Requester) (i v : Nat) (h : s.nCameras ≤ i ∨ s.camOwner i = none) :
    exec (.ingStampOfs r i v) s = .next s := by
  refine congrArg Host.Outcome.next (if_neg ?_)
  rcases h with hi | ho
  · rw [decide_eq_false hi.not_gt]; exact Bool.false_ne_true
  · rw [ho, Option.isSome_none, Bool.and_false]; exact Bool.false_ne_true

/-! ## Ethernet frames and point buffers (R340 to R342, R359) -/

/-- Where a frame at MAC e goes in state u: its points to a buffer, nowhere, or to the receive ring of partition S (R340, R341). -/
def State.frameTo (u : State) (e t flags : Nat) (f : List Byte) : ParseRes → State
  | .take d => u.pointPacket e t d
  | .drop => u.parseDrop e
  | .other => (u.rxPut e flags 1024 f).send (.scIrq (5 + 2 * e))

section
variable {s u : State} {e age : Nat} {f : List Byte} {b : Bool}

theorem ethFrame_not_received (crc : Bool) (h : 4 ≤ e ∨ bit (s.rd (macReg e 0)) 0 = false ∨ f.length < 14 ∨ 9216 < f.length) :
    exec (.ethFrame e f ⟨crc, age⟩) s = .next s := by
  refine congrArg Host.Outcome.next (if_neg ?_)
  rintro ⟨he, hm, hmax, hmin⟩
  rcases h with h | h | h | h
  · omega
  · exact Bool.false_ne_true (h.symm.trans hm)
  · omega
  · omega

variable (he : e < 4) (hm : bit (s.rd (macReg e 0)) 0 = true) (hmin : 14 ≤ f.length) (hmax : f.length ≤ 9216)
include he hm hmin hmax

theorem ethFrame_crc_to_ring :
    exec (.ethFrame e f ⟨false, age⟩) s = .next ((s.rxPut e 4 1024 f).send (.scIrq (5 + 2 * e))) :=
  congrArg Host.Outcome.next (if_pos ⟨he, hm, hmax, hmin⟩)

variable (hs : s.stampFrame e false f age = (b, u))
include hs

/-- A frame without an error, stamped, goes where its parser says; without an owner no parser works. -/
theorem exec_ethFrame_good :
    exec (.ethFrame e f ⟨true, age⟩) s =
      .next (u.frameTo e (s.timeAgo age) (b2n b * 8) f (if (s.ethOwner e).isSome then parseFrame (s.template e) f else .other)) := by
  change execEthFrame e f ⟨true, age⟩ s = _
  rw [execEthFrame, if_pos ⟨he, hm, hmax, hmin⟩]
  simp only [Bool.true_and, if_true, hs, Bool.not_true, b2n, Bool.false_eq_true, if_false, Nat.zero_mul, Nat.zero_add]
  generalize (if (s.ethOwner e).isSome = true then parseFrame (s.template e) f else ParseRes.other) = res
  cases res <;> rfl

theorem ethFrame_unowned_to_ring (ho : s.ethOwner e = none) :
    exec (.ethFrame e f ⟨true, age⟩) s = .next ((u.rxPut e (b2n b * 8) 1024 f).send (.scIrq (5 + 2 * e))) := by
  rw [exec_ethFrame_good he hm hmin hmax hs, ho, Option.isSome_none, if_neg Bool.false_ne_true, State.frameTo]

theorem ethFrame_parsed (ho : (s.ethOwner e).isSome = true) :
    completes (.ethFrame e f ⟨true, age⟩) s fun t =>
      (∀ d, parseFrame (s.template e) f = .take d → t = u.pointPacket e (s.timeAgo age) d) ∧
      (parseFrame (s.template e) f = .drop → t = u.parseDrop e) ∧
      (parseFrame (s.template e) f = .other → t = (u.rxPut e (b2n b * 8) 1024 f).send (.scIrq (5 + 2 * e))) := by
  refine ⟨_, exec_ethFrame_good he hm hmin hmax hs, ?_⟩
  rw [if_pos ho]
  exact ⟨fun d hp => by rw [hp, State.frameTo], fun hp => by rw [hp, State.frameTo], fun hp => by rw [hp, State.frameTo]⟩

end

section
variable {s : State} {e : Nat}

theorem bufferClose_closes (hb : (s.parser e).buf.isSome = true) (ho : (s.ethOwner e).isSome = true)
    (ht : reached s.time (s.closeAt e) = true) : exec (.bufferClose e) s = .next (s.pointClose e 1) :=
  congrArg Host.Outcome.next (if_pos (by rw [hb, ho, ht]; rfl))

theorem bufferClose_waits (h : (s.parser e).buf = none ∨ s.ethOwner e = none ∨ reached s.time (s.closeAt e) = false) :
    exec (.bufferClose e) s = .next s := by
  refine congrArg Host.Outcome.next (if_neg ?_)
  rw [Bool.and_eq_true, Bool.and_eq_true]
  rintro ⟨⟨hb, ho⟩, ht⟩
  rcases h with h | h | h
  · rw [h] at hb; exact Bool.false_ne_true hb
  · rw [h] at ho; exact Bool.false_ne_true ho
  · exact Bool.false_ne_true (h.symm.trans ht)

end

/-! ## Strained inputs (R343) -/

section
variable {s : State} {n : Nat} {l a : Bool}

theorem strainerAccept_off (hoff : s.strOn n = false) : exec (.strainerAccept n l) s = .next s :=
  congrArg Host.Outcome.next (if_pos (by rw [hoff]; rfl))

variable (hon : s.strOn n = true) (ha : a = (l != bit (s.rd (strReg n 0)) 0))
include hon ha

theorem exec_strainerAccept_on :
    exec (.strainerAccept n l) s = .next (if a == (s.strain n).level then s.countUp (strReg n 0xC) 1 else s.strAccept n a) := by
  subst ha
  exact congrArg Host.Outcome.next (if_neg (by rw [hon]; decide))

theorem strainerAccept_accepts (hl : a ≠ (s.strain n).level) : exec (.strainerAccept n l) s = .next (s.strAccept n a) := by
  rw [exec_strainerAccept_on hon ha, if_neg (by rwa [beq_iff_eq])]

theorem strainerAccept_counts_short (hl : a = (s.strain n).level) :
    exec (.strainerAccept n l) s = .next (s.countUp (strReg n 0xC) 1) := by
  rw [exec_strainerAccept_on hon ha, if_pos (by rwa [beq_iff_eq])]

end

section
variable {s : State} {n a : Nat}

/-- Whether the minimum interval of instance n that began at a has ended with skipped changes to report. -/
def State.minIvDue (s : State) (n a : Nat) : Prop :=
  s.strOn n = true ∧ bit (s.rd (strReg n 0)) 1 = true ∧ (s.strain n).changes ≠ 0 ∧ a + s.minIv n ≤ s.strNow n

/-- Whether instance n, active since a, has been so for MAX_ACT units and has not been reported for it. -/
def State.stuckDue (s : State) (n a : Nat) : Prop :=
  s.strOn n = true ∧ s.maxAct n ≠ 0 ∧ a + s.maxAct n ≤ s.strNow n ∧ bit (s.rd (strReg n 8)) 30 = false

theorem exec_minIvEnd_since (ha : (s.strain n).lastAt = some a) :
    exec (.minIvEnd n) s =
      .next (if s.strOn n && bit (s.rd (strReg n 0)) 1 && (s.strain n).changes != 0 && decide (a + s.minIv n ≤ s.strNow n) then
          s.strIvEnd n
        else s) := by
  change execMinIvEnd n s = _
  simp only [execMinIvEnd, ha]

theorem minIvEnd_ends (ha : (s.strain n).lastAt = some a) (h : s.minIvDue n a) : exec (.minIvEnd n) s = .next (s.strIvEnd n) := by
  obtain ⟨hon, hlevel, hch, hdue⟩ := h
  rw [exec_minIvEnd_since ha, if_pos (by rw [hon, hlevel, bne_iff_ne.mpr hch, decide_eq_true hdue]; rfl)]

theorem minIvEnd_waits (h : ∀ a, (s.strain n).lastAt = some a → ¬ s.minIvDue n a) : exec (.minIvEnd n) s = .next s := by
  cases ha : (s.strain n).lastAt with
  | none =>
    change execMinIvEnd n s = _
    simp only [execMinIvEnd, ha]
  | some a =>
    rw [exec_minIvEnd_since ha, if_neg]
    simp only [Bool.and_eq_true, bne_iff_ne, decide_eq_true_eq]
    rintro ⟨⟨⟨hon, hlevel⟩, hch⟩, hdue⟩
    exact h a ha ⟨hon, hlevel, hch, hdue⟩

theorem exec_strainerStuck_since (ha : (s.strain n).activeAt = some a) :
    exec (.strainerStuck n) s =
      .next (if s.strOn n && s.maxAct n != 0 && decide (a + s.maxAct n ≤ s.strNow n) && !bit (s.rd (strReg n 8)) 30 then
          (s.orReg (strReg n 8) (2 ^ 31 + 2 ^ 30)).raise .strainerStuck 7 { unit := n }
        else s) := by
  change execStrainerStuck n s = _
  simp only [execStrainerStuck, ha]

theorem strainerStuck_reports (ha : (s.strain n).activeAt = some a) (h : s.stuckDue n a) :
    exec (.strainerStuck n) s = .next ((s.orReg (strReg n 8) (2 ^ 31 + 2 ^ 30)).raise .strainerStuck 7 { unit := n }) := by
  obtain ⟨hon, hmax, hdue, hnew⟩ := h
  rw [exec_strainerStuck_since ha, if_pos (by rw [hon, bne_iff_ne.mpr hmax, decide_eq_true hdue, hnew]; rfl)]

theorem strainerStuck_waits (h : ∀ a, (s.strain n).activeAt = some a → ¬ s.stuckDue n a) : exec (.strainerStuck n) s = .next s := by
  cases ha : (s.strain n).activeAt with
  | none =>
    change execStrainerStuck n s = _
    simp only [execStrainerStuck, ha]
  | some a =>
    rw [exec_strainerStuck_since ha, if_neg]
    simp only [Bool.and_eq_true, Bool.not_eq_true', bne_iff_ne, decide_eq_true_eq]
    rintro ⟨⟨⟨hon, hmax⟩, hdue⟩, hnew⟩
    exact h a ha ⟨hon, hmax, hdue, hnew⟩

theorem not_minIvDue (h : s.strOn n = false ∨ bit (s.rd (strReg n 0)) 1 = false ∨ (s.strain n).changes = 0 ∨ s.strNow n < a + s.minIv n) :
    ¬ s.minIvDue n a := by
  rintro ⟨hon, hlevel, hch, hdue⟩
  rcases h with h | h | h | h
  · exact Bool.false_ne_true (h.symm.trans hon)
  · exact Bool.false_ne_true (h.symm.trans hlevel)
  · exact hch h
  · omega

theorem not_stuckDue (h : s.strOn n = false ∨ s.maxAct n = 0 ∨ s.strNow n < a + s.maxAct n ∨ bit (s.rd (strReg n 8)) 30 = true) :
    ¬ s.stuckDue n a := by
  rintro ⟨hon, hmax, hdue, hnew⟩
  rcases h with h | h | h | h
  · exact Bool.false_ne_true (h.symm.trans hon)
  · exact hmax h
  · omega
  · exact Bool.false_ne_true (hnew.symm.trans h)

end

/-- Settles O23: a packet by its header, channel, type and CRC, a frame by its lines, an Ethernet frame by its template, and each
strained input by its level and time, then where each does nothing. -/
theorem ingestCommands : Obligations.IngestCommands :=
  ⟨fun _ _ _ => csiPacket_header_errs, fun _ _ _ => csiPacket_channel_skipped, fun _ _ _ => csiPacket_starts_frame,
    fun _ _ _ => csiPacket_ends_frame, fun _ _ _ => csiPacket_type_skipped, fun _ _ _ => csiPacket_crc_errs,
    fun _ _ _ => csiPacket_enters_data, fun _ _ _ => frameStart_opens, fun _ _ _ => frameStart_channel_skipped,
    fun _ _ _ => frameComplete_overruns, frameComplete_waits, fun _ _ _ => frameComplete_completes, fun _ _ _ => frameComplete_drops,
    ingStampOfs_writes, ingStampOfs_unowned, fun _ _ _ => csiPacket_off, fun _ _ _ => frameStart_off,
    fun _ _ _ _ _ _ he hm hmin hmax ho hs => ethFrame_unowned_to_ring he hm hmin hmax hs ho, fun _ _ _ _ => ethFrame_crc_to_ring,
    fun _ _ _ _ _ _ he hm hmin hmax ho hs => ethFrame_parsed he hm hmin hmax hs ho, fun _ _ => bufferClose_closes,
    fun _ _ _ _ => ethFrame_not_received, fun _ _ => bufferClose_waits, fun _ _ _ => strainerAccept_off,
    fun _ _ h => minIvEnd_waits fun a ha => not_minIvDue (h a ha), fun _ _ h => strainerStuck_waits fun a ha => not_stuckDue (h a ha),
    fun _ _ _ _ => strainerAccept_accepts, fun _ _ _ _ => strainerAccept_counts_short,
    fun _ _ _ ha hon hlevel hch hdue => minIvEnd_ends ha ⟨hon, hlevel, hch, hdue⟩,
    fun _ _ _ ha hon hmax hdue hnew => strainerStuck_reports ha ⟨hon, hmax, hdue, hnew⟩⟩

end Sys2Proof.Machine
end

section
/-! SUPPORT. Determinism (R324, R328, R330, R331): a SEED of the mailbox by the step it names, the clears of the counters by what the tick
has counted, and who may ask for them. -/

namespace Sys2Proof.Machine

/-! ## Register pairs -/

section
variable (s : State) (a v : Nat) (hs : s.regsWf = true)
include hs

theorem State.rd_wr64_lo : (s.wr64 a v).rd a = v % 2 ^ 32 := by
  rw [State.wr64, State.rd_wr_other _ _ _ _ (by omega), State.rd_wr_same s _ _ hs, Nat.mod_mod]

theorem State.rd_wr64_hi : (s.wr64 a v).rd (a + 4) = v / 2 ^ 32 % 2 ^ 32 := by
  rw [State.wr64, State.rd_wr_same _ _ _ (s.wr_regsWf _ _ hs), Nat.mod_mod]

theorem State.wr64_regsWf : (s.wr64 a v).regsWf = true := State.wr_regsWf _ _ _ (s.wr_regsWf _ _ hs)

end

/-- Offsets within a partition's determinism block add up. -/
theorem detReg_add (p o n : Nat) : detReg p o + n = detReg p (o + n) := by
  simp only [detReg, stReg, Nat.add_assoc]

/-! ## SEED (R324, R330) -/

section
variable (s : State) (ring idx : Nat) (k : Cmd)

theorem exec_seed_taken (hk : s.mbCmd ring idx 0x09 = some k) :
    exec (.seed ring idx) s = .next ((s.begin_ ring idx).seedCmd ring idx k) :=
  congrArg Host.Outcome.next (State.mbox_taken _ hk)

theorem seed_not_there (hk : s.mbCmd ring idx 0x09 = none) : exec (.seed ring idx) s = .next s :=
  congrArg Host.Outcome.next (State.mbox_none _ hk)

theorem seed_no_partition (hk : s.mbCmd ring idx 0x09 = some k) (hp : 4 ≤ k.part) :
    exec (.seed ring idx) s = .next ((s.begin_ ring idx).complete ring idx stInvalid 0 0) := by
  rw [exec_seed_taken s ring idx k hk, State.seedCmd, if_pos hp]

theorem seed_step_built (hk : s.mbCmd ring idx 0x09 = some k) (hp : k.part < 4) (h0 : 0 < k.arg 0x10 8)
    (hb : k.arg 0x10 8 ≤ (s.begin_ ring idx).rd64 (stReg (0x2008 + 0x40 * k.part))) :
    exec (.seed ring idx) s = .next ((s.begin_ ring idx).complete ring idx stRefused 0 0) := by
  rw [exec_seed_taken s ring idx k hk, State.seedCmd, if_neg hp.not_ge]
  exact congrArg Host.Outcome.next (if_pos ⟨h0.ne', hb⟩)

theorem seed_held (hk : s.mbCmd ring idx 0x09 = some k) (hp : k.part < 4)
    (hb : k.arg 0x10 8 = 0 ∨ (s.begin_ ring idx).rd64 (stReg (0x2008 + 0x40 * k.part)) < k.arg 0x10 8) :
    exec (.seed ring idx) s = .next ((s.begin_ ring idx).hold
      { ring := ring, idx := idx, part := k.part, apply := k.arg 0x10 8, due := false, seed := some (k.arg 0x18 8), seq := 0, entry := [] }) := by
  rw [exec_seed_taken s ring idx k hk, State.seedCmd, if_neg hp.not_ge]
  exact congrArg Host.Outcome.next (if_neg fun ⟨h0, hle⟩ => hb.elim h0 hle.not_gt)

end

/-! ## ND_CLEAR (R328) -/

section
variable (s : State) (ring idx : Nat) (k : Cmd)

theorem exec_ndClear_taken (hk : s.mbCmd ring idx 0x0B = some k) :
    exec (.ndClear ring idx) s = .next ((s.begin_ ring idx).ndClear ring idx k) :=
  congrArg Host.Outcome.next (State.mbox_taken _ hk)

theorem ndClear_not_there (hk : s.mbCmd ring idx 0x0B = none) : exec (.ndClear ring idx) s = .next s :=
  congrArg Host.Outcome.next (State.mbox_none _ hk)

theorem ndClear_invalid (hk : s.mbCmd ring idx 0x0B = some k) (h : 4 ≤ k.part ∨ 4 ≤ k.arg 8 8) :
    exec (.ndClear ring idx) s = .next ((s.begin_ ring idx).complete ring idx stInvalid 0 0) := by
  rw [exec_ndClear_taken s ring idx k hk]
  exact congrArg Host.Outcome.next (if_pos h)

theorem ndClear_clears (u : State) (hk : s.mbCmd ring idx 0x0B = some k) (hp : k.part < 4) (hm : k.arg 8 8 < 4)
    (hu : u = if bit (k.arg 8 8) 0 then (s.begin_ ring idx).clearTiming k.part else s.begin_ ring idx) :
    exec (.ndClear ring idx) s = .next ((if bit (k.arg 8 8) 1 then u.clearValue k.part else u).complete ring idx stOk 0 0) := by
  rw [exec_ndClear_taken s ring idx k hk, hu]
  exact congrArg Host.Outcome.next (if_neg (not_or.mpr ⟨hp.not_ge, hm.not_ge⟩))

end

/-! ## Writes of ST_DET_CTRL (R328, R331) -/

section
variable {r : Requester} {p : Nat}

/-- Who may write ST_DET_CTRL: the Steward, for one of the four partitions. -/
theorem detCtrl_granted_iff : (r == .steward && decide (p < 4)) = true ↔ r = .steward ∧ p < 4 := by
  rw [Bool.and_eq_true, beq_iff_eq, decide_eq_true_eq]

theorem detCtrl_denied (h : r ≠ .steward ∨ 4 ≤ p) : ¬ (r == .steward && decide (p < 4)) = true := by
  rw [detCtrl_granted_iff]
  rintro ⟨hr, hp⟩
  exact h.elim (· hr) hp.not_ge

end

section
variable (s : State) (r : Requester) (p : Nat)

theorem clrTiming_ignored (h : r ≠ .steward ∨ 4 ≤ p) : exec (.clrTiming r p) s = .next s :=
  congrArg Host.Outcome.next (if_neg (detCtrl_denied h))

theorem clrValue_ignored (h : r ≠ .steward ∨ 4 ≤ p) : exec (.clrValue r p) s = .next s :=
  congrArg Host.Outcome.next (if_neg (detCtrl_denied h))

/-- ND_TIMING cleared holds the timing events of this tick, and only its pair has changed. -/
theorem clrTiming_clears (n : Nat) (hp : p < 4) (hs : s.regsWf = true)
    (hn : n = (s.now.nd.filter fun e => e.1 == p && e.2 == 0).length) :
    completes (.clrTiming .steward p) s fun t =>
      t.rd (detReg p 8) = n % 2 ^ 32 ∧ t.rd (detReg p 0xC) = n / 2 ^ 32 % 2 ^ 32 ∧ onlyRegs s t [detReg p 8, detReg p 0xC] := by
  have hpair : detReg p 8 + 4 = detReg p 0xC := detReg_add p 8 4
  refine ⟨s.wr64 (detReg p 8) n, ?_, s.rd_wr64_lo _ n hs, hpair ▸ s.rd_wr64_hi _ n hs, hpair ▸ onlyRegs_wr64 s _ n⟩
  rw [hn]
  exact congrArg Host.Outcome.next (if_pos (detCtrl_granted_iff.mpr ⟨rfl, hp⟩))

/-- ND_VALUE cleared holds the value events of this tick, its first record is the first of them, and nothing else has changed. -/
theorem clrValue_clears (v : Nat) (l : List (Nat × Nat)) (hp : p < 4) (hs : s.regsWf = true)
    (hl : l = s.now.nd.filter fun e => e.1 == p && e.2 != 0) (hv : v = (l.head?.map Prod.snd).getD 0) :
    completes (.clrValue .steward p) s fun t =>
      t.rd (detReg p 0x20) = v % 2 ^ 32 ∧ onlyRegs s t [detReg p 0x10, detReg p 0x14, detReg p 0x20] ∧
        t = (s.wr64 (detReg p 0x10) l.length).wr (detReg p 0x20) v := by
  have hpair : detReg p 0x10 + 4 = detReg p 0x14 := detReg_add p 0x10 4
  refine ⟨(s.wr64 (detReg p 0x10) l.length).wr (detReg p 0x20) v, ?_, State.rd_wr_same _ _ _ (s.wr64_regsWf _ _ hs),
    hpair ▸ onlyRegs_trans (onlyRegs_wr64 s _ _) (onlyRegs_wr _ _ _), rfl⟩
  rw [hv, hl]
  exact congrArg Host.Outcome.next (if_pos (detCtrl_granted_iff.mpr ⟨rfl, hp⟩))

end

/-- Settles O22: SEED by the step it names, ND_CLEAR by its partition and mask, the Steward's clears, and what changes nothing. -/
theorem determinismCommands : Obligations.DeterminismCommands :=
  ⟨seed_no_partition, seed_step_built, seed_held, ndClear_invalid, ndClear_clears, clrTiming_clears, clrValue_clears, clrTiming_ignored,
    clrValue_ignored, seed_not_there, ndClear_not_there⟩

end Sys2Proof.Machine
end

section
/-! SUPPORT. The step (R348, 95_what_each_step_holds.md): every command but a power-up keeps what `Kept` names, a power-up restarts it, and
an idle nanosecond moves the clocks; from these, what every step and every queue of commands leaves. -/

namespace Sys2Proof.Machine

/-! ## One command -/

/-- What a power-up leaves: the queue and canonical forms, and the always-on clock, raw time and the accumulator at 0 (R348, R349). -/
structure Restarted (s t : State) : Prop where
  pending : t.pending = s.pending
  aon : t.clock.aon = 0
  mem : t.mem.wf = true
  regs : s.regsWf = true → t.regsWf = true
  time : t.tb.zero

theorem exec_powerUp (s : State) (n : Nat) (u : State)
    (hu : u = if s.fld (urnReg 0xA018) 31 28 = 4 then { s with caddy := { s.caddy with flash := [] } } else s) :
    exec (.powerUp n) s = .next ((u.rebirth otpReg).wr (ckReg 0) (if 1000 ≤ n then 2 ^ 30 else 0)) := by
  subst hu
  rfl

/-- A flash rewrite that a power-up meets is lost (R474); the queue and the registers are those of before. -/
theorem flashLost_fields (s : State) {c : Prop} [Decidable c] :
    (if c then { s with caddy := { s.caddy with flash := [] } } else s).pending = s.pending ∧
      (if c then { s with caddy := { s.caddy with flash := [] } } else s).regs = s.regs := by
  split <;> exact ⟨rfl, rfl⟩

theorem powerUp_restarts (s : State) (n : Nat) : completes (.powerUp n) s (Restarted s) := by
  obtain ⟨hpending, hregs⟩ := flashLost_fields s (c := s.fld (urnReg 0xA018) 31 28 = 4)
  exact ⟨_, exec_powerUp s n _ rfl, hpending, rfl, rfl,
    fun h => State.wr_regsWf _ _ _ (State.rebirth_regs ((congrArg (sparseWf regReset) hregs).trans h)), rfl, rfl⟩

/-- Each command but a power-up answers a state that keeps what `Kept` names, by the law of its meaning. -/
theorem exec_kept (c : Instr) (s : State) (hc : ∀ n, c ≠ .powerUp n) : completes c s (Kept s) := by
  have h := Kept.refl s
  cases c with
  | registerWrite => exact execRegisterWrite_kept h
  | counterLowRead => exact execCounterLowRead_kept h
  | siSubmit => exact execSiSubmit_kept h
  | imageAcceptance => exact execImageAcceptance_kept h
  | hotSwitch => exact execHotSwitch_kept h
  | siRevert => exact execSiRevert_kept h
  | panel => exact execPanel_kept h
  | anchor => exact execAnchor_kept h
  | pass => exact execPass_kept h
  | passCommit => exact execPassCommit_kept h
  | drain => exact execDrain_kept h
  | drainComplete => exact execDrainComplete_kept h
  | save => exact execSave_kept h
  | restore => exact execRestore_kept h
  | merge => exact execMerge_kept h
  | mergeComplete => exact execMergeComplete_kept h
  | passAbort => exact execPassAbort_kept h
  | accWrite => exact execAccWrite_kept h
  | arrCtrlStop r => exact execArrCtrlStop_kept (_r := r) h
  | arrTileOwnerWrite r => exact execArrTileOwnerWrite_kept (_r := r) h
  | vecStep => exact execVecStep_kept h
  | vecChainWrite => exact execVecChainWrite_kept h
  | correctionWriteBack => exact execCorrectionWriteBack_kept h
  | remoteAccess => exact execRemoteAccess_kept h
  | poolAtomic => exact execPoolAtomic_kept h
  | workCounterFetch => exact execWorkCounterFetch_kept h
  | setFull => exact execSetFull_kept h
  | setEmpty => exact execSetEmpty_kept h
  | rinseScrub => exact execRinseScrub_kept h
  | rinseRegionDone => exact execRinseRegionDone_kept h
  | movDescWrite => exact execMovDescWrite_kept h
  | movPush => exact execMovPush_kept h
  | movAbort => exact execMovAbort_kept h
  | movResume => exact execMovResume_kept h
  | movCtxBind => exact execMovCtxBind_kept h
  | moverPieceIssue => exact execMoverPieceIssue_kept h
  | pieceDelivery => exact execPieceDelivery_kept h
  | timedPieceRelease => exact execTimedPieceRelease_kept h
  | descriptorRetire => exact execDescriptorRetire_kept h
  | tokenRefill => exact execTokenRefill_kept h
  | matmul => exact execMatmul_kept h
  | conv2d => exact execConv2d_kept h
  | dwconv2d => exact execDwconv2d_kept h
  | groupconv2d => exact execGroupconv2d_kept h
  | poolMax => exact execPoolMax_kept h
  | poolAvg => exact execPoolAvg_kept h
  | resize => exact execResize_kept h
  | attnStep => exact execAttnStep_kept h
  | accept => exact execAccept_kept h
  | detect => exact execDetect_kept h
  | elemwise => exact execElemwise_kept h
  | layernorm => exact execLayernorm_kept h
  | rmsnorm => exact execRmsnorm_kept h
  | softmax => exact execSoftmax_kept h
  | reduce => exact execReduce_kept h
  | cast => exact execCast_kept h
  | bounds => exact execBounds_kept h
  | copy => exact execCopy_kept h
  | census => exact execCensus_kept h
  | completionWord => exact execCompletionWord_kept h
  | window => exact execWindow_kept h
  | arrFlush => exact execArrFlush_kept h
  | splitKFallback => exact execSplitKFallback_kept h
  | phase2Item => exact execPhase2Item_kept h
  | countWordRead => exact execCountWordRead_kept h
  | dppJobStart => exact execDppJobStart_kept h
  | dppJobEnd => exact execDppJobEnd_kept h
  | dppTBound => exact execDppTBound_kept h
  | seqSet => exact execSeqSet_kept h
  | stepBuild => exact execStepBuild_kept h
  | stepCommit => exact execStepCommit_kept h
  | appendItem => exact execAppendItem_kept h
  | attendItem => exact execAttendItem_kept h
  | attResume => exact execAttResume_kept h
  | attOverrun => exact execAttOverrun_kept h
  | pageWalk => exact execPageWalk_kept h
  | fenceIssue => exact execFenceIssue_kept h
  | fenceRetire => exact execFenceRetire_kept h
  | bbWindowWrite => exact execBbWindowWrite_kept h
  | lpddr6ZeroFill => exact execLpddr6ZeroFill_kept h
  | minorFrameStart => exact execMinorFrameStart_kept h
  | brewLaunch => exact execBrewLaunch_kept h
  | timedTaskStart => exact execTimedTaskStart_kept h
  | deadlineMiss => exact execDeadlineMiss_kept h
  | ingress => exact execIngress_kept h
  | stagingEnqueue => exact execStagingEnqueue_kept h
  | injectionStop => exact execInjectionStop_kept h
  | swap => exact execSwap_kept h
  | claim => exact execClaim_kept h
  | claimRelease => exact execClaimRelease_kept h
  | taster => exact execTaster_kept h
  | goldenTest => exact execGoldenTest_kept h
  | tasterCompare => exact execTasterCompare_kept h
  | selftest => exact execSelftest_kept h
  | selftestSlice => exact execSelftestSlice_kept h
  | sliceEnd => exact execSliceEnd_kept h
  | sliceAbandon => exact execSliceAbandon_kept h
  | selftestOverdue => exact execSelftestOverdue_kept h
  | publish => exact execPublish_kept h
  | urnAgePub => exact execUrnAgePub_kept h
  | ageCheck => exact execAgeCheck_kept h
  | nocPacket => exact execNocPacket_kept h
  | launch => exact execLaunch_kept h
  | taskGraphLaunch => exact execTaskGraphLaunch_kept h
  | slotAllocate => exact execSlotAllocate_kept h
  | contextSwap => exact execContextSwap_kept h
  | stateImageSave => exact execStateImageSave_kept h
  | load => exact execLoad_kept h
  | loadComplete => exact execLoadComplete_kept h
  | preempt => exact execPreempt_kept h
  | teardown => exact execTeardown_kept h
  | watch => exact execWatch_kept h
  | unwatch => exact execUnwatch_kept h
  | wake => exact execWake_kept h
  | syncSignal => exact execSyncSignal_kept h
  | syncSet => exact execSyncSet_kept h
  | syncPoll => exact execSyncPoll_kept h
  | tilerContextChange => exact execTilerContextChange_kept h
  | seed => exact execSeed_kept h
  | ndClear => exact execNdClear_kept h
  | clrTiming => exact execClrTiming_kept h
  | clrValue => exact execClrValue_kept h
  | csiPacket => exact execCsiPacket_kept h
  | frameStart => exact execFrameStart_kept h
  | frameComplete => exact execFrameComplete_kept h
  | ingStampOfs r => exact execIngStampOfs_kept (_r := r) h
  | ethFrame => exact execEthFrame_kept h
  | bufferClose => exact execBufferClose_kept h
  | strainerAccept => exact execStrainerAccept_kept h
  | minIvEnd => exact execMinIvEnd_kept h
  | strainerStuck => exact execStrainerStuck_kept h
  | resetN => exact execResetN_kept h
  | internalResetRelease => exact execInternalResetRelease_kept h
  | perstN => exact execPerstN_kept h
  | pwrGoodFall => exact execPwrGoodFall_kept h
  | safeIn => exact execSafeIn_kept h
  | tempAlertN => exact execTempAlertN_kept h
  | ppsIn => exact execPpsIn_kept h
  | jump => exact execJump_kept h
  | slew => exact execSlew_kept h
  | tbRate => exact execTbRate_kept h
  | tbIncr => exact execTbIncr_kept h
  | tbTimeRead => exact execTbTimeRead_kept h
  | tbPpsinRawHiRead => exact execTbPpsinRawHiRead_kept h
  | tbTsIdRead => exact execTbTsIdRead_kept h
  | triggerFire => exact execTriggerFire_kept h
  | pulseEnd => exact execPulseEnd_kept h
  | genEnable r => exact execGenEnable_kept (_r := r) h
  | genCfgWrite r => exact execGenCfgWrite_kept (_r := r) h
  | clockCheck => exact execClockCheck_kept h
  | linkTraining => exact execLinkTraining_kept h
  | trainingRetry => exact execTrainingRetry_kept h
  | ident => exact execIdent_kept h
  | linkBlock => exact execLinkBlock_kept h
  | replayRequest => exact execReplayRequest_kept h
  | spoutWrite => exact execSpoutWrite_kept h
  | spoutRead => exact execSpoutRead_kept h
  | spoutAtomic => exact execSpoutAtomic_kept h
  | spoutSignal => exact execSpoutSignal_kept h
  | ack => exact execAck_kept h
  | data => exact execData_kept h
  | error => exact execError_kept h
  | calibExchange => exact execCalibExchange_kept h
  | calib => exact execCalib_kept h
  | arm => exact execArm_kept h
  | arrive => exact execArrive_kept h
  | go => exact execGo_kept h
  | barrierStart => exact execBarrierStart_kept h
  | barrierTimeout => exact execBarrierTimeout_kept h
  | respTimeout => exact execRespTimeout_kept h
  | linkDown => exact execLinkDown_kept h
  | retrain => exact execRetrain_kept h
  | bar2Write => exact execBar2Write_kept h
  | bar2Read => exact execBar2Read_kept h
  | hostServiceTick => exact execHostServiceTick_kept h
  | progLoad => exact execProgLoad_kept h
  | suspend => exact execSuspend_kept h
  | cont => exact execCont_kept h
  | kill => exact execKill_kept h
  | fence => exact execFence_kept h
  | signal => exact execSignal_kept h
  | set => exact execSet_kept h
  | partReset => exact execPartReset_kept h
  | fwStage => exact execFwStage_kept h
  | trigSet => exact execTrigSet_kept h
  | nop => exact execNop_kept h
  | ringCfgWrite => exact execRingCfgWrite_kept h
  | ringReset => exact execRingReset_kept h
  | harts => exact execHarts_kept h
  | scAccess => exact execScAccess_kept h
  | macTransmit => exact execMacTransmit_kept h
  | lpddr6Request => exact execLpddr6Request_kept h
  | mcWriteBack => exact execMcWriteBack_kept h
  | refresh ch bank => exact execRefresh_kept (_ch := ch) (_bank := bank) h
  | temperatureReportRead => exact execTemperatureReportRead_kept h
  | dqsOscillatorRead => exact execDqsOscillatorRead_kept h
  | patrol => exact execPatrol_kept h
  | channelTrainingEnd => exact execChannelTrainingEnd_kept h
  | lockstepMismatch => exact execLockstepMismatch_kept h
  | reportPathFault => exact execReportPathFault_kept h
  | tasterMissed => exact execTasterMissed_kept h
  | safeState => exact execSafeState_kept h
  | deviceSafeState => exact execDeviceSafeState_kept h
  | urnSafeCmdParts => exact execUrnSafeCmdParts_kept h
  | urnSafeCmdDevice => exact execUrnSafeCmdDevice_kept h
  | stSafeCmd => exact execStSafeCmd_kept h
  | errOutReturn => exact execErrOutReturn_kept h
  | faultRaise => exact execFaultRaise_kept h
  | windowExpiry => exact execWindowExpiry_kept h
  | urnSecond => exact execUrnSecond_kept h
  | fcAck => exact execFcAck_kept h
  | fcSwRaise => exact execFcSwRaise_kept h
  | hangContext => exact execHangContext_kept h
  | hangSequencer => exact execHangSequencer_kept h
  | clSeqWdog r => exact execClSeqWdog_kept (_r := r) h
  | hangTask => exact execHangTask_kept h
  | stewardHb => exact execStewardHb_kept h
  | urnHbCheck => exact execUrnHbCheck_kept h
  | stewardRestart => exact execStewardRestart_kept h
  | partitionReset => exact execPartitionReset_kept h
  | resetOverrun => exact execResetOverrun_kept h
  | crashCapture => exact execCrashCapture_kept h
  | crashPartial => exact execCrashPartial_kept h
  | clusterReset => exact execClusterReset_kept h
  | deviceReset => exact execDeviceReset_kept h
  | lastResortTakeover => exact execLastResortTakeover_kept h
  | pmLrsReq => exact execPmLrsReq_kept h
  | autoReset => exact execAutoReset_kept h
  | fwSwitchover => exact execFwSwitchover_kept h
  | confirm => exact execConfirm_kept h
  | fwSwitchFail => exact execFwSwitchFail_kept h
  | flashRewriteEnd => exact execFlashRewriteEnd_kept h
  | recoveryPoll => exact execRecoveryPoll_kept h
  | attest => exact execAttest_kept h
  | certRead => exact execCertRead_kept h
  | ownerEnrol => exact execOwnerEnrol_kept h
  | ownerRevoke => exact execOwnerRevoke_kept h
  | siMinRaise => exact execSiMinRaise_kept h
  | cadExtCmd => exact execCadExtCmd_kept h
  | cadTrngFail => exact execCadTrngFail_kept h
  | pmStateRun => exact execPmStateRun_kept h
  | pmStateTrim => exact execPmStateTrim_kept h
  | pmStateWatch => exact execPmStateWatch_kept h
  | pmStateRetain => exact execPmStateRetain_kept h
  | pmStateOff => exact execPmStateOff_kept h
  | stateEntryComplete => exact execStateEntryComplete_kept h
  | wakeSource => exact execWakeSource_kept h
  | pmWakeReq => exact execPmWakeReq_kept h
  | alarm => exact execAlarm_kept h
  | avs => exact execAvs_kept h
  | thermalSample => exact execThermalSample_kept h
  | ckPllUnlock => exact execCkPllUnlock_kept h
  | railOutOfRange => exact execRailOutOfRange_kept h
  | railTimeout => exact execRailTimeout_kept h
  | pmGpioOut => exact execPmGpioOut_kept h
  | powerUp n => exact absurd rfl (hc n)
  | switchedRailsInRange => exact execSwitchedRailsInRange_kept h
  | pcieLinkTraining => exact execPcieLinkTraining_kept h
  | trngOkReturn => exact execTrngOkReturn_kept h
  | uartReceive u ch => exact execUartReceive_kept (_ch := ch) h

/-- What every command leaves: it keeps the state's forms and time, or is a power-up and restarts them. -/
theorem exec_outcome (c : Instr) (s : State) :
    completes c s fun t => (Kept s t ∧ ∀ n, c ≠ .powerUp n) ∨ ((∃ n, c = .powerUp n) ∧ Restarted s t) := by
  by_cases hc : ∃ n, c = .powerUp n
  · obtain ⟨n, rfl⟩ := hc
    obtain ⟨t, ht, hr⟩ := powerUp_restarts s n
    exact ⟨t, ht, .inr ⟨⟨n, rfl⟩, hr⟩⟩
  · have hc := not_exists.mp hc
    obtain ⟨t, ht, hk⟩ := exec_kept c s hc
    exact ⟨t, ht, .inl ⟨hk, hc⟩⟩

/-- A command answers one state, so what it completes with holds of the state at hand. -/
theorem completes.of_exec {c : Instr} {s t : State} {P : State → Prop} (h : completes c s P) (ht : exec c s = .next t) : P t := by
  obtain ⟨u, hu, hp⟩ := h
  cases hu.symm.trans ht
  exact hp

/-- Settles O40: kept or restarted, the queue is the one it was. -/
theorem everyCommandAnswersNextState : Obligations.EveryCommandAnswersNextState := by
  intro c s
  obtain ⟨t, ht, ⟨hk, -⟩ | ⟨-, hr⟩⟩ := exec_outcome c s
  · exact ⟨t, ht, hk.pending⟩
  · exact ⟨t, ht, hr.pending⟩

/-- Settles O45: a command that keeps the state leaves raw time or restarts it with its domain, and a power-up restarts it. -/
theorem rawTimeOnlyPasses : Obligations.RawTimeOnlyPasses := by
  intro c s t ht
  rcases (exec_outcome c s).of_exec ht with ⟨hk, -⟩ | ⟨-, hr⟩
  · exact hk.time
  · exact .inr hr.time

/-! ## One step -/

/-- Settles O37: the step takes the front command off the queue and runs it. -/
theorem stepRunsFrontCommand : Obligations.StepRunsFrontCommand := fun _ _ => rfl

theorem step_cons {s : State} {c : Instr} {rest : List Instr} (h : s.pending = c :: rest) :
    step s = exec c { s with pending := rest } := by
  simp only [step, h]

/-- After its tick an idle nanosecond applies what the Caddy and the cluster shares still owe, which keeps everything `Kept` names. -/
theorem idle_kept (s : State) : Kept s.tick s.tick.applyExt.endDue := State.endDue_kept (State.applyExt_kept (Kept.refl _))

/-- Settles O44: an idle nanosecond adds one, a power-up starts again at 0, and every other command keeps the clock. -/
theorem alwaysOnClock : Obligations.AlwaysOnClock := by
  intro s t ht
  cases hp : s.pending with
  | nil =>
    cases (step_empty s hp).symm.trans ht
    exact ⟨fun _ => (idle_kept s).aon.trans s.tick_aon, nofun, nofun⟩
  | cons c rest =>
    rw [step_cons hp] at ht
    refine ⟨nofun, ?_, ?_⟩
    · rintro n _ ⟨⟩
      exact ((powerUp_restarts _ n).of_exec ht).aon
    · rintro _ _ ⟨⟩ hc
      exact ((exec_kept c _ hc).of_exec ht).aon

/-- Settles O42: an idle nanosecond writes through the laws of the Caddy and the shares, a command through those of its meaning. -/
theorem stepKeepsCanonicalForms : Obligations.StepKeepsCanonicalForms := by
  intro s t hm hr ht
  cases hp : s.pending with
  | nil =>
    cases (step_empty s hp).symm.trans ht
    obtain ⟨-, hregs, hmem, -⟩ := s.tick_fields
    exact ⟨(idle_kept s).mem (hmem.symm ▸ hm), (idle_kept s).regs ((congrArg (sparseWf regReset) hregs).trans hr)⟩
  | cons c rest =>
    rw [step_cons hp] at ht
    rcases (exec_outcome c _).of_exec ht with ⟨hk, -⟩ | ⟨-, hs⟩
    · exact ⟨hk.mem hm, hk.regs hr⟩
    · exact ⟨hs.mem, hs.regs hr⟩

/-- Settles O43: the state after reset lists no byte, no register and no command. -/
theorem resetIsCanonical : Obligations.ResetIsCanonical := ⟨rfl, rfl, rfl, rfl, rfl⟩

/-! ## A queue of commands -/

/-- A step of a waiting command answers a state whose queue is the rest. -/
theorem step_takes_front {s : State} {c : Instr} {rest : List Instr} (h : s.pending = c :: rest) :
    ∃ t, step s = .next t ∧ t.pending = rest := by
  rw [step_cons h]
  exact everyCommandAnswersNextState c { s with pending := rest }

theorem run_queue (l : List Instr) : ∀ s : State, s.pending = l → ∃ t, core.run l.length s = .next t ∧ State.pending t = [] := by
  induction l with
  | nil => exact fun s h => ⟨s, rfl, h⟩
  | cons c rest ih =>
    intro s h
    obtain ⟨t, ht, hrest⟩ := step_takes_front h
    obtain ⟨u, hu, hempty⟩ := ih t hrest
    refine ⟨u, ?_, hempty⟩
    have hstep : core.step s = .next t := ht
    simp only [List.length_cons, Host.Core.run, hstep]
    exact hu

/-- Settles O41: by induction on the queue, each step taking one command off it. -/
theorem queueRunsEmpty : Obligations.QueueRunsEmpty := fun s => run_queue s.pending s rfl

end Sys2Proof.Machine
end

section
/-! SUPPORT. The timebase (R348 to R361): comparison of times, the recurrence of synthesised time, and its commands, each where it acts
and where it changes nothing. -/

namespace Sys2Proof.Machine

/-! ## Words and integers of 64 bits -/

theorem toSigned64_nonneg_iff (v : Nat) : 0 ≤ toSigned 64 v ↔ v % 2 ^ 64 < 2 ^ 63 := by
  unfold toSigned
  split <;> omega

theorem toSigned_ofSigned64 {q : Int} (h1 : -(2 ^ 63) ≤ q) (h2 : q < 2 ^ 63) : toSigned 64 (ofSigned 64 q) = q := by
  unfold toSigned ofSigned
  split <;> omega

/-- Settles O49: the difference modulo 2^64 is below 2^63 exactly where the first time is not the later one. -/
theorem timesCompareAcrossTheWrap : Obligations.TimesCompareAcrossTheWrap := by
  intro a b hab hba
  unfold reached
  rw [decide_eq_decide, toSigned64_nonneg_iff]
  omega

/-! ## The recurrence (R349) -/

theorem clampLim_eq (v : Int) : clampLim v = max (-549755813) (min 549755813 v) := rfl

theorem clampLim_bounds (v : Int) : -549755813 ≤ clampLim v ∧ clampLim v ≤ 549755813 := by
  rw [clampLim_eq]
  omega

/-- The drive is RATE and the slew share in the direction of what remains. -/
theorem State.tbDrive_eq (s : State) :
    s.tbDrive = toSigned 32 (s.rd (tbReg 0x28)) + s.tb.rem.sign * (s.fld (tbReg 0x3C) 29 0 : Nat) := by
  have hsign : (if s.tb.rem = 0 then 0 else if s.tb.rem > 0 then 1 else -1 : Int) = s.tb.rem.sign := by
    rcases lt_trichotomy s.tb.rem 0 with h | h | h
    · rw [if_neg h.ne, if_neg h.not_gt, Int.sign_eq_neg_one_of_neg h]
    · rw [if_pos h, h, Int.sign_zero]
    · rw [if_neg h.ne', if_pos h, Int.sign_eq_one_of_pos h]
  rw [State.tbDrive, hsign, State.tbRate]

section
variable (t : Tb) {rate drive q : Int} (hq : q = t.sacc + (clampLim drive - rate))

theorem Tb.tick_counters : (t.tick rate drive).raw = t.raw + 1 ∧ (t.tick rate drive).acc = t.acc + clampLim drive ∧
    (t.tick rate drive).offset = toSigned 64 (ofSigned 64 (t.offset + t.jump)) ∧ (t.tick rate drive).jump = 0 := ⟨rfl, rfl, rfl, rfl⟩

include hq

/-- The slew accumulator carries up: one nanosecond of what remains has been slewed. -/
theorem Tb.tick_slew_up (h : 2 ^ 40 ≤ q) :
    (t.tick rate drive).rem = t.rem - 1 ∧ (t.tick rate drive).sacc = if t.rem - 1 = 0 then 0 else q - 2 ^ 40 := by
  have hup : decide (t.sacc + (clampLim drive - rate) ≥ 2 ^ 40) = true := decide_eq_true (hq ▸ h)
  have hdn : decide (t.sacc + (clampLim drive - rate) - 2 ^ 40 ≤ -(2 ^ 40)) = false := decide_eq_false (by omega)
  simp only [Tb.tick, hup, hdn, if_true, Bool.false_eq_true, if_false, hq, and_self]

/-- The slew accumulator carries down: one nanosecond of a negative rest has been slewed. -/
theorem Tb.tick_slew_down (h : q ≤ -(2 ^ 40)) :
    (t.tick rate drive).rem = t.rem + 1 ∧ (t.tick rate drive).sacc = if t.rem + 1 = 0 then 0 else q + 2 ^ 40 := by
  have hup : decide (t.sacc + (clampLim drive - rate) ≥ 2 ^ 40) = false := decide_eq_false (by omega)
  have hdn : decide (t.sacc + (clampLim drive - rate) ≤ -(2 ^ 40)) = true := decide_eq_true (hq ▸ h)
  simp only [Tb.tick, hup, hdn, if_true, Bool.false_eq_true, if_false, hq, and_self]

/-- Without a carry what remains stays, and the accumulator takes the share. -/
theorem Tb.tick_slew_within (h : -(2 ^ 40) < q ∧ q < 2 ^ 40) :
    (t.tick rate drive).rem = t.rem ∧ (t.tick rate drive).sacc = if t.rem = 0 then 0 else q := by
  have hup : decide (t.sacc + (clampLim drive - rate) ≥ 2 ^ 40) = false := decide_eq_false (by omega)
  have hdn : decide (t.sacc + (clampLim drive - rate) ≤ -(2 ^ 40)) = false := decide_eq_false (by omega)
  simp only [Tb.tick, hup, hdn, Bool.false_eq_true, if_false, hq, and_self]

omit hq

/-- Without a jump synthesised time, before it wraps, moves on by 0 to 2 ns: the rate is below one part in 2^40 of a nanosecond. -/
theorem Tb.tick_time_advances (hj : t.jump = 0) (ho : -(2 ^ 63) ≤ t.offset ∧ t.offset < 2 ^ 63) :
    t.offset + t.raw + t.acc / 2 ^ 40 ≤ (t.tick rate drive).offset + (t.tick rate drive).raw + (t.tick rate drive).acc / 2 ^ 40 ∧
    (t.tick rate drive).offset + (t.tick rate drive).raw + (t.tick rate drive).acc / 2 ^ 40 ≤ t.offset + t.raw + t.acc / 2 ^ 40 + 2 := by
  obtain ⟨hraw, hacc, hoff, -⟩ := t.tick_counters (rate := rate) (drive := drive)
  obtain ⟨hlo, hhi⟩ := clampLim_bounds drive
  rw [hj, add_zero, toSigned_ofSigned64 ho.1 ho.2] at hoff
  rw [hraw, hacc, hoff]
  generalize clampLim drive = e at hlo hhi ⊢
  push_cast
  omega

end

/-- In a powered nanosecond in which no cluster share ends, the timebase ticks and nothing else moves it. -/
theorem idle_tb {s : State} (hp : s.pmState < 3) (hd : ∀ e ∈ s.ending, s.tick.ct < e.2.2.2) :
    s.tick.applyExt.endDue.tb = s.tb.tick s.tbRate s.tbDrive := by
  obtain ⟨regs, caddy, hx⟩ := s.tick.applyExt_frame
  obtain ⟨-, -, -, -, hending⟩ := s.tick_fields
  rw [State.endDue_none _ (by rw [hx]; exact fun e he => hd e (hending ▸ he)), hx]
  simp only [State.tick, if_neg hp.not_ge]

/-- A power-up starts the timebase again (R349). -/
theorem powerUp_clears_timebase (s : State) (n : Nat) :
    completes (.powerUp n) s fun u => u.tb.raw = 0 ∧ u.tb.offset = 0 ∧ u.tb.acc = 0 ∧ u.tb.sacc = 0 ∧ u.tb.rem = 0 :=
  ⟨_, exec_powerUp s n _ rfl, rfl, rfl, rfl, rfl, rfl⟩

/-- Settles O39: the idle nanosecond is the timebase's tick, taken apart by its counters and by the carry of the slew. -/
theorem synthesisedTimeAdvances : Obligations.SynthesisedTimeAdvances := by
  intro s t e q hs hp ht hd he hq
  cases (step_empty s hs).symm.trans ht
  rw [← s.tbDrive_eq, ← clampLim_eq] at he
  have hq : q = s.tb.sacc + (clampLim s.tbDrive - s.tbRate) := by rw [hq, he, State.tbRate]
  obtain ⟨hraw, hacc, hoff, hjump⟩ := s.tb.tick_counters (rate := s.tbRate) (drive := s.tbDrive)
  rw [idle_tb hp hd, he]
  exact ⟨hraw, hacc, hoff, hjump, s.tb.tick_slew_up hq, s.tb.tick_slew_down hq, s.tb.tick_slew_within hq,
    s.tb.tick_time_advances, powerUp_clears_timebase s⟩

/-! ## Steering (R352, R353, R355) -/

section
variable (s : State) (r : Requester) (hi v : Nat)

theorem exec_jump_taken (hr : tbMaySteer r = true) (hk : s.fld (tbReg 0x38) 1 0 = 0) :
    exec (.jump r hi) s = .next (if s.jumpOk (s.adjAmount hi) then s.jumpApply (s.adjAmount hi) else s.jumpRefuse (s.adjAmount hi)) :=
  congrArg Host.Outcome.next (if_pos (by rw [hr, hk]; rfl))

theorem jump_applies (a : Int) (hr : tbMaySteer r = true) (hk : s.fld (tbReg 0x38) 1 0 = 0) (ha : a = s.adjAmount hi)
    (hj : s.jumpOk a = true) : exec (.jump r hi) s = .next (s.jumpApply a) := by
  rw [exec_jump_taken s r hi hr hk, ← ha, if_pos hj]

theorem jump_refused (a : Int) (hr : tbMaySteer r = true) (hk : s.fld (tbReg 0x38) 1 0 = 0) (ha : a = s.adjAmount hi)
    (hj : s.jumpOk a = false) : exec (.jump r hi) s =
      .next ((((s.orReg (tbReg 0) (2 ^ 30)).wr64 (tbReg 0x4C) (ofSigned 64 a)).countUp (tbReg 0x58) 1).raise .tbJumpRefused 7 {}) := by
  rw [exec_jump_taken s r hi hr hk, ← ha, if_neg (by rw [hj]; decide), State.jumpRefuse]

theorem slew_adds (hr : tbMaySteer r = true) (hk : s.fld (tbReg 0x38) 1 0 = 1) :
    completes (.slew r hi) s fun t => t.tb.rem = toSigned 64 (ofSigned 64 (s.tb.rem + s.adjAmount hi)) ∧
      { t with tb := { t.tb with rem := s.tb.rem } } = s :=
  ⟨_, congrArg Host.Outcome.next (if_pos (by rw [hr, hk]; rfl)), rfl, rfl⟩

theorem exec_tbRate_taken (hr : tbMaySteer r = true) : exec (.tbRate r v) s = .next (s.setRate (toSigned 32 v)) :=
  congrArg Host.Outcome.next (if_pos hr)

theorem tbRate_sets (hr : tbMaySteer r = true) (hv : clampLim (toSigned 32 v) = toSigned 32 v) (hs : s.regsWf = true) :
    completes (.tbRate r v) s fun t => t.rd (tbReg 0x28) = ofSigned 32 (toSigned 32 v) % 2 ^ 32 ∧ onlyRegs s t [tbReg 0x28] := by
  refine ⟨s.wr (tbReg 0x28) (ofSigned 32 (toSigned 32 v)), ?_, State.rd_wr_same s _ _ hs, onlyRegs_wr s _ _⟩
  rw [exec_tbRate_taken s r v hr, State.setRate, if_neg (not_not_intro hv), hv]

theorem tbRate_clamps (hr : tbMaySteer r = true) (hv : clampLim (toSigned 32 v) ≠ toSigned 32 v) : exec (.tbRate r v) s =
      .next ((s.wr (tbReg 0x28) (ofSigned 32 (clampLim (toSigned 32 v)))).raise .tbRateClamp 7 {}) := by
  rw [exec_tbRate_taken s r v hr, State.setRate, if_pos hv]

theorem tbIncr_sets_rate (hr : tbMaySteer r = true) (hm : bit (s.rd (tbReg 4)) 0 = true) :
    exec (.tbIncr r v) s = .next ((s.wr (tbReg 0x2C) v).setRate (incrRate v)) :=
  congrArg Host.Outcome.next (if_pos (by rw [hr, hm]; rfl))

section
variable (hr : tbMaySteer r = false)
include hr

theorem jump_by_other : exec (.jump r hi) s = .next s := congrArg Host.Outcome.next (if_neg (by rw [hr]; simp))
theorem slew_by_other : exec (.slew r hi) s = .next s := congrArg Host.Outcome.next (if_neg (by rw [hr]; simp))
theorem tbRate_by_other : exec (.tbRate r v) s = .next s := congrArg Host.Outcome.next (if_neg (by rw [hr]; decide))
theorem tbIncr_by_other : exec (.tbIncr r v) s = .next s := congrArg Host.Outcome.next (if_neg (by rw [hr]; simp))

end

theorem jump_other_kind (hk : s.fld (tbReg 0x38) 1 0 ≠ 0) : exec (.jump r hi) s = .next s :=
  congrArg Host.Outcome.next (if_neg (by simp [hk]))

theorem slew_other_kind (hk : s.fld (tbReg 0x38) 1 0 ≠ 1) : exec (.slew r hi) s = .next s :=
  congrArg Host.Outcome.next (if_neg (by simp [hk]))

theorem tbIncr_mode0 (hm : bit (s.rd (tbReg 4)) 0 = false) : exec (.tbIncr r v) s = .next s :=
  congrArg Host.Outcome.next (if_neg (by simp [hm]))

end

/-! ## Reads with effects (R358, R359, R361) -/

section
variable (s : State) (r : Requester)

theorem tbTimeRead_answers (hs : s.regsWf = true) : completes (.tbTimeRead r) s fun t =>
    t.resp = some ⟨r, .ok, leBytes 4 s.time⟩ ∧ t.rd (tbReg 0x18) = s.tb.raw % 2 ^ 32 ∧ t.tb = s.tb ∧ t.mem = s.mem :=
  ⟨_, rfl, rfl, (s.latchHi _ _).rd_wr64_lo _ _ hs, rfl, rfl⟩

/-- Taking a latched high word takes nothing else. -/
theorem State.takeHi_frame (a live : Nat) : ∃ l, (s.takeHi a live).2 = { s with hiLatch := l } := by
  unfold State.takeHi
  split <;> exact ⟨_, rfl⟩

theorem ppsRawHiRead_pops :
    completes (.tbPpsinRawHiRead r) s fun t => t.tb.pps = s.tb.pps.drop 1 ∧ t.mem = s.mem ∧ t.regs = s.regs := by
  obtain ⟨l, hl⟩ := s.takeHi_frame (tbReg 0x510) ((s.tb.pps.headD (0, 0)).2 / 2 ^ 32)
  refine ⟨s.ppsRawHiRead.2.answer r .ok (leBytes 4 s.ppsRawHiRead.1), rfl, ?_⟩
  simp only [State.ppsRawHiRead, hl, State.answer_fields, and_self]

theorem exec_tbTsIdRead (e : Nat) (d : Bool) :
    exec (.tbTsIdRead r e d) s = .next ((s.tsIdRead e d).2.answer r .ok (leBytes 4 (s.tsIdRead e d).1)) := rfl

theorem tbTsIdRead_empty (e : Nat) (d : Bool) (h : s.tsFifo e d = []) :
    exec (.tbTsIdRead r e d) s = .next (s.answer r .ok (leBytes 4 0)) := by
  simp only [exec_tbTsIdRead, State.tsIdRead, h]

theorem tbTsIdRead_pops (e : Nat) (d : Bool) (h : TsEntry) (l : List TsEntry) (hl : s.tsFifo e d = h :: l) :
    exec (.tbTsIdRead r e d) s = .next ((s.setTsFifo e d l).answer r .ok (leBytes 4 h.id)) := by
  simp only [exec_tbTsIdRead, State.tsIdRead, hl]

end

/-! ## Generators (R356) -/

section
variable (s : State)

theorem State.genDue_iff {g : Nat} : s.genDue g = true ↔
    g < 25 ∧ bit (s.rd (genReg g 0x10)) 31 = true ∧ reached s.time (s.gen g).next = true := by
  rw [State.genDue, Bool.and_eq_true, Bool.and_eq_true, decide_eq_true_eq, and_assoc]

theorem triggerFire_fires (g : Nat) (hg : g < 25) (he : bit (s.rd (genReg g 0x10)) 31 = true)
    (hn : reached s.time (s.gen g).next = true) : exec (.triggerFire g) s = .next (s.genFire g) :=
  congrArg Host.Outcome.next (if_pos (s.genDue_iff.mpr ⟨hg, he, hn⟩))

theorem triggerFire_not_due (g : Nat) (h : 25 ≤ g ∨ bit (s.rd (genReg g 0x10)) 31 = false ∨ reached s.time (s.gen g).next = false) :
    exec (.triggerFire g) s = .next s := by
  refine congrArg Host.Outcome.next (if_neg fun hd => ?_)
  obtain ⟨hg, he, hn⟩ := s.genDue_iff.mp hd
  rcases h with h | h | h
  · exact hg.not_ge h
  · exact Bool.false_ne_true (h.symm.trans he)
  · exact Bool.false_ne_true (h.symm.trans hn)

theorem exec_pulseEnd_active {g e : Nat} (he : (s.gen g).pulseEnd = some e) :
    exec (.pulseEnd g) s = .next (if e ≤ s.tb.raw then s.setGen g { s.gen g with pulseEnd := none } else s) := by
  change execPulseEnd g s = _
  simp only [execPulseEnd, he]

theorem pulseEnd_ends (g e : Nat) (he : (s.gen g).pulseEnd = some e) (hd : e ≤ s.tb.raw) :
    exec (.pulseEnd g) s = .next (s.setGen g { s.gen g with pulseEnd := none }) := by
  rw [exec_pulseEnd_active s he, if_pos hd]

theorem pulseEnd_waits (g : Nat) (h : ∀ e, (s.gen g).pulseEnd = some e → s.tb.raw < e) : exec (.pulseEnd g) s = .next s := by
  cases he : (s.gen g).pulseEnd with
  | none =>
    change execPulseEnd g s = _
    simp only [execPulseEnd, he]
  | some e => rw [exec_pulseEnd_active s he, if_neg (h e he).not_ge]

variable (r : Requester) (g : Nat)

theorem genEnable_writes (v : Nat) (hg : g < 25) : exec (.genEnable r g v) s = .next (s.genCtrl g v) :=
  congrArg Host.Outcome.next (if_pos hg)

theorem genEnable_none (v : Nat) (hg : 25 ≤ g) : exec (.genEnable r g v) s = .next s := congrArg Host.Outcome.next (if_neg hg.not_gt)

/-- FIRST, PERIOD and WIDTH of one of the 25 generators. -/
theorem genCfg_test {off : Nat} : (decide (g < 25) && [0, 4, 8, 0xC].contains off) = true ↔ g < 25 ∧ off ∈ [0, 4, 8, 0xC] := by
  rw [Bool.and_eq_true, decide_eq_true_eq, List.contains_iff_mem]

theorem genCfgWrite_configures (off v : Nat) (hg : g < 25) (ho : off = 0 ∨ off = 4 ∨ off = 8 ∨ off = 0xC) :
    exec (.genCfgWrite r g off v) s = .next (s.genCfg g off v) :=
  congrArg Host.Outcome.next (if_pos ((genCfg_test g).mpr ⟨hg, by simpa using ho⟩))

theorem genCfgWrite_ignored (off v : Nat) (h : 25 ≤ g ∨ off ∉ [0, 4, 8, 0xC]) : exec (.genCfgWrite r g off v) s = .next s := by
  refine congrArg Host.Outcome.next (if_neg fun ht => ?_)
  obtain ⟨hg, ho⟩ := (genCfg_test g).mp ht
  exact h.elim hg.not_ge (· ho)

/-- FIRST written is FIRST alone: only PERIOD and WIDTH can make WIDTH invalid. -/
theorem genCfgWrite_first (off v : Nat) (hg : g < 25) (ho : off = 0 ∨ off = 4) (hs : s.regsWf = true) :
    completes (.genCfgWrite r g off v) s fun t => t.rd (genReg g off) = v % 2 ^ 32 ∧ onlyRegs s t [genReg g off] := by
  refine ⟨s.wr (genReg g off) v, ?_, State.rd_wr_same s _ _ hs, onlyRegs_wr s _ _⟩
  rw [genCfgWrite_configures s r g off v hg (by omega)]
  exact congrArg Host.Outcome.next (if_neg (by omega))

end

/-! ## The Urn's check (R360) -/

section
variable (s : State) (m : Nat) (u : State)

theorem exec_clockCheck_due (hd : s.tb.checkAt + 1000000 ≤ s.clock.urn)
    (hu : u = { s with tb := { s.tb with checkAt := s.clock.urn, checkTime := s.time } }) : exec (.clockCheck m) s =
      .next (if (decide (m > 1002000) || decide (m < 998000) || s.time == s.tb.checkTime) = true then u.raise .tbStall 7 { info0 := m }
        else u) := by
  subst hu
  exact congrArg Host.Outcome.next (if_pos hd)

theorem clockCheck_passes (hd : s.tb.checkAt + 1000000 ≤ s.clock.urn)
    (hu : u = { s with tb := { s.tb with checkAt := s.clock.urn, checkTime := s.time } }) (h1 : 998000 ≤ m) (h2 : m ≤ 1002000)
    (ht : s.time ≠ s.tb.checkTime) : exec (.clockCheck m) s = .next u := by
  rw [exec_clockCheck_due s m u hd hu, if_neg]
  simp only [Bool.or_eq_true, decide_eq_true_eq, beq_iff_eq]
  omega

theorem clockCheck_raises (hd : s.tb.checkAt + 1000000 ≤ s.clock.urn)
    (hu : u = { s with tb := { s.tb with checkAt := s.clock.urn, checkTime := s.time } })
    (h : m < 998000 ∨ 1002000 < m ∨ s.time = s.tb.checkTime) :
    exec (.clockCheck m) s = .next (u.raise .tbStall 7 { info0 := m }) := by
  rw [exec_clockCheck_due s m u hd hu, if_pos]
  simp only [Bool.or_eq_true, decide_eq_true_eq, beq_iff_eq]
  omega

theorem clockCheck_waits (hd : s.clock.urn < s.tb.checkAt + 1000000) : exec (.clockCheck m) s = .next s :=
  congrArg Host.Outcome.next (if_neg hd.not_ge)

end

/-- Settles O24: steering by who asks and in which mode, the reads, the generators and the check, then what changes nothing. -/
theorem timebaseCommands : Obligations.TimebaseCommands :=
  ⟨jump_applies, jump_refused, slew_adds, tbRate_sets, tbRate_clamps, tbIncr_sets_rate, tbTimeRead_answers, ppsRawHiRead_pops,
    tbTsIdRead_empty, tbTsIdRead_pops, triggerFire_fires, pulseEnd_ends, genEnable_writes,
    genCfgWrite_configures, genCfgWrite_first, clockCheck_passes, clockCheck_raises, jump_by_other, slew_by_other, tbRate_by_other, tbIncr_by_other,
    jump_other_kind, slew_other_kind, tbIncr_mode0, triggerFire_not_due, pulseEnd_waits, genEnable_none,
    genCfgWrite_ignored, clockCheck_waits⟩

end Sys2Proof.Machine
end

section
/-! SUPPORT. Spout links (R364, R367, R377, R382): training from its attempt to the identity of the peer, calibration, the start barrier of
the Steward (R378, R380), and responses that do not come (R381, R382). -/

namespace Sys2Proof.Machine

/-! ## Training (R364, R367) -/

section
variable (s : State) (n : Nat)

section
variable (lanes c : Nat)

/-- Adaptation of a port in training ends: a lane group is good where all of its four lanes are. -/
theorem exec_linkTraining_training (ht : s.spState n = 1) (ho : s.spOn n = true) {low high : Bool} {u : State}
    (hlow : low = (lanes % 16 == 15)) (hhigh : high = (lanes / 16 % 16 == 15))
    (hu : u = (((s.setFld (spReg n 0) 4 4 (b2n !(low && high))).setFld (spReg n 0) 3 3 (b2n !low)).setFld (spReg n 0xC) 23 0 c
      ).setSpState n 2) :
    exec (.linkTraining n lanes c) s =
      .next (if (!low && !high) = true then s.spStaysDown n else if bit (u.rd (spReg n 0x10)) 31 then u.spUp n else u) := by
  subst hlow hhigh hu
  exact congrArg Host.Outcome.next (if_pos ⟨ht, ho⟩)

theorem linkTraining_no_group (ht : s.spState n = 1) (ho : s.spOn n = true) (hl : lanes % 16 ≠ 15) (hh : lanes / 16 % 16 ≠ 15) :
    exec (.linkTraining n lanes c) s = .next (s.spStaysDown n) := by
  rw [exec_linkTraining_training s n lanes c ht ho (beq_eq_false_iff_ne.mpr hl).symm (beq_eq_false_iff_ne.mpr hh).symm rfl]
  rfl

theorem linkTraining_calibrates (u : State) (ht : s.spState n = 1) (ho : s.spOn n = true) (hg : lanes % 16 = 15 ∨ lanes / 16 % 16 = 15)
    (hu : u = ((((s.setFld (spReg n 0) 4 4 (b2n !(lanes % 16 == 15 && lanes / 16 % 16 == 15))).setFld (spReg n 0) 3 3
      (b2n !(lanes % 16 == 15))).setFld (spReg n 0xC) 23 0 c).setSpState n 2)) :
    exec (.linkTraining n lanes c) s = .next (if bit (u.rd (spReg n 0x10)) 31 then u.spUp n else u) := by
  rw [exec_linkTraining_training s n lanes c ht ho rfl rfl hu, if_neg]
  rcases hg with h | h <;> simp [h]

theorem linkTraining_ignored (h : s.spState n ≠ 1 ∨ s.spOn n = false) : exec (.linkTraining n lanes c) s = .next s := by
  refine congrArg Host.Outcome.next (if_neg ?_)
  rintro ⟨ht, ho⟩
  exact h.elim (· ht) fun h => Bool.false_ne_true (h.symm.trans ho)

end

theorem trainingRetry_counts (u : State) (ht : s.spState n = 1 ∨ s.spState n = 2) (ho : s.spOn n = true)
    (hu : u = (s.setPort n { s.port n with attempts := (s.port n).attempts + 1 }).setSpState n 1) :
    exec (.trainingRetry n) s = .next (if 3 ≤ (s.port n).attempts + 1 then u.spStaysDown n else u) := by
  subst hu
  exact congrArg Host.Outcome.next (if_pos ⟨ht, ho⟩)

/-- A port that is neither training nor calibrating, or not enabled. -/
theorem not_training (h : s.spState n ≠ 1 ∧ s.spState n ≠ 2 ∨ s.spOn n = false) :
    ¬ ((s.spState n = 1 ∨ s.spState n = 2) ∧ s.spOn n = true) := by
  rintro ⟨ht, ho⟩
  rcases h with ⟨h1, h2⟩ | h
  · exact ht.elim h1 h2
  · exact Bool.false_ne_true (h.symm.trans ho)

theorem trainingRetry_ignored (h : s.spState n ≠ 1 ∧ s.spState n ≠ 2 ∨ s.spOn n = false) : exec (.trainingRetry n) s = .next s :=
  congrArg Host.Outcome.next (if_neg (not_training s n h))

theorem linkDown_trains_again (h : s.spState n = 2 ∨ s.spState n = 3) : exec (.linkDown n) s = .next (s.linkDown n) :=
  congrArg Host.Outcome.next (if_pos h)

theorem linkDown_ignored (h : s.spState n ≠ 2 ∧ s.spState n ≠ 3) : exec (.linkDown n) s = .next s :=
  congrArg Host.Outcome.next (if_neg (not_or.mpr h))

theorem retrain_trains (hn : n < 4) (ho : s.spOn n = true) : exec (.retrain .steward n) s = .next (s.spTrain n) :=
  congrArg Host.Outcome.next (if_pos (by rw [decide_eq_true hn, ho]; rfl))

theorem retrain_ignored (r : Requester) (h : r ≠ .steward ∨ 4 ≤ n ∨ s.spOn n = false) : exec (.retrain r n) s = .next s := by
  refine congrArg Host.Outcome.next (if_neg fun ht => ?_)
  simp only [Bool.and_eq_true, beq_iff_eq, decide_eq_true_eq] at ht
  obtain ⟨⟨hr, hn⟩, ho⟩ := ht
  rcases h with h | h | h
  · exact h hr
  · exact hn.not_ge h
  · exact Bool.false_ne_true (h.symm.trans ho)

/-! ## Identity (R364) -/

section
variable (peer port : Nat)

theorem ident_mismatch (sys : Nat) (ht : s.spState n = 1 ∨ s.spState n = 2) (ho : s.spOn n = true)
    (hm : (peer % 128 = s.selfId ∧ s.selfId ≠ 127) ∨ sys ≠ 0x21) :
    exec (.ident n peer port sys) s = .next ((s.setSpState n 4).raiseSp .spPeerMismatch n { info0 := peer, info1 := sys }) :=
  congrArg Host.Outcome.next ((if_pos ⟨ht, ho⟩).trans (if_pos hm))

theorem ident_matches (u : State) (ht : s.spState n = 1 ∨ s.spState n = 2) (ho : s.spOn n = true)
    (hm : peer % 128 ≠ s.selfId ∨ s.selfId = 127) (hu : u = s.wr (spReg n 0x10) (2 ^ 31 + port % 4 * 2 ^ 8 + peer % 128)) :
    exec (.ident n peer port 0x21) s = .next (if u.spState n = 2 then u.spUp n else u) := by
  subst hu
  exact congrArg Host.Outcome.next ((if_pos ⟨ht, ho⟩).trans (if_neg (by omega)))

theorem ident_ignored (sys : Nat) (h : s.spState n ≠ 1 ∧ s.spState n ≠ 2 ∨ s.spOn n = false) :
    exec (.ident n peer port sys) s = .next s := congrArg Host.Outcome.next (if_neg (not_training s n h))

end

/-! ## Calibration (R377) -/

theorem calibExchange_sends (hp : s.portUp n = true) : exec (.calibExchange n) s =
      .next ((s.setPort n { s.port n with calibAt := some s.ct16 }).spControl n kCalib 0 (leBytes 4 0)) :=
  congrArg Host.Outcome.next (if_pos hp)

theorem calibExchange_ignored (hp : s.portUp n = false) : exec (.calibExchange n) s = .next s :=
  congrArg Host.Outcome.next (if_neg (by rw [hp]; decide))

/-- An answer to this port's exchange enters the mean of the last 256 trips. -/
theorem calib_takes_trip (t : Nat) (q : SpoutPacket) (l : List Nat) (hp : s.portUp n = true) (hk : q.kind = kCalib) (hop : q.atomicOp ≠ 0)
    (ht : (s.port n).calibAt = some t) (hl : l = ((s.ct16 - t - leNat (q.payload.take 4)) :: (s.port n).trips).take 256) :
    exec (.calib n q) s =
      .next ((s.setPort n { s.port n with calibAt := none, trips := l }).setFld (spReg n 0xC) 23 0
        (l.foldl (· + ·) 0 / l.length / 2)) := by
  subst hl
  rw [calib_measures s n q hp hk]
  simp only [State.calib, if_neg hop, ht]

end

/-! ## The start barrier (R378, R380) -/

section
variable (s : State)

theorem arm_starts (ha : s.armed = false) :
    exec (.arm .steward) s = .next ((s.setArmed true).modBar fun b => { b with armedAt := s.clock.urn }).barTry :=
  congrArg Host.Outcome.next (if_pos (by rw [ha]; rfl))

theorem arm_ignored (r : Requester) (h : r ≠ .steward ∨ s.armed = true) : exec (.arm r) s = .next s := by
  refine congrArg Host.Outcome.next (if_neg ?_)
  rcases h with h | h <;> simp [h]

theorem exec_barrierStart_known {t : Nat} (ht : s.sp.bar.startAt = some t) : exec .barrierStart s =
    .next (if s.armed = true ∧ t ≤ s.ct then ((s.setArmed false).wr64 (spGlob 0xC) s.time).modBar fun _ => Barrier.idle else s) := by
  change execBarrierStart s = _
  simp only [execBarrierStart, ht]

theorem barrierStart_starts (t : Nat) (ht : s.sp.bar.startAt = some t) (ha : s.armed = true) (hd : t ≤ s.ct) :
    exec .barrierStart s = .next (((s.setArmed false).wr64 (spGlob 0xC) s.time).modBar fun _ => Barrier.idle) := by
  rw [exec_barrierStart_known s ht, if_pos ⟨ha, hd⟩]

theorem barrierStart_waits (h : ∀ t, s.sp.bar.startAt = some t → s.armed = false ∨ s.ct < t) : exec .barrierStart s = .next s := by
  cases ht : s.sp.bar.startAt with
  | none =>
    change execBarrierStart s = _
    simp only [execBarrierStart, ht]
  | some t =>
    rw [exec_barrierStart_known s ht, if_neg]
    rintro ⟨ha, hd⟩
    exact (h t ht).elim (fun h => Bool.false_ne_true (h.symm.trans ha)) hd.not_gt

/-- An armed barrier without a start tick BAR_TIMEOUT ms after ARM. -/
theorem barrierLate_iff : (s.armed && s.sp.bar.startAt.isNone &&
      decide (s.sp.bar.armedAt + 1000000 * fieldAt (s.record 0x13 7) 0xA 2 ≤ s.clock.urn)) = true ↔
    s.armed = true ∧ s.sp.bar.startAt = none ∧ s.sp.bar.armedAt + 1000000 * fieldAt (s.record 0x13 7) 0xA 2 ≤ s.clock.urn := by
  rw [Bool.and_eq_true, Bool.and_eq_true, decide_eq_true_eq, Option.isNone_iff_eq_none, and_assoc]

theorem barrierTimeout_clears (ha : s.armed = true) (hn : s.sp.bar.startAt = none)
    (hd : s.sp.bar.armedAt + 1000000 * fieldAt (s.record 0x13 7) 0xA 2 ≤ s.clock.urn) : exec .barrierTimeout s =
      .next ((((s.setArmed false).modBar fun _ => Barrier.idle).orReg (spGlob 4) (2 ^ 1)).raise .spBarrierTimeout
        (scopeOf ((List.range 4).findSome? s.spOwner)) {}) :=
  congrArg Host.Outcome.next (if_pos ((barrierLate_iff s).mpr ⟨ha, hn, hd⟩))

theorem barrierTimeout_waits (h : s.armed = false ∨ s.sp.bar.startAt ≠ none ∨
      s.clock.urn < s.sp.bar.armedAt + 1000000 * fieldAt (s.record 0x13 7) 0xA 2) : exec .barrierTimeout s = .next s := by
  refine congrArg Host.Outcome.next (if_neg fun hl => ?_)
  obtain ⟨ha, hn, hd⟩ := (barrierLate_iff s).mp hl
  rcases h with h | h | h
  · exact Bool.false_ne_true (h.symm.trans ha)
  · exact h hn
  · exact hd.not_gt h

/-! ## Responses that do not come (R381, R382) -/

theorem exec_respTimeout_known {tag : Nat} {q : SpReq} (hq : s.sp.reqs.find? (fun q => q.tag == tag) = some q) : exec (.respTimeout tag) s =
    .next (if q.at_ + 1000 * fieldAt (s.record 0x13 7) 0xC 4 ≤ s.clock.urn then
      (s.raise .spRespTimeout (scopeOf (s.partOf q.req))
        { req := q.req.index, ctx := q.req.ctx.getD 0xFF, unit := q.dest, info0 := q.addr % 2 ^ 32, info1 := q.addr / 2 ^ 32,
          cluster := q.req.cluster }).reqFail q
      else s) := by
  change execRespTimeout tag s = _
  simp only [execRespTimeout, hq]

theorem respTimeout_fails (tag : Nat) (q : SpReq) (hq : s.sp.reqs.find? (fun q => q.tag == tag) = some q)
    (hd : q.at_ + 1000 * fieldAt (s.record 0x13 7) 0xC 4 ≤ s.clock.urn) : exec (.respTimeout tag) s =
      .next ((s.raise .spRespTimeout (scopeOf (s.partOf q.req))
        { req := q.req.index, ctx := q.req.ctx.getD 0xFF, unit := q.dest, info0 := q.addr % 2 ^ 32, info1 := q.addr / 2 ^ 32,
          cluster := q.req.cluster }).reqFail q) := by
  rw [exec_respTimeout_known s hq, if_pos hd]

theorem respTimeout_waits (tag : Nat) (h : ∀ q, s.sp.reqs.find? (fun q => q.tag == tag) = some q →
      s.clock.urn < q.at_ + 1000 * fieldAt (s.record 0x13 7) 0xC 4) : exec (.respTimeout tag) s = .next s := by
  cases hq : s.sp.reqs.find? (fun q => q.tag == tag) with
  | none =>
    change execRespTimeout tag s = _
    simp only [execRespTimeout, hq]
  | some q => rw [exec_respTimeout_known s hq, if_neg (h q hq).not_ge]

end

/-- Settles O27: training by the port's state, the barrier by its start tick and its time, requests by theirs, and calibration. -/
theorem spoutLinks : Obligations.SpoutLinks :=
  ⟨linkTraining_no_group, linkTraining_calibrates, trainingRetry_counts, fun s n peer port sys => ident_mismatch s n peer port sys,
    ident_matches, calibExchange_sends, linkDown_trains_again, retrain_trains, arm_starts, barrierStart_starts, barrierTimeout_clears,
    respTimeout_fails, linkTraining_ignored, trainingRetry_ignored, ident_ignored, calibExchange_ignored, linkDown_ignored,
    fun s r n => retrain_ignored s n r, arm_ignored, barrierTimeout_waits, barrierStart_waits, respTimeout_waits, calib_takes_trip⟩

end Sys2Proof.Machine
end

section
/-! SUPPORT. Fault reporting (R455 to R462): what a raise adds to the pending table, raises and acknowledgements by who asks, windows, and
the safe states and lockstep reports (R434 to R453) that go with them. -/

namespace Sys2Proof.Machine

/-! ## The pending table (R459, R462) -/

/-- From `s` to `t` the pending table, the severity tables and the clocks are unchanged: windows are what they were. -/
structure WindowsKept (s t : State) : Prop where
  pending : t.urn.pending = s.urn.pending
  sev : t.urn.sev = s.urn.sev
  clock : t.clock = s.clock

section
variable (s : State)

theorem WindowsKept.trans {s t u : State} (h : WindowsKept s t) (h' : WindowsKept t u) : WindowsKept s u :=
  ⟨h'.pending.trans h.pending, h'.sev.trans h.sev, h'.clock.trans h.clock⟩

theorem WindowsKept.ite {s t u : State} {c : Prop} [Decidable c] (ht : WindowsKept s t) (hu : WindowsKept s u) :
    WindowsKept s (if c then t else u) := by
  split
  · exact ht
  · exact hu

theorem WindowsKept.windowNs {s t : State} (h : WindowsKept s t) (scope sev : Nat) : t.windowNs scope sev = s.windowNs scope sev := by
  simp only [State.windowNs, State.sevTable, h.sev]

theorem State.logRecord_windowsKept (r : FaultRec) : WindowsKept s (s.logRecord r) :=
  WindowsKept.ite ⟨rfl, rfl, rfl⟩ ⟨rfl, rfl, rfl⟩

theorem State.latchFirst_windowsKept (scope : Nat) (r : FaultRec) : WindowsKept s (s.latchFirst scope r) :=
  WindowsKept.ite ⟨rfl, rfl, rfl⟩ ⟨rfl, rfl, rfl⟩

theorem State.msix_windowsKept (v : Nat) : WindowsKept s (s.msix v) :=
  WindowsKept.ite ⟨rfl, rfl, rfl⟩ (.ite ⟨rfl, rfl, rfl⟩ (.ite ⟨rfl, rfl, rfl⟩ ⟨rfl, rfl, rfl⟩))

theorem WindowsKept.refl : WindowsKept s s := ⟨rfl, rfl, rfl⟩

theorem State.send_windowsKept (o : Out) : WindowsKept s (s.send o) := ⟨rfl, rfl, rfl⟩

theorem State.notify_windowsKept (scope seq : Nat) : WindowsKept s (s.notify scope seq) :=
  have host := WindowsKept.ite (s.msix_windowsKept _) (WindowsKept.refl s)
  have harts := WindowsKept.ite (host.trans (State.send_windowsKept _ _)) host
  WindowsKept.ite (harts.trans (State.send_windowsKept _ _)) harts

theorem State.errUpdate_pending : s.errUpdate.urn.pending = s.urn.pending := by
  unfold State.errUpdate
  split <;> rfl

section
variable (source scope sev action : Nat) (i : FaultInfo)

/-- A raise below Partition-fatal acts on nothing at once. -/
theorem State.actAtOnce_none {sev : Nat} (hv : sev < 5) (seq : Nat) : s.actAtOnce scope sev source seq = s := by
  rw [State.actAtOnce, if_neg (by omega), if_neg (by omega)]

/-- Whether a raise is only recorded: below Deferred, or in a stopped scope and not Device-fatal (R459, R471). -/
def State.onlyRecorded : Bool := decide (sev < 3) || (s.scopeStopped scope && decide (sev < 6))

/-- The record that a raise writes (R459). -/
def State.raiseRecord : FaultRec :=
  { seq := s.urn.nextSeq, source := source, scope := scope, sevRaise := sev, sev := sev, acked := false,
    first := !s.onlyRecorded scope sev && !bit (s.rd (urnReg (0x8040 + 4 * firstIdx scope))) 31, info := i, utime := s.utime,
    time := s.time, action := action }

/-- A raise that is only recorded ends with its record in the log. -/
theorem State.raiseAt_recorded (ho : s.onlyRecorded scope sev = true) :
    s.raiseAt source scope sev action i = s.logRecord (s.raiseRecord source scope sev action i) := if_pos ho

/-- Any other raise at Deferred or Urgent, once it is logged, latched and notified, enters the pending table. -/
theorem State.raiseAt_pends {r : FaultRec} {u : State} (hv : sev = 3 ∨ sev = 4) (ho : s.onlyRecorded scope sev = false)
    (hr : r = s.raiseRecord source scope sev action i) (hu : u = ((s.logRecord r).latchFirst scope r).notify scope r.seq) :
    s.raiseAt source scope sev action i = (State.showPending { u with urn := { u.urn with pending := u.urn.pending ++
      [{ rcd := r, expiry := some
          (u.clock.urn + (if decide (64 ≤ u.urn.pending.length) then 0 else u.windowNs scope sev)) }] } }).errUpdate := by
  subst hr hu
  refine (if_neg (Bool.eq_false_iff.mp ho)).trans ?_
  rw [State.actAtOnce_none _ _ _ (by omega : sev < 5), if_pos (by omega : sev ≤ 4)]
  rfl

theorem State.pending_raiseAt_stopped (hv : sev < 6) (hs : s.scopeStopped scope = true) :
    (s.raiseAt source scope sev action i).urn.pending = s.urn.pending := by
  rw [s.raiseAt_recorded source scope sev action i (by simp [State.onlyRecorded, hs, hv])]
  exact (s.logRecord_windowsKept _).pending

/-- A pending record enters with the window of its severity, or with none where 64 are pending. -/
theorem State.pending_raiseAt_open (hv : sev = 3 ∨ sev = 4) (hs : s.scopeStopped scope = false) :
    ∃ r, r.source = source ∧ r.scope = scope ∧ r.sev = sev ∧ r.info = i ∧
      (s.raiseAt source scope sev action i).urn.pending =
        s.urn.pending ++
          [{ rcd := r, expiry := some (s.clock.urn + (if s.urn.pending.length < 64 then s.windowNs scope sev else 0)) }] := by
  have ho : s.onlyRecorded scope sev = false := by
    rw [State.onlyRecorded, hs, decide_eq_false (by omega : ¬ sev < 3)]
    rfl
  refine ⟨s.raiseRecord source scope sev action i, rfl, rfl, rfl, rfl, ?_⟩
  have hk : ∀ r : FaultRec, WindowsKept s (((s.logRecord r).latchFirst scope r).notify scope r.seq) := fun r =>
    ((s.logRecord_windowsKept r).trans (State.latchFirst_windowsKept _ _ _)).trans (State.notify_windowsKept _ _ _)
  rw [s.raiseAt_pends source scope sev action i hv ho rfl rfl, State.errUpdate_pending]
  simp only [State.showPending, State.setFld, State.wr_fields, (hk _).pending, (hk _).clock, (hk _).windowNs, decide_eq_true_eq,
    ← not_lt, ite_not]

end

end

/-- Settles O53: in a stopped scope the raise is only recorded; in another one it enters the table with its window. -/
theorem fullPendingTableHasNoWindow : Obligations.FullPendingTableHasNoWindow := fun s source scope sev action i hv =>
  ⟨s.pending_raiseAt_stopped source scope sev action i (by omega), s.pending_raiseAt_open source scope sev action i hv⟩

/-! ## Lockstep and the Taster count (R434, R435, R441) -/

section
variable (s : State)

theorem lockstepMismatch_mismatches (pair g : Nat) (hl : s.isLockstep pair = true) (hp : pair < 32) (hg : g < 3) :
    exec (.lockstepMismatch pair g) s = .next (s.mismatch pair g) := congrArg Host.Outcome.next (if_pos ⟨hl, hp, hg⟩)

theorem lockstepMismatch_ignored (pair g : Nat) (h : s.isLockstep pair = false ∨ 32 ≤ pair ∨ 3 ≤ g) :
    exec (.lockstepMismatch pair g) s = .next s := by
  refine congrArg Host.Outcome.next (if_neg ?_)
  rintro ⟨hl, hp, hg⟩
  rcases h with h | h | h
  · exact Bool.false_ne_true (h.symm.trans hl)
  · exact hp.not_ge h
  · exact hg.not_ge h

theorem reportPathFault_mismatches (pair : Nat) (hl : s.isLockstep pair = true) (hp : pair < 32) :
    exec (.reportPathFault pair) s = .next (s.mismatch pair 3) := congrArg Host.Outcome.next (if_pos ⟨hl, hp⟩)

theorem reportPathFault_ignored (pair : Nat) (h : s.isLockstep pair = false ∨ 32 ≤ pair) :
    exec (.reportPathFault pair) s = .next s := by
  refine congrArg Host.Outcome.next (if_neg ?_)
  rintro ⟨hl, hp⟩
  exact h.elim (fun h => Bool.false_ne_true (h.symm.trans hl)) hp.not_ge

/-- No golden test in 2·MINOR_NS + 1 ms of synthesised time while the dispatcher of a partition in service ran (R441). -/
def State.tasterLate (p : Nat) (b : BrewTable) : Prop :=
  p < 4 ∧ (s.fld (btReg p 0) 3 0 = 2 ∨ s.fld (btReg p 0) 3 0 = 3) ∧ s.scopeStopped p = false ∧
    (2 * b.minorNs + 1000000 : Nat) < toSigned 64 (s.time + 2 ^ 64 - (s.dsp p).lastTaster % 2 ^ 64)

theorem State.tasterLate_iff {p : Nat} {b : BrewTable} :
    (decide (p < 4) && (s.fld (btReg p 0) 3 0 == 2 || s.fld (btReg p 0) 3 0 == 3) &&
      !s.scopeStopped p && decide (toSigned 64 (s.time + 2 ^ 64 - (s.dsp p).lastTaster % 2 ^ 64) > (2 * b.minorNs + 1000000 : Nat))) = true ↔
    s.tasterLate p b := by
  simp only [State.tasterLate, Bool.and_eq_true, Bool.or_eq_true, decide_eq_true_eq, beq_iff_eq, Bool.not_eq_true', and_assoc, gt_iff_lt]

theorem tasterMissed_no_table (p : Nat) (hb : (s.dsp p).table = none) : exec (.tasterMissed p) s = .next s := by
  change execTasterMissed p s = _
  simp only [execTasterMissed, hb]

theorem tasterMissed_raises (p : Nat) (b : BrewTable) (hb : (s.dsp p).table = some b) (hp : p < 4)
    (hf : s.fld (btReg p 0) 3 0 = 2 ∨ s.fld (btReg p 0) 3 0 = 3) (hs : s.scopeStopped p = false)
    (hl : (2 * b.minorNs + 1000000 : Nat) < toSigned 64 (s.time + 2 ^ 64 - (s.dsp p).lastTaster % 2 ^ 64)) : exec (.tasterMissed p) s =
      .next (((s.setDsp p { s.dsp p with lastTaster := s.time }).orReg (urnReg 0xC014) (2 ^ p)).raise .tasterMissed p { unit := p }) := by
  change execTasterMissed p s = _
  simp only [execTasterMissed, hb, if_pos (s.tasterLate_iff.mpr ⟨hp, hf, hs, hl⟩)]

theorem tasterMissed_waits (p : Nat) (b : BrewTable) (hb : (s.dsp p).table = some b)
    (h : 4 ≤ p ∨ (s.fld (btReg p 0) 3 0 ≠ 2 ∧ s.fld (btReg p 0) 3 0 ≠ 3) ∨ s.scopeStopped p = true ∨
      toSigned 64 (s.time + 2 ^ 64 - (s.dsp p).lastTaster % 2 ^ 64) ≤ (2 * b.minorNs + 1000000 : Nat)) :
    exec (.tasterMissed p) s = .next s := by
  have hn : ¬ s.tasterLate p b := by
    rintro ⟨hp, hf, hs, hl⟩
    rcases h with h | ⟨h2, h3⟩ | h | h
    · exact hp.not_ge h
    · exact hf.elim h2 h3
    · exact Bool.false_ne_true (hs.symm.trans h)
    · exact hl.not_ge h
  change execTasterMissed p s = _
  simp only [execTasterMissed, hb, if_neg (mt s.tasterLate_iff.mp hn)]

end

/-! ## Safe states and ERR_OUT (R446 to R449, R453) -/

section
variable (s : State)

theorem safeState_enters (p k : Nat) (hp : p < 4) (ha : (s.prec p).active = true) (h1 : 1 ≤ k) (h5 : k ≤ 5) :
    exec (.safeState p k) s = .next (s.safeState p k).errUpdate := congrArg Host.Outcome.next (if_pos ⟨hp, ha, h1, h5⟩)

theorem safeState_ignored (p k : Nat) (h : 4 ≤ p ∨ (s.prec p).active = false ∨ k = 0 ∨ 5 < k) : exec (.safeState p k) s = .next s := by
  refine congrArg Host.Outcome.next (if_neg ?_)
  rintro ⟨hp, ha, hk⟩
  rcases h with h | h | h
  · exact hp.not_ge h
  · exact Bool.false_ne_true (h.symm.trans ha)
  · omega

theorem deviceSafeState_enters (k : Nat) (h1 : 1 ≤ k) (h5 : k ≤ 5) : exec (.deviceSafeState k) s = .next (s.deviceSafe k).errUpdate :=
  congrArg Host.Outcome.next (if_pos ⟨h1, h5⟩)

theorem deviceSafeState_ignored (k : Nat) (h : k = 0 ∨ 5 < k) : exec (.deviceSafeState k) s = .next s :=
  congrArg Host.Outcome.next (if_neg (by omega))

theorem urnSafeCmdParts_enters (m : Nat) : exec (.urnSafeCmdParts .steward m) s = .next (s.safeParts m 3).errUpdate := rfl

theorem urnSafeCmdDevice_enters : exec (.urnSafeCmdDevice .steward) s = .next (s.deviceSafe 3).errUpdate := rfl

theorem urnSafeCmd_ignored (r : Requester) (m : Nat) (hr : r ≠ .steward) :
    exec (.urnSafeCmdParts r m) s = .next s ∧ exec (.urnSafeCmdDevice r) s = .next s :=
  have hn : ¬ (r == .steward) = true := mt beq_iff_eq.mp hr
  ⟨congrArg Host.Outcome.next (if_neg hn), congrArg Host.Outcome.next (if_neg hn)⟩

theorem stSafeCmd_forwards (r : Requester) (v : Nat) (hr : s.isMaster r = true) : exec (.stSafeCmd r v) s =
      .next (if bit v 31 then (s.safeParts (v % 16) 3).deviceSafe 3 else s.safeParts (v % 16) 3).errUpdate :=
  congrArg Host.Outcome.next (if_pos hr)

theorem stSafeCmd_not_master (r : Requester) (v : Nat) (hr : s.isMaster r = false) : exec (.stSafeCmd r v) s = .next (s.notMaster r) :=
  congrArg Host.Outcome.next (if_neg (by rw [hr]; decide))

theorem State.errReturns_iff : (s.urn.errFault && !s.errCondition && s.clock.urn % 500000 == 0) = true ↔
    s.urn.errFault = true ∧ s.errCondition = false ∧ s.clock.urn % 500000 = 0 := by
  rw [Bool.and_eq_true, Bool.and_eq_true, beq_iff_eq, Bool.not_eq_true', and_assoc]

theorem errOutReturn_returns (u : State) (hf : s.urn.errFault = true) (hc : s.errCondition = false) (ht : s.clock.urn % 500000 = 0)
    (hu : u = { s with urn := { s.urn with errFault := false } }) :
    exec .errOutReturn s = .next (u.setFld (urnReg 0xC00C) 1 1 0) := by
  subst hu
  exact congrArg Host.Outcome.next (if_pos (s.errReturns_iff.mpr ⟨hf, hc, ht⟩))

theorem errOutReturn_waits (h : s.urn.errFault = false ∨ s.errCondition = true ∨ s.clock.urn % 500000 ≠ 0) :
    exec .errOutReturn s = .next s := by
  refine congrArg Host.Outcome.next (if_neg fun hr => ?_)
  obtain ⟨hf, hc, ht⟩ := s.errReturns_iff.mp hr
  rcases h with h | h | h
  · exact Bool.false_ne_true (h.symm.trans hf)
  · exact Bool.false_ne_true (hc.symm.trans h)
  · exact h ht

end

/-! ## Raises of units (R459, R437) -/

section
variable (s : State) (src : Src) (scope : Nat) (i : FaultInfo)

theorem faultRaise_no_scope (h : scope = 5 ∨ scope = 6 ∨ 7 < scope) : exec (.faultRaise src scope i) s = .next s :=
  congrArg Host.Outcome.next (if_neg (by omega))

/-- A raise of a source of a scope: a failed comparator test ends the boot it belongs to, and two sources do more than raise. -/
theorem exec_faultRaise_scope (h : scope < 5 ∨ scope = 7) : exec (.faultRaise src scope i) s =
    .next (if src = .lsInjectFail ∧ scope < 4 ∧ (s.resetRec scope).isSome = true then
        ((s.raise src scope i).setFld (clReg (2 * (i.unit % 32) + 1) 0xB00) 10 0 (i.info0 % 2048)).outOfService scope
      else if src = .dppMismatch ∧ i.unit < s.nDpps then (s.raise src scope i).dppMismatch i.unit
      else if src = .peAerUncor then (s.raise src scope i).countUp (peReg 0x1C) 1
      else s.raise src scope i) := congrArg Host.Outcome.next (if_pos h)

theorem faultRaise_raises (h : scope < 5 ∨ scope = 7) (hl : src ≠ .lsInjectFail ∨ 4 ≤ scope ∨ s.resetRec scope = none)
    (hd : src ≠ .dppMismatch ∨ s.nDpps ≤ i.unit) (ha : src ≠ .peAerUncor) :
    exec (.faultRaise src scope i) s = .next (s.raise src scope i) := by
  have hboot : ¬ (src = .lsInjectFail ∧ scope < 4 ∧ (s.resetRec scope).isSome = true) := by
    rintro ⟨hs, hp, hr⟩
    rcases hl with hl | hl | hl
    · exact hl hs
    · exact hp.not_ge hl
    · rw [hl] at hr
      exact Bool.false_ne_true hr
  have hdpp : ¬ (src = .dppMismatch ∧ i.unit < s.nDpps) := fun ⟨hs, hn⟩ => hd.elim (· hs) hn.not_ge
  rw [exec_faultRaise_scope s src scope i h, if_neg hboot, if_neg hdpp, if_neg ha]

theorem faultRaise_dppMismatch (h : scope < 5 ∨ scope = 7) (hd : i.unit < s.nDpps) :
    exec (.faultRaise .dppMismatch scope i) s = .next ((s.raise .dppMismatch scope i).dppMismatch i.unit) := by
  rw [exec_faultRaise_scope s _ scope i h, if_neg nofun, if_pos ⟨rfl, hd⟩]

theorem faultRaise_peAerUncor (h : scope < 5 ∨ scope = 7) :
    exec (.faultRaise .peAerUncor scope i) s = .next ((s.raise .peAerUncor scope i).countUp (peReg 0x1C) 1) := by
  rw [exec_faultRaise_scope s _ scope i h, if_neg nofun, if_neg nofun, if_pos rfl]

theorem faultRaise_boot_test (hp : scope < 4) (hr : (s.resetRec scope).isSome = true) : exec (.faultRaise .lsInjectFail scope i) s =
      .next (((s.raise .lsInjectFail scope i).setFld (clReg (2 * (i.unit % 32) + 1) 0xB00) 10 0 (i.info0 % 2048)).outOfService scope) := by
  rw [exec_faultRaise_scope s _ scope i (by omega), if_pos ⟨rfl, hp, hr⟩]

end

/-! ## Windows and the second (R459, R460) -/

section
variable (s : State) (n : Nat)

theorem exec_windowExpiry_due {q : PendRec} (hq : s.dueRecord n (s.clock.urn + 1) = some q) :
    exec (.windowExpiry n) s = .next (s.escalate q) := by
  change execWindowExpiry n s = _
  simp only [execWindowExpiry, hq]

theorem windowExpiry_waits (hq : s.dueRecord n (s.clock.urn + 1) = none) : exec (.windowExpiry n) s = .next s := by
  change execWindowExpiry n s = _
  simp only [execWindowExpiry, hq]

/-- A Deferred record becomes Urgent, with the window of that severity. -/
theorem windowExpiry_deferred (q : PendRec) (u : State) (hq : s.dueRecord n (s.clock.urn + 1) = some q) (h3 : q.rcd.sev = 3)
    (hu : u = s.modPending q.rcd.seq (fun r => { r with sev := 4 }) (some (s.clock.urn + s.windowNs q.rcd.scope 4))) :
    exec (.windowExpiry n) s = .next (if u.scopeStopped q.rcd.scope then u else u.notify q.rcd.scope q.rcd.seq).errUpdate := by
  subst hu
  rw [exec_windowExpiry_due s n hq]
  exact congrArg (Host.Outcome.next ∘ State.errUpdate) (if_pos h3)

/-- Any other pending record takes its urgent action. -/
theorem windowExpiry_urgent (q : PendRec) (hq : s.dueRecord n (s.clock.urn + 1) = some q) (h3 : q.rcd.sev ≠ 3) :
    exec (.windowExpiry n) s = .next (s.urgentAction q.rcd).errUpdate := by
  rw [exec_windowExpiry_due s n hq]
  exact congrArg (Host.Outcome.next ∘ State.errUpdate) (if_neg h3)

end

theorem urnSecond_waits (s : State) (h : s.clock.urn / 1000000000 ≤ s.urn.secondNo) : exec .urnSecond s = .next s :=
  congrArg Host.Outcome.next (if_neg h.not_gt)

theorem urnSecond_restarts (s : State) (h : s.urn.secondNo < s.clock.urn / 1000000000) : completes .urnSecond s fun t =>
    t.urn.second = [] ∧ t.urn.secondNo = s.clock.urn / 1000000000 ∧ t.regs = s.regs ∧ t.mem = s.mem :=
  ⟨_, congrArg Host.Outcome.next (if_pos h), rfl, rfl, rfl, rfl⟩

/-! ## Acknowledgements and software (R459, R461) -/

section
variable (s : State)

theorem fcAck_by_master (r : Requester) (n : Nat) (hr : r = .steward ∨ s.isMaster r = true) :
    exec (.fcAck r n) s = .next (s.ackRecord n) :=
  congrArg Host.Outcome.next (if_pos ((Bool.or_eq_true _ _).mpr (hr.imp_left beq_iff_eq.mpr)))

/-- A core of partition S acknowledges by the record it names: it is neither the Steward nor a controlling master. -/
theorem exec_fcAck_hart (h n : Nat) : exec (.fcAck (.hart h) n) s = .next (match s.urn.pending.find? (fun q => q.rcd.seq == n) with
    | some q => if q.rcd.scope = 4 then s.ackRecord n else s.swDenied
    | none => s) := rfl

theorem fcAck_by_hart (h n : Nat) (q : PendRec) (hq : s.urn.pending.find? (fun q => q.rcd.seq == n) = some q) :
    exec (.fcAck (.hart h) n) s = .next (if q.rcd.scope = 4 then s.ackRecord n else s.swDenied) := by
  rw [exec_fcAck_hart, hq]

theorem fcAck_by_hart_closed (h n : Nat) (hq : s.urn.pending.find? (fun q => q.rcd.seq == n) = none) :
    exec (.fcAck (.hart h) n) s = .next s := by
  rw [exec_fcAck_hart, hq]

theorem fcAck_denied (r : Requester) (n : Nat) (hs : r ≠ .steward) (hm : s.isMaster r = false) (hh : ∀ h, r ≠ .hart h) :
    exec (.fcAck r n) s = .next s.swDenied := by
  have hn : ¬ (r == .steward || s.isMaster r) = true := by rw [hm, Bool.or_false, beq_iff_eq]; exact hs
  refine congrArg Host.Outcome.next ((if_neg hn).trans (if_neg ?_))
  cases r with
  | hart h => exact absurd rfl (hh h)
  | _ => exact Bool.false_ne_true

theorem fcSwRaise_raises (r : Requester) (v : Nat) (h : bits v 26 24 ≠ 5 ∧ bits v 26 24 ≠ 6 ∧
      (r = .steward ∨ s.isMaster r = true ∨ (bits v 26 24 < 5 ∧ s.partOf r = some (bits v 26 24)))) : exec (.fcSwRaise r v) s =
      .next (s.raise (.software (v % 256)) (bits v 26 24) { req := r.index, ctx := r.ctx.getD 0xFF, info0 := bits v 23 8 }) :=
  congrArg Host.Outcome.next (if_pos h)

theorem fcSwRaise_denied (r : Requester) (v : Nat) (h : ¬ (bits v 26 24 ≠ 5 ∧ bits v 26 24 ≠ 6 ∧
      (r = .steward ∨ s.isMaster r = true ∨ (bits v 26 24 < 5 ∧ s.partOf r = some (bits v 26 24))))) :
    exec (.fcSwRaise r v) s = .next s.swDenied := congrArg Host.Outcome.next (if_neg h)

end

/-- Settles O31: reports and safe states where they act, raises by their source, windows by the record's severity, acknowledgements and
software by who asks, then what changes nothing. -/
theorem faultReporting : Obligations.FaultReporting :=
  ⟨lockstepMismatch_mismatches, reportPathFault_mismatches, tasterMissed_raises, safeState_enters, deviceSafeState_enters,
    urnSafeCmdParts_enters, urnSafeCmdDevice_enters, urnSafeCmd_ignored, stSafeCmd_forwards, stSafeCmd_not_master, errOutReturn_returns,
    faultRaise_raises, faultRaise_dppMismatch, faultRaise_peAerUncor, faultRaise_no_scope, faultRaise_boot_test, windowExpiry_deferred,
    windowExpiry_urgent, windowExpiry_waits, urnSecond_waits, urnSecond_restarts, fcAck_by_master, fcAck_by_hart, fcAck_by_hart_closed,
    fcAck_denied, fcSwRaise_raises, fcSwRaise_denied, lockstepMismatch_ignored, reportPathFault_ignored, tasterMissed_no_table,
    tasterMissed_waits, safeState_ignored, deviceSafeState_ignored, errOutReturn_waits⟩

end Sys2Proof.Machine
end

section
/-! SUPPORT. The Caddy (R479 to R499): attestation, certificates, owner records, minimum versions, measurement extensions and the random
number generator; and the waits of firmware switchover and of the recovery boot (R474, R475, R486). -/

namespace Sys2Proof.Machine

/-! ## Attestation (R494) -/

section
variable (s : State) (ring idx : Nat) (k : Cmd)

theorem attest_not_there (hk : s.mbCmd ring idx 0x20 = none) : exec (.attest ring idx) s = .next s := by
  change execAttest ring idx s = _
  simp only [execAttest, hk]

theorem attest_waits (hk : s.mbCmd ring idx 0x20 = some k)
    (h : s.lpReady (k.arg 8 6) 64 = false ∨ s.lpReady (k.arg 0x10 6) 4141 = false) : exec (.attest ring idx) s = .next s := by
  have hwait : (!(s.lpReady (k.arg 8 6) 64 && s.lpReady (k.arg 0x10 6) 4141)) = true := by
    rcases h with h | h <;> simp [h]
  change execAttest ring idx s = _
  simp only [execAttest, hk, hwait, if_true]

section
variable (n : RdRes) (u : State) (w : Option AccErr × State)
variable (hk : s.mbCmd ring idx 0x20 = some k) (hn : s.lpReady (k.arg 8 6) 64 = true) (hr : s.lpReady (k.arg 0x10 6) 4141 = true)
include hk hn hr

theorem attest_unaligned (ha : k.arg 0x10 6 % 64 ≠ 0) :
    exec (.attest ring idx) s = .next ((s.begin_ ring idx).complete ring idx stInvalid 0 0) := by
  change execAttest ring idx s = _
  simp only [execAttest, hk, hn, hr, if_pos ha, Bool.and_self, Bool.not_true, Bool.false_eq_true, if_false]

variable (ha : k.arg 0x10 6 % 64 = 0)
include ha

theorem attest_unhealthy (ht : bit ((s.begin_ ring idx).rd (cadReg 4)) 0 = false) :
    exec (.attest ring idx) s = .next ((s.begin_ ring idx).complete ring idx stRefused 9 0) := by
  change execAttest ring idx s = _
  simp only [execAttest, hk, hn, hr, if_neg (not_not_intro ha), ht, Bool.and_self, Bool.not_true, Bool.not_false, Bool.false_eq_true,
    if_false, if_true]

variable (ht : bit ((s.begin_ ring idx).rd (cadReg 4)) 0 = true)
include ht

/-- A healthy ATTEST reads its nonce, and writes the report where the nonce can be read. -/
theorem exec_attest_reads (hq : (s.begin_ ring idx).memRead .caddy (k.arg 8 6) 64 = (n, u)) :
    exec (.attest ring idx) s = .next (if n.err.isSome then u.refuseAny ring idx
      else if ((u.signedReport n.bytes).2.memWrite .caddy (k.arg 0x10 6) (u.signedReport n.bytes).1).1.isSome then
        ((u.signedReport n.bytes).2.memWrite .caddy (k.arg 0x10 6) (u.signedReport n.bytes).1).2.refuseAny ring idx
      else ((u.signedReport n.bytes).2.memWrite .caddy (k.arg 0x10 6) (u.signedReport n.bytes).1).2.complete ring idx stOk 0 4141) := by
  change execAttest ring idx s = _
  simp only [execAttest, hk, hn, hr, if_neg (not_not_intro ha), ht, hq, Bool.and_self, Bool.not_true, Bool.false_eq_true, if_false]

theorem attest_reports (hq : (s.begin_ ring idx).memRead .caddy (k.arg 8 6) 64 = (n, u)) (he : n.err = none)
    (hw : w = (u.signedReport n.bytes).2.memWrite .caddy (k.arg 0x10 6) (u.signedReport n.bytes).1) :
    exec (.attest ring idx) s = .next (if w.1.isSome then w.2.refuseAny ring idx else w.2.complete ring idx stOk 0 4141) := by
  rw [exec_attest_reads s ring idx k n u hk hn hr ha ht hq, if_neg (by rw [he]; decide), hw]

theorem attest_unread (hq : (s.begin_ ring idx).memRead .caddy (k.arg 8 6) 64 = (n, u)) (he : n.err ≠ none) :
    exec (.attest ring idx) s = .next (u.refuseAny ring idx) := by
  rw [exec_attest_reads s ring idx k n u hk hn hr ha ht hq, if_pos (Option.isSome_iff_ne_none.mpr he)]

end

/-! ## Certificates (R497) -/

theorem certRead_not_there (hk : s.mbCmd ring idx 0x21 = none) : exec (.certRead ring idx) s = .next s := by
  change execCertRead ring idx s = _
  simp only [execCertRead, hk]

section
variable (len put : Nat) (w : Option AccErr × State) (hk : s.mbCmd ring idx 0x21 = some k)
  (hl : len = Config.certLength (k.arg 8 8) (if k.arg 8 8 < 2 then 0 else s.caddy.keyGen)) (hp : put = min len (k.arg 0x18 4))
include hk hl hp

theorem certRead_waits (hr : s.lpReady (k.arg 0x10 6) (max 1 put) = false) : exec (.certRead ring idx) s = .next s := by
  subst hl hp
  change execCertRead ring idx s = _
  simp only [execCertRead, hk, hr, Bool.not_false, if_true]

variable (hr : s.lpReady (k.arg 0x10 6) (max 1 put) = true)
include hr

theorem certRead_invalid (hn : 4 ≤ k.arg 8 8) :
    exec (.certRead ring idx) s = .next ((s.begin_ ring idx).complete ring idx stInvalid 0 0) := by
  subst hl hp
  change execCertRead ring idx s = _
  simp only [execCertRead, hk, hr, if_pos hn, Bool.not_true, Bool.false_eq_true, if_false]

theorem certRead_writes (hn : k.arg 8 8 < 4)
    (hw : w = (s.begin_ ring idx).memWrite .caddy (k.arg 0x10 6)
      ((List.range put).map fun i => Config.certByte (k.arg 8 8) (if k.arg 8 8 < 2 then 0 else s.caddy.keyGen) i)) :
    exec (.certRead ring idx) s = .next (if put = 0 then (s.begin_ ring idx).complete ring idx stOk 0 len
      else if w.1.isSome then w.2.refuseAny ring idx else w.2.complete ring idx stOk 0 len) := by
  subst hw hl hp
  change execCertRead ring idx s = _
  simp only [execCertRead, hk, hr, if_neg hn.not_ge, Bool.not_true, Bool.false_eq_true, if_false]

end

/-! ## Owner records (R490, R491) -/

section
variable (opcode op : Nat) (v : SigVerdict)

theorem State.ownerRun_ready (hk : s.mbCmd ring idx opcode = some k) (hr : s.lpReady (k.arg 8 6) (0x840 + sigLen) = true) :
    s.ownerRun ring idx opcode op v = (s.begin_ ring idx).ownerCmd ring idx op k v := by
  simp only [State.ownerRun, hk, hr, if_true]

theorem State.ownerRun_waits (hk : s.mbCmd ring idx opcode = some k) (hr : s.lpReady (k.arg 8 6) (0x840 + sigLen) = false) :
    s.ownerRun ring idx opcode op v = s := by
  simp only [State.ownerRun, hk, hr, Bool.false_eq_true, if_false]

theorem State.ownerRun_none (hk : s.mbCmd ring idx opcode = none) : s.ownerRun ring idx opcode op v = s := by
  simp only [State.ownerRun, hk]

end

section
variable (v : SigVerdict)

theorem ownerEnrol_runs (hk : s.mbCmd ring idx 0x22 = some k) (hr : s.lpReady (k.arg 8 6) (0x840 + sigLen) = true) :
    exec (.ownerEnrol ring idx v) s = .next ((s.begin_ ring idx).ownerCmd ring idx 1 k v) :=
  congrArg Host.Outcome.next (s.ownerRun_ready ring idx k 0x22 1 v hk hr)

theorem ownerEnrol_waits (hk : s.mbCmd ring idx 0x22 = some k) (hr : s.lpReady (k.arg 8 6) (0x840 + sigLen) = false) :
    exec (.ownerEnrol ring idx v) s = .next s := congrArg Host.Outcome.next (s.ownerRun_waits ring idx k 0x22 1 v hk hr)

theorem ownerEnrol_not_there (hk : s.mbCmd ring idx 0x22 = none) : exec (.ownerEnrol ring idx v) s = .next s :=
  congrArg Host.Outcome.next (s.ownerRun_none ring idx 0x22 1 v hk)

theorem ownerRevoke_runs (hk : s.mbCmd ring idx 0x23 = some k) (hr : s.lpReady (k.arg 8 6) (0x840 + sigLen) = true) :
    exec (.ownerRevoke ring idx v) s = .next ((s.begin_ ring idx).ownerCmd ring idx 2 k v) :=
  congrArg Host.Outcome.next (s.ownerRun_ready ring idx k 0x23 2 v hk hr)

theorem ownerRevoke_waits (hk : s.mbCmd ring idx 0x23 = some k) (hr : s.lpReady (k.arg 8 6) (0x840 + sigLen) = false) :
    exec (.ownerRevoke ring idx v) s = .next s := congrArg Host.Outcome.next (s.ownerRun_waits ring idx k 0x23 2 v hk hr)

theorem ownerRevoke_not_there (hk : s.mbCmd ring idx 0x23 = none) : exec (.ownerRevoke ring idx v) s = .next s :=
  congrArg Host.Outcome.next (s.ownerRun_none ring idx 0x23 2 v hk)

end

/-! ## Minimum versions (R488, R489) -/

theorem siMinRaise_not_there (hk : s.mbCmd ring idx 0x24 = none) : exec (.siMinRaise ring idx) s = .next s :=
  congrArg Host.Outcome.next (State.mbox_none _ hk)

/-- What refuses a value: no current image, a value of 0 or above its version, or one that does not rise. -/
theorem State.siMinRefused_iff (u : State) (v : Nat) : (u.si.current.isEmpty || v == 0 || decide (imgVersion u.si.current < v) ||
      (List.range 8).any fun m => decide (v ≤ u.siMin m)) = true ↔
    u.si.current = [] ∨ v = 0 ∨ imgVersion u.si.current < v ∨ ∃ m < 8, v ≤ u.siMin m := by
  simp only [Bool.or_eq_true, List.isEmpty_iff, beq_iff_eq, decide_eq_true_eq, List.any_eq_true, List.mem_range, or_assoc]

section
variable (n v : Nat) (hk : s.mbCmd ring idx 0x24 = some k)
include hk

/-- A SI_MIN_RAISE that has started, by the first unused slot. -/
theorem exec_siMinRaise_started (u : State) (hu : u = s.begin_ ring idx) : exec (.siMinRaise ring idx) s =
    .next (match (List.range 8).find? fun n => u.siMin n == 0 with
      | none => u.complete ring idx stRefused 8 0
      | some n => if (u.si.current.isEmpty || k.arg 8 4 == 0 || decide (imgVersion u.si.current < k.arg 8 4) ||
            (List.range 8).any fun m => decide (k.arg 8 4 ≤ u.siMin m)) = true then u.complete ring idx stRefused 7 0
        else (((u.wr (cadReg (0x10 + 4 * n)) (k.arg 8 4)).wr (stReg 0x1010) (max (u.rd (stReg 0x1010)) (k.arg 8 4))).wr (stReg 0x100C)
          (max (u.rd (stReg 0x100C)) (k.arg 8 4))).complete ring idx stOk 0 0) := by
  subst hu
  exact (congrArg Host.Outcome.next (State.mbox_taken _ hk)).trans rfl

theorem siMinRaise_programs (hv : v = k.arg 8 4)
    (hn : (List.range 8).find? (fun m => (s.begin_ ring idx).siMin m == 0) = some n) (hc : (s.begin_ ring idx).si.current ≠ [])
    (h0 : v ≠ 0) (hi : v ≤ imgVersion (s.begin_ ring idx).si.current) (hm : ∀ m < 8, (s.begin_ ring idx).siMin m < v) :
    exec (.siMinRaise ring idx) s = .next (((((s.begin_ ring idx).wr (cadReg (0x10 + 4 * n)) v).wr (stReg 0x1010)
      (max ((s.begin_ ring idx).rd (stReg 0x1010)) v)).wr (stReg 0x100C) (max ((s.begin_ ring idx).rd (stReg 0x100C)) v)).complete
        ring idx stOk 0 0) := by
  subst hv
  rw [exec_siMinRaise_started s ring idx k hk _ rfl, hn]
  refine congrArg Host.Outcome.next (if_neg fun hrefused => ?_)
  rcases (State.siMinRefused_iff _ _).mp hrefused with h | h | h | ⟨m, h8, h⟩
  · exact hc h
  · exact h0 h
  · exact h.not_ge hi
  · exact (hm m h8).not_ge h

theorem siMinRaise_full (hm : ∀ m < 8, (s.begin_ ring idx).siMin m ≠ 0) :
    exec (.siMinRaise ring idx) s = .next ((s.begin_ ring idx).complete ring idx stRefused 8 0) := by
  have hn : (List.range 8).find? (fun m => (s.begin_ ring idx).siMin m == 0) = none := by
    simpa only [List.find?_eq_none, List.mem_range, beq_iff_eq] using hm
  rw [exec_siMinRaise_started s ring idx k hk _ rfl, hn]

theorem siMinRaise_does_not_rise (hm : ∃ m < 8, (s.begin_ ring idx).siMin m = 0)
    (h : (s.begin_ ring idx).si.current = [] ∨ k.arg 8 4 = 0 ∨ imgVersion (s.begin_ ring idx).si.current < k.arg 8 4 ∨
      ∃ m < 8, k.arg 8 4 ≤ (s.begin_ ring idx).siMin m) :
    exec (.siMinRaise ring idx) s = .next ((s.begin_ ring idx).complete ring idx stRefused 7 0) := by
  obtain ⟨n, hn⟩ : ∃ n, (List.range 8).find? (fun m => (s.begin_ ring idx).siMin m == 0) = some n := by
    simpa only [← Option.isSome_iff_exists, List.find?_isSome, List.mem_range, beq_iff_eq] using hm
  rw [exec_siMinRaise_started s ring idx k hk _ rfl, hn]
  exact congrArg Host.Outcome.next (if_pos ((State.siMinRefused_iff _ _).mpr h))

end

end

/-! ## Measurement extensions and random numbers (R492, R493, R499) -/

section
variable (s : State) (r : Requester) (v : Nat)

theorem cadExtCmd_denied (hm : mayExtend r (v % 8) = false) : exec (.cadExtCmd r v) s = .next (s.orReg (cadReg 4) (2 ^ 31)) :=
  congrArg Host.Outcome.next (if_pos (by rw [hm]; rfl))

theorem exec_cadExtCmd_allowed (hm : mayExtend r (v % 8) = true) : exec (.cadExtCmd r v) s =
    .next (if 4 ≤ s.caddy.ext.length then s.orReg (cadReg 4) (2 ^ 30)
      else State.showExt { s with caddy := { s.caddy with ext := s.caddy.ext ++ [(v % 8, s.rdDigest (cadReg 0x340))] } }) :=
  congrArg Host.Outcome.next (if_neg (by rw [hm]; decide))

theorem cadExtCmd_waits (hm : mayExtend r (v % 8) = true) (hl : s.caddy.ext.length < 4) : exec (.cadExtCmd r v) s =
    .next (State.showExt { s with caddy := { s.caddy with ext := s.caddy.ext ++ [(v % 8, s.rdDigest (cadReg 0x340))] } }) := by
  rw [exec_cadExtCmd_allowed s r v hm, if_neg hl.not_ge]

theorem cadExtCmd_full (hm : mayExtend r (v % 8) = true) (hl : 4 ≤ s.caddy.ext.length) :
    exec (.cadExtCmd r v) s = .next (s.orReg (cadReg 4) (2 ^ 30)) := by
  rw [exec_cadExtCmd_allowed s r v hm, if_pos hl]

theorem cadTrngFail_raises : exec .cadTrngFail s = .next (State.raise (s.setFld (cadReg 4) 0 0 0) .cadTrngFail 7 {}) := rfl

/-- Bits set in a register read as set, and the others as before. -/
theorem State.bit_rd_orReg {a m n : Nat} (hs : s.regsWf = true) (hm : m < 2 ^ 32) :
    bit ((s.orReg a m).rd a) n = (bit (s.rd a) n || m.testBit n) := by
  have hrd : (s.orReg a m).rd a = (s.rd a ||| m) % 2 ^ 32 := s.rd_wr_same _ _ hs
  rw [hrd, Nat.mod_eq_of_lt (Nat.or_lt_two_pow (s.rd_lt a) hm), bit_eq_testBit, bit_eq_testBit, Nat.testBit_or]

theorem trngOkReturn_sets (a : Nat) (ha : a ≠ cadReg 4) (hs : s.regsWf = true) : completes .trngOkReturn s fun t =>
    bit (t.rd (cadReg 4)) 0 = true ∧ t.rd a = s.rd a ∧ t.mem = s.mem ∧ t.caddy = s.caddy := by
  refine ⟨s.orReg (cadReg 4) (2 ^ 0), rfl, ?_, s.rd_wr_other _ _ _ ha, rfl, rfl⟩
  rw [s.bit_rd_orReg hs (by decide), Nat.testBit_two_pow_self, Bool.or_true]

end

/-! ## Waits of firmware (R474, R475, R486) -/

section
variable (s : State)

theorem fwSwitchover_waits (h : s.urn.fwStaged = none ∨
      s.fwState ≠ 1 ∨ s.si.current = [] ∨ s.atBoundary (imgFallback s.si.current) = false ∨
      s.clock.urn < s.urn.fwStagedAt + 2000000 ∨ s.si.hotDev = true ∨ s.si.hotPend.contains (imgFallback s.si.current) = true ∨
      s.urn.active ≠ []) : exec .fwSwitchover s = .next s := by
  change execFwSwitchover s = _
  cases hf : s.urn.fwStaged with
  | none => simp only [execFwSwitchover, hf]
  | some g =>
    simp only [execFwSwitchover, hf]
    refine congrArg Host.Outcome.next (if_neg ?_)
    rintro ⟨h1, hc, hb, hd, hh, hp, ha⟩
    rcases h with h | h | h | h | h | h | h | h
    · exact Option.some_ne_none g (hf.symm.trans h)
    · exact h h1
    · exact hc h
    · exact Bool.false_ne_true (h.symm.trans hb)
    · exact h.not_ge hd
    · exact Bool.false_ne_true (hh.symm.trans h)
    · exact Bool.false_ne_true (hp.symm.trans h)
    · exact h ha

theorem confirm_waits (r : Requester)
    (h : r ≠ .steward ∨ s.fwState ≠ 3 ∨ s.urn.fwHb = false ∨ s.urn.fwSwitchAt + 10000000 ≤ s.clock.urn) :
    exec (.confirm r) s = .next s := by
  refine congrArg Host.Outcome.next (if_neg ?_)
  rintro ⟨hr, h3, hb, hd⟩
  rcases h with h | h | h | h
  · exact h hr
  · exact h h3
  · exact Bool.false_ne_true (h.symm.trans hb)
  · exact h.not_gt hd

theorem fwSwitchFail_waits (h : (s.fwState ≠ 2 ∧ s.fwState ≠ 3) ∨ s.clock.urn < s.urn.fwSwitchAt + 10000000) :
    exec .fwSwitchFail s = .next s := congrArg Host.Outcome.next (if_neg (by omega))

theorem flashRewriteEnd_waits (b : Bool) (h : s.fwState ≠ 4) : exec (.flashRewriteEnd b) s = .next s :=
  congrArg Host.Outcome.next (if_neg fun hf => h hf.1)

theorem recoveryPoll_waits (v : SigVerdict)
    (h : s.power.recovery = false ∨ s.clock.aon < s.power.pollAt + 1000000 ∨ s.lpReady 0 64 = false) :
    exec (.recoveryPoll v) s = .next s := by
  refine congrArg Host.Outcome.next (if_neg ?_)
  simp only [Bool.and_eq_true, decide_eq_true_eq]
  rintro ⟨⟨hr, hd⟩, hl⟩
  rcases h with h | h | h
  · exact Bool.false_ne_true (h.symm.trans hr)
  · exact h.not_ge hd
  · exact Bool.false_ne_true (h.symm.trans hl)

end

/-- Settles O34: each command of the mailbox by what it finds, extensions by their writer and their number, the generator, and the waits. -/
theorem caddyCommands : Obligations.CaddyCommands :=
  ⟨attest_unaligned, attest_unhealthy, attest_reports, certRead_invalid, certRead_writes, ownerEnrol_runs, ownerRevoke_runs,
    siMinRaise_programs, siMinRaise_full, siMinRaise_does_not_rise, cadExtCmd_waits, cadExtCmd_full, cadExtCmd_denied, cadTrngFail_raises,
    trngOkReturn_sets, attest_not_there, certRead_not_there, ownerEnrol_not_there, ownerEnrol_waits, ownerRevoke_not_there,
    ownerRevoke_waits, siMinRaise_not_there, attest_waits, attest_unread,
    certRead_waits, fwSwitchover_waits, confirm_waits, fwSwitchFail_waits, flashRewriteEnd_waits, recoveryPoll_waits⟩

end Sys2Proof.Machine
end

section
/-! SUPPORT. Power states (R501 to R507, R522, R528): who may command which, the end of a transition, wake sources, the rails on the way out
of Retain; and a PLL that loses lock (R513). -/

namespace Sys2Proof.Machine

/-! ## Commands to a state (R502, Table 23-3) -/

section
variable (s : State) (r : Requester)

theorem State.mayPower_iff : s.mayPower r = true ↔ r = .steward ∨ s.isMaster r = true ∨ ∃ h, r = .hart h := by
  rw [State.mayPower.eq_def, Bool.or_eq_true, Bool.or_eq_true, beq_iff_eq, or_assoc]
  refine or_congr_right (or_congr_right ?_)
  cases r <;> simp

theorem State.pmCommand_by_other (target : Nat) (hr : s.mayPower r = false) : s.pmCommand r target = s :=
  if_pos (by rw [hr]; rfl)

/-- A command to a state other than Off by one who may give it. -/
theorem State.pmCommand_to {target : Nat} {c : Prop} [Decidable c] (hr : s.mayPower r = true) (ht : target ≠ 4)
    (hc : s.pmPermits target = true ↔ c) :
    s.pmCommand r target = if c ∧ s.pmBusy = false then s.pmBegin target else s.orReg (pmReg 0) (2 ^ 31) := by
  have htest : (s.pmPermits target && (target == 4 || !s.pmBusy)) = true ↔ c ∧ s.pmBusy = false := by
    rw [Bool.and_eq_true, beq_false_of_ne ht, Bool.false_or, Bool.not_eq_true', hc]
  rw [State.pmCommand, if_neg (by rw [hr]; decide)]
  exact if_congr htest rfl rfl

/-- Off is permitted from every state and during a transition. -/
theorem State.pmCommand_off (hr : s.mayPower r = true) : s.pmCommand r 4 = s.pmBegin 4 :=
  (if_neg (by rw [hr]; decide)).trans (if_pos rfl)

theorem State.pmPermits_run : s.pmPermits 0 = true ↔ s.pmState = 1 ∨ s.pmState = 2 := by
  simp only [State.pmPermits, Bool.or_eq_true, beq_iff_eq]

theorem State.pmPermits_trim : s.pmPermits 1 = true ↔ s.pmState = 0 := by
  simp only [State.pmPermits, beq_iff_eq]

theorem State.pmPermits_watch : s.pmPermits 2 = true ↔ (s.pmState = 0 ∨ s.pmState = 1) ∧ s.watchPart ≠ 0xFF := by
  simp only [State.pmPermits, Bool.and_eq_true, Bool.or_eq_true, beq_iff_eq, bne_iff_ne]

theorem State.pmPermits_retain : s.pmPermits 3 = true ↔ s.pmState ≤ 2 := by
  simp only [State.pmPermits, decide_eq_true_eq]

/-- Settles O51: a command counts from who may give it, and begins where its row of Table 23-3 permits it. -/
theorem powerCommandsPermitted : Obligations.PowerCommandsPermitted := by
  intro s r
  rw [← s.mayPower_iff]
  constructor
  · intro hr
    have hignored := fun target => s.pmCommand_by_other r target (Bool.eq_false_iff.mpr hr)
    exact ⟨congrArg _ (hignored 0), congrArg _ (hignored 1), congrArg _ (hignored 2), congrArg _ (hignored 3), congrArg _ (hignored 4)⟩
  · intro hr
    have hwatch := (s.pmCommand_to r hr (by decide) s.pmPermits_watch).trans (if_congr and_assoc rfl rfl)
    exact ⟨congrArg _ (s.pmCommand_to r hr (by decide) s.pmPermits_run), congrArg _ (s.pmCommand_to r hr (by decide) s.pmPermits_trim),
      congrArg _ hwatch, congrArg _ (s.pmCommand_to r hr (by decide) s.pmPermits_retain), congrArg _ (s.pmCommand_off r hr)⟩

end

/-! ## The end of a transition (R503, R504) -/

section
variable (s : State)

/-- What ends: an exit, unless Retain is not left yet; the way to Off; an entry whose partitions are all parked. -/
theorem exec_stateEntryComplete_busy (hb : s.pmBusy = true) {u v : State}
    (hu : u = ((s.setFld (pmReg 0) 3 0 0).setFld (pmReg 0) 7 4 0).leaveRefresh) (hv : v = s.enterState s.pmTarget) :
    exec .stateEntryComplete s = .next (if s.power.exiting = true then
        if s.pmState = 3 then s
        else (State.spoutsOn { u with power := { u.power with exiting := false } }).unpark u.power.parked
      else if s.pmTarget = 4 then s.enterOff
      else if (s.parkSet s.pmTarget).all (fun p => s.power.parked.contains p) = true then
        if s.power.wake = true then State.startExit { v with power := { v.power with wake := false } } else v
      else s) := by
  subst hu hv
  exact congrArg Host.Outcome.next (if_neg (by rw [hb]; decide))

theorem stateEntryComplete_returns (u : State) (hb : s.pmBusy = true) (he : s.power.exiting = true) (h3 : s.pmState ≠ 3)
    (hu : u = ((s.setFld (pmReg 0) 3 0 0).setFld (pmReg 0) 7 4 0).leaveRefresh) : exec .stateEntryComplete s =
      .next ((State.spoutsOn { u with power := { u.power with exiting := false } }).unpark u.power.parked) := by
  rw [exec_stateEntryComplete_busy s hb hu rfl, if_pos he, if_neg h3]

theorem stateEntryComplete_off (hb : s.pmBusy = true) (he : s.power.exiting = false) (h4 : s.pmTarget = 4) :
    exec .stateEntryComplete s = .next s.enterOff := by
  rw [exec_stateEntryComplete_busy s hb rfl rfl, if_neg (by rw [he]; decide), if_pos h4]

theorem stateEntryComplete_enters (u : State) (hb : s.pmBusy = true) (he : s.power.exiting = false) (h4 : s.pmTarget ≠ 4)
    (hp : (s.parkSet s.pmTarget).all (fun p => s.power.parked.contains p) = true) (hu : u = s.enterState s.pmTarget) :
    exec .stateEntryComplete s =
      .next (if s.power.wake then State.startExit { u with power := { u.power with wake := false } } else u) := by
  rw [exec_stateEntryComplete_busy s hb rfl hu, if_neg (by rw [he]; decide), if_neg h4, if_pos hp]

theorem stateEntryComplete_waits (h : s.pmBusy = false ∨ (s.power.exiting = true ∧ s.pmState = 3) ∨ (s.power.exiting = false ∧
      s.pmTarget ≠ 4 ∧ (s.parkSet s.pmTarget).all (fun p => s.power.parked.contains p) = false)) :
    exec .stateEntryComplete s = .next s := by
  cases hb : s.pmBusy with
  | false => exact congrArg Host.Outcome.next (if_pos (by rw [hb]; rfl))
  | true =>
    rw [exec_stateEntryComplete_busy s hb rfl rfl]
    rcases h with h | ⟨he, h3⟩ | ⟨he, h4, hp⟩
    · exact absurd (h.symm.trans hb) Bool.false_ne_true
    · rw [if_pos he, if_pos h3]
    · rw [if_neg (by rw [he]; decide), if_neg h4, if_neg (by rw [hp]; decide)]

end

/-! ## Wake sources (R506, R507) -/

/-- The states a wake leaves: Trim, Watch and Retain. -/
def lowState (n : Nat) : Bool := decide (1 ≤ n) && decide (n ≤ 3)

theorem lowState_iff {n : Nat} : lowState n = true ↔ 1 ≤ n ∧ n ≤ 3 := by
  rw [lowState, Bool.and_eq_true, decide_eq_true_eq, decide_eq_true_eq]

section
variable (s : State) (w : Nat)

/-- On the way to a state that a wake leaves. -/
def State.entersLow : Bool := s.pmBusy && !s.power.exiting && lowState s.pmTarget

/-- An enabled source while the device is neither held in reset nor shut (R506). -/
def State.wakeCounts : Bool := decide (w < 4) && s.wakeEn w && s.power.resetN && !s.power.shut

theorem State.wakeCounts_iff : s.wakeCounts w = true ↔
    w < 4 ∧ s.wakeEn w = true ∧ s.power.resetN = true ∧ s.power.shut = false := by
  simp only [State.wakeCounts, Bool.and_eq_true, decide_eq_true_eq, Bool.not_eq_true', and_assoc]

theorem State.entersLow_iff : s.entersLow = true ↔
    s.pmBusy = true ∧ s.power.exiting = false ∧ 1 ≤ s.pmTarget ∧ s.pmTarget ≤ 3 := by
  rw [State.entersLow, Bool.and_eq_true, Bool.and_eq_true, Bool.not_eq_true', lowState_iff, and_assoc]

theorem State.pmBusy_wakeNote : (s.wakeNote w).pmBusy = s.pmBusy := by
  have hrd : (s.wakeNote w).rd (pmReg 0) = s.rd (pmReg 0) := by
    unfold State.wakeNote
    extract_lets v t first u
    have hu : u.rd (pmReg 0) = s.rd (pmReg 0) := s.rd_wr_other (pmReg 8) _ _ (by decide)
    split
    · exact (State.rd_setFld_other _ (pmReg 8) _ _ _ _ (by decide)).trans hu
    · exact hu
  rw [State.pmBusy, hrd, State.pmBusy]

theorem State.wake_ignored (h : s.wakeCounts w = false ∨ (lowState s.pmState = false ∧ s.entersLow = false)) : s.wake w = s := by
  refine if_pos ?_
  change (!(s.wakeCounts w && (lowState s.pmState || s.entersLow))) = true
  rcases h with h | ⟨h, h'⟩ <;> simp [*]

/-- A source that counts is noted; on the way to a lower state it is remembered, and from one it starts the exit. -/
theorem State.wake_noted (hc : s.wakeCounts w = true) (hl : lowState s.pmState = true ∨ s.entersLow = true) : s.wake w =
    if s.entersLow = true then State.orReg { s.wakeNote w with power := { (s.wakeNote w).power with wake := true } } (pmReg 0) (2 ^ 30)
    else if (s.wakeNote w).pmBusy = true then s.wakeNote w else (s.wakeNote w).startExit := by
  refine if_neg ?_
  change ¬ (!(s.wakeCounts w && (lowState s.pmState || s.entersLow))) = true
  rcases hl with hl | hl <;> simp [hc, hl]

section
variable (hw : w < 4) (he : s.wakeEn w = true) (hr : s.power.resetN = true) (hs : s.power.shut = false)
include hw he hr hs

theorem wakeSource_starts_exit (hl : 1 ≤ s.pmState ∧ s.pmState ≤ 3) (hb : s.pmBusy = false) :
    exec (.wakeSource w) s = .next (s.wakeNote w).startExit := by
  have hn : ¬ s.entersLow = true := fun h => Bool.false_ne_true (hb.symm.trans (s.entersLow_iff.mp h).1)
  refine congrArg Host.Outcome.next ?_
  rw [s.wake_noted w ((s.wakeCounts_iff w).mpr ⟨hw, he, hr, hs⟩) (.inl (lowState_iff.mpr hl)), if_neg hn, s.pmBusy_wakeNote w,
    if_neg (by rw [hb]; decide)]

theorem wakeSource_meets_entry (hb : s.pmBusy = true) (hx : s.power.exiting = false) (ht : 1 ≤ s.pmTarget ∧ s.pmTarget ≤ 3) :
    exec (.wakeSource w) s =
      .next (State.orReg { s.wakeNote w with power := { (s.wakeNote w).power with wake := true } } (pmReg 0) (2 ^ 30)) := by
  have hn : s.entersLow = true := s.entersLow_iff.mpr ⟨hb, hx, ht⟩
  refine congrArg Host.Outcome.next ?_
  rw [s.wake_noted w ((s.wakeCounts_iff w).mpr ⟨hw, he, hr, hs⟩) (.inr hn), if_pos hn]

theorem wakeSource_meets_exit (hl : 1 ≤ s.pmState ∧ s.pmState ≤ 3) (hb : s.pmBusy = true) (hx : s.power.exiting = true) :
    exec (.wakeSource w) s = .next (s.wakeNote w) := by
  have hn : ¬ s.entersLow = true := fun h => Bool.false_ne_true ((s.entersLow_iff.mp h).2.1.symm.trans hx)
  refine congrArg Host.Outcome.next ?_
  rw [s.wake_noted w ((s.wakeCounts_iff w).mpr ⟨hw, he, hr, hs⟩) (.inl (lowState_iff.mpr hl)), if_neg hn, s.pmBusy_wakeNote w,
    if_pos hb]

end

theorem wakeSource_ignored (h : 4 ≤ w ∨ s.wakeEn w = false ∨ s.power.resetN = false ∨ s.power.shut = true ∨
      (s.pmState = 0 ∧ s.pmBusy = false) ∨ (s.pmState = 0 ∧ s.power.exiting = true)) : exec (.wakeSource w) s = .next s := by
  refine congrArg Host.Outcome.next (s.wake_ignored w ?_)
  simp only [← Bool.not_eq_true, s.wakeCounts_iff, lowState_iff, s.entersLow_iff]
  rcases h with h | h | h | h | ⟨h0, h⟩ | ⟨h0, h⟩
  · exact .inl fun hc => hc.1.not_ge h
  · exact .inl fun hc => Bool.false_ne_true (h.symm.trans hc.2.1)
  · exact .inl fun hc => Bool.false_ne_true (h.symm.trans hc.2.2.1)
  · exact .inl fun hc => hc.2.2.2 h
  · exact .inr ⟨by omega, fun hl => Bool.false_ne_true (h.symm.trans hl.1)⟩
  · exact .inr ⟨by omega, fun hl => hl.2.1 h⟩

theorem pmWakeReq_wakes (r : Requester) (hr : s.partOf r = some s.watchPart) : exec (.pmWakeReq r) s = .next (s.wake 2) :=
  congrArg Host.Outcome.next (if_pos hr)

theorem pmWakeReq_ignored (r : Requester) (hr : s.partOf r ≠ some s.watchPart) : exec (.pmWakeReq r) s = .next s :=
  congrArg Host.Outcome.next (if_neg hr)

theorem alarm_wakes (h : s.clock.aon * 32768 / 1000000000 % 2 ^ 64 = s.rd64 (pmReg 0x18)) : exec .alarm s = .next (s.wake 1) :=
  congrArg Host.Outcome.next (if_pos h)

theorem alarm_waits (h : s.clock.aon * 32768 / 1000000000 % 2 ^ 64 ≠ s.rd64 (pmReg 0x18)) : exec .alarm s = .next s :=
  congrArg Host.Outcome.next (if_neg h)

/-! ## Rails on the way out of Retain (R505, R528) -/

theorem switchedRailsInRange_exits (h3 : s.pmState = 3) (hx : s.power.exiting = true) (hr : s.power.railEn = true)
    (ht : bit (s.rd (pmReg 0xC0)) 31 = false) :
    exec .switchedRailsInRange s = .next (s.setFld (pmReg 0xC0) 8 0 0x1FF).exitRetain :=
  congrArg Host.Outcome.next (if_pos ⟨h3, hx, hr, ht⟩)

theorem switchedRailsInRange_ignored (h : s.pmState ≠ 3 ∨ s.power.exiting = false ∨ s.power.railEn = false ∨
      bit (s.rd (pmReg 0xC0)) 31 = true) : exec .switchedRailsInRange s = .next s := by
  refine congrArg Host.Outcome.next (if_neg ?_)
  rintro ⟨h3, hx, hr, ht⟩
  rcases h with h | h | h | h
  · exact h h3
  · exact Bool.false_ne_true (h.symm.trans hx)
  · exact Bool.false_ne_true (h.symm.trans hr)
  · exact Bool.false_ne_true (ht.symm.trans h)

theorem railTimeout_stays (h3 : s.pmState = 3) (hx : s.power.exiting = true) (hr : s.power.railEn = true)
    (hd : s.power.railAt + 50000000 ≤ s.clock.aon) :
    exec .railTimeout s = .next (State.orReg { s with power := { s.power with errLow := true } } (pmReg 0xC0) (2 ^ 31)) :=
  congrArg Host.Outcome.next (if_pos ⟨h3, hx, hr, hd⟩)

theorem railTimeout_waits (h : s.pmState ≠ 3 ∨ s.power.exiting = false ∨ s.power.railEn = false ∨
      s.clock.aon < s.power.railAt + 50000000) : exec .railTimeout s = .next s := by
  refine congrArg Host.Outcome.next (if_neg ?_)
  rintro ⟨h3, hx, hr, hd⟩
  rcases h with h | h | h | h
  · exact h h3
  · exact Bool.false_ne_true (h.symm.trans hx)
  · exact Bool.false_ne_true (h.symm.trans hr)
  · exact h.not_ge hd

end

/-- Settles O35: the end of a transition by its direction, a wake by where the device is, the rails by the state and the time. -/
theorem powerStates : Obligations.PowerStates :=
  ⟨stateEntryComplete_returns, stateEntryComplete_off, stateEntryComplete_enters, stateEntryComplete_waits, wakeSource_starts_exit,
    wakeSource_meets_entry, wakeSource_ignored, wakeSource_meets_exit, pmWakeReq_wakes, pmWakeReq_ignored, alarm_wakes, alarm_waits,
    switchedRailsInRange_exits, switchedRailsInRange_ignored, railTimeout_stays, railTimeout_waits, exec_powerUp⟩

/-! ## A PLL that loses lock (R513) -/

/-- Each PLL's bit of CK_STATUS once PLL n has lost lock. -/
theorem State.bit_pllUnlock (s : State) {m n : Nat} (hs : s.regsWf = true) (hm : m < 16) :
    bit (((s.setFld (ckReg 0) n n 0).orReg (ckReg 0) (2 ^ 31)).rd (ckReg 0)) m = if m = n then false else bit (s.rd (ckReg 0)) m := by
  have hwf : (s.setFld (ckReg 0) n n 0).regsWf = true := s.wr_regsWf _ _ hs
  have hsticky : (2 ^ 31).testBit m = false := Nat.testBit_two_pow_of_ne (by omega)
  have hz : bits 0 n n = 0 := by simp [bits]
  have hset := State.bit_rd_setFld_bit (a := ckReg 0) (n := n) (v := 0) hs (show m < 32 by omega)
  rw [hz] at hset
  rw [State.bit_rd_orReg _ hwf (by decide), hsticky, Bool.or_false, hset, bit_eq_testBit, Nat.zero_testBit]

/-- What leaves all registers but those of a list leaves all but those of a longer one. -/
theorem onlyRegs_mono {s t : State} {l m : List Nat} (h : onlyRegs s t l) (hlm : ∀ a ∈ l, a ∈ m) : onlyRegs s t m :=
  ⟨fun a ha => h.1 a fun hl => ha (hlm a hl), fun e he => (h.2.1 e he).imp_right (hlm _), fun e he => (h.2.2.1 e he).imp_right (hlm _), h.2.2.2⟩

/-- Settles O52: the field of PLL n is cleared and the sticky bit set, in CK_STATUS alone. -/
theorem pllLossOfLock : Obligations.PllLossOfLock := by
  intro s n hn hs
  refine ⟨(s.setFld (ckReg 0) n n 0).orReg (ckReg 0) (2 ^ 31), congrArg Host.Outcome.next (if_pos hn), ?_, fun m hm hmn => ?_,
    onlyRegs_mono (onlyRegs_trans (onlyRegs_setFld s _ _ _ _) (onlyRegs_orReg _ _ _)) fun _ ha => by simpa using ha⟩
  · rw [s.bit_pllUnlock hs hn, if_pos rfl]
  · rw [s.bit_pllUnlock hs hm, if_neg hmn]

end Sys2Proof.Machine
end
